-- ==== Sys2Proof/Word.lean ====
section
/-! DEFINITION. The words of the machine (R1, R150, R165): bytes, 32-bit and 64-bit words, vectors of 64 lanes, and
sparse stores, which list only what is not zero. -/

namespace Sys2Proof

/-- A byte. -/
abbrev Byte := BitVec 8
/-- A 32-bit word: a lane, a syllable, a literal. -/
abbrev W32 := BitVec 32
/-- A 64-bit word: a scalar register. -/
abbrev W64 := BitVec 64
/-- A vector: 64 lanes of 32 bits (R102). -/
abbrev Lanes := Vector W32 64

/-- The vector whose lane `i` is `f i`. -/
def mkLanes (f : Nat → W32) : Lanes := Vector.ofFn fun i => f i.val

/-- The vector with `w` in every lane. -/
def splat (w : W32) : Lanes := Vector.replicate 64 w

/-- Lane `i` of a vector; lanes at or beyond 64 read zero. -/
def lane (v : Lanes) (i : Nat) : W32 := if h : i < 64 then v[i] else 0

/-- A store that holds zero wherever it lists nothing: keys strictly rising, no zero entry. -/
abbrev Sparse (w : Nat) := List (Nat × BitVec w)

end Sys2Proof
end

