-- ==== Sys2Proof/Machine/Bits.lean ====
section
/-! DEFINITION. Bit fields, sign extension and byte order (R1). -/

namespace Sys2Proof

/-- The field of `n` bits of `w` whose lowest bit is bit `lo` (R1). -/
def fld (w lo n : Nat) : Nat := w / 2 ^ lo % 2 ^ n

/-- Bit `i` of a word. -/
def bitAt {n : Nat} (w : BitVec n) (i : Nat) : Bool := w.getLsbD i

/-- A Bool as a number. -/
def bnat (b : Bool) : Nat := if b then 1 else 0

/-- A 64-bit scalar's low half. -/
def low32 (w : W64) : W32 := w.truncate 32

/-- A 64-bit scalar's high half. -/
def high32 (w : W64) : W32 := (w >>> 32).truncate 32

/-- A literal that stands for a scalar, sign-extended from bit 31 (R77). -/
def sext (w : W32) : W64 := w.signExtend 64

/-- The `n` bytes of a number, lowest first (R1). -/
def bytesOf (n v : Nat) : List Byte := (List.range n).map fun i => BitVec.ofNat 8 (v / 2 ^ (8 * i))

/-- The number whose bytes, lowest first, are given (R1). -/
def natOfBytes : List Byte → Nat
  | [] => 0
  | b :: bs => b.toNat + 256 * natOfBytes bs

/-- The 32-bit words of a byte string, four bytes each, low byte first; a last part of fewer bytes is dropped. -/
def wordsOf : List Byte → List W32
  | a :: b :: c :: d :: rest => BitVec.ofNat 32 (natOfBytes [a, b, c, d]) :: wordsOf rest
  | _ => []

/-- Insert into a sorted list, after what is not greater. -/
def insertBy {α : Type} (le : α → α → Bool) (x : α) : List α → List α
  | [] => [x]
  | y :: ys => if le y x then y :: insertBy le x ys else x :: y :: ys

/-- Sort a list; equals keep their order. -/
def sortBy {α : Type} (le : α → α → Bool) (xs : List α) : List α := xs.foldl (fun acc x => insertBy le x acc) []

end Sys2Proof
end

