-- ==== Sys2Proof/Syntax.lean ====
section
/-! DEFINITION. The instructions: the 204 syllables of a bundle (R75 to R88), with their operands and literals as typed
fields, and the 120 steps and events of the device that the opcode table lists. One constructor per row. -/

namespace Sys2Proof

/-- A scalar register number, s0 to s31. -/
abbrev Reg := BitVec 5
/-- A predicate number; 12 to 15 are ill-formed (R76). -/
abbrev PReg := BitVec 4

/-- The fields every V, M and X syllable has (R75): End, and the guard with its Negate. -/
structure Head where
  last : Bool
  neg  : Bool
  g    : PReg
  deriving DecidableEq, Repr

/-- The fields every S syllable has: those of `Head`, and the Sync and Shadow flags (R79). -/
structure SHead where
  last   : Bool
  neg    : Bool
  g      : PReg
  sync   : Bool
  shadow : Bool
  deriving DecidableEq, Repr

/-- A vector source (R80); codes 30 and 31 carry their literal word. -/
inductive VSrc where
  | o (n : BitVec 4)
  | l (n : BitVec 2)
  | pop (n : BitVec 2)
  | keep (n : BitVec 2)
  | zero
  | lane
  | imm (w : W32)
  | sreg (r : Reg)
  deriving DecidableEq, Repr

/-- A vector destination (R80): o0 to o15, or the last-result file only. -/
inductive VDst where
  | o (n : BitVec 4)
  | last
  deriving DecidableEq, Repr

/-- A stored vector source (R217, R219): o0 to o15 or l0 to l3. -/
inductive OSrc where
  | o (n : BitVec 4)
  | l (n : BitVec 2)
  deriving DecidableEq, Repr

/-- An XT stamp (R83): relative to the issue beat, or the beat a scalar register holds. -/
inductive Stamp where
  | rel (n : BitVec 9)
  | abs (r : Reg)
  deriving DecidableEq, Repr

/-- A conversion control word (R173). -/
structure Conv where
  half : Bool
  rnd  : BitVec 3
  toS  : Bool
  frS  : Bool
  dst  : BitVec 4
  src  : BitVec 4
  deriving DecidableEq, Repr

/-- One cluster context of a strand: strand identifier, logical core, cluster. -/
structure CRef where
  strand : Nat
  core   : Nat
  cl     : Nat
  deriving DecidableEq, Repr

/-- One logical core of a strand. -/
structure CoreRef where
  strand : Nat
  core   : Nat
  deriving DecidableEq, Repr

/-- The engines that keep a command queue and configuration planes (R185). -/
inductive Eng where
  | me | te | re
  deriving DecidableEq, Repr

/-- The queue a packet was accepted from (R32): a host queue, or the device queue of a context. -/
inductive QRef where
  | host (n : Nat)
  | device (ctx : Nat)
  deriving DecidableEq, Repr

/-- A LAUNCH packet's fields (R31, R33). -/
structure LaunchPkt where
  seq     : W32
  cls     : Nat
  noWait  : Bool
  image   : W64
  param   : W64
  ctrbase : W64
  count   : Nat
  det     : Bool
  tagck   : Bool
  serial  : Bool
  cookie  : W64
  mbx     : Vector W64 8
  deriving DecidableEq, Repr

/-- A GRAPH packet's fields (R33). -/
structure GraphPkt where
  seq    : W32
  cls    : Nat
  noWait : Bool
  base   : W64
  nodes  : Nat
  entry  : Nat
  patchAt    : W64
  patchCount : Nat
  done   : W64
  deriving DecidableEq, Repr

/-- A WAITWORD packet's fields (R33). -/
structure WaitPkt where
  seq     : W32
  addr    : W64
  mask    : W64
  value   : W64
  cond    : BitVec 2
  timeout : W64
  deriving DecidableEq, Repr

/-- A SETWORD packet's fields (R33). -/
structure SetPkt where
  seq   : W32
  addr  : W64
  value : W64
  after : Bool
  deriving DecidableEq, Repr

/-- A QUOTA packet's fields (R33). -/
structure QuotaPkt where
  energy : W64
  limit  : Nat
  floor  : Nat
  deriving DecidableEq, Repr

/-- A graph node as read and patched: its eight words (R39, R41). -/
abbrev NodeWords := Vector W64 8

/-- One activation of a graph node (R41): the node, the seed carried, the predecessor it came from. -/
structure Activation where
  node : Nat
  seed : W64
  pred : Nat
  deriving DecidableEq, Repr

/-- A unit whose errors are counted or that can be fenced (R292). Cores are device core numbers. -/
inductive HwUnit where
  | core (n : Nat)
  | bank (core n : Nat)
  | accBank (core n : Nat)
  | plane (core n : Nat)
  | dram (gib : Nat)
  | port (n : Nat)
  | cxl (n : Nat)
  deriving DecidableEq, Repr

/-- The instructions and steps of the machine, in the order of the opcode table. -/
inductive Instr where
  /-- NOP (R161). -/
  | nop (h : SHead)
  /-- HALT (R161). -/
  | halt (h : SHead)
  /-- ADD (R151). -/
  | add (h : SHead) (d : Reg) (a : Reg) (b : Reg)
  /-- SUB (R151). -/
  | sub (h : SHead) (d : Reg) (a : Reg) (b : Reg)
  /-- AND (R151). -/
  | and (h : SHead) (d : Reg) (a : Reg) (b : Reg)
  /-- OR (R151). -/
  | or (h : SHead) (d : Reg) (a : Reg) (b : Reg)
  /-- XOR (R151). -/
  | xor (h : SHead) (d : Reg) (a : Reg) (b : Reg)
  /-- ANDN (R151). -/
  | andn (h : SHead) (d : Reg) (a : Reg) (b : Reg)
  /-- SHL (R151). -/
  | shl (h : SHead) (d : Reg) (a : Reg) (b : Reg)
  /-- SHR (R151). -/
  | shr (h : SHead) (d : Reg) (a : Reg) (b : Reg)
  /-- SAR (R151). -/
  | sar (h : SHead) (d : Reg) (a : Reg) (b : Reg)
  /-- ROTL (R151). -/
  | rotl (h : SHead) (d : Reg) (a : Reg) (b : Reg)
  /-- MUL (R152). -/
  | mul (h : SHead) (d : Reg) (a : Reg) (b : Reg)
  /-- MULH_I (R152). -/
  | mulhI (h : SHead) (d : Reg) (a : Reg) (b : Reg)
  /-- MULH_N (R152). -/
  | mulhN (h : SHead) (d : Reg) (a : Reg) (b : Reg)
  /-- DIV_I (R152). -/
  | divI (h : SHead) (d : Reg) (a : Reg) (b : Reg)
  /-- DIV_N (R152). -/
  | divN (h : SHead) (d : Reg) (a : Reg) (b : Reg)
  /-- MOD_I (R152). -/
  | modI (h : SHead) (d : Reg) (a : Reg) (b : Reg)
  /-- MOD_N (R152). -/
  | modN (h : SHead) (d : Reg) (a : Reg) (b : Reg)
  /-- MIN_I (R151). -/
  | minI (h : SHead) (d : Reg) (a : Reg) (b : Reg)
  /-- MIN_N (R151). -/
  | minN (h : SHead) (d : Reg) (a : Reg) (b : Reg)
  /-- MAX_I (R151). -/
  | maxI (h : SHead) (d : Reg) (a : Reg) (b : Reg)
  /-- MAX_N (R151). -/
  | maxN (h : SHead) (d : Reg) (a : Reg) (b : Reg)
  /-- SEL (R154). -/
  | sel (h : SHead) (d : Reg) (a : Reg) (b : Reg)
  /-- CLZ (R151). -/
  | clz (h : SHead) (d : Reg) (a : Reg)
  /-- POPC (R151). -/
  | popc (h : SHead) (d : Reg) (a : Reg)
  /-- BFX (R153). -/
  | bfx (h : SHead) (d : Reg) (a : Reg) (b : Reg)
  /-- BFI (R153). -/
  | bfi (h : SHead) (d : Reg) (a : Reg) (b : Reg)
  /-- LEA (R154). -/
  | lea (h : SHead) (d : Reg) (a : Reg) (b : Reg)
  /-- MOV (R154). -/
  | mov (h : SHead) (d : Reg) (a : Reg)
  /-- ADDL (R155). -/
  | addl (h : SHead) (d : Reg) (a : Reg) (w : W32)
  /-- SUBL (R155). -/
  | subl (h : SHead) (d : Reg) (a : Reg) (w : W32)
  /-- ANDL (R155). -/
  | andl (h : SHead) (d : Reg) (a : Reg) (w : W32)
  /-- ORL (R155). -/
  | orl (h : SHead) (d : Reg) (a : Reg) (w : W32)
  /-- XORL (R155). -/
  | xorl (h : SHead) (d : Reg) (a : Reg) (w : W32)
  /-- ANDNL (R155). -/
  | andnl (h : SHead) (d : Reg) (a : Reg) (w : W32)
  /-- SHLL (R155). -/
  | shll (h : SHead) (d : Reg) (a : Reg) (w : W32)
  /-- SHRL (R155). -/
  | shrl (h : SHead) (d : Reg) (a : Reg) (w : W32)
  /-- SARL (R155). -/
  | sarl (h : SHead) (d : Reg) (a : Reg) (w : W32)
  /-- ROTLL (R155). -/
  | rotll (h : SHead) (d : Reg) (a : Reg) (w : W32)
  /-- MULL (R155). -/
  | mull (h : SHead) (d : Reg) (a : Reg) (w : W32)
  /-- MINL_I (R155). -/
  | minlI (h : SHead) (d : Reg) (a : Reg) (w : W32)
  /-- MINL_N (R155). -/
  | minlN (h : SHead) (d : Reg) (a : Reg) (w : W32)
  /-- MAXL_I (R155). -/
  | maxlI (h : SHead) (d : Reg) (a : Reg) (w : W32)
  /-- MAXL_N (R155). -/
  | maxlN (h : SHead) (d : Reg) (a : Reg) (w : W32)
  /-- MOVL (R155). -/
  | movl (h : SHead) (d : Reg) (w : W32)
  /-- LEAL (R155). -/
  | leal (h : SHead) (d : Reg) (a : Reg) (w : W32)
  /-- CMP_EQ (R156). -/
  | cmpEq (h : SHead) (d : PReg) (a : Reg) (b : Reg)
  /-- CMP_NE (R156). -/
  | cmpNe (h : SHead) (d : PReg) (a : Reg) (b : Reg)
  /-- CMP_LT_I (R156). -/
  | cmpLtI (h : SHead) (d : PReg) (a : Reg) (b : Reg)
  /-- CMP_GE_I (R156). -/
  | cmpGeI (h : SHead) (d : PReg) (a : Reg) (b : Reg)
  /-- CMP_LT_N (R156). -/
  | cmpLtN (h : SHead) (d : PReg) (a : Reg) (b : Reg)
  /-- CMP_GE_N (R156). -/
  | cmpGeN (h : SHead) (d : PReg) (a : Reg) (b : Reg)
  /-- CMPL_EQ (R156). -/
  | cmplEq (h : SHead) (d : PReg) (a : Reg) (w : W32)
  /-- CMPL_NE (R156). -/
  | cmplNe (h : SHead) (d : PReg) (a : Reg) (w : W32)
  /-- CMPL_LT_I (R156). -/
  | cmplLtI (h : SHead) (d : PReg) (a : Reg) (w : W32)
  /-- CMPL_GE_I (R156). -/
  | cmplGeI (h : SHead) (d : PReg) (a : Reg) (w : W32)
  /-- CMPL_LT_N (R156). -/
  | cmplLtN (h : SHead) (d : PReg) (a : Reg) (w : W32)
  /-- CMPL_GE_N (R156). -/
  | cmplGeN (h : SHead) (d : PReg) (a : Reg) (w : W32)
  /-- BR (R162). -/
  | br (h : SHead) (ofs : BitVec 15)
  /-- CALL (R162). -/
  | call (h : SHead) (ofs : BitVec 15)
  /-- JMP (R162). -/
  | jmp (h : SHead) (a : Reg)
  /-- RET (R162). -/
  | ret (h : SHead)
  /-- LOOP (R111). -/
  | loop (h : SHead) (c : BitVec 2) (k : Reg) (t : BitVec 8)
  /-- LOOPL (R111). -/
  | loopl (h : SHead) (c : BitVec 2) (t : BitVec 8) (w : W32)
  /-- CWAIT (R114). -/
  | cwait (h : SHead) (m : BitVec 4)
  /-- PAND (R157). -/
  | pand (h : SHead) (d : PReg) (a : PReg) (b : PReg)
  /-- POR (R157). -/
  | por (h : SHead) (d : PReg) (a : PReg) (b : PReg)
  /-- PXOR (R157). -/
  | pxor (h : SHead) (d : PReg) (a : PReg) (b : PReg)
  /-- PNOT (R157). -/
  | pnot (h : SHead) (d : PReg) (a : PReg)
  /-- PFIRST (R157). -/
  | pfirst (h : SHead) (d : PReg) (a : PReg)
  /-- PCOUNT (R157). -/
  | pcount (h : SHead) (d : Reg) (a : PReg)
  /-- PANY (R157). -/
  | pany (h : SHead) (d : PReg) (a : PReg)
  /-- PALL (R157). -/
  | pall (h : SHead) (d : PReg) (a : PReg)
  /-- MFS (R158). -/
  | mfs (h : SHead) (r : Reg) (code : BitVec 10)
  /-- MTS (R158). -/
  | mts (h : SHead) (r : Reg) (code : BitVec 10)
  /-- VADD (R167). -/
  | vadd (h : Head) (d : VDst) (a : VSrc) (b : VSrc)
  /-- VSUB (R167). -/
  | vsub (h : Head) (d : VDst) (a : VSrc) (b : VSrc)
  /-- VMUL (R167). -/
  | vmul (h : Head) (d : VDst) (a : VSrc) (b : VSrc)
  /-- VMULH_I (R167). -/
  | vmulhI (h : Head) (d : VDst) (a : VSrc) (b : VSrc)
  /-- VMULH_N (R167). -/
  | vmulhN (h : Head) (d : VDst) (a : VSrc) (b : VSrc)
  /-- VMIN_I (R167). -/
  | vminI (h : Head) (d : VDst) (a : VSrc) (b : VSrc)
  /-- VMIN_N (R167). -/
  | vminN (h : Head) (d : VDst) (a : VSrc) (b : VSrc)
  /-- VMAX_I (R167). -/
  | vmaxI (h : Head) (d : VDst) (a : VSrc) (b : VSrc)
  /-- VMAX_N (R167). -/
  | vmaxN (h : Head) (d : VDst) (a : VSrc) (b : VSrc)
  /-- VAND (R167). -/
  | vand (h : Head) (d : VDst) (a : VSrc) (b : VSrc)
  /-- VOR (R167). -/
  | vor (h : Head) (d : VDst) (a : VSrc) (b : VSrc)
  /-- VXOR (R167). -/
  | vxor (h : Head) (d : VDst) (a : VSrc) (b : VSrc)
  /-- VSHL (R167). -/
  | vshl (h : Head) (d : VDst) (a : VSrc) (b : VSrc)
  /-- VSHR (R167). -/
  | vshr (h : Head) (d : VDst) (a : VSrc) (b : VSrc)
  /-- VSAR (R167). -/
  | vsar (h : Head) (d : VDst) (a : VSrc) (b : VSrc)
  /-- VADDS_I (R167). -/
  | vaddsI (h : Head) (d : VDst) (a : VSrc) (b : VSrc)
  /-- VADDS_N (R167). -/
  | vaddsN (h : Head) (d : VDst) (a : VSrc) (b : VSrc)
  /-- VSUBS_I (R167). -/
  | vsubsI (h : Head) (d : VDst) (a : VSrc) (b : VSrc)
  /-- VSUBS_N (R167). -/
  | vsubsN (h : Head) (d : VDst) (a : VSrc) (b : VSrc)
  /-- VABS (R167). -/
  | vabs (h : Head) (d : VDst) (a : VSrc)
  /-- VFADD (R168). -/
  | vfadd (h : Head) (d : VDst) (a : VSrc) (b : VSrc) (rm : BitVec 2)
  /-- VFSUB (R168). -/
  | vfsub (h : Head) (d : VDst) (a : VSrc) (b : VSrc) (rm : BitVec 2)
  /-- VFMUL (R168). -/
  | vfmul (h : Head) (d : VDst) (a : VSrc) (b : VSrc) (rm : BitVec 2)
  /-- VFMA (R168). -/
  | vfma (h : Head) (d : VDst) (a : VSrc) (b : VSrc) (rm : BitVec 2)
  /-- VFMIN (R168). -/
  | vfmin (h : Head) (d : VDst) (a : VSrc) (b : VSrc)
  /-- VFMAX (R168). -/
  | vfmax (h : Head) (d : VDst) (a : VSrc) (b : VSrc)
  /-- VFABS (R168). -/
  | vfabs (h : Head) (d : VDst) (a : VSrc)
  /-- VFNEG (R168). -/
  | vfneg (h : Head) (d : VDst) (a : VSrc)
  /-- VMOV (R169). -/
  | vmov (h : Head) (d : VDst) (a : VSrc)
  /-- VSEL (R169). -/
  | vsel (h : Head) (d : VDst) (a : VSrc) (b : VSrc)
  /-- VCMP_EQ (R170). -/
  | vcmpEq (h : Head) (d : PReg) (a : VSrc) (b : VSrc)
  /-- VCMP_NE (R170). -/
  | vcmpNe (h : Head) (d : PReg) (a : VSrc) (b : VSrc)
  /-- VCMP_LT_I (R170). -/
  | vcmpLtI (h : Head) (d : PReg) (a : VSrc) (b : VSrc)
  /-- VCMP_GE_I (R170). -/
  | vcmpGeI (h : Head) (d : PReg) (a : VSrc) (b : VSrc)
  /-- VCMP_LT_N (R170). -/
  | vcmpLtN (h : Head) (d : PReg) (a : VSrc) (b : VSrc)
  /-- VCMP_GE_N (R170). -/
  | vcmpGeN (h : Head) (d : PReg) (a : VSrc) (b : VSrc)
  /-- VFCMP_EQ (R170). -/
  | vfcmpEq (h : Head) (d : PReg) (a : VSrc) (b : VSrc)
  /-- VFCMP_LT (R170). -/
  | vfcmpLt (h : Head) (d : PReg) (a : VSrc) (b : VSrc)
  /-- VFCMP_LE (R170). -/
  | vfcmpLe (h : Head) (d : PReg) (a : VSrc) (b : VSrc)
  /-- VFCMP_UN (R170). -/
  | vfcmpUn (h : Head) (d : PReg) (a : VSrc) (b : VSrc)
  /-- VDOT4 (R171). -/
  | vdot4 (h : Head) (d : VDst) (a : VSrc) (b : VSrc) (sg : BitVec 2)
  /-- VSCALEB (R172). -/
  | vscaleb (h : Head) (d : VDst) (a : VSrc) (b : VSrc) (rm : BitVec 2)
  /-- VCVT (R174). -/
  | vcvt (h : Head) (d : VDst) (a : VSrc) (cv : Conv)
  /-- VCVTT (R175). -/
  | vcvtt (h : Head) (d : VDst) (a : VSrc)
  /-- VPACK (R176). -/
  | vpack (h : Head) (d : VDst) (a : VSrc) (b : VSrc) (cv : Conv)
  /-- VUNPK (R177). -/
  | vunpk (h : Head) (d : VDst) (a : VSrc) (cv : Conv)
  /-- VRSUM (R179). -/
  | vrsum (h : Head) (d : VDst) (a : VSrc) (ty : BitVec 2)
  /-- VRMAX (R179). -/
  | vrmax (h : Head) (d : VDst) (a : VSrc) (ty : BitVec 2)
  /-- VRMIN (R179). -/
  | vrmin (h : Head) (d : VDst) (a : VSrc) (ty : BitVec 2)
  /-- VSCAN (R180). -/
  | vscan (h : Head) (d : VDst) (a : VSrc) (ty : BitVec 2)
  /-- VSORT (R181). -/
  | vsort (h : Head) (d : VDst) (a : VSrc) (b : VSrc) (ty : BitVec 2)
  /-- VSHUF (R182). -/
  | vshuf (h : Head) (d : VDst) (a : VSrc) (b : VSrc)
  /-- VROT (R182). -/
  | vrot (h : Head) (d : VDst) (a : VSrc) (b : VSrc)
  /-- VROT_ZF (R182). -/
  | vrotZf (h : Head) (d : VDst) (a : VSrc) (b : VSrc)
  /-- VBCAST (R182). -/
  | vbcast (h : Head) (d : VDst) (a : VSrc) (b : VSrc)
  /-- VRAND (R183). -/
  | vrand (h : Head) (d : VDst) (a : VSrc) (b : VSrc) (u : Bool) (word : BitVec 2) (layer : BitVec 24)
  /-- TEVAL (R184). -/
  | teval (h : Head) (d : VDst) (a : VSrc) (k : BitVec 2)
  /-- DRAW_IMMEDIATE (R215). -/
  | drawImmediate (h : Head) (q : BitVec 2) (p : BitVec 5) (r : BitVec 2) (i : BitVec 6)
  /-- DRAW_REGISTER (R215). -/
  | drawRegister (h : Head) (q : BitVec 2) (p : BitVec 5) (r : BitVec 2) (x : Reg)
  /-- PUT_OPERAND_IMMEDIATE (R216). -/
  | putOperandImmediate (h : Head) (o : BitVec 4) (p : BitVec 5) (r : BitVec 2) (i : BitVec 6)
  /-- PUT_OPERAND_REGISTER (R216). -/
  | putOperandRegister (h : Head) (o : BitVec 4) (p : BitVec 5) (r : BitVec 2) (x : Reg)
  /-- PUT_LAST_RESULT_IMMEDIATE (R216). -/
  | putLastResultImmediate (h : Head) (l : BitVec 2) (p : BitVec 5) (r : BitVec 2) (i : BitVec 6)
  /-- PUT_LAST_RESULT_REGISTER (R216). -/
  | putLastResultRegister (h : Head) (l : BitVec 2) (p : BitVec 5) (r : BitVec 2) (x : Reg)
  /-- SLD (R217). -/
  | sld (h : Head) (d : VDst) (k : Reg) (f : BitVec 7)
  /-- SLD_TAGGED (R218). -/
  | sldTagged (h : Head) (d : VDst) (k : Reg) (f : BitVec 7) (tag : Byte)
  /-- SST (R217). -/
  | sst (h : Head) (o : OSrc) (k : Reg) (f : BitVec 7)
  /-- SST_TAGGED (R218). -/
  | sstTagged (h : Head) (o : OSrc) (k : Reg) (f : BitVec 7) (tag : Byte)
  /-- SLDS (R217). -/
  | slds (h : Head) (r : Reg) (k : Reg) (f : BitVec 7)
  /-- SLDS_TAGGED (R218). -/
  | sldsTagged (h : Head) (r : Reg) (k : Reg) (f : BitVec 7) (tag : Byte)
  /-- SSTS (R217). -/
  | ssts (h : Head) (r : Reg) (k : Reg) (f : BitVec 7)
  /-- SSTS_TAGGED (R218). -/
  | sstsTagged (h : Head) (r : Reg) (k : Reg) (f : BitVec 7) (tag : Byte)
  /-- LD (R225). -/
  | ld (h : Head) (d : Reg) (a : Reg) (b : Reg) (m : BitVec 2)
  /-- ST (R225). -/
  | st (h : Head) (d : Reg) (a : Reg) (b : Reg) (m : BitVec 2)
  /-- ECOPY (R226). -/
  | ecopy (h : Head) (d : Reg) (a : Reg) (b : Reg) (m : BitVec 2)
  /-- MARK (R227). -/
  | mark (h : Head)
  /-- LQWAIT (R229). -/
  | lqwait (h : Head) (v : BitVec 5)
  /-- SQWAIT (R229). -/
  | sqwait (h : Head) (v : BitVec 5)
  /-- FENCE (R228). -/
  | fence (h : Head) (v : BitVec 5)
  /-- AADD (R230). -/
  | aadd (h : Head) (d : Reg) (a : Reg) (b : Reg) (m : BitVec 2)
  /-- AMIN_I (R230). -/
  | aminI (h : Head) (d : Reg) (a : Reg) (b : Reg) (m : BitVec 2)
  /-- AMIN_N (R230). -/
  | aminN (h : Head) (d : Reg) (a : Reg) (b : Reg) (m : BitVec 2)
  /-- AMAX_I (R230). -/
  | amaxI (h : Head) (d : Reg) (a : Reg) (b : Reg) (m : BitVec 2)
  /-- AMAX_N (R230). -/
  | amaxN (h : Head) (d : Reg) (a : Reg) (b : Reg) (m : BitVec 2)
  /-- AAND (R230). -/
  | aand (h : Head) (d : Reg) (a : Reg) (b : Reg) (m : BitVec 2)
  /-- AOR (R230). -/
  | aor (h : Head) (d : Reg) (a : Reg) (b : Reg) (m : BitVec 2)
  /-- AXOR (R230). -/
  | axor (h : Head) (d : Reg) (a : Reg) (b : Reg) (m : BitVec 2)
  /-- AXCHG (R230). -/
  | axchg (h : Head) (d : Reg) (a : Reg) (b : Reg) (m : BitVec 2)
  /-- ACAS (R230). -/
  | acas (h : Head) (d : Reg) (a : Reg) (b : Reg) (m : BitVec 2)
  /-- AFADD (R230). -/
  | afadd (h : Head) (d : Reg) (a : Reg) (b : Reg) (m : BitVec 2)
  /-- BARA (R232). -/
  | bara (h : Head) (d : Reg) (a : Reg) (m : BitVec 2)
  /-- BARW (R233). -/
  | barw (h : Head) (a : Reg) (b : Reg) (m : BitVec 2)
  /-- FLAGW (R234). -/
  | flagw (h : Head) (d : Reg) (a : Reg) (b : Reg) (sc : BitVec 2) (cc : BitVec 2)
  /-- PREF (R235). -/
  | pref (h : Head) (a : Reg) (b : Reg)
  /-- IPREF (R93). -/
  | ipref (h : Head) (a : Reg) (b : Reg) (l : BitVec 2)
  /-- IPIN (R94). -/
  | ipin (h : Head) (d : Reg) (a : Reg) (b : Reg) (l : BitVec 2)
  /-- IUNPIN (R94). -/
  | iunpin (h : Head) (a : Reg) (b : Reg) (l : BitVec 2)
  /-- ICINV (R95). -/
  | icinv (h : Head) (a : Reg) (b : Reg)
  /-- PARK (R219). -/
  | park (h : Head) (o : OSrc) (a : Reg) (b : Reg)
  /-- UNPARK (R219). -/
  | unpark (h : Head) (d : VDst) (a : Reg) (b : Reg)
  /-- MCFG (R186). -/
  | mcfg (h : Head) (st : Stamp) (g : Reg) (ofs : BitVec 11) (eng : BitVec 2)
  /-- MGO (R194). -/
  | mgo (h : Head) (st : Stamp) (cb : Bool) (ca : Bool) (bt : Byte) (at_ : Byte)
  /-- MSTOP (R198). -/
  | mstop (h : Head) (st : Stamp)
  /-- MBASE (R199). -/
  | mbase (h : Head) (st : Stamp) (g : Reg) (which : BitVec 3)
  /-- CFGLD (R187). -/
  | cfgld (h : Head) (st : Stamp) (g : Reg) (ck : Bool) (tag : Byte) (ofs : Byte) (len : Byte) (eng : BitVec 2)
  /-- CFGSWAP (R188). -/
  | cfgswap (h : Head) (st : Stamp) (eng : BitVec 2)
  /-- MFMT (R193). -/
  | mfmt (h : Head) (st : Stamp) (g : Reg) (e : BitVec 4)
  /-- ACZERO (R204). -/
  | aczero (h : Head) (st : Stamp) (rows : BitVec 6) (row : BitVec 6) (bank : BitVec 5)
  /-- ACALLOC (R200). -/
  | acalloc (h : Head) (d : Reg) (a : Reg) (zero : Bool) (park : Bool)
  /-- ACFREE (R201). -/
  | acfree (h : Head) (a : Reg)
  /-- ACOWN (R202). -/
  | acown (h : Head) (a : Reg) (b : Reg)
  /-- ACLD (R203). -/
  | acld (h : Head) (d : VDst) (a : Reg) (b : Reg) (cv : Conv)
  /-- XCOPY (R220). -/
  | xcopy (h : Head) (st : Stamp) (g : Reg) (rem : BitVec 2) (ck : Bool) (ex : Byte) (stg : Bool) (tag : Byte) (dst : BitVec 5) (frm : BitVec 5)
  /-- TSLD (R223). -/
  | tsld (h : Head) (st : Stamp) (g : Reg) (slot : BitVec 5)
  /-- TSEV (R223). -/
  | tsev (h : Head) (st : Stamp) (slot : BitVec 5)
  /-- TLOAD (R207). -/
  | tload (h : Head) (st : Stamp) (g : Reg) (ck : Bool) (tag : Byte) (tb : BitVec 2)
  /-- RLOAD (R209). -/
  | rload (h : Head) (st : Stamp) (g : Reg) (ck : Bool) (tag : Byte)
  /-- RSTEP (R210). -/
  | rstep (h : Head) (st : Stamp) (g : Reg) (gens : BitVec 6) (cheq : Bool) (nb : BitVec 2) (alt : BitVec 5) (pl : BitVec 5)
  /-- WAITB (R237). -/
  | waitb (h : Head) (a : Reg)
  /-- WAITB_UNTIL (R237). -/
  | waitbUntil (h : Head) (a : Reg)
  /-- DEADLINE (R245). -/
  | deadline (h : Head) (a : Reg) (b : Reg)
  /-- DEADLINE_CLR (R245). -/
  | deadlineClr (h : Head)
  /-- ACQP (R246). -/
  | acqp (h : Head) (n : BitVec 5)
  /-- RELP (R247). -/
  | relp (h : Head)
  /-- MOLT (R248). -/
  | molt (h : Head) (d : Reg) (a : Reg)
  /-- ENQ (R249). -/
  | enq (h : Head) (d : Reg) (a : Reg) (b : Reg)
  /-- TRAP (R242). -/
  | trap (h : Head) (a : Reg) (n : BitVec 5)
  /-- TRET (R243). -/
  | tret (h : Head)
  /-- TRET_SKIP (R243). -/
  | tretSkip (h : Head) (n : BitVec 5)
  /-- MCFG_START (R186): At its stamp, writes the captured scalar into the shadow configuration plane. -/
  | mcfgStart (c : CoreRef) (e : Eng)
  /-- CFGLD_START (R187): At its stamp, checks the source and begins filling the shadow plane from scratchpad. -/
  | cfgldStart (c : CoreRef) (e : Eng)
  /-- CFGSWAP_START (R138): At its stamp, flips the planes if the engine is idle or arms the flip for the drain point. -/
  | cfgswapStart (c : CoreRef) (e : Eng)
  /-- CFGSWAP_FLIP (R138): Flips the configuration planes on the beat after the command in progress ends. -/
  | cfgswapFlip (c : CoreRef) (e : Eng)
  /-- MGO_START (R194): At its stamp, checks the plane, format entry and banks and begins the matrix nest. -/
  | mgoStart (c : CoreRef)
  /-- MATRIX_BLOCK_STEP (R195): Starts one block step of a nest, checking its operands and accumulating into C. -/
  | matrixBlockStep (c : CoreRef)
  /-- MSTOP_START (R198): At its stamp, stops any further matrix step from starting. -/
  | mstopStart (c : CoreRef)
  /-- MBASE_START (R199): At its stamp, writes a new base into the active matrix plane. -/
  | mbaseStart (c : CoreRef)
  /-- MFMT_START (R193): At its stamp, writes a format-table entry. -/
  | mfmtStart (c : CoreRef)
  /-- ACZERO_START (R204): At its stamp, checks the bank state and zeroes the named rows. -/
  | aczeroStart (c : CoreRef)
  /-- XCOPY_START (R221): At its stamp, reads both slots, checks the copy and commits its charges. -/
  | xcopyStart (c : CoreRef)
  /-- XCOPY_CHUNK (R139): Reads one chunk of a copy at its read beat, checking the source tag. -/
  | xcopyChunk (c : CoreRef) (id : Nat) (j : Nat)
  /-- TSLD_START (R223): At its stamp, reads and checks a descriptor into a shape slot. -/
  | tsldStart (c : CoreRef)
  /-- TSEV_START (R223): At its stamp, empties a shape slot. -/
  | tsevStart (c : CoreRef)
  /-- TLOAD_START (R207): At its stamp, checks the address and begins reading the table image. -/
  | tloadStart (c : CoreRef)
  /-- TLOAD_REPLACE (R207): At beat t + 19, checks the header and replaces the table whole. -/
  | tloadReplace (c : CoreRef)
  /-- RLOAD_START (R209): At its stamp, checks the address and begins reading the rule table. -/
  | rloadStart (c : CoreRef)
  /-- RLOAD_REPLACE (R209): At beat t + 65, replaces the rule table and sets rgc to 0. -/
  | rloadReplace (c : CoreRef)
  /-- RSTEP_START (R211): At its stamp, checks the command and begins or continues the generations. -/
  | rstepStart (c : CoreRef)
  /-- RSTEP_GENERATION (R212): Completes one generation, writes its result and advances rgc. -/
  | rstepGeneration (c : CoreRef)
  /-- LOAD_PERFORM (R224): An elastic load-queue entry performs, or faults with a Q cause. -/
  | loadPerform (r : CRef)
  /-- LOAD_DATA_ARRIVAL (R225): Load or atomic data arrives and enters its register at the next beat boundary. -/
  | loadDataArrival (r : CRef)
  /-- STORE_PERFORM (R224): An elastic store performs in widening scopes, retires and folds into the digest. -/
  | storePerform (r : CRef)
  /-- ECOPY_PERFORM (R226): An elastic copy reads its whole source and writes its destination. -/
  | ecopyPerform (r : CRef)
  /-- ATOMIC_PERFORM (R230): An atomic reads, modifies and writes its word indivisibly within its scope. -/
  | atomicPerform (r : CRef)
  /-- BARA_PERFORM (R232): A barrier arrival updates the barrier word. -/
  | baraPerform (r : CRef)
  /-- ENQ_PERFORM (R249): An ENQ writes its packet into the device queue or reports it full. -/
  | enqPerform (r : CRef)
  /-- MARKER_RETIRE (R224): A MARK or FENCE entry retires once every entry ahead of it has retired. -/
  | markerRetire (r : CRef)
  /-- ELASTIC_WAIT_RESUME (R21): A frozen strand resumes once its elastic wait's condition becomes visible. -/
  | elasticWaitResume (sid : Nat)
  /-- FETCH_LINE_FILL (R92): Missing instruction lines arrive and the fetch-frozen strand resumes. -/
  | fetchLineFill (sid : Nat)
  /-- TRANSLATION_WALK (R69): A page walk for a timed access completes and the strand resumes. -/
  | translationWalk (sid : Nat)
  /-- POWER_GRANT (R276): The governor grants a waiting current-level request in order. -/
  | powerGrant (k : Nat)
  /-- REGION_LEVEL_FALL (R247): The level of a released region falls to 0 once its commands end. -/
  | regionLevelFall (sid : Nat)
  /-- STALL_WATCHDOG (R70): A freeze or rendezvous hold reaches 2^24 cycles and traps. -/
  | stallWatchdog (sid : Nat)
  /-- DEADLINE_LAPSE (R245): A declaration's beat count reaches zero and lapses. -/
  | deadlineLapse (sid : Nat)
  /-- STRAND_STOP (R281): Stops the whole strand at the stop boundary for a trap and begins its drain. -/
  | strandStop (sid : Nat)
  /-- DRAIN_END (R282): The drain completes, the trap bank is written and the handler begins or the hold completes. -/
  | drainEnd (sid : Nat)
  /-- PREEMPTION_HOLD (R287): Holds a strand at its pre-emption beat and drains it. -/
  | preemptionHold (sid : Nat)
  /-- COMMIT_WINDOW (R58): Commits the weave changes of a 16-cycle window in the fixed order of events. -/
  | commitWindow (k : Nat)
  /-- WEAVE_FLIP (R56): Flips a stack's shadow weave table to active at its flip cycle. -/
  | weaveFlip (k : Nat)
  /-- SCRUB_COMPLETE (R60): A released unit finishes scrubbing to zero. -/
  | scrubComplete (k : Nat)
  /-- STRAND_RETIRE (R294): A strand retires once all clusters have halted and all work has drained. -/
  | strandRetire (sid : Nat)
  /-- DIGEST_REEXECUTION (R302): Re-executes a mismatching task twice serialised and classifies the mismatch. -/
  | digestReexecution (task : Nat)
  /-- RING_RECORD_WRITE (R49): Writes a waiting record into its ring slot and advances Produced. -/
  | ringRecordWrite (ctx : Nat)
  /-- NOP_PACKET (R33): A NOP packet is accepted with no effect. -/
  | nopPacket (q : QRef)
  /-- LAUNCH (R35): A LAUNCH packet is accepted and its task enters the waiting set. -/
  | launch (q : QRef) (p : LaunchPkt)
  /-- GRAPH (R40): A GRAPH packet is accepted, copies its patch table and starts a replay. -/
  | graph (q : QRef) (p : GraphPkt)
  /-- SEEDPUSH (R37): Pushes a value onto the context's seed stack. -/
  | seedpush (q : QRef) (v : W64)
  /-- SEEDPOP (R37): Discards the top of the seed stack. -/
  | seedpop (q : QRef)
  /-- SEEDFORK (R37): Pushes a child seed derived from the top of the seed stack. -/
  | seedfork (q : QRef) (i : W32)
  /-- WAITWORD (R35): Holds its queue until a memory word meets a condition. -/
  | waitword (q : QRef) (p : WaitPkt)
  /-- WAITWORD_POLL (R35): Re-reads a waiting WAITWORD's word at least every 1,000 ns. -/
  | waitwordPoll (q : QRef)
  /-- WAIT_TIMEOUT (R35): A WAITWORD's timeout passes and its queue halts. -/
  | waitTimeout (q : QRef)
  /-- SETWORD (R35): A SETWORD packet stores its value at device scope. -/
  | setword (q : QRef) (p : SetPkt)
  /-- AFTER_PRIOR_STORE (R35): An after-prior SETWORD stores once earlier launches have written their final records. -/
  | afterPriorStore (n : Nat)
  /-- TEARDOWN (R45): Tears down the context: halts its queues, cancels launches and stops its strands. -/
  | teardown (q : QRef)
  /-- QUOTA (R36): Replaces the context's energy quota, strand limit and class floor. -/
  | quota (q : QRef) (p : QuotaPkt)
  /-- PACKET_REREAD (R32): Re-reads a packet whose sequence fields did not match Head after a backoff interval. -/
  | packetReread (q : QRef)
  /-- TORN_PACKET (R32): Halts the queue when a packet has not matched within 64,000 ns. -/
  | tornPacket (q : QRef)
  /-- LAUNCH_AGEING (R22): Raises a waiting launch one priority class per 1,000,000 ns. -/
  | launchAgeing (n : Nat)
  /-- LAUNCH_RESERVATION (R22): Reserves the partition for the first launch after it has waited 4,000,000 ns. -/
  | launchReservation (part : Nat)
  /-- TASK_NODE (R41): A TASK node activation launches a task with the activation's seed. -/
  | taskNode (rep : Nat) (a : Activation) (w : NodeWords)
  /-- COND (R41): A COND node reads its word and activates its then or else edge. -/
  | cond (rep : Nat) (a : Activation) (w : NodeWords)
  /-- LOOP_NODE (R41): A LOOP node reads its word and activates its body with a child seed or its exit. -/
  | loopNode (rep : Nat) (a : Activation) (w : NodeWords)
  /-- SWITCH (R41): A SWITCH node activates the edge its word selects. -/
  | switch (rep : Nat) (a : Activation) (w : NodeWords)
  /-- JOIN (R41): A JOIN node counts arrivals and activates its next edge at the k-th. -/
  | join (rep : Nat) (a : Activation) (w : NodeWords)
  /-- SEED_NODE (R41): A SEED node activates its next edge with a forked or set seed. -/
  | seedNode (rep : Nat) (a : Activation) (w : NodeWords)
  /-- END_NODE (R41): An END node marks its replay ending. -/
  | endNode (rep : Nat) (a : Activation) (w : NodeWords)
  /-- ACTIVATE (R29): Activates a context from its descriptor. -/
  | activate (ctx : Nat)
  /-- RELEASE (R29): Ends an idle context. -/
  | release (ctx : Nat)
  /-- QUEUE_ENABLE (R30): Setting QCTL.Enable resets Head and Tail, clears QSTAT and checks the queue's configuration. -/
  | queueEnable (q : Nat) (v : W64)
  /-- QKICK (R30): Writing QKICK sets a host queue's Tail so that the dispatcher serves its packets. -/
  | qkick (q : Nat) (tail : W32)
  /-- QCMD_RESUME (R32): Clears a queue halt and takes the packet at Head again. -/
  | qcmdResume (q : Nat)
  /-- QCMD_SKIP (R32): Clears a queue halt and advances Head past the halting packet. -/
  | qcmdSkip (q : Nat)
  /-- HOLD (R288): Holds the named strands at their pre-emption beats. -/
  | hold (w : W64)
  /-- PECMD_RESUME (R288): Continues held strands in place in scoreboard mode. -/
  | pecmdResume (w : W64)
  /-- SAVE (R288): Writes the images of held strands and releases their slots and space. -/
  | save (w : W64)
  /-- RESTORE (R288): Reads and checks strand images and returns their strands to the waiting set. -/
  | restore (w : W64)
  /-- TLBINV_ONE_PAGE (R304): Drops a context's translation of one page from every TLB. -/
  | tlbinvOnePage (ctx : Nat)
  /-- TLBINV_WHOLE_CONTEXT (R304): Drops every translation of a context from every TLB. -/
  | tlbinvWholeContext (ctx : Nat)
  /-- MBXCTL (R304): Writes MBXDATA into one mailbox of a running strand. -/
  | mbxctl (strand : W32) (i : Nat)
  /-- LINKCMD_RESUME (R309): Continues strands held by link loss and writes the kept records. -/
  | linkcmdResume
  /-- STACK_RESET (R306): Resets one stack as a compute reset does. -/
  | stackReset (k : Nat)
  /-- COMPUTE_RESET (R306): Resets all four stacks while keeping DRAM contents, the island and contexts. -/
  | computeReset
  /-- FUNCTION_LEVEL_RESET (R307): Cuts and restores compute power and resets every function register within 10,000,000 ns. -/
  | functionLevelReset
  /-- COLD_RESET (R306): Power-on or PERST# clears everything except island non-volatile storage. -/
  | coldReset
  /-- ISLAND_RESET (R306): Resets island state, links and routing tables through management. -/
  | islandReset
  /-- PWRENV (R273): Writes a stack's power envelope, refusing an invalid value. -/
  | pwrenv (k : Nat) (w : W64)
  /-- ACTIVE (R321): PWRCMD moves a unit to ACTIVE, checking RETAIN state on leaving it. -/
  | active (kind : Nat) (unit : Nat)
  /-- GATED (R321): PWRCMD moves a unit to GATED. -/
  | gated (kind : Nat) (unit : Nat)
  /-- RETAIN (R321): PWRCMD moves a unit to RETAIN, keeping state with parity. -/
  | retain (kind : Nat) (unit : Nat)
  /-- OFF (R321): PWRCMD moves a unit to OFF. -/
  | off (kind : Nat) (unit : Nat)
  /-- DROOPCLR (R278): Clears the droop signature tables of the named stacks. -/
  | droopclr (m : BitVec 4)
  /-- ERRCFG (R292): Writes the corrected-error window and threshold, refusing zero fields. -/
  | errcfg (w : W64)
  /-- FENCECLR (R303): Clears every fence. -/
  | fenceclr (w : W64)
  /-- DREFC (R301): Arms a digest reference check for the next matching task. -/
  | drefc (ctx : Nat) (w : W64)
  /-- REGISTER_WRITE (R304): A host write to a register with no behaviour of its own stores its value. -/
  | registerWrite (ofs : Nat) (w : W64)
  /-- SURPRISE_LINK_LOSS (R308): The host link leaves L0 unexpectedly, so host queues halt and host accesses fail. -/
  | surpriseLinkLoss
  /-- LINKGRACE_EXPIRY (R308): After LINKGRACE, every admitted strand is held and admissions stop. -/
  | linkgraceExpiry
  /-- GOVERNOR_EVALUATION (R275): Chooses a stack's operating point from declarations, thermal stretch and the power cap. -/
  | governorEvaluation (k : Nat)
  /-- OPERATING_POINT_CHANGE (R272): A chosen operating point takes effect within 2,000 ns. -/
  | operatingPointChange (k : Nat)
  /-- ENERGY_METERING (R277): Charges metered energy to strands every 1,000 ns and detects quota exhaustion. -/
  | energyMetering (mj : List (Nat × Nat))
  /-- DROOP_DETECTOR_TRIP (R278): The droop detector trips, stretching cycles and learning a signature. -/
  | droopDetectorTrip (k : Nat)
  /-- DROOP_SIGNATURE_MATCH (R278): A stored droop signature matches, stretching the next 64 cycles. -/
  | droopSignatureMatch (k : Nat)
  /-- THERMAL_SAFETY_TRIP (R322): A junction sensor reaches 115 °C and the island cuts compute power. -/
  | thermalSafetyTrip
  /-- CORRECTED_ERROR (R292): Counts a corrected error and fences the unit when the threshold is reached. -/
  | correctedError (u : HwUnit)
  /-- UNCORRECTABLE_ERROR (R290): Marks the struck data poisoned and fences its unit. -/
  | uncorrectableError (u : HwUnit) (at_ : Nat)
  /-- HOST_MEMORY_READ (R303): A host read through a BAR is served by the device or island. -/
  | hostMemoryRead (bar : Nat) (ofs : Nat) (n : Nat)
  /-- HOST_MEMORY_WRITE (R303): A host write through a BAR performs at device scope or is dropped. -/
  | hostMemoryWrite (bar : Nat) (ofs : Nat) (bytes : List Byte)
  /-- DOMAIN_ACCESS (R310): A domain access is resolved through the export table or answered NO-ENDPOINT. `ofs` is the
  place in the domain: R144's device number and window offset, as they stand in a domain address. -/
  | domainAccess (from_ : Nat) (write : Bool) (ofs : Nat) (size : Nat) (v : W64)
  /-- FLIT_REPLAY (R312): A flit that fails its CRC is replayed and counted as a corrected error. -/
  | flitReplay (port : Nat)
  /-- STOP (R312): A receiver's STOP halts a sender's channel within 64 flits. -/
  | stop (port : Nat) (vc : Nat)
  /-- GO (R312): A receiver's GO lets a sender's channel resume. -/
  | go (port : Nat) (vc : Nat)
  /-- DOORBELL (R315): A doorbell store makes the Ethernet engine read a queue pair's work entries. -/
  | doorbell (ctx : Nat) (v : W64)
  /-- FIRMWARE_UPDATE (R318): Verifies a firmware image by LMS signature and anti-rollback before it runs. -/
  | firmwareUpdate (target : Nat) (version : Nat) (image : Nat)
  /-- ATTESTATION (R319): Signs SPDM measurements after committing the advanced one-time-key index. -/
  | attestation
  /-- LINK_RETRAIN (R309): The host link retrains and returns to L0 after a surprise loss, so host-memory accesses stop failing with HOST-ABSENT. -/
  | linkRetrain
  /-- DROOP_STRETCH_END (R278): The 256 or 64 stretched cycles of a droop stretch run out, cycles return to one period and PWRSTAT.Droop clears. -/
  | droopStretchEnd (k : Nat)
  /-- COMPLETION_ENTRY_WRITE (R315): A RoCEv2 operation finishes and the island's Ethernet engine writes a completion entry at device scope. -/
  | completionEntryWrite (ctx : Nat) (va : W64) (v : W64)
  /-- POWER_LOSS (R319): Supply is lost, all volatile state is gone, and a one-time-key index that was committed but not used is skipped. -/
  | powerLoss
  deriving DecidableEq, Repr

end Sys2Proof
end

