-- ==== Sys2Proof/Machine/Checks.lean ====
section
/-! DEFINITION. The field ranges of each syllable (R76, R88): a value outside them raises ILLEGAL. -/

namespace Sys2Proof

/-- A guard index of 12 to 15, or of 0 with Negate set, is ill-formed (R76). -/
def guardOk (neg : Bool) (g : PReg) : Bool := g.toNat < 12 && !(g.toNat == 0 && neg)

/-- The guard of an S syllable is well-formed. -/
def SHead.ok (h : SHead) : Bool := guardOk h.neg h.g
/-- The guard of a V, M or X syllable is well-formed. -/
def Head.ok (h : Head) : Bool := guardOk h.neg h.g
/-- A predicate field names p0 to p11 (R79). -/
def predOk (p : PReg) : Bool := p.toNat < 12

/-- A bank code's offset from 0x100 (or 0x120) names a register of a trap bank (R240). -/
def bankCodeOk (c : Nat) : Bool := c ≤ 5 || (8 ≤ c && c ≤ 13) || (16 ≤ c && c ≤ 19)

/-- The special-register codes MFS reads (R158, R159, R240). -/
def mfsCodeOk (c : Nat) : Bool :=
  c ≤ 2 || (8 ≤ c && c ≤ 0x12) || (0x18 ≤ c && c ≤ 0x1B) || (0x20 ≤ c && c ≤ 0x26) || (0x30 ≤ c && c ≤ 0x33) ||
  (0x40 ≤ c && c ≤ 0x4B) || (0x100 ≤ c && c < 0x140 && bankCodeOk (c % 0x20))

/-- A bank code's offset from 0x100 (or 0x120) names a register a handler may write (R240). -/
def bankWriteOk (c : Nat) : Bool := c == 0 || c == 3 || (16 ≤ c && c ≤ 19)

/-- The special-register codes MTS writes (R158, R159, R240). -/
def mtsCodeOk (c : Nat) : Bool :=
  c == 0x10 || c == 0x19 || c == 0x1A || (0x40 ≤ c && c ≤ 0x4B) ||
  (0x100 ≤ c && c < 0x140 && bankWriteOk (c % 0x20))

/-- FP32, BF16, FP16 (R115). -/
def isFloatFmt (f : Nat) : Bool := f ≤ 2
/-- DX8, DX4 (R115). -/
def isDxFmt (f : Nat) : Bool := f == 3 || f == 4
/-- INT8, INT4, INT16, INT32 (R115). -/
def isIntFmt (f : Nat) : Bool := 5 ≤ f && f ≤ 8

/-- What R173 asks of every conversion word: listed format and rounding codes, signedness only for integers. -/
def Conv.baseOk (c : Conv) : Bool :=
  c.dst.toNat ≤ 8 && c.src.toNat ≤ 8 && c.rnd.toNat ≤ 4 && (!c.toS || isIntFmt c.dst.toNat) && (!c.frS || isIntFmt c.src.toNat)

/-- Integer to integer conversions have no rounding (R174). -/
def Conv.intRndOk (c : Conv) : Bool := !(isIntFmt c.src.toNat && isIntFmt c.dst.toNat) || c.rnd.toNat == 0

/-- VCVT's conversion word (R173, R174). -/
def Conv.vcvtOk (c : Conv) : Bool :=
  c.baseOk && !c.half && !isDxFmt c.dst.toNat && !isDxFmt c.src.toNat && c.intRndOk

/-- VPACK's conversion word (R173, R176). -/
def Conv.vpackOk (c : Conv) : Bool :=
  c.baseOk && !c.half && (c.src.toNat == 0 || c.src.toNat == 8) && 1 ≤ c.dst.toNat && c.dst.toNat ≤ 7 &&
  (!isDxFmt c.dst.toNat || c.src.toNat == 0) && c.intRndOk

/-- VUNPK's conversion word (R173, R177). -/
def Conv.vunpkOk (c : Conv) : Bool :=
  c.baseOk && 1 ≤ c.src.toNat && c.src.toNat ≤ 7 &&
  (c.dst.toNat == 0 || (c.dst.toNat == 8 && isIntFmt c.src.toNat)) && c.rnd.toNat == 0 && !c.toS

/-- ACLD's conversion word (R173, R203). -/
def Conv.acldOk (c : Conv) : Bool :=
  c.baseOk && !c.half && (c.src.toNat == 0 || c.src.toNat == 8) &&
  (c.dst.toNat ≤ 2 || c.dst.toNat == 8 || c.dst.toNat == 7 || c.dst.toNat == 5) && c.intRndOk

/-- The bytes of an engine's configuration plane (R186); code 3 names no engine. -/
def planeBytes (e : Nat) : Nat := if e == 0 then 1024 else if e == 1 then 4608 else if e == 2 then 4096 else 0

/-- Every field of the syllable lies in the range its format allows (R76, R79 to R83, R88). Steps and events have no
encoding, and their fields no range. -/
def Instr.fieldsOk : Instr → Bool
  | .nop h => h.ok
  | .halt h => h.ok
  | .add h _ _ _ => h.ok
  | .sub h _ _ _ => h.ok
  | .and h _ _ _ => h.ok
  | .or h _ _ _ => h.ok
  | .xor h _ _ _ => h.ok
  | .andn h _ _ _ => h.ok
  | .shl h _ _ _ => h.ok
  | .shr h _ _ _ => h.ok
  | .sar h _ _ _ => h.ok
  | .rotl h _ _ _ => h.ok
  | .mul h _ _ _ => h.ok
  | .mulhI h _ _ _ => h.ok
  | .mulhN h _ _ _ => h.ok
  | .divI h _ _ _ => h.ok
  | .divN h _ _ _ => h.ok
  | .modI h _ _ _ => h.ok
  | .modN h _ _ _ => h.ok
  | .minI h _ _ _ => h.ok
  | .minN h _ _ _ => h.ok
  | .maxI h _ _ _ => h.ok
  | .maxN h _ _ _ => h.ok
  | .sel h _ _ _ => h.ok
  | .clz h _ _ => h.ok
  | .popc h _ _ => h.ok
  | .bfx h _ _ _ => h.ok
  | .bfi h _ _ _ => h.ok
  | .lea h _ _ _ => h.ok
  | .mov h _ _ => h.ok
  | .addl h _ _ _ => h.ok
  | .subl h _ _ _ => h.ok
  | .andl h _ _ _ => h.ok
  | .orl h _ _ _ => h.ok
  | .xorl h _ _ _ => h.ok
  | .andnl h _ _ _ => h.ok
  | .shll h _ _ _ => h.ok
  | .shrl h _ _ _ => h.ok
  | .sarl h _ _ _ => h.ok
  | .rotll h _ _ _ => h.ok
  | .mull h _ _ _ => h.ok
  | .minlI h _ _ _ => h.ok
  | .minlN h _ _ _ => h.ok
  | .maxlI h _ _ _ => h.ok
  | .maxlN h _ _ _ => h.ok
  | .movl h _ _ => h.ok
  | .leal h _ _ _ => h.ok
  | .cmpEq h d _ _ => h.ok && predOk d
  | .cmpNe h d _ _ => h.ok && predOk d
  | .cmpLtI h d _ _ => h.ok && predOk d
  | .cmpGeI h d _ _ => h.ok && predOk d
  | .cmpLtN h d _ _ => h.ok && predOk d
  | .cmpGeN h d _ _ => h.ok && predOk d
  | .cmplEq h d _ _ => h.ok && predOk d
  | .cmplNe h d _ _ => h.ok && predOk d
  | .cmplLtI h d _ _ => h.ok && predOk d
  | .cmplGeI h d _ _ => h.ok && predOk d
  | .cmplLtN h d _ _ => h.ok && predOk d
  | .cmplGeN h d _ _ => h.ok && predOk d
  | .br h _ => h.ok
  | .call h _ => h.ok
  | .jmp h _ => h.ok
  | .ret h => h.ok
  | .loop h _ _ t => h.ok && t.toNat != 0
  | .loopl h _ t _ => h.ok && t.toNat != 0
  | .cwait h m => h.ok && m.toNat != 0
  | .pand h d a b => h.ok && predOk d && predOk a && predOk b
  | .por h d a b => h.ok && predOk d && predOk a && predOk b
  | .pxor h d a b => h.ok && predOk d && predOk a && predOk b
  | .pnot h d a => h.ok && predOk d && predOk a
  | .pfirst h d a => h.ok && predOk d && predOk a
  | .pcount h _ a => h.ok && predOk a
  | .pany h d a => h.ok && predOk d && predOk a
  | .pall h d a => h.ok && predOk d && predOk a
  | .mfs h _ code => h.ok && mfsCodeOk code.toNat
  | .mts h _ code => h.ok && mtsCodeOk code.toNat
  | .vadd h _ _ _ => h.ok
  | .vsub h _ _ _ => h.ok
  | .vmul h _ _ _ => h.ok
  | .vmulhI h _ _ _ => h.ok
  | .vmulhN h _ _ _ => h.ok
  | .vminI h _ _ _ => h.ok
  | .vminN h _ _ _ => h.ok
  | .vmaxI h _ _ _ => h.ok
  | .vmaxN h _ _ _ => h.ok
  | .vand h _ _ _ => h.ok
  | .vor h _ _ _ => h.ok
  | .vxor h _ _ _ => h.ok
  | .vshl h _ _ _ => h.ok
  | .vshr h _ _ _ => h.ok
  | .vsar h _ _ _ => h.ok
  | .vaddsI h _ _ _ => h.ok
  | .vaddsN h _ _ _ => h.ok
  | .vsubsI h _ _ _ => h.ok
  | .vsubsN h _ _ _ => h.ok
  | .vabs h _ _ => h.ok
  | .vfadd h _ _ _ _ => h.ok
  | .vfsub h _ _ _ _ => h.ok
  | .vfmul h _ _ _ _ => h.ok
  | .vfma h _ _ _ _ => h.ok
  | .vfmin h _ _ _ => h.ok
  | .vfmax h _ _ _ => h.ok
  | .vfabs h _ _ => h.ok
  | .vfneg h _ _ => h.ok
  | .vmov h _ _ => h.ok
  | .vsel h _ _ _ => h.ok
  | .vcmpEq h d _ _ => h.ok && predOk d
  | .vcmpNe h d _ _ => h.ok && predOk d
  | .vcmpLtI h d _ _ => h.ok && predOk d
  | .vcmpGeI h d _ _ => h.ok && predOk d
  | .vcmpLtN h d _ _ => h.ok && predOk d
  | .vcmpGeN h d _ _ => h.ok && predOk d
  | .vfcmpEq h d _ _ => h.ok && predOk d
  | .vfcmpLt h d _ _ => h.ok && predOk d
  | .vfcmpLe h d _ _ => h.ok && predOk d
  | .vfcmpUn h d _ _ => h.ok && predOk d
  | .vdot4 h _ _ _ _ => h.ok
  | .vscaleb h _ _ _ _ => h.ok
  | .vcvt h _ _ cv => h.ok && cv.vcvtOk
  | .vcvtt h _ _ => h.ok
  | .vpack h _ _ _ cv => h.ok && cv.vpackOk
  | .vunpk h _ _ cv => h.ok && cv.vunpkOk
  | .vrsum h _ _ ty => h.ok && ty.toNat != 3
  | .vrmax h _ _ ty => h.ok && ty.toNat != 3
  | .vrmin h _ _ ty => h.ok && ty.toNat != 3
  | .vscan h _ _ ty => h.ok && ty.toNat != 3
  | .vsort h _ _ _ ty => h.ok && ty.toNat != 3
  | .vshuf h _ _ _ => h.ok
  | .vrot h _ _ _ => h.ok
  | .vrotZf h _ _ _ => h.ok
  | .vbcast h _ _ _ => h.ok
  | .vrand h _ _ _ _ _ _ => h.ok
  | .teval h _ _ _ => h.ok
  | .drawImmediate h _ _ _ _ => h.ok
  | .drawRegister h _ _ _ _ => h.ok
  | .putOperandImmediate h _ _ _ _ => h.ok
  | .putOperandRegister h _ _ _ _ => h.ok
  | .putLastResultImmediate h _ _ _ _ => h.ok
  | .putLastResultRegister h _ _ _ _ => h.ok
  | .sld h _ _ _ => h.ok
  | .sldTagged h _ _ _ _ => h.ok
  | .sst h _ _ _ => h.ok
  | .sstTagged h _ _ _ _ => h.ok
  | .slds h _ _ _ => h.ok
  | .sldsTagged h _ _ _ _ => h.ok
  | .ssts h _ _ _ => h.ok
  | .sstsTagged h _ _ _ _ => h.ok
  | .ld h _ _ _ _ => h.ok
  | .st h _ _ _ m => h.ok && m.toNat != 2
  | .ecopy h _ _ _ m => h.ok && m.toNat != 3
  | .mark h => h.ok
  | .lqwait h v => h.ok && v.toNat < 16
  | .sqwait h v => h.ok && v.toNat < 16
  | .fence h v => h.ok && v.toNat < 6
  | .aadd h _ _ _ _ => h.ok
  | .aminI h _ _ _ _ => h.ok
  | .aminN h _ _ _ _ => h.ok
  | .amaxI h _ _ _ _ => h.ok
  | .amaxN h _ _ _ _ => h.ok
  | .aand h _ _ _ _ => h.ok
  | .aor h _ _ _ _ => h.ok
  | .axor h _ _ _ _ => h.ok
  | .axchg h _ _ _ _ => h.ok
  | .acas h _ _ _ _ => h.ok
  | .afadd h _ _ _ _ => h.ok
  | .bara h _ _ _ => h.ok
  | .barw h _ _ _ => h.ok
  | .flagw h _ _ _ _ _ => h.ok
  | .pref h _ _ => h.ok
  | .ipref h _ _ l => h.ok && l.toNat != 3
  | .ipin h _ _ _ l => h.ok && l.toNat < 2
  | .iunpin h _ _ l => h.ok && l.toNat < 2
  | .icinv h _ _ => h.ok
  | .park h _ _ _ => h.ok
  | .unpark h _ _ _ => h.ok
  | .mcfg h _ _ ofs eng => h.ok && eng.toNat < 3 && 8 * ofs.toNat < planeBytes eng.toNat
  | .mgo h _ _ _ _ _ => h.ok
  | .mstop h _ => h.ok
  | .mbase h _ _ which => h.ok && which.toNat < 5
  | .cfgld h _ _ _ _ ofs len eng => h.ok && eng.toNat < 3 && 64 * (ofs.toNat + len.toNat + 1) ≤ planeBytes eng.toNat
  | .cfgswap h _ eng => h.ok && eng.toNat < 3
  | .mfmt h _ _ _ => h.ok
  | .aczero h _ rows row _ => h.ok && row.toNat + rows.toNat + 1 ≤ 64
  | .acalloc h _ _ _ _ => h.ok
  | .acfree h _ => h.ok
  | .acown h _ _ => h.ok
  | .acld h _ _ _ cv => h.ok && cv.acldOk
  | .xcopy h _ g rem _ _ _ _ _ _ => h.ok && rem.toNat != 3 && (rem.toNat != 0 || g.toNat == 0)
  | .tsld h _ _ _ => h.ok
  | .tsev h _ _ => h.ok
  | .tload h _ _ _ _ _ => h.ok
  | .rload h _ _ _ _ => h.ok
  | .rstep h _ _ _ _ _ _ _ => h.ok
  | .waitb h _ => h.ok
  | .waitbUntil h _ => h.ok
  | .deadline h _ _ => h.ok
  | .deadlineClr h => h.ok
  | .acqp h n => h.ok && n.toNat ≤ 15
  | .relp h => h.ok
  | .molt h _ _ => h.ok
  | .enq h _ _ _ => h.ok
  | .trap h _ _ => h.ok
  | .tret h => h.ok
  | .tretSkip h n => h.ok && 1 ≤ n.toNat
  | .mcfgStart _ _ => true
  | .cfgldStart _ _ => true
  | .cfgswapStart _ _ => true
  | .cfgswapFlip _ _ => true
  | .mgoStart _ => true
  | .matrixBlockStep _ => true
  | .mstopStart _ => true
  | .mbaseStart _ => true
  | .mfmtStart _ => true
  | .aczeroStart _ => true
  | .xcopyStart _ => true
  | .xcopyChunk _ _ _ => true
  | .tsldStart _ => true
  | .tsevStart _ => true
  | .tloadStart _ => true
  | .tloadReplace _ => true
  | .rloadStart _ => true
  | .rloadReplace _ => true
  | .rstepStart _ => true
  | .rstepGeneration _ => true
  | .loadPerform _ => true
  | .loadDataArrival _ => true
  | .storePerform _ => true
  | .ecopyPerform _ => true
  | .atomicPerform _ => true
  | .baraPerform _ => true
  | .enqPerform _ => true
  | .markerRetire _ => true
  | .elasticWaitResume _ => true
  | .fetchLineFill _ => true
  | .translationWalk _ => true
  | .powerGrant _ => true
  | .regionLevelFall _ => true
  | .stallWatchdog _ => true
  | .deadlineLapse _ => true
  | .strandStop _ => true
  | .drainEnd _ => true
  | .preemptionHold _ => true
  | .commitWindow _ => true
  | .weaveFlip _ => true
  | .scrubComplete _ => true
  | .strandRetire _ => true
  | .digestReexecution _ => true
  | .ringRecordWrite _ => true
  | .nopPacket _ => true
  | .launch _ _ => true
  | .graph _ _ => true
  | .seedpush _ _ => true
  | .seedpop _ => true
  | .seedfork _ _ => true
  | .waitword _ _ => true
  | .waitwordPoll _ => true
  | .waitTimeout _ => true
  | .setword _ _ => true
  | .afterPriorStore _ => true
  | .teardown _ => true
  | .quota _ _ => true
  | .packetReread _ => true
  | .tornPacket _ => true
  | .launchAgeing _ => true
  | .launchReservation _ => true
  | .taskNode _ _ _ => true
  | .cond _ _ _ => true
  | .loopNode _ _ _ => true
  | .switch _ _ _ => true
  | .join _ _ _ => true
  | .seedNode _ _ _ => true
  | .endNode _ _ _ => true
  | .activate _ => true
  | .release _ => true
  | .queueEnable _ _ => true
  | .qkick _ _ => true
  | .qcmdResume _ => true
  | .qcmdSkip _ => true
  | .hold _ => true
  | .pecmdResume _ => true
  | .save _ => true
  | .restore _ => true
  | .tlbinvOnePage _ => true
  | .tlbinvWholeContext _ => true
  | .mbxctl _ _ => true
  | .linkcmdResume => true
  | .stackReset _ => true
  | .computeReset => true
  | .functionLevelReset => true
  | .coldReset => true
  | .islandReset => true
  | .pwrenv _ _ => true
  | .active _ _ => true
  | .gated _ _ => true
  | .retain _ _ => true
  | .off _ _ => true
  | .droopclr _ => true
  | .errcfg _ => true
  | .fenceclr _ => true
  | .drefc _ _ => true
  | .registerWrite _ _ => true
  | .surpriseLinkLoss => true
  | .linkgraceExpiry => true
  | .governorEvaluation _ => true
  | .operatingPointChange _ => true
  | .energyMetering _ => true
  | .droopDetectorTrip _ => true
  | .droopSignatureMatch _ => true
  | .thermalSafetyTrip => true
  | .correctedError _ => true
  | .uncorrectableError _ _ => true
  | .hostMemoryRead _ _ _ => true
  | .hostMemoryWrite _ _ _ => true
  | .domainAccess _ _ _ _ _ => true
  | .flitReplay _ => true
  | .stop _ _ => true
  | .go _ _ => true
  | .doorbell _ _ => true
  | .firmwareUpdate _ _ _ => true
  | .attestation => true
  | .linkRetrain => true
  | .droopStretchEnd _ => true
  | .completionEntryWrite _ _ _ => true
  | .powerLoss => true

end Sys2Proof
end

