-- ==== Sys2Proof/Machine/Numbers.lean ====
section
/-! DEFINITION. The number formats, rounding, sum orders and the counter generator (R115 to R131). Every computation is
exact, on integers, and rounds once where the manual rounds. -/

namespace Sys2Proof.Machine

/-! ## Floating-point values (R116) -/

/-- A floating-point value: a NaN, an infinity, or `(-1)^neg * m * 2^e`, where `2^e` is the weight of the lowest bit of
the significand in the source format (R124). -/
inductive Fp where
  | nan
  | inf (neg : Bool)
  | fin (neg : Bool) (m : Nat) (e : Int)
  deriving DecidableEq, Repr

/-- The precision in bits of a float format, its hidden bit counted. -/
def fmtPrec (f : Nat) : Nat := if f == 0 then 24 else if f == 1 then 8 else 11
/-- The exponent of the lowest bit of a float format's subnormals. -/
def fmtMinLsb (f : Nat) : Int := if f == 0 then -149 else if f == 1 then -133 else -24
/-- The exponent bits of a float format. -/
def fmtExpBits (f : Nat) : Nat := if f == 2 then 5 else 8
/-- The code of +infinity in a float format. -/
def fmtInf (f : Nat) : Nat := (2 ^ fmtExpBits f - 1) * 2 ^ (fmtPrec f - 1)
/-- The size in bits of a float format. -/
def fmtBits (f : Nat) : Nat := if f == 0 then 32 else 16
/-- The canonical NaN of a float format (R116). -/
def fmtNan (f : Nat) : Nat := fmtInf f + 2 ^ (fmtPrec f - 2)

/-- The value of a code of a float format (R115, R116). -/
def fpOf (f n : Nat) : Fp :=
  let neg := fld n (fmtBits f - 1) 1 == 1
  let mag := n % 2 ^ (fmtBits f - 1)
  let frac := mag % 2 ^ (fmtPrec f - 1)
  let ex := mag / 2 ^ (fmtPrec f - 1)
  if mag > fmtInf f then .nan
  else if mag == fmtInf f then .inf neg
  else if ex == 0 then .fin neg frac (fmtMinLsb f)
  else .fin neg (frac + 2 ^ (fmtPrec f - 1)) (fmtMinLsb f + (ex - 1 : Nat))

/-- An FP32 word's value. -/
def fp32 (w : W32) : Fp := fpOf 0 w.toNat

/-! ## Rounding (R123, R124, R125) -/

/-- The bits lane `i` draws from generator state `x` (R124). -/
def srBits (x : W32) (i : Nat) : Nat := (x.rotateLeft (7 * i % 32)).toNat

/-- Whether a magnitude `n + r / 2^d` rounds up to `n + 1` under mode `rm`; `bits` are the lane's random bits. DEDUCED (log 75): of a
magnitude below the unit, k counts every position from its least significant bit up to the unit. -/
def roundsUp (rm : Nat) (bits : Nat) (neg : Bool) (n r d : Nat) : Bool :=
  if r == 0 then false
  else if rm == 0 then 2 ^ d < 2 * r || (2 ^ d == 2 * r && n % 2 == 1)
  else if rm == 1 then false
  else if rm == 2 then neg
  else if rm == 3 then !neg
  else
    let k := min 16 d
    2 ^ k ≤ r * 2 ^ k / 2 ^ d + bits % 2 ^ k

/-- The magnitude of `m * 2^e` rounded to a multiple of `2^q`, in units of `2^q`. -/
def roundMag (rm bits : Nat) (neg : Bool) (m : Nat) (e q : Int) : Nat :=
  if q ≤ e then m * 2 ^ (e - q).toNat
  else
    let d := (q - e).toNat
    let n := m / 2 ^ d
    if roundsUp rm bits neg n (m % 2 ^ d) d then n + 1 else n

/-- The code a result beyond the range of a float format takes (R125). -/
def overflowCode (f rm : Nat) (neg : Bool) : Nat :=
  if rm == 1 || (rm == 2 && !neg) || (rm == 3 && neg) then fmtInf f - 1 else fmtInf f

/-- A magnitude code with its sign. -/
def signed (f : Nat) (neg : Bool) (mag : Nat) : Nat := bnat neg * 2 ^ (fmtBits f - 1) + mag

/-- A value rounded to a float format (R116, R123 to R125): the code. -/
def roundFp (f rm bits : Nat) : Fp → Nat
  | .nan => fmtNan f
  | .inf neg => signed f neg (fmtInf f)
  | .fin neg m e =>
    if m == 0 then signed f neg 0
    else
      let q := max (e + Nat.log2 m - (fmtPrec f - 1 : Nat)) (fmtMinLsb f)
      let code := (q - fmtMinLsb f).toNat * 2 ^ (fmtPrec f - 1) + roundMag rm bits neg m e q
      signed f neg (if code < fmtInf f then code else overflowCode f rm neg)

/-- A value rounded to FP32. -/
def round32 (rm : Nat) (v : Fp) : W32 := BitVec.ofNat 32 (roundFp 0 rm 0 v)

/-- The canonical NaN of FP32. -/
def nan32 : W32 := 0x7FC00000

/-! ## Exact arithmetic on values (R116) -/

/-- A value with its sign inverted. -/
def Fp.neg : Fp → Fp
  | .nan => .nan
  | .inf n => .inf !n
  | .fin n m e => .fin (!n) m e

/-- A signed integer times `2^e`, zero taking the sign given. -/
def fpOfInt (zeroNeg : Bool) (z e : Int) : Fp := if z == 0 then .fin zeroNeg 0 e else .fin (z < 0) z.natAbs e

/-- The exact sum of two values; `rdn` is whether the mode is RDN, which decides a zero's sign (R116). -/
def Fp.add (rdn : Bool) : Fp → Fp → Fp
  | .nan, _ => .nan
  | _, .nan => .nan
  | .inf a, .inf b => if a == b then .inf a else .nan
  | .inf a, .fin .. => .inf a
  | .fin .., .inf b => .inf b
  | .fin a m e, .fin b n f =>
    let g := min e f
    let x : Int := m * 2 ^ (e - g).toNat
    let y : Int := n * 2 ^ (f - g).toNat
    fpOfInt (if m == 0 && n == 0 && a == b then a else rdn) ((if a then -x else x) + (if b then -y else y)) g

/-- The exact product of two values (R116). -/
def Fp.mul : Fp → Fp → Fp
  | .nan, _ => .nan
  | _, .nan => .nan
  | .inf a, .inf b => .inf (a != b)
  | .inf a, .fin b n _ => if n == 0 then .nan else .inf (a != b)
  | .fin a m _, .inf b => if m == 0 then .nan else .inf (a != b)
  | .fin a m e, .fin b n f => .fin (a != b) (m * n) (e + f)

/-- A value times `2^n`. -/
def Fp.scale (n : Int) : Fp → Fp
  | .fin a m e => .fin a m (e + n)
  | v => v

/-- Whether a value is a NaN. -/
def Fp.isNan : Fp → Bool
  | .nan => true
  | _ => false

/-- The FP32 word `w` is a NaN. -/
def isNan32 (w : W32) : Bool := (fp32 w).isNan

/-- A key that orders the FP32 words that are no NaN numerically, -0 below +0. -/
def fpKey (w : W32) : Int := if w.msb then -1 - (w.toNat % 2 ^ 31 : Nat) else w.toNat

/-- A sum of two FP32 words (R168). -/
def fadd (rm : Nat) (a b : W32) : W32 := round32 rm (Fp.add (rm == 2) (fp32 a) (fp32 b))
/-- A difference of two FP32 words: the sum with the second negated (R116). -/
def fsub (rm : Nat) (a b : W32) : W32 := round32 rm (Fp.add (rm == 2) (fp32 a) (fp32 b).neg)
/-- A product of two FP32 words. -/
def fmul (rm : Nat) (a b : W32) : W32 := round32 rm (Fp.mul (fp32 a) (fp32 b))
/-- `c + a * b` with one rounding (R168). -/
def ffma (rm : Nat) (a b c : W32) : W32 := round32 rm (Fp.add (rm == 2) (fp32 c) (Fp.mul (fp32 a) (fp32 b)))
/-- The smaller of two FP32 words; -0 is below +0, a NaN on either side gives the canonical NaN (R168). -/
def fmin (a b : W32) : W32 := if isNan32 a || isNan32 b then nan32 else if fpKey b < fpKey a then b else a
/-- The larger of two FP32 words. -/
def fmax (a b : W32) : W32 := if isNan32 a || isNan32 b then nan32 else if fpKey a < fpKey b then b else a
/-- The FP32 word with its sign cleared; a NaN becomes canonical. -/
def fabs (a : W32) : W32 := if isNan32 a then nan32 else a &&& 0x7FFFFFFF
/-- The FP32 word with its sign inverted; a NaN becomes canonical. -/
def fneg (a : W32) : W32 := if isNan32 a then nan32 else a ^^^ 0x80000000

/-- The FP32 key with the two zeros made equal. -/
def fpKeyZ (w : W32) : Int := if w.toNat % 2 ^ 31 == 0 then 0 else fpKey w
/-- Equality as FP32 (R170). -/
def feq (a b : W32) : Bool := !isNan32 a && !isNan32 b && fpKeyZ a == fpKeyZ b
/-- Less as FP32 (R170). -/
def flt (a b : W32) : Bool := !isNan32 a && !isNan32 b && decide (fpKeyZ a < fpKeyZ b)
/-- Less or equal as FP32 (R170). -/
def fle (a b : W32) : Bool := !isNan32 a && !isNan32 b && decide (fpKeyZ a ≤ fpKeyZ b)
/-- Unordered as FP32 (R170). -/
def funord (a b : W32) : Bool := isNan32 a || isNan32 b

/-- VSCALEB's lane: `a * 2^n`, rounded once (R172). A scale beyond 1,000 either way only overflows or underflows.
DEDUCED (log 62). -/
def fscaleb (rm : Nat) (a b : W32) : W32 := round32 rm ((fp32 a).scale (max (-1000) (min 1000 b.toInt)))

/-! ## Integer formats (R115, R118, R125) -/

/-- The bits of an integer format: INT8, INT4, INT16, INT32. -/
def intBits (f : Nat) : Nat := if f == 5 then 8 else if f == 6 then 4 else if f == 7 then 16 else 32
/-- The value of the low bits of `n` in an integer format. -/
def intOf (f : Nat) (sg : Bool) (n : Nat) : Int :=
  let b := intBits f
  let v := n % 2 ^ b
  if sg && 2 ^ (b - 1) ≤ v then (v : Int) - 2 ^ b else v
/-- The least value of an integer format. -/
def intMin (f : Nat) (sg : Bool) : Int := if sg then -(2 ^ (intBits f - 1) : Int) else 0
/-- The greatest value of an integer format. -/
def intMax (f : Nat) (sg : Bool) : Int := if sg then 2 ^ (intBits f - 1) - 1 else 2 ^ intBits f - 1
/-- A value limited to an integer format (R125). -/
def clampInt (f : Nat) (sg : Bool) (z : Int) : Int := max (intMin f sg) (min (intMax f sg) z)
/-- An integer limited to a signed or unsigned 32-bit word. -/
def clamp32 (sg : Bool) (z : Int) : W32 := BitVec.ofInt 32 (clampInt 8 sg z)

/-- A value rounded to an integer and limited to a format; a NaN gives 0 (R125). -/
def roundInt (f : Nat) (sg : Bool) (rm bits : Nat) : Fp → Int
  | .nan => 0
  | .inf neg => if neg then intMin f sg else intMax f sg
  | .fin neg m e =>
    let n : Int := roundMag rm bits neg m e 0
    clampInt f sg (if neg then -n else n)

/-- One element converted between formats that are not DX (R174): the source's low bits to the target's code, an integer
result as its two's complement in 32 bits. -/
def convElem (src : Nat) (frS : Bool) (dst : Nat) (toS : Bool) (rm bits n : Nat) : W32 :=
  if isIntFmt src then
    let z := intOf src frS n
    if isIntFmt dst then BitVec.ofInt 32 (clampInt dst toS z)
    else BitVec.ofNat 32 (roundFp dst rm bits (fpOfInt false z 0))
  else
    let v := fpOf src (n % 2 ^ fmtBits src)
    if isIntFmt dst then BitVec.ofInt 32 (roundInt dst toS rm bits v)
    else BitVec.ofNat 32 (roundFp dst rm bits v)

/-! ## Dual-exponent blocks (R120 to R122) -/

/-- The exponent offset of a DX format. -/
def dxK (f : Nat) : Nat := if f == 3 then 132 else 128
/-- The greatest magnitude of a DX element. -/
def dxMax (f : Nat) : Nat := if f == 3 then 63 else 3
/-- How far E1 lies below E0. -/
def dxD (f : Nat) : Nat := if f == 3 then 6 else 2
/-- The magnitude bits of a DX element. -/
def dxMagBits (f : Nat) : Nat := if f == 3 then 6 else 2

/-- An element decoded against a scale entry (R121). -/
def decodeDx (f elem scale : Nat) : Fp :=
  let b := dxMagBits f
  let ex := if fld elem (b + 1) 1 == 1 then fld scale 8 8 else fld scale 0 8
  let m := fld elem 0 b
  if ex == 255 then .nan
  else if m == 0 then .fin false 0 0
  else .fin (fld elem b 1 == 1) m ((ex : Int) - dxK f)

/-- An element of code parts (R120). -/
def dxElem (f : Nat) (sel neg : Bool) (m : Nat) : Nat := (bnat sel * 2 + bnat neg) * 2 ^ dxMagBits f + m

/-- A source value of `packDx`, an infinity taken as the largest finite value of its sign (R122). -/
def dxSource (w : W32) : Fp :=
  match fp32 w with
  | .inf neg => fp32 (if neg then 0xFF7FFFFF else 0x7F7FFFFF)
  | v => v

/-- `|round_to(x * 2^(k - E), 1)|` (R122). -/
def dxQ (f rm bits : Nat) (v : Fp) (ex : Nat) : Nat :=
  match v with
  | .fin neg m e => roundMag rm bits neg m (e + dxK f - ex) 0
  | _ => 0

/-- Pack up to 32 FP32 words, each with its lane's random bits, into one block (R122): the elements and the scale
entry. -/
def packDx (f rm : Nat) (xs : List (W32 × Nat)) : List Nat × Nat :=
  let vs := xs.map fun x => (dxSource x.1, x.2)
  let nan := xs.any fun x => isNan32 x.1
  let mag (w : W32) : Nat := if isNan32 w then 0 else min (w.toNat % 2 ^ 31) 0x7F7FFFFF
  let a := xs.foldl (fun a x => max a (mag x.1)) 0
  let e := a / 2 ^ 23
  let e0 := if e < 254 && vs.any (fun v => !v.1.isNan && dxMax f < dxQ f rm v.2 v.1 e) then e + 1 else e
  let e1 := if nan then 255 else e0 - dxD f
  let elem (v : Fp × Nat) : Nat :=
    match v.1 with
    | .fin neg _ _ =>
      let q1 := dxQ f rm v.2 v.1 e1
      let sel := !nan && q1 ≤ dxMax f
      let q := if sel then q1 else min (dxQ f rm v.2 v.1 e0) (dxMax f)
      if q == 0 then 0 else dxElem f sel neg q
    | _ => dxElem f true false 0
  (vs.map elem, e1 * 256 + e0)

/-! ## The stochastic-rounding generator and the counter generator (R126, R130, R131) -/

/-- One step of the stochastic-rounding state (R126). -/
def srStep (x : W32) : W32 :=
  let x := x ^^^ (x <<< 13)
  let x := x ^^^ (x >>> 17)
  x ^^^ (x <<< 5)

/-- The four counter words and two key words of `kcg`. -/
structure Kcg where
  c0 : W32
  c1 : W32
  c2 : W32
  c3 : W32
  k0 : W32
  k1 : W32
  deriving DecidableEq, Repr

/-- One round of `kcg` (R130). -/
def kcgRound (s : Kcg) : Kcg :=
  let c0 := s.c0 + s.c1 + s.k0
  let c3 := (s.c3 ^^^ c0).rotateLeft 16
  let c2 := s.c2 + c3 + s.k1
  let c1 := (s.c1 ^^^ c2).rotateLeft 12
  let c0 := c0 + c1
  let c3 := (c3 ^^^ c0).rotateLeft 8
  let c2 := c2 + c3
  let c1 := (c1 ^^^ c2).rotateLeft 7
  let k0 := s.k0 + 0x3C6EF372
  { c0, c1, c2, c3, k0, k1 := s.k1 ^^^ k0.rotateLeft 11 }

/-- `n` rounds of `kcg`. -/
def kcgRounds : Nat → Kcg → Kcg
  | 0, s => s
  | n + 1, s => kcgRounds n (kcgRound s)

/-- Output word `i` of `kcg` under a 64-bit key (R130). -/
def kcg (key : W64) (c0 c1 c2 c3 : W32) (i : Nat) : W32 :=
  let r := kcgRounds 8 { c0, c1, c2, c3, k0 := low32 key, k1 := high32 key }
  if i == 0 then r.c0 ^^^ c0 else if i == 1 then r.c1 ^^^ c1 else if i == 2 then r.c2 ^^^ c2 else r.c3 ^^^ c3

/-- The uniform value of an output word, as FP32 (R131). -/
def u24 (w : W32) : W32 := round32 0 (.fin false (w.toNat / 256) (-24))

/-! ## Sum orders (R127 to R129) -/

/-- One level of the pairwise tree (R128). -/
def pairUp (op : W32 → W32 → W32) : List W32 → List W32
  | a :: b :: rest => op a b :: pairUp op rest
  | xs => xs

/-- `n` levels of the pairwise tree. -/
def treeLevels (op : W32 → W32 → W32) : Nat → List W32 → List W32
  | 0, xs => xs
  | n + 1, xs => treeLevels op n (pairUp op xs)

/-- The lanes of a vector, lane 0 first. -/
def lanesList (v : Lanes) : List W32 := (List.range 64).map (lane v)

/-- `tree_sum` over 64 values (R128). -/
def treeSum (op : W32 → W32 → W32) (xs : List W32) : W32 := (treeLevels op 6 xs).headD 0

/-- `serial_sum` (R129): every prefix's value, the running value given. -/
def serialFrom (op : W32 → W32 → W32) (y : W32) : List W32 → List W32
  | [] => []
  | x :: xs => op y x :: serialFrom op (op y x) xs

/-- `serial_sum` of a list (R129). -/
def serialSum (op : W32 → W32 → W32) : List W32 → List W32
  | [] => []
  | x :: xs => x :: serialFrom op x xs

/-- The list as a vector; lanes past its end are zero. -/
def lanesOf (xs : List W32) : Lanes := mkLanes fun i => xs.getD i 0

/-- The exact sum of one chunk's products as FP values (R127), before rounding. A NaN, or infinities of both signs, gives
NaN, as exact addition gives it. -/
def chunkSum (ps : List Fp) : Fp := ps.foldl (Fp.add false) (.fin true 0 0)

/-- A subnormal BF16 or FP16 matrix input counts as zero of its sign (R117). -/
def flushIn (f : Nat) : Fp → Fp
  | .fin neg m e => if m < 2 ^ (fmtPrec f - 1) then .fin neg 0 e else .fin neg m e
  | v => v

end Sys2Proof.Machine
end

