-- ==== Sys2Proof/Config.lean ====
section
/-! DEFINITION. What the manual leaves open, as constants without a body (free values), and what is fixed for one
device. Nothing can be proved of a free value but its type. -/

namespace Sys2Proof.Config

/-- UNVERIFIED free value (log 3): the delay, in stack cycles, of the n-th thing whose time the manual does not state:
an elastic entry's next widening, a page walk, a line fill, a mailbox write. -/
opaque delay : Nat → Nat

/-- UNVERIFIED free value (log 3): the dispatcher's delay in ns before the n-th read it makes of a packet or word. -/
opaque hostDelay : Nat → Nat

/-- UNVERIFIED free value (log 6): what another device of the domain answers to the n-th load sent to it. -/
opaque remoteData : Nat → BitVec 64

/-- UNVERIFIED free value (log 6): whether another device can answer the n-th access sent to it. -/
opaque remoteAnswers : Nat → Bool

/-- UNVERIFIED free value (log 6): what the n-th read of an Ethernet doorbell page answers; the manual gives it stores only
(R315). -/
opaque doorbellData : Nat → BitVec 64

/-- UNVERIFIED free value (log 6): the answer of LMS verification for an image, given by its digest (R318). -/
opaque lmsVerifies : Nat → Bool

/-- UNVERIFIED free value (log 6): the LMS signature made with a one-time-key index (R319). -/
opaque lmsSignature : Nat → Nat

/-- UNVERIFIED free value (log 70): the length in bytes of a bundle that has no End among four syllables, is longer than eight
words or cannot be fetched, given by its address: what CALL adds to s31 for it, and what a skip passes. -/
opaque unknownLen : Nat → Nat

/-- DESIGN CHOICE (log 8): this device's index in its domain, 0 to 16,383 (R144). -/
def ownDevice : Nat := 0

/-- UNVERIFIED free value (log 11): the hottest junction sensor of a stack at a time, in degrees Celsius (R279, R322). -/
opaque junction : Nat → Nat → Nat

/-- UNVERIFIED free value (log 11): whether the n-th parity check on leaving RETAIN finds lost state (R293). -/
opaque retentionFails : Nat → Bool

/-- UNVERIFIED free value (log 7): the size of a strand image in pages of 4 KiB, by the four words of the footprint record
(R288, R289). -/
opaque imagePages : Nat → Nat → Nat → Nat → Nat

/-- UNVERIFIED free value (log 7): the 64-bit word at an index of the sections of the n-th image written; the manual gives the
sections' contents and not their layout (R289). -/
opaque imageWord : Nat → Nat → BitVec 64

/-- UNVERIFIED free value (log 7): the words that the sections of an image written elsewhere hold, by its check word (R289). -/
opaque foreignWord : Nat → Nat → BitVec 64

/-- UNVERIFIED free value (log 12): what QSTAT.Where holds after a halt that names no packet (R32). -/
opaque unnamed : Nat → BitVec 32

/-- UNVERIFIED free value (log 12): whether the n-th inexact share of metered energy is rounded up (R277). -/
opaque roundsUp : Nat → Bool

end Sys2Proof.Config
end

