-- ==== Sys2Proof/Machine/State.lean ====
section
/-! DEFINITION. The state of the device (R7 to R19, R27, R100 and the registers each chapter names), as plain data, and
the machine right after cold reset. Names follow the manual. A list or an option that is empty means that nothing of
that kind exists. -/

namespace Sys2Proof.Machine

/-! ## Footprints and space (R25, R59) -/

/-- A footprint record (R25). -/
structure Footprint where
  strideCode : Nat
  pin     : Option Nat
  cores   : Nat
  mask    : BitVec 4
  me      : Bool
  te      : Bool
  re      : Bool
  bte     : Bool
  groups  : Nat
  planes  : Nat
  banks   : Nat
  acc     : Nat
  slots   : Nat
  share   : Nat
  deriving DecidableEq, Repr

/-- The physical units a strand holds on one core (R59): strand slot, scratchpad banks in logical order, planes,
accumulator banks and shape slots. -/
structure Units where
  slot   : Nat
  banks  : List Nat
  planes : List Nat
  acc    : List Nat
  shapes : List Nat
  deriving DecidableEq, Repr

/-! ## A cluster context (R100) -/

/-- An active hardware loop (R111): counter, body start (none until the second delay bundle has issued), the address of
End, the trip count and the iteration in progress. -/
structure Loop where
  ctr   : Nat
  start : Option Nat
  stop  : Nat
  total : Nat
  iter  : Nat
  deriving DecidableEq, Repr

/-- Where a context stands in its sequence (R89): the next bundle's address, its delay position (0, or 1 or 2 for a delay
bundle), the pending target (none: the bundle after the second delay bundle), whether that target ends loops it leaves
(R112), the active loops, innermost first, and whether the target is the End of a LOOP that runs no trip (R111). -/
structure Seq where
  pc    : Nat
  pos   : Nat
  tgt   : Option Nat
  exits : Bool
  loops : List Loop
  skips : Bool := false
  deriving DecidableEq, Repr

/-- A trap bank (R239, R240). `counts` is false once its handler has halted; `seq` holds the loop state and delay
position to be restored, `skip` the bundles an earlier TRET.SKIP had still to skip; `wasHalted` says the context had
halted before the trap. -/
structure Bank where
  pc    : W64
  cause : W64
  addr  : W64
  tgt   : W64
  beat  : W64
  fseq  : W64
  nme   : W32
  nte   : W32
  nre   : W32
  nbte  : W32
  nlq   : W32
  nsq   : W32
  k0    : W64
  k1    : W64
  k2    : W64
  k3    : W64
  inUse  : Bool
  counts : Bool
  wasHalted : Bool
  skip  : Nat
  seq   : Seq
  deriving DecidableEq, Repr

/-- A memory access's size and extension (R225). -/
inductive LdKind where
  | d | w | ws | b
  deriving DecidableEq, Repr

/-- The read-modify-write of an atomic (R230). -/
inductive AtomicOp where
  | add | minI | minN | maxI | maxN | and | or | xor | xchg | cas | fadd
  deriving DecidableEq, Repr

/-- What an elastic queue entry does (R224 to R232, R249). Values are as read at issue. -/
inductive ElOp where
  | ld (addr : W64) (k : LdKind) (d : Reg)
  | st (addr : W64) (size : Nat) (v : W64)
  | ecopy (mode : Nat) (dst src : W64) (n : Nat)
  | atomic (op : AtomicOp) (addr : W64) (b old : W64) (scope : Nat) (d : Reg)
  | bara (addr : W64) (scope : Nat) (d : Reg)
  | enq (addr : W64) (hdr : W32) (d : Reg)
  | mark
  | fence (scope : Nat)
  deriving DecidableEq, Repr

/-- An entry of a load or store queue: its 32-bit sequence number, its place in the context's issue order, what it does,
the trap depth that issued it (0 the program, 1 and 2 the handlers of the two banks), the scope level at which it has
performed (0 none, then 1 cluster, 2 core, 3 slice, 4 stack, 5 device, 6 domain), the value a load has fixed or an atomic
has read, the words a copy writes to memory, the flight its write is (0 none), and the stack cycle at which it takes its
next step (0: not drawn yet). -/
structure Entry where
  seq     : W32
  iss     : Nat
  op      : ElOp
  handler : Nat
  level   : Nat
  value   : Option W64
  words   : List W64
  fid     : Nat
  ready   : Nat
  deriving DecidableEq, Repr

/-- A load or store queue: its entries, oldest first, and the next sequence number (R224). -/
structure ElQueue where
  entries : List Entry
  next    : W32
  deriving DecidableEq, Repr

/-- A wait that may freeze the strand (R68): its condition. -/
inductive WaitKind where
  | lq (n : Nat)
  | sq (n : Nat)
  | barw (addr : W64) (gen : W64) (scope : Nat)
  | flagw (addr : W64) (v mask : W64) (cond : Nat) (scope : Nat)
  deriving DecidableEq, Repr

/-- A pending wait: what it waits for, its issue beat and cycle, its place in the issue order, the trap depth that issued
it, and the cycle at which its condition was seen. -/
structure Wait where
  kind  : WaitKind
  beat  : Nat
  cyc0  : Nat
  iss   : Nat
  handler : Nat
  seenAt : Option Nat
  deriving DecidableEq, Repr

/-- A wait at a rendezvous that is not complete (R114): the mask, the CWAIT's beat, and the stack cycle at which the hold
began, once it has. -/
structure Rdv where
  mask  : BitVec 4
  beat  : Nat
  since : Option Nat
  deriving DecidableEq, Repr

/-- A line of an instruction cache partition (R91): its virtual line number, its bytes (none: pinned and empty), whether
it is pinned, the beat at which it was last issued from (or filled: log 65), and whether an error has struck it (R290). -/
structure Line where
  tag    : Nat
  bytes  : Option (List Byte)
  pinned : Bool
  used   : Nat
  bad    : Bool := false
  deriving DecidableEq, Repr

/-- One cluster context of a strand (R15, R27, R100). `shadowRun` counts consecutive Shadow bundles (R109), `waitb` is WAITB's
target, `skip` the bundles to skip (R244), `gaps` the completed rendezvous' idle beats (R114), `issued` numbers queue
entries and waits in issue order, `horizon` is e of R286, `slog` keeps the scalars of the last eight beats (R90), `arrive`
holds data that enters at the next beat boundary (R225), `saw` the writes in flight that its loads have returned, each with the
place in issue order and the trap depth of the load (R263),
`lastIssue` the beat of the last bundle with its Sync and Shadow flags (R101); `l0` is its L0 partition, and `gone` the lines
that have left it but serve the bundles looked up in them, each with the beat before which those issue (R92, R95), `struck` the
elements of the context that an error has struck: 32 scalars, 12 predicates, 16 operand entries, 4 last results and 4 queue heads, numbered
in that order (R290, R293, log 68). -/
structure Cluster where
  inMask : Bool
  s      : Vector W64 32
  p      : Vector W64 12
  o      : Vector Lanes 16
  l      : Vector Lanes 4
  q      : Vector (List Lanes) 4
  seq    : Seq
  sr     : W32
  tvec   : W64
  fmtbase : BitVec 4
  fmtsel  : BitVec 2
  ta     : Bank
  tb     : Bank
  shadowRun : Nat
  halted : Bool
  waitb  : Nat
  skip   : Nat
  rdv    : Option Rdv
  gaps   : List (Nat × Nat)
  lq     : ElQueue
  sq     : ElQueue
  issued : Nat
  waits  : List Wait
  horizon : Nat
  slog   : List (Nat × Nat × W64)
  arrive : List (Reg × W64)
  saw    : List (Nat × Nat × Nat)
  lastIssue : Option (Nat × Bool × Bool)
  l0     : List Line
  gone   : List (Nat × Line)
  struck : List Nat := []
  deriving DecidableEq, Repr

/-! ## A core's share of a strand (R59, R113, R135, R137, R185) -/

/-- The state of an accumulator bank (R135). -/
inductive BankMode where
  | unallocated | allocated | parked
  deriving DecidableEq, Repr

/-- A held accumulator bank: its state, its four band masks of four bits (R136), its poison mark (R291), and the last
beat and cluster that set its masks (R205). -/
structure AccBank where
  mode   : BankMode
  own    : BitVec 16
  poison : Bool
  ownBeat : Nat
  deriving DecidableEq, Repr

/-- A tensor-shape descriptor (R143). -/
structure Shape where
  base   : W64
  spad   : Bool
  run    : Nat
  count1 : Nat
  count2 : Nat
  count3 : Nat
  stride1 : W64
  stride2 : W64
  stride3 : W64
  deriving DecidableEq, Repr

/-- A queued engine command: its sequence number, start beat, issuing cluster, the syllable, the value of sK at issue and
the format index at issue (R113, R185). -/
structure Cmd where
  seq   : W32
  stamp : Nat
  cl    : Nat
  ins   : Instr
  val   : W64
  fmt   : Nat
  deriving DecidableEq, Repr

/-- An engine's command queue: commands that have not started, the next sequence number, the stamp last entered, the
engine's configuration planes, the beat at which the last CFGLD has filled the shadow plane, the beat and number of the
latest block-transfer starts (R141), the swap tokens that wait for the drain point (R138), whether a fault keeps the
engine from starting anything (R281), and how often its planes have flipped. -/
structure Engine where
  q       : List Cmd
  next    : W32
  last    : Nat
  active  : Sparse 8
  shadow  : Sparse 8
  filling : Nat
  starts  : Nat × Nat
  swaps   : List Cmd
  faulted : Bool
  flips   : Nat
  deriving DecidableEq, Repr

/-- A CFGLD, TLOAD, RLOAD or TSLD that is reading its lines (R137, R207, R209, R223): start beat, scratchpad address, number
of lines, the bytes read so far and the tiles read. -/
structure Load where
  cmd   : Cmd
  start : Nat
  addr  : Nat
  lines : Nat
  got   : List Byte
  seen  : List Nat
  deriving DecidableEq, Repr

/-- The reads of a block step (R196): its start beat and length, the addresses and bytes of A and B, the beat at which its sums land,
the next of its beats to be read, and, from before the step, the landing beat of the nest's last write and the banks its reduction
had written. -/
structure BlockRead where
  start : Nat
  d     : Nat
  a     : Nat
  la    : Nat
  b     : Nat
  lb    : Nat
  land  : Nat
  next  : Nat
  prevLand : Nat
  wrote : List Nat
  deriving DecidableEq, Repr

/-- A nest in progress (R190 to R198): its MGO, start beat and format entry; its micro-orders as (op, n), those of the
present reduction still to run, whether the present SET has still to zero C, the step counter, the reduction and their
number, the beat of the next item, the C banks it reaches, the landing beat of its last write, the tiles read so far, the banks the present reduction has written, whether an MSTOP has ended it, and the reads of its latest step. -/
structure Nest where
  cmd    : Cmd
  start  : Nat
  fmt    : W32
  orders : List (Nat × Nat)
  items  : List (Nat × Nat)
  fresh  : Bool
  s      : Nat
  red    : Nat
  reds   : Nat
  tau    : Nat
  banks  : List Nat
  lastLand : Nat
  seen   : List Nat
  wrote  : List Nat
  stopped : Bool
  reading : Option BlockRead
  deriving DecidableEq, Repr

/-- An RSTEP in progress or stopped (R212, R213): the command, its start beat, the generation it started from, the
generation it is at, that generation's result once its snapshot has been taken, and the beat at which the copy of an odd
count lands. -/
structure RStep where
  cmd   : Cmd
  start : Nat
  from_ : Nat
  gen   : Nat
  snap  : Option (List W32)
  copyAt : Option Nat
  deriving DecidableEq, Repr

/-- A block copy in progress (R139, R222): an identifier, the command, its start beat, end cores, descriptors, chunk size,
offset H, the length, the next chunk to read, and the tiles whose tags were checked. -/
structure Copy where
  id    : Nat
  cmd   : Cmd
  start : Nat
  srcCore : Nat
  dstCore : Nat
  src   : Shape
  dst   : Shape
  w     : Nat
  h     : Nat
  len   : Nat
  next  : Nat
  checked : List Nat
  deriving DecidableEq, Repr

/-- A commitment of capacity (R133, R134, R140): beat, bank group, bytes read and bytes written. Group 100 is the strand's
DRAM share and 101 its network lane, both kept on logical core 0. -/
structure Claim where
  beat  : Nat
  group : Nat
  rd    : Nat
  wr    : Nat
  deriving DecidableEq, Repr

/-- A cluster's claim of the bundle being issued, with the cluster that makes it; or a bank it frees, which no nest that
starts on the same beat may hold. -/
structure Pending where
  cl    : Nat
  claim : Option Claim
  bank  : Option Nat
  shadow : Bool
  deriving DecidableEq, Repr

/-- A timed effect of a cluster or an engine, to be applied at its beat. `bad` lists the words that take a poison mark; `ruled`
writes the bits that a mask names, as (cell, mask, word); `teval` and `rgc` are the results of a TEVAL and of a read of `rgc`, which
take what stands at the end of their beat (R134, R184, R188). -/
inductive Act where
  | scalar (cl : Nat) (d : Reg) (v : W64)
  | pred (cl : Nat) (d : Nat) (v mask : W64)
  | vec (cl : Nat) (d : VDst) (act : W64) (v : Lanes)
  | append (cl : Nat) (q : Nat) (v : Lanes)
  | plane (plane : Nat) (cells : List (Nat × W32))
  | ruled (plane : Nat) (cells : List (Nat × W32 × W32))
  | spad (at_ : Nat) (bytes : List Byte) (bad : List Nat)
  | tag (tile : Nat) (t : Byte)
  | accRow (bank row : Nat) (v : Lanes)
  | accZero (bank row n : Nat)
  | accAdd (bank : Nat) (zero : Bool) (fmt : W32) (kk : Nat) (a b sa sb : List Byte)
  | fmtEntry (e : Nat) (v : W32)
  | special (cl : Nat) (code : Nat) (v : W64)
  | accPoison (bank : Nat)
  | dram (cells : List (Nat × Byte)) (vas : List W64) (bad : List Nat)
  | teval (cl : Nat) (d : VDst) (act : W64) (k : Nat) (v : Lanes)
  | rgc (cl : Nat) (d : Reg) (v : W64)
  deriving DecidableEq, Repr

/-- A timed effect with its beat and its order among those of one beat. `drained` says that a drain has landed it already: it takes
its place in the stores at its beat, and all but bundles with Shadow see it before (R282, R286). DEDUCED (log 16). -/
structure Timed where
  beat : Nat
  ord  : Nat
  act  : Act
  drained : Bool := false
  deriving DecidableEq, Repr

/-- One logical core of a strand: its physical core number in the stack, the units held, and everything the strand keeps
there. `coming` holds, while a bundle runs that waits for what is in flight, the tags it meets: those that writes in flight set, and in
scoreboard mode those that stand before them (R286). `marks` holds what an error has struck in what the core keeps for the strand: a
format-table entry `e` as 68 + e, a shape slot `n` as 84 + n, and word `w` of the active plane of the matrix, table or rule engine as
116, 117 or 118 + 8 w, of the shadow plane 4 above (R290, log 68); a line of a cache bears its own mark. -/
structure Core where
  phys   : Nat
  units  : Units
  cl     : Vector Cluster 4
  planes : Sparse 32
  planePoison : List Nat
  spad   : Sparse 8
  spadPoison : List Nat
  tags   : Sparse 8
  coming : List (Nat × Byte)
  acc    : Sparse 32
  banks  : Vector AccBank 32
  shapes : Vector (Option Shape) 32
  fmt    : Vector W32 16
  me     : Engine
  te     : Engine
  re     : Engine
  bte    : Engine
  nest   : Option Nest
  cbusy  : List (Nat × Nat)
  loads  : List Load
  rstep  : Option RStep
  rstopped : Option RStep
  rgc    : Nat
  copies : List Copy
  copyNext : Nat
  claims : List Claim
  pending : List Pending
  agenda : List Timed
  l1     : List Line
  marks  : List Nat
  deriving DecidableEq, Repr

/-! ## A strand (R14, R19, R27) -/

/-- The kinds of trap cause (R251). `soft` is SOFTWARE, a P cause taken after its bundle. -/
inductive CauseKind where
  | p | soft | e | q | a
  deriving DecidableEq, Repr

/-- A raised cause: its code, kind and taker (R251, R323), the beat and stack cycle at which it was raised, what the trap record
takes, for a Q cause the trap depth that issued what failed, whether the strand was frozen when it was raised (R281), and whether it
ends its taker's wait at a rendezvous (R70, R114). -/
structure Cause where
  code  : Nat
  kind  : CauseKind
  core  : Nat
  cl    : Nat
  beat  : Nat
  cyc   : Nat
  addr  : W64
  detail : Nat
  queue : Nat
  fseq  : W32
  shadow : Bool
  k0    : Option W64
  depth : Nat := 0
  frozen : Bool := false
  hold  : Bool := false
  deriving DecidableEq, Repr

/-- How a strand stands. `placed`: given a place that has not flipped; `run`: executing beats; `drain`: stopped, draining
for a trap (`hold = false`) or a hold; `handler`: some trap bank in use; `held`: pre-empted; `ended`: out of the weave. -/
inductive Status where
  | placed
  | run
  | drain (hold : Bool)
  | handler
  | held
  | ended
  deriving DecidableEq, Repr

/-- Why a strand is frozen (R68). -/
inductive FreezeWhy where
  | fetch
  | walk (vas : List W64)
  | elastic
  | power
  | ret
  deriving DecidableEq, Repr

/-- A freeze in force: its cause, the stack cycle it began on, and, after a return, the cycle from which the strand may resume
(R68). -/
structure Freeze where
  why    : FreezeWhy
  since  : Nat
  resume : Option Nat
  deriving DecidableEq, Repr

/-- A page walk for a timed access (R69): the landing beat it may hold up, the stack cycle before which it does not
complete, the cycle at which it has with the beat the strand came to next, the core whose access it is, and the addresses it
translates. -/
structure PageWalk where
  beat  : Nat
  ready : Nat
  ended : Option (Nat × Nat)
  phys  : Nat
  vas   : List W64
  deriving DecidableEq, Repr

/-- The filling of lines that a lookup missed (R92): the beat that was looked up, the stack cycle before which the lines are not
present, the cycle at which they are with the beat the strand came to next, and the lines: core, the cluster of the L0 partition
(none: the core's L1), line number. -/
structure Fill where
  beat  : Nat
  ready : Nat
  ended : Option (Nat × Nat)
  lines : List (Nat × Option Nat × Nat)
  deriving DecidableEq, Repr

/-- A declaration in force (R245): beats remaining, deadline in ns, its cluster context, and whether DEADLINE-RISK has
been raised for it; `fresh` while the beat that issues it lasts, which is none of its own. -/
structure Declaration where
  left : Nat
  due  : Nat
  core : Nat
  cl   : Nat
  risk : Bool
  fresh : Bool := false
  deriving DecidableEq, Repr

/-- A pending MOLT request (R248): the stride, the pin, the destination register and the context that issued it. -/
structure MoltReq where
  stride : Nat
  pin    : Option Nat
  core   : Nat
  cl     : Nat
  d      : Reg
  deriving DecidableEq, Repr

/-- A lattice change that takes effect at a flip cycle, with the commit cycle of its window (R56, R57). -/
structure Flip where
  commit : Nat
  cyc    : Nat
  stride : Nat
  phase  : Nat
  deriving DecidableEq, Repr

/-- The state of a high-current region (R246, R247): whether one is open, the level in force, the falls to come (the beat after which
a RELP ends the region or an ACQP lowers its level, the level it leads to, and whether the region ends), the beat it was opened, the
highest level the governor has granted, and the ACQPs in their lead: issue beat, level, the cycle of the request, and the cycle it
was granted; `last` is the beat of the last ACQP or RELP with the place of its context among those of one beat, and `since` the slot at
which the strand last went on after a hold (R287). -/
structure Region where
  on    : Bool
  level : Nat
  falls : List (Nat × Nat × Bool)
  opened : Nat
  grant : Nat
  reqs  : List (Nat × Nat × Nat × Option Nat)
  last  : Option (Nat × Nat) := none
  since : Nat := 0
  deriving DecidableEq, Repr

/-- One strand. `lane` is its network lane (R53), `flip` the change of lattice committed for it, `decided` the lattice that the
lead stack's decision gives it and that its own stack has still to commit (R58), `icinvs` the ICINVs that have still to reach its
partitions: beat, address and length (R95); `waitSaw` the writes in flight that had performed at the scope of an elastic wait when
its read returned (R270). -/
structure Strand where
  sid    : Nat
  ctx    : Nat
  task   : Nat
  logidx : Nat
  fp     : Footprint
  det    : Bool
  tagck  : Bool
  serial : Bool
  stack  : Nat
  wix    : Nat
  admitted : Nat
  stride : Nat
  phase  : Nat
  reqStride : Nat
  reqPin : Option Nat
  lane   : Option Nat
  grains : List Nat
  decided : Option (Nat × Nat)
  flip   : Option Flip
  nextCyc : Nat
  beat   : Nat
  seed   : W64
  ctrbase : W64
  mbx    : Vector W64 8
  mbxNew : List (Nat × W64 × Nat)
  digest : W64
  image  : W64
  entries : Vector W64 4
  param  : W64
  dataVa : W64
  status : Status
  freeze : Option Freeze
  walks  : List PageWalk
  fills  : List Fill
  icinvs : List (Nat × Nat × Nat)
  waitSaw : List Nat
  raised : List Cause
  taking : List Cause
  holdAt : Option Nat
  holdReq : Bool
  linkHeld : Bool
  stopCyc : Nat
  region : Region
  decl   : Option Declaration
  molt   : Option MoltReq
  moltResult : Option (MoltReq × Nat)
  cores  : List Core
  startTime : Nat
  resumed : Bool
  deriving DecidableEq, Repr

/-! ## Contexts, queues, graphs and tasks (R16, R17, R28 to R49) -/

/-- A launch record (R47), with the number of what it records, whether a ring slot is reserved for it, and the done word to
store after it (0: none) (R43, R49). -/
structure Record where
  num    : Nat
  held   : Bool
  doneAt : W64
  kind   : Nat
  mode   : Nat
  node   : Nat
  queue  : Nat
  seq    : W32
  seed   : W64
  ctrbase : W64
  cookie : W32
  phases : Nat
  onStks : Nat
  strands : Nat
  start  : W64
  stop   : W64
  detail : Nat
  status : Nat
  digest : W64
  deriving DecidableEq, Repr

/-- An active context (R28): its descriptor's fields, its seed stack, quotas, device queue, records waiting and slots
reserved, whether a record's slot does not translate, whether it has been torn down, and its teardown in progress. Discards that wait
for a slot, in order, have each its record, and the slots of its packet that are still to be passed. -/
structure Context where
  num    : Nat
  part   : Nat
  root   : Nat
  ring   : W64
  ringLog : Nat
  produced : W64
  dqBase : W64
  dqHead : W32
  dqTail : W32
  dqWait : Option (WaitPkt × Nat × Nat)
  dqDiscards : List (Record × Nat)
  seeds  : List W64
  quota  : W64
  limit  : Nat
  floor  : Nat
  records : List Record
  reserved : Nat
  blocked : Bool
  torn   : Bool
  teardown : Option Record
  enused : W64
  enover : W64
  exhausted : Bool
  deriving DecidableEq, Repr

/-- A host queue (R30 to R32). `read` is the time of the first read of a packet that did not match and the interval to
the next; `wait` the WAITWORD in force with its acceptance time and next poll; `accepted` says the halt came after
acceptance. -/
structure HostQueue where
  base   : W64
  size   : Nat
  enable : Bool
  ctx    : Nat
  head   : W32
  tail   : W32
  halted : Bool
  cause  : Nat
  where_ : W32
  accepted : Bool
  wait   : Option (WaitPkt × Nat × Nat)
  read   : Option (Nat × Nat × Nat)
  ready  : Nat
  deriving DecidableEq, Repr

/-- Where a launch comes from: a packet of a queue, a TASK node of a replay, or the re-execution of a task (R302). -/
inductive Origin where
  | packet (q : QRef) (seq : W32) (cookie : W64)
  | node (rep : Nat) (node : Nat) (next : List Nat) (q : QRef) (seq : W32)
  | redo (task : Nat)
  deriving DecidableEq, Repr

/-- A launch: what it asks for (R33, R38, R39). -/
structure Launch where
  ctx    : Nat
  from_  : Origin
  image  : W64
  param  : W64
  ctrbase : W64
  count  : Nat
  det    : Bool
  tagck  : Bool
  serial : Bool
  noWait : Bool
  cls    : Nat
  mbx    : Vector W64 8
  seed   : W64
  deriving DecidableEq, Repr

/-- An image's header as the dispatcher has checked it (R24): its footprint, section offsets and sizes, and entry offsets. -/
structure Header where
  fp      : Footprint
  text    : Nat
  textLen : Nat
  data    : Nat
  dataLen : Nat
  entries : List Nat
  deriving DecidableEq, Repr

/-- A launch in the waiting set (R22): its number, class now, acceptance time, time of the last rise, its image's header,
and whether its reservation stands. A restored strand waits with its image instead. -/
structure Waiting where
  num    : Nat
  launch : Launch
  cls    : Nat
  accepted : Nat
  raisedAt : Nat
  hdr    : Header
  image  : Option Strand
  reserve : Bool
  deriving DecidableEq, Repr

/-- A task open on the device (R16, R295): its launch, its strands' identifiers in logical order, the digests of those
that have ended, the record under construction, and the re-executions of R302: the reference not met, the digests of the
runs so far, the units the task has used, those on which an error has been counted since it was admitted, and whether one was counted
on a unit that a re-execution used. `lead` is the stack and the cycle at which it was admitted (R46). -/
structure Task where
  num    : Nat
  launch : Launch
  hdr    : Header
  record : Record
  strands : List Nat
  digests : List (Nat × W64)
  faults : List (Nat × Nat × Nat × Nat)
  expected : Option W64
  runs   : List W64
  used   : List HwUnit
  counted : List HwUnit
  redoErrors : Bool
  lead   : Nat × Nat
  deriving DecidableEq, Repr

/-- A SETWORD that waits for earlier launches of its queue (R35). -/
structure AfterPrior where
  num    : Nat
  ctx    : Nat
  queue  : QRef
  pkt    : SetPkt
  deriving DecidableEq, Repr

/-- A graph replay (R40 to R43). -/
structure Replay where
  num    : Nat
  ctx    : Nat
  queue  : QRef
  pkt    : GraphPkt
  patches : List (Nat × W64)
  seed   : W64
  started : Bool
  pend   : List Activation
  loops  : List (Nat × W64 × Nat)
  joins  : List (Nat × List (Nat × W64))
  running : Nat
  ending : Bool
  status : Nat
  deriving DecidableEq, Repr

/-! ## The weaver, power, errors and the island (R55, R60, R273 to R279, R292, R310, R313) -/

/-- Units being scrubbed (R60): the core, the units, of a strand slot the clusters and the engines (bit 0 matrix, 1 table, 2 rule, 3
block transfer), and the cycle at which the scrub ends; `ctx` is the context the space belonged to. -/
structure Scrub where
  ctx   : Nat
  core  : Nat
  units : Units
  mask  : BitVec 4
  engines : BitVec 4
  stop  : Nat
  deriving DecidableEq, Repr

/-- A translation held in a TLB (R147): its context, the page's first virtual address, the log2 of its size, its bus address and
its permissions. -/
structure TlbEntry where
  ctx : Nat
  va  : Nat
  log : Nat
  bus : Nat
  w   : Bool
  x   : Bool
  deriving DecidableEq, Repr

/-- One compute stack. `micro`, `sliceTlb` and `tlb` are its three levels of TLB (R147), `cache` the lines of memory that its 16
slice caches hold, the latest first (R8, R148). `late` are the block steps that strands which drain have still to start: strand, cycle, number
(R278, log 25), `pointPending` the changes of point decided, with the times at which they take effect (R272). -/
structure Stack where
  up     : Bool
  cyc    : Nat
  acc    : Nat
  departed : List Nat
  window : Nat
  scrubs : List Scrub
  point  : Nat
  pointPending : List (Nat × Nat)
  ceiling : Nat
  thermal : Nat
  refused : Bool
  pwrenv : W64
  droop  : List W32
  sig    : W32
  steps  : Nat
  late   : List (Nat × Nat × Nat)
  stretch : Option Nat
  evalAt : Nat
  crash  : List (List W64)
  crashcnt : Nat
  tlb    : List TlbEntry
  sliceTlb : Vector (List TlbEntry) 16
  micro  : Vector (List TlbEntry) 64
  cache  : Vector (List Nat) 16
  deriving DecidableEq, Repr

/-- A write in flight: it has performed at a scope level narrower than device (R257, R261). `cut` lists the words in which a later
write has overtaken some of its bytes. -/
structure Flight where
  id    : Nat
  stack : Nat
  core  : Nat
  sid   : Nat
  cl    : Nat
  cells : List (Nat × Byte)
  bad   : List Nat
  level : Nat
  cut   : List Nat := []
  deriving DecidableEq, Repr

/-- A reset under way (R306, R307): the stacks it resets, whether it is a function-level reset, and the time at which it ends. -/
structure Resetting where
  parts  : List Nat
  whole  : Bool
  stop   : Nat
  deriving DecidableEq, Repr

/-- The power states of R320. -/
inductive Power where
  | active | gated | retain | off
  deriving DecidableEq, Repr

/-- The context that a syllable is issued from: strand, core, cluster, the bundle's beat, its address, the address after
it, its Shadow flag, whether a trap bank is in use, and whether a transfer or a return has set the sequence. -/
structure Cur where
  sid   : Nat
  core  : Nat
  cl    : Nat
  beat  : Nat
  pc    : Nat
  next  : Nat
  shadow : Bool
  handler : Bool
  moved : Bool
  deriving DecidableEq, Repr

/-- The steps and events that the device takes of its own accord, as the schedule holds them: each stands for the
instruction of the same name. -/
inductive Ev where
  | mcfgStart (c : CoreRef) (e : Eng)
  | cfgldStart (c : CoreRef) (e : Eng)
  | cfgswapStart (c : CoreRef) (e : Eng)
  | cfgswapFlip (c : CoreRef) (e : Eng)
  | mgoStart (c : CoreRef)
  | matrixBlockStep (c : CoreRef)
  | mstopStart (c : CoreRef)
  | mbaseStart (c : CoreRef)
  | mfmtStart (c : CoreRef)
  | aczeroStart (c : CoreRef)
  | xcopyStart (c : CoreRef)
  | xcopyChunk (c : CoreRef) (id : Nat) (j : Nat)
  | tsldStart (c : CoreRef)
  | tsevStart (c : CoreRef)
  | tloadStart (c : CoreRef)
  | tloadReplace (c : CoreRef)
  | rloadStart (c : CoreRef)
  | rloadReplace (c : CoreRef)
  | rstepStart (c : CoreRef)
  | rstepGeneration (c : CoreRef)
  | loadPerform (r : CRef)
  | loadDataArrival (r : CRef)
  | storePerform (r : CRef)
  | ecopyPerform (r : CRef)
  | atomicPerform (r : CRef)
  | baraPerform (r : CRef)
  | enqPerform (r : CRef)
  | markerRetire (r : CRef)
  | elasticWaitResume (sid : Nat)
  | fetchLineFill (sid : Nat)
  | translationWalk (sid : Nat)
  | powerGrant (k : Nat)
  | regionLevelFall (sid : Nat)
  | stallWatchdog (sid : Nat)
  | deadlineLapse (sid : Nat)
  | strandStop (sid : Nat)
  | drainEnd (sid : Nat)
  | preemptionHold (sid : Nat)
  | commitWindow (k : Nat)
  | weaveFlip (k : Nat)
  | scrubComplete (k : Nat)
  | strandRetire (sid : Nat)
  | digestReexecution (task : Nat)
  | ringRecordWrite (ctx : Nat)
  | nopPacket (q : QRef)
  | launch (q : QRef) (p : LaunchPkt)
  | graph (q : QRef) (p : GraphPkt)
  | seedpush (q : QRef) (v : W64)
  | seedpop (q : QRef)
  | seedfork (q : QRef) (i : W32)
  | waitword (q : QRef) (p : WaitPkt)
  | waitwordPoll (q : QRef)
  | waitTimeout (q : QRef)
  | setword (q : QRef) (p : SetPkt)
  | afterPriorStore (n : Nat)
  | teardown (q : QRef)
  | quota (q : QRef) (p : QuotaPkt)
  | packetReread (q : QRef)
  | tornPacket (q : QRef)
  | launchAgeing (n : Nat)
  | launchReservation (part : Nat)
  | taskNode (rep : Nat) (a : Activation) (w : NodeWords)
  | cond (rep : Nat) (a : Activation) (w : NodeWords)
  | loopNode (rep : Nat) (a : Activation) (w : NodeWords)
  | switch (rep : Nat) (a : Activation) (w : NodeWords)
  | join (rep : Nat) (a : Activation) (w : NodeWords)
  | seedNode (rep : Nat) (a : Activation) (w : NodeWords)
  | endNode (rep : Nat) (a : Activation) (w : NodeWords)
  | linkgraceExpiry
  | governorEvaluation (k : Nat)
  | operatingPointChange (k : Nat)
  | droopSignatureMatch (k : Nat)
  | doorbell (ctx : Nat) (v : W64)
  | droopStretchEnd (k : Nat)
  | thermalSafetyTrip
  deriving DecidableEq, Repr

/-- The tasks of one moment, in order: the model's own schedule. DESIGN CHOICE (log 4). -/
inductive Job where
  | ev (e : Ev)
  | clock (k : Nat)
  | cycle (k : Nat)
  | slots (k : Nat)
  | slot (sid : Nat)
  | beat (sid : Nat)
  | evs (sid : Nat)
  | issue (r : CRef)
  | starts (sid : Nat)
  | claims (sid : Nat)
  | endBeat (sid : Nat)
  | elastic (k : Nat)
  | waits (k : Nat)
  | fallen
  | dispatch
  | govern
  deriving DecidableEq, Repr

/-- The whole device. `images` remembers, by number, what each image that SAVE has written holds; `resetting` is the reset under way,
`powered` false once power is lost (R319); `hostOut` are the answers given to the host and the domain, and `hostBad` the places in it of
those whose data carries poison (R316); `sent` are the accesses that have left for other devices: source, destination and port (R313). -/
structure State where
  wtime    : Nat
  mem      : Sparse 8
  poison   : List Nat
  flight   : List Flight
  stks     : Vector Stack 4
  strands  : List Strand
  nextSid  : Nat
  nextNum  : Nat
  contexts : List Context
  queues   : Vector HostQueue 64
  rr       : Nat
  waiting  : List Waiting
  tasks    : List Task
  replays  : List Replay
  after    : List AfterPrior
  saved    : List Strand
  images   : List (Nat × Strand)
  ctxtab   : W64
  ctxcmd   : W64
  pecmd    : W64
  peaddr   : W64
  holding  : Option (Nat × List Nat)
  drefv    : Vector W64 64
  drefc    : Vector W64 64
  tlbaddr  : W64
  tlbinv   : W64
  mbxdata  : W64
  mbxctl   : W64
  resetcmd : W64
  resetting : Option Resetting
  powered  : Bool
  linkUp   : Bool
  linkLost : Bool
  linkHolding : Bool
  linkgrace : W32
  lostAt   : Option Nat
  devevt   : BitVec 5
  ctxevt   : Vector (BitVec 6) 64
  msix     : List Nat
  pwrcmd   : W64
  power    : List (Nat × Nat × Power)
  powerHist : List Nat
  tripped  : List Nat
  errcfg   : W64
  errs     : List (HwUnit × Nat)
  fenced   : List HwUnit
  retentionLost : List Nat
  exports  : Vector W64 256
  routes   : Sparse 32
  ports    : List (Nat × Nat)
  portReplays : List (Nat × Nat)
  doorbells : List (Nat × Nat × W32)
  fwRunning : Vector Nat 3
  fwCounter : Vector Nat 3
  otsIndex : Nat
  attested : List (Nat × Nat)
  hostOut  : List (Option (List Byte))
  hostBad  : List Nat
  sent     : List (Nat × Nat × Nat)
  cur      : Option Cur
  snap     : Option Strand
  snapSteps : Nat
  todo     : List Job
  inputs   : List (Nat × Instr)
  freeCtr  : Nat
  deriving DecidableEq, Repr

/-! ## Stops -/

/-- Why a step stops the model. Each is the model's own guard around a thing the spec leaves without an effect. DESIGN CHOICE
(log 9). -/
inductive Fault where
  /-- A step or event of the device is run in a state that has no occasion for it (log 9). Raised by the events' meanings.
  Safe: the model stops where the device would not run that step. -/
  | noOccasion
  /-- A syllable is run when no bundle is being issued (log 9). Raised by the syllables' meanings. Safe. -/
  | notIssuing
  deriving DecidableEq, Repr

/-- What the model gives no meaning. -/
inductive Refusal where
  /-- The instruction has no meaning yet. Raised by arms of the dispatch only. Safe. -/
  | notModelled (mnemonic : String)
  deriving DecidableEq, Repr

/-! ## Reset (R304, R306) -/

/-- A sequence that stands at an address with nothing pending. -/
def Seq.at (pc : Nat) : Seq := { pc, pos := 0, tgt := none, exits := false, loops := [] }

/-- A trap bank not in use (R27). -/
def Bank.zero : Bank :=
  { pc := 0, cause := 0, addr := 0, tgt := 0, beat := 0, fseq := 0, nme := 0, nte := 0, nre := 0, nbte := 0, nlq := 0,
    nsq := 0, k0 := 0, k1 := 0, k2 := 0, k3 := 0, inUse := false, counts := false, wasHalted := false, skip := 0,
    seq := Seq.at 0 }

/-- An empty elastic queue. -/
def ElQueue.empty : ElQueue := { entries := [], next := 0 }

/-- A cluster context as admission leaves it, before its own values are set (R27). -/
def Cluster.zero : Cluster :=
  { inMask := false, s := Vector.replicate 32 0, p := (Vector.replicate 12 0).set 0 (BitVec.allOnes 64),
    o := Vector.replicate 16 (splat 0), l := Vector.replicate 4 (splat 0), q := Vector.replicate 4 [], seq := Seq.at 0,
    sr := 1, tvec := 0, fmtbase := 0, fmtsel := 0, ta := Bank.zero, tb := Bank.zero, shadowRun := 0, halted := false,
    waitb := 0, skip := 0, rdv := none, gaps := [], lq := ElQueue.empty, sq := ElQueue.empty, issued := 0, waits := [], horizon := 0,
    slog := [], arrive := [], saw := [], lastIssue := none, l0 := [], gone := [] }

/-- An engine with nothing queued and planes of zeros. -/
def Engine.zero : Engine :=
  { q := [], next := 0, last := 0, active := [], shadow := [], filling := 0, starts := (0, 0), swaps := [], faulted := false, flips := 0 }

/-- An accumulator bank as its scrub left it (R135). -/
def AccBank.zero : AccBank := { mode := .unallocated, own := 0, poison := false, ownBeat := 0 }

/-- A core's share of a strand as admission leaves it (R27, R60). -/
def Core.zero (phys : Nat) (units : Units) : Core :=
  { phys, units, cl := Vector.replicate 4 Cluster.zero, planes := [], planePoison := [], spad := [], spadPoison := [],
    tags := [], coming := [], acc := [], banks := Vector.replicate 32 AccBank.zero, shapes := Vector.replicate 32 none,
    fmt := Vector.replicate 16 0, me := Engine.zero, te := Engine.zero, re := Engine.zero, bte := Engine.zero,
    nest := none, cbusy := [], loads := [], rstep := none, rstopped := none, rgc := 0, copies := [], copyNext := 0,
    claims := [], pending := [], agenda := [], l1 := [], marks := [] }

/-- PWRENV at cold reset: Budget 4,095, Throttle 95, Cap 0, Default 15, Max 15, Min 0 (R273). -/
def pwrenvReset : W64 := BitVec.ofNat 64 (4095 * 2 ^ 40 + 95 * 2 ^ 32 + 15 * 2 ^ 8 + 15 * 2 ^ 4)

/-- A stack after cold reset. The point is the Default of R273 (DESIGN CHOICE, log 2). -/
def Stack.reset : Stack :=
  { up := true, cyc := 0, acc := 0, departed := [], window := 0, scrubs := [], point := 15,
    pointPending := [], ceiling := 15, thermal := 8, refused := false, pwrenv := pwrenvReset, droop := [], sig := 0,
    steps := 0, late := [], stretch := none, evalAt := 1000, crash := [], crashcnt := 0, tlb := [], sliceTlb := Vector.replicate 16 [],
    micro := Vector.replicate 64 [], cache := Vector.replicate 16 [] }

/-- A host queue after cold reset: disabled (DESIGN CHOICE zeros, log 2). -/
def HostQueue.reset : HostQueue :=
  { base := 0, size := 0, enable := false, ctx := 0, head := 0, tail := 0, halted := false, cause := 0, where_ := 0,
    accepted := false, wait := none, read := none, ready := 0 }

/-- ERRCFG at cold reset: window 1,440 minutes, threshold 8 (R292). -/
def errcfgReset : W64 := BitVec.ofNat 64 (1440 * 2 ^ 32 + 8)

/-- The device right after cold reset (R306): nothing admitted, every window register at its reset value. -/
def State.reset : State :=
  { wtime := 0, mem := [], poison := [], flight := [], stks := Vector.replicate 4 Stack.reset, strands := [],
    nextSid := 1, nextNum := 1, contexts := [], queues := Vector.replicate 64 HostQueue.reset, rr := 0, waiting := [],
    tasks := [], replays := [], after := [], saved := [], images := [], ctxtab := 0, ctxcmd := 0, pecmd := 0, peaddr := 0,
    holding := none, drefv := Vector.replicate 64 0, drefc := Vector.replicate 64 0, tlbaddr := 0, tlbinv := 0,
    mbxdata := 0, mbxctl := 0, resetcmd := 0, resetting := none, powered := true, linkUp := true, linkLost := false, linkHolding := false,
    linkgrace := 10000000, lostAt := none, devevt := 0, ctxevt := Vector.replicate 64 0, msix := [], pwrcmd := 0,
    power := [], powerHist := [], tripped := [], errcfg := errcfgReset, errs := [], fenced := [], retentionLost := [],
    exports := Vector.replicate 256 0, routes := [], ports := [], portReplays := [], doorbells := [],
    fwRunning := Vector.replicate 3 0, fwCounter := Vector.replicate 3 0, otsIndex := 0, attested := [], hostOut := [], hostBad := [], sent := [],
    cur := none, snap := none, snapSteps := 0, todo := [], inputs := [], freeCtr := 0 }

end Sys2Proof.Machine
end

