-- ==== Sys2Proof/Machine/Ops.lean ====
section
/-! DEFINITION. The named operations over sparse stores, registers, the timed agenda and raised causes; taking a trap and
releasing a trap bank (R239 to R243, R281 to R285). -/

namespace Sys2Proof.Machine

/-! ## Sparse stores -/

/-- What a sparse store holds at a key. DESIGN CHOICE (log 1). -/
def Sparse.get {w : Nat} : Sparse w → Nat → BitVec w
  | [], _ => 0
  | (a, x) :: m, k => if a == k then x else Sparse.get m k

/-- List a key with a value, in the place of its order. -/
def Sparse.put {w : Nat} : Sparse w → Nat → BitVec w → Sparse w
  | [], k, v => [(k, v)]
  | (a, x) :: m, k, v =>
    if k < a then (k, v) :: (a, x) :: m
    else if k == a then (k, v) :: m
    else (a, x) :: Sparse.put m k v

/-- Write one key: a zero is not listed. -/
def Sparse.set {w : Nat} (m : Sparse w) (k : Nat) (v : BitVec w) : Sparse w :=
  if v == 0 then m.filter fun c => c.1 != k else Sparse.put m k v

/-- Write the listed keys, a later one over an earlier one. -/
def Sparse.setAll {w : Nat} (m : Sparse w) (cells : List (Nat × BitVec w)) : Sparse w :=
  cells.foldl (fun m c => Sparse.set m c.1 c.2) m

/-- The `n` values from key `k` on. -/
def Sparse.getN {w : Nat} (m : Sparse w) (k n : Nat) : List (BitVec w) := (List.range n).map fun i => Sparse.get m (k + i)

/-- Consecutive keys from `k` paired with values. -/
def cellsAt {α : Type} (k : Nat) : List α → List (Nat × α)
  | [] => []
  | v :: vs => (k, v) :: cellsAt (k + 1) vs

/-- Remove the entries whose key satisfies `f`. -/
def Sparse.clear {w : Nat} (m : Sparse w) (f : Nat → Bool) : Sparse w := m.filter fun c => !f c.1

/-- A sparse store is in canonical form: keys strictly rising from `lo`, no zero entry. -/
def Sparse.wfFrom {w : Nat} (lo : Nat) : Sparse w → Bool
  | [] => true
  | (a, x) :: m => decide (lo ≤ a) && x != 0 && Sparse.wfFrom (a + 1) m

/-- Memory is in canonical form. -/
def Memory.wf (m : Sparse 8) : Bool := Sparse.wfFrom 0 m

/-- The element of a vector, or a default beyond its end. -/
def vget {α : Type} {n : Nat} (v : Vector α n) (i : Nat) (d : α) : α := if h : i < n then v[i] else d

/-- The vector with element `i` replaced; nothing beyond its end. -/
def vset {α : Type} {n : Nat} (v : Vector α n) (i : Nat) (x : α) : Vector α n := if h : i < n then v.set i x else v

/-! ## What an error can strike in a cluster context, by number (R290). DESIGN CHOICE (log 68) -/

/-- A scalar register. -/
def atS (r : Reg) : Nat := r.toNat
/-- A predicate. -/
def atP (n : PReg) : Nat := 32 + n.toNat
/-- An entry of the operand file. -/
def atO (n : BitVec 4) : Nat := 44 + n.toNat
/-- An entry of the last-result file. -/
def atL (n : BitVec 2) : Nat := 60 + n.toNat
/-- The head of an operand queue. -/
def atQ (n : BitVec 2) : Nat := 64 + n.toNat

/-- A write of a marked element clears its mark where it covers it whole (R290). -/
def heal (whole : Bool) (e : Nat) (marks : List Nat) : List Nat := if whole then marks.filter (· != e) else marks

/-! ## Registers (R110, R150, R158) -/

/-- A scalar register; s0 reads zero, since writes to it are discarded (R27, R88). -/
def Cluster.rs (c : Cluster) (r : Reg) : W64 := if r == 0 then 0 else vget c.s r.toNat 0

/-- A predicate; p0 reads all ones (R110). -/
def Cluster.rp (c : Cluster) (p : Nat) : W64 := if p == 0 then BitVec.allOnes 64 else vget c.p p 0

/-- Write a scalar register at a beat; s0 discards. The old value is kept for the eight beats that JMP and RET look back
(R90). -/
def Cluster.ws (c : Cluster) (beat : Nat) (r : Reg) (v : W64) : Cluster :=
  if r == 0 then c
  else { c with s := vset c.s r.toNat v, slog := (beat, r.toNat, c.rs r) :: c.slog.filter fun e => beat ≤ e.1 + 8,
                struck := heal true (atS r) c.struck }

/-- Write the bits of a predicate that `mask` names; p0 ignores (R110). -/
def Cluster.wp (c : Cluster) (p : Nat) (v mask : W64) : Cluster :=
  if p == 0 then c
  else { c with p := vset c.p p ((c.rp p &&& ~~~mask) ||| (v &&& mask)), struck := heal (mask == BitVec.allOnes 64) (32 + p) c.struck }

/-- A scalar register as a bundle eight beats before `beat` read it (R90). -/
def Cluster.rsBack (c : Cluster) (beat : Nat) (r : Reg) : W64 :=
  if r == 0 then 0
  else match (c.slog.filter fun e => beat < e.1 + 8 && e.2.1 == r.toNat).getLast? with
    | some e => e.2.2
    | none => c.rs r

/-- The marks of a context whose last results have each moved down one place. -/
def downMarks (ms : List Nat) : List Nat := ms.filterMap fun m => if m < 60 || 64 ≤ m then some m else if m == 63 then none else some (m + 1)

/-- Enter a vector into the last-result file (R104); `bad` says that an error has struck some of it (R290). -/
def Cluster.pushL (c : Cluster) (v : Lanes) (bad : Bool := false) : Cluster :=
  { c with l := #v[v, vget c.l 0 v, vget c.l 1 v, vget c.l 2 v], struck := (if bad then [60] else []) ++ downMarks c.struck }

/-- Land a vector result: merged into its destination in active lanes, then entered (R103, R104). -/
def Cluster.landVec (c : Cluster) (d : VDst) (act : W64) (v : Lanes) : Cluster :=
  match d with
  | .last => c.pushL (mkLanes fun i => if bitAt act i then lane v i else 0)
  | .o n =>
    let old := vget c.o n.toNat (splat 0)
    let e := mkLanes fun i => if bitAt act i then lane v i else lane old i
    let struck := heal (act == BitVec.allOnes 64) (atO n) c.struck
    { c with o := vset c.o n.toNat e, struck }.pushL e (struck.contains (atO n))

/-! ## Finding and changing strands, cores and clusters -/

/-- The strand with an identifier. -/
def State.strand? (s : State) (sid : Nat) : Option Strand := s.strands.find? fun t => t.sid == sid

/-- Change one strand. -/
def State.modStrand (s : State) (sid : Nat) (f : Strand → Strand) : State :=
  { s with strands := s.strands.map fun t => if t.sid == sid then f t else t }

/-- Change one logical core of a strand. -/
def Strand.modCore (t : Strand) (n : Nat) (f : Core → Core) : Strand := { t with cores := t.cores.modify n f }

/-- Change one cluster context of a core. -/
def Core.modCl (c : Core) (k : Nat) (f : Cluster → Cluster) : Core :=
  { c with cl := vset c.cl k (f (vget c.cl k Cluster.zero)) }

/-- A cluster context of a core. -/
def Core.cluster (c : Core) (k : Nat) : Cluster := vget c.cl k Cluster.zero

/-- Change one cluster context of a strand. -/
def Strand.modCl (t : Strand) (n k : Nat) (f : Cluster → Cluster) : Strand := t.modCore n fun c => c.modCl k f

/-- The stack with a number. -/
def State.stack (s : State) (k : Nat) : Stack := vget s.stks k Stack.reset
/-- Change one stack. -/
def State.modStack (s : State) (k : Nat) (f : Stack → Stack) : State := { s with stks := vset s.stks k (f (s.stack k)) }

/-- Change one context. -/
def State.modCtx (s : State) (n : Nat) (f : Context → Context) : State :=
  { s with contexts := s.contexts.map fun c => if c.num == n then f c else c }
/-- An active context. -/
def State.ctx? (s : State) (n : Nat) : Option Context := s.contexts.find? fun c => c.num == n

/-- Take the next free delay and advance the counter (log 3). -/
def State.fresh (s : State) : Nat × State := (Config.delay s.freeCtr, { s with freeCtr := s.freeCtr + 1 })

/-! ## The issuing context -/

/-- What the syllable being run sees: the issuing context, and the strand, core and cluster as its bundle reads them. -/
structure View where
  cur : Cur
  st  : Strand
  co  : Core
  cl  : Cluster
  deriving DecidableEq, Repr

/-- The issuing context, if a bundle is being issued. -/
def State.view (s : State) : Option View :=
  match s.cur with
  | none => none
  | some cur => match s.strand? cur.sid with
    | none => none
    | some st => match st.cores[cur.core]? with
      | none => none
      | some co => some { cur, st, co, cl := co.cluster cur.cl }

/-- A scalar register as the bundle reads it. -/
def View.rs (v : View) (r : Reg) : W64 := v.cl.rs r

/-- Change the issuing core. -/
def View.modCore (v : View) (s : State) (f : Core → Core) : State :=
  s.modStrand v.cur.sid fun t => t.modCore v.cur.core f

/-- Change the issuing cluster context. -/
def View.modCl (v : View) (s : State) (f : Cluster → Cluster) : State := v.modCore s fun c => c.modCl v.cur.cl f

/-! ## The agenda -/

/-- Insert a timed effect, kept in order of beat, then order, then insertion. -/
def insertTimed (t : Timed) : List Timed → List Timed
  | [] => [t]
  | x :: xs => if t.beat < x.beat || (t.beat == x.beat && t.ord < x.ord) then t :: x :: xs else x :: insertTimed t xs

/-- Schedule a timed effect on a core. -/
def Core.sched (c : Core) (beat ord : Nat) (act : Act) : Core := { c with agenda := insertTimed { beat, ord, act } c.agenda }

/-- The order of a register result among those that land on one beat: issue beat, then kind (R104, R150). -/
def View.ord (v : View) (slot : Nat) : Nat := v.cur.beat * 8 + slot

/-- The order of a cluster's store among those visible on one beat: the lowest-numbered cluster is applied last (R106,
R219, R259). -/
def View.rank (v : View) : Nat := 3 - v.cur.cl

/-- The order of the rule engine's and the block-transfer engine's writes: over any cluster's. -/
def engineRank : Nat := 4

/-- Land a register result `lat` beats from now. -/
def View.land (v : View) (s : State) (lat slot : Nat) (act : Act) : State :=
  v.modCore s fun c => c.sched (v.cur.beat + lat) (v.ord slot) act

/-- A write to a shared store becomes visible `lat` beats from now. -/
def View.store (v : View) (s : State) (lat : Nat) (act : Act) : State :=
  v.modCore s fun c => c.sched (v.cur.beat + lat) v.rank act

/-- The key of element (r, c) of a plane or an accumulator bank. -/
def cellKey (n r c : Nat) : Nat := n * 4096 + r * 64 + c

/-- The bits of one accumulation in FP32 (R127): `C + S` rounded once. -/
def accFp (c : W32) (ps : List Fp) : W32 := round32 0 (Fp.add false (fp32 c) (chunkSum ps))

/-! ## Raising causes (R251, R252) -/

/-- The strand is frozen, or its beats have stopped for a drain. -/
def Strand.still (t : Strand) : Bool := t.freeze.isSome || (match t.status with
  | .drain _ => true
  | _ => false)

/-- Raise a cause on a strand: it notes whether the strand stands still, frozen or in its drain (R281, R282). -/
def Strand.raise (t : Strand) (c : Cause) : Strand :=
  { t with raised := t.raised ++ [{ c with frozen := t.still }] }

/-- Raise a precise cause at the bundle being issued. -/
def View.raise (v : View) (s : State) (code : Nat) (addr : W64 := 0) (detail : Nat := 0) : State :=
  s.modStrand v.cur.sid fun t => t.raise
    { code, kind := .p, core := v.cur.core, cl := v.cur.cl, beat := v.cur.beat, cyc := (s.stack v.st.stack).cyc, addr,
      detail, queue := 0, fseq := 0, shadow := v.cur.shadow && !v.cur.handler, k0 := none }

/-- ILLEGAL (R251). -/
def cIllegal : Nat := 0x0001
/-- BOUNDS. -/
def cBounds : Nat := 0x0002
/-- ADDRESS. -/
def cAddress : Nat := 0x0003
/-- SCHEDULE. -/
def cSchedule : Nat := 0x0004
/-- QUEUE. -/
def cQueue : Nat := 0x0005
/-- ALLOC. -/
def cAlloc : Nat := 0x0006
/-- OWNERSHIP. -/
def cOwner : Nat := 0x0007
/-- FORMAT. -/
def cFormat : Nat := 0x0008
/-- PATH. -/
def cPath : Nat := 0x0009
/-- PAGE. -/
def cPage : Nat := 0x000A
/-- PERM. -/
def cPerm : Nat := 0x000B
/-- FETCH. -/
def cFetch : Nat := 0x000C
/-- SYNC-BREAK. -/
def cSync : Nat := 0x000D
/-- SHADOW. -/
def cShadow : Nat := 0x000E
/-- RENDEZVOUS. -/
def cRdv : Nat := 0x000F
/-- STALL-WATCHDOG. -/
def cStall : Nat := 0x0010
/-- ENQ-TYPE. -/
def cEnq : Nat := 0x0011
/-- OVERCURRENT. -/
def cOver : Nat := 0x0012
/-- SOFTWARE. -/
def cSoft : Nat := 0x0013
/-- UNRESUMABLE. -/
def cUnres : Nat := 0x0014
/-- POISON. -/
def cPoison : Nat := 0x0015
/-- RETENTION-LOSS. -/
def cRetain : Nat := 0x0016
/-- HOST-ABSENT. -/
def cHost : Nat := 0x0017
/-- NO-ENDPOINT. -/
def cNoEnd : Nat := 0x0018
/-- DEADLINE-RISK. -/
def cRisk : Nat := 0x0019

/-! ## Running a syllable -/

/-- Run a syllable's effect in the issuing context. -/
def withView (s : State) (f : View → State) : Host.Outcome State Fault Refusal :=
  match s.view with
  | none => .fault .notIssuing
  | some v => .next (f v)

/-! ## Taking and leaving a trap (R239 to R243) -/

/-- The bank of a context that is innermost in use: `tb` if in use, else `ta` (R243). -/
def Cluster.inner (c : Cluster) : Option Bank :=
  if c.tb.inUse then some c.tb else if c.ta.inUse then some c.ta else none

/-- A bank of the context is in use and its handler has not halted (R239, R284). -/
def Cluster.handling (c : Cluster) : Bool := (c.ta.inUse && c.ta.counts) || (c.tb.inUse && c.tb.counts)

/-- The trap depth of a context: 0 in the program, 1 in the handler of `ta`, 2 in that of `tb`. -/
def Cluster.depth (c : Cluster) : Nat := if c.tb.inUse then 2 else if c.ta.inUse then 1 else 0

/-- The sequence number of the first entry of an engine's queue that has not started (R240). -/
def Engine.cut (e : Engine) : W32 := match e.q with
  | c :: _ => c.seq
  | [] => e.next

/-- The sequence number of the first entry of an elastic queue that has not begun to perform (R240, R283). -/
def ElQueue.cut (q : ElQueue) : W32 := match q.entries.find? fun e => e.level == 0 with
  | some e => e.seq
  | none => q.next

/-- The cause word (R241). -/
def causeWord (c : Cause) (pos : Nat) : W64 :=
  BitVec.ofNat 64 (c.detail % 256 * 2 ^ 24 + c.queue * 2 ^ 20 + pos * 2 ^ 18 + bnat c.shadow * 2 ^ 16 + c.code)

/-- The next-sequence register of a queue: one past the entry that raised the cause where the cause names the queue (R240). -/
def cutFor (c : Cause) (q : Nat) (cut : W32) : W32 := if c.queue == q then c.fseq + 1 else cut

/-- `tvec` as a trap taken before beat `x` finds it: with an MTS that is visible from that beat (R160). -/
def Core.tvecAt (co : Core) (k x : Nat) : W64 :=
  ((co.agenda.filterMap fun e => match e.act with
    | .special c code v => if c == k && code == 0x10 && e.beat ≤ x then some (v &&& ~~~3) else none
    | _ => none).getLast?).getD (co.cluster k).tvec

/-- Whether a trap of the context is at the third level (R239): both banks in use, or no handler address. -/
def thirdLevel (cl : Cluster) (c : Cause) : Bool :=
  (cl.ta.inUse && cl.tb.inUse) || (cl.tvec == 0 && c.code != cRisk)

/-- The bank a trap writes (R240, R241): `co` and `cl` as they stand after the drain, `beat` the strand's, `fall` the
address of the bundle after the second delay bundle where no target is pending. -/
def trapBank (co : Core) (cl : Cluster) (c : Cause) (beat fall : Nat) (old : Bank) : Bank :=
  { old with
    pc := BitVec.ofNat 64 cl.seq.pc, cause := causeWord c cl.seq.pos, addr := c.addr,
    tgt := if cl.seq.pos == 0 then 0 else BitVec.ofNat 64 (cl.seq.tgt.getD fall),
    beat := BitVec.ofNat 64 beat, fseq := c.fseq.zeroExtend 64,
    nme := cutFor c 1 co.me.cut, nte := cutFor c 2 co.te.cut, nre := cutFor c 3 co.re.cut, nbte := cutFor c 4 co.bte.cut,
    nlq := cutFor c 5 cl.lq.cut, nsq := cutFor c 6 cl.sq.cut, k0 := c.k0.getD old.k0,
    inUse := true, counts := true, wasHalted := cl.halted, skip := cl.skip,
    seq := { cl.seq with loops := cl.seq.loops.map fun l => if l.start.isNone then { l with start := some fall } else l } }

/-- TAKE A TRAP in a context that is not at the third level: the first bank not in use takes the record, and the context
goes on at `tvec` with no loop active and no transfer pending (R239). -/
def takeTrap (co : Core) (cl : Cluster) (c : Cause) (beat fall : Nat) : Cluster :=
  let cl' := if cl.ta.inUse then { cl with tb := trapBank co cl c beat fall cl.tb }
    else { cl with ta := trapBank co cl c beat fall cl.ta }
  { cl' with seq := Seq.at cl.tvec.toNat, halted := false, skip := 0 }

/-- The sequence that a bank's registers say to resume at: `pc`, with the Delay, the target and the loops recorded (R240, R241). -/
def Bank.resume (b : Bank) : Seq := { b.seq with pc := b.pc.toNat }

/-- RELEASE the innermost bank (R243): the context resumes at the bank's address with its loop state and delay position;
it stands halted again if it had halted before the trap (R294). The bundles to skip are those a return had still to skip
when the trap was taken, and then `skip` more (R243, R244). -/
def releaseBank (cl : Cluster) (skip : Nat) : Cluster :=
  match cl.inner with
  | none => cl
  | some b =>
    let cl' := if cl.tb.inUse then { cl with tb := { b with inUse := false, counts := false } }
      else { cl with ta := { b with inUse := false, counts := false } }
    { cl' with seq := b.resume, halted := b.wasHalted, skip := b.skip + skip }

end Sys2Proof.Machine
end

