-- ==== Sys2Proof/Machine/Flags.lean ====
section
/-! DEFINITION. Conditions and guards (R78, R103, R110, R156, R170). The machine has no condition flags (R150): a compare's
answer is a predicate of 64 bits. -/

namespace Sys2Proof.Machine

/-- The value a scalar compare writes (R110, R156): all ones if the condition holds, else zero. -/
def predOf (b : Bool) : W64 := if b then BitVec.allOnes 64 else 0

/-- The guard of an S, M or X syllable: bit 0 of its predicate, complemented if Negate is set (R78). -/
def View.guard (v : View) (neg : Bool) (g : PReg) : Bool := bitAt (v.cl.rp g.toNat) 0 != neg

/-- The lanes in which a V syllable is active (R103). -/
def View.active (v : View) (h : Head) : W64 := if h.neg then ~~~(v.cl.rp h.g.toNat) else v.cl.rp h.g.toNat

/-- The mask whose bit `i` is `f i`, over 64 lanes. -/
def maskOf (f : Nat → Bool) : W64 := BitVec.ofNat 64 (natOfBits 64)
where
  /-- The number of the lowest `n` bits. -/
  natOfBits : Nat → Nat
    | 0 => 0
    | n + 1 => natOfBits n + bnat (f n) * 2 ^ n

/-- The lane vector of a compare: all ones where the condition holds in an active lane, else zero (R170). -/
def lanesOfMask (m : W64) : Lanes := mkLanes fun i => if bitAt m i then BitVec.allOnes 32 else 0

/-- The number of one bits. -/
def popcount (w : W64) : Nat := (List.range 64).foldl (fun n i => n + bnat (bitAt w i)) 0

/-- The number of leading zeros of a 64-bit word, 0 to 64. -/
def leadingZeros (w : W64) : Nat := if w == 0 then 64 else 63 - Nat.log2 w.toNat

end Sys2Proof.Machine
end

