-- ==== Sys2Proof/WellFormed.lean ====
section
/-! DEFINITION. Well-formed instructions: those whose every field lies in the range its format allows (R76, R88). The
ranges themselves stand in Machine/Checks.lean. -/

namespace Sys2Proof

/-- The instruction has an encoding that the machine accepts, as far as its own fields say. -/
def Instr.wf (i : Instr) : Bool := i.fieldsOk

end Sys2Proof
end

