-- ==== Sys2Proof/Decode.lean ====
section
/-! DEFINITION. Decoding syllables and bundles (R75 to R88), total on any bytes, and the encoder written from the same
tables. Every refusal here raises ILLEGAL on the machine (R76). -/

namespace Sys2Proof

/-- Why a word is no syllable, or words are no bundle (R76). -/
inductive DecodeErr where
  | opcode      -- an opcode not in its kind's map
  | reserved    -- a nonzero reserved bit
  | range       -- a field value outside the range its format allows, or a bad guard
  | literal     -- a literal reference past the end of the bundle
  | kindOrder   -- a kind not greater than that of the syllable before
  | tooLong     -- no End within the bundle
  | noBytes     -- too few bytes to hold the bundle
  deriving DecidableEq, Repr

/-- What a decoder answers. -/
abbrev Dec (α : Type) := Except DecodeErr α

/-- Refuse with `e` unless the check holds. -/
def need (e : DecodeErr) (b : Bool) : Dec Unit := if b then .ok () else .error e

/-- A reserved field must be zero (R5). -/
def zeroF (n lo len : Nat) : Dec Unit := need .reserved (fld n lo len == 0)

/-- Take the next literal word (R77). -/
def takeLit : List W32 → Dec (W32 × List W32)
  | [] => .error .literal
  | w :: ls => .ok (w, ls)

/-- A field as a bit vector. -/
def bvf (n lo len : Nat) : BitVec len := BitVec.ofNat len (fld n lo len)
/-- A one-bit field. -/
def boolf (n lo : Nat) : Bool := fld n lo 1 == 1
/-- A 5-bit predicate field; 16 and above are refused (R79). -/
def predf (n lo : Nat) : Dec PReg := do
  need .range (fld n lo 5 < 16)
  return BitVec.ofNat 4 (fld n lo 5)

/-- The head of an S syllable. -/
def sheadOf (n : Nat) : SHead :=
  { last := boolf n 31, neg := boolf n 21, g := bvf n 17 4, sync := boolf n 1, shadow := boolf n 0 }
/-- The head of a V, M or X syllable. -/
def headOf (n : Nat) : Head := { last := boolf n 31, neg := boolf n 21, g := bvf n 17 4 }

/-- A vector source code, with its literal where it takes one (R80). -/
def vsrcOf (c : Nat) (ls : List W32) : Dec (VSrc × List W32) :=
  if c < 16 then .ok (.o (BitVec.ofNat 4 c), ls)
  else if c < 20 then .ok (.l (BitVec.ofNat 2 (c - 16)), ls)
  else if c < 24 then .ok (.pop (BitVec.ofNat 2 (c - 20)), ls)
  else if c < 28 then .ok (.keep (BitVec.ofNat 2 (c - 24)), ls)
  else if c == 28 then .ok (.zero, ls)
  else if c == 29 then .ok (.lane, ls)
  else if c == 30 then do
    let (w, ls) ← takeLit ls
    return (.imm w, ls)
  else do
    let (w, ls) ← takeLit ls
    need .reserved (w.toNat < 32)
    return (.sreg (BitVec.ofNat 5 w.toNat), ls)

/-- A vector destination code (R80). -/
def vdstOf (c : Nat) : Dec VDst :=
  if c < 16 then .ok (.o (BitVec.ofNat 4 c)) else if c == 16 then .ok .last else .error .range

/-- A stored-source code, 0 to 19 (R82, R219). -/
def osrcOf (c : Nat) : Dec OSrc :=
  if c < 16 then .ok (.o (BitVec.ofNat 4 c)) else if c < 20 then .ok (.l (BitVec.ofNat 2 (c - 16))) else .error .range

/-- A conversion control word (R173). -/
def convOf (w : W32) : Dec Conv := do
  let n := w.toNat
  zeroF n 14 18
  return { half := boolf n 13, rnd := bvf n 10 3, toS := boolf n 9, frS := boolf n 8, dst := bvf n 4 4, src := bvf n 0 4 }

/-- A tag literal (R82). -/
def tagOf (w : W32) : Dec Byte := do
  need .reserved (w.toNat < 256)
  return BitVec.ofNat 8 w.toNat

/-- An XT stamp (R83). -/
def stampOf (n : Nat) : Dec Stamp :=
  if boolf n 16 then do
    zeroF n 12 4
    return .abs (bvf n 7 5)
  else .ok (.rel (bvf n 7 9))

/-- Format S0. -/
def decS0 (mk : SHead → Instr) (n : Nat) (ls : List W32) : Dec (Instr × List W32) := do
  zeroF n 2 15
  return (mk (sheadOf n) , ls)

/-- Format SR. -/
def decSR (mk : SHead → Reg → Reg → Reg → Instr) (n : Nat) (ls : List W32) : Dec (Instr × List W32) := do
  return (mk (sheadOf n) (bvf n 12 5) (bvf n 7 5) (bvf n 2 5), ls)

/-- Format SR1. -/
def decSR1 (mk : SHead → Reg → Reg → Instr) (n : Nat) (ls : List W32) : Dec (Instr × List W32) := do
  zeroF n 2 5
  return (mk (sheadOf n) (bvf n 12 5) (bvf n 7 5), ls)

/-- Format SL. -/
def decSL (mk : SHead → Reg → Reg → W32 → Instr) (n : Nat) (ls : List W32) : Dec (Instr × List W32) := do
  zeroF n 2 5
  let (w, ls) ← takeLit ls
  return (mk (sheadOf n) (bvf n 12 5) (bvf n 7 5) w, ls)

/-- Format SLM. -/
def decSLM (mk : SHead → Reg → W32 → Instr) (n : Nat) (ls : List W32) : Dec (Instr × List W32) := do
  zeroF n 2 10
  let (w, ls) ← takeLit ls
  return (mk (sheadOf n) (bvf n 12 5) w, ls)

/-- Format SC. -/
def decSC (mk : SHead → PReg → Reg → Reg → Instr) (n : Nat) (ls : List W32) : Dec (Instr × List W32) := do
  let d ← predf n 12
  return (mk (sheadOf n) d (bvf n 7 5) (bvf n 2 5), ls)

/-- Format SCL. -/
def decSCL (mk : SHead → PReg → Reg → W32 → Instr) (n : Nat) (ls : List W32) : Dec (Instr × List W32) := do
  let d ← predf n 12
  zeroF n 2 5
  let (w, ls) ← takeLit ls
  return (mk (sheadOf n) d (bvf n 7 5) w, ls)

/-- Format SB. -/
def decSB (mk : SHead → BitVec 15 → Instr) (n : Nat) (ls : List W32) : Dec (Instr × List W32) := do
  return (mk (sheadOf n) (bvf n 2 15), ls)

/-- Format SJ. -/
def decSJ (mk : SHead → Reg → Instr) (n : Nat) (ls : List W32) : Dec (Instr × List W32) := do
  zeroF n 12 5
  zeroF n 2 5
  return (mk (sheadOf n) (bvf n 7 5), ls)

/-- Format SLP. -/
def decSLP (mk : SHead → BitVec 2 → Reg → BitVec 8 → Instr) (n : Nat) (ls : List W32) : Dec (Instr × List W32) := do
  return (mk (sheadOf n) (bvf n 15 2) (bvf n 10 5) (bvf n 2 8), ls)

/-- Format SLPL. -/
def decSLPL (mk : SHead → BitVec 2 → BitVec 8 → W32 → Instr) (n : Nat) (ls : List W32) : Dec (Instr × List W32) := do
  zeroF n 10 5
  let (w, ls) ← takeLit ls
  return (mk (sheadOf n) (bvf n 15 2) (bvf n 2 8) w, ls)

/-- Format SW. -/
def decSW (mk : SHead → BitVec 4 → Instr) (n : Nat) (ls : List W32) : Dec (Instr × List W32) := do
  zeroF n 6 11
  return (mk (sheadOf n) (bvf n 2 4), ls)

/-- Format SP3. -/
def decSP3 (mk : SHead → PReg → PReg → PReg → Instr) (n : Nat) (ls : List W32) : Dec (Instr × List W32) := do
  let d ← predf n 12
  let a ← predf n 7
  let b ← predf n 2
  return (mk (sheadOf n) d a b, ls)

/-- Format SP2. -/
def decSP2 (mk : SHead → PReg → PReg → Instr) (n : Nat) (ls : List W32) : Dec (Instr × List W32) := do
  let d ← predf n 12
  let a ← predf n 7
  zeroF n 2 5
  return (mk (sheadOf n) d a, ls)

/-- Format SPC. -/
def decSPC (mk : SHead → Reg → PReg → Instr) (n : Nat) (ls : List W32) : Dec (Instr × List W32) := do
  let a ← predf n 7
  zeroF n 2 5
  return (mk (sheadOf n) (bvf n 12 5) a, ls)

/-- Format SM. -/
def decSM (mk : SHead → Reg → BitVec 10 → Instr) (n : Nat) (ls : List W32) : Dec (Instr × List W32) := do
  return (mk (sheadOf n) (bvf n 12 5) (bvf n 2 10), ls)

/-- Format V3. -/
def decV3 (mk : Head → VDst → VSrc → VSrc → Instr) (n : Nat) (ls : List W32) : Dec (Instr × List W32) := do
  zeroF n 0 2
  let d ← vdstOf (fld n 12 5)
  let (a, ls) ← vsrcOf (fld n 7 5) ls
  let (b, ls) ← vsrcOf (fld n 2 5) ls
  return (mk (headOf n) d a b, ls)

/-- Format V2. -/
def decV2 (mk : Head → VDst → VSrc → Instr) (n : Nat) (ls : List W32) : Dec (Instr × List W32) := do
  zeroF n 0 2
  zeroF n 2 5
  let d ← vdstOf (fld n 12 5)
  let (a, ls) ← vsrcOf (fld n 7 5) ls
  return (mk (headOf n) d a, ls)

/-- Format V3R. -/
def decV3R (mk : Head → VDst → VSrc → VSrc → BitVec 2 → Instr) (n : Nat) (ls : List W32) : Dec (Instr × List W32) := do
  let d ← vdstOf (fld n 12 5)
  let (a, ls) ← vsrcOf (fld n 7 5) ls
  let (b, ls) ← vsrcOf (fld n 2 5) ls
  return (mk (headOf n) d a b (bvf n 0 2), ls)

/-- Format VC. -/
def decVC (mk : Head → PReg → VSrc → VSrc → Instr) (n : Nat) (ls : List W32) : Dec (Instr × List W32) := do
  zeroF n 0 2
  let d ← predf n 12
  let (a, ls) ← vsrcOf (fld n 7 5) ls
  let (b, ls) ← vsrcOf (fld n 2 5) ls
  return (mk (headOf n) d a b, ls)

/-- Format V3S. -/
def decV3S (mk : Head → VDst → VSrc → VSrc → BitVec 2 → Instr) (n : Nat) (ls : List W32) : Dec (Instr × List W32) := do
  let d ← vdstOf (fld n 12 5)
  let (a, ls) ← vsrcOf (fld n 7 5) ls
  let (b, ls) ← vsrcOf (fld n 2 5) ls
  return (mk (headOf n) d a b (bvf n 0 2), ls)

/-- Format V2C. -/
def decV2C (mk : Head → VDst → VSrc → Conv → Instr) (n : Nat) (ls : List W32) : Dec (Instr × List W32) := do
  zeroF n 0 2
  zeroF n 2 5
  let d ← vdstOf (fld n 12 5)
  let (a, ls) ← vsrcOf (fld n 7 5) ls
  let (w, ls) ← takeLit ls
  let cv ← convOf w
  return (mk (headOf n) d a cv, ls)

/-- Format V3C. -/
def decV3C (mk : Head → VDst → VSrc → VSrc → Conv → Instr) (n : Nat) (ls : List W32) : Dec (Instr × List W32) := do
  zeroF n 0 2
  let d ← vdstOf (fld n 12 5)
  let (a, ls) ← vsrcOf (fld n 7 5) ls
  let (b, ls) ← vsrcOf (fld n 2 5) ls
  let (w, ls) ← takeLit ls
  let cv ← convOf w
  return (mk (headOf n) d a b cv, ls)

/-- Format V2T. -/
def decV2T (mk : Head → VDst → VSrc → BitVec 2 → Instr) (n : Nat) (ls : List W32) : Dec (Instr × List W32) := do
  zeroF n 2 5
  let d ← vdstOf (fld n 12 5)
  let (a, ls) ← vsrcOf (fld n 7 5) ls
  return (mk (headOf n) d a (bvf n 0 2), ls)

/-- Format V3T. -/
def decV3T (mk : Head → VDst → VSrc → VSrc → BitVec 2 → Instr) (n : Nat) (ls : List W32) : Dec (Instr × List W32) := do
  let d ← vdstOf (fld n 12 5)
  let (a, ls) ← vsrcOf (fld n 7 5) ls
  let (b, ls) ← vsrcOf (fld n 2 5) ls
  return (mk (headOf n) d a b (bvf n 0 2), ls)

/-- Format V3m0. -/
def decV3m0 (mk : Head → VDst → VSrc → VSrc → Instr) (n : Nat) (ls : List W32) : Dec (Instr × List W32) := do
  let d ← vdstOf (fld n 12 5)
  let (a, ls) ← vsrcOf (fld n 7 5) ls
  let (b, ls) ← vsrcOf (fld n 2 5) ls
  return (mk (headOf n) d a b, ls)

/-- Format V3m1. -/
def decV3m1 (mk : Head → VDst → VSrc → VSrc → Instr) (n : Nat) (ls : List W32) : Dec (Instr × List W32) := do
  let d ← vdstOf (fld n 12 5)
  let (a, ls) ← vsrcOf (fld n 7 5) ls
  let (b, ls) ← vsrcOf (fld n 2 5) ls
  return (mk (headOf n) d a b, ls)

/-- Format VRAND. -/
def decVRAND (mk : Head → VDst → VSrc → VSrc → Bool → BitVec 2 → BitVec 24 → Instr) (n : Nat) (ls : List W32) : Dec (Instr × List W32) := do
  zeroF n 0 2
  let d ← vdstOf (fld n 12 5)
  let (a, ls) ← vsrcOf (fld n 7 5) ls
  let (b, ls) ← vsrcOf (fld n 2 5) ls
  let (w, ls) ← takeLit ls
  zeroF w.toNat 27 5
  return (mk (headOf n) d a b (boolf w.toNat 26) (bvf w.toNat 24 2) (bvf w.toNat 0 24), ls)

/-- Format V2K. -/
def decV2K (mk : Head → VDst → VSrc → BitVec 2 → Instr) (n : Nat) (ls : List W32) : Dec (Instr × List W32) := do
  zeroF n 2 5
  let d ← vdstOf (fld n 12 5)
  let (a, ls) ← vsrcOf (fld n 7 5) ls
  return (mk (headOf n) d a (bvf n 0 2), ls)

/-- Format MQI. -/
def decMQI (mk : Head → BitVec 2 → BitVec 5 → BitVec 2 → BitVec 6 → Instr) (n : Nat) (ls : List W32) : Dec (Instr × List W32) := do
  zeroF n 13 2
  return (mk (headOf n) (bvf n 15 2) (bvf n 8 5) (bvf n 6 2) (bvf n 0 6), ls)

/-- Format MQR. -/
def decMQR (mk : Head → BitVec 2 → BitVec 5 → BitVec 2 → Reg → Instr) (n : Nat) (ls : List W32) : Dec (Instr × List W32) := do
  zeroF n 13 2
  zeroF n 5 1
  return (mk (headOf n) (bvf n 15 2) (bvf n 8 5) (bvf n 6 2) (bvf n 0 5), ls)

/-- Format MPI. -/
def decMPI (mk : Head → BitVec 4 → BitVec 5 → BitVec 2 → BitVec 6 → Instr) (n : Nat) (ls : List W32) : Dec (Instr × List W32) := do
  return (mk (headOf n) (bvf n 13 4) (bvf n 8 5) (bvf n 6 2) (bvf n 0 6), ls)

/-- Format MPR. -/
def decMPR (mk : Head → BitVec 4 → BitVec 5 → BitVec 2 → Reg → Instr) (n : Nat) (ls : List W32) : Dec (Instr × List W32) := do
  zeroF n 5 1
  return (mk (headOf n) (bvf n 13 4) (bvf n 8 5) (bvf n 6 2) (bvf n 0 5), ls)

/-- Format MLI. -/
def decMLI (mk : Head → BitVec 2 → BitVec 5 → BitVec 2 → BitVec 6 → Instr) (n : Nat) (ls : List W32) : Dec (Instr × List W32) := do
  zeroF n 15 2
  return (mk (headOf n) (bvf n 13 2) (bvf n 8 5) (bvf n 6 2) (bvf n 0 6), ls)

/-- Format MLR. -/
def decMLR (mk : Head → BitVec 2 → BitVec 5 → BitVec 2 → Reg → Instr) (n : Nat) (ls : List W32) : Dec (Instr × List W32) := do
  zeroF n 15 2
  zeroF n 5 1
  return (mk (headOf n) (bvf n 13 2) (bvf n 8 5) (bvf n 6 2) (bvf n 0 5), ls)

/-- Format MSD. -/
def decMSD (mk : Head → VDst → Reg → BitVec 7 → Instr) (n : Nat) (ls : List W32) : Dec (Instr × List W32) := do
  let d ← vdstOf (fld n 12 5)
  return (mk (headOf n) d (bvf n 7 5) (bvf n 0 7), ls)

/-- Format MSDT. -/
def decMSDT (mk : Head → VDst → Reg → BitVec 7 → Byte → Instr) (n : Nat) (ls : List W32) : Dec (Instr × List W32) := do
  let d ← vdstOf (fld n 12 5)
  let (w, ls) ← takeLit ls
  let t ← tagOf w
  return (mk (headOf n) d (bvf n 7 5) (bvf n 0 7) t, ls)

/-- Format MSS. -/
def decMSS (mk : Head → OSrc → Reg → BitVec 7 → Instr) (n : Nat) (ls : List W32) : Dec (Instr × List W32) := do
  let o ← osrcOf (fld n 12 5)
  return (mk (headOf n) o (bvf n 7 5) (bvf n 0 7), ls)

/-- Format MSST. -/
def decMSST (mk : Head → OSrc → Reg → BitVec 7 → Byte → Instr) (n : Nat) (ls : List W32) : Dec (Instr × List W32) := do
  let o ← osrcOf (fld n 12 5)
  let (w, ls) ← takeLit ls
  let t ← tagOf w
  return (mk (headOf n) o (bvf n 7 5) (bvf n 0 7) t, ls)

/-- Format MSX. -/
def decMSX (mk : Head → Reg → Reg → BitVec 7 → Instr) (n : Nat) (ls : List W32) : Dec (Instr × List W32) := do
  return (mk (headOf n) (bvf n 12 5) (bvf n 7 5) (bvf n 0 7), ls)

/-- Format MSXT. -/
def decMSXT (mk : Head → Reg → Reg → BitVec 7 → Byte → Instr) (n : Nat) (ls : List W32) : Dec (Instr × List W32) := do
  let (w, ls) ← takeLit ls
  let t ← tagOf w
  return (mk (headOf n) (bvf n 12 5) (bvf n 7 5) (bvf n 0 7) t, ls)

/-- Format MR. -/
def decMR (mk : Head → Reg → Reg → Reg → BitVec 2 → Instr) (n : Nat) (ls : List W32) : Dec (Instr × List W32) := do
  return (mk (headOf n) (bvf n 12 5) (bvf n 7 5) (bvf n 2 5) (bvf n 0 2), ls)

/-- Format M0. -/
def decM0 (mk : Head → Instr) (n : Nat) (ls : List W32) : Dec (Instr × List W32) := do
  zeroF n 0 17
  return (mk (headOf n) , ls)

/-- Format MN. -/
def decMN (mk : Head → BitVec 5 → Instr) (n : Nat) (ls : List W32) : Dec (Instr × List W32) := do
  zeroF n 5 12
  return (mk (headOf n) (bvf n 0 5), ls)

/-- Format MRda. -/
def decMRda (mk : Head → Reg → Reg → BitVec 2 → Instr) (n : Nat) (ls : List W32) : Dec (Instr × List W32) := do
  zeroF n 2 5
  return (mk (headOf n) (bvf n 12 5) (bvf n 7 5) (bvf n 0 2), ls)

/-- Format MRab. -/
def decMRab (mk : Head → Reg → Reg → BitVec 2 → Instr) (n : Nat) (ls : List W32) : Dec (Instr × List W32) := do
  zeroF n 12 5
  return (mk (headOf n) (bvf n 7 5) (bvf n 2 5) (bvf n 0 2), ls)

/-- Format MFW. -/
def decMFW (mk : Head → Reg → Reg → Reg → BitVec 2 → BitVec 2 → Instr) (n : Nat) (ls : List W32) : Dec (Instr × List W32) := do
  zeroF n 0 2
  let (w, ls) ← takeLit ls
  zeroF w.toNat 4 28
  return (mk (headOf n) (bvf n 12 5) (bvf n 7 5) (bvf n 2 5) (bvf w.toNat 2 2) (bvf w.toNat 0 2), ls)

/-- Format MIp. -/
def decMIp (mk : Head → Reg → Reg → Instr) (n : Nat) (ls : List W32) : Dec (Instr × List W32) := do
  zeroF n 12 5
  need .range (fld n 0 2 == 2)
  return (mk (headOf n) (bvf n 7 5) (bvf n 2 5), ls)

/-- Format MIl. -/
def decMIl (mk : Head → Reg → Reg → BitVec 2 → Instr) (n : Nat) (ls : List W32) : Dec (Instr × List W32) := do
  zeroF n 12 5
  return (mk (headOf n) (bvf n 7 5) (bvf n 2 5) (bvf n 0 2), ls)

/-- Format MId. -/
def decMId (mk : Head → Reg → Reg → Reg → BitVec 2 → Instr) (n : Nat) (ls : List W32) : Dec (Instr × List W32) := do
  return (mk (headOf n) (bvf n 12 5) (bvf n 7 5) (bvf n 2 5) (bvf n 0 2), ls)

/-- Format MIu. -/
def decMIu (mk : Head → Reg → Reg → BitVec 2 → Instr) (n : Nat) (ls : List W32) : Dec (Instr × List W32) := do
  zeroF n 12 5
  return (mk (headOf n) (bvf n 7 5) (bvf n 2 5) (bvf n 0 2), ls)

/-- Format MIc. -/
def decMIc (mk : Head → Reg → Reg → Instr) (n : Nat) (ls : List W32) : Dec (Instr × List W32) := do
  zeroF n 12 5
  zeroF n 0 2
  return (mk (headOf n) (bvf n 7 5) (bvf n 2 5), ls)

/-- Format MPK. -/
def decMPK (mk : Head → OSrc → Reg → Reg → Instr) (n : Nat) (ls : List W32) : Dec (Instr × List W32) := do
  zeroF n 0 2
  let o ← osrcOf (fld n 12 5)
  return (mk (headOf n) o (bvf n 7 5) (bvf n 2 5), ls)

/-- Format MUP. -/
def decMUP (mk : Head → VDst → Reg → Reg → Instr) (n : Nat) (ls : List W32) : Dec (Instr × List W32) := do
  zeroF n 0 2
  let d ← vdstOf (fld n 12 5)
  return (mk (headOf n) d (bvf n 7 5) (bvf n 2 5), ls)

/-- Format XMCFG. -/
def decXMCFG (mk : Head → Stamp → Reg → BitVec 11 → BitVec 2 → Instr) (n : Nat) (ls : List W32) : Dec (Instr × List W32) := do
  zeroF n 0 2
  let s ← stampOf n
  let (w, ls) ← takeLit ls
  zeroF w.toNat 13 19
  return (mk (headOf n) s (bvf n 2 5) (bvf w.toNat 2 11) (bvf w.toNat 0 2), ls)

/-- Format XMGO. -/
def decXMGO (mk : Head → Stamp → Bool → Bool → Byte → Byte → Instr) (n : Nat) (ls : List W32) : Dec (Instr × List W32) := do
  zeroF n 0 2
  let s ← stampOf n
  zeroF n 2 5
  let (w, ls) ← takeLit ls
  zeroF w.toNat 18 14
  return (mk (headOf n) s (boolf w.toNat 17) (boolf w.toNat 16) (bvf w.toNat 8 8) (bvf w.toNat 0 8), ls)

/-- Format XT0. -/
def decXT0 (mk : Head → Stamp → Instr) (n : Nat) (ls : List W32) : Dec (Instr × List W32) := do
  zeroF n 0 2
  let s ← stampOf n
  zeroF n 2 5
  let (w, ls) ← takeLit ls
  zeroF w.toNat 0 32
  return (mk (headOf n) s, ls)

/-- Format XMBASE. -/
def decXMBASE (mk : Head → Stamp → Reg → BitVec 3 → Instr) (n : Nat) (ls : List W32) : Dec (Instr × List W32) := do
  zeroF n 0 2
  let s ← stampOf n
  let (w, ls) ← takeLit ls
  zeroF w.toNat 3 29
  return (mk (headOf n) s (bvf n 2 5) (bvf w.toNat 0 3), ls)

/-- Format XCFGLD. -/
def decXCFGLD (mk : Head → Stamp → Reg → Bool → Byte → Byte → Byte → BitVec 2 → Instr) (n : Nat) (ls : List W32) : Dec (Instr × List W32) := do
  zeroF n 0 2
  let s ← stampOf n
  let (w, ls) ← takeLit ls
  zeroF w.toNat 27 5
  return (mk (headOf n) s (bvf n 2 5) (boolf w.toNat 26) (bvf w.toNat 18 8) (bvf w.toNat 10 8) (bvf w.toNat 2 8) (bvf w.toNat 0 2), ls)

/-- Format XCFGSWAP. -/
def decXCFGSWAP (mk : Head → Stamp → BitVec 2 → Instr) (n : Nat) (ls : List W32) : Dec (Instr × List W32) := do
  zeroF n 0 2
  let s ← stampOf n
  zeroF n 2 5
  let (w, ls) ← takeLit ls
  zeroF w.toNat 2 30
  return (mk (headOf n) s (bvf w.toNat 0 2), ls)

/-- Format XMFMT. -/
def decXMFMT (mk : Head → Stamp → Reg → BitVec 4 → Instr) (n : Nat) (ls : List W32) : Dec (Instr × List W32) := do
  zeroF n 0 2
  let s ← stampOf n
  let (w, ls) ← takeLit ls
  zeroF w.toNat 4 28
  return (mk (headOf n) s (bvf n 2 5) (bvf w.toNat 0 4), ls)

/-- Format XACZERO. -/
def decXACZERO (mk : Head → Stamp → BitVec 6 → BitVec 6 → BitVec 5 → Instr) (n : Nat) (ls : List W32) : Dec (Instr × List W32) := do
  zeroF n 0 2
  let s ← stampOf n
  zeroF n 2 5
  let (w, ls) ← takeLit ls
  zeroF w.toNat 17 15
  return (mk (headOf n) s (bvf w.toNat 11 6) (bvf w.toNat 5 6) (bvf w.toNat 0 5), ls)

/-- Format XACALLOC. -/
def decXACALLOC (mk : Head → Reg → Reg → Bool → Bool → Instr) (n : Nat) (ls : List W32) : Dec (Instr × List W32) := do
  zeroF n 2 5
  return (mk (headOf n) (bvf n 12 5) (bvf n 7 5) (boolf n 1) (boolf n 0), ls)

/-- Format XA. -/
def decXA (mk : Head → Reg → Instr) (n : Nat) (ls : List W32) : Dec (Instr × List W32) := do
  zeroF n 12 5
  zeroF n 0 7
  return (mk (headOf n) (bvf n 7 5), ls)

/-- Format XAB. -/
def decXAB (mk : Head → Reg → Reg → Instr) (n : Nat) (ls : List W32) : Dec (Instr × List W32) := do
  zeroF n 12 5
  zeroF n 0 2
  return (mk (headOf n) (bvf n 7 5) (bvf n 2 5), ls)

/-- Format XACLD. -/
def decXACLD (mk : Head → VDst → Reg → Reg → Conv → Instr) (n : Nat) (ls : List W32) : Dec (Instr × List W32) := do
  zeroF n 0 2
  let d ← vdstOf (fld n 12 5)
  let (w, ls) ← takeLit ls
  let cv ← convOf w
  return (mk (headOf n) d (bvf n 7 5) (bvf n 2 5) cv, ls)

/-- Format XXCOPY. -/
def decXXCOPY (mk : Head → Stamp → Reg → BitVec 2 → Bool → Byte → Bool → Byte → BitVec 5 → BitVec 5 → Instr) (n : Nat) (ls : List W32) : Dec (Instr × List W32) := do
  zeroF n 0 2
  let s ← stampOf n
  let (w, ls) ← takeLit ls
  zeroF w.toNat 10 2
  return (mk (headOf n) s (bvf n 2 5) (bvf w.toNat 30 2) (boolf w.toNat 29) (bvf w.toNat 21 8) (boolf w.toNat 20) (bvf w.toNat 12 8) (bvf w.toNat 5 5) (bvf w.toNat 0 5), ls)

/-- Format XTSLD. -/
def decXTSLD (mk : Head → Stamp → Reg → BitVec 5 → Instr) (n : Nat) (ls : List W32) : Dec (Instr × List W32) := do
  zeroF n 0 2
  let s ← stampOf n
  let (w, ls) ← takeLit ls
  zeroF w.toNat 5 27
  return (mk (headOf n) s (bvf n 2 5) (bvf w.toNat 0 5), ls)

/-- Format XTSEV. -/
def decXTSEV (mk : Head → Stamp → BitVec 5 → Instr) (n : Nat) (ls : List W32) : Dec (Instr × List W32) := do
  zeroF n 0 2
  let s ← stampOf n
  zeroF n 2 5
  let (w, ls) ← takeLit ls
  zeroF w.toNat 5 27
  return (mk (headOf n) s (bvf w.toNat 0 5), ls)

/-- Format XTLOAD. -/
def decXTLOAD (mk : Head → Stamp → Reg → Bool → Byte → BitVec 2 → Instr) (n : Nat) (ls : List W32) : Dec (Instr × List W32) := do
  zeroF n 0 2
  let s ← stampOf n
  let (w, ls) ← takeLit ls
  zeroF w.toNat 11 21
  return (mk (headOf n) s (bvf n 2 5) (boolf w.toNat 10) (bvf w.toNat 2 8) (bvf w.toNat 0 2), ls)

/-- Format XRLOAD. -/
def decXRLOAD (mk : Head → Stamp → Reg → Bool → Byte → Instr) (n : Nat) (ls : List W32) : Dec (Instr × List W32) := do
  zeroF n 0 2
  let s ← stampOf n
  let (w, ls) ← takeLit ls
  zeroF w.toNat 9 23
  return (mk (headOf n) s (bvf n 2 5) (boolf w.toNat 8) (bvf w.toNat 0 8), ls)

/-- Format XRSTEP. -/
def decXRSTEP (mk : Head → Stamp → Reg → BitVec 6 → Bool → BitVec 2 → BitVec 5 → BitVec 5 → Instr) (n : Nat) (ls : List W32) : Dec (Instr × List W32) := do
  zeroF n 0 2
  let s ← stampOf n
  let (w, ls) ← takeLit ls
  zeroF w.toNat 19 13
  return (mk (headOf n) s (bvf n 2 5) (bvf w.toNat 13 6) (boolf w.toNat 12) (bvf w.toNat 10 2) (bvf w.toNat 5 5) (bvf w.toNat 0 5), ls)

/-- Format XAm0. -/
def decXAm0 (mk : Head → Reg → Instr) (n : Nat) (ls : List W32) : Dec (Instr × List W32) := do
  zeroF n 12 5
  zeroF n 2 5
  return (mk (headOf n) (bvf n 7 5), ls)

/-- Format XAm1. -/
def decXAm1 (mk : Head → Reg → Instr) (n : Nat) (ls : List W32) : Dec (Instr × List W32) := do
  zeroF n 12 5
  zeroF n 2 5
  return (mk (headOf n) (bvf n 7 5), ls)

/-- Format XABm0. -/
def decXABm0 (mk : Head → Reg → Reg → Instr) (n : Nat) (ls : List W32) : Dec (Instr × List W32) := do
  zeroF n 12 5
  return (mk (headOf n) (bvf n 7 5) (bvf n 2 5), ls)

/-- Format X0m1. -/
def decX0m1 (mk : Head → Instr) (n : Nat) (ls : List W32) : Dec (Instr × List W32) := do
  zeroF n 2 15
  return (mk (headOf n) , ls)

/-- Format XNa. -/
def decXNa (mk : Head → BitVec 5 → Instr) (n : Nat) (ls : List W32) : Dec (Instr × List W32) := do
  zeroF n 7 10
  zeroF n 0 2
  return (mk (headOf n) (bvf n 2 5), ls)

/-- Format X0. -/
def decX0 (mk : Head → Instr) (n : Nat) (ls : List W32) : Dec (Instr × List W32) := do
  zeroF n 0 17
  return (mk (headOf n) , ls)

/-- Format XDA. -/
def decXDA (mk : Head → Reg → Reg → Instr) (n : Nat) (ls : List W32) : Dec (Instr × List W32) := do
  zeroF n 0 7
  return (mk (headOf n) (bvf n 12 5) (bvf n 7 5), ls)

/-- Format XDAB. -/
def decXDAB (mk : Head → Reg → Reg → Reg → Instr) (n : Nat) (ls : List W32) : Dec (Instr × List W32) := do
  zeroF n 0 2
  return (mk (headOf n) (bvf n 12 5) (bvf n 7 5) (bvf n 2 5), ls)

/-- Format XTRAP. -/
def decXTRAP (mk : Head → Reg → BitVec 5 → Instr) (n : Nat) (ls : List W32) : Dec (Instr × List W32) := do
  zeroF n 12 5
  zeroF n 0 2
  return (mk (headOf n) (bvf n 7 5) (bvf n 2 5), ls)

/-- Format XNs. -/
def decXNs (mk : Head → BitVec 5 → Instr) (n : Nat) (ls : List W32) : Dec (Instr × List W32) := do
  zeroF n 7 10
  zeroF n 0 2
  return (mk (headOf n) (bvf n 2 5), ls)

/-- The opcode map of kind S (R84). -/
def decS (op n : Nat) (ls : List W32) : Dec (Instr × List W32) :=
  match op with
  | 0x00 => decS0 .nop n ls
  | 0x01 => decS0 .halt n ls
  | 0x02 => decSR .add n ls
  | 0x03 => decSR .sub n ls
  | 0x04 => decSR .and n ls
  | 0x05 => decSR .or n ls
  | 0x06 => decSR .xor n ls
  | 0x07 => decSR .andn n ls
  | 0x08 => decSR .shl n ls
  | 0x09 => decSR .shr n ls
  | 0x0a => decSR .sar n ls
  | 0x0b => decSR .rotl n ls
  | 0x0c => decSR .mul n ls
  | 0x0d => decSR .mulhI n ls
  | 0x0e => decSR .mulhN n ls
  | 0x0f => decSR .divI n ls
  | 0x10 => decSR .divN n ls
  | 0x11 => decSR .modI n ls
  | 0x12 => decSR .modN n ls
  | 0x13 => decSR .minI n ls
  | 0x14 => decSR .minN n ls
  | 0x15 => decSR .maxI n ls
  | 0x16 => decSR .maxN n ls
  | 0x17 => decSR .sel n ls
  | 0x18 => decSR1 .clz n ls
  | 0x19 => decSR1 .popc n ls
  | 0x1a => decSR .bfx n ls
  | 0x1b => decSR .bfi n ls
  | 0x1c => decSR .lea n ls
  | 0x1d => decSR1 .mov n ls
  | 0x20 => decSL .addl n ls
  | 0x21 => decSL .subl n ls
  | 0x22 => decSL .andl n ls
  | 0x23 => decSL .orl n ls
  | 0x24 => decSL .xorl n ls
  | 0x25 => decSL .andnl n ls
  | 0x26 => decSL .shll n ls
  | 0x27 => decSL .shrl n ls
  | 0x28 => decSL .sarl n ls
  | 0x29 => decSL .rotll n ls
  | 0x2a => decSL .mull n ls
  | 0x2b => decSL .minlI n ls
  | 0x2c => decSL .minlN n ls
  | 0x2d => decSL .maxlI n ls
  | 0x2e => decSL .maxlN n ls
  | 0x2f => decSLM .movl n ls
  | 0x30 => decSL .leal n ls
  | 0x38 => decSC .cmpEq n ls
  | 0x39 => decSC .cmpNe n ls
  | 0x3a => decSC .cmpLtI n ls
  | 0x3b => decSC .cmpGeI n ls
  | 0x3c => decSC .cmpLtN n ls
  | 0x3d => decSC .cmpGeN n ls
  | 0x40 => decSCL .cmplEq n ls
  | 0x41 => decSCL .cmplNe n ls
  | 0x42 => decSCL .cmplLtI n ls
  | 0x43 => decSCL .cmplGeI n ls
  | 0x44 => decSCL .cmplLtN n ls
  | 0x45 => decSCL .cmplGeN n ls
  | 0x50 => decSB .br n ls
  | 0x51 => decSB .call n ls
  | 0x52 => decSJ .jmp n ls
  | 0x53 => decS0 .ret n ls
  | 0x54 => decSLP .loop n ls
  | 0x55 => decSLPL .loopl n ls
  | 0x56 => decSW .cwait n ls
  | 0x60 => decSP3 .pand n ls
  | 0x61 => decSP3 .por n ls
  | 0x62 => decSP3 .pxor n ls
  | 0x63 => decSP2 .pnot n ls
  | 0x64 => decSP2 .pfirst n ls
  | 0x65 => decSPC .pcount n ls
  | 0x66 => decSP2 .pany n ls
  | 0x67 => decSP2 .pall n ls
  | 0x70 => decSM .mfs n ls
  | 0x71 => decSM .mts n ls
  | _ => .error .opcode

/-- The opcode map of kind V (R85). -/
def decV (op n : Nat) (ls : List W32) : Dec (Instr × List W32) :=
  match op with
  | 0x00 => decV3 .vadd n ls
  | 0x01 => decV3 .vsub n ls
  | 0x02 => decV3 .vmul n ls
  | 0x03 => decV3 .vmulhI n ls
  | 0x04 => decV3 .vmulhN n ls
  | 0x05 => decV3 .vminI n ls
  | 0x06 => decV3 .vminN n ls
  | 0x07 => decV3 .vmaxI n ls
  | 0x08 => decV3 .vmaxN n ls
  | 0x09 => decV3 .vand n ls
  | 0x0a => decV3 .vor n ls
  | 0x0b => decV3 .vxor n ls
  | 0x0c => decV3 .vshl n ls
  | 0x0d => decV3 .vshr n ls
  | 0x0e => decV3 .vsar n ls
  | 0x0f => decV3 .vaddsI n ls
  | 0x10 => decV3 .vaddsN n ls
  | 0x11 => decV3 .vsubsI n ls
  | 0x12 => decV3 .vsubsN n ls
  | 0x13 => decV2 .vabs n ls
  | 0x18 => decV3R .vfadd n ls
  | 0x19 => decV3R .vfsub n ls
  | 0x1a => decV3R .vfmul n ls
  | 0x1b => decV3R .vfma n ls
  | 0x1c => decV3 .vfmin n ls
  | 0x1d => decV3 .vfmax n ls
  | 0x1e => decV2 .vfabs n ls
  | 0x1f => decV2 .vfneg n ls
  | 0x20 => decV2 .vmov n ls
  | 0x21 => decV3 .vsel n ls
  | 0x28 => decVC .vcmpEq n ls
  | 0x29 => decVC .vcmpNe n ls
  | 0x2a => decVC .vcmpLtI n ls
  | 0x2b => decVC .vcmpGeI n ls
  | 0x2c => decVC .vcmpLtN n ls
  | 0x2d => decVC .vcmpGeN n ls
  | 0x2e => decVC .vfcmpEq n ls
  | 0x2f => decVC .vfcmpLt n ls
  | 0x30 => decVC .vfcmpLe n ls
  | 0x31 => decVC .vfcmpUn n ls
  | 0x38 => decV3S .vdot4 n ls
  | 0x39 => decV3R .vscaleb n ls
  | 0x40 => decV2C .vcvt n ls
  | 0x41 => decV2 .vcvtt n ls
  | 0x42 => decV3C .vpack n ls
  | 0x43 => decV2C .vunpk n ls
  | 0x48 => decV2T .vrsum n ls
  | 0x49 => decV2T .vrmax n ls
  | 0x4a => decV2T .vrmin n ls
  | 0x4b => decV2T .vscan n ls
  | 0x4c => decV3T .vsort n ls
  | 0x50 => decV3 .vshuf n ls
  | 0x51 => match fld n 0 2 with
    | 0 => decV3m0 .vrot n ls
    | 1 => decV3m1 .vrotZf n ls
    | _ => .error .range
  | 0x52 => decV3 .vbcast n ls
  | 0x58 => decVRAND .vrand n ls
  | 0x59 => decV2K .teval n ls
  | _ => .error .opcode

/-- The opcode map of kind M (R86). -/
def decM (op n : Nat) (ls : List W32) : Dec (Instr × List W32) :=
  match op with
  | 0x00 => decMQI .drawImmediate n ls
  | 0x01 => decMQR .drawRegister n ls
  | 0x02 => decMPI .putOperandImmediate n ls
  | 0x03 => decMPR .putOperandRegister n ls
  | 0x04 => decMLI .putLastResultImmediate n ls
  | 0x05 => decMLR .putLastResultRegister n ls
  | 0x08 => decMSD .sld n ls
  | 0x09 => decMSDT .sldTagged n ls
  | 0x0a => decMSS .sst n ls
  | 0x0b => decMSST .sstTagged n ls
  | 0x0c => decMSX .slds n ls
  | 0x0d => decMSXT .sldsTagged n ls
  | 0x0e => decMSX .ssts n ls
  | 0x0f => decMSXT .sstsTagged n ls
  | 0x10 => decMR .ld n ls
  | 0x11 => decMR .st n ls
  | 0x12 => decMR .ecopy n ls
  | 0x18 => decM0 .mark n ls
  | 0x19 => decMN .lqwait n ls
  | 0x1a => decMN .sqwait n ls
  | 0x1b => decMN .fence n ls
  | 0x20 => decMR .aadd n ls
  | 0x21 => decMR .aminI n ls
  | 0x22 => decMR .aminN n ls
  | 0x23 => decMR .amaxI n ls
  | 0x24 => decMR .amaxN n ls
  | 0x25 => decMR .aand n ls
  | 0x26 => decMR .aor n ls
  | 0x27 => decMR .axor n ls
  | 0x28 => decMR .axchg n ls
  | 0x29 => decMR .acas n ls
  | 0x2a => decMR .afadd n ls
  | 0x30 => decMRda .bara n ls
  | 0x31 => decMRab .barw n ls
  | 0x32 => decMFW .flagw n ls
  | 0x38 => decMIp .pref n ls
  | 0x39 => decMIl .ipref n ls
  | 0x3a => decMId .ipin n ls
  | 0x3b => decMIu .iunpin n ls
  | 0x3c => decMIc .icinv n ls
  | 0x40 => decMPK .park n ls
  | 0x41 => decMUP .unpark n ls
  | _ => .error .opcode

/-- The opcode map of kind X (R87). -/
def decX (op n : Nat) (ls : List W32) : Dec (Instr × List W32) :=
  match op with
  | 0x00 => decXMCFG .mcfg n ls
  | 0x01 => decXMGO .mgo n ls
  | 0x02 => decXT0 .mstop n ls
  | 0x03 => decXMBASE .mbase n ls
  | 0x04 => decXCFGLD .cfgld n ls
  | 0x05 => decXCFGSWAP .cfgswap n ls
  | 0x06 => decXMFMT .mfmt n ls
  | 0x07 => decXACZERO .aczero n ls
  | 0x08 => decXACALLOC .acalloc n ls
  | 0x09 => decXA .acfree n ls
  | 0x0a => decXAB .acown n ls
  | 0x0b => decXACLD .acld n ls
  | 0x10 => decXXCOPY .xcopy n ls
  | 0x11 => decXTSLD .tsld n ls
  | 0x12 => decXTSEV .tsev n ls
  | 0x18 => decXTLOAD .tload n ls
  | 0x1c => decXRLOAD .rload n ls
  | 0x1d => decXRSTEP .rstep n ls
  | 0x20 => match fld n 0 2 with
    | 0 => decXAm0 .waitb n ls
    | 1 => decXAm1 .waitbUntil n ls
    | _ => .error .range
  | 0x21 => match fld n 0 2 with
    | 0 => decXABm0 .deadline n ls
    | 1 => decX0m1 .deadlineClr n ls
    | _ => .error .range
  | 0x22 => decXNa .acqp n ls
  | 0x23 => decX0 .relp n ls
  | 0x24 => decXDA .molt n ls
  | 0x25 => decXDAB .enq n ls
  | 0x30 => decXTRAP .trap n ls
  | 0x31 => decX0 .tret n ls
  | 0x32 => decXNs .tretSkip n ls
  | _ => .error .opcode

/-- The syllable a word stands for, with the literals it draws from those that follow (R75, R77, R84 to R88). -/
def decodeSyl (w : W32) (ls : List W32) : Dec (Instr × List W32) := do
  let n := w.toNat
  let op := fld n 22 7
  let r ← match fld n 29 2 with
    | 0 => decS op n ls
    | 1 => decV op n ls
    | 2 => decM op n ls
    | _ => decX op n ls
  need .range r.1.wf
  return r

/-- Split a bundle's words into its syllable words and what follows them: at most `fuel` syllables, kinds strictly
rising from `k`, the last with End set (R76). -/
def splitSyl : Nat → Nat → List W32 → Dec (List W32 × List W32)
  | 0, _, _ => .error .kindOrder
  | _, _, [] => .error .tooLong
  | fuel + 1, k, w :: ws =>
    if fld w.toNat 29 2 < k then .error .kindOrder
    else if boolf w.toNat 31 then .ok ([w], ws)
    else do
      let (ss, rest) ← splitSyl fuel (fld w.toNat 29 2 + 1) ws
      return (w :: ss, rest)

/-- Decode syllables in kind order, each drawing its literals from what the ones before it left (R77). -/
def decodeAll : List W32 → List W32 → Dec (List Instr × List W32)
  | [], ls => .ok ([], ls)
  | w :: ws, ls => do
    let (i, ls) ← decodeSyl w ls
    let (is, ls) ← decodeAll ws ls
    return (i :: is, ls)

/-- A bundle as decoded: its syllables in kind order and its length in words (R76). -/
structure Bundle where
  syls : List Instr
  len  : Nat
  deriving DecidableEq, Repr

/-- The literal words a syllable word refers to, by its opcode and source codes, whether or not its fields are in range (R77,
R80, R84 to R87). An opcode of no map refers to none (DEDUCED, log 10). -/
def wordRefs (w : W32) : Nat :=
  let n := w.toNat
  let op := fld n 22 7
  let within (xs : List (Nat × Nat)) : Bool := xs.any fun x => x.1 ≤ op && op ≤ x.2
  let source (lo : Nat) : Nat := if 30 ≤ fld n lo 5 then 1 else 0
  let own (b : Bool) : Nat := if b then 1 else 0
  match fld n 29 2 with
  | 0 => own (within [(0x20, 0x30), (0x40, 0x45), (0x55, 0x55)])
  | 1 =>
    let two := within [(0, 0x12), (0x18, 0x1D), (0x21, 0x21), (0x28, 0x31), (0x38, 0x39), (0x42, 0x42), (0x4C, 0x4C), (0x50, 0x52), (0x58, 0x58)]
    let one := within [(0x13, 0x13), (0x1E, 0x20), (0x40, 0x41), (0x43, 0x43), (0x48, 0x4B), (0x59, 0x59)]
    (if two || one then source 7 else 0) + (if two then source 2 else 0) + own (within [(0x40, 0x40), (0x42, 0x43), (0x58, 0x58)])
  | 2 => own (within [(0x09, 0x09), (0x0B, 0x0B), (0x0D, 0x0D), (0x0F, 0x0F), (0x32, 0x32)])
  | _ => own (within [(0x00, 0x07), (0x0B, 0x0B), (0x10, 0x12), (0x18, 0x18), (0x1C, 0x1D)])

/-- The syllable words of a bundle, up to the first with End set: none where there is none among `fuel` (R76). -/
def framedSyls : Nat → List W32 → Option (List W32)
  | 0, _ => none
  | _, [] => none
  | fuel + 1, w :: ws => if boolf w.toNat 31 then some [w] else (framedSyls fuel ws).map fun r => w :: r

/-- The length in words that the words of a bundle show, where its fields need not be right: its syllables and the literals they
refer to, at most eight words together (R76, R77). -/
def framedLen (ws : List W32) : Option Nat :=
  match framedSyls 4 ws with
  | none => none
  | some hs =>
    let n := hs.length + (hs.map wordRefs).sum
    if 8 < n then none else some n

/-- The Shadow and Sync flags that the first word of a bundle shows: bits 0 and 1 of an S syllable (R75, R79). -/
def wordFlags (w : W32) : Bool × Bool := if fld w.toNat 29 2 == 0 then (boolf w.toNat 0, boolf w.toNat 1) else (false, false)

/-- The bundle at the head of the words, of which at most eight belong to it (R76). -/
def decodeBundle (ws : List W32) : Dec Bundle := do
  let ws := ws.take 8
  let (ss, lits) ← splitSyl 4 0 ws
  let (is, rest) ← decodeAll ss lits
  return { syls := is, len := ws.length - rest.length }

/-- The bundle at the head of a byte string, low byte first (R1, R76). -/
def decodeBytes (bs : List Byte) : Dec Bundle := decodeBundle (wordsOf bs)

/-- The instruction the decoder reads from an instruction whose bits are `w`, bit 0 the lowest bit of its first word and
later words above it; every bit at or above `nbits` is zero. -/
def decodeTableWord (nbits w : Nat) : Option Instr :=
  match wordsOf (bytesOf 32 (w % 2 ^ nbits)) with
  | [] => none
  | x :: ls => match decodeSyl x ls with
    | .ok r => some r.1
    | .error _ => none

/-! The encoder. -/

/-- The head bits of a syllable of `kind` and opcode `op` (R75). -/
def headBits (kind op : Nat) (last neg : Bool) (g : PReg) : Nat :=
  bnat last * 2 ^ 31 + kind * 2 ^ 29 + op * 2 ^ 22 + bnat neg * 2 ^ 21 + g.toNat * 2 ^ 17

/-- An S syllable with operand bits 16:2 `x` (R79). -/
def encS (op : Nat) (h : SHead) (x : Nat) : W32 :=
  BitVec.ofNat 32 (headBits 0 op h.last h.neg h.g + x * 4 + bnat h.sync * 2 + bnat h.shadow)
/-- A V, M or X syllable with operand bits 16:0 `x` (R80, R82, R83). -/
def encK (kind op : Nat) (h : Head) (x : Nat) : W32 := BitVec.ofNat 32 (headBits kind op h.last h.neg h.g + x)

/-- The code of a vector source (R80). -/
def VSrc.code : VSrc → Nat
  | .o n => n.toNat
  | .l n => 16 + n.toNat
  | .pop n => 20 + n.toNat
  | .keep n => 24 + n.toNat
  | .zero => 28
  | .lane => 29
  | .imm _ => 30
  | .sreg _ => 31
/-- The literal of a vector source (R80). -/
def VSrc.lits : VSrc → List W32
  | .imm w => [w]
  | .sreg r => [BitVec.ofNat 32 r.toNat]
  | _ => []
/-- The code of a vector destination (R80). -/
def VDst.code : VDst → Nat
  | .o n => n.toNat
  | .last => 16
/-- The code of a stored source (R82). -/
def OSrc.code : OSrc → Nat
  | .o n => n.toNat
  | .l n => 16 + n.toNat
/-- The stamp bits 16:7 of an XT syllable, in place (R83). -/
def Stamp.bits : Stamp → Nat
  | .rel n => n.toNat * 128
  | .abs r => 65536 + r.toNat * 128
/-- A conversion control word (R173). -/
def Conv.word (c : Conv) : W32 :=
  BitVec.ofNat 32 (bnat c.half * 8192 + c.rnd.toNat * 1024 + bnat c.toS * 512 + bnat c.frS * 256 + c.dst.toNat * 16 + c.src.toNat)
/-- A tag literal (R82). -/
def tagWord (t : Byte) : W32 := BitVec.ofNat 32 t.toNat

/-- The words of a syllable: its own word, then its literals (R75 to R83). Steps and events have no words. -/
def encode : Instr → List W32
  | .nop h => [encS 0x00 h 0]
  | .halt h => [encS 0x01 h 0]
  | .add h d a b => [encS 0x02 h (d.toNat * 1024 + a.toNat * 32 + b.toNat)]
  | .sub h d a b => [encS 0x03 h (d.toNat * 1024 + a.toNat * 32 + b.toNat)]
  | .and h d a b => [encS 0x04 h (d.toNat * 1024 + a.toNat * 32 + b.toNat)]
  | .or h d a b => [encS 0x05 h (d.toNat * 1024 + a.toNat * 32 + b.toNat)]
  | .xor h d a b => [encS 0x06 h (d.toNat * 1024 + a.toNat * 32 + b.toNat)]
  | .andn h d a b => [encS 0x07 h (d.toNat * 1024 + a.toNat * 32 + b.toNat)]
  | .shl h d a b => [encS 0x08 h (d.toNat * 1024 + a.toNat * 32 + b.toNat)]
  | .shr h d a b => [encS 0x09 h (d.toNat * 1024 + a.toNat * 32 + b.toNat)]
  | .sar h d a b => [encS 0x0a h (d.toNat * 1024 + a.toNat * 32 + b.toNat)]
  | .rotl h d a b => [encS 0x0b h (d.toNat * 1024 + a.toNat * 32 + b.toNat)]
  | .mul h d a b => [encS 0x0c h (d.toNat * 1024 + a.toNat * 32 + b.toNat)]
  | .mulhI h d a b => [encS 0x0d h (d.toNat * 1024 + a.toNat * 32 + b.toNat)]
  | .mulhN h d a b => [encS 0x0e h (d.toNat * 1024 + a.toNat * 32 + b.toNat)]
  | .divI h d a b => [encS 0x0f h (d.toNat * 1024 + a.toNat * 32 + b.toNat)]
  | .divN h d a b => [encS 0x10 h (d.toNat * 1024 + a.toNat * 32 + b.toNat)]
  | .modI h d a b => [encS 0x11 h (d.toNat * 1024 + a.toNat * 32 + b.toNat)]
  | .modN h d a b => [encS 0x12 h (d.toNat * 1024 + a.toNat * 32 + b.toNat)]
  | .minI h d a b => [encS 0x13 h (d.toNat * 1024 + a.toNat * 32 + b.toNat)]
  | .minN h d a b => [encS 0x14 h (d.toNat * 1024 + a.toNat * 32 + b.toNat)]
  | .maxI h d a b => [encS 0x15 h (d.toNat * 1024 + a.toNat * 32 + b.toNat)]
  | .maxN h d a b => [encS 0x16 h (d.toNat * 1024 + a.toNat * 32 + b.toNat)]
  | .sel h d a b => [encS 0x17 h (d.toNat * 1024 + a.toNat * 32 + b.toNat)]
  | .clz h d a => [encS 0x18 h (d.toNat * 1024 + a.toNat * 32)]
  | .popc h d a => [encS 0x19 h (d.toNat * 1024 + a.toNat * 32)]
  | .bfx h d a b => [encS 0x1a h (d.toNat * 1024 + a.toNat * 32 + b.toNat)]
  | .bfi h d a b => [encS 0x1b h (d.toNat * 1024 + a.toNat * 32 + b.toNat)]
  | .lea h d a b => [encS 0x1c h (d.toNat * 1024 + a.toNat * 32 + b.toNat)]
  | .mov h d a => [encS 0x1d h (d.toNat * 1024 + a.toNat * 32)]
  | .addl h d a w => [encS 0x20 h (d.toNat * 1024 + a.toNat * 32), w]
  | .subl h d a w => [encS 0x21 h (d.toNat * 1024 + a.toNat * 32), w]
  | .andl h d a w => [encS 0x22 h (d.toNat * 1024 + a.toNat * 32), w]
  | .orl h d a w => [encS 0x23 h (d.toNat * 1024 + a.toNat * 32), w]
  | .xorl h d a w => [encS 0x24 h (d.toNat * 1024 + a.toNat * 32), w]
  | .andnl h d a w => [encS 0x25 h (d.toNat * 1024 + a.toNat * 32), w]
  | .shll h d a w => [encS 0x26 h (d.toNat * 1024 + a.toNat * 32), w]
  | .shrl h d a w => [encS 0x27 h (d.toNat * 1024 + a.toNat * 32), w]
  | .sarl h d a w => [encS 0x28 h (d.toNat * 1024 + a.toNat * 32), w]
  | .rotll h d a w => [encS 0x29 h (d.toNat * 1024 + a.toNat * 32), w]
  | .mull h d a w => [encS 0x2a h (d.toNat * 1024 + a.toNat * 32), w]
  | .minlI h d a w => [encS 0x2b h (d.toNat * 1024 + a.toNat * 32), w]
  | .minlN h d a w => [encS 0x2c h (d.toNat * 1024 + a.toNat * 32), w]
  | .maxlI h d a w => [encS 0x2d h (d.toNat * 1024 + a.toNat * 32), w]
  | .maxlN h d a w => [encS 0x2e h (d.toNat * 1024 + a.toNat * 32), w]
  | .movl h d w => [encS 0x2f h (d.toNat * 1024), w]
  | .leal h d a w => [encS 0x30 h (d.toNat * 1024 + a.toNat * 32), w]
  | .cmpEq h d a b => [encS 0x38 h (d.toNat * 1024 + a.toNat * 32 + b.toNat)]
  | .cmpNe h d a b => [encS 0x39 h (d.toNat * 1024 + a.toNat * 32 + b.toNat)]
  | .cmpLtI h d a b => [encS 0x3a h (d.toNat * 1024 + a.toNat * 32 + b.toNat)]
  | .cmpGeI h d a b => [encS 0x3b h (d.toNat * 1024 + a.toNat * 32 + b.toNat)]
  | .cmpLtN h d a b => [encS 0x3c h (d.toNat * 1024 + a.toNat * 32 + b.toNat)]
  | .cmpGeN h d a b => [encS 0x3d h (d.toNat * 1024 + a.toNat * 32 + b.toNat)]
  | .cmplEq h d a w => [encS 0x40 h (d.toNat * 1024 + a.toNat * 32), w]
  | .cmplNe h d a w => [encS 0x41 h (d.toNat * 1024 + a.toNat * 32), w]
  | .cmplLtI h d a w => [encS 0x42 h (d.toNat * 1024 + a.toNat * 32), w]
  | .cmplGeI h d a w => [encS 0x43 h (d.toNat * 1024 + a.toNat * 32), w]
  | .cmplLtN h d a w => [encS 0x44 h (d.toNat * 1024 + a.toNat * 32), w]
  | .cmplGeN h d a w => [encS 0x45 h (d.toNat * 1024 + a.toNat * 32), w]
  | .br h ofs => [encS 0x50 h ofs.toNat]
  | .call h ofs => [encS 0x51 h ofs.toNat]
  | .jmp h a => [encS 0x52 h (a.toNat * 32)]
  | .ret h => [encS 0x53 h 0]
  | .loop h c k t => [encS 0x54 h (c.toNat * 8192 + k.toNat * 256 + t.toNat)]
  | .loopl h c t w => [encS 0x55 h (c.toNat * 8192 + t.toNat), w]
  | .cwait h m => [encS 0x56 h m.toNat]
  | .pand h d a b => [encS 0x60 h (d.toNat * 1024 + a.toNat * 32 + b.toNat)]
  | .por h d a b => [encS 0x61 h (d.toNat * 1024 + a.toNat * 32 + b.toNat)]
  | .pxor h d a b => [encS 0x62 h (d.toNat * 1024 + a.toNat * 32 + b.toNat)]
  | .pnot h d a => [encS 0x63 h (d.toNat * 1024 + a.toNat * 32)]
  | .pfirst h d a => [encS 0x64 h (d.toNat * 1024 + a.toNat * 32)]
  | .pcount h d a => [encS 0x65 h (d.toNat * 1024 + a.toNat * 32)]
  | .pany h d a => [encS 0x66 h (d.toNat * 1024 + a.toNat * 32)]
  | .pall h d a => [encS 0x67 h (d.toNat * 1024 + a.toNat * 32)]
  | .mfs h r code => [encS 0x70 h (r.toNat * 1024 + code.toNat)]
  | .mts h r code => [encS 0x71 h (r.toNat * 1024 + code.toNat)]
  | .vadd h d a b => encK 1 0x00 h (d.code * 4096 + a.code * 128 + b.code * 4) :: (a.lits ++ b.lits)
  | .vsub h d a b => encK 1 0x01 h (d.code * 4096 + a.code * 128 + b.code * 4) :: (a.lits ++ b.lits)
  | .vmul h d a b => encK 1 0x02 h (d.code * 4096 + a.code * 128 + b.code * 4) :: (a.lits ++ b.lits)
  | .vmulhI h d a b => encK 1 0x03 h (d.code * 4096 + a.code * 128 + b.code * 4) :: (a.lits ++ b.lits)
  | .vmulhN h d a b => encK 1 0x04 h (d.code * 4096 + a.code * 128 + b.code * 4) :: (a.lits ++ b.lits)
  | .vminI h d a b => encK 1 0x05 h (d.code * 4096 + a.code * 128 + b.code * 4) :: (a.lits ++ b.lits)
  | .vminN h d a b => encK 1 0x06 h (d.code * 4096 + a.code * 128 + b.code * 4) :: (a.lits ++ b.lits)
  | .vmaxI h d a b => encK 1 0x07 h (d.code * 4096 + a.code * 128 + b.code * 4) :: (a.lits ++ b.lits)
  | .vmaxN h d a b => encK 1 0x08 h (d.code * 4096 + a.code * 128 + b.code * 4) :: (a.lits ++ b.lits)
  | .vand h d a b => encK 1 0x09 h (d.code * 4096 + a.code * 128 + b.code * 4) :: (a.lits ++ b.lits)
  | .vor h d a b => encK 1 0x0a h (d.code * 4096 + a.code * 128 + b.code * 4) :: (a.lits ++ b.lits)
  | .vxor h d a b => encK 1 0x0b h (d.code * 4096 + a.code * 128 + b.code * 4) :: (a.lits ++ b.lits)
  | .vshl h d a b => encK 1 0x0c h (d.code * 4096 + a.code * 128 + b.code * 4) :: (a.lits ++ b.lits)
  | .vshr h d a b => encK 1 0x0d h (d.code * 4096 + a.code * 128 + b.code * 4) :: (a.lits ++ b.lits)
  | .vsar h d a b => encK 1 0x0e h (d.code * 4096 + a.code * 128 + b.code * 4) :: (a.lits ++ b.lits)
  | .vaddsI h d a b => encK 1 0x0f h (d.code * 4096 + a.code * 128 + b.code * 4) :: (a.lits ++ b.lits)
  | .vaddsN h d a b => encK 1 0x10 h (d.code * 4096 + a.code * 128 + b.code * 4) :: (a.lits ++ b.lits)
  | .vsubsI h d a b => encK 1 0x11 h (d.code * 4096 + a.code * 128 + b.code * 4) :: (a.lits ++ b.lits)
  | .vsubsN h d a b => encK 1 0x12 h (d.code * 4096 + a.code * 128 + b.code * 4) :: (a.lits ++ b.lits)
  | .vabs h d a => encK 1 0x13 h (d.code * 4096 + a.code * 128) :: (a.lits)
  | .vfadd h d a b rm => encK 1 0x18 h (d.code * 4096 + a.code * 128 + b.code * 4 + rm.toNat) :: (a.lits ++ b.lits)
  | .vfsub h d a b rm => encK 1 0x19 h (d.code * 4096 + a.code * 128 + b.code * 4 + rm.toNat) :: (a.lits ++ b.lits)
  | .vfmul h d a b rm => encK 1 0x1a h (d.code * 4096 + a.code * 128 + b.code * 4 + rm.toNat) :: (a.lits ++ b.lits)
  | .vfma h d a b rm => encK 1 0x1b h (d.code * 4096 + a.code * 128 + b.code * 4 + rm.toNat) :: (a.lits ++ b.lits)
  | .vfmin h d a b => encK 1 0x1c h (d.code * 4096 + a.code * 128 + b.code * 4) :: (a.lits ++ b.lits)
  | .vfmax h d a b => encK 1 0x1d h (d.code * 4096 + a.code * 128 + b.code * 4) :: (a.lits ++ b.lits)
  | .vfabs h d a => encK 1 0x1e h (d.code * 4096 + a.code * 128) :: (a.lits)
  | .vfneg h d a => encK 1 0x1f h (d.code * 4096 + a.code * 128) :: (a.lits)
  | .vmov h d a => encK 1 0x20 h (d.code * 4096 + a.code * 128) :: (a.lits)
  | .vsel h d a b => encK 1 0x21 h (d.code * 4096 + a.code * 128 + b.code * 4) :: (a.lits ++ b.lits)
  | .vcmpEq h d a b => encK 1 0x28 h (d.toNat * 4096 + a.code * 128 + b.code * 4) :: (a.lits ++ b.lits)
  | .vcmpNe h d a b => encK 1 0x29 h (d.toNat * 4096 + a.code * 128 + b.code * 4) :: (a.lits ++ b.lits)
  | .vcmpLtI h d a b => encK 1 0x2a h (d.toNat * 4096 + a.code * 128 + b.code * 4) :: (a.lits ++ b.lits)
  | .vcmpGeI h d a b => encK 1 0x2b h (d.toNat * 4096 + a.code * 128 + b.code * 4) :: (a.lits ++ b.lits)
  | .vcmpLtN h d a b => encK 1 0x2c h (d.toNat * 4096 + a.code * 128 + b.code * 4) :: (a.lits ++ b.lits)
  | .vcmpGeN h d a b => encK 1 0x2d h (d.toNat * 4096 + a.code * 128 + b.code * 4) :: (a.lits ++ b.lits)
  | .vfcmpEq h d a b => encK 1 0x2e h (d.toNat * 4096 + a.code * 128 + b.code * 4) :: (a.lits ++ b.lits)
  | .vfcmpLt h d a b => encK 1 0x2f h (d.toNat * 4096 + a.code * 128 + b.code * 4) :: (a.lits ++ b.lits)
  | .vfcmpLe h d a b => encK 1 0x30 h (d.toNat * 4096 + a.code * 128 + b.code * 4) :: (a.lits ++ b.lits)
  | .vfcmpUn h d a b => encK 1 0x31 h (d.toNat * 4096 + a.code * 128 + b.code * 4) :: (a.lits ++ b.lits)
  | .vdot4 h d a b sg => encK 1 0x38 h (d.code * 4096 + a.code * 128 + b.code * 4 + sg.toNat) :: (a.lits ++ b.lits)
  | .vscaleb h d a b rm => encK 1 0x39 h (d.code * 4096 + a.code * 128 + b.code * 4 + rm.toNat) :: (a.lits ++ b.lits)
  | .vcvt h d a cv => encK 1 0x40 h (d.code * 4096 + a.code * 128) :: (a.lits ++ [cv.word])
  | .vcvtt h d a => encK 1 0x41 h (d.code * 4096 + a.code * 128) :: (a.lits)
  | .vpack h d a b cv => encK 1 0x42 h (d.code * 4096 + a.code * 128 + b.code * 4) :: (a.lits ++ b.lits ++ [cv.word])
  | .vunpk h d a cv => encK 1 0x43 h (d.code * 4096 + a.code * 128) :: (a.lits ++ [cv.word])
  | .vrsum h d a ty => encK 1 0x48 h (d.code * 4096 + a.code * 128 + ty.toNat) :: (a.lits)
  | .vrmax h d a ty => encK 1 0x49 h (d.code * 4096 + a.code * 128 + ty.toNat) :: (a.lits)
  | .vrmin h d a ty => encK 1 0x4a h (d.code * 4096 + a.code * 128 + ty.toNat) :: (a.lits)
  | .vscan h d a ty => encK 1 0x4b h (d.code * 4096 + a.code * 128 + ty.toNat) :: (a.lits)
  | .vsort h d a b ty => encK 1 0x4c h (d.code * 4096 + a.code * 128 + b.code * 4 + ty.toNat) :: (a.lits ++ b.lits)
  | .vshuf h d a b => encK 1 0x50 h (d.code * 4096 + a.code * 128 + b.code * 4) :: (a.lits ++ b.lits)
  | .vrot h d a b => encK 1 0x51 h (d.code * 4096 + a.code * 128 + b.code * 4) :: (a.lits ++ b.lits)
  | .vrotZf h d a b => encK 1 0x51 h (d.code * 4096 + a.code * 128 + b.code * 4 + 1) :: (a.lits ++ b.lits)
  | .vbcast h d a b => encK 1 0x52 h (d.code * 4096 + a.code * 128 + b.code * 4) :: (a.lits ++ b.lits)
  | .vrand h d a b u word layer => encK 1 0x58 h (d.code * 4096 + a.code * 128 + b.code * 4) :: (a.lits ++ b.lits ++ [BitVec.ofNat 32 (bnat u * 67108864 + word.toNat * 16777216 + layer.toNat)])
  | .teval h d a k => encK 1 0x59 h (d.code * 4096 + a.code * 128 + k.toNat) :: (a.lits)
  | .drawImmediate h q p r i => [encK 2 0x00 h (q.toNat * 32768 + p.toNat * 256 + r.toNat * 64 + i.toNat)]
  | .drawRegister h q p r x => [encK 2 0x01 h (q.toNat * 32768 + p.toNat * 256 + r.toNat * 64 + x.toNat)]
  | .putOperandImmediate h o p r i => [encK 2 0x02 h (o.toNat * 8192 + p.toNat * 256 + r.toNat * 64 + i.toNat)]
  | .putOperandRegister h o p r x => [encK 2 0x03 h (o.toNat * 8192 + p.toNat * 256 + r.toNat * 64 + x.toNat)]
  | .putLastResultImmediate h l p r i => [encK 2 0x04 h (l.toNat * 8192 + p.toNat * 256 + r.toNat * 64 + i.toNat)]
  | .putLastResultRegister h l p r x => [encK 2 0x05 h (l.toNat * 8192 + p.toNat * 256 + r.toNat * 64 + x.toNat)]
  | .sld h d k f => [encK 2 0x08 h (d.code * 4096 + k.toNat * 128 + f.toNat)]
  | .sldTagged h d k f tag => [encK 2 0x09 h (d.code * 4096 + k.toNat * 128 + f.toNat), tagWord tag]
  | .sst h o k f => [encK 2 0x0a h (o.code * 4096 + k.toNat * 128 + f.toNat)]
  | .sstTagged h o k f tag => [encK 2 0x0b h (o.code * 4096 + k.toNat * 128 + f.toNat), tagWord tag]
  | .slds h r k f => [encK 2 0x0c h (r.toNat * 4096 + k.toNat * 128 + f.toNat)]
  | .sldsTagged h r k f tag => [encK 2 0x0d h (r.toNat * 4096 + k.toNat * 128 + f.toNat), tagWord tag]
  | .ssts h r k f => [encK 2 0x0e h (r.toNat * 4096 + k.toNat * 128 + f.toNat)]
  | .sstsTagged h r k f tag => [encK 2 0x0f h (r.toNat * 4096 + k.toNat * 128 + f.toNat), tagWord tag]
  | .ld h d a b m => [encK 2 0x10 h (d.toNat * 4096 + a.toNat * 128 + b.toNat * 4 + m.toNat)]
  | .st h d a b m => [encK 2 0x11 h (d.toNat * 4096 + a.toNat * 128 + b.toNat * 4 + m.toNat)]
  | .ecopy h d a b m => [encK 2 0x12 h (d.toNat * 4096 + a.toNat * 128 + b.toNat * 4 + m.toNat)]
  | .mark h => [encK 2 0x18 h 0]
  | .lqwait h v => [encK 2 0x19 h v.toNat]
  | .sqwait h v => [encK 2 0x1a h v.toNat]
  | .fence h v => [encK 2 0x1b h v.toNat]
  | .aadd h d a b m => [encK 2 0x20 h (d.toNat * 4096 + a.toNat * 128 + b.toNat * 4 + m.toNat)]
  | .aminI h d a b m => [encK 2 0x21 h (d.toNat * 4096 + a.toNat * 128 + b.toNat * 4 + m.toNat)]
  | .aminN h d a b m => [encK 2 0x22 h (d.toNat * 4096 + a.toNat * 128 + b.toNat * 4 + m.toNat)]
  | .amaxI h d a b m => [encK 2 0x23 h (d.toNat * 4096 + a.toNat * 128 + b.toNat * 4 + m.toNat)]
  | .amaxN h d a b m => [encK 2 0x24 h (d.toNat * 4096 + a.toNat * 128 + b.toNat * 4 + m.toNat)]
  | .aand h d a b m => [encK 2 0x25 h (d.toNat * 4096 + a.toNat * 128 + b.toNat * 4 + m.toNat)]
  | .aor h d a b m => [encK 2 0x26 h (d.toNat * 4096 + a.toNat * 128 + b.toNat * 4 + m.toNat)]
  | .axor h d a b m => [encK 2 0x27 h (d.toNat * 4096 + a.toNat * 128 + b.toNat * 4 + m.toNat)]
  | .axchg h d a b m => [encK 2 0x28 h (d.toNat * 4096 + a.toNat * 128 + b.toNat * 4 + m.toNat)]
  | .acas h d a b m => [encK 2 0x29 h (d.toNat * 4096 + a.toNat * 128 + b.toNat * 4 + m.toNat)]
  | .afadd h d a b m => [encK 2 0x2a h (d.toNat * 4096 + a.toNat * 128 + b.toNat * 4 + m.toNat)]
  | .bara h d a m => [encK 2 0x30 h (d.toNat * 4096 + a.toNat * 128 + m.toNat)]
  | .barw h a b m => [encK 2 0x31 h (a.toNat * 128 + b.toNat * 4 + m.toNat)]
  | .flagw h d a b sc cc => [encK 2 0x32 h (d.toNat * 4096 + a.toNat * 128 + b.toNat * 4), BitVec.ofNat 32 (sc.toNat * 4 + cc.toNat)]
  | .pref h a b => [encK 2 0x38 h (a.toNat * 128 + b.toNat * 4 + 2)]
  | .ipref h a b l => [encK 2 0x39 h (a.toNat * 128 + b.toNat * 4 + l.toNat)]
  | .ipin h d a b l => [encK 2 0x3a h (d.toNat * 4096 + a.toNat * 128 + b.toNat * 4 + l.toNat)]
  | .iunpin h a b l => [encK 2 0x3b h (a.toNat * 128 + b.toNat * 4 + l.toNat)]
  | .icinv h a b => [encK 2 0x3c h (a.toNat * 128 + b.toNat * 4)]
  | .park h o a b => [encK 2 0x40 h (o.code * 4096 + a.toNat * 128 + b.toNat * 4)]
  | .unpark h d a b => [encK 2 0x41 h (d.code * 4096 + a.toNat * 128 + b.toNat * 4)]
  | .mcfg h st g ofs eng => [encK 3 0x00 h (st.bits + g.toNat * 4), BitVec.ofNat 32 (ofs.toNat * 4 + eng.toNat)]
  | .mgo h st cb ca bt at_ => [encK 3 0x01 h st.bits, BitVec.ofNat 32 (bnat cb * 131072 + bnat ca * 65536 + bt.toNat * 256 + at_.toNat)]
  | .mstop h st => [encK 3 0x02 h st.bits, 0]
  | .mbase h st g which => [encK 3 0x03 h (st.bits + g.toNat * 4), BitVec.ofNat 32 which.toNat]
  | .cfgld h st g ck tag ofs len eng => [encK 3 0x04 h (st.bits + g.toNat * 4), BitVec.ofNat 32 (bnat ck * 67108864 + tag.toNat * 262144 + ofs.toNat * 1024 + len.toNat * 4 + eng.toNat)]
  | .cfgswap h st eng => [encK 3 0x05 h st.bits, BitVec.ofNat 32 eng.toNat]
  | .mfmt h st g e => [encK 3 0x06 h (st.bits + g.toNat * 4), BitVec.ofNat 32 e.toNat]
  | .aczero h st rows row bank => [encK 3 0x07 h st.bits, BitVec.ofNat 32 (rows.toNat * 2048 + row.toNat * 32 + bank.toNat)]
  | .acalloc h d a zero park => [encK 3 0x08 h (d.toNat * 4096 + a.toNat * 128 + bnat zero * 2 + bnat park)]
  | .acfree h a => [encK 3 0x09 h (a.toNat * 128)]
  | .acown h a b => [encK 3 0x0a h (a.toNat * 128 + b.toNat * 4)]
  | .acld h d a b cv => [encK 3 0x0b h (d.code * 4096 + a.toNat * 128 + b.toNat * 4), cv.word]
  | .xcopy h st g rem ck ex stg tag dst frm => [encK 3 0x10 h (st.bits + g.toNat * 4), BitVec.ofNat 32 (rem.toNat * 1073741824 + bnat ck * 536870912 + ex.toNat * 2097152 + bnat stg * 1048576 + tag.toNat * 4096 + dst.toNat * 32 + frm.toNat)]
  | .tsld h st g slot => [encK 3 0x11 h (st.bits + g.toNat * 4), BitVec.ofNat 32 slot.toNat]
  | .tsev h st slot => [encK 3 0x12 h st.bits, BitVec.ofNat 32 slot.toNat]
  | .tload h st g ck tag tb => [encK 3 0x18 h (st.bits + g.toNat * 4), BitVec.ofNat 32 (bnat ck * 1024 + tag.toNat * 4 + tb.toNat)]
  | .rload h st g ck tag => [encK 3 0x1c h (st.bits + g.toNat * 4), BitVec.ofNat 32 (bnat ck * 256 + tag.toNat)]
  | .rstep h st g gens cheq nb alt pl => [encK 3 0x1d h (st.bits + g.toNat * 4), BitVec.ofNat 32 (gens.toNat * 8192 + bnat cheq * 4096 + nb.toNat * 1024 + alt.toNat * 32 + pl.toNat)]
  | .waitb h a => [encK 3 0x20 h (a.toNat * 128)]
  | .waitbUntil h a => [encK 3 0x20 h (a.toNat * 128 + 1)]
  | .deadline h a b => [encK 3 0x21 h (a.toNat * 128 + b.toNat * 4)]
  | .deadlineClr h => [encK 3 0x21 h 1]
  | .acqp h n => [encK 3 0x22 h (n.toNat * 4)]
  | .relp h => [encK 3 0x23 h 0]
  | .molt h d a => [encK 3 0x24 h (d.toNat * 4096 + a.toNat * 128)]
  | .enq h d a b => [encK 3 0x25 h (d.toNat * 4096 + a.toNat * 128 + b.toNat * 4)]
  | .trap h a n => [encK 3 0x30 h (a.toNat * 128 + n.toNat * 4)]
  | .tret h => [encK 3 0x31 h 0]
  | .tretSkip h n => [encK 3 0x32 h (n.toNat * 4)]
  | .mcfgStart _ _ => []
  | .cfgldStart _ _ => []
  | .cfgswapStart _ _ => []
  | .cfgswapFlip _ _ => []
  | .mgoStart _ => []
  | .matrixBlockStep _ => []
  | .mstopStart _ => []
  | .mbaseStart _ => []
  | .mfmtStart _ => []
  | .aczeroStart _ => []
  | .xcopyStart _ => []
  | .xcopyChunk _ _ _ => []
  | .tsldStart _ => []
  | .tsevStart _ => []
  | .tloadStart _ => []
  | .tloadReplace _ => []
  | .rloadStart _ => []
  | .rloadReplace _ => []
  | .rstepStart _ => []
  | .rstepGeneration _ => []
  | .loadPerform _ => []
  | .loadDataArrival _ => []
  | .storePerform _ => []
  | .ecopyPerform _ => []
  | .atomicPerform _ => []
  | .baraPerform _ => []
  | .enqPerform _ => []
  | .markerRetire _ => []
  | .elasticWaitResume _ => []
  | .fetchLineFill _ => []
  | .translationWalk _ => []
  | .powerGrant _ => []
  | .regionLevelFall _ => []
  | .stallWatchdog _ => []
  | .deadlineLapse _ => []
  | .strandStop _ => []
  | .drainEnd _ => []
  | .preemptionHold _ => []
  | .commitWindow _ => []
  | .weaveFlip _ => []
  | .scrubComplete _ => []
  | .strandRetire _ => []
  | .digestReexecution _ => []
  | .ringRecordWrite _ => []
  | .nopPacket _ => []
  | .launch _ _ => []
  | .graph _ _ => []
  | .seedpush _ _ => []
  | .seedpop _ => []
  | .seedfork _ _ => []
  | .waitword _ _ => []
  | .waitwordPoll _ => []
  | .waitTimeout _ => []
  | .setword _ _ => []
  | .afterPriorStore _ => []
  | .teardown _ => []
  | .quota _ _ => []
  | .packetReread _ => []
  | .tornPacket _ => []
  | .launchAgeing _ => []
  | .launchReservation _ => []
  | .taskNode _ _ _ => []
  | .cond _ _ _ => []
  | .loopNode _ _ _ => []
  | .switch _ _ _ => []
  | .join _ _ _ => []
  | .seedNode _ _ _ => []
  | .endNode _ _ _ => []
  | .activate _ => []
  | .release _ => []
  | .queueEnable _ _ => []
  | .qkick _ _ => []
  | .qcmdResume _ => []
  | .qcmdSkip _ => []
  | .hold _ => []
  | .pecmdResume _ => []
  | .save _ => []
  | .restore _ => []
  | .tlbinvOnePage _ => []
  | .tlbinvWholeContext _ => []
  | .mbxctl _ _ => []
  | .linkcmdResume => []
  | .stackReset _ => []
  | .computeReset => []
  | .functionLevelReset => []
  | .coldReset => []
  | .islandReset => []
  | .pwrenv _ _ => []
  | .active _ _ => []
  | .gated _ _ => []
  | .retain _ _ => []
  | .off _ _ => []
  | .droopclr _ => []
  | .errcfg _ => []
  | .fenceclr _ => []
  | .drefc _ _ => []
  | .registerWrite _ _ => []
  | .surpriseLinkLoss => []
  | .linkgraceExpiry => []
  | .governorEvaluation _ => []
  | .operatingPointChange _ => []
  | .energyMetering _ => []
  | .droopDetectorTrip _ => []
  | .droopSignatureMatch _ => []
  | .thermalSafetyTrip => []
  | .correctedError _ => []
  | .uncorrectableError _ _ => []
  | .hostMemoryRead _ _ _ => []
  | .hostMemoryWrite _ _ _ => []
  | .domainAccess _ _ _ _ _ => []
  | .flitReplay _ => []
  | .stop _ _ => []
  | .go _ _ => []
  | .doorbell _ _ => []
  | .firmwareUpdate _ _ _ => []
  | .attestation => []
  | .linkRetrain => []
  | .droopStretchEnd _ => []
  | .completionEntryWrite _ _ _ => []
  | .powerLoss => []

end Sys2Proof
end

