-- ==== Sys2Proof/Machine/Memory.lean ====
section
/-! DEFINITION. Memory: bus addresses, coherence order and writes in flight, poison, translation (R144 to R147, R253 to
R261, R290, R305). -/

namespace Sys2Proof.Machine

/-! ## Bus addresses (R305) -/

/-- A bus address of stacked DRAM. -/
def isDram (b : Nat) : Bool := b < 2 ^ 39
/-- A bus address of second-tier memory. -/
def isTier2 (b : Nat) : Bool := 2 ^ 40 ≤ b && b < 2 ^ 41
/-- A bus address of an Ethernet doorbell page. -/
def isDoorbell (b : Nat) : Bool := 2 ^ 41 ≤ b && b < 2 ^ 41 + 4096 * 64
/-- A bus address of host memory. -/
def isHost (b : Nat) : Bool := 2 ^ 51 ≤ b && b < 2 ^ 52
/-- A bus address that has a target. -/
def busOk (b : Nat) : Bool := isDram b || isTier2 b || isDoorbell b || isHost b
/-- The stack whose DRAM a bus address lies in. -/
def dramStack (b : Nat) : Nat := b / 2 ^ 37

/-! ## Who sees what (R253, R257, R261) -/

/-- Where an agent stands. An agent outside the stacks has `stack` 4. -/
structure Place where
  stack : Nat
  core  : Nat
  sid   : Nat
  cl    : Nat
  deriving DecidableEq, Repr

/-- The place of an agent that lies in no narrower unit than the device (R253). -/
def Place.device : Place := { stack := 4, core := 0, sid := 0, cl := 0 }

/-- The narrowest scope level that holds both a flight's writer and a place: 1 cluster, 2 core, 3 slice, 4 stack, 5
device. -/
def Flight.reach (f : Flight) (p : Place) : Nat :=
  if f.stack != p.stack then 5
  else if f.core / 4 != p.core / 4 then 4
  else if f.core != p.core then 3
  else if f.sid != p.sid || f.cl != p.cl then 2
  else 1

/-- A flight's write is visible at a place. -/
def Flight.seenBy (f : Flight) (p : Place) : Bool := f.reach p ≤ f.level

/-- The byte a flight writes at an address: the last it lists. -/
def Flight.byte? (f : Flight) (b : Nat) : Option Byte := ((f.cells.filter fun c => c.1 == b).getLast?).map (·.2)

/-- The newest visible flight's byte over what stands beneath. -/
def flightByte (p : Place) (b : Nat) (below : Byte) : List Flight → Byte
  | [] => below
  | f :: fs =>
    let below := if f.seenBy p then (f.byte? b).getD below else below
    flightByte p b below fs

/-- What a byte of memory reads as at a place: the latest write in coherence order that is visible there (R257). -/
def State.busByte (s : State) (p : Place) (b : Nat) : Byte := flightByte p b (Sparse.get s.mem b) s.flight

/-- `n` bytes from a bus address. -/
def State.busBytes (s : State) (p : Place) (b n : Nat) : List Byte := (List.range n).map fun i => s.busByte p (b + i)

/-- The number in `n` bytes of memory, as a device-scope agent reads it. -/
def State.busNat (s : State) (b n : Nat) : Nat := natOfBytes (s.busBytes Place.device b n)

/-- The flights a place sees that write one of these bytes: what a load returned (R263). -/
def State.seenFlights (s : State) (p : Place) (b n : Nat) : List Nat :=
  (s.flight.filter fun f => f.seenBy p && f.cells.any fun c => b ≤ c.1 && c.1 < b + n).map (·.id)

/-- A flight without the bytes that a later write has overtaken, and without the poison of a word that it covers whole (R257, R290). -/
def Flight.without (f : Flight) (gone : Nat → Bool) : Flight :=
  { f with cells := f.cells.filter fun c => !gone c.1, cut := f.cut ++ ((f.cells.filter fun c => gone c.1).map fun c => c.1 / 8).eraseDups,
           bad := f.bad.filter fun w => !(List.range 8).all fun i => gone (8 * w + i) }

/-- Drop from earlier flights the bytes that a later one has overtaken. -/
def dropCells (cells : List (Nat × Byte)) (f : Flight) : Flight := f.without fun a => cells.any fun d => d.1 == a

/-- A write that fully covers a poisoned word clears its mark (R290). -/
def clearPoison (cells : List (Nat × Byte)) (ws : List Nat) : List Nat :=
  ws.filter fun w => !(List.range 8).all fun i => cells.any fun c => c.1 == 8 * w + i

/-- A fenced CXL port drops the stores to its quarter of the second tier (R316). -/
def State.dropped (s : State) (b : Nat) : Bool := isTier2 b && s.fenced.contains (.cxl (b / 4096 % 4))

/-- A unit's own power state (R320): kind 0 a cluster, 1 a core, 2 a stack, 3 the device. -/
def State.powerOf (s : State) (kind unit : Nat) : Power := match s.power.find? fun p => p.1 == kind && p.2.1 == unit with
  | some p => p.2.2
  | none => .active

/-- A bus address lies in the DRAM of a stack that cannot answer: it has no power, or is being reset (R303, R311). -/
def State.silent (s : State) (b : Nat) : Bool :=
  isDram b && (!(s.stack (dramStack b)).up || s.powerOf 3 0 == .off || s.powerOf 2 (dramStack b) == .off)

/-- The host cannot answer an access of host memory while the link is down (R308). -/
def State.hostAbsent (s : State) (b : Nat) : Bool := isHost b && !s.linkUp

/-- A store to a bus address is dropped: by a fenced port, or by the island where the target cannot answer (R308, R311, R316). -/
def State.drops (s : State) (b : Nat) : Bool := s.dropped b || s.silent b || s.hostAbsent b

/-- Write bytes to memory at device scope (R257). DESIGN CHOICE (log 80): in coherence order it comes before the writes in flight, which
have still to come to that scope. -/
def State.busWrite (s : State) (cells : List (Nat × Byte)) : State :=
  let cells := cells.filter fun c => !s.drops c.1
  { s with mem := Sparse.setAll s.mem cells, poison := clearPoison cells s.poison }

/-- Write the `n` bytes of a number at device scope. -/
def State.busPut (s : State) (b n v : Nat) : State := s.busWrite (cellsAt b (bytesOf n v))

/-! ## The order of the writes in flight (R257, R258, R261, R269) -/

/-- Two writes in flight are one agent's (R253). -/
def Flight.sameAgent (f g : Flight) : Bool := f.stack == g.stack && f.core == g.core && f.sid == g.sid && f.cl == g.cl

/-- Two writes in flight share a byte. -/
def Flight.shares (f g : Flight) : Bool := f.cells.any fun c => g.cells.any fun d => d.1 == c.1

/-- A write in flight within scope `l` of a place has still to perform at it. -/
def Flight.pends (f : Flight) (p : Place) (l : Nat) : Bool := f.reach p ≤ l && (5 ≤ l || f.level < l)

/-- A write in flight enters memory as it performs at device scope; earlier ones lose the bytes it covers (R257, R261). -/
def State.settle (s : State) (id : Nat) : State :=
  match s.flight.find? fun f => f.id == id with
  | none => s
  | some f =>
    let cells := f.cells.filter fun c => !s.drops c.1
    { s with mem := Sparse.setAll s.mem cells,
             flight := ((s.flight.takeWhile fun g => g.id != id).map (dropCells cells)) ++
               (s.flight.dropWhile fun g => g.id != id).drop 1,
             poison := clearPoison cells s.poison ++ f.bad.filter fun w => !s.drops (8 * w) }

/-- Some of the writes in flight, with all that have performed wherever those have: the earlier ones that share a byte with one of them,
and those ahead of one in its agent's queue (R257, R258). -/
def withElders (want : Flight → Bool) : List Flight → List Flight
  | [] => []
  | f :: fs =>
    let later := withElders want fs
    if want f || later.any fun g => f.sameAgent g || f.shares g then f :: later else later

/-- Some of the writes in flight perform at device scope, after all that have then performed there too. -/
def State.settleAll (s : State) (want : Flight → Bool) : State := (withElders want s.flight).foldl (fun s f => s.settle f.id) s

/-- A flight has written to word `w`, or did so in bytes that a timed write has overtaken. -/
def Flight.inWord (f : Flight) (w : Nat) : Bool := f.cut.contains w || f.cells.any fun c => c.1 / 8 == w

/-- A flight comes before a timed write in the coherence order of word `w`: it has performed at stack scope, an earlier timed write has
overtaken it there, or it comes before one of `later`, the flights behind it in the word that do: it shares a byte of the word with that
one, or is the same agent's. -/
def Flight.isPast (f : Flight) (w : Nat) (later : List Flight) : Bool :=
  f.inWord w && (4 ≤ f.level || f.cut.contains w || later.any fun g =>
    f.sameAgent g || f.cells.any fun c => c.1 / 8 == w && g.cells.any fun d => d.1 == c.1)

/-- The flights that come before a timed write in the coherence order of word `w`. -/
def pastIn (w : Nat) : List Flight → List Flight
  | [] => []
  | f :: fs =>
    let later := pastIn w fs
    if f.isPast w later then f :: later else later

/-- A timed write of some bytes overtakes a flight, `fs` being those behind it, at an address. -/
def Flight.overtaken (f : Flight) (cells : List (Nat × Byte)) (fs : List Flight) (a : Nat) : Bool :=
  (cells.any fun d => d.1 == a) && f.isPast (a / 8) (pastIn (a / 8) fs)

/-- Drop from the flights the bytes that a timed write of a stack's DRAM has overtaken: those of the flights that come before it in the
one order of the word. Any other elastic store comes to stack scope on this cycle or later, and follows the timed write (R256, R257,
R258, R269). -/
def overtake (cells : List (Nat × Byte)) : List Flight → List Flight
  | [] => []
  | f :: fs => f.without (f.overtaken cells fs) :: overtake cells fs

/-- The flights that a timed write overtakes whole: each has performed at every scope from then on, for every load returns a later
write (R224). -/
def overtakenWhole (cells : List (Nat × Byte)) : List Flight → List Flight
  | [] => []
  | f :: fs => (if !f.cells.isEmpty && f.cells.all fun c => f.overtaken cells fs c.1 then [f] else []) ++ overtakenWhole cells fs

/-- The flights that have performed at every scope once a timed write of some bytes has: those it overtakes whole, and all that have
performed wherever those have (R224, R258). -/
def State.overrun (s : State) (cells : List (Nat × Byte)) : List Flight :=
  withElders (fun f => (overtakenWhole cells s.flight).any fun g => g.id == f.id) s.flight

/-- The slice caches of a stack lose the lines that bytes lie in. -/
def Stack.uncache (k : Stack) (cells : List (Nat × Byte)) : Stack :=
  { k with cache := k.cache.map fun ls => ls.filter fun l => !cells.any fun c => c.1 / 64 == l }

/-- A timed write of bytes of DRAM performs at every scope, and the slice caches of every stack lose the lines it overlaps (R142,
R269). What has performed at every scope with it enters memory before it. -/
def State.timedWrite (s : State) (cells : List (Nat × Byte)) : State :=
  let cells := cells.filter fun c => !s.drops c.1
  let s := (s.overrun cells).foldl (fun s f => s.settle f.id) s
  { s with mem := Sparse.setAll s.mem cells, flight := overtake cells s.flight, poison := clearPoison cells s.poison,
           stks := s.stks.map fun t => t.uncache cells }

/-- A flight's write marks a word as poisoned, or clears its mark by covering it, or does neither. -/
def Flight.marks (f : Flight) (w : Nat) : Option Bool :=
  if f.bad.contains w then some true
  else if (List.range 8).all fun i => f.cells.any fun c => c.1 == 8 * w + i then some false
  else none

/-- A word of memory reads as poisoned at a place: it lies in a fenced region or behind a fenced port, or is marked by the
latest write visible there that marks or covers it (R290, R292, R316). -/
def State.poisoned (s : State) (p : Place) (b : Nat) : Bool :=
  (isDram b && s.fenced.contains (.dram (b / 2 ^ 30))) || s.dropped b ||
  s.flight.foldl (fun m f => if f.seenBy p then (f.marks (b / 8)).getD m else m) (s.poison.contains (b / 8))

/-- Some byte of a range reads as poisoned at a place. -/
def State.poisonedRange (s : State) (p : Place) (b n : Nat) : Bool := (List.range (n / 8 + 2)).any fun i =>
  let x := b / 8 * 8 + 8 * i
  x < b + n && s.poisoned p x

/-! ## Addresses (R144) -/

/-- A domain address. -/
def isDomain (a : W64) : Bool := a.msb
/-- A local address with no reserved bit set. -/
def canonical (a : W64) : Bool := isDomain a || a.toNat < 2 ^ 48
/-- The target device of a domain address. -/
def domDevice (a : W64) : Nat := fld a.toNat 49 14
/-- The window offset of a domain address. -/
def domOffset (a : W64) : Nat := fld a.toNat 0 49

/-! ## Page tables (R145, R146) -/

/-- A translation: the page's first virtual address, the log2 of its size, its bus address, and its permissions. -/
structure Page where
  va   : Nat
  log  : Nat
  bus  : Nat
  w    : Bool
  x    : Bool
  deriving DecidableEq, Repr

/-- The bus address of a virtual address in a page. -/
def Page.at (p : Page) (va : Nat) : Nat := p.bus + (va - p.va)

/-- Why an access has no bus address: PAGE with its Detail, PERM, ADDRESS, or a page table that cannot be read: HOST-ABSENT or
NO-ENDPOINT (R144, R146, R305, R308, R311). -/
inductive XlatFail where
  | page (level : Nat)
  | perm
  | address
  | host
  | noEnd
  deriving DecidableEq, Repr

/-- The cause code and Detail of a failure. -/
def XlatFail.code : XlatFail → Nat × Nat
  | .page l => (cPage, l)
  | .perm => (cPerm, 0)
  | .address => (cAddress, 0)
  | .host => (cHost, 0)
  | .noEnd => (cNoEnd, 0)

/-- What a walk answers: a page, or why it fails. -/
abbrev Walk := Except XlatFail Page

/-- Whether the target of a bus address answers a load (R305, R308, R311). -/
def State.answers (s : State) (b : Nat) : Except XlatFail Unit :=
  if !busOk b then .error (.page 4) else if s.hostAbsent b then .error .host else if s.silent b then .error .noEnd else .ok ()

/-- The log2 of a leaf's size at a level (R145). -/
def leafLog (level : Nat) : Nat := 12 + 9 * level

/-- The log2 of the number of leaves that a size class groups at a level, where the class is valid there (R145). -/
def classLog (level cls : Nat) : Option Nat :=
  if cls == 0 then some 0
  else if level == 0 && cls == 1 then some 4
  else if level == 0 && cls == 2 then some 6
  else if level == 1 && cls == 3 then some 4
  else if level == 1 && cls == 4 then some 7
  else if level == 2 && cls == 5 then some 4
  else none

/-- An entry's reserved bits are zero and it is valid (R145, R146). -/
def pteOk (e : Nat) : Bool := fld e 0 1 == 1 && fld e 4 5 == 0 && fld e 52 12 == 0
/-- An entry's address. -/
def pteAddr (e : Nat) : Nat := fld e 12 40 * 4096

/-- The page of a leaf entry, or none where R146 refuses it. `base` is the table's bus address. -/
def leafPage (s : State) (level base va e : Nat) : Option Page :=
  match classLog level (fld e 9 3) with
  | none => none
  | some g =>
    let log := leafLog level + g
    let first := va / 2 ^ log * 2 ^ log
    let e' := if g == 0 then e else s.busNat (base + 8 * (first / 2 ^ leafLog level % 512)) 8
    if pteOk e' && fld e' 3 1 == 1 && fld e' 9 3 == fld e 9 3 && pteAddr e' % 2 ^ log == 0 then
      some { va := first, log, bus := pteAddr e', w := fld e' 1 1 == 1, x := fld e' 2 1 == 1 }
    else none

/-- Walk from `level` down, the table at `base` (R145, R146, R305); `n` counts the levels left. -/
def walkFrom (s : State) (va : Nat) : Nat → Nat → Walk
  | 0, _ => .error (.page 0)
  | level + 1, base =>
    let e := s.busNat (base + 8 * (va / 2 ^ leafLog level % 512)) 8
    match s.answers base with
    | .error f => .error f
    | .ok _ =>
      if !pteOk e then .error (.page level)
      else if fld e 3 1 == 1 then
        if level == 3 then .error (.page level)
        else match leafPage s level base va e with
          | some p => if busOk (p.at va) then .ok p else .error (.page 4)
          | none => .error (.page level)
      else if level == 0 || fld e 9 3 != 0 then .error (.page level)
      else walkFrom s va level (pteAddr e)

/-- The page that a TLB entry holds. -/
def TlbEntry.page (e : TlbEntry) : Page := { va := e.va, log := e.log, bus := e.bus, w := e.w, x := e.x }

/-- The entry of a TLB for a context and address. -/
def tlbFind (es : List TlbEntry) (ctx va : Nat) : Option TlbEntry :=
  es.find? fun e => e.ctx == ctx && e.va == va / 2 ^ e.log * 2 ^ e.log

/-- The TLBs that an access from a core of a stack looks in, in turn (R147). -/
def Stack.tlbs (t : Stack) (c : Nat) : List (List TlbEntry) := [vget t.micro c [], vget t.sliceTlb (c / 4) [], t.tlb]

/-- The translation held for a context and address in the TLBs of a core (R147). DESIGN CHOICE (log 20). -/
def State.tlbHit (s : State) (k c ctx va : Nat) : Option Page :=
  (((s.stack k).tlbs c).findSome? fun es => tlbFind es ctx va).map TlbEntry.page

/-- Translate an address of a context as an access from core `c` of stack `k` does: the TLBs first, then a walk (R147, R305). -/
def State.lookup (s : State) (k c ctx va : Nat) : Walk :=
  match s.tlbHit k c ctx va with
  | some p => if busOk (p.at va) then .ok p else .error (.page 4)
  | none => match s.ctx? ctx with
    | some x => walkFrom s va 4 x.root
    | none => .error (.page 3)

/-- A TLB of `n` entries takes one in, and the oldest makes room. -/
def tlbPut (n : Nat) (e : TlbEntry) (es : List TlbEntry) : List TlbEntry :=
  if (tlbFind es e.ctx e.va).isSome then es else (e :: es).take n

/-- Hold a translation in the three TLBs of a core's accesses (R147). -/
def State.tlbFill (s : State) (k c ctx : Nat) (p : Page) : State :=
  let e : TlbEntry := { ctx, va := p.va, log := p.log, bus := p.bus, w := p.w, x := p.x }
  s.modStack k fun t => { t with
    tlb := tlbPut 1536 e t.tlb, sliceTlb := vset t.sliceTlb (c / 4) (tlbPut 512 e (vget t.sliceTlb (c / 4) [])),
    micro := vset t.micro c (tlbPut 64 e (vget t.micro c [])) }

/-- A slice cache of a stack takes in a line of memory: a coherent copy, so that only its presence is held; the oldest of 262,144
makes room. A line of no memory, or one that cannot answer, is not taken (R8, R91, R148). DESIGN CHOICE (log 19). -/
def State.cacheLine (s : State) (k c b : Nat) : State :=
  if !busOk b || s.silent b || s.hostAbsent b || isDoorbell b then s
  else s.modStack k fun t =>
    let ls := (vget t.cache (c / 4) []).filter fun l => l != b / 64
    { t with cache := vset t.cache (c / 4) ((b / 64 :: ls).take (2 ^ 18)) }

/-- Translate for a read, a write or a fetch: the bus address, or why it fails (R146). -/
def State.xlat (s : State) (k c ctx va : Nat) (w x : Bool) : Except XlatFail Nat :=
  match s.lookup k c ctx va with
  | .error e => .error e
  | .ok p => if (w && !p.w) || (x && !p.x) then .error .perm else .ok (p.at va)

/-- The bus address of a context's virtual address as the dispatcher translates it: a fresh walk. -/
def State.dispXlat (s : State) (ctx : Nat) (va : W64) (w : Bool) : Option Nat :=
  if 2 ^ 48 ≤ va.toNat then none
  else match s.ctx? ctx with
    | none => none
    | some c => match walkFrom s va.toNat 4 c.root with
      | .ok p => if w && !p.w then none else some (p.at va.toNat)
      | .error _ => none

/-- The bus address of an access of the dispatcher, if it translates and its target answers. DESIGN CHOICE (log 66). -/
def State.dispAt (s : State) (ctx : Nat) (va : W64) (w : Bool) : Option Nat := match s.dispXlat ctx va w with
  | some b => if s.silent b || s.hostAbsent b then none else some b
  | none => none

/-- What does not answer an access of the dispatcher, a page table or the target: HOST-ABSENT or NO-ENDPOINT (R308, R311). -/
def State.dispLost (s : State) (ctx : Nat) (va : W64) : Option XlatFail :=
  if 2 ^ 48 ≤ va.toNat then none
  else match s.ctx? ctx with
    | none => none
    | some c => match walkFrom s va.toNat 4 c.root with
      | .ok p => if s.hostAbsent (p.at va.toNat) then some .host else if s.silent (p.at va.toNat) then some .noEnd else none
      | .error .host => some .host
      | .error .noEnd => some .noEnd
      | .error _ => none

/-- `n` bytes of a context's memory as the dispatcher reads them, if every one can be read. -/
def State.dispBytes (s : State) (ctx : Nat) (va : W64) (n : Nat) : Option (List Byte) :=
  (List.range n).mapM fun i => (s.dispAt ctx (va + BitVec.ofNat 64 i) false).map fun b => s.busByte Place.device b

/-- A 64-bit word of a context's memory as the dispatcher reads it. -/
def State.dispWord (s : State) (ctx : Nat) (va : W64) : Option W64 :=
  (s.dispAt ctx va false).map fun b => BitVec.ofNat 64 (s.busNat b 8)

/-- Store a 64-bit word of a context's memory at device scope. -/
def State.dispStore (s : State) (ctx : Nat) (va v : W64) : Option State :=
  (s.dispAt ctx va true).map fun b => s.busPut b 8 v.toNat

/-! ## The domain (R310) -/

/-- One word of export entry `n`. -/
def State.exportWord (s : State) (n w : Nat) : Nat := (vget s.exports (4 * n + w) 0).toNat

/-- An export entry is enabled and holds a window offset. -/
def State.exportHolds (s : State) (n ofs : Nat) : Bool :=
  let size := fld (s.exportWord n 2) 0 28
  let lo := fld (s.exportWord n 0) 21 28
  size != 0 && lo ≤ ofs / 2 ^ 21 && ofs / 2 ^ 21 < lo + size

/-- What a domain access to this device's window is resolved to: a bus address, or none for NO-ENDPOINT (R310, R311). -/
def State.exportAt (s : State) (from_ ofs : Nat) (write : Bool) : Option Nat :=
  match (List.range 64).find? fun n => s.exportHolds n ofs with
  | none => none
  | some n =>
    let pm := s.exportWord n 3
    let lo := fld (s.exportWord n 0) 21 28
    let bus := fld (s.exportWord n 1) 21 31 * 2 ^ 21 + (ofs - lo * 2 ^ 21)
    let allowed := fld pm 0 14 ≤ from_ && from_ ≤ fld pm 16 14 && (if write then fld pm 31 1 == 1 else fld pm 30 1 == 1)
    let answers := busOk bus && !s.silent bus && !s.hostAbsent bus
    if allowed && answers then some bus else none

/-- The ports of a destination's routing entry, without those that are fenced (R313, R314). -/
def State.portsTo (s : State) (dev : Nat) : List Nat :=
  let e := (Sparse.get s.routes dev).toNat
  ((List.range (fld e 28 2 + 1)).map fun i => fld e (7 * i) 7).filter fun p => !s.fenced.contains (.port p)

/-- The port that an access from a device to another takes: the entry's port number (source mod count), if it has a port (R313, R314). -/
def State.portFor (s : State) (src dev : Nat) : Option Nat := (s.portsTo dev)[src % (s.portsTo dev).length]?

/-- A destination device has a route, or is this device (R313, R314): its entry names a port that is not fenced. -/
def State.routed (s : State) (dev : Nat) : Bool := dev == Config.ownDevice || (s.portFor Config.ownDevice dev).isSome

/-- An access leaves for another device, by its port (R313). -/
def State.send (s : State) (src dev : Nat) : State := match s.portFor src dev with
  | some p => { s with sent := s.sent ++ [(src, dev, p)] }
  | none => s

/-! ## What a task has used (R302) -/

/-- The region of DRAM or the CXL port behind a bus address (R292). -/
def busUnit (b : Nat) : Option HwUnit :=
  if isDram b then some (.dram (b / 2 ^ 30)) else if isTier2 b then some (.cxl (b / 4096 % 4)) else none

/-- A task has used units: those it stood on, and those its accesses reached (R302). DEDUCED (log 13). -/
def State.noteUse (s : State) (task : Nat) (us : List HwUnit) : State :=
  { s with tasks := s.tasks.map fun k => if k.num == task then { k with used := k.used ++ us.filter fun u => !k.used.contains u } else k }

/-- An error was counted on a unit that the task has used (R302). -/
def Task.errors (k : Task) : Bool := k.counted.any k.used.contains

/-! ## The digest (R296) -/

/-- What one store folds into the digest (R296). -/
def foldOf (addr : W64) (size : Nat) (value : W64) : W64 :=
  let h := (addr ^^^ (BitVec.ofNat 64 size <<< 58)) * 0x9E3779B97F4A7C15
  let h := h ^^^ value
  let h := h * 0xC2B2AE3D27D4EB4F
  h ^^^ (h >>> 31)

/-- Fold a store into a strand's digest. -/
def Strand.fold (t : Strand) (addr : W64) (size : Nat) (value : W64) : Strand :=
  { t with digest := t.digest + foldOf addr size value }

/-- The task digest of the strands' digests in logical order (R298). -/
def taskDigest (ds : List W64) : W64 :=
  ds.foldl (fun t d =>
    let t := (t ^^^ d) * 0x9E3779B97F4A7C15
    t ^^^ (t >>> 29)) 0

end Sys2Proof.Machine
end

