-- ==== Sys2Proof/Machine/Seq.lean ====
section
/-! DEFINITION. Instruction caches, fetching a bundle's bytes (R91 to R95), and sequencing: delay bundles and hardware
loops (R89, R111, R112). -/

namespace Sys2Proof.Machine

/-! ## Cache partitions (R91, R94, R95) -/

/-- The line of a partition with a virtual line number. -/
def lineOf (ls : List Line) (n : Nat) : Option Line := ls.find? fun l => l.tag == n
/-- The bytes a partition holds for a line. -/
def lineBytes (ls : List Line) (n : Nat) : Option (List Byte) :=
  match lineOf ls n with
  | some l => l.bytes
  | none => none

/-- The least recently issued unpinned line of a set, if the set has one. DESIGN CHOICE (log 65): of equals the one that stands
first, the latest placed; a line that has not issued counts from the beat it was filled. -/
def victim (ls : List Line) (sets n : Nat) : Option Line :=
  (ls.filter fun l => l.tag % sets == n % sets && !l.pinned).foldl
    (fun a l => match a with
      | none => some l
      | some b => if l.used < b.used then some l else some b) none

/-- Place a line in a partition of `sets` sets of four ways: it takes the place of the same line that was empty, keeping its pin, or
of a free way, or of the set's least recently issued unpinned way (R91). -/
def placeLine (ls : List Line) (sets : Nat) (l : Line) : List Line :=
  match lineOf ls l.tag with
  | some old => { l with pinned := old.pinned || l.pinned } :: ls.filter fun m => m.tag != l.tag
  | none =>
    if (ls.filter fun m => m.tag % sets == l.tag % sets).length < 4 then l :: ls
    else match victim ls sets l.tag with
      | some v => l :: ls.filter fun m => m.tag != v.tag
      | none => ls

/-- The pins held in a line's set. -/
def pinsIn (ls : List Line) (sets n : Nat) : Nat := (ls.filter fun m => m.tag % sets == n % sets && m.pinned).length

/-- Sets of an L0 and an L1 partition (R91). -/
def l0Sets : Nat := 16
/-- Sets of an L1 partition. -/
def l1Sets : Nat := 256

/-- Lines overlapping `n` bytes from an address (R93); none where `n` is 0. DESIGN CHOICE (log 65): a range that passes 2^64 does not
wrap, and its lines there translate to nothing. -/
def linesOf (a n : Nat) : List Nat :=
  if n == 0 then [] else (List.range ((a + n - 1) / 64 - a / 64 + 1)).map fun i => a / 64 + i

/-! ## Reading a bundle's bytes -/

/-- Where the fetch of a strand's core reads memory: its slice cache (R91, R95). -/
def Strand.fetchPlace (t : Strand) (co : Core) : Place := { stack := t.stack, core := co.phys, sid := 0, cl := 4 }

/-- The bus address of a virtual line that a core fetches, or why it does not translate with execute permission (R92). -/
def State.lineBus (s : State) (t : Strand) (co : Core) (n : Nat) : Except XlatFail Nat :=
  if 2 ^ 48 ≤ 64 * n then .error .address else s.xlat t.stack co.phys t.ctx (64 * n) false true

/-- A virtual line holds poisoned data beyond L1 (R290). -/
def State.linePoisoned (s : State) (t : Strand) (co : Core) (n : Nat) : Bool := match s.lineBus t co n with
  | .ok b => s.poisonedRange (t.fetchPlace co) b 64
  | .error _ => false

/-- The 64 bytes of a virtual line for a core: from its L1 partition, or as a fetch beyond L1 reads them (R91, R92); none where the
line does not translate with execute permission, its memory does not answer, or it is poisoned. -/
def State.lineFor (s : State) (t : Strand) (co : Core) (n : Nat) : Option (List Byte) := match lineBytes co.l1 n with
  | some bs => some bs
  | none => match s.lineBus t co n with
    | .ok b => if s.silent b || s.hostAbsent b || s.linePoisoned t co n then none else some (s.busBytes (t.fetchPlace co) b 64)
    | .error _ => none

/-- Fetch a virtual line into a core's L1 partition, through the slice cache, unless it is there (R91, R147): none where it cannot be
fetched. -/
def State.fetchL1 (s : State) (r : CoreRef) (n : Nat) : Option (State × List Byte) :=
  match s.strand? r.strand with
  | none => none
  | some t => match t.cores[r.core]? with
    | none => none
    | some co => match s.lineFor t co n with
      | none => none
      | some bs =>
        if (lineBytes co.l1 n).isSome then some (s, bs)
        else
          let s := match s.lineBus t co n, s.lookup t.stack co.phys t.ctx (64 * n) with
            | .ok b, .ok p => ((s.tlbFill t.stack co.phys t.ctx p).cacheLine t.stack co.phys b).noteUse t.task (busUnit b).toList
            | _, _ => s
          some (s.modStrand r.strand fun t => t.modCore r.core fun co =>
            { co with l1 := placeLine co.l1 l1Sets { tag := n, bytes := some bs, pinned := false, used := t.beat } }, bs)

/-- The mark of a line that an error has struck, as the partition holds it (R290). -/
def lineBad (ls : List Line) (n : Nat) : Bool := (lineOf ls n).any (·.bad)

/-- A cluster's L0 partition becomes `ls`. A line that leaves it still serves the bundles that were looked up in it, which issue
before beat `upto` (R92, R95). -/
def Cluster.setL0 (c : Cluster) (upto : Nat) (ls : List Line) : Cluster :=
  let kept (l : Line) : Bool := l.bytes.isNone || ls.any fun m => m.tag == l.tag && m.bytes == l.bytes
  { c with l0 := ls, gone := c.gone ++ (c.l0.filter fun l => !kept l).map fun l => (upto, l) }

/-- The lines that a bundle of a beat issues from: those that were looked up for it, then the partition (R92). -/
def Cluster.issueLines (c : Cluster) (x : Nat) : List Line := ((c.gone.filter fun g => x < g.1).map (·.2)) ++ c.l0

/-- A core's L1 partition holds a line that an error has struck: a copy of it carries the mark (R290). -/
def Strand.lineStruck (t : Strand) (core n : Nat) : Bool := (t.cores[core]?).any fun co => lineBad co.l1 n

/-- Fetch a virtual line into a cluster's L0 partition, through its core's L1, unless it is there (R91): none where it cannot be
fetched. -/
def State.fetchInL0 (s : State) (r : CRef) (n : Nat) : Option State := match s.fetchL1 { strand := r.strand, core := r.core } n with
  | none => none
  | some (s, bs) => some (s.modStrand r.strand fun t => t.modCl r.core r.cl fun c =>
      if (lineBytes c.l0 n).isSome then c
      else c.setL0 (t.beat + 8) (placeLine c.l0 l0Sets
        { tag := n, bytes := some bs, pinned := false, used := t.beat, bad := t.lineStruck r.core n }))

/-- Invalidate the lines of a range in every partition of a strand, with their pins (R95). Bundles that issue before beat `upto` have
been looked up. -/
def Strand.invalidate (t : Strand) (upto a n : Nat) : Strand :=
  let keep (ls : List Line) : List Line := ls.filter fun l => !(linesOf a n).contains l.tag
  { t with cores := t.cores.map fun c =>
      (List.range 4).foldl (fun c k => c.modCl k fun x => x.setL0 upto (keep x.l0)) { c with l1 := keep c.l1 } }

/-- The words that stand in an L0 partition from an address on, at most `n`, up to the first missing line. -/
def l0Words (ls : List Line) : Nat → Nat → List W32
  | 0, _ => []
  | n + 1, a => match lineBytes ls (a / 64) with
    | none => []
    | some bs => BitVec.ofNat 32 (natOfBytes ((bs.drop (a % 64)).take 4)) :: l0Words ls n (a + 4)

/-- What the fetch unit finds for the bundle at an address. -/
inductive Fetched where
  | bundle (b : Bundle)
  | illegal
  | missing (line : Nat)
  deriving DecidableEq, Repr

/-- The bundle at an address, from L0 alone (R76, R92). A bundle that needs a word past the last line present finds that
line missing. -/
def fetchL0 (ls : List Line) (pc : Nat) : Fetched :=
  if pc % 4 != 0 then .illegal
  else
    let ws := l0Words ls 8 pc
    match decodeBundle ws with
    | .ok b => .bundle b
    | .error e =>
      if ws.length < 8 && (e == .tooLong || e == .literal || ws.isEmpty) then .missing ((pc + 4 * ws.length) / 64)
      else .illegal

/-- The first line that a bundle touches and an error has struck (R290). Of a bundle whose length its words do not show, all that it
may touch counts. -/
def struckLine (ls : List Line) (pc : Nat) : Option Nat :=
  if pc % 4 != 0 then none
  else
    let len := match fetchL0 ls pc with
      | .bundle b => b.len
      | _ => (framedLen (l0Words ls 8 pc)).getD 8
    (linesOf pc (4 * len)).find? (lineBad ls)

/-- The length in bytes of the bundle at an address, as some lines, the L1 partition or else memory hold it; none where its
syllables cannot be told. It is what the checks of R89 and R112 on the bundles ahead read. -/
def State.bundleLen (s : State) (t : Strand) (co : Core) (ls : List Line) (pc : Nat) : Option Nat :=
  let lineAt (n : Nat) : List Byte := match lineBytes ls n with
    | some bs => bs
    | none => (s.lineFor t co n).getD []
  let first := (lineAt (pc / 64)).drop (pc % 64)
  let bs := if pc % 64 ≤ 32 || first.isEmpty then first else first ++ lineAt (pc / 64 + 1)
  if pc % 4 != 0 then none
  else match decodeBytes bs with
    | .ok b => some (4 * b.len)
    | .error _ => (framedLen (wordsOf bs)).map fun n => 4 * n

/-! ## Sequencing (R89, R111, R112) -/

/-- An address lies in a loop's body. -/
def Loop.holds (l : Loop) (a : Nat) : Bool := match l.start with
  | some b => b ≤ a && a < l.stop
  | none => false

/-- End the outermost active loop whose body an address lies outside, and every loop nested in it (R112). -/
def exitLoops (a : Nat) : List Loop → List Loop
  | [] => []
  | l :: ls =>
    let rest := exitLoops a ls
    if rest.length < ls.length then rest
    else if l.holds a then l :: ls
    else ls

/-- Go on at an address that follows a bundle: the innermost loop that ends there repeats or ends, then the next is
tested (R111, R112). -/
def loopNext (next : Nat) : List Loop → Nat × List Loop
  | [] => (next, [])
  | l :: ls =>
    if l.stop == next && l.start.isSome then
      if l.iter + 1 < l.total then (l.start.getD next, { l with iter := l.iter + 1 } :: ls)
      else loopNext next ls
    else (next, l :: ls)

/-- The sequence goes on at `next` after a bundle of an active loop's body: only loops whose body holds the bundle are tested
(R111). -/
def Seq.goOn (q : Seq) (next : Nat) : Seq :=
  let inside := q.loops.takeWhile fun l => l.holds q.pc
  let rest := q.loops.dropWhile fun l => l.holds q.pc
  let r := loopNext next inside
  { pc := r.1, pos := 0, tgt := none, exits := false, loops := r.2 ++ rest }

/-- The sequence after the bundle at `pc` of `len` bytes has issued, where that bundle was no transfer. A LOOP of no trip whose End
ends an enclosing loop's body ends that body's trip (R111; DEDUCED, log 31). -/
def Seq.advance (q : Seq) (len : Nat) : Seq :=
  let next := q.pc + len
  if q.pos == 1 then { q with pc := next, pos := 2 }
  else if q.pos == 2 then
    match q.tgt with
    | some t =>
      if q.skips then q.goOn t
      else { pc := t, pos := 0, tgt := none, exits := false, loops := if q.exits then exitLoops t q.loops else q.loops }
    | none => { pc := next, pos := 0, tgt := none, exits := false,
                loops := q.loops.map fun l => if l.start.isNone then { l with start := some next } else l }
  else q.goOn next

/-- The sequence after a transfer at `pc` has issued: its delay bundles come next, then the target, or the bundle after
them (R89). -/
def Seq.transfer (q : Seq) (len : Nat) (tgt : Option Nat) (exits : Bool) : Seq :=
  { q with pc := q.pc + len, pos := 1, tgt, exits, skips := false }

/-- A LOOP or LOOPL of `total` trips has issued: its counter becomes active, or of no trip, End comes after its delay bundles (R111). -/
def Seq.looped (q : Seq) (len ctr stop total : Nat) : Seq :=
  if total == 0 then { q.transfer len (some stop) false with skips := true }
  else { q.transfer len none false with loops := { ctr, start := none, stop, total, iter := 0 } :: q.loops }

/-- The counter of an active loop (R111): its iteration, or 0. -/
def Seq.lc (q : Seq) (n : Nat) : Nat := match q.loops.find? fun l => l.ctr == n with
  | some l => l.iter
  | none => 0

/-- A bundle that an active loop's End cuts (R112). -/
def Seq.crosses (q : Seq) (len : Nat) : Bool := q.loops.any fun l => l.holds q.pc && l.stop < q.pc + len

/-- A bundle from `a` that ends at an active loop's End, from inside its body. -/
def Seq.endsLoop (q : Seq) (a len : Nat) : Bool := q.loops.any fun l => l.holds a && l.stop == a + len

/-- A transfer's placement breaks R89: in a delay bundle, or it or one of its delay bundles is the last bundle of an
active loop's body. `d1` and `d2` are the lengths of its delay bundles, where they can be known. -/
def Seq.badTransfer (q : Seq) (len : Nat) (d1 d2 : Option Nat) : Bool :=
  q.pos != 0 || q.endsLoop q.pc len ||
  (match d1 with
    | none => false
    | some n => q.endsLoop (q.pc + len) n || (match d2 with
      | none => false
      | some m => q.endsLoop (q.pc + len + n) m))

/-- A LOOP's placement breaks R79 or R112: a counter already active, an End beyond that of an enclosing loop, or no bundle
in the body. -/
def Seq.badLoop (q : Seq) (len ctr stop : Nat) (d1 d2 : Option Nat) : Bool :=
  q.loops.any (fun l => l.ctr == ctr) || q.loops.any (fun l => l.holds q.pc && l.stop < stop) || stop ≤ q.pc + len ||
  (match d1 with
    | none => false
    | some n => match d2 with
      | none => stop ≤ q.pc + len + n
      | some m => stop ≤ q.pc + len + n + m)

end Sys2Proof.Machine
end

