-- ==== Sys2Proof/Machine/Operands.lean ====
section
/-! DEFINITION. Every operand form: vector sources (R80, R105), register-file operands (R81), scratchpad addresses (R132,
R217), memory addresses (R144, R214), stamps and engine queues (R83, R185), capacity claims (R133, R134), elastic queue
entries (R224), and the draw check of a region (R246, R276). -/

namespace Sys2Proof.Machine

/-! ## Syllables under their guard -/

/-- Run an S syllable: nothing but its flags where its guard is false (R78, R150). -/
def onS (h : SHead) (s : State) (f : View → State) : Host.Outcome State Fault Refusal :=
  withView s fun v => if v.guard h.neg h.g then f v else s

/-- Run an M or X syllable: nothing where its guard is false (R78). -/
def onMX (h : Head) (s : State) (f : View → State) : Host.Outcome State Fault Refusal :=
  withView s fun v => if v.guard h.neg h.g then f v else s

/-! ## Vector sources (R80, R105) -/

/-- The queue a source reads, if it reads one. -/
def srcQueue : VSrc → Option (BitVec 2)
  | .pop n => some n
  | .keep n => some n
  | _ => none

/-- The queue a source pops. -/
def srcPops : VSrc → Option (BitVec 2)
  | .pop n => some n
  | _ => none

/-- A queue of the context. -/
def Cluster.queueOf (c : Cluster) (n : BitVec 2) : List Lanes := vget c.q n.toNat []

/-- A source's vector as the bundle reads it. -/
def View.src (v : View) : VSrc → Lanes
  | .o n => vget v.cl.o n.toNat (splat 0)
  | .l n => vget v.cl.l n.toNat (splat 0)
  | .pop n => (v.cl.queueOf n).headD (splat 0)
  | .keep n => (v.cl.queueOf n).headD (splat 0)
  | .zero => splat 0
  | .lane => mkLanes fun i => BitVec.ofNat 32 i
  | .imm w => splat w
  | .sreg r => splat (low32 (v.rs r))

/-- A stored source's vector (R82, R219). -/
def View.osrc (v : View) : OSrc → Lanes
  | .o n => vget v.cl.o n.toNat (splat 0)
  | .l n => vget v.cl.l n.toNat (splat 0)

/-- A source reads a queue that holds no appended entry (R105). -/
def View.dry (v : View) (a : VSrc) : Bool := match srcQueue a with
  | some n => (v.cl.queueOf n).isEmpty
  | none => false

/-- Pop the queues the sources pop, each once (R80). -/
def Cluster.pop (c : Cluster) (as : List VSrc) : Cluster :=
  (as.filterMap srcPops).eraseDups.foldl (fun c n => { c with q := vset c.q n.toNat (c.queueOf n).tail }) c

/-- A draw level exceeds the region's level at a beat (R246, R247): checked only inside a region, which a RELP ends after
its beat. -/
def Region.exceeds (r : Region) (beat lvl : Nat) : Bool :=
  r.on && r.level < lvl && r.falls.all fun f => !f.2.2 || beat ≤ f.1

/-- Run a V syllable that reads `as` and draws at level `lvl`: QUEUE where a queue it reads is empty, OVERCURRENT where
its draw exceeds the region's level; otherwise its pops are taken and `f` goes on (R105, R165, R246). -/
def onV (lvl : Nat) (as : List VSrc) (s : State) (f : View → State → State) : Host.Outcome State Fault Refusal :=
  withView s fun v =>
    if as.any v.dry then v.raise s cQueue
    else if v.st.region.exceeds v.cur.beat lvl then v.raise s cOver 0 lvl
    else f v (v.modCl s fun c => c.pop as)

/-- A vector result lands `lat` beats from now in its active lanes (R103, R165). -/
def View.landV (v : View) (s : State) (lat : Nat) (h : Head) (d : VDst) (x : Lanes) : State :=
  v.land s lat 1 (.vec v.cur.cl d (v.active h) x)

/-- The addend of VFMA and VDOT4 (R166). -/
def View.addend (v : View) : VDst → Lanes
  | .o n => vget v.cl.o n.toNat (splat 0)
  | .last => vget v.cl.l 0 (splat 0)

/-! ## Register-file operands (R81) -/

/-- The row and column lane `j` of a direction and index selects. -/
def planeAt (dir k j : Nat) : Nat × Nat :=
  if dir == 0 then (k, j) else if dir == 1 then (j, k) else if dir == 2 then (j, (j + k) % 64) else (j, (k + 64 - j) % 64)

/-- The keys of the 64 elements an operand selects, lane 0 first. -/
def planeKeys (p dir k : Nat) : List Nat := (List.range 64).map fun j => let e := planeAt dir k j; cellKey p e.1 e.2

/-- Run a syllable with a register-file operand: BOUNDS for a plane outside the footprint, whatever the guard (R81). -/
def onPlane (h : Head) (p : BitVec 5) (s : State) (f : View → State) : Host.Outcome State Fault Refusal :=
  withView s fun v =>
    if v.st.fp.planes ≤ p.toNat then v.raise s cBounds (BitVec.ofNat 64 p.toNat)
    else if v.guard h.neg h.g then f v else s

/-- DRAW (R106, R215): the elements the operand selects, appended at b + 6; QUEUE where the entries held and in flight
number 8; POISON where an element is poisoned (R290). DEDUCED (log 74): an entry that the V syllable of its bundle pops is held no more. -/
def View.draw (v : View) (s : State) (q : BitVec 2) (p dir k : Nat) : State :=
  let flying := (v.co.agenda.filter fun t => match t.act with
    | .append c n _ => c == v.cur.cl && n == q.toNat
    | _ => false).length
  let keys := planeKeys p dir k
  if 8 ≤ (v.cl.queueOf q).length + flying then v.raise s cQueue
  else match keys.find? fun i => v.co.planePoison.contains i with
    | some i => v.raise s cPoison (BitVec.ofNat 64 i)
    | none => v.land s 6 2 (.append v.cur.cl q.toNat (lanesOf (keys.map fun i => Sparse.get v.co.planes i)))

/-- PUT (R106, R216): lane `j` into the element it selects, visible from b + 4. -/
def View.put (v : View) (s : State) (p dir k : Nat) (x : Lanes) : State :=
  v.store s 4 (.plane p ((planeKeys p dir k).zip (lanesList x)))

/-! ## Scratchpad (R132, R133, R217) -/

/-- A scratchpad address, and the range from it, lie in the strand's banks (R132). -/
def Footprint.spadOk (fp : Footprint) (a n : Nat) : Bool := a < fp.banks * 2 ^ 17 && a + n ≤ fp.banks * 2 ^ 17

/-- The bank group that holds a scratchpad address (R59, R132). -/
def Core.group (c : Core) (a : Nat) : Nat := c.units.banks.getD (a / 2 ^ 17) 0 / 8

/-- The poisoned word of a scratchpad range, if any. Words are of four bytes. -/
def Core.spadBad (c : Core) (a n : Nat) : Option Nat := c.spadPoison.find? fun w => a < 4 * w + 4 && 4 * w < a + n

/-- The bytes of a scratchpad range. -/
def Core.spadBytes (c : Core) (a n : Nat) : List Byte := Sparse.getN c.spad a n

/-- Claim capacity for the bundle being issued (R134); the claim is checked once every bundle of the beat has issued. -/
def View.claim (v : View) (s : State) (lat a rd wr : Nat) : State :=
  v.modCore s fun c =>
    { c with pending := c.pending ++ [⟨v.cur.cl, some { beat := v.cur.beat + lat, group := c.group a, rd, wr }, none,
      v.cur.shadow⟩] }

/-- The scratchpad address of a base register and a signed scaled offset (R217). -/
def View.spadAddr (v : View) (k : Reg) (f : BitVec 7) (scale : Nat) : W64 :=
  v.rs k + f.signExtend 64 * BitVec.ofNat 64 scale

/-- A tag comparison fails (R73, R74), and no write that the bundle would wait for sets the tag (R286). -/
def View.tagBad (v : View) (a : Nat) (tag : Option Byte) : Bool := match tag with
  | none => false
  | some t => v.st.tagck && Sparse.get v.co.tags (a / 4096) != t && !v.co.coming.contains (a / 4096, t)

/-- A scratchpad access of `n` bytes at an address: BOUNDS where it is outside the banks or misaligned (R132, R214). -/
def View.onSpad (v : View) (s : State) (a : W64) (n : Nat) (f : Nat → State) : State :=
  if a.toNat % n != 0 || !v.st.fp.spadOk a.toNat n then v.raise s cBounds a else f a.toNat

/-- SLD and SLDS (R217, R218): the bytes at beat b, landing at b + 8. -/
def View.spadLoad (v : View) (s : State) (a : W64) (n : Nat) (tag : Option Byte) (act : List Byte → Act) : State :=
  v.onSpad s a n fun x =>
    if v.tagBad x tag then v.raise s cSchedule a (tag.getD 0).toNat
    else match v.co.spadBad x n with
      | some w => v.raise (v.claim s 0 x n 0) cPoison (BitVec.ofNat 64 (4 * w))
      | none => v.land (v.claim s 0 x n 0) 8 2 (act (v.co.spadBytes x n))

/-- SST and SSTS (R217, R218): bytes and tag visible from b + 4. -/
def View.spadStore (v : View) (s : State) (a : W64) (bs : List Byte) (tag : Option Byte) : State :=
  v.onSpad s a bs.length fun x =>
    let s := v.store (v.claim s 4 x 0 bs.length) 4 (.spad x bs [])
    match tag with
    | none => s
    | some t => v.store s 4 (.tag (x / 4096) t)

/-- The bytes of a vector, lane 0 first (R1). -/
def laneBytes (x : Lanes) : List Byte := (lanesList x).flatMap fun w => bytesOf 4 w.toNat
/-- The vector of 256 bytes. -/
def lanesFromBytes (bs : List Byte) : Lanes := lanesOf (wordsOf bs)

/-! ## Accumulator rows (R135, R136) -/

/-- The bank state of a core. -/
def Core.bank (c : Core) (b : Nat) : AccBank := vget c.banks b AccBank.zero

/-- The row's band names a cluster (R136). -/
def AccBank.owns (b : AccBank) (row cl : Nat) : Bool := bitAt b.own (4 * (row / 16) + cl)

/-- A row of a bank. -/
def Core.accRow (c : Core) (b r : Nat) : Lanes := mkLanes fun i => Sparse.get c.acc (cellKey b r i)

/-- A bank operand: BOUNDS at or beyond the footprint's count (R135). -/
def View.onBank (v : View) (s : State) (b : W64) (f : Nat → State) : State :=
  if v.st.fp.acc ≤ b.toNat then v.raise s cBounds b else f b.toNat

/-- A row access of a bank in the state asked for: BOUNDS, then ALLOC, then OWNERSHIP (R135, R136, R252). -/
def View.onRow (v : View) (s : State) (mode : BankMode) (b r : W64) (f : Nat → Nat → State) : State :=
  v.onBank s b fun bk =>
    if 64 ≤ r.toNat then v.raise s cBounds r
    else if (v.co.bank bk).mode != mode then v.raise s cAlloc b
    else if !(v.co.bank bk).owns r.toNat v.cur.cl then v.raise s cOwner b r.toNat
    else f bk r.toNat

/-! ## Memory addresses and elastic entries (R144, R214, R224) -/

/-- A memory access: ADDRESS where the address is not canonical or not aligned (R214). -/
def View.onMem (v : View) (s : State) (a : W64) (align : Nat) (f : State) : State :=
  if !canonical a || a.toNat % align != 0 then v.raise s cAddress a else f

/-- A new entry of an elastic queue. -/
def ElQueue.push (q : ElQueue) (iss : Nat) (op : ElOp) (depth : Nat) : ElQueue :=
  let e : Entry := { seq := q.next, iss, op, handler := depth, level := 0, value := none, words := [], fid := 0, ready := 0 }
  { entries := q.entries ++ [e], next := q.next + 1 }

/-- Take entries in the queues an instruction needs: QUEUE, and no entry, where one of them is full (R224). -/
def View.elastic (v : View) (s : State) (useLq useSq : Bool) (op : ElOp) : State :=
  if (useLq && 16 ≤ v.cl.lq.entries.length) || (useSq && 16 ≤ v.cl.sq.entries.length) then v.raise s cQueue
  else v.modCl s fun c =>
    { c with lq := if useLq then c.lq.push c.issued op v.cl.depth else c.lq,
             sq := if useSq then c.sq.push c.issued op v.cl.depth else c.sq, issued := c.issued + 1 }

/-- The scope level of a scope code (R214): core 2, stack 4, device 5, domain 6; a domain address acts at domain. -/
def scopeLevel (m : Nat) (a : W64) : Nat := if isDomain a then 6 else if m == 0 then 2 else if m == 1 then 4 else if m == 2 then 5 else 6

/-! ## Stamps and engine queues (R83, R141, R185) -/

/-- A stamp's start beat (R83). -/
def View.stamp (v : View) : Stamp → Nat
  | .rel n => v.cur.beat + n.toNat
  | .abs r => (v.rs r).toNat

/-- A queue of commands: an engine's or the block-transfer engine's. -/
inductive Unit' where
  | me | te | re | bte
  deriving DecidableEq, Repr

/-- The footprint names the engine. -/
def Footprint.names (fp : Footprint) : Unit' → Bool
  | .me => fp.me
  | .te => fp.te
  | .re => fp.re
  | .bte => fp.bte

/-- The engine of a core. -/
def Core.eng (c : Core) : Unit' → Engine
  | .me => c.me
  | .te => c.te
  | .re => c.re
  | .bte => c.bte

/-- Change an engine of a core. -/
def Core.modEng (c : Core) (u : Unit') (f : Engine → Engine) : Core := match u with
  | .me => { c with me := f c.me }
  | .te => { c with te := f c.te }
  | .re => { c with re := f c.re }
  | .bte => { c with bte := f c.bte }

/-- The engine a command word's Engine field names (R186). -/
def unitOf (e : BitVec 2) : Unit' := if e == 0 then .me else if e == 1 then .te else .re

/-- Insert a command, kept in order of start beat; equal stamps keep queue order (R141). -/
def insertCmd (c : Cmd) : List Cmd → List Cmd
  | [] => [c]
  | x :: xs => if c.stamp < x.stamp then c :: x :: xs else x :: insertCmd c xs

/-- Run a command: ILLEGAL where the footprint does not name the engine, whatever the guard (R78, R185). -/
def onEng (h : Head) (u : Unit') (s : State) (f : View → State) : Host.Outcome State Fault Refusal :=
  withView s fun v =>
    if !v.st.fp.names u then v.raise s cIllegal
    else if v.guard h.neg h.g then f v else s

/-- Why a command cannot enter a queue: SCHEDULE for a late stamp or, but for the block-transfer engine, one before the
queue's last, QUEUE where the queue is full (R141, R185). -/
def View.enqFault (v : View) (u : Unit') (st : Stamp) : Option Nat :=
  let t := v.stamp st
  let e := v.co.eng u
  if t < v.cur.beat || (u != .bte && t < e.last) then some cSchedule
  else if (if u == .bte then 32 else 16) ≤ e.q.length then some cQueue
  else none

/-- The command enters: it takes the queue's next sequence number (R141, R185). -/
def View.enter (v : View) (s : State) (u : Unit') (ins : Instr) (st : Stamp) (val : W64) (fmt : Nat) : State :=
  let t := v.stamp st
  v.modCore s fun c => c.modEng u fun e =>
    { e with q := insertCmd { seq := e.next, stamp := t, cl := v.cur.cl, ins, val, fmt } e.q, next := e.next + 1, last := t }

/-- Enter a command, or raise what forbids it. -/
def View.enqueue (v : View) (s : State) (u : Unit') (ins : Instr) (st : Stamp) (val : W64) (fmt : Nat := 0) : State :=
  match v.enqFault u st with
  | some c => v.raise s c
  | none => v.enter s u ins st val fmt

/-- The format-table index at issue (R113). -/
def View.fmtIndex (v : View) : Nat := (v.cl.fmtbase.toNat + v.cl.seq.lc v.cl.fmtsel.toNat) % 16

end Sys2Proof.Machine
end

