-- ==== Sys2Proof/Machine/Scalar.lean ====
section
/-! DEFINITION. Scalar arithmetic, compares and predicate logic (R150 to R157). One meaning per instruction. -/

namespace Sys2Proof.Machine

/-- A scalar result lands in `d` after `lat` beats (R107, R150). -/
def View.landS (v : View) (s : State) (lat : Nat) (d : Reg) (x : W64) : State := v.land s lat 0 (.scalar v.cur.cl d x)

/-- A predicate result lands in `d` after one beat (R110). -/
def View.landP (v : View) (s : State) (d : PReg) (x : W64) : State :=
  v.land s 1 0 (.pred v.cur.cl d.toNat x (BitVec.allOnes 64))

/-- A predicate as the bundle reads it. -/
def View.rp (v : View) (p : PReg) : W64 := v.cl.rp p.toNat

/-! ## The functions (R151 to R153) -/

/-- Shift left by the low six bits of `b`. -/
def shl64 (a b : W64) : W64 := a <<< (b.toNat % 64)
/-- Shift right, zeros in. -/
def shr64 (a b : W64) : W64 := a >>> (b.toNat % 64)
/-- Shift right, bit 63 copied in. -/
def sar64 (a b : W64) : W64 := a.sshiftRight (b.toNat % 64)
/-- Rotate left. -/
def rotl64 (a b : W64) : W64 := a.rotateLeft (b.toNat % 64)
/-- The smaller, signed. -/
def minI64 (a b : W64) : W64 := if b.slt a then b else a
/-- The smaller, unsigned. -/
def minN64 (a b : W64) : W64 := if b.ult a then b else a
/-- The larger, signed. -/
def maxI64 (a b : W64) : W64 := if a.slt b then b else a
/-- The larger, unsigned. -/
def maxN64 (a b : W64) : W64 := if a.ult b then b else a
/-- The high half of the signed product. -/
def mulhI64 (a b : W64) : W64 := BitVec.ofInt 64 (a.toInt * b.toInt / 2 ^ 64)
/-- The high half of the unsigned product. -/
def mulhN64 (a b : W64) : W64 := BitVec.ofNat 64 (a.toNat * b.toNat / 2 ^ 64)
/-- The signed quotient, truncated; 0 by zero (R152). -/
def divI64 (a b : W64) : W64 := BitVec.ofInt 64 (Int.tdiv a.toInt b.toInt)
/-- The unsigned quotient; 0 by zero. -/
def divN64 (a b : W64) : W64 := BitVec.ofNat 64 (a.toNat / b.toNat)
/-- The signed remainder, with the sign of `a`; `a` by zero. -/
def modI64 (a b : W64) : W64 := BitVec.ofInt 64 (Int.tmod a.toInt b.toInt)
/-- The unsigned remainder; `a` by zero. -/
def modN64 (a b : W64) : W64 := BitVec.ofNat 64 (a.toNat % b.toNat)

/-- The width field of BFX and BFI, at most 64 (R153). -/
def bfWidth (b : W64) : Nat := min (fld b.toNat 8 7) 64
/-- The position field. -/
def bfPos (b : W64) : Nat := fld b.toNat 0 6
/-- `w` ones. -/
def ones64 (w : Nat) : W64 := BitVec.ofNat 64 (2 ^ w - 1)
/-- BFX: the field, zero-extended. -/
def bfx64 (a b : W64) : W64 := (a >>> bfPos b) &&& ones64 (bfWidth b)
/-- BFI: the field of `d` replaced from `a`. -/
def bfi64 (d a b : W64) : W64 :=
  let mask := ones64 (bfWidth b) <<< bfPos b
  (d &&& ~~~mask) ||| ((a <<< bfPos b) &&& mask)

/-- LEA's check: a local address with a reserved bit raises ADDRESS and writes nothing (R154). -/
def View.lea (v : View) (s : State) (d : Reg) (x : W64) : State :=
  if canonical x then v.landS s 1 d x else v.raise s cAddress x

/-! ## Register forms -/

/-- ADD (R151). -/
def execAdd (h : SHead) (d a b : Reg) (s : State) : Host.Outcome State Fault Refusal :=
  onS h s fun v => v.landS s 1 d (v.rs a + v.rs b)

/-- SUB (R151). -/
def execSub (h : SHead) (d a b : Reg) (s : State) : Host.Outcome State Fault Refusal :=
  onS h s fun v => v.landS s 1 d (v.rs a - v.rs b)

/-- AND (R151). -/
def execAnd (h : SHead) (d a b : Reg) (s : State) : Host.Outcome State Fault Refusal :=
  onS h s fun v => v.landS s 1 d (v.rs a &&& v.rs b)

/-- OR (R151). -/
def execOr (h : SHead) (d a b : Reg) (s : State) : Host.Outcome State Fault Refusal :=
  onS h s fun v => v.landS s 1 d (v.rs a ||| v.rs b)

/-- XOR (R151). -/
def execXor (h : SHead) (d a b : Reg) (s : State) : Host.Outcome State Fault Refusal :=
  onS h s fun v => v.landS s 1 d (v.rs a ^^^ v.rs b)

/-- ANDN (R151). -/
def execAndn (h : SHead) (d a b : Reg) (s : State) : Host.Outcome State Fault Refusal :=
  onS h s fun v => v.landS s 1 d (v.rs a &&& ~~~v.rs b)

/-- SHL (R151). -/
def execShl (h : SHead) (d a b : Reg) (s : State) : Host.Outcome State Fault Refusal :=
  onS h s fun v => v.landS s 1 d (shl64 (v.rs a) (v.rs b))

/-- SHR (R151). -/
def execShr (h : SHead) (d a b : Reg) (s : State) : Host.Outcome State Fault Refusal :=
  onS h s fun v => v.landS s 1 d (shr64 (v.rs a) (v.rs b))

/-- SAR (R151). -/
def execSar (h : SHead) (d a b : Reg) (s : State) : Host.Outcome State Fault Refusal :=
  onS h s fun v => v.landS s 1 d (sar64 (v.rs a) (v.rs b))

/-- ROTL (R151). -/
def execRotl (h : SHead) (d a b : Reg) (s : State) : Host.Outcome State Fault Refusal :=
  onS h s fun v => v.landS s 1 d (rotl64 (v.rs a) (v.rs b))

/-- MUL (R152). -/
def execMul (h : SHead) (d a b : Reg) (s : State) : Host.Outcome State Fault Refusal :=
  onS h s fun v => v.landS s 3 d (v.rs a * v.rs b)

/-- MULHI (R152). -/
def execMulhI (h : SHead) (d a b : Reg) (s : State) : Host.Outcome State Fault Refusal :=
  onS h s fun v => v.landS s 3 d (mulhI64 (v.rs a) (v.rs b))

/-- MULHN (R152). -/
def execMulhN (h : SHead) (d a b : Reg) (s : State) : Host.Outcome State Fault Refusal :=
  onS h s fun v => v.landS s 3 d (mulhN64 (v.rs a) (v.rs b))

/-- DIVI (R152). -/
def execDivI (h : SHead) (d a b : Reg) (s : State) : Host.Outcome State Fault Refusal :=
  onS h s fun v => v.landS s 12 d (divI64 (v.rs a) (v.rs b))

/-- DIVN (R152). -/
def execDivN (h : SHead) (d a b : Reg) (s : State) : Host.Outcome State Fault Refusal :=
  onS h s fun v => v.landS s 12 d (divN64 (v.rs a) (v.rs b))

/-- MODI (R152). -/
def execModI (h : SHead) (d a b : Reg) (s : State) : Host.Outcome State Fault Refusal :=
  onS h s fun v => v.landS s 12 d (modI64 (v.rs a) (v.rs b))

/-- MODN (R152). -/
def execModN (h : SHead) (d a b : Reg) (s : State) : Host.Outcome State Fault Refusal :=
  onS h s fun v => v.landS s 12 d (modN64 (v.rs a) (v.rs b))

/-- MINI (R151). -/
def execMinI (h : SHead) (d a b : Reg) (s : State) : Host.Outcome State Fault Refusal :=
  onS h s fun v => v.landS s 1 d (minI64 (v.rs a) (v.rs b))

/-- MINN (R151). -/
def execMinN (h : SHead) (d a b : Reg) (s : State) : Host.Outcome State Fault Refusal :=
  onS h s fun v => v.landS s 1 d (minN64 (v.rs a) (v.rs b))

/-- MAXI (R151). -/
def execMaxI (h : SHead) (d a b : Reg) (s : State) : Host.Outcome State Fault Refusal :=
  onS h s fun v => v.landS s 1 d (maxI64 (v.rs a) (v.rs b))

/-- MAXN (R151). -/
def execMaxN (h : SHead) (d a b : Reg) (s : State) : Host.Outcome State Fault Refusal :=
  onS h s fun v => v.landS s 1 d (maxN64 (v.rs a) (v.rs b))

/-- SEL: the guard chooses and never suppresses (R78, R154). -/
def execSel (h : SHead) (d a b : Reg) (s : State) : Host.Outcome State Fault Refusal :=
  withView s fun v => v.landS s 1 d (if v.guard h.neg h.g then v.rs a else v.rs b)

/-- CLZ (R151). -/
def execClz (h : SHead) (d a : Reg) (s : State) : Host.Outcome State Fault Refusal :=
  onS h s fun v => v.landS s 1 d (BitVec.ofNat 64 (leadingZeros (v.rs a)))

/-- POPC (R151). -/
def execPopc (h : SHead) (d a : Reg) (s : State) : Host.Outcome State Fault Refusal :=
  onS h s fun v => v.landS s 1 d (BitVec.ofNat 64 (popcount (v.rs a)))

/-- BFX (R153). -/
def execBfx (h : SHead) (d a b : Reg) (s : State) : Host.Outcome State Fault Refusal :=
  onS h s fun v => v.landS s 1 d (bfx64 (v.rs a) (v.rs b))

/-- BFI: reads d at its issue beat (R153). -/
def execBfi (h : SHead) (d a b : Reg) (s : State) : Host.Outcome State Fault Refusal :=
  onS h s fun v => v.landS s 1 d (bfi64 (v.rs d) (v.rs a) (v.rs b))

/-- LEA (R154). -/
def execLea (h : SHead) (d a b : Reg) (s : State) : Host.Outcome State Fault Refusal :=
  onS h s fun v => v.lea s d (v.rs a + (v.rs b <<< 3))

/-- MOV (R154). -/
def execMov (h : SHead) (d a : Reg) (s : State) : Host.Outcome State Fault Refusal :=
  onS h s fun v => v.landS s 1 d (v.rs a)

/-! ## Literal forms (R155) -/

/-- ADDL (R155). -/
def execAddl (h : SHead) (d a : Reg) (w : W32) (s : State) : Host.Outcome State Fault Refusal :=
  onS h s fun v => v.landS s 1 d (v.rs a + sext w)

/-- SUBL (R155). -/
def execSubl (h : SHead) (d a : Reg) (w : W32) (s : State) : Host.Outcome State Fault Refusal :=
  onS h s fun v => v.landS s 1 d (v.rs a - sext w)

/-- ANDL (R155). -/
def execAndl (h : SHead) (d a : Reg) (w : W32) (s : State) : Host.Outcome State Fault Refusal :=
  onS h s fun v => v.landS s 1 d (v.rs a &&& sext w)

/-- ORL (R155). -/
def execOrl (h : SHead) (d a : Reg) (w : W32) (s : State) : Host.Outcome State Fault Refusal :=
  onS h s fun v => v.landS s 1 d (v.rs a ||| sext w)

/-- XORL (R155). -/
def execXorl (h : SHead) (d a : Reg) (w : W32) (s : State) : Host.Outcome State Fault Refusal :=
  onS h s fun v => v.landS s 1 d (v.rs a ^^^ sext w)

/-- ANDNL (R155). -/
def execAndnl (h : SHead) (d a : Reg) (w : W32) (s : State) : Host.Outcome State Fault Refusal :=
  onS h s fun v => v.landS s 1 d (v.rs a &&& ~~~sext w)

/-- SHLL (R155). -/
def execShll (h : SHead) (d a : Reg) (w : W32) (s : State) : Host.Outcome State Fault Refusal :=
  onS h s fun v => v.landS s 1 d (shl64 (v.rs a) (sext w))

/-- SHRL (R155). -/
def execShrl (h : SHead) (d a : Reg) (w : W32) (s : State) : Host.Outcome State Fault Refusal :=
  onS h s fun v => v.landS s 1 d (shr64 (v.rs a) (sext w))

/-- SARL (R155). -/
def execSarl (h : SHead) (d a : Reg) (w : W32) (s : State) : Host.Outcome State Fault Refusal :=
  onS h s fun v => v.landS s 1 d (sar64 (v.rs a) (sext w))

/-- ROTLL (R155). -/
def execRotll (h : SHead) (d a : Reg) (w : W32) (s : State) : Host.Outcome State Fault Refusal :=
  onS h s fun v => v.landS s 1 d (rotl64 (v.rs a) (sext w))

/-- MULL (R155). -/
def execMull (h : SHead) (d a : Reg) (w : W32) (s : State) : Host.Outcome State Fault Refusal :=
  onS h s fun v => v.landS s 3 d (v.rs a * sext w)

/-- MINI, literal form (R155). -/
def execMinlI (h : SHead) (d a : Reg) (w : W32) (s : State) : Host.Outcome State Fault Refusal :=
  onS h s fun v => v.landS s 1 d (minI64 (v.rs a) (sext w))

/-- MINN, literal form (R155). -/
def execMinlN (h : SHead) (d a : Reg) (w : W32) (s : State) : Host.Outcome State Fault Refusal :=
  onS h s fun v => v.landS s 1 d (minN64 (v.rs a) (sext w))

/-- MAXI, literal form (R155). -/
def execMaxlI (h : SHead) (d a : Reg) (w : W32) (s : State) : Host.Outcome State Fault Refusal :=
  onS h s fun v => v.landS s 1 d (maxI64 (v.rs a) (sext w))

/-- MAXN, literal form (R155). -/
def execMaxlN (h : SHead) (d a : Reg) (w : W32) (s : State) : Host.Outcome State Fault Refusal :=
  onS h s fun v => v.landS s 1 d (maxN64 (v.rs a) (sext w))

/-- MOVL (R155). -/
def execMovl (h : SHead) (d : Reg) (w : W32) (s : State) : Host.Outcome State Fault Refusal :=
  onS h s fun v => v.landS s 1 d (sext w)

/-- LEAL (R155). -/
def execLeal (h : SHead) (d a : Reg) (w : W32) (s : State) : Host.Outcome State Fault Refusal :=
  onS h s fun v => v.lea s d (v.rs a + sext w)

/-! ## Compares (R156) -/

/-- CMP, condition Eq (R156). -/
def execCmpEq (h : SHead) (d : PReg) (a b : Reg) (s : State) : Host.Outcome State Fault Refusal :=
  onS h s fun v => v.landP s d (predOf (v.rs a == v.rs b))

/-- CMP, condition Ne (R156). -/
def execCmpNe (h : SHead) (d : PReg) (a b : Reg) (s : State) : Host.Outcome State Fault Refusal :=
  onS h s fun v => v.landP s d (predOf (v.rs a != v.rs b))

/-- CMP, condition LtI (R156). -/
def execCmpLtI (h : SHead) (d : PReg) (a b : Reg) (s : State) : Host.Outcome State Fault Refusal :=
  onS h s fun v => v.landP s d (predOf ((v.rs a).slt (v.rs b)))

/-- CMP, condition GeI (R156). -/
def execCmpGeI (h : SHead) (d : PReg) (a b : Reg) (s : State) : Host.Outcome State Fault Refusal :=
  onS h s fun v => v.landP s d (predOf (!(v.rs a).slt (v.rs b)))

/-- CMP, condition LtN (R156). -/
def execCmpLtN (h : SHead) (d : PReg) (a b : Reg) (s : State) : Host.Outcome State Fault Refusal :=
  onS h s fun v => v.landP s d (predOf ((v.rs a).ult (v.rs b)))

/-- CMP, condition GeN (R156). -/
def execCmpGeN (h : SHead) (d : PReg) (a b : Reg) (s : State) : Host.Outcome State Fault Refusal :=
  onS h s fun v => v.landP s d (predOf (!(v.rs a).ult (v.rs b)))

/-- CMPL, condition Eq (R156). -/
def execCmplEq (h : SHead) (d : PReg) (a : Reg) (w : W32) (s : State) : Host.Outcome State Fault Refusal :=
  onS h s fun v => v.landP s d (predOf (v.rs a == sext w))

/-- CMPL, condition Ne (R156). -/
def execCmplNe (h : SHead) (d : PReg) (a : Reg) (w : W32) (s : State) : Host.Outcome State Fault Refusal :=
  onS h s fun v => v.landP s d (predOf (v.rs a != sext w))

/-- CMPL, condition LtI (R156). -/
def execCmplLtI (h : SHead) (d : PReg) (a : Reg) (w : W32) (s : State) : Host.Outcome State Fault Refusal :=
  onS h s fun v => v.landP s d (predOf ((v.rs a).slt (sext w)))

/-- CMPL, condition GeI (R156). -/
def execCmplGeI (h : SHead) (d : PReg) (a : Reg) (w : W32) (s : State) : Host.Outcome State Fault Refusal :=
  onS h s fun v => v.landP s d (predOf (!(v.rs a).slt (sext w)))

/-- CMPL, condition LtN (R156). -/
def execCmplLtN (h : SHead) (d : PReg) (a : Reg) (w : W32) (s : State) : Host.Outcome State Fault Refusal :=
  onS h s fun v => v.landP s d (predOf ((v.rs a).ult (sext w)))

/-- CMPL, condition GeN (R156). -/
def execCmplGeN (h : SHead) (d : PReg) (a : Reg) (w : W32) (s : State) : Host.Outcome State Fault Refusal :=
  onS h s fun v => v.landP s d (predOf (!(v.rs a).ult (sext w)))

/-! ## Predicate logic (R157) -/

/-- PAND (R157). -/
def execPand (h : SHead) (d a b : PReg) (s : State) : Host.Outcome State Fault Refusal :=
  onS h s fun v => v.landP s d (v.rp a &&& v.rp b)

/-- POR (R157). -/
def execPor (h : SHead) (d a b : PReg) (s : State) : Host.Outcome State Fault Refusal :=
  onS h s fun v => v.landP s d (v.rp a ||| v.rp b)

/-- PXOR (R157). -/
def execPxor (h : SHead) (d a b : PReg) (s : State) : Host.Outcome State Fault Refusal :=
  onS h s fun v => v.landP s d (v.rp a ^^^ v.rp b)

/-- PNOT (R157). -/
def execPnot (h : SHead) (d a : PReg) (s : State) : Host.Outcome State Fault Refusal :=
  onS h s fun v => v.landP s d (~~~(v.rp a))

/-- PFIRST (R157). -/
def execPfirst (h : SHead) (d a : PReg) (s : State) : Host.Outcome State Fault Refusal :=
  onS h s fun v => v.landP s d (v.rp a &&& (0 - v.rp a))

/-- PCOUNT (R157). -/
def execPcount (h : SHead) (d : Reg) (a : PReg) (s : State) : Host.Outcome State Fault Refusal :=
  onS h s fun v => v.landS s 1 d (BitVec.ofNat 64 (popcount (v.rp a)))

/-- PANY (R157). -/
def execPany (h : SHead) (d a : PReg) (s : State) : Host.Outcome State Fault Refusal :=
  onS h s fun v => v.landP s d (predOf (v.rp a != 0))

/-- PALL (R157). -/
def execPall (h : SHead) (d a : PReg) (s : State) : Host.Outcome State Fault Refusal :=
  onS h s fun v => v.landP s d (predOf (v.rp a == BitVec.allOnes 64))

end Sys2Proof.Machine
end

