-- ==== Sys2Proof/Machine/Control.lean ====
section
/-! DEFINITION. Control: NOP, HALT, the transfers, loops and the rendezvous (R89, R90, R111 to R114, R161 to R164), and the
special registers (R158 to R160, R240). -/

namespace Sys2Proof.Machine

/-! ## Sequencing -/

/-- The issuing bundle's length in bytes. -/
def View.len (v : View) : Nat := v.cur.next - v.cur.pc

/-- The lines from which the cluster issues its bundle `k` beats on (R92); a handler issues from its partition (R239). -/
def View.linesAt (v : View) (k : Nat) : List Line := if v.cur.handler then v.cl.l0 else v.cl.issueLines (v.cur.beat + k)

/-- The length of the first delay bundle, if it can be known. -/
def View.d1 (v : View) (s : State) : Option Nat := s.bundleLen v.st v.co (v.linesAt 1) v.cur.next
/-- The length of the second delay bundle, if it can be known. -/
def View.d2 (v : View) (s : State) : Option Nat := match v.d1 s with
  | none => none
  | some n => s.bundleLen v.st v.co (v.linesAt 2) (v.cur.next + n)

/-- Set the context's sequence; the issue leaves it as set. -/
def View.goto (v : View) (s : State) (q : Seq) : State :=
  let s := v.modCl s fun c => { c with seq := q }
  { s with cur := some { v.cur with moved := true } }

/-- A transfer (R89, R162): ILLEGAL where it is misplaced, whatever its guard; else its delay bundles come next, and then
the target where the guard holds. `f` is what a taken transfer also does. -/
def View.transfer (v : View) (s : State) (h : SHead) (tgt : Nat) (exits : Bool) (f : State → State) : State :=
  if v.cl.seq.badTransfer v.len (v.d1 s) (v.d2 s) then v.raise s cIllegal
  else if v.guard h.neg h.g then f (v.goto s (v.cl.seq.transfer v.len (some tgt) exits))
  else v.goto s (v.cl.seq.transfer v.len none false)

/-- The target of BR and CALL: the bundle's address plus 4 × offset, modulo 2^64 (R89). -/
def View.relTarget (v : View) (ofs : BitVec 15) : Nat :=
  (BitVec.ofNat 64 v.cur.pc + ofs.signExtend 64 * 4).toNat

/-- A register as JMP and RET read it: as eight beats earlier, but as it stands in scoreboard mode and while a trap bank is
in use (R90). -/
def View.rsJmp (v : View) (r : Reg) : W64 :=
  if v.cur.handler || v.cur.beat < v.cl.horizon then v.rs r else v.cl.rsBack v.cur.beat r

/-- In scoreboard mode the target of JMP and RET is looked up when they issue, eight beats late: no line that has left the partition by
then serves it, or a bundle after it (R90, R95). -/
def View.lookLate (v : View) (s : State) : State :=
  if v.cur.handler || v.cl.horizon ≤ v.cur.beat then s
  else v.modCl s fun c => { c with gone := c.gone.map fun g => (min g.1 (v.cur.beat + 3), g.2) }

/-- NOP carries its flags and does nothing (R161). -/
def execNop (_h : SHead) (s : State) : Host.Outcome State Fault Refusal := withView s fun _ => s

/-- HALT (R161, R239): the context issues nothing after this bundle. In a delay bundle it raises ILLEGAL (R89). In a
handler its bank keeps its record and no longer counts as in use (nor does the bank its handler interrupted). -/
def execHalt (h : SHead) (s : State) : Host.Outcome State Fault Refusal :=
  withView s fun v =>
    if v.cl.seq.pos != 0 then v.raise s cIllegal
    else if v.guard h.neg h.g then
      v.modCl s fun c =>
        { c with halted := true, ta := { c.ta with counts := false }, tb := { c.tb with counts := false } }
    else s

/-- BR (R162). -/
def execBr (h : SHead) (ofs : BitVec 15) (s : State) : Host.Outcome State Fault Refusal :=
  withView s fun v => v.transfer s h (v.relTarget ofs) true id

/-- The address of the bundle after the second delay bundle: what CALL writes to s31 (R89). A delay bundle whose
syllables cannot be told has a length the manual does not give (log 70). -/
def View.afterDelay (v : View) (s : State) : Nat :=
  let n := (v.d1 s).getD (Config.unknownLen v.cur.next)
  v.cur.next + n + (v.d2 s).getD (Config.unknownLen (v.cur.next + n))

/-- CALL (R89, R162). -/
def execCall (h : SHead) (ofs : BitVec 15) (s : State) : Host.Outcome State Fault Refusal :=
  withView s fun v => v.transfer s h (v.relTarget ofs) false fun t =>
    v.landS t 1 31 (BitVec.ofNat 64 (v.afterDelay s))

/-- JMP (R90, R162). -/
def execJmp (h : SHead) (a : Reg) (s : State) : Host.Outcome State Fault Refusal :=
  withView s fun v => v.transfer s h (v.rsJmp a).toNat true v.lookLate

/-- RET (R90, R162). -/
def execRet (h : SHead) (s : State) : Host.Outcome State Fault Refusal :=
  withView s fun v => v.transfer s h (v.rsJmp 31).toNat false v.lookLate

/-- LOOP and LOOPL (R111, R112, R163): the checks whatever the guard; a false guard acts as a count of zero, which goes to
End after the delay bundles; otherwise the counter becomes active. DEDUCED (log 31). -/
def View.loop (v : View) (s : State) (h : SHead) (ctr count stop : Nat) : State :=
  let q := v.cl.seq
  if q.badTransfer v.len (v.d1 s) (v.d2 s) || q.badLoop v.len ctr stop (v.d1 s) (v.d2 s) then v.raise s cIllegal
  else v.goto s (q.looped v.len ctr stop (if v.guard h.neg h.g then count else 0))

/-- LOOP (R163). -/
def execLoop (h : SHead) (c : BitVec 2) (k : Reg) (t : BitVec 8) (s : State) : Host.Outcome State Fault Refusal :=
  withView s fun v => v.loop s h c.toNat (low32 (v.rs k)).toNat (v.cur.pc + 4 * t.toNat)

/-- LOOPL (R163). -/
def execLoopl (h : SHead) (c : BitVec 2) (t : BitVec 8) (w : W32) (s : State) : Host.Outcome State Fault Refusal :=
  withView s fun v => v.loop s h c.toNat w.toNat (v.cur.pc + 4 * t.toNat)

/-! ## Rendezvous (R114) -/

/-- Cluster `k` is named by the mask of a waiting cluster, and that mask is not `m`. Of two clusters that name each other on one beat the
lower has arrived first (DESIGN CHOICE, log 72). -/
def Core.clashes (c : Core) (k : Nat) (m : BitVec 4) : Bool :=
  (List.range 4).any fun i => match (c.cluster i).rdv with
    | some r => bitAt r.mask k && r.mask != m
    | none => false

/-- Every cluster of a mask waits at that mask. -/
def Core.allArrived (c : Core) (m : BitVec 4) : Bool :=
  (List.range 4).all fun i => !bitAt m i || (match (c.cluster i).rdv with
    | some r => r.mask == m
    | none => false)

/-- Complete a rendezvous at beat `x`: each cluster of the mask issues its first bundle after its lead at x + 8. DEDUCED (log 79): the
watchdog of the hold ends at x. -/
def Core.complete (c : Core) (m : BitVec 4) (x : Nat) : Core :=
  (List.range 4).foldl (fun c i =>
    if bitAt m i then c.modCl i fun k =>
      { k with rdv := none, gaps := k.gaps ++ (match k.rdv with
        | some r => [(r.beat + 8, x + 8)]
        | none => []) }
    else c) c

/-- Arrive at a rendezvous: the last arrival completes it. A cluster that has arrived already has done so: its hold begins eight beats
after its first CWAIT (DEDUCED, log 74). -/
def Core.arriveAt (c : Core) (k : Nat) (m : BitVec 4) (beat : Nat) : Core :=
  let c := c.modCl k fun x => { x with rdv := some (x.rdv.getD { mask := m, beat, since := none }) }
  if c.allArrived m then c.complete m beat else c

/-- A cluster named by the mask has halted. -/
def Core.someHalted (c : Core) (m : BitVec 4) : Bool := (List.range 4).any fun i => bitAt m i && (c.cluster i).halted

/-- The core of a bundle as the beat began. -/
def View.coBefore (v : View) (s : State) : Core := match s.snap with
  | none => v.co
  | some t => if t.sid == v.cur.sid then (t.cores[v.cur.core]?).getD v.co else v.co

/-- CWAIT (R114, R164, R239): ILLEGAL where the mask does not name the issuing cluster, or names one outside the strand's;
RENDEZVOUS where a waiting mask that names it differs, or a cluster of the mask had halted before this beat. A CWAIT in a handler does
not arrive. -/
def execCwait (h : SHead) (m : BitVec 4) (s : State) : Host.Outcome State Fault Refusal :=
  withView s fun v =>
    if !bitAt m v.cur.cl || (m &&& ~~~v.st.fp.mask) != 0 then v.raise s cIllegal
    else if !v.guard h.neg h.g || v.cur.handler then s
    else if (v.coBefore s).someHalted m || v.co.clashes v.cur.cl m then v.raise s cRdv 0 m.toNat
    else v.modCore s fun c => c.arriveAt v.cur.cl m v.cur.beat

/-! ## Special registers (R158 to R160, R240) -/

/-- A register of a trap bank by its offset (R240); bits 1:0 of `pc` and `tgt` read as zero. -/
def Bank.read (b : Bank) (c : Nat) : W64 :=
  if c == 0 then b.pc &&& ~~~3 else if c == 1 then b.cause else if c == 2 then b.addr else if c == 3 then b.tgt &&& ~~~3
  else if c == 4 then b.beat else if c == 5 then b.fseq
  else if c == 8 then b.nme.zeroExtend 64 else if c == 9 then b.nte.zeroExtend 64
  else if c == 10 then b.nre.zeroExtend 64 else if c == 11 then b.nbte.zeroExtend 64
  else if c == 12 then b.nlq.zeroExtend 64 else if c == 13 then b.nsq.zeroExtend 64
  else if c == 16 then b.k0 else if c == 17 then b.k1 else if c == 18 then b.k2 else if c == 19 then b.k3 else 0

/-- Write `tgt` of a bank in use (R240, R241): a pending transfer goes to what is written after its delay bundles, and keeps or ends
loops as a taken BR does. -/
def Bank.aim (b : Bank) (v : W64) : Bank :=
  { b with tgt := v, seq := if b.seq.pos == 0 then b.seq else { b.seq with tgt := some v.toNat, exits := true, skips := false } }

/-- Write a register of a trap bank; `pc` and `tgt` only while it is in use, with bits 1:0 zero (R240). -/
def Bank.write (b : Bank) (c : Nat) (v : W64) : Bank :=
  if c == 0 then (if b.inUse then { b with pc := v &&& ~~~3 } else b)
  else if c == 3 then (if b.inUse then b.aim (v &&& ~~~3) else b)
  else if c == 16 then { b with k0 := v } else if c == 17 then { b with k1 := v }
  else if c == 18 then { b with k2 := v } else if c == 19 then { b with k3 := v } else b

/-- Write a special register of a cluster context by its code (R159, R240). -/
def Cluster.writeSpecial (c : Cluster) (code : Nat) (v : W64) : Cluster :=
  if code == 0x10 then { c with tvec := v &&& ~~~3 }
  else if code == 0x19 then { c with fmtbase := v.truncate 4 }
  else if code == 0x1A then { c with fmtsel := v.truncate 2 }
  else if 0x40 ≤ code && code ≤ 0x4B then c.wp (code - 0x40) v (BitVec.allOnes 64)
  else if 0x100 ≤ code && code < 0x120 then { c with ta := c.ta.write (code - 0x100) v }
  else if 0x120 ≤ code && code < 0x140 then { c with tb := c.tb.write (code - 0x120) v }
  else c

/-- The accumulator banks as the beat began (R205): every agent but a cluster that names a bank sees changes from the next
beat on. -/
def View.banksBefore (v : View) (s : State) : Vector AccBank 32 := (v.coBefore s).banks

/-- `allocst` of a set of bank states (R136). -/
def allocst (b : Vector AccBank 32) : W64 :=
  BitVec.ofNat 64 (maskNat 32 (fun i => (vget b i AccBank.zero).mode != .unallocated) +
    2 ^ 32 * maskNat 32 (fun i => (vget b i AccBank.zero).mode == .parked))
where
  /-- The number whose bit `i` is `f i`, below `n`. -/
  maskNat : Nat → (Nat → Bool) → Nat
    | 0, _ => 0
    | n + 1, f => maskNat n f + bnat (f n) * 2 ^ n

/-- RLOAD's command. -/
def isRload : Instr → Bool
  | .rload .. => true
  | _ => false

/-- CFGSWAP's command. -/
def isSwap : Instr → Bool
  | .cfgswap .. => true
  | _ => false

/-- A special register as the bundle reads it (R158, R159, R240). -/
def View.special (v : View) (s : State) (code : Nat) : W64 :=
  if code == 0 then BitVec.ofNat 64 v.cur.beat
  else if code == 1 then BitVec.ofNat 64 (s.stack v.st.stack).cyc
  else if code == 2 then BitVec.ofNat 64 s.wtime
  else if 8 ≤ code && code < 16 then vget v.st.mbx (code - 8) 0
  else if code == 0x10 then v.cl.tvec
  else if code == 0x11 then (match v.cl.inner with
    | some b => b.cause
    | none => 0)
  else if code == 0x12 then (match v.cl.inner with
    | some b => b.addr
    | none => 0)
  else if code == 0x18 then allocst (v.banksBefore s)
  else if code == 0x19 then v.cl.fmtbase.zeroExtend 64
  else if code == 0x1A then v.cl.fmtsel.zeroExtend 64
  else if code == 0x1B then BitVec.ofNat 64 v.co.rgc
  else if code == 0x20 then v.st.seed
  else if code == 0x21 then v.st.ctrbase
  else if code == 0x22 then BitVec.ofNat 64 v.st.logidx
  else if code == 0x23 then BitVec.ofNat 64 v.st.sid
  else if code == 0x24 then BitVec.ofNat 64 v.st.ctx
  else if code == 0x25 then v.st.digest
  else if code == 0x26 then (if v.st.region.on then BitVec.ofNat 64 v.st.region.level else 0)
  else if 0x30 ≤ code && code < 0x34 then BitVec.ofNat 64 (v.cl.seq.lc (code - 0x30))
  else if 0x40 ≤ code && code ≤ 0x4B then v.cl.rp (code - 0x40)
  else if 0x100 ≤ code && code < 0x120 then v.cl.ta.read (code - 0x100)
  else if 0x120 ≤ code && code < 0x140 then v.cl.tb.read (code - 0x120)
  else 0

/-- MFS (R158). A code not in the tables raises ILLEGAL when the bundle is decoded. A rule-engine swap that flips on its beat has
set `rgc` to 0 (R188, R255). -/
def execMfs (h : SHead) (r : Reg) (code : BitVec 10) (s : State) : Host.Outcome State Fault Refusal :=
  onS h s fun v =>
    if code == 0x1B then v.land s 1 0 (.rgc v.cur.cl r (BitVec.ofNat 64 v.co.rgc)) else v.landS s 1 r (v.special s code.toNat)

/-- MTS: visible from the next beat (R158, R160). -/
def execMts (h : SHead) (r : Reg) (code : BitVec 10) (s : State) : Host.Outcome State Fault Refusal :=
  onS h s fun v => v.land s 1 0 (.special v.cur.cl code.toNat (v.rs r))

end Sys2Proof.Machine
end

