-- ==== Sys2Proof/Machine/VectorOps.lean ====
section
/-! DEFINITION. The vector instructions (R103, R165 to R184). One meaning per instruction. -/

namespace Sys2Proof.Machine

/-! ## Lane functions -/

/-- A function of two lanes, in every lane. -/
def map2 (f : W32 → W32 → W32) (a b : Lanes) : Lanes := mkLanes fun i => f (lane a i) (lane b i)
/-- A function of one lane, in every lane. -/
def map1 (f : W32 → W32) (a : Lanes) : Lanes := mkLanes fun i => f (lane a i)

/-- The high half of a signed product (R167). -/
def mulhI32 (a b : W32) : W32 := BitVec.ofInt 32 (a.toInt * b.toInt / 2 ^ 32)
/-- The high half of an unsigned product. -/
def mulhN32 (a b : W32) : W32 := BitVec.ofNat 32 (a.toNat * b.toNat / 2 ^ 32)
/-- abs, limited to 2^31 - 1. -/
def abs32 (a : W32) : W32 := clamp32 true (a.toInt.natAbs : Int)

/-- Byte `k` of a lane under a signedness bit (R171). -/
def byteOf (sg : Bool) (w : W32) (k : Nat) : Int := intOf 5 sg (w.toNat / 2 ^ (8 * k))
/-- The dot product of four bytes, exact (R118, R171). -/
def dot4 (sa sb : Bool) (a b : W32) : Int :=
  byteOf sa a 0 * byteOf sb b 0 + byteOf sa a 1 * byteOf sb b 1 + byteOf sa a 2 * byteOf sb b 2 + byteOf sa a 3 * byteOf sb b 3

/-- A conversion with rounding field 4 advances the stochastic-rounding state, at issue and whatever its guard (R126). -/
def View.srNext (v : View) (rnd : Nat) : W32 := if rnd == 4 then srStep v.cl.sr else v.cl.sr
/-- Keep the advanced state. -/
def View.keepSr (v : View) (s : State) (rnd : Nat) : State := v.modCl s fun c => { c with sr := v.srNext rnd }

/-- Each lane converted (R174). -/
def cvtLanes (x : W32) (src : Nat) (frS : Bool) (dst : Nat) (toS : Bool) (rnd : Nat) (a : Lanes) : Lanes :=
  mkLanes fun i => convElem src frS dst toS rnd (srBits x i) (lane a i).toNat

/-- A list of `n`-bit codes packed from the low end into words of 32 bits. -/
def packCodes (n : Nat) (cs : List Nat) : Lanes :=
  let per := 32 / n
  mkLanes fun i => BitVec.ofNat 32 ((List.range per).foldl (fun w j => w + cs.getD (i * per + j) 0 % 2 ^ n * 2 ^ (n * j)) 0)

/-- The lane in which block `k`'s scale entry begins, for DX8 and DX4 (R176). -/
def scaleLane (f : Nat) : Nat := if f == 3 then 32 else 16

/-- VPACK's image (R176): 128 values converted and laid out. -/
def vpack (x : W32) (c : Conv) (a b : Lanes) : Lanes :=
  let f := c.dst.toNat
  let vals := lanesList a ++ lanesList b
  if isDxFmt f then
    let blk (k : Nat) : List Nat × Nat := packDx f c.rnd.toNat
      ((List.range 32).map fun j => (vals.getD (32 * k + j) 0, srBits x ((32 * k + j) % 64)))
    let blocks := (List.range 4).map blk
    let body := packCodes (if f == 3 then 8 else 4) (blocks.flatMap (·.1))
    mkLanes fun i =>
      if i == scaleLane f || i == scaleLane f + 1 then
        let k := 2 * (i - scaleLane f)
        BitVec.ofNat 32 ((blocks.getD k ([], 0)).2 + 65536 * (blocks.getD (k + 1) ([], 0)).2)
      else if i < scaleLane f then lane body i else 0
  else
    let bits := if isIntFmt f then intBits f else 16
    packCodes bits ((List.range 128).map fun n =>
      (convElem c.src.toNat c.frS f c.toS c.rnd.toNat (srBits x (n % 64)) (vals.getD n 0).toNat).toNat)

/-- Element `n` of a packed image, of `bits` bits. -/
def elemOf (bits : Nat) (a : Lanes) (n : Nat) : Nat := fld (lane a (n * bits / 32)).toNat (n * bits % 32) bits

/-- VUNPK's lane (R177). -/
def vunpk (c : Conv) (a : Lanes) : Lanes :=
  let f := c.src.toNat
  mkLanes fun j =>
    let n := j + 64 * bnat c.half
    if isDxFmt f then
      let k := n / 32
      let scale := fld (lane a (scaleLane f + k / 2)).toNat (16 * (k % 2)) 16
      round32 0 (decodeDx f (elemOf (if f == 3 then 8 else 4) a n) scale)
    else convElem f c.frS c.dst.toNat true 0 0 (elemOf (if isIntFmt f then intBits f else 16) a n)

/-! ## Reductions, scans and sorts (R178 to R181) -/

/-- The inputs of a reduction: an inactive lane contributes the identity (R178). -/
def redInputs (act : W64) (ident : W32) (a : Lanes) : List W32 := (List.range 64).map fun i => if bitAt act i then lane a i else ident

/-- The sum of two values of a type. -/
def addTy (ty : Nat) (a b : W32) : W32 := if ty == 2 then fadd 0 a b else a + b
/-- A result of a type: every NaN is canonical (R116). -/
def canonTy (ty : Nat) (w : W32) : W32 := if ty == 2 && isNan32 w then 0x7FC00000 else w
/-- The larger of two values of a type. -/
def maxTy (ty : Nat) (a b : W32) : W32 :=
  if ty == 2 then fmax a b else if ty == 0 then (if a.slt b then b else a) else if a.ult b then b else a
/-- The smaller of two values of a type. -/
def minTy (ty : Nat) (a b : W32) : W32 :=
  if ty == 2 then fmin a b else if ty == 0 then (if b.slt a then b else a) else if b.ult a then b else a
/-- The identity of a sum: 0, or -0. -/
def sumIdent (ty : Nat) : W32 := if ty == 2 then 0x80000000 else 0
/-- The identity of a maximum. -/
def maxIdent (ty : Nat) : W32 := if ty == 0 then 0x80000000 else if ty == 1 then 0 else 0xFF800000
/-- The identity of a minimum. -/
def minIdent (ty : Nat) : W32 := if ty == 0 then 0x7FFFFFFF else if ty == 1 then 0xFFFFFFFF else 0x7F800000

/-- A key's order under a type; every NaN lies below -infinity (R181). -/
def sortKey (ty : Nat) (w : W32) : Int :=
  if ty == 0 then w.toInt else if ty == 1 then w.toNat else if isNan32 w then -(2 ^ 40 : Int) else fpKey w

/-- Insert after every key that is not smaller: descending, and stable for insertions in lane order. -/
def insertKey (ty : Nat) (x : W32 × W32) : List (W32 × W32) → List (W32 × W32)
  | [] => [x]
  | y :: ys => if sortKey ty x.1 ≤ sortKey ty y.1 then y :: insertKey ty x ys else x :: y :: ys

/-- VSORT's keys with their payload, in order (R181). -/
def vsort (ty : Nat) (a b : Lanes) : List (W32 × W32) :=
  (((List.range 64).map fun i => (lane a i, lane b i)).foldl (fun l x => insertKey ty x l) []).map fun x =>
    (if ty == 2 && isNan32 x.1 then nan32 else x.1, x.2)

/-! ## Table evaluation (R184, R206) -/

/-- The offset of table `k` in the table engine's plane (R186). -/
def tableAt (k : Nat) : Nat := 0x480 * k
/-- A 32-bit word of a plane. -/
def planeW32 (m : Sparse 8) (ofs : Nat) : W32 := BitVec.ofNat 32 (natOfBytes (Sparse.getN m ofs 4))

/-- An edge rule: 0 ZERO, 1 CLAMP, else IDENT (R184). -/
def edge (rule : Nat) (x e : W32) : W32 := if rule == 0 then 0 else if rule == 1 then (if isNan32 e then nan32 else e) else x

/-- The value between T[i] and T[i+1] at fraction `f` (R184). -/
def tevalAt (t0 t1 : W32) (f : Fp) (zero : Bool) : W32 :=
  let dt := fsub 0 t1 t0
  if zero && (match fp32 dt with
    | .fin .. => true
    | _ => false) then t0
  else round32 0 (Fp.add false (fp32 t0) (Fp.mul f (fp32 dt)))

/-- `teval` (R184): table `k` of a plane at `x`. -/
def teval (m : Sparse 8) (k : Nat) (x : W32) : W32 :=
  let b := tableAt k
  let hdr := (planeW32 m (b + 4)).toNat
  let tAt (i : Nat) : W32 := planeW32 m (b + 0x40 + 4 * i)
  if isNan32 x then nan32
  else match (Fp.add false (fp32 x) (fp32 (planeW32 m b)).neg).scale (-(intOf 5 true hdr)) with
    | .nan => nan32
    | .inf true => edge (fld hdr 8 2) x (tAt 0)
    | .inf false => edge (fld hdr 10 2) x (tAt 256)
    | .fin neg n e =>
      if neg && n != 0 then edge (fld hdr 8 2) x (tAt 0)
      else
        let i := if 0 ≤ e then n * 2 ^ e.toNat else n / 2 ^ (-e).toNat
        let r := if 0 ≤ e then 0 else n % 2 ^ (-e).toNat
        if 256 < i || (i == 256 && r != 0) then edge (fld hdr 10 2) x (tAt 256)
        else if i == 256 then (if isNan32 (tAt 256) then nan32 else tAt 256)
        else tevalAt (tAt i) (tAt (i + 1)) (.fin false r e) (r == 0)

/-- A table header passes the checks of R207: reserved bits zero, rules 0 to 2, Step -64 to 63. -/
def headerOk (m : Sparse 8) (b : Nat) : Bool :=
  let hdr := (planeW32 m (b + 4)).toNat
  let step := intOf 5 true hdr
  fld hdr 12 20 == 0 && fld hdr 8 2 != 3 && fld hdr 10 2 != 3 && -64 ≤ step && step ≤ 63 &&
  (Sparse.getN m (b + 8) 56).all (· == 0)

/-- The four headers of a plane pass (R188). -/
def headersOk (m : Sparse 8) : Bool := (List.range 4).all fun k => headerOk m (tableAt k)

/-- The eight bytes of MCFG in a plane (R186). -/
def mcfgPlane (m : Sparse 8) (ofs : Nat) (val : W64) : Sparse 8 := Sparse.setAll m (cellsAt (8 * ofs) (bytesOf 8 val.toNat))

/-- TLOAD's command. -/
def isTload : Instr → Bool
  | .tload .. => true
  | _ => false

/-! ## Integer lanes (R167) -/

/-- VADD (R167). -/
def execVadd (h : Head) (d : VDst) (a b : VSrc) (s : State) : Host.Outcome State Fault Refusal :=
  onV 0 [a, b] s fun v s => v.landV s 4 h d (map2 (fun x y => x + y) (v.src a) (v.src b))

/-- VSUB (R167). -/
def execVsub (h : Head) (d : VDst) (a b : VSrc) (s : State) : Host.Outcome State Fault Refusal :=
  onV 0 [a, b] s fun v s => v.landV s 4 h d (map2 (fun x y => x - y) (v.src a) (v.src b))

/-- VMUL (R167). -/
def execVmul (h : Head) (d : VDst) (a b : VSrc) (s : State) : Host.Outcome State Fault Refusal :=
  onV 0 [a, b] s fun v s => v.landV s 4 h d (map2 (fun x y => x * y) (v.src a) (v.src b))

/-- VMULHI (R167). -/
def execVmulhI (h : Head) (d : VDst) (a b : VSrc) (s : State) : Host.Outcome State Fault Refusal :=
  onV 0 [a, b] s fun v s => v.landV s 4 h d (map2 (fun x y => mulhI32 x y) (v.src a) (v.src b))

/-- VMULHN (R167). -/
def execVmulhN (h : Head) (d : VDst) (a b : VSrc) (s : State) : Host.Outcome State Fault Refusal :=
  onV 0 [a, b] s fun v s => v.landV s 4 h d (map2 (fun x y => mulhN32 x y) (v.src a) (v.src b))

/-- VMINI (R167). -/
def execVminI (h : Head) (d : VDst) (a b : VSrc) (s : State) : Host.Outcome State Fault Refusal :=
  onV 0 [a, b] s fun v s => v.landV s 4 h d (map2 (fun x y => minTy 0 x y) (v.src a) (v.src b))

/-- VMINN (R167). -/
def execVminN (h : Head) (d : VDst) (a b : VSrc) (s : State) : Host.Outcome State Fault Refusal :=
  onV 0 [a, b] s fun v s => v.landV s 4 h d (map2 (fun x y => minTy 1 x y) (v.src a) (v.src b))

/-- VMAXI (R167). -/
def execVmaxI (h : Head) (d : VDst) (a b : VSrc) (s : State) : Host.Outcome State Fault Refusal :=
  onV 0 [a, b] s fun v s => v.landV s 4 h d (map2 (fun x y => maxTy 0 x y) (v.src a) (v.src b))

/-- VMAXN (R167). -/
def execVmaxN (h : Head) (d : VDst) (a b : VSrc) (s : State) : Host.Outcome State Fault Refusal :=
  onV 0 [a, b] s fun v s => v.landV s 4 h d (map2 (fun x y => maxTy 1 x y) (v.src a) (v.src b))

/-- VAND (R167). -/
def execVand (h : Head) (d : VDst) (a b : VSrc) (s : State) : Host.Outcome State Fault Refusal :=
  onV 0 [a, b] s fun v s => v.landV s 4 h d (map2 (fun x y => x &&& y) (v.src a) (v.src b))

/-- VOR (R167). -/
def execVor (h : Head) (d : VDst) (a b : VSrc) (s : State) : Host.Outcome State Fault Refusal :=
  onV 0 [a, b] s fun v s => v.landV s 4 h d (map2 (fun x y => x ||| y) (v.src a) (v.src b))

/-- VXOR (R167). -/
def execVxor (h : Head) (d : VDst) (a b : VSrc) (s : State) : Host.Outcome State Fault Refusal :=
  onV 0 [a, b] s fun v s => v.landV s 4 h d (map2 (fun x y => x ^^^ y) (v.src a) (v.src b))

/-- VSHL (R167). -/
def execVshl (h : Head) (d : VDst) (a b : VSrc) (s : State) : Host.Outcome State Fault Refusal :=
  onV 0 [a, b] s fun v s => v.landV s 4 h d (map2 (fun x y => x <<< (y.toNat % 32)) (v.src a) (v.src b))

/-- VSHR (R167). -/
def execVshr (h : Head) (d : VDst) (a b : VSrc) (s : State) : Host.Outcome State Fault Refusal :=
  onV 0 [a, b] s fun v s => v.landV s 4 h d (map2 (fun x y => x >>> (y.toNat % 32)) (v.src a) (v.src b))

/-- VSAR (R167). -/
def execVsar (h : Head) (d : VDst) (a b : VSrc) (s : State) : Host.Outcome State Fault Refusal :=
  onV 0 [a, b] s fun v s => v.landV s 4 h d (map2 (fun x y => x.sshiftRight (y.toNat % 32)) (v.src a) (v.src b))

/-- VADDSI (R167). -/
def execVaddsI (h : Head) (d : VDst) (a b : VSrc) (s : State) : Host.Outcome State Fault Refusal :=
  onV 0 [a, b] s fun v s => v.landV s 4 h d (map2 (fun x y => clamp32 true (x.toInt + y.toInt)) (v.src a) (v.src b))

/-- VADDSN (R167). -/
def execVaddsN (h : Head) (d : VDst) (a b : VSrc) (s : State) : Host.Outcome State Fault Refusal :=
  onV 0 [a, b] s fun v s => v.landV s 4 h d (map2 (fun x y => clamp32 false (x.toNat + y.toNat : Nat)) (v.src a) (v.src b))

/-- VSUBSI (R167). -/
def execVsubsI (h : Head) (d : VDst) (a b : VSrc) (s : State) : Host.Outcome State Fault Refusal :=
  onV 0 [a, b] s fun v s => v.landV s 4 h d (map2 (fun x y => clamp32 true (x.toInt - y.toInt)) (v.src a) (v.src b))

/-- VSUBSN (R167). -/
def execVsubsN (h : Head) (d : VDst) (a b : VSrc) (s : State) : Host.Outcome State Fault Refusal :=
  onV 0 [a, b] s fun v s => v.landV s 4 h d (map2 (fun x y => clamp32 false ((x.toNat : Int) - y.toNat)) (v.src a) (v.src b))

/-- VABS (R167). -/
def execVabs (h : Head) (d : VDst) (a : VSrc) (s : State) : Host.Outcome State Fault Refusal :=
  onV 0 [a] s fun v s => v.landV s 4 h d (map1 abs32 (v.src a))

/-! ## Floating lanes (R168) -/

/-- VFADD (R168). -/
def execVfadd (h : Head) (d : VDst) (a b : VSrc) (rm : BitVec 2) (s : State) : Host.Outcome State Fault Refusal :=
  onV 3 [a, b] s fun v s => v.landV s 6 h d (map2 (fadd rm.toNat) (v.src a) (v.src b))

/-- VFSUB (R168). -/
def execVfsub (h : Head) (d : VDst) (a b : VSrc) (rm : BitVec 2) (s : State) : Host.Outcome State Fault Refusal :=
  onV 3 [a, b] s fun v s => v.landV s 6 h d (map2 (fsub rm.toNat) (v.src a) (v.src b))

/-- VFMUL (R168). -/
def execVfmul (h : Head) (d : VDst) (a b : VSrc) (rm : BitVec 2) (s : State) : Host.Outcome State Fault Refusal :=
  onV 3 [a, b] s fun v s => v.landV s 6 h d (map2 (fmul rm.toNat) (v.src a) (v.src b))

/-- VFMA (R166, R168). -/
def execVfma (h : Head) (d : VDst) (a b : VSrc) (rm : BitVec 2) (s : State) : Host.Outcome State Fault Refusal :=
  onV 3 [a, b] s fun v s =>
    v.landV s 6 h d (mkLanes fun i => ffma rm.toNat (lane (v.src a) i) (lane (v.src b) i) (lane (v.addend d) i))

/-- VFMIN (R168). -/
def execVfmin (h : Head) (d : VDst) (a b : VSrc) (s : State) : Host.Outcome State Fault Refusal :=
  onV 3 [a, b] s fun v s => v.landV s 6 h d (map2 fmin (v.src a) (v.src b))

/-- VFMAX (R168). -/
def execVfmax (h : Head) (d : VDst) (a b : VSrc) (s : State) : Host.Outcome State Fault Refusal :=
  onV 3 [a, b] s fun v s => v.landV s 6 h d (map2 fmax (v.src a) (v.src b))

/-- VFABS (R168). -/
def execVfabs (h : Head) (d : VDst) (a : VSrc) (s : State) : Host.Outcome State Fault Refusal :=
  onV 3 [a] s fun v s => v.landV s 6 h d (map1 fabs (v.src a))

/-- VFNEG (R168). -/
def execVfneg (h : Head) (d : VDst) (a : VSrc) (s : State) : Host.Outcome State Fault Refusal :=
  onV 3 [a] s fun v s => v.landV s 6 h d (map1 fneg (v.src a))

/-! ## Moves, selects and compares (R169, R170) -/

/-- VMOV (R169). -/
def execVmov (h : Head) (d : VDst) (a : VSrc) (s : State) : Host.Outcome State Fault Refusal :=
  onV 0 [a] s fun v s => v.landV s 4 h d (v.src a)

/-- VSEL: the guard chooses; all 64 lanes are written (R78, R169). -/
def execVsel (h : Head) (d : VDst) (a b : VSrc) (s : State) : Host.Outcome State Fault Refusal :=
  onV 0 [a, b] s fun v s =>
    v.land s 4 1 (.vec v.cur.cl d (BitVec.allOnes 64)
      (mkLanes fun i => if bitAt (v.active h) i then lane (v.src a) i else lane (v.src b) i))

/-- A vector compare (R170): the predicate bits of active lanes after one beat, and the lane vector after `lat`. -/
def View.landCmp (v : View) (s : State) (lat : Nat) (h : Head) (d : PReg) (f : W32 → W32 → Bool) (a b : Lanes) : State :=
  let m := maskOf fun i => f (lane a i) (lane b i)
  let s := v.land s 1 1 (.pred v.cur.cl d.toNat m (v.active h))
  v.land s lat 1 (.vec v.cur.cl .last (v.active h) (lanesOfMask m))

/-- VCMP, condition Eq (R170). -/
def execVcmpEq (h : Head) (d : PReg) (a b : VSrc) (s : State) : Host.Outcome State Fault Refusal :=
  onV 0 [a, b] s fun v s => v.landCmp s 4 h d (fun x y => x == y) (v.src a) (v.src b)

/-- VCMP, condition Ne (R170). -/
def execVcmpNe (h : Head) (d : PReg) (a b : VSrc) (s : State) : Host.Outcome State Fault Refusal :=
  onV 0 [a, b] s fun v s => v.landCmp s 4 h d (fun x y => x != y) (v.src a) (v.src b)

/-- VCMP, condition LtI (R170). -/
def execVcmpLtI (h : Head) (d : PReg) (a b : VSrc) (s : State) : Host.Outcome State Fault Refusal :=
  onV 0 [a, b] s fun v s => v.landCmp s 4 h d (fun x y => x.slt y) (v.src a) (v.src b)

/-- VCMP, condition GeI (R170). -/
def execVcmpGeI (h : Head) (d : PReg) (a b : VSrc) (s : State) : Host.Outcome State Fault Refusal :=
  onV 0 [a, b] s fun v s => v.landCmp s 4 h d (fun x y => !x.slt y) (v.src a) (v.src b)

/-- VCMP, condition LtN (R170). -/
def execVcmpLtN (h : Head) (d : PReg) (a b : VSrc) (s : State) : Host.Outcome State Fault Refusal :=
  onV 0 [a, b] s fun v s => v.landCmp s 4 h d (fun x y => x.ult y) (v.src a) (v.src b)

/-- VCMP, condition GeN (R170). -/
def execVcmpGeN (h : Head) (d : PReg) (a b : VSrc) (s : State) : Host.Outcome State Fault Refusal :=
  onV 0 [a, b] s fun v s => v.landCmp s 4 h d (fun x y => !x.ult y) (v.src a) (v.src b)

/-- VFCMP, condition Eq (R170). -/
def execVfcmpEq (h : Head) (d : PReg) (a b : VSrc) (s : State) : Host.Outcome State Fault Refusal :=
  onV 3 [a, b] s fun v s => v.landCmp s 6 h d feq (v.src a) (v.src b)

/-- VFCMP, condition Lt (R170). -/
def execVfcmpLt (h : Head) (d : PReg) (a b : VSrc) (s : State) : Host.Outcome State Fault Refusal :=
  onV 3 [a, b] s fun v s => v.landCmp s 6 h d flt (v.src a) (v.src b)

/-- VFCMP, condition Le (R170). -/
def execVfcmpLe (h : Head) (d : PReg) (a b : VSrc) (s : State) : Host.Outcome State Fault Refusal :=
  onV 3 [a, b] s fun v s => v.landCmp s 6 h d fle (v.src a) (v.src b)

/-- VFCMP, condition Un (R170). -/
def execVfcmpUn (h : Head) (d : PReg) (a b : VSrc) (s : State) : Host.Outcome State Fault Refusal :=
  onV 3 [a, b] s fun v s => v.landCmp s 6 h d funord (v.src a) (v.src b)

/-! ## Dot products and scaling (R171, R172) -/

/-- VDOT4 (R166, R171). -/
def execVdot4 (h : Head) (d : VDst) (a b : VSrc) (sg : BitVec 2) (s : State) : Host.Outcome State Fault Refusal :=
  onV 0 [a, b] s fun v s =>
    v.landV s 4 h d (mkLanes fun i =>
      lane (v.addend d) i + BitVec.ofInt 32 (dot4 (bitAt sg 1) (bitAt sg 0) (lane (v.src a) i) (lane (v.src b) i)))

/-- VSCALEB (R172). -/
def execVscaleb (h : Head) (d : VDst) (a b : VSrc) (rm : BitVec 2) (s : State) : Host.Outcome State Fault Refusal :=
  onV 3 [a, b] s fun v s => v.landV s 6 h d (map2 (fscaleb rm.toNat) (v.src a) (v.src b))

/-! ## Conversions (R173 to R177) -/

/-- VCVT (R174). -/
def execVcvt (h : Head) (d : VDst) (a : VSrc) (cv : Conv) (s : State) : Host.Outcome State Fault Refusal :=
  onV 3 [a] s fun v s =>
    v.landV (v.keepSr s cv.rnd.toNat) 6 h d
      (cvtLanes (v.srNext cv.rnd.toNat) cv.src.toNat cv.frS cv.dst.toNat cv.toS cv.rnd.toNat (v.src a))

/-- The format entry's fields as VCVTT reads them: A format, A signed, drain rounding (R175, R192). -/
def fmtA (w : W32) : Nat × Bool × Nat := (fld w.toNat 0 4, bitAt w 8, fld w.toNat 14 3)

/-- A format entry that VCVTT refuses: one that names a DX format, or holds a reserved code in any of its fields (R175, R192, R193). -/
def cvttBad (w : W32) : Bool :=
  let f (lo n : Nat) : Nat := fld w.toNat lo n
  isDxFmt (f 0 4) || 8 < f 0 4 || isDxFmt (f 4 4) || 8 < f 4 4 || f 10 2 == 3 || f 12 2 == 3 || 4 < f 14 3

/-- VCVTT (R113, R175): QUEUE, then FORMAT, then OVERCURRENT, the lower code first (R252). -/
def execVcvtt (h : Head) (d : VDst) (a : VSrc) (s : State) : Host.Outcome State Fault Refusal :=
  withView s fun v =>
    let w := vget v.co.fmt v.fmtIndex 0
    let e := fmtA w
    if v.dry a then v.raise s cQueue
    else if cvttBad w then v.raise s cFormat
    else if v.st.region.exceeds v.cur.beat 3 then v.raise s cOver 0 3
    else v.landV (v.keepSr (v.modCl s fun c => c.pop [a]) e.2.2) 6 h d (cvtLanes (v.srNext e.2.2) 0 false e.1 e.2.1 e.2.2 (v.src a))

/-- VPACK (R176). -/
def execVpack (h : Head) (d : VDst) (a b : VSrc) (cv : Conv) (s : State) : Host.Outcome State Fault Refusal :=
  onV 3 [a, b] s fun v s =>
    v.landV (v.keepSr s cv.rnd.toNat) 6 h d (vpack (v.srNext cv.rnd.toNat) cv (v.src a) (v.src b))

/-- VUNPK (R177). -/
def execVunpk (h : Head) (d : VDst) (a : VSrc) (cv : Conv) (s : State) : Host.Outcome State Fault Refusal :=
  onV 3 [a] s fun v s => v.landV s 6 h d (vunpk cv (v.src a))

/-! ## Reductions, scans and sorting (R178 to R181) -/

/-- VRSUM (R179). -/
def execVrsum (h : Head) (d : VDst) (a : VSrc) (ty : BitVec 2) (s : State) : Host.Outcome State Fault Refusal :=
  onV 3 [a] s fun v s =>
    v.landV s 10 h d (splat (treeSum (addTy ty.toNat) (redInputs (v.active h) (sumIdent ty.toNat) (v.src a))))

/-- VRMAX (R179). -/
def execVrmax (h : Head) (d : VDst) (a : VSrc) (ty : BitVec 2) (s : State) : Host.Outcome State Fault Refusal :=
  onV 3 [a] s fun v s =>
    v.landV s 10 h d (splat (treeSum (maxTy ty.toNat) (redInputs (v.active h) (maxIdent ty.toNat) (v.src a))))

/-- VRMIN (R179). -/
def execVrmin (h : Head) (d : VDst) (a : VSrc) (ty : BitVec 2) (s : State) : Host.Outcome State Fault Refusal :=
  onV 3 [a] s fun v s =>
    v.landV s 10 h d (splat (treeSum (minTy ty.toNat) (redInputs (v.active h) (minIdent ty.toNat) (v.src a))))

/-- VSCAN (R180). -/
def execVscan (h : Head) (d : VDst) (a : VSrc) (ty : BitVec 2) (s : State) : Host.Outcome State Fault Refusal :=
  onV 3 [a] s fun v s =>
    v.landV s 10 h d (lanesOf ((serialSum (addTy ty.toNat) (redInputs (v.active h) (sumIdent ty.toNat) (v.src a))).map (canonTy ty.toNat)))

/-- VSORT: the keys, then the payload (R181). -/
def execVsort (h : Head) (d : VDst) (a b : VSrc) (ty : BitVec 2) (s : State) : Host.Outcome State Fault Refusal :=
  onV 3 [a, b] s fun v s =>
    let r := vsort ty.toNat (v.src a) (v.src b)
    v.landV (v.landV s 16 h d (lanesOf (r.map (·.1)))) 16 h .last (lanesOf (r.map (·.2)))

/-! ## Lane permutations (R182) -/

/-- The count of VROT and VBCAST: bits 5:0 of lane 0. -/
def rotN (b : Lanes) : Nat := (lane b 0).toNat % 64

/-- VSHUF (R182). -/
def execVshuf (h : Head) (d : VDst) (a b : VSrc) (s : State) : Host.Outcome State Fault Refusal :=
  onV 3 [a, b] s fun v s =>
    v.landV s 10 h d (mkLanes fun i => lane (v.src a) ((lane (v.src b) i).toNat % 64))

/-- VROT (R182). -/
def execVrot (h : Head) (d : VDst) (a b : VSrc) (s : State) : Host.Outcome State Fault Refusal :=
  onV 3 [a, b] s fun v s =>
    v.landV s 10 h d (mkLanes fun i => lane (v.src a) ((i + rotN (v.src b)) % 64))

/-- VROT.zf (R182). -/
def execVrotZf (h : Head) (d : VDst) (a b : VSrc) (s : State) : Host.Outcome State Fault Refusal :=
  onV 3 [a, b] s fun v s =>
    v.landV s 10 h d (mkLanes fun i => if i + rotN (v.src b) < 64 then lane (v.src a) (i + rotN (v.src b)) else 0)

/-- VBCAST (R182). -/
def execVbcast (h : Head) (d : VDst) (a b : VSrc) (s : State) : Host.Outcome State Fault Refusal :=
  onV 3 [a, b] s fun v s =>
    v.landV s 10 h d (splat (lane (v.src a) (rotN (v.src b))))

/-! ## Counter draws and tables (R183, R184) -/

/-- VRAND (R183). -/
def execVrand (h : Head) (d : VDst) (a b : VSrc) (u : Bool) (word : BitVec 2) (layer : BitVec 24) (s : State) : Host.Outcome State Fault Refusal :=
  onV 3 [a, b] s fun v s =>
    v.landV s 8 h d (mkLanes fun j =>
      let w := kcg v.st.seed (low32 (v.st.ctrbase + (lane (v.src b) j).zeroExtend 64)) (layer.zeroExtend 32) (lane (v.src a) j)
        0 word.toNat
      if u then u24 w else w)

/-- TEVAL: ILLEGAL where the footprint names no table engine (R184). It reads the table as it stands when the commands of its beat have
started (R134, R255). -/
def execTeval (h : Head) (d : VDst) (a : VSrc) (k : BitVec 2) (s : State) : Host.Outcome State Fault Refusal :=
  withView s fun v =>
    if !v.st.fp.te then v.raise s cIllegal
    else if v.dry a then v.raise s cQueue
    else if v.st.region.exceeds v.cur.beat 3 then v.raise s cOver 0 3
    else v.land (v.modCl s fun c => c.pop [a]) 10 1 (.teval v.cur.cl d (v.active h) k.toNat (v.src a))

end Sys2Proof.Machine
end

