-- ==== Sys2Proof/Machine/MemoryOps.lean ====
section
/-! DEFINITION. The M syllables: register-file draws and puts, scratchpad, parking, elastic accesses, markers, waits,
atomics, barriers, prefetch and cache control (R93 to R95, R214 to R236). One meaning per instruction. -/

namespace Sys2Proof.Machine

/-! ## The main register file (R215, R216) -/

/-- DRAW, immediate index (R215). -/
def execDrawImmediate (h : Head) (q : BitVec 2) (p : BitVec 5) (r : BitVec 2) (i : BitVec 6) (s : State) : Host.Outcome State Fault Refusal :=
  onPlane h p s fun v => v.draw s q p.toNat r.toNat i.toNat

/-- DRAW, register index (R215). -/
def execDrawRegister (h : Head) (q : BitVec 2) (p : BitVec 5) (r : BitVec 2) (x : Reg) (s : State) : Host.Outcome State Fault Refusal :=
  onPlane h p s fun v => v.draw s q p.toNat r.toNat ((v.rs x).toNat % 64)

/-- PUT from the operand file, immediate index (R216). -/
def execPutOperandImmediate (h : Head) (o : BitVec 4) (p : BitVec 5) (r : BitVec 2) (i : BitVec 6) (s : State) : Host.Outcome State Fault Refusal :=
  onPlane h p s fun v => v.put s p.toNat r.toNat i.toNat (v.osrc (.o o))

/-- PUT from the operand file, register index (R216). -/
def execPutOperandRegister (h : Head) (o : BitVec 4) (p : BitVec 5) (r : BitVec 2) (x : Reg) (s : State) : Host.Outcome State Fault Refusal :=
  onPlane h p s fun v => v.put s p.toNat r.toNat ((v.rs x).toNat % 64) (v.osrc (.o o))

/-- PUT from the last-result file, immediate index (R216). -/
def execPutLastResultImmediate (h : Head) (l : BitVec 2) (p : BitVec 5) (r : BitVec 2) (i : BitVec 6) (s : State) : Host.Outcome State Fault Refusal :=
  onPlane h p s fun v => v.put s p.toNat r.toNat i.toNat (v.osrc (.l l))

/-- PUT from the last-result file, register index (R216). -/
def execPutLastResultRegister (h : Head) (l : BitVec 2) (p : BitVec 5) (r : BitVec 2) (x : Reg) (s : State) : Host.Outcome State Fault Refusal :=
  onPlane h p s fun v => v.put s p.toNat r.toNat ((v.rs x).toNat % 64) (v.osrc (.l l))

/-! ## Scratchpad (R217, R218) -/

/-- SLD (R217). -/
def execSld (h : Head) (d : VDst) (k : Reg) (f : BitVec 7) (s : State) : Host.Outcome State Fault Refusal :=
  onMX h s fun v => v.spadLoad s (v.spadAddr k f 256) 256 none fun bs =>
    .vec v.cur.cl d (BitVec.allOnes 64) (lanesFromBytes bs)

/-- SLD, tagged (R218). -/
def execSldTagged (h : Head) (d : VDst) (k : Reg) (f : BitVec 7) (tag : Byte) (s : State) : Host.Outcome State Fault Refusal :=
  onMX h s fun v => v.spadLoad s (v.spadAddr k f 256) 256 (some tag) fun bs =>
    .vec v.cur.cl d (BitVec.allOnes 64) (lanesFromBytes bs)

/-- SST (R217). -/
def execSst (h : Head) (o : OSrc) (k : Reg) (f : BitVec 7) (s : State) : Host.Outcome State Fault Refusal :=
  onMX h s fun v => v.spadStore s (v.spadAddr k f 256) (laneBytes (v.osrc o)) none

/-- SST, tagged (R218). -/
def execSstTagged (h : Head) (o : OSrc) (k : Reg) (f : BitVec 7) (tag : Byte) (s : State) : Host.Outcome State Fault Refusal :=
  onMX h s fun v => v.spadStore s (v.spadAddr k f 256) (laneBytes (v.osrc o)) (some tag)

/-- SLDS (R217). -/
def execSlds (h : Head) (r k : Reg) (f : BitVec 7) (s : State) : Host.Outcome State Fault Refusal :=
  onMX h s fun v => v.spadLoad s (v.spadAddr k f 8) 8 none fun bs =>
    .scalar v.cur.cl r (BitVec.ofNat 64 (natOfBytes bs))

/-- SLDS, tagged (R218). -/
def execSldsTagged (h : Head) (r k : Reg) (f : BitVec 7) (tag : Byte) (s : State) : Host.Outcome State Fault Refusal :=
  onMX h s fun v => v.spadLoad s (v.spadAddr k f 8) 8 (some tag) fun bs =>
    .scalar v.cur.cl r (BitVec.ofNat 64 (natOfBytes bs))

/-- SSTS (R217). -/
def execSsts (h : Head) (r k : Reg) (f : BitVec 7) (s : State) : Host.Outcome State Fault Refusal :=
  onMX h s fun v => v.spadStore s (v.spadAddr k f 8) (bytesOf 8 (v.rs r).toNat) none

/-- SSTS, tagged (R218). -/
def execSstsTagged (h : Head) (r k : Reg) (f : BitVec 7) (tag : Byte) (s : State) : Host.Outcome State Fault Refusal :=
  onMX h s fun v => v.spadStore s (v.spadAddr k f 8) (bytesOf 8 (v.rs r).toNat) (some tag)

/-! ## Loads, stores and copies (R225, R226) -/

/-- The size modifier (R225). -/
def ldKind (m : BitVec 2) : LdKind := if m == 0 then .d else if m == 1 then .w else if m == 2 then .ws else .b
/-- The bytes of an access. -/
def LdKind.size : LdKind → Nat
  | .d => 8
  | .w => 4
  | .ws => 4
  | .b => 1

/-- LD (R225). -/
def execLd (h : Head) (d a b : Reg) (m : BitVec 2) (s : State) : Host.Outcome State Fault Refusal :=
  onMX h s fun v =>
    let x := v.rs a + v.rs b
    v.onMem s x (ldKind m).size (v.elastic s true false (.ld x (ldKind m) d))

/-- ST (R225). -/
def execSt (h : Head) (d a b : Reg) (m : BitVec 2) (s : State) : Host.Outcome State Fault Refusal :=
  onMX h s fun v =>
    let x := v.rs a + v.rs b
    let n := (ldKind m).size
    v.onMem s x n (v.elastic s false true (.st x n (BitVec.ofNat 64 ((v.rs d).toNat % 2 ^ (8 * n)))))

/-- ECOPY (R226): BOUNDS for the count or a scratchpad end, then ADDRESS for an address or the count, the lower code first (R252). -/
def execEcopy (h : Head) (d a b : Reg) (m : BitVec 2) (s : State) : Host.Outcome State Fault Refusal :=
  onMX h s fun v =>
    let n := v.rs b
    let bad (x : W64) (spad : Bool) : Bool := (!spad && !canonical x) || x.toNat % 8 != 0
    if 2 ^ 20 < n.toNat then v.raise s cBounds n
    else if m == 2 && !v.st.fp.spadOk (v.rs d).toNat n.toNat then v.raise s cBounds (v.rs d)
    else if m == 1 && !v.st.fp.spadOk (v.rs a).toNat n.toNat then v.raise s cBounds (v.rs a)
    else if bad (v.rs d) (m == 2) then v.raise s cAddress (v.rs d)
    else if bad (v.rs a) (m == 1) then v.raise s cAddress (v.rs a)
    else if n.toNat % 8 != 0 then v.raise s cAddress n
    else v.elastic s false true (.ecopy m.toNat (v.rs d) (v.rs a) n.toNat)

/-! ## Markers and queue waits (R227 to R229) -/

/-- MARK (R227). -/
def execMark (h : Head) (s : State) : Host.Outcome State Fault Refusal :=
  onMX h s fun v => v.elastic s true true .mark

/-- FENCE (R228). -/
def execFence (h : Head) (x : BitVec 5) (s : State) : Host.Outcome State Fault Refusal :=
  onMX h s fun v => v.elastic s true true (.fence (x.toNat + 1))

/-- The unretired entries a wait counts: in a handler the handler's own (R229, R239). -/
def View.held (v : View) (q : ElQueue) : Nat := (q.entries.filter fun e => v.cl.depth ≤ e.handler).length

/-- Begin a wait at this beat (R68). It freezes the strand at beat b + 8 unless its condition is seen on this beat. -/
def View.wait (v : View) (s : State) (k : WaitKind) : State :=
  let c0 := (s.stack v.st.stack).cyc
  v.modCl s fun c =>
    { c with waits := c.waits ++ [{ kind := k, beat := v.cur.beat, cyc0 := c0, iss := c.issued, handler := v.cl.depth,
                                    seenAt := none }] }

/-- LQWAIT (R229). -/
def execLqwait (h : Head) (x : BitVec 5) (s : State) : Host.Outcome State Fault Refusal :=
  onMX h s fun v => if v.held v.cl.lq ≤ x.toNat then s else v.wait s (.lq x.toNat)

/-- SQWAIT (R229). -/
def execSqwait (h : Head) (x : BitVec 5) (s : State) : Host.Outcome State Fault Refusal :=
  onMX h s fun v => if v.held v.cl.sq ≤ x.toNat then s else v.wait s (.sq x.toNat)

/-! ## Atomics and barriers (R230 to R234) -/

/-- Enter an atomic: its operand, and field d as read at issue (R230). -/
def View.atomic (v : View) (s : State) (op : AtomicOp) (d a b : Reg) (m : BitVec 2) : State :=
  let x := v.rs a
  v.onMem s x (if op == .fadd then 4 else 8)
    (v.elastic s false true (.atomic op x (v.rs b) (v.rs d) (scopeLevel m.toNat x) d))

/-- AADD (R230). -/
def execAadd (h : Head) (d a b : Reg) (m : BitVec 2) (s : State) : Host.Outcome State Fault Refusal :=
  onMX h s fun v => v.atomic s .add d a b m

/-- AMINI (R230). -/
def execAminI (h : Head) (d a b : Reg) (m : BitVec 2) (s : State) : Host.Outcome State Fault Refusal :=
  onMX h s fun v => v.atomic s .minI d a b m

/-- AMINN (R230). -/
def execAminN (h : Head) (d a b : Reg) (m : BitVec 2) (s : State) : Host.Outcome State Fault Refusal :=
  onMX h s fun v => v.atomic s .minN d a b m

/-- AMAXI (R230). -/
def execAmaxI (h : Head) (d a b : Reg) (m : BitVec 2) (s : State) : Host.Outcome State Fault Refusal :=
  onMX h s fun v => v.atomic s .maxI d a b m

/-- AMAXN (R230). -/
def execAmaxN (h : Head) (d a b : Reg) (m : BitVec 2) (s : State) : Host.Outcome State Fault Refusal :=
  onMX h s fun v => v.atomic s .maxN d a b m

/-- AAND (R230). -/
def execAand (h : Head) (d a b : Reg) (m : BitVec 2) (s : State) : Host.Outcome State Fault Refusal :=
  onMX h s fun v => v.atomic s .and d a b m

/-- AOR (R230). -/
def execAor (h : Head) (d a b : Reg) (m : BitVec 2) (s : State) : Host.Outcome State Fault Refusal :=
  onMX h s fun v => v.atomic s .or d a b m

/-- AXOR (R230). -/
def execAxor (h : Head) (d a b : Reg) (m : BitVec 2) (s : State) : Host.Outcome State Fault Refusal :=
  onMX h s fun v => v.atomic s .xor d a b m

/-- AXCHG (R230). -/
def execAxchg (h : Head) (d a b : Reg) (m : BitVec 2) (s : State) : Host.Outcome State Fault Refusal :=
  onMX h s fun v => v.atomic s .xchg d a b m

/-- ACAS (R230). -/
def execAcas (h : Head) (d a b : Reg) (m : BitVec 2) (s : State) : Host.Outcome State Fault Refusal :=
  onMX h s fun v => v.atomic s .cas d a b m

/-- AFADD (R230). -/
def execAfadd (h : Head) (d a b : Reg) (m : BitVec 2) (s : State) : Host.Outcome State Fault Refusal :=
  onMX h s fun v => v.atomic s .fadd d a b m

/-- BARA (R232). -/
def execBara (h : Head) (d a : Reg) (m : BitVec 2) (s : State) : Host.Outcome State Fault Refusal :=
  onMX h s fun v =>
    let x := v.rs a
    v.onMem s x 8 (v.elastic s false true (.bara x (scopeLevel m.toNat x) d))

/-- BARW (R233). -/
def execBarw (h : Head) (a b : Reg) (m : BitVec 2) (s : State) : Host.Outcome State Fault Refusal :=
  onMX h s fun v =>
    let x := v.rs a
    v.onMem s x 8 (v.wait s (.barw x (v.rs b) (scopeLevel m.toNat x)))

/-- FLAGW (R234). -/
def execFlagw (h : Head) (d a b : Reg) (sc cc : BitVec 2) (s : State) : Host.Outcome State Fault Refusal :=
  onMX h s fun v =>
    let x := v.rs a
    v.onMem s x 8 (v.wait s (.flagw x (v.rs b) (if d == 0 then BitVec.allOnes 64 else v.rs d) cc.toNat (scopeLevel sc.toNat x)))

/-! ## Prefetch and instruction caches (R93 to R95, R235, R236) -/

/-- The reference of the issuing context. -/
def View.ref (v : View) : CRef := { strand := v.cur.sid, core := v.cur.core, cl := v.cur.cl }

/-- PREF brings the lines of a range that a TLB translates into the slice cache, as ordinary coherent copies: it changes no value any
access returns (R148, R235). -/
def execPref (h : Head) (a b : Reg) (s : State) : Host.Outcome State Fault Refusal :=
  onMX h s fun v => (linesOf (v.rs a).toNat (v.rs b).toNat).foldl (fun s n =>
    if 2 ^ 48 ≤ 64 * n then s
    else match s.tlbHit v.st.stack v.co.phys v.st.ctx (64 * n) with
      | some p => s.cacheLine v.st.stack v.co.phys (p.at (64 * n))
      | none => s) s

/-- Change the partition of a level as it stands: the cluster's own L0, or the core's L1 (R93). -/
def View.modCache (v : View) (s : State) (lvl : Nat) (f : Nat → List Line → List Line) : State :=
  s.modStrand v.cur.sid fun t =>
    if lvl == 0 then t.modCl v.cur.core v.cur.cl fun c => c.setL0 (v.cur.beat + 8) (f l0Sets c.l0)
    else t.modCore v.cur.core fun c => { c with l1 := f l1Sets c.l1 }

/-- The partition of a level as it stands. -/
def View.cache (v : View) (s : State) (lvl : Nat) : List Line := match s.strand? v.cur.sid with
  | none => []
  | some t => match t.cores[v.cur.core]? with
    | none => []
    | some co => if lvl == 0 then (co.cluster v.cur.cl).l0 else co.l1

/-- Fetch one line into a level, the slice cache being level 2 (R91, R93). DEDUCED (log 71): the tables are walked for a line that no TLB
translates, and one whose walk fails is the line that misses translation and is dropped. -/
def View.fetchInto (v : View) (s : State) (lvl n : Nat) : State :=
  if lvl == 0 then (s.fetchInL0 v.ref n).getD s
  else if lvl == 1 then ((s.fetchL1 { strand := v.cur.sid, core := v.cur.core } n).map (·.1)).getD s
  else match s.lineBus v.st v.co n with
    | .ok b => s.cacheLine v.st.stack v.co.phys b
    | .error _ => s

/-- Pin a line of a partition: the line itself, or a way that stays empty for it (R94). -/
def pinLine (n x : Nat) (sets : Nat) (ls : List Line) : List Line :=
  if (lineOf ls n).isSome then ls.map fun l => if l.tag == n then { l with pinned := true } else l
  else placeLine ls sets { tag := n, bytes := none, pinned := true, used := x }

/-- Fetch one line into level 0 or 1 and pin it, if its set has fewer than three pins (R94). DESIGN CHOICE (log 76): one whose fetch fails
in any way is pinned empty. -/
def View.pinInto (v : View) (s : State) (lvl n : Nat) : State :=
  let ls := v.cache s lvl
  let free := pinsIn ls (if lvl == 0 then l0Sets else l1Sets) n < 3
  let already := (lineOf ls n).any (·.pinned)
  let s := v.fetchInto s lvl n
  if free && !already then v.modCache s lvl (pinLine n v.cur.beat) else s

/-- IPREF, in increasing order of lines (R93). DEDUCED (log 71). -/
def execIpref (h : Head) (a b : Reg) (x : BitVec 2) (s : State) : Host.Outcome State Fault Refusal :=
  onMX h s fun v => (linesOf (v.rs a).toNat (v.rs b).toNat).foldl (fun s n => v.fetchInto s x.toNat n) s

/-- IPIN: d bit 0 tells that some line was left unpinned (R94). -/
def execIpin (h : Head) (d a b : Reg) (x : BitVec 2) (s : State) : Host.Outcome State Fault Refusal :=
  onMX h s fun v =>
    let ns := linesOf (v.rs a).toNat (v.rs b).toNat
    let s := ns.foldl (fun s n => v.pinInto s x.toNat n) s
    let missed := ns.any fun n => !(lineOf (v.cache s x.toNat) n).any (·.pinned)
    v.land s 1 2 (.scalar v.cur.cl d (BitVec.ofNat 64 (bnat missed)))

/-- IUNPIN (R94). -/
def execIunpin (h : Head) (a b : Reg) (x : BitVec 2) (s : State) : Host.Outcome State Fault Refusal :=
  onMX h s fun v => v.modCache s x.toNat fun _ ls =>
    (ls.map fun l => if (linesOf (v.rs a).toNat (v.rs b).toNat).contains l.tag then { l with pinned := false } else l).filter fun l =>
      l.pinned || l.bytes.isSome

/-- ICINV: it reaches every partition of the strand at beat b + 8 (R95); in a handler it acts at once (R239). -/
def execIcinv (h : Head) (a b : Reg) (s : State) : Host.Outcome State Fault Refusal :=
  onMX h s fun v => s.modStrand v.cur.sid fun t =>
    if v.cur.handler then t.invalidate 0 (v.rs a).toNat (v.rs b).toNat
    else { t with icinvs := t.icinvs ++ [(v.cur.beat + 8, (v.rs a).toNat, (v.rs b).toNat)] }

/-! ## Parking (R219) -/

/-- PARK (R219). -/
def execPark (h : Head) (o : OSrc) (a b : Reg) (s : State) : Host.Outcome State Fault Refusal :=
  onMX h s fun v => v.onRow s .parked (v.rs a) (v.rs b) fun bk r =>
    v.store s 4 (.accRow bk r (v.osrc o))

/-- UNPARK (R219). It reads a poisoned bank without a fault nowhere: R291 spares only the ACLD of a handler. -/
def execUnpark (h : Head) (d : VDst) (a b : Reg) (s : State) : Host.Outcome State Fault Refusal :=
  onMX h s fun v => v.onRow s .parked (v.rs a) (v.rs b) fun bk r =>
    if (v.co.bank bk).poison then v.raise s cPoison (v.rs a)
    else v.land s 6 2 (.vec v.cur.cl d (BitVec.allOnes 64) (v.co.accRow bk r))

end Sys2Proof.Machine
end

