-- ==== Sys2Proof/Machine/System.lean ====
section
/-! DEFINITION. The X syllables: engine and block-transfer commands as they enter their queues (R185 to R210, R220, R223),
accumulator banks (R200 to R205), holds, declarations, regions, MOLT, ENQ, TRAP and the trap returns (R237 to R249). One
meaning per instruction. What a command does at its stamp is in the engine files. -/

namespace Sys2Proof.Machine

/-! ## Commands (R185 to R199, R207 to R210, R220, R223) -/

/-- MCFG (R186). -/
def execMcfg (h : Head) (st : Stamp) (g : Reg) (ofs : BitVec 11) (eng : BitVec 2) (s : State) : Host.Outcome State Fault Refusal :=
  onEng h (unitOf eng) s fun v => v.enqueue s (unitOf eng) (.mcfg h st g ofs eng) st (v.rs g)

/-- MGO: the format index is taken at issue (R113, R194). -/
def execMgo (h : Head) (st : Stamp) (cb ca : Bool) (bt at_ : Byte) (s : State) : Host.Outcome State Fault Refusal :=
  onEng h .me s fun v => v.enqueue s .me (.mgo h st cb ca bt at_) st 0 v.fmtIndex

/-- MSTOP (R198). -/
def execMstop (h : Head) (st : Stamp) (s : State) : Host.Outcome State Fault Refusal :=
  onEng h .me s fun v => v.enqueue s .me (.mstop h st) st 0

/-- MBASE (R199). -/
def execMbase (h : Head) (st : Stamp) (g : Reg) (which : BitVec 3) (s : State) : Host.Outcome State Fault Refusal :=
  onEng h .me s fun v => v.enqueue s .me (.mbase h st g which) st (v.rs g)

/-- CFGLD (R187). -/
def execCfgld (h : Head) (st : Stamp) (g : Reg) (ck : Bool) (tag ofs len : Byte) (eng : BitVec 2) (s : State) : Host.Outcome State Fault Refusal :=
  onEng h (unitOf eng) s fun v => v.enqueue s (unitOf eng) (.cfgld h st g ck tag ofs len eng) st (v.rs g)

/-- CFGSWAP (R188). -/
def execCfgswap (h : Head) (st : Stamp) (eng : BitVec 2) (s : State) : Host.Outcome State Fault Refusal :=
  onEng h (unitOf eng) s fun v => v.enqueue s (unitOf eng) (.cfgswap h st eng) st 0

/-- MFMT (R193). -/
def execMfmt (h : Head) (st : Stamp) (g : Reg) (e : BitVec 4) (s : State) : Host.Outcome State Fault Refusal :=
  onEng h .me s fun v => v.enqueue s .me (.mfmt h st g e) st (v.rs g)

/-- The first of `n` rows from `r` that a cluster does not own. -/
def AccBank.notOwned (b : AccBank) (r n cl : Nat) : Option Nat :=
  ((List.range n).map (r + ·)).find? fun i => !b.owns i cl

/-- ACZERO: BOUNDS, then what forbids any command, then OWNERSHIP of every named row, the lower code first (R204, R252). -/
def execAczero (h : Head) (st : Stamp) (rows row : BitVec 6) (bank : BitVec 5) (s : State) : Host.Outcome State Fault Refusal :=
  onEng h .me s fun v =>
    if v.st.fp.acc ≤ bank.toNat then v.raise s cBounds (BitVec.ofNat 64 bank.toNat)
    else match v.enqFault .me st with
      | some c => v.raise s c
      | none => match (v.co.bank bank.toNat).notOwned row.toNat (rows.toNat + 1) v.cur.cl with
        | some r => v.raise s cOwner (BitVec.ofNat 64 bank.toNat) r
        | none => v.enter s .me (.aczero h st rows row bank) st 0 0

/-- XCOPY (R220). -/
def execXcopy (h : Head) (st : Stamp) (g : Reg) (rem : BitVec 2) (ck : Bool) (ex : Byte) (stg : Bool) (tag : Byte) (dst frm : BitVec 5) (s : State) : Host.Outcome State Fault Refusal :=
  onEng h .bte s fun v => v.enqueue s .bte (.xcopy h st g rem ck ex stg tag dst frm) st (v.rs g)

/-- TSLD (R223). -/
def execTsld (h : Head) (st : Stamp) (g : Reg) (slot : BitVec 5) (s : State) : Host.Outcome State Fault Refusal :=
  onEng h .bte s fun v => v.enqueue s .bte (.tsld h st g slot) st (v.rs g)

/-- TSEV (R223). -/
def execTsev (h : Head) (st : Stamp) (slot : BitVec 5) (s : State) : Host.Outcome State Fault Refusal :=
  onEng h .bte s fun v => v.enqueue s .bte (.tsev h st slot) st 0

/-- TLOAD (R207). -/
def execTload (h : Head) (st : Stamp) (g : Reg) (ck : Bool) (tag : Byte) (tb : BitVec 2) (s : State) : Host.Outcome State Fault Refusal :=
  onEng h .te s fun v => v.enqueue s .te (.tload h st g ck tag tb) st (v.rs g)

/-- RLOAD (R209). -/
def execRload (h : Head) (st : Stamp) (g : Reg) (ck : Bool) (tag : Byte) (s : State) : Host.Outcome State Fault Refusal :=
  onEng h .re s fun v => v.enqueue s .re (.rload h st g ck tag) st (v.rs g)

/-- RSTEP (R210). -/
def execRstep (h : Head) (st : Stamp) (g : Reg) (gens : BitVec 6) (cheq : Bool) (nb : BitVec 2) (alt pl : BitVec 5) (s : State) : Host.Outcome State Fault Refusal :=
  onEng h .re s fun v => v.enqueue s .re (.rstep h st g gens cheq nb alt pl) st (v.rs g)

/-! ## Accumulator banks (R200 to R205) -/

/-- Set a bank's state on a core. -/
def Core.setBank (c : Core) (b : Nat) (x : AccBank) : Core := { c with banks := vset c.banks b x }

/-- A bank is a C bank of a nest in progress, its last landing included (R197). -/
def Core.cBusy (c : Core) (b beat : Nat) : Bool :=
  (match c.nest with
    | some n => n.banks.contains b
    | none => false) || c.cbusy.any fun e => e.1 == b && beat < e.2

/-- The four band masks of a strand's cluster mask (R136, R200). -/
def allBands (m : BitVec 4) : BitVec 16 := m ++ m ++ m ++ m

/-- ACALLOC (R200, R205): the state changes at once for the clusters after this one; the elements read zero, and `allocst`
is written, from b + 1. -/
def execAcalloc (h : Head) (d a : Reg) (zero park : Bool) (s : State) : Host.Outcome State Fault Refusal :=
  onMX h s fun v => v.onBank s (v.rs a) fun b =>
    if (v.co.bank b).mode != .unallocated then v.raise s cAlloc (v.rs a)
    else
      let co := v.co.setBank b { v.co.bank b with mode := if park then .parked else .allocated, own := allBands v.st.fp.mask }
      let s := v.modCore s fun c => { c with banks := co.banks }
      let s := if zero then v.store s 1 (.accZero b 0 64) else s
      v.land s 1 3 (.scalar v.cur.cl d (allocst co.banks))

/-- ACFREE (R201). An MGO or an MBASE that starts on this beat may make the bank a C bank of a nest in progress; that is seen once the
beat's commands have started (R134). -/
def execAcfree (h : Head) (a : Reg) (s : State) : Host.Outcome State Fault Refusal :=
  onMX h s fun v => v.onBank s (v.rs a) fun b =>
    if (v.co.bank b).mode == .unallocated || v.co.cBusy b v.cur.beat then v.raise s cAlloc (v.rs a)
    else v.modCore s fun c =>
      { (c.setBank b { c.bank b with mode := .unallocated }) with
        pending := c.pending ++ [{ cl := v.cur.cl, claim := none, bank := some b, shadow := v.cur.shadow }] }

/-- ACOWN (R202, R205): the masks of the lowest-numbered cluster of a beat stand. -/
def execAcown (h : Head) (a b : Reg) (s : State) : Host.Outcome State Fault Refusal :=
  onMX h s fun v => v.onBank s (v.rs a) fun k =>
    let x := v.co.bank k
    if x.mode == .unallocated then v.raise s cAlloc (v.rs a)
    else if x.ownBeat == v.cur.beat + 1 && !v.cur.handler then s
    else v.modCore s fun c => c.setBank k
      { x with own := (v.rs b).truncate 16 &&& allBands v.st.fp.mask, ownBeat := if v.cur.handler then x.ownBeat else v.cur.beat + 1 }

/-- ACLD (R203): the row as it stands, each lane converted, landing whole at b + 6. Rounding 4 advances the state whatever
the guard (R126). -/
def execAcld (h : Head) (d : VDst) (a b : Reg) (cv : Conv) (s : State) : Host.Outcome State Fault Refusal :=
  withView s fun v =>
    let s := v.keepSr s cv.rnd.toNat
    if v.guard h.neg h.g then
      v.onRow s .allocated (v.rs a) (v.rs b) fun bk r =>
        if (v.co.bank bk).poison && !v.cur.handler then v.raise s cPoison (v.rs a)
        else v.land s 6 3 (.vec v.cur.cl d (BitVec.allOnes 64)
          (cvtLanes (v.srNext cv.rnd.toNat) cv.src.toNat cv.frS cv.dst.toNat cv.toS cv.rnd.toNat (v.co.accRow bk r)))
    else s

/-! ## Holds (R237) -/

/-- WAITB: the next bundle issues at b + 1 + n (R237). -/
def execWaitb (h : Head) (a : Reg) (s : State) : Host.Outcome State Fault Refusal :=
  onMX h s fun v => v.modCl s fun c => { c with waitb := v.cur.beat + 1 + (low32 (v.rs a)).toNat }

/-- WAITB.until: the next bundle issues at the later of b + 1 and a (R237). -/
def execWaitbUntil (h : Head) (a : Reg) (s : State) : Host.Outcome State Fault Refusal :=
  onMX h s fun v => v.modCl s fun c => { c with waitb := max (v.cur.beat + 1) (v.rs a).toNat }

/-! ## Pacing (R245 to R248) -/

/-- DEADLINE (R245); a count of zero is a clear. DEDUCED (log 55). -/
def execDeadline (h : Head) (a b : Reg) (s : State) : Host.Outcome State Fault Refusal :=
  onMX h s fun v =>
    let left := fld (v.rs a).toNat 0 48
    s.modStrand v.cur.sid fun t =>
      { t with decl := if left == 0 then none
          else some { left, due := s.wtime + fld (v.rs b).toNat 0 48, core := v.cur.core, cl := v.cur.cl, risk := false, fresh := !v.cur.handler } }

/-- DEADLINE.clr (R245). -/
def execDeadlineClr (h : Head) (s : State) : Host.Outcome State Fault Refusal :=
  onMX h s fun v => s.modStrand v.cur.sid fun t => { t with decl := none }

/-- Change the strand's region. -/
def View.modRegion (v : View) (s : State) (f : Region → Region) : State :=
  s.modStrand v.cur.sid fun t => { t with region := f t.region }

/-- What a later ACQP or RELP of the same beat leaves of the earlier ones: nothing (R246). -/
def Region.undoBeat (r : Region) (b : Nat) : Region :=
  { r with reqs := r.reqs.filter (fun q => q.1 != b), falls := r.falls.filter fun f => f.1 != b }

/-- A region is open, with no RELP since (R247). -/
def Region.inside (r : Region) : Bool := r.on && r.falls.all fun f => !f.2.2

/-- The place of a context among those that act on one beat: clusters rising, and of each the logical cores rising (R246). -/
def Cur.place (c : Cur) : Nat := 64 * c.cl + c.core

/-- An ACQP or a RELP acts: of those of one beat, the last in cluster and then in core order (R246). In a handler each acts in turn
(R239). -/
def View.onRegion (v : View) (r : Region) (f : Region → Region) : Region :=
  if v.cur.handler then f (r.undoBeat v.cur.beat)
  else if r.last.any fun l => l.1 == v.cur.beat && v.cur.place < l.2 then r
  else { f (r.undoBeat v.cur.beat) with last := some (v.cur.beat, v.cur.place) }

/-- ACQP: inside a region a lower level takes effect as RELP does; any other waits for its grant (R246). -/
def execAcqp (h : Head) (n : BitVec 5) (s : State) : Host.Outcome State Fault Refusal :=
  onMX h s fun v => v.modRegion s fun r => v.onRegion r fun r =>
    if r.inside && n.toNat < r.level then { r with falls := r.falls ++ [(v.cur.beat, n.toNat, false)] }
    else { r with reqs := r.reqs ++ [(v.cur.beat, n.toNat, (s.stack v.st.stack).cyc, none)] }

/-- RELP (R247). Outside a region it does nothing but undo an ACQP of its own beat (R246). -/
def execRelp (h : Head) (s : State) : Host.Outcome State Fault Refusal :=
  onMX h s fun v => v.modRegion s fun r => v.onRegion r fun r =>
    if r.inside then { r with falls := r.falls ++ [(v.cur.beat, 0, true)] } else r

/-- A MOLT request word is malformed (R248). -/
def moltBad (w : Nat) : Bool :=
  w / 256 != 0 || 4 < fld w 0 3 || 2 ^ fld w 0 3 ≤ fld w 4 4 || (fld w 3 1 == 1 && fld w 4 4 != 0)

/-- MOLT (R248): MALFORMED and BUSY at b + 1; otherwise the request waits for the weaver. -/
def execMolt (h : Head) (d a : Reg) (s : State) : Host.Outcome State Fault Refusal :=
  onMX h s fun v =>
    let w := (v.rs a).toNat
    if moltBad w then v.land s 1 3 (.scalar v.cur.cl d 3)
    else if v.st.molt.isSome then v.land s 1 3 (.scalar v.cur.cl d 4)
    else s.modStrand v.cur.sid fun t =>
      { t with molt := some { stride := 2 ^ fld w 0 3, pin := if fld w 3 1 == 1 then none else some (fld w 4 4),
                              core := v.cur.core, cl := v.cur.cl, d } }

/-! ## ENQ, TRAP and the returns (R242 to R244, R249) -/

/-- ENQ (R249): ADDRESS, QUEUE, ENQ-TYPE, in the order of their codes (R252). -/
def execEnq (h : Head) (d a b : Reg) (s : State) : Host.Outcome State Fault Refusal :=
  onMX h s fun v =>
    let hdr := low32 (v.rs b)
    v.onMem s (v.rs a) 64 <|
      if v.cl.sq.entries.length < 16 && 7 < hdr.toNat % 256 then v.raise s cEnq 0 (hdr.toNat % 256)
      else v.elastic s false true (.enq (v.rs a) hdr d)

/-- TRAP: SOFTWARE, taken after the bundle (R242). -/
def execTrap (h : Head) (a : Reg) (n : BitVec 5) (s : State) : Host.Outcome State Fault Refusal :=
  onMX h s fun v => s.modStrand v.cur.sid fun t => t.raise
    { code := cSoft, kind := .soft, core := v.cur.core, cl := v.cur.cl, beat := v.cur.beat, cyc := (s.stack v.st.stack).cyc,
      addr := v.rs a, detail := n.toNat, queue := 0, fseq := 0, shadow := false, k0 := none }

/-- Leave the innermost trap bank, then skip `n` bundles: ILLEGAL with no bank in use or in a delay bundle, whatever the
guard; UNRESUMABLE where the bank's cause has Shadow (R78, R243). A transfer beside it stands in no delay bundle. -/
def View.tret (v : View) (s : State) (h : Head) (n : Nat) : State :=
  match v.cl.inner with
  | none => v.raise s cIllegal
  | some b =>
    if v.cl.seq.pos != 0 && !v.cur.moved then v.raise s cIllegal
    else if !v.guard h.neg h.g then s
    else if bitAt b.cause 16 then v.raise s cUnres
    else
      let s := v.modCl s fun c => releaseBank c n
      { s with cur := some { v.cur with moved := true } }

/-- TRET (R243). -/
def execTret (h : Head) (s : State) : Host.Outcome State Fault Refusal := withView s fun v => v.tret s h 0

/-- TRET.SKIP (R243, R244). -/
def execTretSkip (h : Head) (n : BitVec 5) (s : State) : Host.Outcome State Fault Refusal := withView s fun v => v.tret s h n.toNat

end Sys2Proof.Machine
end

