-- ==== Sys2Proof/Machine/EngineOps.lean ====
section
/-! DEFINITION. What engine commands share: finding the engine, capacity (R133, R134, R140), raising E causes (R251, R281),
starting a command (R185), reading lines (R137, R207, R209, R223), and the landing of every timed effect (R106, R107, R255,
R259). -/

namespace Sys2Proof.Machine

/-! ## The engine's place -/

/-- What an engine event sees: the core it runs on, and its strand. -/
structure EView where
  ref : CoreRef
  st  : Strand
  co  : Core
  deriving DecidableEq, Repr

/-- The strand and core of an engine event. -/
def State.eview (s : State) (c : CoreRef) : Option EView :=
  match s.strand? c.strand with
  | none => none
  | some st => match st.cores[c.core]? with
    | none => none
    | some co => some { ref := c, st, co }

/-- Change a core of a strand. -/
def State.modCoreRef (s : State) (c : CoreRef) (f : Core → Core) : State := s.modStrand c.strand fun t => t.modCore c.core f

/-- The mark of word `w` of an engine's active or shadow plane (R290, log 68). -/
def planeMark (u : Unit') (shadow : Bool) (w : Nat) : Nat := 116 + (match u with
  | .te => 1
  | .re => 2
  | _ => 0) + 4 * bnat shadow + 8 * w

/-- The first marked word that `n` bytes of an engine's plane from an offset touch, by its mark. -/
def Core.planeBad (c : Core) (u : Unit') (shadow : Bool) (at_ n : Nat) : Option Nat :=
  c.marks.find? fun m => m == planeMark u shadow ((m - 116) / 8) && at_ < 4 * ((m - 116) / 8) + 4 && 4 * ((m - 116) / 8) < at_ + n

/-- A write of `n` bytes of an engine's plane clears the marks of the words it covers whole (R290). -/
def Core.healPlane (c : Core) (u : Unit') (shadow : Bool) (at_ n : Nat) : Core :=
  { c with marks := c.marks.filter fun m => !(m == planeMark u shadow ((m - 116) / 8) &&
      at_ ≤ 4 * ((m - 116) / 8) && 4 * ((m - 116) / 8) + 4 ≤ at_ + n) }

/-- The marks of an engine's planes change places with the planes. -/
def flipMarks (u : Unit') (ms : List Nat) : List Nat := ms.map fun m =>
  if m < 116 then m
  else if m == planeMark u false ((m - 116) / 8) then m + 4
  else if m == planeMark u true ((m - 116) / 8) then m - 4 else m

/-- Change the engine's core. -/
def EView.mod (v : EView) (s : State) (f : Core → Core) : State := s.modCoreRef v.ref f

/-- The beat the event runs on. -/
def EView.x (v : EView) : Nat := v.st.beat

/-- The code of a queue in a cause word (R241). -/
def unitCode : Unit' → Nat
  | .me => 1
  | .te => 2
  | .re => 3
  | .bte => 4

/-- The queue of a command (R185, R220). -/
def cmdUnit : Instr → Unit'
  | .mcfg _ _ _ _ e => unitOf e
  | .cfgld _ _ _ _ _ _ _ e => unitOf e
  | .cfgswap _ _ e => unitOf e
  | .tload .. => .te
  | .rload .. => .re
  | .rstep .. => .re
  | .xcopy .. => .bte
  | .tsld .. => .bte
  | .tsev .. => .bte
  | _ => .me

/-- The engine of an event's Eng field. -/
def engUnit : Eng → Unit'
  | .me => .me
  | .te => .te
  | .re => .re

/-- Raise an E cause of a command: the cluster that issued it takes it, and the engine starts nothing more before the stop
(R251, R281, R323). -/
def State.raiseE (s : State) (c : CoreRef) (cmd : Cmd) (code : Nat) (addr : W64 := 0) (detail : Nat := 0)
    (k0 : Option W64 := none) : State :=
  s.modStrand c.strand fun t =>
    (t.raise { code, kind := .e, core := c.core, cl := cmd.cl, beat := t.beat, cyc := (s.stack t.stack).cyc, addr, detail,
               queue := unitCode (cmdUnit cmd.ins), fseq := cmd.seq, shadow := false, k0 }).modCore c.core fun co =>
      co.modEng (cmdUnit cmd.ins) fun e => { e with faulted := true }

/-- The accumulator banks as the beat began: what every agent but a cluster that names a bank sees (R205). -/
def EView.banks (v : EView) (s : State) : Vector AccBank 32 :=
  match s.snap with
  | none => v.co.banks
  | some t => if t.sid == v.ref.strand then (match t.cores[v.ref.core]? with
      | some c => c.banks
      | none => v.co.banks) else v.co.banks

/-! ## Capacity (R133, R134, R140) -/

/-- The key of the DRAM share among claims. -/
def dramGroup : Nat := 100
/-- The key of the network lane. -/
def laneGroup : Nat := 101

/-- What one beat of a group can carry. -/
def Strand.capacity (t : Strand) (group : Nat) : Nat :=
  if group == dramGroup then t.fp.share else if group == laneGroup then 256 else 512

/-- The reads and writes that claims hold on a beat of a group. -/
def claimSum (cs : List Claim) (beat group : Nat) : Nat × Nat :=
  (cs.filter fun c => c.beat == beat && c.group == group).foldl (fun a c => (a.1 + c.rd, a.2 + c.wr)) (0, 0)

/-- The claims of a logical core. -/
def Strand.claimsOn (t : Strand) (n : Nat) : List Claim := match t.cores[n]? with
  | some c => c.claims
  | none => []

/-- New claims, each with its logical core, fit beside those that stand. -/
def Strand.fits (t : Strand) (new : List (Nat × Claim)) : Bool :=
  new.all fun k =>
    let mine := (new.filter fun m => m.1 == k.1).map (·.2)
    let u := claimSum (mine ++ t.claimsOn k.1) k.2.beat k.2.group
    u.1 ≤ t.capacity k.2.group && u.2 ≤ t.capacity k.2.group

/-- Commit claims. -/
def Strand.commit (t : Strand) (new : List (Nat × Claim)) : Strand :=
  new.foldl (fun t k => t.modCore k.1 fun c => { c with claims := k.2 :: c.claims }) t

/-- Commit claims of a strand of the device. -/
def State.commitClaims (s : State) (sid : Nat) (new : List (Nat × Claim)) : State := s.modStrand sid fun t => t.commit new

/-! ## Starting a command (R138, R185) -/

/-- The command that a queue starts on a beat, if it starts one. -/
def Core.due (c : Core) (u : Unit') (x : Nat) : Option Cmd :=
  match (c.eng u).q with
  | cmd :: _ => if cmd.stamp ≤ x && !(c.eng u).faulted then some cmd else none
  | [] => none

/-- The code of the cause that a change of the state has raised on a strand, if it has. -/
def State.raisedBy (old new : State) (sid : Nat) : Option Nat := match old.strand? sid, new.strand? sid with
  | some t, some u => (u.raised.drop t.raised.length).head?.map (·.code)
  | _, _ => none

/-- Start the command at the head of a queue by `f`. It leaves the queue. Where a swap that started earlier has still to flip it raises
SCHEDULE (R138), unless it fails a check of a lower code (R252). -/
def startCmd (c : CoreRef) (u : Unit') (ok : Instr → Bool) (s : State) (f : EView → Cmd → State → State) :
    Host.Outcome State Fault Refusal :=
  match s.eview c with
  | none => .fault .noOccasion
  | some v => match v.co.due u v.x with
    | none => .fault .noOccasion
    | some cmd =>
      if ok cmd.ins then
        let s := v.mod s fun co => co.modEng u fun e => { e with q := e.q.drop 1 }
        let t := f v cmd s
        .next (if (v.co.eng u).swaps.any (fun k => k.stamp < v.x) && ((s.raisedBy t c.strand).all fun code => cSchedule ≤ code) then
          s.raiseE c cmd cSchedule else t)
      else .fault .noOccasion

/-- Raise OVERCURRENT where a command's draw exceeds the region's level, and otherwise go on (R246, R252). -/
def EView.draws (v : EView) (s : State) (cmd : Cmd) (lvl : Nat) (f : State → State) : State :=
  if v.st.region.exceeds v.x lvl then s.raiseE v.ref cmd cOver 0 lvl else f s

/-- An engine has a command in progress (R138, R188). -/
def Core.working (c : Core) : Unit' → Bool
  | .me => c.nest.isSome
  | .te => c.loads.any fun l => isTload l.cmd.ins
  | .re => c.rstep.isSome || c.loads.any fun l => isRload l.cmd.ins
  | .bte => false

/-! ## Line loads (R73, R133, R137) -/

/-- Begin to read `lines` lines of 64 bytes from a scratchpad address, one a beat from the next beat on: BOUNDS where the
range of `n` bytes is misaligned or outside the banks, SCHEDULE where capacity is lacking. `pre` is a check between. -/
def EView.load (v : EView) (s : State) (cmd : Cmd) (n lines lvl : Nat) (pre : Option Nat) (f : State → State) : State :=
  let a := cmd.val.toNat
  let new := (List.range lines).map fun j => (v.ref.core, { beat := v.x + 1 + j, group := v.co.group (a + 64 * j), rd := 64, wr := 0 : Claim })
  if a % 64 != 0 || !v.st.fp.spadOk a n then s.raiseE v.ref cmd cBounds cmd.val
  else match pre with
    | some code => s.raiseE v.ref cmd code
    | none =>
      if !v.st.fits new then s.raiseE v.ref cmd cSchedule
      else v.draws s cmd lvl fun s =>
        f (v.mod (s.commitClaims v.ref.strand new) fun c =>
          { c with loads := c.loads ++ [{ cmd, start := v.x, addr := a, lines, got := [], seen := [] }] })

/-- The tag a load expects, if its command states one. -/
def loadTag : Instr → Option Byte
  | .cfgld _ _ _ ck tag _ _ _ => if ck then some tag else none
  | .tload _ _ _ ck tag _ => if ck then some tag else none
  | .rload _ _ _ ck tag => if ck then some tag else none
  | _ => none

/-- What one line of a load comes to: the load with the line read, or the cause that ends it. -/
def EView.readLine (v : EView) (l : Load) : Except (Nat × Nat × Nat) Load :=
  let a := l.addr + l.got.length
  let tag := loadTag l.cmd.ins
  if !l.seen.contains (a / 4096) && v.st.tagck && (match tag with
      | some t => Sparse.get v.co.tags (a / 4096) != t
      | none => false) then .error (cSchedule, a, (tag.getD 0).toNat)
  else match v.co.spadBad a 64 with
    | some w => .error (cPoison, 4 * w, 0)
    | none => .ok { l with got := l.got ++ v.co.spadBytes a 64, seen := (a / 4096) :: l.seen }

/-- CFGLD's and TSLD's ends: the shadow plane takes the image; the slot takes the descriptor. -/
def loadPlaneAt : Instr → Nat
  | .cfgld _ _ _ _ _ ofs _ _ => 64 * ofs.toNat
  | _ => 0

/-- The descriptor in 64 bytes, if it passes the checks of R143. -/
def shapeOf (fp : Footprint) (bs : List Byte) : Option Shape :=
  let w (i : Nat) : Nat := natOfBytes ((bs.drop (8 * i)).take 8)
  let ok := w 1 < 2 && fld (w 2) 24 40 == 0 && fld (w 3) 48 16 == 0 && w 7 == 0 && fld (w 2) 0 24 != 0 &&
    fld (w 3) 0 16 != 0 && fld (w 3) 16 16 != 0 && fld (w 3) 32 16 != 0 && (w 1 == 0 || fp.spadOk (w 0) 1)
  if ok then
    some { base := BitVec.ofNat 64 (w 0), spad := w 1 == 1, run := fld (w 2) 0 24, count1 := fld (w 3) 0 16,
           count2 := fld (w 3) 16 16, count3 := fld (w 3) 32 16, stride1 := BitVec.ofNat 64 (w 4),
           stride2 := BitVec.ofNat 64 (w 5), stride3 := BitVec.ofNat 64 (w 6) }
  else none

/-- The beat at which a load ends (R137, R207, R209, R223). -/
def Load.stop (l : Load) : Nat := match l.cmd.ins with
  | .cfgld .. => l.start + 16 + l.lines
  | .tsld .. => l.start + 2
  | _ => l.start + l.lines + 1

/-- End a CFGLD or TSLD whose beat has come (R137, R223). -/
def EView.endLoad (v : EView) (s : State) (l : Load) : State :=
  let s := v.mod s fun c => { c with loads := c.loads.filter fun m => m != l }
  match l.cmd.ins with
  | .cfgld .. => v.mod s fun c => (c.modEng (cmdUnit l.cmd.ins) fun e =>
      { e with shadow := Sparse.setAll e.shadow (cellsAt (loadPlaneAt l.cmd.ins) l.got) }).healPlane
        (cmdUnit l.cmd.ins) true (loadPlaneAt l.cmd.ins) l.got.length
  | .tsld _ _ _ slot => match shapeOf v.st.fp l.got with
    | some d => v.mod s fun c => { c with shapes := vset c.shapes slot.toNat (some d), marks := heal true (84 + slot.toNat) c.marks }
    | none => s.raiseE v.ref l.cmd cFormat
  | _ => s

/-- One beat of one load: read the line of this beat, or end what ends on it. DEDUCED (log 23). -/
def State.loadBeat (s : State) (c : CoreRef) (l : Load) : State :=
  match s.eview c with
  | none => s
  | some v =>
    if l.got.length < 64 * l.lines && l.start + 1 + l.got.length / 64 ≤ v.x then
      match v.readLine l with
      | .error e =>
        (v.mod s fun c => { c with loads := c.loads.filter fun m => m != l }).raiseE c l.cmd e.1 (BitVec.ofNat 64 e.2.1) e.2.2
      | .ok l' =>
        let s := v.mod s fun c => { c with loads := c.loads.map fun m => if m == l then l' else m }
        if !isTload l.cmd.ins && !isRload l.cmd.ins && l'.stop ≤ v.x then v.endLoad s l' else s
    else if !isTload l.cmd.ins && !isRload l.cmd.ins && l.stop ≤ v.x then v.endLoad s l
    else s

/-- The logical cores of a strand. -/
def Strand.coreRefs (t : Strand) : List CoreRef := (List.range t.cores.length).map fun n => { strand := t.sid, core := n }

/-- Every load of a strand takes its beat. -/
def State.loadsBeat (s : State) (t : Strand) : State :=
  t.coreRefs.foldl (fun s c => match s.eview c with
    | none => s
    | some v => v.co.loads.foldl (fun s l => s.loadBeat c l) s) s

/-! ## Matrix arithmetic (R119, R127, R195) -/

/-- The bits of an element of a format (R115). -/
def fmtWidth (f : Nat) : Nat := if f == 1 || f == 2 then 16 else if f == 3 || f == 5 then 8 else 4
/-- Element `k` of row `r` of a block: rows of 32 elements packed from the least significant bit (R115, R195). -/
def blockElem (f : Nat) (bs : List Byte) (r k : Nat) : Nat :=
  let e := fmtWidth f
  let bit := (32 * r + k) * e
  fld (natOfBytes ((bs.drop (bit / 8)).take 2)) (bit % 8) e
/-- A scale entry (R195): per row for ROW, one for every row for TILE. -/
def blockScale (layout : Nat) (bs : List Byte) (r : Nat) : Nat :=
  natOfBytes ((bs.drop (if layout == 1 then 2 * r else 0)).take 2)

/-- The fields of a format-table entry (R192): A format, B format, A signed, B signed, accumulate, scale layout. -/
structure FmtEntry where
  a : Nat
  b : Nat
  sa : Bool
  sb : Bool
  acc : Nat
  scales : Nat
  deriving DecidableEq, Repr

/-- Read a format entry. -/
def fmtEntry (w : W32) : FmtEntry :=
  let n := w.toNat
  { a := fld n 0 4, b := fld n 4 4, sa := bitAt w 8, sb := bitAt w 9, acc := fld n 10 2, scales := fld n 12 2 }

/-- The value of an element of a float or DX format (R117, R121, R195). -/
def fpElem (f layout : Nat) (bs scs : List Byte) (r k : Nat) : Fp :=
  if f == 3 || f == 4 then decodeDx f (blockElem f bs r k) (blockScale layout scs r)
  else flushIn f (fpOf f (blockElem f bs r k))

/-- One element of C after a block step (R119, R127, R195). In a float chunk the remainder is padded with products of zero. -/
def stepElem (e : FmtEntry) (kk : Nat) (a b sa sb : List Byte) (c : W32) (m col : Nat) : W32 :=
  if e.acc == 0 then
    accFp c ((List.range kk).map (fun k => Fp.mul (fpElem e.a e.scales a sa m k) (fpElem e.b e.scales b sb col k)) ++
      List.replicate (32 - kk) (.fin false 0 0))
  else
    let z := (List.range kk).foldl (fun z k =>
      z + intOf e.a e.sa (blockElem e.a a m k) * intOf e.b e.sb (blockElem e.b b col k)) (0 : Int)
    if e.acc == 1 then c + BitVec.ofInt 32 z else clamp32 true (c.toInt + z)

/-- A bank's 4,096 elements after a block step. -/
def stepBank (acc : Sparse 32) (bank : Nat) (zero : Bool) (w : W32) (kk : Nat) (a b sa sb : List Byte) : Sparse 32 :=
  let e := fmtEntry w
  Sparse.setAll acc ((List.range 4096).map fun i =>
    let key := bank * 4096 + i
    (key, stepElem e kk a b sa sb (if zero then 0 else Sparse.get acc key) (i / 64) (i % 64)))

/-! ## Landing (R106, R107, R136, R259) -/

/-- Clear the marks of words that a write covers whole, then set those it carries (R290). DEDUCED (log 24). -/
def markWords (marks : List Nat) (at_ n : Nat) (bad : List Nat) : List Nat :=
  (marks.filter fun w => !(at_ ≤ 4 * w && 4 * w + 4 ≤ at_ + n)) ++ bad

/-- Apply a timed effect that touches its core alone. -/
def Core.apply (c : Core) (beat : Nat) : Act → Core
  | .scalar k d v => c.modCl k fun x => x.ws beat d v
  | .pred k d v mask => c.modCl k fun x => x.wp d v mask
  | .vec k d act v => c.modCl k fun x => x.landVec d act v
  | .append k q v => c.modCl k fun x => { x with q := vset x.q q (vget x.q q [] ++ [v]) }
  | .plane _ cells =>
    { c with planes := Sparse.setAll c.planes cells, planePoison := c.planePoison.filter fun i => !cells.any fun e => e.1 == i }
  | .ruled _ cells =>
    { c with planes := cells.foldl (fun m e => Sparse.set m e.1 ((Sparse.get m e.1 &&& ~~~e.2.1) ||| (e.2.2 &&& e.2.1))) c.planes,
             planePoison := c.planePoison.filter fun i => !cells.any fun e => e.1 == i && e.2.1 == BitVec.allOnes 32 }
  | .spad a bs bad =>
    { c with spad := Sparse.setAll c.spad (cellsAt a bs), spadPoison := markWords c.spadPoison a bs.length bad }
  | .tag tile t => { c with tags := Sparse.set c.tags tile t }
  | .accRow bank row v => { c with acc := Sparse.setAll c.acc (cellsAt (cellKey bank row 0) (lanesList v)) }
  | .accZero bank row n =>
    { (c.setBank bank { c.bank bank with poison := false }) with
      acc := Sparse.clear c.acc fun k => cellKey bank row 0 ≤ k && k < cellKey bank (row + n) 0 }
  | .accAdd bank zero fmt kk a b sa sb =>
    { (if zero then c.setBank bank { c.bank bank with poison := false } else c) with
      acc := stepBank c.acc bank zero fmt kk a b sa sb }
  | .accPoison bank => c.setBank bank { c.bank bank with poison := true }
  | .fmtEntry e v => { c with fmt := vset c.fmt e v, marks := heal true (68 + e) c.marks }
  | .special k code v => c.modCl k fun x => x.writeSpecial code v
  | .dram .. => c
  | .teval k d act n v => c.modCl k fun x => x.landVec d act (map1 (teval c.te.active n) v)
  | .rgc k d v => c.modCl k fun x => x.ws beat d v

/-- What a TEVAL or a read of `rgc` comes to at the end of its beat: by the table engine's active plane, and with 0 where the rule
engine's planes have flipped since the beat began (R184, R188). -/
def Core.outcome (c : Core) (flips : Nat) (a : Act) : Act := match a with
  | .teval k d act n v => .vec k d act (map1 (teval c.te.active n) v)
  | .rgc k d v => .scalar k d (if c.re.flips == flips then v else 0)
  | a => a

/-- The beat's reads of tables and of `rgc` are decided; `old` is the core as the beat's bundles began. -/
def Core.decideAll (c old : Core) : Core :=
  { c with agenda := c.agenda.map fun e => { e with act := c.outcome old.re.flips e.act } }

/-! ## What is to land, for those that do not wait for it (R239, R286) -/

/-- A core with entries of its agenda landed. -/
def Core.withLanded (c : Core) (es : List Timed) : Core := es.foldl (fun c e => c.apply e.beat e.act) c

/-- The core as an interlocked bundle sees it: everything issued before the beat has landed (R239, R286). What the bundles
of the beat itself have issued stays to come. DEDUCED (log 16). -/
def Core.settled (c : Core) (before : Option Core) : Core :=
  let old (e : Timed) : Bool := match before with
    | some o => o.agenda.contains e
    | none => true
  { c.withLanded (c.agenda.filter old) with agenda := [] }

/-- Take the first append to an operand queue out of an agenda. -/
def dropAppend (k q : Nat) : List Timed → List Timed
  | [] => []
  | e :: es => match e.act with
    | .append c n _ => if c == k && n == q then es else e :: dropAppend k q es
    | _ => e :: dropAppend k q es

/-- Take the head of an operand queue, or, where the queue is empty, of the first append that is to come. -/
def Core.popHead (c : Core) (k q : Nat) : Core := match vget (c.cluster k).q q [] with
  | _ :: vs => c.modCl k fun x => { x with q := vset x.q q vs }
  | [] => { c with agenda := dropAppend k q c.agenda }

/-- Repeat a change. -/
def iter {α : Type} (f : α → α) : Nat → α → α
  | 0, x => x
  | n + 1, x => iter f n (f x)

/-- The registers, queues and stores of a core as another holds them. -/
def Core.withStores (c o : Core) : Core :=
  let cluster (k : Nat) : Cluster :=
    { c.cluster k with s := (o.cluster k).s, p := (o.cluster k).p, o := (o.cluster k).o, l := (o.cluster k).l,
                       q := (o.cluster k).q, slog := (o.cluster k).slog, struck := (o.cluster k).struck }
  { c with
    cl := #v[cluster 0, cluster 1, cluster 2, cluster 3], planes := o.planes, planePoison := o.planePoison, spad := o.spad,
    spadPoison := o.spadPoison, tags := o.tags, acc := o.acc, fmt := o.fmt, marks := o.marks,
    banks := Vector.ofFn fun i : Fin 32 => { c.bank i.val with poison := (o.bank i.val).poison } }

/-- After a bundle or an engine that saw results before their beats: the stores and the agenda as they were but for the operands it
took, and what it issued to come (R282, R286). `seen` is the core it saw, `c` what it left. DEDUCED (log 16). -/
def Core.unsettled (c seen old : Core) : Core :=
  let held (b : Nat) : AccBank :=
    if (c.bank b).poison == (seen.bank b).poison then { c.bank b with poison := (old.bank b).poison } else c.bank b
  let took (k q : Nat) : Nat := (vget (seen.cluster k).q q []).length - (vget (c.cluster k).q q []).length
  let base : Core :=
    { (c.withStores old) with coming := old.coming, agenda := old.agenda.filter fun e => !seen.agenda.contains e, banks := Vector.ofFn fun i : Fin 32 => held i.val }
  let base := (List.range 16).foldl (fun b i => iter (fun b => b.popHead (i / 4) (i % 4)) (took (i / 4) (i % 4)) b) base
  { base with agenda := c.agenda.foldl (fun a e => insertTimed e a) base.agenda }

/-- The core as all but bundles with Shadow see it: what a drain has landed stands in it (R282). -/
def Core.drainedSeen (c : Core) : Core :=
  { c.withLanded (c.agenda.filter (·.drained)) with agenda := c.agenda.filter fun e => !e.drained }

/-- Let a bundle without Shadow, or an engine, of a strand act with what a drain has landed in view (R282, R286). -/
def State.seeing (s : State) (sid : Nat) (f : State → State) : State := match s.strand? sid with
  | none => f s
  | some t =>
    if t.cores.all fun c => c.agenda.all fun e => !e.drained then f s
    else
      let seen := t.cores.map Core.drainedSeen
      (f (s.modStrand sid fun t => { t with cores := seen })).modStrand sid fun u =>
        { u with cores := List.zipWith (fun c o => c.unsettled o.1 o.2) u.cores (seen.zip t.cores) }

/-- The accumulator bank that an effect writes. -/
def Act.accBank : Act → Option Nat
  | .accRow b _ _ => some b
  | .accZero b _ _ => some b
  | .accAdd b _ _ _ _ _ _ _ => some b
  | .accPoison b => some b
  | _ => none

/-- Two effects write the same place, so that their order counts. -/
def Act.clashes (a b : Act) : Bool := match a, b with
  | .scalar c d _, .scalar k e _ => c == k && d == e
  | .pred c d _ _, .pred k e _ _ => c == k && d == e
  | .vec c _ _ _, .vec k _ _ _ => c == k
  | .append c q _, .append k n _ => c == k && q == n
  | .plane p cs, .plane q ds => p == q && cs.any fun x => ds.any fun y => x.1 == y.1
  | .ruled p _, .plane q _ => p == q
  | .plane p _, .ruled q _ => p == q
  | .spad x bs _, .spad y cs _ => x < y + cs.length && y < x + bs.length
  | .tag t _, .tag u _ => t == u
  | .fmtEntry e _, .fmtEntry f _ => e == f
  | a, b => match a.accBank, b.accBank with
    | some x, some y => x == y
    | _, _ => false

/-- Of the entries of an agenda, those that write where a later one does or one of `new`. -/
def clashing (new : List Timed) : List Timed → List Timed
  | [] => []
  | e :: es =>
    let later := clashing new es
    if (later ++ new).any fun x => e.act.clashes x.act then e :: later else later

/-- Land, at a beat, what writes where `new` does, in order, so that `new` is over it (R239: every result lands in issue order); of that,
only what `ok` takes. -/
def Core.landUnder (c : Core) (beat : Nat) (new : List Timed) (ok : Timed → Bool := fun _ => true) : Core :=
  let es := clashing new (c.agenda.filter ok)
  { c.withLanded (es.map fun e => { e with beat }) with agenda := c.agenda.filter fun e => !es.contains e }

/-! ## Landing -/

/-- The bytes of a timed write by aligned 8-byte word, where they follow each other: each byte with its place in the word. -/
def byWord : List (Nat × Byte) → List (Nat × List (Nat × Byte))
  | [] => []
  | (a, b) :: rest => match byWord rest with
    | (w, bs) :: gs => if w == a / 8 then (w, (a % 8, b) :: bs) :: gs else (a / 8, [(a % 8, b)]) :: (w, bs) :: gs
    | [] => [(a / 8, [(a % 8, b)])]

/-- Join the groups of one word, an earlier one before a later one. -/
def joinWords (gs : List (Nat × List (Nat × Byte))) : List (Nat × List (Nat × Byte)) := gs.foldl (fun acc g =>
  if acc.any fun h => h.1 == g.1 then acc.map fun h => if h.1 == g.1 then (h.1, h.2 ++ g.2) else h else acc ++ [g]) []

/-- The folds of a timed DRAM write: a wholly covered aligned word once, any other byte on its own (R297). Of two bytes written at
one address the later stands (R143). -/
def foldTimed (t : Strand) (cs : List (Nat × Byte)) : Strand :=
  (joinWords (byWord cs)).foldl (fun t g =>
    let byte (i : Nat) : Option Byte := ((g.2.filter fun b => b.1 == i).getLast?).map (·.2)
    let bs := (List.range 8).filterMap byte
    if bs.length == 8 then t.fold (BitVec.ofNat 64 (8 * g.1)) 8 (BitVec.ofNat 64 (natOfBytes bs))
    else (List.range 8).foldl (fun t i => match byte i with
      | some b => t.fold (BitVec.ofNat 64 (8 * g.1 + i)) 1 (b.zeroExtend 64)
      | none => t) t) t

/-- Apply a timed effect of a core (R255, R259, R269, R297). -/
def State.applyAct (s : State) (c : CoreRef) (beat : Nat) (a : Act) : State :=
  match a with
  | .dram cells vas bad =>
    let s := s.timedWrite cells
    let s := { s with poison := s.poison ++ bad.filter fun w => !s.drops (8 * w) }
    s.modStrand c.strand fun t => foldTimed t ((vas.map (·.toNat)).zip (cells.map (·.2)))
  | _ => s.modCoreRef c fun co => co.apply beat a

/-- Land everything that is due on a core by a beat, in order. -/
def State.landCore (s : State) (c : CoreRef) (beat : Nat) : State :=
  match s.eview c with
  | none => s
  | some v =>
    let due := v.co.agenda.takeWhile fun t => t.beat ≤ beat
    let s := v.mod s fun co => { co with agenda := co.agenda.drop due.length }
    due.foldl (fun s t => s.applyAct c t.beat t.act) s

/-- Land everything of a strand that is due by a beat. -/
def State.landAll (s : State) (t : Strand) (beat : Nat) : State := t.coreRefs.foldl (fun s c => s.landCore c beat) s

end Sys2Proof.Machine
end

