-- ==== Sys2Proof/Machine/Engines.lean ====
section
/-! DEFINITION. What the configuration, table and rule engine commands do at their stamps and later beats (R137, R138, R186
to R188, R193, R204, R206 to R213). One meaning per event. -/

namespace Sys2Proof.Machine

/-! ## Configuration (R137, R138, R186 to R188) -/

/-- MCFG's command. -/
def isMcfg : Instr → Bool
  | .mcfg .. => true
  | _ => false

/-- MCFG starts: eight bytes of the shadow plane (R186). -/
def execMcfgStart (c : CoreRef) (e : Eng) (s : State) : Host.Outcome State Fault Refusal :=
  startCmd c (engUnit e) isMcfg s fun v cmd s => match cmd.ins with
    | .mcfg _ _ _ ofs _ => v.mod s fun co =>
      (co.modEng (engUnit e) fun g => { g with shadow := mcfgPlane g.shadow ofs.toNat cmd.val }).healPlane (engUnit e) true (8 * ofs.toNat) 8
    | _ => s

/-- CFGLD's command. -/
def isCfgld : Instr → Bool
  | .cfgld .. => true
  | _ => false

/-- CFGLD starts (R137, R187). -/
def execCfgldStart (c : CoreRef) (e : Eng) (s : State) : Host.Outcome State Fault Refusal :=
  startCmd c (engUnit e) isCfgld s fun v cmd s => match cmd.ins with
    | .cfgld _ _ _ _ _ _ len _ =>
      let n := len.toNat + 1
      v.load s cmd (64 * n) n 0 none fun s => v.mod s fun co => co.modEng (engUnit e) fun g =>
        { g with filling := max g.filling (v.x + 16 + n) }
    | _ => s

/-- Flip an engine's planes (R138, R188): SCHEDULE while a CFGLD still fills the shadow plane, FORMAT for a bad header of the
table engine's incoming plane, POISON where an error has struck a header (R290); the rule engine's `rgc` becomes 0 and a stopped RSTEP that waits
to be re-issued is discarded. DESIGN CHOICE (log 81): a CFGLD that a tag or poison has ended early fills the plane until the beat at
which it would have finished. -/
def EView.flip (v : EView) (s : State) (u : Unit') (cmd : Cmd) : State :=
  let g := v.co.eng u
  if v.x < g.filling then s.raiseE v.ref cmd cSchedule
  else if u == .te && !headersOk g.shadow then s.raiseE v.ref cmd cFormat
  else match (if u == .te then (List.range 4).findSome? fun k => v.co.planeBad u true (tableAt k) 64 else none) with
    | some m => s.raiseE v.ref cmd cPoison (BitVec.ofNat 64 m)
    | none => v.mod s fun co =>
      let co := co.modEng u fun g => { g with active := g.shadow, shadow := g.active, flips := g.flips + 1 }
      let co := { co with marks := flipMarks u co.marks }
      if u == .re then { co with rgc := 0, rstopped := none } else co

/-- CFGSWAP starts: the planes flip at once where the engine has no command in progress, else at the drain point (R138). -/
def execCfgswapStart (c : CoreRef) (e : Eng) (s : State) : Host.Outcome State Fault Refusal :=
  startCmd c (engUnit e) isSwap s fun v cmd s =>
    if v.co.working (engUnit e) then
      v.mod s fun co => co.modEng (engUnit e) fun g => { g with swaps := g.swaps ++ [{ cmd with stamp := v.x }] }
    else v.flip s (engUnit e) cmd

/-- The planes flip at the drain point (R138). -/
def execCfgswapFlip (c : CoreRef) (e : Eng) (s : State) : Host.Outcome State Fault Refusal :=
  match s.eview c with
  | none => .fault .noOccasion
  | some v => match (v.co.eng (engUnit e)).swaps with
    | cmd :: rest =>
      if v.co.working (engUnit e) then .fault .noOccasion
      else .next (v.flip (v.mod s fun co => co.modEng (engUnit e) fun g => { g with swaps := rest }) (engUnit e) cmd)
    | [] => .fault .noOccasion

/-! ## Small matrix-queue commands (R193, R204) -/

/-- MFMT's command. -/
def isMfmt : Instr → Bool
  | .mfmt .. => true
  | _ => false

/-- MFMT starts: FORMAT where bits 63:17 of the value are not zero; the entry is read from the next beat on (R193). -/
def execMfmtStart (c : CoreRef) (s : State) : Host.Outcome State Fault Refusal :=
  startCmd c .me isMfmt s fun v cmd s => match cmd.ins with
    | .mfmt _ _ _ e =>
      if 2 ^ 17 ≤ cmd.val.toNat then s.raiseE c cmd cFormat
      else v.mod s fun co => co.sched (v.x + 1) engineRank (.fmtEntry e.toNat (low32 cmd.val))
    | _ => s

/-- ACZERO's command. -/
def isAczero : Instr → Bool
  | .aczero .. => true
  | _ => false

/-- ACZERO starts: ALLOC, then SCHEDULE for a C bank of a nest in progress; the rows read 0 from the next beat on (R204,
R252). -/
def execAczeroStart (c : CoreRef) (s : State) : Host.Outcome State Fault Refusal :=
  startCmd c .me isAczero s fun v cmd s => match cmd.ins with
    | .aczero _ _ rows row bank =>
      let b := bank.toNat
      if v.co.cBusy b v.x then s.raiseE c cmd cSchedule
      else if (vget (v.banks s) b AccBank.zero).mode != .allocated then s.raiseE c cmd cAlloc (BitVec.ofNat 64 b)
      else v.mod s fun co => co.sched (v.x + 1) engineRank (.accZero b row.toNat (rows.toNat + 1))
    | _ => s

/-! ## The table engine (R206, R207) -/

/-- TLOAD starts (R207). -/
def execTloadStart (c : CoreRef) (s : State) : Host.Outcome State Fault Refusal :=
  startCmd c .te isTload s fun v cmd s => v.load s cmd 1152 18 6 none id

/-- A load whose end has come. -/
def Core.endedLoad (c : Core) (ok : Instr → Bool) (x : Nat) : Option Load :=
  c.loads.find? fun l => ok l.cmd.ins && l.stop ≤ x

/-- TLOAD's table: the header is checked, and the table of the active plane replaced whole (R207). -/
def execTloadReplace (c : CoreRef) (s : State) : Host.Outcome State Fault Refusal :=
  match s.eview c with
  | none => .fault .noOccasion
  | some v => match v.co.endedLoad isTload v.x with
    | none => .fault .noOccasion
    | some l =>
      let s := v.mod s fun co => { co with loads := co.loads.filter fun m => m != l }
      let img : Sparse 8 := Sparse.setAll [] (cellsAt 0 (l.got.take 1092))
      match l.cmd.ins with
      | .tload _ _ _ _ _ tb =>
        .next (if headerOk img 0 then
          v.mod s fun co => (co.modEng .te fun g =>
            { g with active := Sparse.setAll g.active (cellsAt (tableAt tb.toNat) (l.got.take 1092)) }).healPlane .te false (tableAt tb.toNat) 1092
        else s.raiseE c l.cmd cFormat)
      | _ => .fault .noOccasion

/-! ## The rule engine (R208 to R213) -/

/-- RLOAD starts: SCHEDULE while an RSTEP is in progress (R209). -/
def execRloadStart (c : CoreRef) (s : State) : Host.Outcome State Fault Refusal :=
  startCmd c .re isRload s fun v cmd s =>
    v.load s cmd 4096 64 6 (if v.co.rstep.isSome then some cSchedule else none) id

/-- RLOAD's table replaces the active one; `rgc` becomes 0, and a stopped RSTEP that waits to be re-issued is discarded
(R209, R213). -/
def execRloadReplace (c : CoreRef) (s : State) : Host.Outcome State Fault Refusal :=
  match s.eview c with
  | none => .fault .noOccasion
  | some v => match v.co.endedLoad isRload v.x with
    | none => .fault .noOccasion
    | some l =>
      let s := v.mod s fun co => { co with loads := co.loads.filter fun m => m != l }
      .next (v.mod s fun co =>
        { ((co.modEng .re fun g => { g with active := Sparse.setAll g.active (cellsAt 0 l.got) }).healPlane .re false 0 l.got.length) with
          rgc := 0, rstopped := none })

/-- The fields of an RSTEP's command word. -/
structure RWord where
  gens  : Nat
  cheq  : Bool
  nb    : Nat
  alt   : Nat
  plane : Nat
  deriving DecidableEq, Repr

/-- The fields of an RSTEP. -/
def rword : Instr → Option RWord
  | .rstep _ _ _ gens cheq nb alt pl => some { gens := gens.toNat + 1, cheq, nb := nb.toNat, alt := alt.toNat, plane := pl.toNat }
  | _ => none

/-- The bits of a cell of a neighbourhood (R208). -/
def ruleBits (nb : Nat) : Nat := if nb == 0 then 1 else if nb == 1 then 2 else 4

/-- One edge's field (R210). -/
structure Edge where
  mode : Nat
  rsv  : Nat
  a    : Nat
  v    : Nat
  deriving DecidableEq, Repr

/-- Edge `e` of a boundary value: 0 N, 1 S, 2 W, 3 E. -/
def edgeOf (w : W64) (e : Nat) : Edge :=
  let f := fld w.toNat (16 * e) 16
  { mode := fld f 14 2, rsv := fld f 13 1, a := fld f 8 5, v := fld f 0 8 }

/-- An edge field is refused (R210, R211). -/
def Edge.bad (e : Edge) (nb gens : Nat) : Bool :=
  e.mode == 3 || e.rsv != 0 || 16 < e.a || (e.mode != 2 && e.a != 0) || (e.mode != 1 && e.v != 0) || 2 ^ ruleBits nb ≤ e.v ||
  (e.mode == 2 && e.a != 0 && e.a < gens)

/-- The boundary value is refused (R211). -/
def boundaryBad (w : W64) (nb gens : Nat) : Bool :=
  let e (i : Nat) : Edge := edgeOf w i
  (List.range 4).any (fun i => (e i).bad nb gens) ||
  ((e 0).mode == 0 && (e 1).mode != 0) || ((e 2).mode == 0 && (e 3).mode != 0) ||
  (nb == 3 && fld w.toNat 0 32 != 0)

/-- RSTEP starts or continues (R211, R213): BOUNDS, SCHEDULE, FORMAT, in the order of their codes (R252). -/
def execRstepStart (c : CoreRef) (s : State) : Host.Outcome State Fault Refusal :=
  startCmd c .re (fun i => (rword i).isSome) s fun v cmd s => match rword cmd.ins with
    | none => s
    | some w =>
      let k := v.co.rgc
      if v.st.fp.planes ≤ w.plane then s.raiseE c cmd cBounds (BitVec.ofNat 64 w.plane)
      else if v.st.fp.planes ≤ w.alt && !w.cheq then s.raiseE c cmd cBounds (BitVec.ofNat 64 w.alt)
      else if v.co.working .re then s.raiseE c cmd cSchedule
      else if (if w.cheq then w.alt != 0 else w.alt == w.plane) || boundaryBad cmd.val w.nb w.gens ||
          (0 < k && (match v.co.rstopped with
            | some r => rword r.cmd.ins != some w || r.cmd.val != cmd.val || w.gens ≤ k
            | none => true)) then s.raiseE c cmd cFormat
      else v.draws s cmd 9 fun s => v.mod s fun co =>
        { co with rstep := some { cmd, start := v.x, from_ := k, gen := k, snap := none, copyAt := none }, rstopped := none }

/-- A cell of a tile as its rows of words hold it (R208). -/
def tileCell (rows : List W32) (bits i c : Nat) : Nat := fld (rows.getD (64 * i + c * bits / 32) 0).toNat (c * bits % 32) bits

/-- A cell at row `i` and column `c`, which may lie one beyond an edge (R210). -/
def ruleCell (rows : List W32) (bits : Nat) (w : W64) (i c : Int) : Nat :=
  let cols : Int := 2048 / bits
  let beyond (e : Edge) : Nat := if e.mode == 1 then e.v else 0
  let ns : Option Edge := if i < 0 then some (edgeOf w 0) else if 64 ≤ i then some (edgeOf w 1) else none
  let we : Option Edge := if c < 0 then some (edgeOf w 2) else if cols ≤ c then some (edgeOf w 3) else none
  let i' := (i.emod 64).toNat
  let c' := (c.emod cols).toNat
  let across : Nat := match we with
    | some e => if e.mode == 0 then tileCell rows bits i' c' else beyond e
    | none => tileCell rows bits i' c'
  match ns with
  | some e => if e.mode == 0 then across else beyond e
  | none => across

/-- The rule table's index for a cell (R208). -/
def ruleIndex (rows : List W32) (nb : Nat) (w : W64) (i c : Int) : Nat :=
  let at_ (di dc : Int) : Nat := ruleCell rows (ruleBits nb) w (i + di) (c + dc)
  let pack (n : Nat) (xs : List Nat) : Nat := xs.foldl (fun a x => a * 2 ^ n + x) 0
  if nb == 0 then
    pack 1 [at_ (-1) (-1), at_ (-1) 0, at_ (-1) 1, at_ 0 (-1), at_ 0 0, at_ 0 1, at_ 1 (-1), at_ 1 0, at_ 1 1]
  else if nb == 1 then pack 2 [at_ 0 0, at_ (-1) 0, at_ 0 (-1), at_ 0 1, at_ 1 0]
  else if nb == 2 then
    at_ 0 0 * 128 + (at_ (-1) (-1) + at_ (-1) 0 + at_ (-1) 1 + at_ 0 (-1) + at_ 0 1 + at_ 1 (-1) + at_ 1 0 + at_ 1 1)
  else pack 4 [at_ 0 (-1), at_ 0 0, at_ 0 1]

/-- A plane's 4,096 words after one generation computed from `rows` (R208, R212): in CHEQ only cells of the generation's
parity change. -/
def generation (rows : List W32) (tbl : Sparse 8) (nb : Nat) (w : W64) (cheq : Bool) (j : Nat) : List W32 :=
  let bits := ruleBits nb
  (List.range 4096).map fun n =>
    let i := n / 64
    BitVec.ofNat 32 (((List.range (32 / bits)).map fun b =>
      let c := (n % 64) * (32 / bits) + b
      let v := if cheq && (i + c) % 2 != j % 2 then tileCell rows bits i c
        else (Sparse.get tbl (ruleIndex rows nb w i c)).toNat % 2 ^ bits
      v * 2 ^ (bits * b)).foldl (· + ·) 0)

/-- The plane that generation `j` reads, and the plane it writes (R212). -/
def RWord.source (w : RWord) (j : Nat) : Nat := if w.cheq || j % 2 == 0 then w.plane else w.alt
/-- The plane that generation `j` writes. -/
def RWord.target (w : RWord) (j : Nat) : Nat := if w.cheq || j % 2 == 1 then w.plane else w.alt

/-- The beat of the snapshot of the generation in progress; its completion beat is 64 later (R212). -/
def RStep.snapAt (r : RStep) : Nat := r.start + 2 + 64 * (r.gen - r.from_)

/-- Take the snapshot of a generation whose beat has come (R212). A poisoned source or rule table raises POISON; the RSTEP then stops at
the last completed generation and its record is kept for re-issue (R213, R290). -/
def EView.snapshot (v : EView) (s : State) : State :=
  match v.co.rstep with
  | none => s
  | some r => match rword r.cmd.ins with
    | none => s
    | some w =>
      if r.snap.isSome || r.copyAt.isSome || v.x < r.snapAt then s
      else
        let p := w.source r.gen
        match (v.co.planePoison.find? fun i => i / 4096 == p).or (v.co.planeBad .re false 0 4096) with
        | some i =>
          (v.mod s fun co => { co with rstep := none, rstopped := some r }).raiseE v.ref r.cmd cPoison (BitVec.ofNat 64 i)
        | none =>
          let rows := Sparse.getN v.co.planes (p * 4096) 4096
          v.mod s fun co =>
            { co with rstep := some { r with snap := some (generation rows co.re.active w.nb r.cmd.val w.cheq r.gen) } }

/-- What a generation writes: every word of its target, or in CHEQ the bits of the generation's parity (R212). -/
def ruleAct (w : RWord) (j : Nat) (new : List W32) : Act :=
  let cells := cellsAt (w.target j * 4096) new
  let bits := ruleBits w.nb
  let mask (n : Nat) : W32 := BitVec.ofNat 32 (((List.range (32 / bits)).map fun b =>
    if (n / 64 + (n % 64) * (32 / bits) + b) % 2 == j % 2 then (2 ^ bits - 1) * 2 ^ (bits * b) else 0).foldl (· + ·) 0)
  if w.cheq then .ruled (w.target j) (cells.map fun e => (e.1, mask (e.1 % 4096), e.2)) else .plane (w.target j) cells

/-- What the generation in progress writes when it completes by a beat. -/
def Core.genAct (c : Core) (x : Nat) : Option Act := match c.rstep with
  | none => none
  | some r => match rword r.cmd.ins, r.copyAt, r.snap with
    | some w, none, some new => if x < r.snapAt + 64 then none else some (ruleAct w r.gen new)
    | _, _, _ => none

/-- One generation completes: its result is written and `rgc` advances; the last one ends the RSTEP, or in SYNC with an odd
count starts the copy into the primary plane, whose landing ends it (R212). -/
def execRstepGeneration (c : CoreRef) (s : State) : Host.Outcome State Fault Refusal :=
  match s.eview c with
  | none => .fault .noOccasion
  | some v => match v.co.rstep with
    | none => .fault .noOccasion
    | some r => match rword r.cmd.ins with
      | none => .fault .noOccasion
      | some w => match r.copyAt with
        | some y =>
          if y ≤ v.x then .next (v.mod s fun co => { co with rstep := none, rgc := 0 }) else .fault .noOccasion
        | none => match r.snap with
          | none => .fault .noOccasion
          | some new =>
            if v.x < r.snapAt + 64 then .fault .noOccasion
            else
              let s := v.mod s fun co => co.apply v.x (ruleAct w r.gen new)
              .next <| v.mod s fun co =>
                if r.gen + 1 < w.gens then { co with rgc := r.gen + 1, rstep := some { r with gen := r.gen + 1, snap := none } }
                else if w.cheq || w.gens % 2 == 0 then { co with rgc := 0, rstep := none }
                else
                  let y := r.snapAt + 64 + 16
                  { (co.sched y engineRank (.plane w.plane (cellsAt (w.plane * 4096) new))) with
                    rgc := r.gen + 1, rstep := some { r with gen := r.gen + 1, snap := none, copyAt := some y } }

end Sys2Proof.Machine
end

