-- ==== Sys2Proof/Machine/Matrix.lean ====
section
/-! DEFINITION. The matrix engine: the loop-nest image, MGO's checks, block steps, micro-orders, MSTOP and MBASE (R189 to
R199, R291). -/

namespace Sys2Proof.Machine

/-! ## The loop-nest image (R189, R190) -/

/-- A 32-bit word of a configuration plane as a number. -/
def planeNat (m : Sparse 8) (ofs : Nat) : Nat := (planeW32 m ofs).toNat
/-- A signed 32-bit word of a configuration plane. -/
def planeInt (m : Sparse 8) (ofs : Nat) : Int := (planeW32 m ofs).toInt

/-- The image's levels. -/
def nestLevels (m : Sparse 8) : Nat := fld (planeNat m 0) 0 3
/-- The reduction levels. -/
def nestRed (m : Sparse 8) : Nat := fld (planeNat m 0) 3 3
/-- K. -/
def nestK (m : Sparse 8) : Nat := fld (planeNat m 0) 6 18
/-- Scales: bits 36:24 of the first doubleword. -/
def nestScales (m : Sparse 8) : Nat := planeNat m 0 / 2 ^ 24 + planeNat m 4 % 32 * 2 ^ 8
/-- The count of level `l`. -/
def nestCount (m : Sparse 8) (l : Nat) : Nat := fld (planeNat m (0x40 + 32 * l)) 0 16
/-- A stride of level `l`: `i` is 0 A, 1 B, 2 SA, 3 SB, 4 C. -/
def nestStride (m : Sparse 8) (i l : Nat) : Int := planeInt m (0x44 + 32 * l + 4 * i)
/-- The C base. -/
def nestC (m : Sparse 8) : Nat := fld (planeNat m 0x20) 0 5
/-- The product of the counts of levels `lo` to `hi - 1`. -/
def countProd (m : Sparse 8) (lo hi : Nat) : Nat := ((List.range hi).drop lo).foldl (fun a l => a * nestCount m l) 1

/-- A reserved field of the image is not zero, or n, r, a count or K is out of range (R189, R194). -/
def imageBad (m : Sparse 8) : Bool :=
  let n := nestLevels m
  n == 0 || 6 < n || nestRed m == 0 || n < nestRed m || nestK m == 0 || 131072 < nestK m || 4096 < nestScales m ||
  32 ≤ planeNat m 4 || planeNat m 8 != 0 || planeNat m 12 != 0 || 32 ≤ planeNat m 0x20 ||
  !(Sparse.getN m 0x24 0x1C).all (· == 0) || !(Sparse.getN m 0x180 0x280).all (· == 0) ||
  (List.range n).any fun l => nestCount m l == 0 || 2 ^ 16 ≤ planeNat m (0x40 + 32 * l) ||
    !(Sparse.getN m (0x58 + 32 * l) 8).all (· == 0)

/-- The micro-orders that run: up to the first END, or all 32 (R191). -/
def ordersOf (m : Sparse 8) : List Nat :=
  ((List.range 32).map fun j => planeNat m (0x100 + 4 * j)).takeWhile fun w => fld w 28 4 != 0

/-- A micro-order as (op, n). -/
def orderOf (w : Nat) : Nat × Nat := (fld w 28 4, fld w 0 13)

/-- An order that runs is refused (R191, R194). -/
def orderBad (w : Nat) : Bool :=
  let o := orderOf w
  4 < o.1 || fld w 13 15 != 0 || (if o.1 == 4 then o.2 != 0 else o.2 == 0 || 4096 < o.2)

/-- The orders' RETIRE is missing, doubled or misplaced (R194). -/
def retireBad (ws : List (Nat × Nat)) : Bool :=
  (ws.filter fun o => o.1 == 4).length != 1 || (match ws.getLast? with
    | some o => o.1 != 4
    | none => true)

/-- The format entry is refused (R194). -/
def entryBad (w : W32) : Bool :=
  let e := fmtEntry w
  let float := e.a == 1 || e.a == 2
  let dx := e.a == 3 || e.a == 4
  let int := e.a == 5 || e.a == 6
  let bSame := if float then e.b == 1 || e.b == 2 else if dx then e.b == 3 || e.b == 4 else e.b == 5 || e.b == 6
  !(float || dx || int) || !bSame || (if int then e.acc != 1 && e.acc != 2 else e.acc != 0) || (!int && (e.sa || e.sb)) ||
  (if dx then e.scales != 1 && e.scales != 2 else e.scales != 0) || 4 < fld w.toNat 14 3 || 2 ^ 17 ≤ w.toNat

/-- Block steps of a reduction of K elements. -/
def stepsOf (k : Nat) : Nat := (k + 31) / 32

/-- The C banks a nest reaches from a base: of each level with a stride, the counts while they stay in range (R190). A value
out of range is kept, so that the check sees it. -/
def reachFrom (m : Sparse 8) (top : Nat) : Nat → List Int → List Int
  | 0, vs => vs
  | l + 1, vs =>
    let st := nestStride m 4 l
    let n := if st == 0 then 1 else min (nestCount m l) (top + 2)
    (reachFrom m top l vs).flatMap fun b => (List.range n).map fun (i : Nat) => b + i * st

/-- The C banks of a nest. -/
def nestReach (m : Sparse 8) (base top : Nat) : List Int := (reachFrom m top (nestLevels m) [(base : Int)]).eraseDups

/-- The beats of a block step (R196). -/
def stepBeats (e : FmtEntry) : Nat := max (fmtWidth e.a) (fmtWidth e.b)
/-- The draw level of a nest (R276). -/
def nestDraw (e : FmtEntry) : Nat := if stepBeats e == 16 then 12 else if stepBeats e == 8 then 14 else 15

/-! ## MGO (R194) -/

/-- MGO's command. -/
def isMgo : Instr → Bool
  | .mgo .. => true
  | _ => false

/-- A nest at its start (R196). -/
def Nest.begin (cmd : Cmd) (x : Nat) (fmt : W32) (orders : List (Nat × Nat)) (reds : Nat) (banks : List Nat) : Nest :=
  { cmd, start := x, fmt, orders, items := orders, fresh := true, s := 0, red := 0, reds, tau := x + 2, banks, lastLand := 0,
    seen := [], wrote := [], stopped := false, reading := none }

/-- MGO starts: the checks of R194 in their order, and whether an error has struck the image or the format entry (R290), then the nest. -/
def execMgoStart (c : CoreRef) (s : State) : Host.Outcome State Fault Refusal :=
  startCmd c .me isMgo s fun v cmd s =>
    let m := v.co.me.active
    let w := vget v.co.fmt cmd.fmt 0
    let e := fmtEntry w
    let d := countProd m 0 (nestRed m)
    let orders := (ordersOf m).map orderOf
    let steps := (orders.filter fun o => o.1 == 1 || o.1 == 2).foldl (fun a o => a + o.2) 0
    let reach := nestReach m (nestC m) v.st.fp.acc
    let banks := v.banks s
    if v.co.nest.isSome then s.raiseE c cmd cSchedule
    else if imageBad m || entryBad w || 4096 < d || d != stepsOf (nestK m) ||
        nestScales m != (if e.a == 3 || e.a == 4 then stepsOf (nestK m) else 0) ||
        (ordersOf m).any orderBad || steps != d || retireBad orders then s.raiseE c cmd cFormat
    else match reach.find? fun b => b < 0 || (v.st.fp.acc : Int) ≤ b with
      | some b => s.raiseE c cmd cBounds (BitVec.ofInt 64 b)
      | none => match reach.find? fun b => (vget banks b.toNat AccBank.zero).mode != .allocated with
        | some b => s.raiseE c cmd cAlloc (BitVec.ofInt 64 b)
        | none => v.draws s cmd (nestDraw e) fun s =>
          match (v.co.marks.find? (· == 68 + cmd.fmt)).or (v.co.planeBad .me false 0 1024) with
          | some k => s.raiseE c cmd cPoison (BitVec.ofNat 64 k)
          | none => v.mod s fun co =>
            { co with nest := some (Nest.begin cmd v.x w orders (countProd m (nestRed m) (nestLevels m)) (reach.map (·.toNat))) }

/-! ## The timeline (R196 to R198) -/

/-- End a nest: its C banks stay banks of a nest in progress until its last write has landed (R197). -/
def Core.endNest (c : Core) (n : Nest) : Core :=
  { c with nest := none, cbusy := c.cbusy ++ n.banks.map fun b => (b, n.lastLand) }

/-- The nest stands at a RETIRE it has passed, with nothing of the next reduction begun: its pre-emption point (R287). -/
def Nest.atRetire (n : Nest) : Bool := 0 < n.red && n.s == 0 && n.items == n.orders && n.fresh

/-- Pass the WAITs and RETIREs that are due by a beat (R191, R196). In a drain the nest stops at the first RETIRE. -/
def Core.settleNest (c : Core) (drain : Bool) (x : Nat) : Nat → Core
  | 0 => c
  | fuel + 1 => match c.nest with
    | none => c
    | some n =>
      if x < n.tau then c
      else if n.stopped then c.endNest n
      else match n.items with
        | (3, k) :: rest => Core.settleNest { c with nest := some { n with tau := n.tau + k, items := rest, fresh := true } } drain x fuel
        | (4, _) :: _ =>
          if n.reds ≤ n.red + 1 then c.endNest n
          else
            let c := { c with nest := some { n with items := n.orders, s := 0, red := n.red + 1, fresh := true, wrote := [] } }
            if drain then c else Core.settleNest c drain x fuel
        | _ => c

/-- The nest has a block step to start on a beat. A fault of another command keeps its engine from starting commands, and a nest
in progress goes on (R281, R282). -/
def Core.stepDue (c : Core) (x : Nat) : Bool := match c.nest with
  | none => false
  | some n => n.tau ≤ x && !n.stopped && (match n.items with
    | (1, _) :: _ => true
    | (2, _) :: _ => true
    | _ => false)

/-- MSTOP's command. -/
def isMstop : Instr → Bool
  | .mstop .. => true
  | _ => false

/-- MSTOP starts: no later step starts, and the nest ends when the step in progress ends (R198). -/
def execMstopStart (c : CoreRef) (s : State) : Host.Outcome State Fault Refusal :=
  startCmd c .me isMstop s fun v _ s => match v.co.nest with
    | none => s
    | some n => v.mod s fun co =>
      Core.settleNest { co with nest := some { n with stopped := true, tau := max v.x (n.lastLand - 8) } } false v.x 1

/-- MBASE's command. -/
def isMbase : Instr → Bool
  | .mbase .. => true
  | _ => false

/-- MBASE starts: a base of the active plane, of the C base its bits 4:0 alone. With a nest in progress, a C base that reaches a bank that is not Allocated
raises ALLOC (R199), and POISON is raised where an error has struck the levels that say so (R290). -/
def execMbaseStart (c : CoreRef) (s : State) : Host.Outcome State Fault Refusal :=
  startCmd c .me isMbase s fun v cmd s => match cmd.ins with
    | .mbase _ _ _ which =>
      let put (k : Nat) (bs : List Byte) (co : Core) : Core := co.modEng .me fun g => { g with active := Sparse.setAll g.active (cellsAt k bs) }
      if which == 4 then
        let base := cmd.val.toNat % 32
        let word := planeNat v.co.me.active 0x20 / 32 * 32 + base
        let reach := nestReach v.co.me.active base v.st.fp.acc
        let bad (b : Int) : Bool := b < 0 || (v.st.fp.acc : Int) ≤ b || (vget (v.banks s) b.toNat AccBank.zero).mode != .allocated
        match v.co.nest with
        | none => v.mod s fun co => put 0x20 (bytesOf 4 word) co
        | some n => match reach.find? bad with
          | some b => s.raiseE c cmd cAlloc (BitVec.ofInt 64 b)
          | none => match v.co.planeBad .me false 0x40 0xC0 with
            | some k => s.raiseE c cmd cPoison (BitVec.ofNat 64 k)
            | none => v.mod s fun co => put 0x20 (bytesOf 4 word)
              { co with nest := some { n with banks := (n.banks ++ reach.map (·.toNat)).eraseDups } }
      else v.mod s fun co => (put (0x10 + 4 * which.toNat) (bytesOf 4 (low32 cmd.val).toNat) co).healPlane .me false (0x10 + 4 * which.toNat) 4
    | _ => s

/-! ## A block step (R190, R195, R197, R291) -/

/-- The iteration vector of step `s` of reduction `red`, level 0 first (R190). -/
def iterOf (m : Sparse 8) : List Nat → Nat → List Nat
  | [], _ => []
  | l :: ls, g => g % nestCount m l :: iterOf m ls (g / nestCount m l)

/-- An operand's address or bank: a base plus the strides times the iterations (R190). -/
def nestAt (m : Sparse 8) (base : Int) (i : Nat) (iv : List Nat) : Int :=
  ((List.range iv.length).zip iv).foldl (fun a (e : Nat × Nat) => a + e.2 * nestStride m i e.1) base

/-- What a step reads and writes. -/
structure StepPlan where
  a  : Nat
  b  : Nat
  sa : Nat
  sb : Nat
  c  : Int
  kk : Nat
  deriving DecidableEq, Repr

/-- The plan of the step a nest stands at. -/
def stepPlan (m : Sparse 8) (n : Nest) : StepPlan :=
  let d := countProd m 0 (nestRed m)
  let iv := iterOf m (List.range (nestLevels m)) (n.red * d + n.s)
  let at_ (i : Nat) : Nat := (nestAt m (planeNat m (0x10 + 4 * i)) i iv).emod (2 ^ 32) |>.toNat
  { a := at_ 0, b := at_ 1, sa := at_ 2, sb := at_ 3, c := nestAt m (nestC m) 4 iv,
    kk := if n.s + 1 < d then 32 else nestK m - 32 * (d - 1) }

/-- The tag an operand's tile must hold at its first read by the nest, if its command checks it (R73, R194). -/
def operandTag (i : Instr) (isB : Bool) : Option Byte := match i with
  | .mgo _ _ cb ca bt at_ => if isB then (if cb then some bt else none) else (if ca then some at_ else none)
  | _ => none

/-- What forbids a step, with its address and Detail: the lower code first (R195, R252). -/
def EView.stepFault (v : EView) (s : State) (n : Nest) (p : StepPlan) (new : List (Nat × Claim)) : Option (Nat × W64 × Nat) :=
  let e := fmtEntry n.fmt
  let la := 256 * fmtWidth e.a
  let lb := 256 * fmtWidth e.b
  let dx := e.a == 3 || e.a == 4
  let ls := if e.scales == 1 then 128 else 2
  let nat (k : Nat) : W64 := BitVec.ofNat 64 k
  let tagBad (at_ : Nat) (isB : Bool) : Option Byte := match operandTag n.cmd.ins isB with
    | none => none
    | some t => if v.st.tagck && !n.seen.contains (at_ / 4096) && Sparse.get v.co.tags (at_ / 4096) != t then some t else none
  if p.a % la != 0 || !v.st.fp.spadOk p.a la then some (cBounds, nat p.a, 0)
  else if p.b % lb != 0 || !v.st.fp.spadOk p.b lb then some (cBounds, nat p.b, 0)
  else if dx && !v.st.fp.spadOk p.sa ls then some (cBounds, nat p.sa, 0)
  else if dx && !v.st.fp.spadOk p.sb ls then some (cBounds, nat p.sb, 0)
  else if p.c < 0 || (v.st.fp.acc : Int) ≤ p.c then some (cBounds, BitVec.ofInt 64 p.c, 0)
  else if v.co.group p.a == v.co.group p.b || !v.st.fits new then some (cSchedule, 0, 0)
  else match tagBad p.a false with
    | some t => some (cSchedule, nat p.a, t.toNat)
    | none => match tagBad p.b true with
      | some t => some (cSchedule, nat p.b, t.toNat)
      | none =>
        if (vget (v.banks s) p.c.toNat AccBank.zero).mode != .allocated then some (cAlloc, BitVec.ofInt 64 p.c, 0) else none

/-- The writes that are to come leave a bank without a mark: one of them zeroes it, and none marks it after that (R291). -/
def Core.clears (c : Core) (b : Nat) : Bool := c.agenda.foldl (fun clear e => match e.act with
  | .accAdd k zero _ _ _ _ _ _ => clear || (k == b && zero)
  | .accZero k _ _ => clear || k == b
  | .accPoison k => clear && k != b
  | _ => clear) false

/-- A poisoned word that a step would read on its start beat: in what that beat reads of A and B, the scales, the C bank it would add
to, or the image's bases and levels (R196, R290, R291). -/
def EView.stepPoison (v : EView) (n : Nest) (p : StepPlan) (zero : Bool) : Option W64 :=
  let e := fmtEntry n.fmt
  let d := stepBeats e
  let ls := if e.scales == 1 then 128 else if e.scales == 2 then 2 else 0
  match ([(p.a, 256 * fmtWidth e.a / d), (p.b, 256 * fmtWidth e.b / d), (p.sa, ls), (p.sb, ls)].filter fun k => k.2 != 0).findSome?
      fun k => v.co.spadBad k.1 k.2 with
  | some w => some (BitVec.ofNat 64 (4 * w))
  | none => if !zero && (v.co.bank p.c.toNat).poison && !v.co.clears p.c.toNat then some (BitVec.ofInt 64 p.c)
    else (v.co.planeBad .me false 0 0x100).map (BitVec.ofNat 64)

/-- The faulting step for `k0`: s in bits 11:0, the reduction above (R195, R291). -/
def Nest.stepWord (n : Nest) : W64 := BitVec.ofNat 64 (n.s % 4096 + 4096 * n.red)

/-- The nest after one more step, from beat `x` to beat `y` (R196, R197). -/
def Nest.stepped (n : Nest) (items : List (Nat × Nat)) (fresh : Bool) (x y : Nat) (p : StepPlan) : Nest :=
  let e := fmtEntry n.fmt
  { n with items, fresh, s := n.s + 1, tau := y, lastLand := y + 8, seen := (p.a / 4096) :: (p.b / 4096) :: n.seen,
           wrote := (p.c.toNat :: n.wrote).eraseDups,
           reading := some { start := x, d := y - x, a := p.a, la := 256 * fmtWidth e.a, b := p.b, lb := 256 * fmtWidth e.b,
                             land := y + 8, next := 1, prevLand := n.lastLand, wrote := n.wrote } }

/-- What beat `start + j` of a step reads goes into the write that is to come: the j-th of `d` equal parts of A and of B, in address
order. DEDUCED (log 22). -/
def Core.readPart (c : Core) (r : BlockRead) (j : Nat) : Core :=
  let put (bs : List Byte) (n at_ : Nat) : List Byte := bs.take (j * n) ++ c.spadBytes (at_ + j * n) n ++ bs.drop ((j + 1) * n)
  let one (e : Timed) : Timed := match e.act with
    | .accAdd k zero fmt kk a b sa sb =>
      if e.beat == r.land then { e with act := .accAdd k zero fmt kk (put a (r.la / r.d) r.a) (put b (r.lb / r.d) r.b) sa sb } else e
    | _ => e
  { c with agenda := c.agenda.map one }

/-- A poisoned word in what beat `start + j` of a step reads. -/
def Core.partBad (c : Core) (r : BlockRead) (j : Nat) : Option Nat :=
  match c.spadBad (r.a + j * (r.la / r.d)) (r.la / r.d) with
  | some w => some w
  | none => c.spadBad (r.b + j * (r.lb / r.d)) (r.lb / r.d)

/-- The beats at which block steps that have started write a bank. -/
def Core.landsOn (c : Core) (b : Nat) : List Nat := c.agenda.filterMap fun e => match e.act with
  | .accAdd k _ _ _ _ _ _ _ => if k == b then some e.beat else none
  | _ => none

/-- Mark the banks that the present reduction of a nest has written, now and again with each write of them that has still to land: a
SET's zeroing that is in flight leaves the mark standing (R291). -/
def Core.markWrote (c : Core) (n : Nest) (x : Nat) : Core := n.wrote.foldl (fun c b =>
  (x :: c.landsOn b).foldl (fun c y => c.sched y (engineRank + 1) (.accPoison b)) c) c

/-- A nest that has read poison in a step's later beats ends at that step's boundary, and the step writes nothing (R291). -/
def EView.abortStep (v : EView) (s : State) (n : Nest) (r : BlockRead) (w : Nat) : State :=
  let old : Nest := { n with s := n.s - 1, lastLand := r.prevLand, wrote := r.wrote }
  let drop (e : Timed) : Bool := match e.act with
    | .accAdd .. => e.beat != r.land
    | _ => true
  (v.mod s fun co => ({ co with agenda := co.agenda.filter drop } : Core).endNest old |>.markWrote old v.x).raiseE v.ref n.cmd cPoison
    (BitVec.ofNat 64 (4 * w)) 0 (some old.stepWord)

/-- The parts of a step in progress on a core that are read by now (R196, R255). -/
def State.readBlocks (s : State) (c : CoreRef) : Nat → State
  | 0 => s
  | fuel + 1 => match s.eview c with
    | none => s
    | some v => match v.co.nest with
      | none => s
      | some n => match n.reading with
        | none => s
        | some r =>
          if r.d ≤ r.next || v.x < r.start + r.next then s
          else match v.co.partBad r r.next with
            | some w => v.abortStep s n r w
            | none => (v.mod s fun co =>
                { (co.readPart r r.next) with nest := some { n with reading := some { r with next := r.next + 1 } } }).readBlocks c fuel

/-- A block step starts (R195, R197): it commits its reads, reads its tiles and scales, and its C bank takes the sums d + 8
beats later. A step that faults ends the nest; a poisoned one also marks the C banks the reduction has written (R291).
DEDUCED (log 22). -/
def execMatrixBlockStep (c : CoreRef) (s : State) : Host.Outcome State Fault Refusal :=
  match s.eview c with
  | none => .fault .noOccasion
  | some v => match v.co.nest with
    | none => .fault .noOccasion
    | some n =>
      if !v.co.stepDue v.x then .fault .noOccasion
      else
        let e := fmtEntry n.fmt
        let d := stepBeats e
        let p := stepPlan v.co.me.active n
        let head := n.items.headD (1, 0)
        let zero := head.1 == 2 && n.fresh
        let new := (List.range d).flatMap fun j => [p.a, p.b].map fun k =>
          (c.core, ({ beat := v.x + j, group := v.co.group k, rd := 256, wr := 0 } : Claim))
        match v.stepFault s n p new with
        | some f => .next ((v.mod s fun co => co.endNest n).raiseE c n.cmd f.1 f.2.1 f.2.2 (some n.stepWord))
        | none => match v.stepPoison n p zero with
          | some a =>
            .next ((v.mod s fun co => (co.endNest n).markWrote n v.x).raiseE c n.cmd cPoison a 0 (some n.stepWord))
          | none =>
            let ls := if e.scales == 1 then 128 else if e.scales == 2 then 2 else 0
            let act := Act.accAdd p.c.toNat zero n.fmt p.kk (v.co.spadBytes p.a (256 * fmtWidth e.a))
              (v.co.spadBytes p.b (256 * fmtWidth e.b)) (v.co.spadBytes p.sa ls) (v.co.spadBytes p.sb ls)
            let items := if head.2 ≤ 1 then n.items.drop 1 else (head.1, head.2 - 1) :: n.items.drop 1
            let s := s.modStack v.st.stack fun k => { k with steps := k.steps + 1 }
            .next <| v.mod (s.commitClaims c.strand new) fun co =>
              { (co.sched (v.x + d + 8) engineRank act) with
                nest := some (n.stepped items (decide (head.2 ≤ 1)) v.x (v.x + d) p) }

end Sys2Proof.Machine
end

