-- ==== Sys2Proof/Machine/Transfers.lean ====
section
/-! DEFINITION. The block-transfer engine: XCOPY's checks, chunks and tags, and the shape slots (R139 to R143, R220 to
R223, R290). -/

namespace Sys2Proof.Machine

/-! ## Descriptors (R143) -/

/-- The bytes a descriptor covers. -/
def Shape.len (d : Shape) : Nat := d.run * d.count1 * d.count2 * d.count3

/-- The address of byte `k` of a descriptor, in its order. -/
def Shape.byteAt (d : Shape) (k : Nat) : W64 :=
  let r := k / d.run
  let nat (n : Nat) : W64 := BitVec.ofNat 64 n
  d.base + nat (r % d.count1) * d.stride1 + nat (r / d.count1 % d.count2) * d.stride2 +
    nat (r / d.count1 / d.count2) * d.stride3 + nat (k % d.run)

/-- The addresses of bytes `lo` to `hi - 1`. -/
def Shape.bytes (d : Shape) (lo hi : Nat) : List W64 := (List.range (hi - lo)).map fun i => d.byteAt (lo + i)

/-! ## The memory end (R140, R146, R221) -/

/-- The physical number of a strand's logical core. -/
def Strand.physAt (t : Strand) (n : Nat) : Nat := match t.cores[n]? with
  | some co => co.phys
  | none => 0

/-- Translate a byte of the memory end of a timed copy that physical core `c` issues: a malformed local address is ADDRESS (R144). -/
def State.timedXlat (s : State) (t : Strand) (c : Nat) (a : W64) (w : Bool) : Except XlatFail Nat :=
  if canonical a && !isDomain a then s.xlat t.stack c t.ctx a.toNat w false else .error .address

/-- A byte lies off the timed paths: a domain address, or one that translates outside the strand's own stack's DRAM
(R140). -/
def State.offPath (s : State) (t : Strand) (c : Nat) (a : W64) : Bool :=
  isDomain a || (match s.timedXlat t c a false with
    | .ok b => !isDram b || dramStack b != t.stack
    | .error _ => false)

/-- The failure of a byte's translation. -/
def State.timedFail (s : State) (t : Strand) (c : Nat) (w : Bool) (a : W64) : Option (Nat × W64 × Nat) :=
  match s.timedXlat t c a w with
  | .ok _ => none
  | .error e => some (e.code.1, a, e.code.2)

/-- The place of a timed DRAM read: it sees what has performed at stack scope (R142). -/
def Strand.timedPlace (t : Strand) : Place := { stack := t.stack, core := 2 ^ 20, sid := 0, cl := 0 }

/-! ## Starting a copy (R139, R220, R221) -/

/-- The fields of an XCOPY command word. -/
structure XWord where
  rem : Nat
  ck  : Bool
  ex  : Byte
  stg : Bool
  tag : Byte
  dst : Nat
  frm : Nat
  deriving DecidableEq, Repr

/-- The fields of an XCOPY. -/
def xword : Instr → Option XWord
  | .xcopy _ _ _ rem ck ex stg tag dst frm => some { rem := rem.toNat, ck, ex, stg, tag, dst := dst.toNat, frm := frm.toNat }
  | _ => none

/-- The hops between two cores of a stack (R9). -/
def hops (a b : Nat) : Nat :=
  let gap (x y : Nat) : Nat := max x y - min x y
  gap (a % 8) (b % 8) + gap (a / 8) (b / 8)

/-- The chunks of a copy. -/
def Copy.chunks (k : Copy) : Nat := (k.len + k.w - 1) / k.w

/-- The last byte of chunk `j`, plus one. -/
def Copy.hi (k : Copy) (j : Nat) : Nat := min k.len ((j + 1) * k.w)

/-- The claims of one end of a chunk on a beat, by bank group (R133). -/
def chunkClaims (co : Core) (core beat : Nat) (addrs : List W64) (rd : Bool) : List (Nat × Claim) :=
  (List.range 4).filterMap fun g =>
    let n := (addrs.filter fun a => co.group a.toNat == g).length
    if n == 0 then none else some (core, { beat, group := g, rd := if rd then n else 0, wr := if rd then 0 else n })

/-- Everything a copy commits (R133, R134, R140). -/
def Strand.copyClaims (t : Strand) (k : Copy) : List (Nat × Claim) :=
  let lane := k.src.spad && k.dst.spad && k.srcCore != k.dstCore
  (List.range k.chunks).flatMap fun j =>
    let lo := j * k.w
    let n := k.hi j - lo
    let rb := k.start + 1 + j
    let vb := k.start + k.h + 1 + j
    let spad (c beat : Nat) (d : Shape) (rd : Bool) : List (Nat × Claim) := match t.cores[c]? with
      | some co => chunkClaims co c beat (d.bytes lo (k.hi j)) rd
      | none => []
    let one (beat g : Nat) : List (Nat × Claim) := [(0, { beat, group := g, rd := n, wr := 0 })]
    (if k.src.spad then spad k.srcCore rb k.src true else one rb dramGroup) ++
    (if k.dst.spad then spad k.dstCore vb k.dst false else one vb dramGroup) ++ (if lane then one rb laneGroup else [])

/-- A fifth start on one beat (R141). -/
def Engine.fifth (e : Engine) (x : Nat) : Bool := e.starts.1 == x && 4 ≤ e.starts.2
/-- Count a start. -/
def Engine.started (e : Engine) (x : Nat) : Engine := { e with starts := (x, if e.starts.1 == x then e.starts.2 + 1 else 1) }

/-- The first scratchpad byte of an end outside the strand's banks (R132). -/
def Shape.outside (d : Shape) (fp : Footprint) : Option W64 :=
  if d.spad then (d.bytes 0 d.len).find? fun a => !fp.spadOk a.toNat 1 else none

/-- The pages of a memory end that are in no TLB of a core, each with the index of its first byte (R69, R221). -/
def State.missing (s : State) (t : Strand) (c : Nat) (d : Shape) : List (Nat × W64) :=
  if d.spad then []
  else (List.range d.len).foldl (fun (ms : List (Nat × W64)) i =>
    let a := d.byteAt i
    if (s.tlbHit t.stack c t.ctx a.toNat).isNone && !ms.any (fun m => m.2.toNat / 4096 == a.toNat / 4096) then ms ++ [(i, a)] else ms) []

/-- Begin the page walks of a copy: each may hold the strand at the landing beat of the first chunk that needs it (R69). -/
def State.walkPages (s : State) (t : Strand) (c : Nat) (k : Copy) : List (Nat × W64) → State
  | [] => s
  | m :: ms =>
    let r := s.fresh
    let w : PageWalk := { beat := k.start + k.h + 1 + m.1 / k.w, ready := (s.stack t.stack).cyc + r.1, ended := none, phys := c, vas := [m.2] }
    State.walkPages (r.2.modStrand t.sid fun t => { t with walks := t.walks ++ [w] }) t c k ms

/-- What forbids a copy, with address and Detail, in the order of R221. `c` is the issuing physical core, `lc` the core Remote
names. DESIGN CHOICE (log 82): the ADDRESS of a malformed local address, which R221 does not place, stands with PAGE and PERM. -/
def State.copyFault (s : State) (t : Strand) (c : Nat) (w : XWord) (k : Copy) (lc : Nat) : Option (Nat × W64 × Nat) :=
  let sm := !k.src.spad
  let dm := !k.dst.spad
  if k.dst.len != k.len || (w.rem == 1 && dm) || (w.rem == 2 && sm) || (w.stg && dm) || (w.ck && sm) then some (cFormat, 0, 0)
  else if w.rem != 0 && t.cores.length ≤ lc then some (cBounds, BitVec.ofNat 64 lc, 0)
  else if sm && dm then some (cPath, k.src.base, 0)
  else
    let mem := if sm then k.src.bytes 0 k.len else if dm then k.dst.bytes 0 k.len else []
    match mem.find? fun a => s.offPath t c a with
    | some a => some (cPath, a, 0)
    | none => match k.src.outside t.fp with
      | some a => some (cBounds, a, 0)
      | none => match k.dst.outside t.fp with
        | some a => some (cBounds, a, 0)
        | none => match mem.findSome? fun a => s.timedFail t c dm a with
          | some f => some f
          | none => if ((sm || dm) && t.fp.share == 0) || !t.fits (t.copyClaims k) then some (cSchedule, 0, 0) else none

/-- XCOPY starts (R139, R221), unless an error has struck a slot it reads (R290): it keeps the descriptors it reads, commits its charges, and its chunks follow. -/
def execXcopyStart (c : CoreRef) (s : State) : Host.Outcome State Fault Refusal :=
  startCmd c .bte (fun i => (xword i).isSome) s fun v cmd s => match xword cmd.ins with
    | none => s
    | some w =>
      if v.st.fp.slots ≤ w.frm then s.raiseE c cmd cBounds (BitVec.ofNat 64 w.frm)
      else if v.st.fp.slots ≤ w.dst then s.raiseE c cmd cBounds (BitVec.ofNat 64 w.dst)
      else match vget v.co.shapes w.frm none with
        | none => s.raiseE c cmd cFormat
        | some src => match vget v.co.shapes w.dst none with
          | none => s.raiseE c cmd cFormat
          | some dst =>
            let lc := cmd.val.toNat % 64
            let srcCore := if w.rem == 2 then lc else c.core
            let dstCore := if w.rem == 1 then lc else c.core
            let path : Nat × Nat := if !src.spad then (v.st.fp.share, 96) else if !dst.spad then (v.st.fp.share, 64)
              else if srcCore == dstCore then (512, 12) else (256, 12 + 2 * hops (v.st.physAt srcCore) (v.st.physAt dstCore))
            let k : Copy := { id := v.co.copyNext, cmd, start := v.x, srcCore, dstCore, src, dst, w := path.1, h := path.2,
                              len := src.len, next := 0, checked := [] }
            match s.copyFault v.st v.co.phys w k lc with
            | some f => s.raiseE c cmd f.1 f.2.1 f.2.2
            | none =>
              if v.co.bte.fifth v.x then s.raiseE c cmd cSchedule
              else v.draws s cmd 6 fun s =>
                match v.co.marks.find? fun m => m == 84 + w.frm || m == 84 + w.dst with
                | some m => s.raiseE c cmd cPoison (BitVec.ofNat 64 m)
                | none =>
                let s := v.mod (s.commitClaims c.strand (v.st.copyClaims k)) fun co =>
                  { (co.modEng .bte fun e => e.started v.x) with copies := co.copies ++ [k], copyNext := co.copyNext + 1 }
                s.walkPages v.st v.co.phys k (s.missing v.st v.co.phys (if src.spad then dst else src))

/-! ## Chunks (R139, R142, R143, R222, R290) -/

/-- What a timed DRAM read sees of the writes in flight: those that have performed at stack scope (R142), and those that had
performed at the scope of an elastic wait of the strand when its read returned (R270), which count as performed there. -/
def State.timedFlights (s : State) (t : Strand) : State :=
  { s with flight := s.flight.map fun f => if t.waitSaw.contains f.id then { f with level := 5 } else f }

/-- A byte of a copy that core `c` issued, as read: its value and whether it is poisoned. DEDUCED (log 32). -/
def State.copyByte (s : State) (t : Strand) (c : Nat) (k : Copy) (a : W64) : Byte × Bool :=
  if k.src.spad then match t.cores[k.srcCore]? with
    | some co => (Sparse.get co.spad a.toNat, co.spadPoison.contains (a.toNat / 4))
    | none => (0, false)
  else match s.timedXlat t c a false with
    | .ok b => ((s.timedFlights t).busByte t.timedPlace b, (s.timedFlights t).poisoned t.timedPlace b)
    | .error _ => (0, false)

/-- The first byte of a chunk whose tile's first checked read fails its tag (R73, R222). -/
def State.chunkTagBad (t : Strand) (k : Copy) (w : XWord) (addrs : List W64) : Option W64 :=
  if !w.ck || !t.tagck then none
  else match t.cores[k.srcCore]? with
    | none => none
    | some co => addrs.find? fun a => !k.checked.contains (a.toNat / 4096) && Sparse.get co.tags (a.toNat / 4096) != w.ex

/-- Consecutive bytes as pieces: first address and bytes. -/
def pieces : List (Nat × Byte) → List (Nat × List Byte)
  | [] => []
  | (a, b) :: rest => match pieces rest with
    | (a', bs) :: ps => if a' == a + 1 then (a, b :: bs) :: ps else (a, [b]) :: (a', bs) :: ps
    | [] => [(a, [b])]

/-- A byte of a later chunk lies in a tile of the destination. -/
def Copy.later (k : Copy) (j tile : Nat) : Bool := (k.dst.bytes (k.hi j) k.len).any fun a => a.toNat / 4096 == tile

/-- The order of a copy's writes among those of one beat: over any cluster's, and the command later in buffer order over the
earlier (R259). -/
def Copy.ord (k : Copy) : Nat := engineRank + 1 + 2 ^ 64 * k.start + k.id

/-- Write a chunk to its destination at its visible beat, with the tags of the tiles it ends (R139, R222). -/
def State.chunkWrite (s : State) (c : CoreRef) (t : Strand) (k : Copy) (w : XWord) (j : Nat) (data : List (Byte × Bool)) : State :=
  let vb := k.start + k.h + 1 + j
  let addrs := k.dst.bytes (j * k.w) (k.hi j)
  if k.dst.spad then
    let cells := (addrs.map (·.toNat)).zip (data.map (·.1))
    let bad := ((addrs.zip data).filter fun e => e.2.2).map fun e => e.1.toNat / 4
    let tiles := ((addrs.map fun a => a.toNat / 4096).eraseDups).filter fun tile => w.stg && !k.later j tile
    s.modCoreRef { c with core := k.dstCore } fun co =>
      let co := (pieces cells).foldl (fun co p => co.sched vb k.ord (.spad p.1 p.2
        (bad.eraseDups.filter fun m => p.1 < 4 * m + 4 && 4 * m < p.1 + p.2.length))) co
      tiles.foldl (fun co tile => co.sched vb k.ord (.tag tile w.tag)) co
  else
    let ok := (addrs.zip data).filterMap fun e => match s.timedXlat t (t.physAt c.core) e.1 true with
      | .ok b => some (b, e.1, e.2)
      | .error _ => none
    s.modCoreRef c fun co => co.sched vb k.ord (.dram (ok.map fun e => (e.1, e.2.2.1)) (ok.map fun e => e.2.1)
      ((ok.filter fun e => e.2.2.2).map fun e => e.1 / 8).eraseDups)

/-- The regions of DRAM that a chunk's memory ends lie in (R302). -/
def State.copyUnits (s : State) (t : Strand) (c : Nat) (k : Copy) (j : Nat) : List HwUnit :=
  let of (d : Shape) (w : Bool) : List HwUnit := if d.spad then [] else (d.bytes (j * k.w) (k.hi j)).filterMap fun a =>
    match s.timedXlat t c a w with
    | .ok b => busUnit b
    | .error _ => none
  (of k.src false ++ of k.dst true).eraseDups

/-- XCOPY reads one chunk at its read beat (R139, R222). -/
def execXcopyChunk (c : CoreRef) (id j : Nat) (s : State) : Host.Outcome State Fault Refusal :=
  match s.eview c with
  | none => .fault .noOccasion
  | some v => match v.co.copies.find? fun k => k.id == id with
    | none => .fault .noOccasion
    | some k => match xword k.cmd.ins with
      | none => .fault .noOccasion
      | some w =>
        if k.next != j || k.len ≤ j * k.w || v.x < k.start + 1 + j then .fault .noOccasion
        else
          let addrs := k.src.bytes (j * k.w) (k.hi j)
          match State.chunkTagBad v.st k w addrs with
          | some a => .next ((v.mod s fun co => { co with copies := co.copies.filter fun m => m.id != id }).raiseE c k.cmd cSchedule a w.ex.toNat)
          | none =>
            let tiles := if k.src.spad then addrs.map fun a => a.toNat / 4096 else []
            let s' := (s.noteUse v.st.task (s.copyUnits v.st v.co.phys k j)).chunkWrite c v.st k w j
              (addrs.map fun a => s.copyByte v.st v.co.phys k a)
            .next <| v.mod s' fun co => { co with copies := co.copies.map fun m =>
              if m.id == id then { m with next := j + 1, checked := (tiles ++ m.checked).eraseDups } else m }

/-- The next chunk that is due on a beat. -/
def Core.chunkDue (c : Core) (x : Nat) : Option (Nat × Nat) :=
  (c.copies.find? fun k => k.next * k.w < k.len && k.start + 1 + k.next ≤ x).map fun k => (k.id, k.next)

/-- Forget the copies whose last chunk is visible. -/
def Core.pruneCopies (c : Core) (x : Nat) : Core :=
  { c with copies := c.copies.filter fun k => k.next * k.w < k.len || x < k.start + k.h + k.chunks }

/-! ## Shape slots (R223) -/

/-- TSLD's command. -/
def isTsld : Instr → Bool
  | .tsld .. => true
  | _ => false

/-- TSLD starts: BOUNDS for the slot or the address, then SCHEDULE (R223). -/
def execTsldStart (c : CoreRef) (s : State) : Host.Outcome State Fault Refusal :=
  startCmd c .bte isTsld s fun v cmd s => match cmd.ins with
    | .tsld _ _ _ slot =>
      if v.st.fp.slots ≤ slot.toNat then s.raiseE c cmd cBounds (BitVec.ofNat 64 slot.toNat)
      else v.load s cmd 64 1 0 (if v.co.bte.fifth v.x then some cSchedule else none) fun s =>
        v.mod s fun co => co.modEng .bte fun e => e.started v.x
    | _ => s

/-- TSEV's command. -/
def isTsev : Instr → Bool
  | .tsev .. => true
  | _ => false

/-- TSEV starts: the slot is empty (R223). -/
def execTsevStart (c : CoreRef) (s : State) : Host.Outcome State Fault Refusal :=
  startCmd c .bte isTsev s fun v cmd s => match cmd.ins with
    | .tsev _ _ slot =>
      if v.st.fp.slots ≤ slot.toNat then s.raiseE c cmd cBounds (BitVec.ofNat 64 slot.toNat)
      else if v.co.bte.fifth v.x then s.raiseE c cmd cSchedule
      else v.mod s fun co => { (co.modEng .bte fun e => e.started v.x) with shapes := vset co.shapes slot.toNat none }
    | _ => s

end Sys2Proof.Machine
end

