-- ==== Sys2Proof/Machine/Elastic.lean ====
section
/-! DEFINITION. Elastic queue entries as they perform, retire and land (R224 to R232, R249, R256 to R267), and the conditions
of elastic waits (R229, R233, R234). -/

namespace Sys2Proof.Machine

/-! ## A cluster context's queues -/

/-- What an elastic event sees. -/
structure QView where
  ref : CRef
  st  : Strand
  co  : Core
  cl  : Cluster
  deriving DecidableEq, Repr

/-- The context of an elastic event. -/
def State.qview (s : State) (r : CRef) : Option QView :=
  match s.strand? r.strand with
  | none => none
  | some st => match st.cores[r.core]? with
    | none => none
    | some co => some { ref := r, st, co, cl := co.cluster r.cl }

/-- Change the context of an elastic event. -/
def QView.mod (q : QView) (s : State) (f : Cluster → Cluster) : State :=
  s.modStrand q.ref.strand fun t => t.modCl q.ref.core q.ref.cl f

/-- The context's place (R253). -/
def QView.place (q : QView) : Place := { stack := q.st.stack, core := q.co.phys, sid := q.st.sid, cl := q.ref.cl }

/-! ## Order (R224, R227, R228, R232, R258, R263, R266) -/

/-- The address an entry acts at. -/
def ElOp.addr : ElOp → W64
  | .ld a _ _ => a
  | .st a _ _ => a
  | .ecopy _ d _ _ => d
  | .atomic _ a _ _ _ _ => a
  | .bara a _ _ => a
  | .enq a _ _ => a
  | .mark => 0
  | .fence _ => 0

/-- The scope level at which an entry retires: domain for a domain address, device otherwise (R224). -/
def ElOp.final (o : ElOp) : Nat := match o with
  | .ecopy 2 _ _ _ => 5
  | _ => if isDomain o.addr then 6 else 5

/-- The next scope level an entry performs at (R230, R261, R265): a domain write reaches its target at once, an atomic
first performs at its scope, a copy into the scratchpad and an ENQ perform whole. -/
def Entry.next (e : Entry) : Nat :=
  if e.op.final == 6 then 6
  else match e.op with
    | .atomic _ _ _ _ sc _ => if e.level == 0 then min sc 5 else e.level + 1
    | .bara _ sc _ => if e.level == 0 then min sc 5 else e.level + 1
    | .ecopy 2 _ _ _ => 5
    | .enq .. => 5
    | _ => e.level + 1

/-- A marker. -/
def ElOp.marks : ElOp → Bool
  | .mark => true
  | .fence _ => true
  | _ => false

/-- The entry is a load. -/
def ElOp.isLd : ElOp → Bool
  | .ld .. => true
  | _ => false

/-- The addresses of a copy's words. -/
def wordAddrs (a : W64) (n : Nat) : List W64 := (List.range (n / 8)).map fun i => a + BitVec.ofNat 64 (8 * i)

/-- The addresses of memory that an entry writes. -/
def ElOp.writes : ElOp → List W64
  | .ecopy mode d _ n => if mode == 2 then [] else wordAddrs d n
  | o => if o.marks || o.isLd then [] else [o.addr]

/-- An entry has performed at a level, or at its last one. -/
def Entry.done (e : Entry) (l : Nat) : Bool := min l e.op.final ≤ e.level || (match e.op with
  | .ld .. => e.value.isSome
  | .mark => true
  | .fence _ => true
  | _ => false)

/-- `x` comes before `e`: a handler's entries before those of what it interrupted, else in issue order (R224, R239, R266).
DEDUCED (log 40). -/
def Entry.before (x e : Entry) : Bool := if x.handler == e.handler then x.iss < e.iss else e.handler < x.handler

/-- Every write that a load issued before a FENCE at scope `sc` has returned has performed at that scope; the FENCE of a handler concerns
the handler's own loads (R239, R263). -/
def QView.fenced (s : State) (q : QView) (m : Entry) (sc : Nat) : Bool := q.cl.saw.all fun w =>
  m.iss ≤ w.1 || w.2.1 < m.handler || !s.flight.any fun f => f.id == w.2.2 && f.level < min sc 5

/-- Whether an entry of the queue `own` may perform at level `l`, given the context's two queues (R227, R228, R232, R233,
R249, R258, R263). -/
def QView.ordered (s : State) (q : QView) (own : List Entry) (e : Entry) (l : Nat) : Bool :=
  let all := (q.cl.lq.entries ++ q.cl.sq.entries).filter fun x => x.before e
  let mine := own.filter fun x => x.before e
  let behind (m : Entry) (l : Nat) : Bool := all.all fun x => !x.before m || x.done l
  let held (m : Entry) : Bool := match m.op with
    | .mark => behind m l
    | .bara .. => behind m l
    | .fence sc => behind m sc && QView.fenced s q m sc
    | _ => true
  let gate := q.cl.waits.any fun w => w.iss ≤ e.iss && w.seenAt.isNone && w.handler == e.handler && (match w.kind with
    | .barw .. => true
    | .flagw .. => true
    | _ => false)
  mine.all (fun x => x.done l) && all.all held && !gate &&
  (match e.op with
    | .bara .. => all.all fun x => x.done l
    | .enq .. => mine.all fun x => x.done x.op.final
    | _ => true)

/-- A Q cause of the context stands, met at trap depth `d` or by a handler inside it: no later entry issued at that depth begins to
perform; those of a handler that runs on top of it do (R266, R281). -/
def QView.blocked (q : QView) (d : Nat) : Bool :=
  (q.st.raised ++ q.st.taking).any fun c => c.kind == .q && c.core == q.ref.core && c.cl == q.ref.cl && d ≤ c.depth

/-- An entry's strand lets it go on: one that has begun always does; others while the strand runs or a handler does, and
then only those of the innermost handler and of handlers left (R239, R282, R283). -/
def QView.live (q : QView) (e : Entry) : Bool :=
  e.level != 0 || e.value.isSome ||
  (!q.blocked e.handler && (q.st.status == .handler || q.st.status == .run) && q.cl.depth ≤ e.handler)

/-- No write in flight at some bytes, by an agent within a scope of the context's, has still to perform at that scope: one that begins
there comes after it in coherence order, and overtakes none that has not performed where it does (R224, R230, R258). -/
def QView.settled (q : QView) (s : State) (b n sc : Nat) : Bool :=
  !(s.flight.any fun f => (f.cells.any fun c => b ≤ c.1 && c.1 < b + n) && f.pends q.place sc)

/-- An entry's write in flight may perform at a scope: those ahead of it there that share a byte with it have (R224, R258). -/
def QView.mayWiden (q : QView) (s : State) (e : Entry) (sc : Nat) : Bool := match s.flight.find? fun f => f.id == e.fid with
  | none => true
  | some f => !((s.flight.takeWhile fun g => g.id != e.fid).any fun g => g.shares f && g.pends q.place sc)

/-- The entry may take its next step (`own` is its queue). -/
def QView.ready (s : State) (q : QView) (own : List Entry) (e : Entry) : Bool :=
  q.live e && (match e.op with
    | .ld .. => e.value.isSome || q.ordered s own e 6
    | .mark => false
    | .fence _ => false
    | _ => if e.op.final ≤ e.level then e.value.isSome else q.ordered s own e e.next)

/-- A marker may retire: its strand lets it go on (R281, R283), every entry ahead of it in both queues has retired (R224), and what a
FENCE holds later entries for has come to pass (R263). -/
def QView.markReady (s : State) (q : QView) (e : Entry) : Bool :=
  e.op.marks && q.live e && ((q.cl.lq.entries ++ q.cl.sq.entries).all fun x => !x.before e) && (match e.op with
    | .fence sc => QView.fenced s q e sc
    | _ => true)

/-! ## Targets (R146, R290, R305, R308 to R311) -/

/-- Where an elastic access goes: a bus address of this device, or another device. -/
inductive Target where
  | bus (b : Nat)
  | remote (dev : Nat)
  deriving DecidableEq, Repr

/-- Resolve an elastic access from a core, or say why it fails: cause and Detail (R144, R146, R308, R310, R311). -/
def State.elTarget (s : State) (st : Strand) (c : Nat) (a : W64) (w : Bool) : Except (Nat × Nat) Target :=
  if isDomain a then
    if domDevice a == Config.ownDevice then match s.exportAt Config.ownDevice (domOffset a) w with
      | some b => .ok (.bus b)
      | none => .error (cNoEnd, 0)
    else if s.routed (domDevice a) && Config.remoteAnswers s.freeCtr then .ok (.remote (domDevice a))
    else .error (cNoEnd, 0)
  else if !canonical a then .error (cAddress, 0)
  else match s.xlat st.stack c st.ctx a.toNat w false with
    | .error e => .error e.code
    | .ok b =>
      if s.hostAbsent b then .error (cHost, 0)
      else if s.silent b then .error (cNoEnd, 0)
      else .ok (.bus b)

/-- Spend one free value. -/
def State.spend (s : State) : State := { s with freeCtr := s.freeCtr + 1 }

/-- The `n` bytes an access reads. -/
def State.targetRead (s : State) (p : Place) (t : Target) (n : Nat) : Nat := match t with
  | .bus b => if isDoorbell b then (Config.doorbellData s.freeCtr).toNat % 2 ^ (8 * n) else natOfBytes (s.busBytes p b n)
  | .remote _ => (Config.remoteData s.freeCtr).toNat % 2 ^ (8 * n)

/-- A target's bytes are poisoned, as they are read from a place. -/
def State.targetBad (s : State) (p : Place) (t : Target) (n : Nat) : Bool := match t with
  | .bus b => s.poisonedRange p b n
  | .remote _ => false

/-- The units behind a read or a write that is made (R302). -/
def State.unitsOf (s : State) (st : Strand) (c : Nat) (a : W64) (w : Bool) : List HwUnit :=
  if !isDomain a then match s.lookup st.stack c st.ctx a.toNat with
    | .ok p => (busUnit (p.at a.toNat)).toList
    | .error _ => []
  else if domDevice a == Config.ownDevice then ((s.exportAt Config.ownDevice (domOffset a) w).bind busUnit).toList
  else (s.portFor Config.ownDevice (domDevice a)).toList.map .port

/-- An access from a core is made: its TLBs hold the translation of a local address (R147), one to another device leaves by its port
(R313), and the strand's task has used what lies behind it (R302). -/
def State.touch (s : State) (st : Strand) (c : Nat) (a : W64) (w : Bool) : State :=
  let s := s.noteUse st.task (s.unitsOf st c a w)
  if isDomain a then if domDevice a == Config.ownDevice then s else s.send Config.ownDevice (domDevice a)
  else if !canonical a then s
  else match s.lookup st.stack c st.ctx a.toNat with
    | .ok p => s.tlbFill st.stack c st.ctx p
    | .error _ => s

/-! ## Failing, retiring, landing (R225, R230, R266, R297) -/

/-- Which queue an entry stands in. -/
inductive QName where
  | lq | sq
  deriving DecidableEq, Repr

/-- A queue of the context. -/
def Cluster.queue (c : Cluster) : QName → ElQueue
  | .lq => c.lq
  | .sq => c.sq

/-- Change a queue's entries. -/
def Cluster.modQueue (c : Cluster) (n : QName) (f : List Entry → List Entry) : Cluster := match n with
  | .lq => { c with lq := { c.lq with entries := f c.lq.entries } }
  | .sq => { c with sq := { c.sq with entries := f c.sq.entries } }

/-- A marker ahead of an entry that has begun to perform has begun too: all that it holds later entries for has (R227, R228, R283). -/
def Entry.head (e x : Entry) : Entry := if x.op.marks && x.before e then { x with level := 1 } else x

/-- Note in both queues that an entry begins to perform, or fails as it would. -/
def Cluster.heads (c : Cluster) (e : Entry) (begins : Bool) : Cluster :=
  if begins then (c.modQueue .lq (·.map e.head)).modQueue .sq (·.map e.head) else c

/-- Replace an entry. -/
def QView.put (q : QView) (s : State) (n : QName) (e e' : Entry) : State :=
  q.mod s fun c => (c.modQueue n fun es => es.map fun x => if x.seq == e.seq then e' else x).heads e (e'.level != 0)

/-- Take an entry out of its queue. -/
def QView.drop (q : QView) (s : State) (n : QName) (e : Entry) : State :=
  q.mod s fun c => (c.modQueue n fun es => es.filter fun x => x.seq != e.seq).heads e true

/-- An entry fails as it performs: it counts as ended, and its cluster takes a Q cause (R251, R266). -/
def QView.fail (q : QView) (s : State) (n : QName) (e : Entry) (f : Nat × Nat) (a : W64) : State :=
  (q.drop s n e).modStrand q.ref.strand fun t => t.raise
    { code := f.1, kind := .q, core := q.ref.core, cl := q.ref.cl, beat := t.beat, cyc := (s.stack t.stack).cyc, addr := a,
      detail := f.2, queue := if n == .lq then 5 else 6, fseq := e.seq, shadow := false, k0 := none, depth := e.handler }

/-- What an entry folds into the digest when it has performed at its last scope (R297). -/
def Entry.folds (e : Entry) (t : Strand) : Strand := match e.op with
  | .st a n v => t.fold a n v
  | .ecopy _ d _ _ => (cellsAt 0 e.words).foldl (fun t w => t.fold (d + BitVec.ofNat 64 (8 * w.1)) 8 w.2) t
  | .atomic .fadd a b _ _ _ => t.fold a 4 (b &&& 0xFFFFFFFF)
  | .atomic _ a b _ _ _ => t.fold a 8 b
  | .bara a _ _ => if (e.value.getD 0).msb then t else t.fold a 8 1
  | _ => t

/-- The destination of a load or atomic. -/
def ElOp.dest : ElOp → Option Reg
  | .ld _ _ d => some d
  | .atomic _ _ _ _ _ d => some d
  | .bara _ _ d => some d
  | .enq _ _ d => some d
  | _ => none

/-- Bytes at a bus address as cells. -/
def busCells (b n v : Nat) : List (Nat × Byte) := cellsAt b (bytesOf n v)

/-- A write performs at level `l` from a place: at device scope it enters memory, below it is in flight (R257, R261). -/
def QView.write (q : QView) (s : State) (cells : List (Nat × Byte)) (bad : List Nat) (l : Nat) : Nat × State :=
  if 5 ≤ l then (0, { s.busWrite cells with poison := (s.busWrite cells).poison ++ bad.filter fun w => !s.drops (8 * w) })
  else
    let f : Flight := { id := s.nextNum, stack := q.st.stack, core := q.co.phys, sid := q.st.sid, cl := q.ref.cl, cells, bad, level := l }
    (s.nextNum, { s with flight := s.flight ++ [f], nextNum := s.nextNum + 1 })

/-- A write in flight performs at a level (R261). -/
def State.widen (s : State) (fid l : Nat) : State :=
  if 5 ≤ l then s.settle fid
  else { s with flight := s.flight.map fun f => if f.id == fid then { f with level := l } else f }

/-- A store of `n` bytes to a doorbell page tells the Ethernet engine where it is a doorbell: 8 bytes at the offset of the queue pair
it names (R315). Any other store there does nothing (DESIGN CHOICE, log 67). -/
def State.ring (s : State) (b n : Nat) (v : W64) : State :=
  if isDoorbell b && n == 8 && (b - 2 ^ 41) % 4096 == 8 * (fld v.toNat 0 10 % 512) then
    { s with todo := .ev (.doorbell ((b - 2 ^ 41) / 4096) v) :: s.todo }
  else s

/-- After an entry has performed at level `l`: at its last level it folds, and retires unless its old value has still to
land. -/
def QView.performed (q : QView) (s : State) (e : Entry) (l : Nat) : State :=
  let e' := { e with level := l, ready := 0 }
  let last := e.op.final ≤ l
  let s := if last then s.modStrand q.ref.strand e'.folds else s
  if last && e.op.dest.isNone then q.drop s .sq e else q.put s .sq e e'

/-- Why a write in flight cannot come to its target any more: HOST-ABSENT or NO-ENDPOINT (R266, R308, R311). -/
def State.lost (s : State) (fid : Nat) : Option (Nat × Nat) := match s.flight.find? fun f => f.id == fid with
  | none => none
  | some f => f.cells.findSome? fun c =>
      if s.hostAbsent c.1 then some (cHost, 0) else if s.silent c.1 then some (cNoEnd, 0) else none

/-- The first address of a write at which its target does not answer. -/
def QView.lostAt (q : QView) (s : State) (e : Entry) : W64 := (e.op.writes.find? fun a => match s.elTarget q.st q.co.phys a true with
  | .ok _ => false
  | .error _ => true).getD e.op.addr

/-- An entry waits, without a step, for a write in flight, and then draws its delay afresh. -/
def QView.await (q : QView) (s : State) (e : Entry) : State := q.put s .sq e { e with ready := 0 }

/-- One step of a write that has begun: its flight performs at the next level, once those ahead of it have (R258). Where its target does
not answer any more, the write is dropped whole, it folds nothing, and the entry fails (R266, R297, R311). DEDUCED (log 28). -/
def QView.widenEntry (q : QView) (s : State) (e : Entry) : State := match s.lost e.fid with
  | some f => q.fail { s with flight := s.flight.filter fun g => g.id != e.fid } .sq e f (q.lostAt s e)
  | none =>
    if !q.mayWiden s e e.next then q.await s e
    else q.performed (if e.fid == 0 then s else s.widen e.fid e.next) e e.next

/-- The first entry of a queue that may take a step of one kind and whose time has come. -/
def QView.pick (s : State) (q : QView) (n : QName) (ok : Entry → Bool) : Option Entry :=
  (q.cl.queue n).entries.find? fun e =>
    ok e && q.ready s (q.cl.queue n).entries e && e.ready != 0 && e.ready ≤ (s.stack q.st.stack).cyc

/-- Run an elastic event on the entry it takes. -/
def onEntry (r : CRef) (n : QName) (ok : Entry → Bool) (s : State) (f : QView → Entry → State) :
    Host.Outcome State Fault Refusal :=
  match s.qview r with
  | none => .fault .noOccasion
  | some q => match q.pick s n ok with
    | none => .fault .noOccasion
    | some e => .next (f q e)

/-! ## LD (R225) -/

/-- A load's value from its bytes. -/
def LdKind.extend (k : LdKind) (v : Nat) : W64 := match k with
  | .ws => (BitVec.ofNat 32 v).signExtend 64
  | _ => BitVec.ofNat 64 v

/-- A load performs: its value is fixed, or it fails (R224, R225, R266, R290). -/
def execLoadPerform (r : CRef) (s : State) : Host.Outcome State Fault Refusal :=
  onEntry r .lq (fun e => e.op.isLd && e.value.isNone) s fun q e => match e.op with
    | .ld a k _ => match s.elTarget q.st q.co.phys a false with
      | .error f => q.fail s.spend .lq e f a
      | .ok t =>
        let s1 := s.touch q.st q.co.phys a false
        if s.targetBad q.place t k.size then q.fail s1 .lq e (cPoison, 0) a
        else
          let saw := match t with
            | .bus b => s.seenFlights q.place b k.size
            | .remote _ => []
          let v := k.extend (s.targetRead q.place t k.size)
          q.mod (q.put s1.spend .lq e { e with level := 6, value := some v, ready := 0 }) fun c =>
            { c with saw := saw.map (fun i => (e.iss, e.handler, i)) ++ c.saw.filter fun w => s.flight.any fun f => f.id == w.2.2 }
    | _ => s

/-- The queue whose entry has data that may arrive: the load queue first. -/
def QView.arriving (s : State) (q : QView) : QName :=
  if (q.pick s .lq fun e => e.value.isSome).isSome then .lq else .sq

/-- An entry whose value has only to land. -/
def Entry.landing (e : Entry) : Bool := e.value.isSome && (e.op.isLd || e.op.final ≤ e.level)

/-- Data arrives: the entry retires, and the data enters its register at the next beat boundary (R225, R230). -/
def execLoadDataArrival (r : CRef) (s : State) : Host.Outcome State Fault Refusal :=
  let n := match s.qview r with
    | some q => q.arriving s
    | none => .lq
  onEntry r n Entry.landing s fun q e => match e.op.dest with
    | none => q.drop s n e
    | some d => q.mod (q.drop s n e) fun c => { c with arrive := c.arrive ++ [(d, e.value.getD 0)] }

/-! ## ST (R224, R225, R261, R297) -/

/-- The entry is a store. -/
def ElOp.isSt : ElOp → Bool
  | .st .. => true
  | _ => false

/-- A store performs at its next scope, after the writes in flight to its bytes (R224, R258, R261); a store to a doorbell page tells the Ethernet engine once it has
performed at device scope (R315). -/
def execStorePerform (r : CRef) (s : State) : Host.Outcome State Fault Refusal :=
  onEntry r .sq (fun e => e.op.isSt && e.level < e.op.final) s fun q e => match e.op with
    | .st a n v =>
      let l := e.next
      if e.level != 0 then
        let s := q.widenEntry s e
        if l == 5 then match s.elTarget q.st q.co.phys a true with
          | .ok (.bus b) => s.ring b n v
          | _ => s
        else s
      else match s.elTarget q.st q.co.phys a true with
        | .error f => q.fail s.spend .sq e f a
        | .ok (.remote _) => q.performed (s.touch q.st q.co.phys a true).spend e l
        | .ok (.bus b) =>
          let s := s.touch q.st q.co.phys a true
          if isDoorbell b then q.performed (if 5 ≤ l then s.ring b n v else s) e l
          else if !q.settled s b n l then q.await s e
          else
            let w := q.write s (busCells b n v.toNat) [] l
            q.performed w.2 { e with fid := w.1 } l
    | _ => s

/-! ## ECOPY (R226, R260, R290) -/

/-- The entry is a copy. -/
def ElOp.isCopy : ElOp → Bool
  | .ecopy .. => true
  | _ => false

/-- Resolve every word of a memory end, or give the first failure with its address. -/
def State.resolveAll (s : State) (st : Strand) (c : Nat) (w : Bool) : List W64 → Except ((Nat × Nat) × W64) (List Target)
  | [] => .ok []
  | a :: as => match s.elTarget st c a w with
    | .error f => .error (f, a)
    | .ok t => match s.resolveAll st c w as with
      | .error f => .error f
      | .ok ts => .ok (t :: ts)

/-- What was in flight at a stop counts as landed for a copy: in a handler, and in scoreboard mode (R239, R260, R282, R286). -/
def QView.settles (q : QView) : Bool := q.st.status == .handler || q.st.beat < q.cl.horizon

/-- The words at a copy's source, each with its poison mark, or why one fails. -/
def QView.copySource (q : QView) (s : State) (mode : Nat) (a : W64) (n : Nat) : Except ((Nat × Nat) × W64) (List (W64 × Bool)) :=
  let as := wordAddrs a n
  if mode == 1 then
    let co := if q.settles then q.co.settled none else q.co.drainedSeen
    .ok (as.map fun x => (BitVec.ofNat 64 (natOfBytes (co.spadBytes x.toNat 8)), (co.spadBad x.toNat 8).isSome))
  else match s.resolveAll q.st q.co.phys false as with
    | .error f => .error f
    | .ok ts => .ok ((cellsAt s.freeCtr ts).map fun t =>
        (BitVec.ofNat 64 (State.targetRead { s with freeCtr := t.1 } q.place t.2 8), s.targetBad q.place t.2 8))

/-- Hold the translations of a copy's memory end. -/
def State.touchAll (s : State) (st : Strand) (c : Nat) (w : Bool) (as : List W64) : State := as.foldl (fun s a => s.touch st c a w) s

/-- Spend the free values of `n` reads. -/
def State.spendN (s : State) (n : Nat) : State := { s with freeCtr := s.freeCtr + n + 1 }

/-- A copy performs: it reads its whole source, then writes its destination at its first scope; a poisoned word carries its
mark (R226, R260, R290). DEDUCED (log 26). -/
def execEcopyPerform (r : CRef) (s : State) : Host.Outcome State Fault Refusal :=
  onEntry r .sq (fun e => e.op.isCopy && e.level < e.op.final) s fun q e => match e.op with
    | .ecopy mode d a n =>
      let l := e.next
      if e.level != 0 then q.widenEntry s e
      else match q.copySource s mode a n with
        | .error f => q.fail s.spend .sq e f.1 f.2
        | .ok ws =>
          let s1 := if mode == 1 then s else s.touchAll q.st q.co.phys false (wordAddrs a n)
          if mode == 2 then
            let bs := ws.flatMap fun w => bytesOf 8 w.1.toNat
            let bad := ((cellsAt 0 ws).filter fun w => w.2.2).flatMap fun w => [d.toNat / 4 + 2 * w.1, d.toNat / 4 + 2 * w.1 + 1]
            let act := Act.spad d.toNat bs bad
            let under (t : Strand) (co : Core) : Core := co.landUnder t.beat [{ beat := 0, ord := 0, act }] fun e => q.settles || e.drained
            q.performed ((s1.spendN ws.length).modStrand q.ref.strand fun t => t.modCore q.ref.core fun co => (under t co).apply t.beat act) e l
          else match s.resolveAll q.st q.co.phys true (wordAddrs d n) with
            | .error f => q.fail (s1.spendN ws.length) .sq e f.1 f.2
            | .ok ts =>
              let out := (ts.zip ws).filterMap fun x => match x.1 with
                | .bus b => if isDoorbell b then none else some (b, x.2)
                | .remote _ => none
              if out.any fun x => !q.settled s x.1 8 l then q.await s e
              else
              let w := q.write ((s1.touchAll q.st q.co.phys true (wordAddrs d n)).spendN ws.length) (out.flatMap fun x => busCells x.1 8 x.2.1.toNat)
                ((out.filter fun x => x.2.2).map fun x => x.1 / 8) l
              q.performed w.2 { e with fid := w.1, words := ws.map (·.1) } l
    | _ => s

/-! ## Atomics (R230, R231, R232) -/

/-- The value an atomic leaves (R230): none where it leaves the word unchanged. -/
def AtomicOp.result (op : AtomicOp) (old b cmp : W64) : Option W64 := match op with
  | .add => some (old + b)
  | .minI => some (if b.toInt < old.toInt then b else old)
  | .minN => some (if b.toNat < old.toNat then b else old)
  | .maxI => some (if old.toInt < b.toInt then b else old)
  | .maxN => some (if old.toNat < b.toNat then b else old)
  | .and => some (old &&& b)
  | .or => some (old ||| b)
  | .xor => some (old ^^^ b)
  | .xchg => some b
  | .cas => if old == cmp then some b else none
  | .fadd => some ((Sys2Proof.Machine.fadd 0 (low32 old) (low32 b)).zeroExtend 64)

/-- The bytes an atomic acts on. -/
def AtomicOp.size : AtomicOp → Nat
  | .fadd => 4
  | _ => 8

/-- A read-modify-write of `n` bytes at its scope: `f` gives the value for d and the new value from the old one. It waits
for the writes to its bytes within its scope, which it must see (R230). -/
def QView.modify (q : QView) (s : State) (e : Entry) (a : W64) (n : Nat) (f : W64 → W64 × Option W64) : State :=
  let l := e.next
  match s.elTarget q.st q.co.phys a true with
  | .error g => q.fail s.spend .sq e g a
  | .ok t =>
    let s1 := (s.touch q.st q.co.phys a true).spend
    if s.targetBad q.place t n then q.fail s1 .sq e (cPoison, 0) a
    else
      let r := f (BitVec.ofNat 64 (s.targetRead q.place t n))
      match t with
      | .remote _ => q.performed s1 { e with value := some r.1 } l
      | .bus b =>
        if !q.settled s b n l then q.await s e
        else
          let w := q.write s1 (match r.2 with
            | some v => if isDoorbell b then [] else busCells b n v.toNat
            | none => []) [] l
          q.performed w.2 { e with fid := w.1, value := some r.1 } l

/-- The entry is an atomic. -/
def ElOp.isAtomic : ElOp → Bool
  | .atomic .. => true
  | _ => false

/-- An atomic performs at its scope, and its write then at each wider one (R230, R261). -/
def execAtomicPerform (r : CRef) (s : State) : Host.Outcome State Fault Refusal :=
  onEntry r .sq (fun e => e.op.isAtomic && e.level < e.op.final) s fun q e => match e.op with
    | .atomic op a b cmp _ _ =>
      if e.level != 0 then q.widenEntry s e else q.modify s e a op.size fun old => (old, op.result old b cmp)
    | _ => s

/-- A barrier word's generation. -/
def barGen (w : Nat) : Nat := fld w 40 24

/-- What a barrier arrival returns and leaves (R231, R232). -/
def barArrive (w : W64) : W64 × Option W64 :=
  let n := w.toNat
  let expected := fld n 20 20
  let arrived := fld n 0 20
  if expected == 0 || expected ≤ arrived then (BitVec.ofNat 64 (2 ^ 63 + barGen n), none)
  else if arrived + 1 == expected then
    (BitVec.ofNat 64 (barGen n), some (BitVec.ofNat 64 ((barGen n + 1) % 2 ^ 24 * 2 ^ 40 + expected * 2 ^ 20)))
  else (BitVec.ofNat 64 (barGen n), some (w + 1))

/-- The entry is a barrier arrival. -/
def ElOp.isBara : ElOp → Bool
  | .bara .. => true
  | _ => false

/-- A barrier arrival performs (R232). -/
def execBaraPerform (r : CRef) (s : State) : Host.Outcome State Fault Refusal :=
  onEntry r .sq (fun e => e.op.isBara && e.level < e.op.final) s fun q e => match e.op with
    | .bara a _ _ => if e.level != 0 then q.widenEntry s e else q.modify s e a 8 barArrive
    | _ => s

/-! ## ENQ (R44, R45, R249) -/

/-- The entry is an ENQ. -/
def ElOp.isEnq : ElOp → Bool
  | .enq .. => true
  | _ => false

/-- The packet of an ENQ: its slots' words, the header and the last four bytes stamped with the queue position. -/
def enqBytes (ws : List W64) (hdr n : W32) : List Byte :=
  let bs := ws.flatMap fun w => bytesOf 8 w.toNat
  bytesOf 8 (n.toNat * 2 ^ 32 + hdr.toNat) ++ (bs.drop 8).take (bs.length - 12) ++ bytesOf 4 n.toNat

/-- The virtual address of slot `pos` of a device queue (R44). -/
def dqSlot (base : W64) (pos : Nat) : W64 := base + BitVec.ofNat 64 (64 * (pos % 256))

/-- Write one slot of a context's device queue; a slot that does not translate or lacks Write is not written. -/
def State.putSlot (s : State) (ctx : Nat) (base : W64) (pos : Nat) (bs : List Byte) : State :=
  match s.dispXlat ctx (dqSlot base pos) true with
  | some b => s.busWrite (cellsAt b bs)
  | none => s

/-- The first poisoned word of those read from an address on (R290). -/
def poisonedWord (a : W64) (ws : List (W64 × Bool)) : Option ((Nat × Nat) × W64) :=
  ((cellsAt 0 ws).find? fun w => w.2.2).map fun w => ((cPoison, 0), a + BitVec.ofNat 64 (8 * w.1))

/-- The first of `n` slots of a device queue that does not answer: the cause and the slot's address (R308, R311). -/
def State.slotLost (s : State) (ctx : Nat) (base : W64) (pos n : Nat) : Option ((Nat × Nat) × W64) := (List.range n).findSome? fun i =>
  (s.dispLost ctx (dqSlot base (pos + i))).map fun f => (f.code, dqSlot base (pos + i))

/-- An ENQ performs: the packet is placed, or d receives 1 (R249). Where a slot does not answer it fails, and places nothing (R266, R308,
R311). -/
def execEnqPerform (r : CRef) (s : State) : Host.Outcome State Fault Refusal :=
  onEntry r .sq (fun e => e.op.isEnq && e.level < e.op.final) s fun q e => match e.op with
    | .enq a hdr _ =>
      let n := fld hdr.toNat 8 4 + 1
      match s.ctx? q.st.ctx with
      | none => q.performed s { e with value := some 1 } 6
      | some c =>
        if c.torn || 256 - (c.dqTail - c.dqHead).toNat < n then q.performed s { e with value := some 1 } 6
        else match q.copySource s 0 a (64 * n) with
          | .error f => q.fail s.spend .sq e f.1 f.2
          | .ok ws =>
            match (poisonedWord a ws).or (s.slotLost q.st.ctx c.dqBase c.dqTail.toNat n) with
            | some f => q.fail s.spend .sq e f.1 f.2
            | none =>
              let bs := enqBytes (ws.map (·.1)) hdr c.dqTail
              let s := (s.touchAll q.st q.co.phys false (wordAddrs a (64 * n))).spendN ws.length
              let s := (List.range n).foldl (fun s i =>
                s.putSlot q.st.ctx c.dqBase (c.dqTail.toNat + i) ((bs.drop (64 * i)).take 64)) s
              let s := s.modCtx q.st.ctx fun c => { c with dqTail := c.dqTail + BitVec.ofNat 32 n }
              q.performed s { e with value := some 0 } 6
    | _ => s

/-! ## Markers (R224, R227, R228) -/

/-- The marker of a context that may retire. -/
def QView.pickMark (s : State) (q : QView) : Option Entry := q.cl.lq.entries.find? fun e => q.markReady s e

/-- A marker retires from both queues once every entry ahead of it has (R224). -/
def execMarkerRetire (r : CRef) (s : State) : Host.Outcome State Fault Refusal :=
  match s.qview r with
  | none => .fault .noOccasion
  | some q => match q.pickMark s with
    | none => .fault .noOccasion
    | some e => .next (q.mod s fun c =>
        (c.modQueue .lq fun es => es.filter fun x => x.iss != e.iss).modQueue .sq fun es => es.filter fun x => x.iss != e.iss)

/-! ## Which event an entry's step is -/

/-- The event of the next step an entry of a queue may take now, if any (R224 to R232, R249). -/
def QView.eventOf (s : State) (q : QView) (n : QName) (e : Entry) : Option Ev :=
  if !q.ready s (q.cl.queue n).entries e then none
  else if e.landing then some (.loadDataArrival q.ref)
  else match e.op with
    | .ld .. => some (.loadPerform q.ref)
    | .st .. => some (.storePerform q.ref)
    | .ecopy .. => some (.ecopyPerform q.ref)
    | .atomic .. => some (.atomicPerform q.ref)
    | .bara .. => some (.baraPerform q.ref)
    | .enq .. => some (.enqPerform q.ref)
    | .mark => none
    | .fence _ => none

/-! ## Wait conditions (R21, R229, R233, R234) -/

/-- The condition of a FLAGW. -/
def flagCond (cond : Nat) (w v : W64) : Bool :=
  if cond == 0 then w == v else if cond == 1 then w != v else if cond == 2 then v.toNat ≤ w.toNat else w.toNat < v.toNat

/-- The unretired entries of a queue that a wait counts (R229, R239). -/
def ElQueue.counted (q : ElQueue) (depth : Nat) : Nat := (q.entries.filter fun e => depth ≤ e.handler).length

/-- The writes in flight that have performed at a scope level of the context's (R233, R270). -/
def QView.atScope (q : QView) (s : State) (sc : Nat) : List Flight :=
  s.flight.filter fun f => max (f.reach q.place) (min sc 5) ≤ f.level

/-- The scope level of a wait: that of its read, and the device's for a queue wait. -/
def Wait.scope (w : Wait) : Nat := match w.kind with
  | .barw _ _ sc => sc
  | .flagw _ _ _ _ sc => sc
  | _ => 5

/-- A wait's word: a write in flight is seen once it has performed at the wait's scope and reaches the waiter (R233). -/
def QView.waitRead (q : QView) (s : State) (a : W64) (sc : Nat) : Except (Nat × Nat) W64 :=
  match s.elTarget q.st q.co.phys a false with
  | .error f => .error f
  | .ok t =>
    let u : State := { s with flight := q.atScope s sc }
    if u.targetBad q.place t 8 then .error (cPoison, 0) else .ok (BitVec.ofNat 64 (u.targetRead q.place t 8))

/-- What a wait's condition is now: true, false, or a failed read with its address. -/
def QView.waitMet (q : QView) (s : State) (w : Wait) : Except ((Nat × Nat) × W64) Bool :=
  match w.kind with
  | .lq n => .ok (q.cl.lq.counted w.handler ≤ n)
  | .sq n => .ok (q.cl.sq.counted w.handler ≤ n)
  | .barw a g sc => match q.waitRead s a sc with
    | .error f => .error (f, a)
    | .ok v => .ok (barGen v.toNat != fld g.toNat 0 24)
  | .flagw a v m c sc => match q.waitRead s a sc with
    | .error f => .error (f, a)
    | .ok x => .ok (flagCond c (x &&& m) v)

/-! ## Looking at waits (R21, R68, R233, R287) -/

/-- Look at one wait of a context: its condition is seen, with the writes that have performed at its scope (R21, R233, R270), or its
read fails. What its read reaches is used (R302); a read of another device spends a free value. DESIGN CHOICE (log 20): the word's
address is translated afresh at each look, and what that finds is held in no TLB. -/
def State.lookWait (s : State) (r : CRef) (w : Wait) : State := match s.qview r with
  | none => s
  | some q =>
    let cyc := (s.stack q.st.stack).cyc
    let set (s : State) (w' : Wait) : State := q.mod s fun c => { c with waits := c.waits.map fun x => if x == w then w' else x }
    let s := match w.kind with
      | .barw a _ _ => s.noteUse q.st.task (s.unitsOf q.st q.co.phys a false)
      | .flagw a _ _ _ _ => s.noteUse q.st.task (s.unitsOf q.st q.co.phys a false)
      | _ => s
    match q.waitMet s w with
    | .ok true =>
      let ids := (q.atScope s w.scope).map (·.id)
      (set s { w with seenAt := some cyc }).modStrand r.strand fun t =>
        { t with waitSaw := ids ++ t.waitSaw.filter fun i => !ids.contains i && s.flight.any fun f => f.id == i }
    | .ok false => match w.kind with
      | .lq _ => s
      | .sq _ => s
      | _ => s.spend
    | .error f =>
      if q.blocked w.handler then s
      else s.modStrand r.strand fun t => t.raise
        { code := f.1.1, kind := .q, core := r.core, cl := r.cl, beat := t.beat, cyc, addr := f.2, detail := f.1.2, queue := 0,
          fseq := 0, shadow := false, k0 := none, depth := w.handler }

end Sys2Proof.Machine
end

