-- ==== Sys2Proof/Machine/Stop.lean ====
section
/-! DEFINITION. Stopping a strand: the stop boundary, the drain, the trap or hold that follows, the third level; freezes and
what ends them; declarations, regions and grants (R21, R68 to R70, R245 to R247, R276, R281 to R287, R323). -/

namespace Sys2Proof.Machine

/-! ## The clusters of a strand -/

/-- The cluster contexts of a strand, cores then clusters rising. -/
def Strand.contexts (t : Strand) : List CRef :=
  (List.range t.cores.length).flatMap fun n => match t.cores[n]? with
    | some co => ((List.range 4).filter fun k => (co.cluster k).inMask).map fun k => { strand := t.sid, core := n, cl := k }
    | none => []

/-- A cluster context of a strand. -/
def Strand.clusterAt (t : Strand) (n k : Nat) : Cluster := match t.cores[n]? with
  | some co => co.cluster k
  | none => Cluster.zero

/-- Look at the waits of a strand whose conditions have not been seen. While a handler runs the program's waits are not looked at: after
the return they read their words afresh; a handler's own hold its next bundle (R233, R239). -/
def State.lookWaitsOf (s : State) (t : Strand) : State :=
  t.contexts.foldl (fun s r =>
    let c := t.clusterAt r.core r.cl
    (c.waits.filter fun w => w.seenAt.isNone && (t.status == .run || (c.handling && w.handler == c.depth))).foldl (fun s w => s.lookWait r w) s) s

/-- A strand that goes on after a hold reads the conditions of its waits (R287). -/
def State.lookWaitsAfresh (s : State) (sid : Nat) : State := match s.strand? sid with
  | none => s
  | some t => s.lookWaitsOf t

/-- Change every cluster context of a strand's mask. -/
def Strand.mapCl (t : Strand) (f : Cluster → Cluster) : Strand :=
  t.contexts.foldl (fun t r => t.modCl r.core r.cl f) t

/-- The lowest-numbered cluster of the mask, which takes a cause that no cluster raised (R323). -/
def Strand.lowest (t : Strand) : Nat := ((List.range 4).find? fun k => bitAt t.fp.mask k).getD 0

/-- Some trap bank of the strand is in use with its handler running (R284, R287). -/
def Strand.handling (t : Strand) : Bool := t.contexts.any fun r => (t.clusterAt r.core r.cl).handling

/-- A cluster issues on a beat: it has not halted and does not hold (R114, R161, R237). -/
def Cluster.issues (c : Cluster) (x : Nat) : Bool :=
  c.inMask && !c.halted && c.waitb ≤ x && (match c.rdv with
    | some r => x < r.beat + 8
    | none => true) && !(c.gaps.any fun g => g.1 ≤ x && x < g.2)

/-- A syllable's Shadow and Sync flags (R79). -/
def sylFlags (i : Instr) : Bool × Bool := match encode i with
  | w :: _ => wordFlags w
  | [] => (false, false)

/-- A bundle's Shadow and Sync flags: those of its S syllable, which comes first (R75, R79). -/
def bundleFlags (b : Bundle) : Bool × Bool := match b.syls with
  | i :: _ => sylFlags i
  | [] => (false, false)

/-- The Shadow and Sync flags of the bundle at a place, from the lines that hold it: those its first word shows, even where its fields
are wrong or it has no end (R79, R101, R109). DESIGN CHOICE (log 76): one whose first word the lines do not hold shows neither. -/
def flagsAt (ls : List Line) (pc : Nat) : Bool × Bool :=
  if pc % 4 != 0 then (false, false)
  else match l0Words ls 1 pc with
    | w :: _ => wordFlags w
    | [] => (false, false)

/-- The next bundle of a cluster, which issues at beat `x`, carries Shadow. -/
def Cluster.nextShadow (c : Cluster) (x : Nat) : Bool := (flagsAt (c.issueLines x) c.seq.pc).1

/-- The boundary before the strand's next beat lies inside a shadow window (R109). -/
def Strand.inShadow (t : Strand) : Bool := t.contexts.any fun r =>
  let c := t.clusterAt r.core r.cl
  c.issues t.beat && c.skip == 0 && c.nextShadow t.beat

/-- Raise an asynchronous cause; `hold` says that its taker then leaves its wait at a rendezvous (R70, R114). -/
def State.raiseA (s : State) (sid code core cl : Nat) (detail : Nat := 0) (hold : Bool := false) : State :=
  s.modStrand sid fun t => t.raise
    { code, kind := .a, core, cl, beat := t.beat, cyc := (s.stack t.stack).cyc, addr := 0, detail, queue := 0, fseq := 0,
      shadow := false, k0 := none, hold }

/-- Raise a precise cause. -/
def State.raiseP (s : State) (t : Strand) (code core cl : Nat) (shadow : Bool) (addr : W64) : State :=
  s.modStrand t.sid fun t => t.raise
    { code, kind := .p, core, cl, beat := t.beat, cyc := (s.stack t.stack).cyc, addr, detail := 0, queue := 0, fseq := 0, shadow,
      k0 := none }

/-! ## Ending a strand (R45, R285, R294, R295) -/

/-- A write that has begun completes at once: its flight enters memory, after what comes before it there, and it folds, and a doorbell is
told. One whose target does not answer any more is dropped whole, and folds nothing (R258, R297, R311, R315). -/
def State.finishEntry (s : State) (t : Strand) (core : Nat) (e : Entry) : State := match s.lost e.fid with
  | some _ => { s with flight := s.flight.filter fun g => g.id != e.fid }
  | none =>
    let s := (if e.fid == 0 then s else s.settleAll fun f => f.id == e.fid).modStrand t.sid ({ e with level := e.op.final }).folds
    match e.op with
    | .st a n v => match s.elTarget t core a true with
      | .ok (.bus b) => s.ring b n v
      | _ => s
    | _ => s

/-- Elastic stores and atomics that had begun to perform complete, in queue order; a load that had begun lands nothing
(R45, R285). DEDUCED (log 29). -/
def State.finishElastic (s : State) (t : Strand) : State :=
  t.contexts.foldl (fun s r => (t.clusterAt r.core r.cl).sq.entries.foldl (fun s e =>
    if e.level == 0 || e.op.final ≤ e.level || e.op.marks then s
    else s.finishEntry t ((t.cores[r.core]?.map Core.phys).getD 0) e) s) s

/-- Note in a strand's task that the strand has ended, with its digest and, where it faulted, the fault: a third-level trap
before a bank left by a halt, then by logical index, core and cluster (R295, R302). -/
def State.noteEnd (s : State) (t : Strand) (fault : Option (Nat × Nat × Nat × Nat)) : State :=
  { s with tasks := s.tasks.map fun k =>
      if k.num == t.task then
        { k with strands := k.strands.filter (· != t.sid), digests := k.digests ++ [(t.logidx, t.digest)],
                 faults := k.faults ++ fault.toList, record := { k.record with stop := BitVec.ofNat 64 s.wtime } }
      else k }

/-- A strand stops at once and departs: what it had begun elastically completes, its engines write nothing more, and its
slots and space go back in the next window (R45, R58, R285, R294). -/
def State.endStrand (s : State) (sid : Nat) (fault : Option (Nat × Nat × Nat × Nat)) : State :=
  match s.strand? sid with
  | none => s
  | some t =>
    let s := s.finishElastic t
    match s.strand? sid with
    | none => s
    | some t =>
      let s := s.noteEnd t fault
      let s := s.modStrand sid fun t => { t with status := .ended, freeze := none, raised := [], taking := [] }
      s.modStack t.stack fun k => { k with departed := k.departed ++ [sid] }

/-- The crash record of a third-level trap (R285). -/
def crashRecord (t : Strand) (cl : Cluster) (c : Cause) (now : Nat) : List W64 :=
  let phys := match t.cores[c.core]? with
    | some co => t.stack * 64 + co.phys
    | none => 0
  let n (k : Nat) : W64 := BitVec.ofNat 64 k
  [n (t.sid % 2 ^ 32 * 2 ^ 32 + t.ctx % 64 * 2 ^ 26 + t.logidx % 128 * 2 ^ 19 + phys % 512 * 2 ^ 10 + c.cl % 4 * 2 ^ 8),
   n ((causeWord c cl.seq.pos).toNat % 2 ^ 32 * 2 ^ 32 + cl.tb.cause.toNat % 2 ^ 16 * 2 ^ 16 + cl.ta.cause.toNat % 2 ^ 16),
   n cl.seq.pc, cl.ta.pc, cl.tb.pc, cl.ta.beat, c.addr, n now]

/-- A trap at the third level: the crash record, and the end of the strand at its stop boundary. Its engines write nothing more (R285);
the rest of its task ends with the cycle (R295). -/
def State.crashStrand (s : State) (t : Strand) (c : Cause) : State :=
  let s := s.modStack t.stack fun k =>
    let x := crashRecord t (t.clusterAt c.core c.cl) c s.wtime
    { k with crash := if k.crash.length < 64 then k.crash ++ [x] else k.crash.set (k.crashcnt % 64) x, crashcnt := k.crashcnt + 1 }
  s.endStrand t.sid (some (0, t.logidx, 4 * c.core + c.cl, c.code))

/-- The strands of a task that are saved, or wait to be restored, end: they hold no space (R45, R288). -/
def State.endAway (s : State) (task : Nat) : State :=
  let away := s.saved.filter (fun t => t.task == task) ++ s.waiting.filterMap fun w => match w.image with
    | some t => if t.task == task then some t else none
    | none => none
  let s := away.foldl (fun s t => s.noteEnd t none) s
  { s with saved := s.saved.filter fun t => t.task != task,
           waiting := s.waiting.filter fun w => match w.image with
             | some t => t.task != task
             | none => true }

/-- Every strand of a task ends at once (R45, R295). -/
def State.endStrandsOf (s : State) (k : Task) : State :=
  (k.strands.foldl (fun s sid => s.endStrand sid none) s).endAway k.num

/-- The tasks of which a strand has ended by a third-level trap end: what is left of them stops at once, when every strand of the stack
has come to its boundary of the cycle (R295). -/
def State.endFallen (s : State) : State :=
  (s.tasks.filter fun k => !k.strands.isEmpty && k.faults.any fun f => f.1 == 0).foldl State.endStrandsOf s

/-! ## The stop (R251, R252, R281, R284, R323) -/

/-- A raised cause has reached its stop boundary: `free` tells that the boundary lies outside a shadow window (R281). A strand that was
frozen when it was raised stops where it is, in a shadow window too: R281 says so of such a strand, while R109, R245 and R251 keep an
asynchronous cause out of shadow windows. Lost state stops it at its first boundary (R293). DEDUCED (log 21). -/
def Strand.causeDue (t : Strand) (cyc : Nat) (free : Bool) (c : Cause) : Bool := match c.kind with
  | .p => true
  | .soft => c.beat < t.beat
  | .e => c.frozen || (free && c.beat + 1 ≤ t.beat && c.cyc + 6 ≤ cyc)
  | .q => c.frozen || (free && c.beat + 1 ≤ t.beat && c.cyc + 6 ≤ cyc)
  | .a => c.frozen || c.code == cRetain || (free && c.cyc + 6 ≤ cyc)

/-- Two causes fall to one cluster context. -/
def Cause.sameTaker (a b : Cause) : Bool := a.core == b.core && a.cl == b.cl

/-- For each context the cause of lowest code, the earliest raised of equals (R252, R284). -/
def chooseCauses : List Cause → List Cause
  | [] => []
  | c :: cs =>
    let rest := chooseCauses cs
    if rest.any fun d => d.sameTaker c && d.code < c.code then rest else c :: rest.filter fun d => !d.sameTaker c

/-- The context that takes a cause, with `tvec` as it governs a trap at the present boundary (R160). -/
def Strand.taker (t : Strand) (c : Cause) : Cluster := match t.cores[c.core]? with
  | some co => { co.cluster c.cl with tvec := co.tvecAt c.cl t.beat }
  | none => Cluster.zero

/-- A cause ends the strand (R239, R293). -/
def Strand.fatal (t : Strand) (c : Cause) : Bool := thirdLevel (t.taker c) c || c.code == cRetain

/-- A DEADLINE-RISK for a context with no handler address is discarded (R245). -/
def Strand.discards (t : Strand) (c : Cause) : Bool := c.code == cRisk && (t.taker c).tvec == 0

/-- At its boundary a strand discards what has come to be taken and has no handler (R245). -/
def Strand.shed (t : Strand) (cyc : Nat) : Strand :=
  { t with raised := t.raised.filter fun c => !(t.discards c && t.causeDue cyc (!t.inShadow) c) }

/-- A cause that a handler takes while it runs: one its own bundle raised, or that one of its entries met. What was held when
the handler began waits until it has returned (R239, R282). -/
def Strand.handlerDue (t : Strand) (c : Cause) : Bool := match c.kind with
  | .p => true
  | .soft => true
  | .q => t.stopCyc < c.cyc && (t.clusterAt c.core c.cl).handling && c.depth == (t.clusterAt c.core c.cl).depth
  | _ => c.code == cRetain

/-- Take out the causes of one stop: those chosen, and what stays raised. Synchronous ones that were not chosen are raised
again when their bundles issue again (R284). While a handler runs, only what it takes is considered. DEDUCED (log 27). -/
def Strand.choose (t : Strand) : Strand :=
  let cs := t.raised.filter fun c => !t.discards c
  let taking := chooseCauses (if t.status == .handler then cs.filter t.handlerDue else cs)
  { t with taking, raised := cs.filter fun c => !taking.contains c && c.kind != .p && c.kind != .soft }

/-- A strand is due to stop at this boundary. -/
def State.stopDue (s : State) (t : Strand) : Bool :=
  (t.status == .run && t.raised.any (t.causeDue (s.stack t.stack).cyc !t.inShadow)) ||
  (t.status == .handler && t.raised.any t.handlerDue)

/-! ## The drain (R282) -/

/-- Run a step of an engine in the drain. -/
def State.tryRun (s : State) (f : State → Host.Outcome State Fault Refusal) : State := match f s with
  | .next s' => s'
  | _ => s

/-- The beats at which something in flight on a core goes on. -/
def Core.drainBeats (c : Core) : List Nat :=
  c.agenda.map (·.beat) ++
  c.loads.map (fun l => if l.got.length < 64 * l.lines then l.start + 1 + l.got.length / 64 else l.stop) ++
  (c.copies.filter fun k => k.next * k.w < k.len).map (fun k => k.start + 1 + k.next) ++
  (match c.rstep with
    | none => []
    | some r => match r.copyAt with
      | some y => [y]
      | none => if r.snap.isSome then [r.snapAt + 64] else if r.gen == r.from_ then [r.snapAt] else []) ++
  (match c.nest with
    | none => []
    | some n => (match n.reading with
      | some r => if r.next < r.d then [r.start + r.next] else []
      | none => []) ++ if n.atRetire then [] else [n.tau])

/-- Whether an idle engine has a swap that may flip. -/
def Core.flipDue (c : Core) (u : Unit') : Bool := !(c.eng u).swaps.isEmpty && !c.working u

/-- A generation, or the copy of the last, completes by a beat (R212). -/
def Core.genDue (c : Core) (x : Nat) : Bool := match c.rstep with
  | some p => (match p.copyAt with
    | some y => decide (y ≤ x)
    | none => p.snap.isSome && decide (p.snapAt + 64 ≤ x))
  | none => false

/-- The next event of a core's engines that is due on a beat and comes before the beat's bundles: a chunk, a table that is
complete, a generation, a flip (R107, R138, R139, R207, R209, R212). -/
def Core.engineEv (c : Core) (r : CoreRef) (x : Nat) : Option Ev :=
  match c.chunkDue x with
  | some k => some (.xcopyChunk r k.1 k.2)
  | none =>
    if (c.endedLoad isTload x).isSome then some (.tloadReplace r)
    else if (c.endedLoad isRload x).isSome then some (.rloadReplace r)
    else if c.genDue x then some (.rstepGeneration r)
    else none

/-- Run the engine events of a core that are due, at most `n`. -/
def State.engineEvs (s : State) (r : CoreRef) : Nat → State
  | 0 => s
  | n + 1 => match s.eview r with
    | none => s
    | some v => match v.co.engineEv r v.x with
      | some (.xcopyChunk c i j) => (s.tryRun (execXcopyChunk c i j)).engineEvs r n
      | some (.tloadReplace c) => (s.tryRun (execTloadReplace c)).engineEvs r n
      | some (.rloadReplace c) => (s.tryRun (execRloadReplace c)).engineEvs r n
      | some (.rstepGeneration c) => (s.tryRun (execRstepGeneration c)).engineEvs r n
      | _ => s

/-- Flip the planes of an idle engine that has a swap waiting. -/
def State.flipIdle (s : State) (r : CoreRef) (e : Eng) : State := match s.eview r with
  | none => s
  | some v => if v.co.flipDue (engUnit e) then s.tryRun (execCfgswapFlip r e) else s

/-- One beat of the drain of a core, after its landings. A swap that waits for the command in progress flips once that has ended
(R138), in the drain too, though R282 names no swap, and a command that issues after the return may bear a stamp before that beat.
DEDUCED (log 16). -/
def State.drainCore (s : State) (r : CoreRef) : State :=
  let s := s.engineEvs r 65536
  let s := match s.eview r with
    | none => s
    | some v => match v.co.rstep with
      | some p => if p.gen == p.from_ then v.snapshot s else s
      | none => s
  let s := match s.eview r with
    | none => s
    | some v =>
      let s := v.mod s fun c => if (match c.nest with
        | some n => n.atRetire
        | none => true) then c else c.settleNest true v.x 64
      match s.eview r with
      | none => s
      | some v => if v.co.stepDue v.x && !(match v.co.nest with
          | some n => n.atRetire
          | none => true) then s.tryRun (execMatrixBlockStep r) else s
  ((s.flipIdle r .me).flipIdle r .te).flipIdle r .re

/-- What is due on each core by a beat. -/
def Strand.dueBy (t : Strand) (x : Nat) : List (List Timed) := t.cores.map fun c => c.agenda.takeWhile fun e => e.beat ≤ x

/-- What the generations that complete by a beat write on each core. -/
def State.generationsBy (s : State) (sid x : Nat) : List (List Timed) := match s.strand? sid with
  | none => []
  | some t => t.cores.map fun c => ((c.genAct x).map fun a => { beat := x, ord := engineRank, act := a : Timed }).toList

/-- Drain a strand: go through the beats at which something in flight goes on, without starting anything. Answers also the last
such beat, the horizon of R286, what landed on each core, and how many block steps had started by the end of each beat. -/
def State.drainFrom (s : State) (sid last : Nat) (landed : List (List Timed)) (steps : List (Nat × Nat)) :
    Nat → State × Nat × List (List Timed) × List (Nat × Nat)
  | 0 => (s, last, landed, steps)
  | n + 1 => match s.strand? sid with
    | none => (s, last, landed, steps)
    | some t => match (t.cores.flatMap Core.drainBeats).min? with
      | none => (s, last, landed, steps)
      | some y =>
        let x := max y last
        let s := s.modStrand sid fun t => { t with beat := x }
        let s := s.landAll t x
        let s := s.loadsBeat { t with beat := x }
        let s := t.coreRefs.foldl (fun s r => s.readBlocks r 16) s
        let written := s.generationsBy sid x
        let s := t.coreRefs.foldl (fun s r => s.drainCore r) s
        s.drainFrom sid x (List.zipWith (· ++ ·) (List.zipWith (· ++ ·) landed (t.dueBy x)) written)
          (steps ++ [(x, (s.stack t.stack).steps)]) n

/-- Where the micro-orders of a reduction lead from a beat, with steps of `d` beats: the beat after them, and the end of the last step
among them (R196). -/
def ordersEnd (d : Nat) (os : List (Nat × Nat)) (tau last : Nat) : Nat × Nat := os.foldl (fun a o =>
  if o.1 == 3 then (a.1 + o.2, a.2) else if o.1 == 4 then a else (a.1 + d * o.2, a.1 + d * o.2)) (tau, last)

/-- The beat at which the last write of a nest would land, had nothing stopped it (R196, R197). -/
def Nest.lastWrite (n : Nest) : Nat :=
  if n.stopped then n.lastLand
  else
    let d := stepBeats (fmtEntry n.fmt)
    let now := ordersEnd d n.items n.tau 0
    let more := n.reds - n.red - 1
    if more == 0 then (if now.2 == 0 then n.lastLand else now.2 + 8)
    else
      let one := ordersEnd d n.orders 0 0
      now.1 + (more - 1) * one.1 + one.2 + 8

/-- The beat of the last write of an RSTEP, had nothing stopped it: its last generation's, or the copy of an odd count (R212). -/
def RStep.lastWrite (r : RStep) : Nat := match rword r.cmd.ins with
  | none => r.start
  | some w => r.start + 2 + 64 * (w.gens - r.from_) + (if w.cheq || w.gens % 2 == 0 then 0 else 16)

/-- The beat of the last engine write of a nest or an RSTEP of a core that has started (R286). -/
def Core.lastWrite (c : Core) : Nat := max (c.nest.elim 0 Nest.lastWrite) (c.rstep.elim 0 RStep.lastWrite)

/-- Whether an entry stays for its stated beat: all but a write to DRAM. DEDUCED (log 16). -/
def Timed.stays (e : Timed) : Bool := match e.act with
  | .dram .. => false
  | _ => true

/-- Put back the stores as they stood at the stop, with what the drain landed in them at its stated beats (R286). DEDUCED (log 16). -/
def Strand.putBack (t : Strand) (old : List Core) (landed : List (List Timed)) : Strand :=
  let one (c : Core) (o : Core × List Timed) : Core :=
    { (c.withStores o.1) with agenda := (o.2.filter Timed.stays).map fun e => { e with drained := true } }
  { t with cores := List.zipWith one t.cores (old.zip landed) }

/-- Drain a strand: its engines and its writes to DRAM have gone as far as the drain takes them, and its beat is what it was.
What has landed on its cores is seen by every bundle that does not read old values, and takes its place in the stores at its
stated beat (R282, R286). The horizon is the latest beat of what it drained, and of what its nests and RSTEPs would still write.
DEDUCED (log 16). -/
def State.drainStrand (s : State) (t : Strand) : State × Nat :=
  let s := s.landAll t t.beat
  match s.strand? t.sid with
  | none => (s, t.beat)
  | some o =>
    let steps := (s.stack t.stack).steps
    let r := s.drainFrom t.sid t.beat (o.cores.map fun _ => []) [] (2 ^ 64)
    let s := r.1.modStack t.stack fun k => { k with steps }
    (s.modStrand t.sid fun u => { u.putBack o.cores r.2.2.1 with beat := t.beat }, (o.cores.map Core.lastWrite).foldl max r.2.1)

/-- The numbers of block steps that start at the beats of a drain, from how many had started by the end of each. -/
def stepsAt (before : Nat) : List (Nat × Nat) → List (Nat × Nat)
  | [] => []
  | (x, n) :: xs => if n ≤ before then stepsAt before xs else (x, n - before) :: stepsAt n xs

/-- What the drain that a strand begins will take: its last beat, and the block steps that start at each of its beats. -/
def State.drainPlan (s : State) (t : Strand) : Nat × List (Nat × Nat) :=
  let s := (s.modStrand t.sid fun _ => t).landAll t t.beat
  match s.strand? t.sid with
  | none => (t.beat, [])
  | some o =>
    let r := s.drainFrom t.sid t.beat (o.cores.map fun _ => []) [] (2 ^ 64)
    (r.2.1, stepsAt (s.stack t.stack).steps r.2.2.2)

/-- A strand stops and begins to drain, towards its handlers or to be held (R282, R287). Each beat of the drain counts the stride in
cycles, the first from the present one; a block step counts in the droop signature in the cycle in which it starts (R278). How much
longer the drain takes is free. DEDUCED (log 25). -/
def State.beginDrain (s : State) (t : Strand) (hold : Bool) : State :=
  let cyc := (s.stack t.stack).cyc
  let t := { t with status := .drain hold, freeze := none }
  let p := s.drainPlan t
  let at_ (x : Nat) : Nat := cyc + (x - t.beat) * t.stride
  let r := s.fresh
  (r.2.modStrand t.sid fun _ => { t with stopCyc := at_ p.1 + 1 + r.1 }).modStack t.stack fun k =>
    { k with late := k.late ++ p.2.map fun e => (t.sid, at_ e.1, e.2) }

/-- STRAND_STOP: the strand's beats stop at this boundary for the causes that have reached theirs, and it begins to drain, or ends where
one of them is at the third level (R281, R285). DEDUCED (log 25). -/
def execStrandStop (sid : Nat) (s : State) : Host.Outcome State Fault Refusal :=
  match s.strand? sid with
  | none => .fault .noOccasion
  | some t =>
    if !s.stopDue t then .fault .noOccasion
    else
      let t' := t.choose
      match t'.taking.find? t.fatal with
      | some c => .next (s.crashStrand t c)
      | none =>
        .next (if t'.taking.isEmpty then s.modStrand sid fun _ => t' else s.beginDrain t' false)

/-- Nothing elastic of the strand is still under way (R282). -/
def Strand.elasticDone (t : Strand) : Bool := t.contexts.all fun r =>
  let c := t.clusterAt r.core r.cl
  c.lq.entries.all (fun e => e.value.isNone) && c.sq.entries.all fun e => e.level == 0

/-! ## After the drain (R239 to R241, R282 to R287) -/

/-- The address of the bundle after the second delay bundle of the transfer that is pending (R241). -/
def State.fallAddr (s : State) (t : Strand) (co : Core) (cl : Cluster) : Nat :=
  let lines (k : Nat) : List Line := if t.status == .handler then cl.l0 else cl.issueLines (t.beat + k)
  let step (k a : Nat) : Nat := a + (s.bundleLen t co (lines k) a).getD (Config.unknownLen a)
  if cl.seq.pos == 1 then step 1 (step 0 cl.seq.pc) else if cl.seq.pos == 2 then step 0 cl.seq.pc else cl.seq.pc

/-- One context takes its trap (R239); a wait at a rendezvous is left where the cause is its own (R70, R114). -/
def State.trapOne (s : State) (sid : Nat) (c : Cause) (e : Nat) : State :=
  match s.strand? sid with
  | none => s
  | some t => match t.cores[c.core]? with
    | none => s
    | some co =>
      let cl := co.cluster c.cl
      let fall := s.fallAddr t co cl
      s.modStrand sid fun t => t.modCl c.core c.cl fun cl =>
        { takeTrap co cl c t.beat fall with
          horizon := max cl.horizon e,
          rdv := if c.hold then none else cl.rdv }

/-- Take the causes of a stop: the third level if one of them is at it, else each in its own context (R239, R284, R285). -/
def State.takeCauses (s : State) (t : Strand) (e : Nat) : State :=
  match t.taking.find? t.fatal with
  | some c => s.crashStrand t c
  | none =>
    let s := t.taking.foldl (fun s c => s.trapOne t.sid c e) s
    s.modStrand t.sid fun t => { t with status := .handler, taking := [] }

/-- What the drain leaves of waits, engines and invalidations: every wait reads its condition afresh, no engine is held by a fault any
longer (R233, R281, R287), and an ICINV issued before the stop has reached every core. -/
def Strand.afterDrain (t : Strand) : Strand :=
  let t := t.mapCl fun c => { c with waits := c.waits.map fun w => { w with seenAt := none } }
  let t := t.icinvs.foldl (fun t i => t.invalidate (i.1 + 8) i.2.1 i.2.2) { t with icinvs := [] }
  { t with cores := t.cores.map fun c =>
      let calm (g : Engine) : Engine := { g with faulted := false }
      { c with me := calm c.me, te := calm c.te, re := calm c.re, bte := calm c.bte } }

/-- For a strand that goes on after a hold, with its next slot at a cycle: what counts against a watchdog starts again (R70), and every
wait reads its condition afresh; one whose condition, or whose grant, is there by that slot holds nothing (R287). -/
def Strand.anew (t : Strand) (cyc : Nat) : Strand := ({ t with region := { t.region with since := cyc } } : Strand).mapCl fun c =>
  { c with rdv := c.rdv.map (fun d => { d with since := d.since.map fun _ => cyc }),
           waits := c.waits.map fun w => { w with cyc0 := cyc, seenAt := none } }

/-- A strand that was held goes on at its beat (R287). -/
def Strand.resumeAt (t : Strand) (cyc : Nat) : Strand :=
  { t.anew (max cyc t.nextCyc) with
    status := .run, linkHeld := false, holdReq := false, holdAt := none }

/-- DRAIN_END: the drain is over; each trap is taken in its bank, or the hold is complete unless a fault came up in the
drain, which is taken first (R239, R282, R284, R287). A hold withdrawn meanwhile is no hold (R309). -/
def execDrainEnd (sid : Nat) (s : State) : Host.Outcome State Fault Refusal :=
  match s.strand? sid with
  | none => .fault .noOccasion
  | some t =>
    let cyc := (s.stack t.stack).cyc
    match t.status with
    | .drain hold =>
      if cyc < t.stopCyc || !t.elasticDone then .fault .noOccasion
      else
        let r := s.drainStrand t
        let s := r.1.modStrand sid fun t => { t.afterDrain with stopCyc := cyc }
        match s.strand? sid with
        | none => .next s
        | some t =>
          let t' := if hold then t.choose else t
          if t'.taking.isEmpty then
            let u := t'.mapCl fun c => { c with horizon := max c.horizon r.2 }
            .next (if u.holdReq then s.modStrand sid fun _ => { u with status := .held, holdReq := false, holdAt := none }
              else (s.modStrand sid fun _ => u.resumeAt cyc).lookWaitsAfresh sid)
          else .next ((s.modStrand sid fun _ => t').takeCauses t' r.2)
    | _ => .fault .noOccasion

/-- A hold request reaches a strand (R287): one that is frozen in a wait or for a line or a translation, outside a shadow window, is
held at that boundary; any other 8 beats after its first beat from now on. DEDUCED (log 45). -/
def Strand.askHold (t : Strand) : Strand :=
  let waits := match t.freeze with
    | some f => f.why != .ret
    | none => false
  { t with holdReq := true, holdAt := if waits && !t.inShadow && !t.handling then some t.beat else none }

/-- A strand's pre-emption beat has come: outside a shadow window, with no handler running (R287). -/
def Strand.holdDue (t : Strand) : Bool :=
  t.status == .run && t.holdReq && !t.inShadow && !t.handling && (match t.holdAt with
    | some x => x ≤ t.beat
    | none => false)

/-- PREEMPTION_HOLD: the strand is held at its pre-emption beat and drains (R282, R287). -/
def execPreemptionHold (sid : Nat) (s : State) : Host.Outcome State Fault Refusal :=
  match s.strand? sid with
  | none => .fault .noOccasion
  | some t =>
    if !t.holdDue then .fault .noOccasion else .next (s.beginDrain t true)

/-! ## Freezes (R21, R68 to R70, R92) -/

/-- The 2^24 cycles of the watchdog (R70). -/
def watchdogCycles : Nat := 2 ^ 24

/-- The contexts whose hold at a rendezvous has run out. -/
def Strand.rdvLate (t : Strand) (cyc : Nat) : List CRef := t.contexts.filter fun r => match (t.clusterAt r.core r.cl).rdv with
  | some d => (match d.since with
    | some c => c + watchdogCycles ≤ cyc
    | none => false)
  | none => false

/-- The freeze of a strand has run out. -/
def Strand.freezeLate (t : Strand) (cyc : Nat) : Bool := match t.freeze with
  | some f => f.since + watchdogCycles ≤ cyc
  | none => false

/-- STALL_WATCHDOG (R70, R251, R323): a precise cause of the lowest cluster for a freeze, an asynchronous one of each holding cluster
for its own hold. The clock starts again, so that it is raised once. -/
def execStallWatchdog (sid : Nat) (s : State) : Host.Outcome State Fault Refusal :=
  match s.strand? sid with
  | none => .fault .noOccasion
  | some t =>
    let cyc := (s.stack t.stack).cyc
    if t.status != .run then .fault .noOccasion
    else if t.freezeLate cyc then
      .next ((s.raiseP t cStall 0 t.lowest false 0).modStrand sid fun t =>
        { t with freeze := t.freeze.map fun f => { f with since := cyc } })
    else match t.rdvLate cyc with
      | [] => .fault .noOccasion
      | rs => .next (rs.foldl (fun s r => (s.raiseA sid cStall r.core r.cl (hold := true)).modStrand sid fun t =>
          t.modCl r.core r.cl fun c => { c with rdv := c.rdv.map fun d => { d with since := some cyc } }) s)

/-- A wait's condition has been visible for the lead of eight beats, or was when it was issued (R21, R68). -/
def Wait.passed (w : Wait) (cyc stride : Nat) : Bool := match w.seenAt with
  | some c => c ≤ w.cyc0 || c + 8 * stride ≤ cyc
  | none => false

/-- Forget the waits whose lead is over and whose condition has passed. -/
def Strand.dropWaits (t : Strand) (cyc : Nat) : Strand :=
  t.mapCl fun c => { c with waits := c.waits.filter fun w => !(w.beat + 8 ≤ t.beat && w.passed cyc t.stride) }

/-- Some wait whose lead is over holds the strand. -/
def Strand.waitHolds (t : Strand) (cyc : Nat) : Bool := t.contexts.any fun r =>
  (t.clusterAt r.core r.cl).waits.any fun w => w.beat + 8 ≤ t.beat && !w.passed cyc t.stride

/-- An ACQP whose lead is over holds the strand (R246). -/
def Strand.grantHolds (t : Strand) (cyc : Nat) : Bool := t.region.reqs.any fun q =>
  q.1 + 8 ≤ t.beat && (match q.2.2.2 with
    | some g => !(g ≤ max q.2.2.1 t.region.since || g + 8 * t.stride ≤ cyc)
    | none => true)

/-- What has ended at a cycle `e.1`, before its strand came to beat `e.2`, holds up a beat no more: it did so eight beats before that
beat, whatever their stride, or eight beats' cycles ago (R21, R68). -/
def Strand.leadOver (t : Strand) (cyc beat : Nat) (e : Nat × Nat) : Bool := e.2 + 8 ≤ beat || e.1 + 8 * t.stride ≤ cyc

/-- A page walk for an access that lands by this beat holds the strand (R69). -/
def Strand.walkHolds (t : Strand) (cyc : Nat) : Bool := t.walks.any fun w =>
  w.beat ≤ t.beat && !w.ended.any (t.leadOver cyc w.beat)

/-- The filling of lines that were looked up for this beat holds the strand (R92). -/
def Strand.fillHolds (t : Strand) (cyc : Nat) : Bool := t.fills.any fun f =>
  f.beat ≤ t.beat && !f.ended.any (t.leadOver cyc f.beat)

/-- The strand's freeze may end at this boundary: nothing that can hold it does, and the lead of a return is over (R21, R68). -/
def Strand.thaws (t : Strand) (cyc : Nat) : Bool := match t.freeze with
  | none => false
  | some f => !t.waitHolds cyc && !t.grantHolds cyc && !t.walkHolds cyc && !t.fillHolds cyc && (match f.resume with
    | some c => c ≤ cyc
    | none => true)

/-- ELASTIC_WAIT_RESUME: at its first boundary that is at least eight beats' cycles after what it waited for became
visible, the strand goes on at the beat at which it froze (R21, R69). -/
def execElasticWaitResume (sid : Nat) (s : State) : Host.Outcome State Fault Refusal :=
  match s.strand? sid with
  | none => .fault .noOccasion
  | some t =>
    if t.status == .run && t.thaws (s.stack t.stack).cyc then .next (s.modStrand sid fun t => { t with freeze := none })
    else .fault .noOccasion

/-- FETCH_LINE_FILL: lines that a lookup missed are present (R68, R92). -/
def execFetchLineFill (sid : Nat) (s : State) : Host.Outcome State Fault Refusal :=
  match s.strand? sid with
  | none => .fault .noOccasion
  | some t =>
    let cyc := (s.stack t.stack).cyc
    let due (f : Fill) : Bool := f.ended.isNone && f.ready ≤ cyc
    if !t.fills.any due then .fault .noOccasion
    else .next (s.modStrand sid fun t =>
      { t with fills := t.fills.map fun f => if due f then { f with ended := some (cyc, t.beat) } else f })

/-- TRANSLATION_WALK: a page walk for a timed access ends, and its translation is held (R69, R147). -/
def execTranslationWalk (sid : Nat) (s : State) : Host.Outcome State Fault Refusal :=
  match s.strand? sid with
  | none => .fault .noOccasion
  | some t =>
    let cyc := (s.stack t.stack).cyc
    match t.walks.find? fun w => w.ended.isNone && w.ready ≤ cyc with
    | none => .fault .noOccasion
    | some w =>
      let s := w.vas.foldl (fun s a => s.touch t w.phys a true) s
      .next (s.modStrand sid fun t => { t with walks := t.walks.map fun v => if v == w then { w with ended := some (cyc, t.beat) } else v })

/-! ## Declarations, regions and grants (R245 to R247, R276) -/

/-- DEADLINE_LAPSE: the count of beats remaining has reached 0 (R245). -/
def execDeadlineLapse (sid : Nat) (s : State) : Host.Outcome State Fault Refusal :=
  match s.strand? sid with
  | none => .fault .noOccasion
  | some t => match t.decl with
    | some d => if d.left == 0 then .next (s.modStrand sid fun t => { t with decl := none }) else .fault .noOccasion
    | none => .fault .noOccasion

/-- The start beats of the engine commands in progress on a core. -/
def Core.running (c : Core) : List Nat :=
  (match c.nest with
    | some n => [n.start]
    | none => []) ++ c.loads.map (·.start) ++ (match c.rstep with
    | some r => [r.start]
    | none => []) ++ c.copies.map (·.start)

/-- A fall of the region's level that is due: its beat has passed, and every engine command that started while the level was in force,
by that beat, has ended (R247). -/
def Strand.fallNow (t : Strand) : Option (Nat × Nat × Bool) := t.region.falls.find? fun f =>
  f.1 + 1 ≤ t.beat && t.cores.all fun c => c.running.all fun b => b < t.region.opened || f.1 < b

/-- A region's level may fall. -/
def Strand.fallDue (t : Strand) : Bool := t.fallNow.isSome

/-- REGION_LEVEL_FALL: the level falls to 0 after a RELP, or to the lower level of an ACQP (R246, R247). -/
def execRegionLevelFall (sid : Nat) (s : State) : Host.Outcome State Fault Refusal :=
  match s.strand? sid with
  | none => .fault .noOccasion
  | some t => match t.fallNow with
    | none => .fault .noOccasion
    | some (b, lvl, ends) => .next (s.modStrand sid fun t =>
        { t with region := { t.region with on := !ends, level := if ends then 0 else lvl, grant := if ends then 0 else lvl,
                                           falls := if ends then [] else t.region.falls.filter fun f => f != (b, lvl, ends) } })

/-- The level at which a strand counts outside a region (R276). -/
def Footprint.drawLevel (fp : Footprint) : Nat := if fp.me then 15 else if fp.re then 9 else if fp.te || fp.bte then 6 else 3

/-- A RELP has ended the region, whose level has still to fall: the beat of the RELP (R247). -/
def Region.ended (r : Region) : Option Nat := (r.falls.find? fun f => f.2.2).map (·.1)

/-- The level at which a strand counts (R276): the level in force, but no less than the footprint level while a command runs that
started after the RELP (R247). -/
def Strand.level (t : Strand) : Nat :=
  if !t.region.on then t.fp.drawLevel
  else match t.region.ended with
    | some b => if t.cores.any fun c => c.running.any (b < ·) then max t.region.level t.fp.drawLevel else t.region.level
    | none => t.region.level

/-- Sixteen times a strand's load at a level: level × cores ÷ stride (R276). -/
def Strand.load16 (t : Strand) (lvl : Nat) : Nat := lvl * t.fp.cores * 16 / t.stride

/-- A strand occupies slots of its stack. -/
def Strand.admittedOn (t : Strand) (k : Nat) : Bool := t.stack == k && t.status != .ended

/-- A context's quota withholds a level (R277). -/
def State.withheld (s : State) (t : Strand) (lvl : Nat) : Bool := lvl != 0 && (match s.ctx? t.ctx with
  | some c => c.exhausted
  | none => false)

/-- A request is granted whatever the budget: level 0, or a level the strand already has, unless the quota withholds it (R276, R277). -/
def State.freeGrant (s : State) (t : Strand) (lvl : Nat) : Bool :=
  (lvl == 0 || (t.region.on && lvl ≤ t.region.level)) && !s.withheld t lvl

/-- The budget of a stack (R273). -/
def Stack.budget (k : Stack) : Nat := fld k.pwrenv.toNat 40 12

/-- The waiting requests of a stack, by cycle of the request and then weave index: (strand, issue beat, level). -/
def State.waitingGrants (s : State) (k : Nat) : List (Nat × Nat × Nat) :=
  let all := (s.strands.filter fun t => t.admittedOn k).flatMap fun t =>
    (t.region.reqs.filter fun q => q.2.2.2.isNone).map fun q => ((q.2.2.1, t.wix), (t.sid, q.1, q.2.1))
  (sortBy (fun a b => decide (a.1.1 < b.1.1 || (a.1.1 == b.1.1 && a.1.2 ≤ b.1.2))) all).map (·.2)

/-- The request that the governor can grant now: one that needs no budget, else the first in order where it fits, every other strand
counted at its level in force (R276). DEDUCED (log 30). -/
def State.grantable (s : State) (k : Nat) : Option (Nat × Nat × Nat) :=
  let ws := s.waitingGrants k
  let strandOf (g : Nat × Nat × Nat) (f : Strand → Bool) : Bool := match s.strand? g.1 with
    | some t => f t
    | none => false
  match ws.find? fun g => strandOf g fun t => s.freeGrant t g.2.2 with
  | some g => some g
  | none => match ws with
    | [] => none
    | g :: _ =>
      let others := (s.strands.filter fun t => t.admittedOn k && t.sid != g.1).map fun t => t.load16 t.level
      if strandOf g (fun t => !s.withheld t g.2.2 && others.foldl (· + ·) (t.load16 g.2.2) ≤ 16 * (s.stack k).budget) then some g
      else none

/-- POWER_GRANT: the governor grants a level (R276). -/
def execPowerGrant (k : Nat) (s : State) : Host.Outcome State Fault Refusal :=
  match s.grantable k with
  | none => .fault .noOccasion
  | some (sid, b, lvl) => .next (s.modStrand sid fun t =>
      { t with region := { t.region with grant := max t.region.grant lvl, reqs := t.region.reqs.map fun q =>
          if q.1 == b && q.2.1 == lvl && q.2.2.2.isNone then (q.1, q.2.1, q.2.2.1, some (s.stack k).cyc) else q } })

end Sys2Proof.Machine
end

