-- ==== Sys2Proof/Machine/Fetch.lean ====
section
/-! DEFINITION. The fetch unit: the bundles that it looks up eight beats ahead on every path that a cluster may take, and the
filling of lines that a lookup misses (R68, R90 to R92, R286). -/

namespace Sys2Proof.Machine

/-! ## The paths a cluster may take (R89, R92, R111) -/

/-- What may follow a guard that has not been read: a guard on p0 is known, any other may go either way (R92). -/
def guardPaths {α : Type} (h : SHead) (taken passed : α) : List α :=
  if h.g == 0 then (if h.neg then [passed] else [taken]) else [taken, passed]

/-- The trip counts that a LOOP may take from its register, as far as eight beats reach: 0 stands for a skip (R92, R111). -/
def tripCounts : List Nat := List.range 7

/-- No address: where a path goes whose target is not known yet. -/
def nowhere : Nat := 2 ^ 64

/-- The sequences that may follow a bundle of `len` bytes whose first syllable is `i`, issuing at beat `x`. A target that is
read at its issue is not known before: only the delay bundles are (R90). -/
def Cluster.follow (c : Cluster) (x : Nat) (q : Seq) (len : Nat) (i : Instr) : List Seq :=
  let rel (ofs : BitVec 15) : Nat := (BitVec.ofNat 64 q.pc + ofs.signExtend 64 * 4).toNat
  let jump (h : SHead) (r : Reg) (exits : Bool) : List Seq :=
    let passed := q.transfer len none false
    guardPaths h (q.transfer len (some (if x < c.horizon then nowhere else (c.rsBack x r).toNat)) exits) passed
  let loop (h : SHead) (ctr stop : Nat) (ns : List Nat) : List Seq :=
    (guardPaths h (ns.map (q.looped len ctr stop)) [q.looped len ctr stop 0]).flatten
  match i with
  | .br h ofs => guardPaths h (q.transfer len (some (rel ofs)) true) (q.transfer len none false)
  | .call h ofs => guardPaths h (q.transfer len (some (rel ofs)) false) (q.transfer len none false)
  | .jmp h a => jump h a true
  | .ret h => jump h 31 false
  | .loop h k _ t => loop h k.toNat (q.pc + 4 * t.toNat) tripCounts
  | .loopl h k t w => loop h k.toNat (q.pc + 4 * t.toNat) [w.toNat]
  | .halt h => (guardPaths h [] [q.advance len]).flatten
  | _ => [q.advance len]

/-- A bundle that TRET.SKIP skips (R244): its length and Sync flag are those its words show, even where its fields are wrong. -/
def Cluster.skipLen (c : Cluster) (x pc : Nat) : Nat × Bool :=
  let ls := c.issueLines x
  let len := match fetchL0 ls pc with
    | .bundle b => 4 * b.len
    | _ => match framedLen (l0Words ls 8 pc) with
      | some n => 4 * n
      | none => Config.unknownLen pc
  (len, (flagsAt ls pc).2)

/-- WAITB, whose target is not known before it issues (R237). -/
def isWaitb : Instr → Bool
  | .waitb .. => true
  | .waitbUntil .. => true
  | _ => false

/-- The places on a path that may follow one that issues at beat `x`; none where its bundle cannot issue without a fault. A place is
a sequence, and whether it may be held back by a WAITB before it. `skip` says that a TRET.SKIP skips the bundle. -/
def Cluster.nexts (c : Cluster) (x : Nat) (skip : Bool) (p : Seq × Bool) : List (Seq × Bool) :=
  let q := p.1
  let held := if p.2 then [p] else []
  held ++ (if skip then [(q.advance (c.skipLen x q.pc).1, false)]
  else match fetchL0 (c.issueLines x) q.pc with
    | .bundle b =>
      if q.crosses (4 * b.len) then []
      else (match b.syls with
        | i :: _ => c.follow x q (4 * b.len) i
        | [] => [q.advance (4 * b.len)]).map fun q => (q, b.syls.any isWaitb)
    | _ => [])

/-! ## Lookups (R92) -/

/-- Bring into a cluster's L0 the lines that the bundle at an address lacks there, and tell whether there were any. `ls` gives the
lines that count as present. A line that cannot be fetched stays missing. -/
def State.lookUp (s : State) (r : CRef) (pc : Nat) (ls : Cluster → List Line) : Nat → Bool → State × Bool
  | 0, missed => (s, missed)
  | n + 1, missed => match s.strand? r.strand with
    | none => (s, missed)
    | some t => match fetchL0 (ls (t.clusterAt r.core r.cl)) pc with
      | .missing k => (match s.fetchInL0 r k with
        | some s' => s'.lookUp r pc ls n true
        | none => (s, missed))
      | _ => (s, missed)

/-- The lines that a cluster's L0 and its core's L1 hold in `new` and did not in `old`, as a fill lists them. -/
def Strand.filled (old new : Strand) (r : CRef) : List (Nat × Option Nat × Nat) :=
  let tags (a b : List Line) : List Nat := (b.filter fun l => l.bytes.isSome && (lineBytes a l.tag).isNone).map (·.tag)
  let l1 (t : Strand) : List Line := ((t.cores[r.core]?).map (·.l1)).getD []
  (tags (old.clusterAt r.core r.cl).l0 (new.clusterAt r.core r.cl).l0).map (fun n => (r.core, some r.cl, n)) ++
    (tags (l1 old) (l1 new)).map fun n => (r.core, none, n)

/-- Lines that a lookup of a beat missed begin to be filled: the strand freezes at that beat until they are present (R92).
DEDUCED (log 18): they hold what the lookup found in memory. -/
def State.beginFill (s : State) (sid beat : Nat) (lines : List (Nat × Option Nat × Nat)) : State :=
  let r := s.fresh
  r.2.modStrand sid fun t =>
    { t with fills := t.fills ++ [{ beat, ready := (r.2.stack t.stack).cyc + 1 + r.1, ended := none, lines }] }

/-- Walk a cluster's paths over `n` beats from beat `y` on. The bundles of beats from `from_` on are looked up; those of earlier
beats have been, but for those from beat `free` on, which follow a transfer that has read its target at its issue: these are
looked up now, and their missing lines cost no beat (R90, R286). `k` bundles of the path are skipped ones still. -/
def State.lookWalk (s : State) (r : CRef) (from_ : Nat) (free : Option Nat) (k : Nat) (qs : List (Seq × Bool)) (y : Nat) : Nat → State
  | 0 => s
  | n + 1 => match s.strand? r.strand with
    | none => s
    | some t =>
      if !(t.clusterAt r.core r.cl).issues y && (k == 0 || (t.clusterAt r.core r.cl).halted) then s.lookWalk r from_ free k qs (y + 1) n
      else
        let u := if from_ ≤ y then qs.foldl (fun u q => u.1.lookUp r q.1.pc Cluster.l0 2 u.2) (s, false)
          else if free.any (· ≤ y) then (qs.foldl (fun s q => (s.lookUp r q.1.pc (·.issueLines y) 2 false).1) s, false) else (s, false)
        let s := if u.2 then u.1.beginFill r.strand y (((u.1.strand? r.strand).map fun v => t.filled v r).getD []) else u.1
        let c := match s.strand? r.strand with
          | some t => t.clusterAt r.core r.cl
          | none => Cluster.zero
        s.lookWalk r from_ free (k - 1) ((qs.flatMap (c.nexts y (k != 0))).eraseDups) (y + 1) n

/-- Look ahead from a strand's present beat to the seventh after it; bundles of beats from `from_` on are looked up. -/
def State.lookAhead (s : State) (sid from_ : Nat) : State := match s.strand? sid with
  | none => s
  | some t => t.contexts.foldl (fun s r =>
      let c := t.clusterAt r.core r.cl
      let free := if t.beat ≤ c.horizon && c.seq.pos == 1 then some (t.beat + 2) else none
      s.lookWalk r from_ free c.skip [(c.seq, false)] t.beat 8) s

/-- At the end of a beat the bundles eight beats after it are looked up. The strand's beat is the next already (R92). -/
def State.lookNext (s : State) (sid : Nat) : State := match s.strand? sid with
  | none => s
  | some t => s.lookAhead sid (t.beat + 7)

/-- The weaver commits an admission, or a handler returns: the bundles of the first eight beats are looked up together (R92).
DEDUCED (log 18). -/
def State.lookStart (s : State) (sid : Nat) : State := match s.strand? sid with
  | none => s
  | some t => (s.modStrand sid fun t => { t.mapCl (fun c => { c with gone := [] }) with fills := [] }).lookAhead sid t.beat

/-- A partition gives up a line that is being filled; a pinned one keeps its way. -/
def unfill (n : Nat) (ls : List Line) : List Line :=
  (ls.map fun l => if l.tag == n then { l with bytes := none } else l).filter fun l => l.pinned || l.bytes.isSome

/-- A strand gives up the lines whose filling has not ended (R287). -/
def Strand.dropFills (t : Strand) : Strand := ((t.fills.filter fun f => f.ended.isNone).flatMap (·.lines)).foldl (fun t l => match l.2.1 with
  | some k => t.modCl l.1 k fun c => { c with l0 := unfill l.2.2 c.l0 }
  | none => t.modCore l.1 fun c => { c with l1 := unfill l.2.2 c.l1 }) t

/-- The page walks of a strand are made afresh: those whose translations are held by now are over (R69, R287). -/
def State.rewalk (s : State) (t : Strand) : List PageWalk → State
  | [] => s
  | w :: ws =>
    if w.vas.all fun a => (s.tlbHit t.stack w.phys t.ctx a.toNat).isSome then s.rewalk t ws
    else
      let r := s.fresh
      (r.2.modStrand t.sid fun u => { u with walks := u.walks ++ [{ w with ready := (s.stack t.stack).cyc + r.1, ended := none }] }).rewalk t ws

/-- A strand that goes on after a hold fetches and translates afresh: the lines that were on their way are given up, the bundles of its
next eight beats are looked up, and the walks that are still needed begin again (R92, R287). -/
def State.afresh (s : State) (sid : Nat) : State := match s.strand? sid with
  | none => s
  | some t => ((s.modStrand sid fun t => { t.dropFills with walks := [] }).lookStart sid).rewalk t t.walks

end Sys2Proof.Machine
end

