-- ==== Sys2Proof/Machine/Weaver.lean ====
section
/-! DEFINITION. The weaver: lattices, placement, admission, compaction, molts, commit windows, flips, scrubs and retirement
(R22, R50 to R67, R294, R300, R320). -/

namespace Sys2Proof.Machine

/-! ## Lattices (R50) -/

/-- Two lattices, (stride, phase), collide. -/
def collides (a b : Nat × Nat) : Bool := a.2 % min a.1 b.1 == b.2 % min a.1 b.1

/-- The lattice a strand has in the shadow copy of the weave table (R56). -/
def Strand.lattice (t : Strand) : Nat × Nat := match t.flip with
  | some f => (f.stride, f.phase)
  | none => (t.stride, t.phase)

/-- Two footprints share a cluster or an engine of a core (R51). -/
def Footprint.shares (a b : Footprint) : Bool :=
  a.mask &&& b.mask != 0 || (a.me && b.me) || (a.te && b.te) || (a.re && b.re) || (a.bte && b.bte)

/-! ## What is in the pool (R61, R292, R321) -/

/-- A stack, with the device, is ACTIVE and up. -/
def State.stackLive (s : State) (k : Nat) : Bool :=
  (s.stack k).up && s.powerOf 3 0 == .active && s.powerOf 2 k == .active

/-- A core and the clusters of a mask are ACTIVE. -/
def State.coreLive (s : State) (k c : Nat) (mask : BitVec 4) : Bool :=
  s.stackLive k && s.powerOf 1 (64 * k + c) == .active &&
  (List.range 4).all fun i => !bitAt mask i || s.powerOf 0 (4 * (64 * k + c) + i) == .active

/-- A fence has taken a core from the pool (R292). -/
def State.coreFenced (s : State) (k c : Nat) : Bool := s.fenced.any fun u => match u with
  | .core n => n == 64 * k + c
  | .bank n _ => n == 64 * k + c
  | .accBank n _ => n == 64 * k + c
  | .plane n _ => n == 64 * k + c
  | _ => false

/-! ## Units (R59) -/

/-- The lowest `n` of 32 units that are not used. -/
def takeLow (used : List Nat) (n : Nat) : List Nat := ((List.range 32).filter fun i => !used.contains i).take n

/-- Banks, one at a time from groups 0, 1, 2, 3, 0, … in turn, each the lowest free one of its group. -/
def takeBanks (used : List Nat) : Nat → Nat → Nat → List Nat
  | 0, _, _ => []
  | fuel + 1, n, g =>
    if n == 0 then []
    else match ((List.range 8).map (8 * g + ·)).find? fun b => !used.contains b with
      | some b => b :: takeBanks (b :: used) fuel (n - 1) ((g + 1) % 4)
      | none => takeBanks used fuel n ((g + 1) % 4)

/-- The strands that hold something on a core of a stack, with their share of it. -/
def onCore (w : List Strand) (k c : Nat) : List (Strand × Core) :=
  (w.filter fun t => t.stack == k).flatMap fun t => (t.cores.filter fun co => co.phys == c).map fun co => (t, co)

/-- The units a footprint takes on a core, if it fits there beside `w` (R59, R61). The strand slot is the lowest free one:
DESIGN CHOICE (log 34). -/
def unitsFor (w : List Strand) (k c : Nat) (fp : Footprint) : Option Units :=
  let on := (onCore w k c).map (·.2.units)
  let slot := (List.range 4).find? fun i => !on.any fun u => u.slot == i
  let planes := takeLow (on.flatMap (·.planes)) fp.planes
  let acc := takeLow (on.flatMap (·.acc)) fp.acc
  let shapes := takeLow (on.flatMap (·.shapes)) fp.slots
  let banks := takeBanks (on.flatMap (·.banks)) (4 * fp.banks + 4) fp.banks 0
  match slot with
  | none => none
  | some slot =>
    if planes.length == fp.planes && acc.length == fp.acc && shapes.length == fp.slots && banks.length == fp.banks &&
        fp.groups ≤ ((banks.map (· / 8)).eraseDups).length then some { slot, banks, planes, acc, shapes }
    else none

/-- A strand keeps the lattice it runs on beyond the cycle at which a later window may flip: what its own window committed waits for a
scrub (R54, R56). -/
def Strand.leavesLate (t : Strand) : Bool := t.status != .placed && t.flip.any fun f => f.commit + 16 < f.cyc

/-- A strand holds a slot of a lattice, or a decision of the lead stack reserves one for it, or it leaves it late (R50, R54, R58). -/
def Strand.holds (t : Strand) (l : Nat × Nat) : Bool :=
  collides t.lattice l || t.decided.any (collides · l) || (t.leavesLate && collides (t.stride, t.phase) l)

/-- A lattice collides with none of another strand's on a core. -/
def latticeFree (w : List Strand) (k c : Nat) (fp : Footprint) (l : Nat × Nat) : Bool :=
  (onCore w k c).all fun t => !(t.1.fp.shares fp && t.1.holds l)

/-- The grains that a lattice may take on a stack: the lowest `n` on which it collides with nothing (R61). -/
def grainsFor (w : List Strand) (k n : Nat) (l : Nat × Nat) : Option (List Nat) :=
  let held := (w.filter fun t => t.stack == k && t.holds l).flatMap (·.grains)
  let gs := ((List.range 240).filter fun g => !held.contains g).take n
  if gs.length == n then some gs else none

/-- Network lane `n` of a stack is free on a lattice (R51, R53). -/
def laneFree (w : List Strand) (k n : Nat) (l : Nat × Nat) : Bool :=
  w.all fun t => !(t.stack == k && t.lane == some n && t.holds l)

/-- The lane that a lattice may take on a stack: the lowest free one (R53, R61). -/
def laneFor (w : List Strand) (k : Nat) (l : Nat × Nat) : Option Nat := (List.range 16).find? fun n => laneFree w k n l

/-! ## Placement (R61) -/

/-- What a placement needs of a strand. -/
structure Ask where
  fp     : Footprint
  stride : Nat
  pin    : Option Nat
  deriving DecidableEq, Repr

/-- A strand's place: stack, phase, its cores with their units, its grains, and its lane if it names the block-transfer
engine. -/
structure Placed where
  stack  : Nat
  phase  : Nat
  cores  : List (Nat × Units)
  grains : List Nat
  lane   : Option Nat
  deriving DecidableEq, Repr

/-- The phases a request may take. -/
def Ask.phases (a : Ask) : List Nat := match a.pin with
  | some p => [p]
  | none => List.range a.stride

/-- Place one strand on one stack beside `w`: the phases in turn, on the lowest cores that fit (R61). -/
def State.placeStrand (s : State) (test : Bool) (w : List Strand) (a : Ask) (k : Nat) : Option Placed :=
  if 16 ≤ (w.filter fun t => t.stack == k).length then none
  else a.phases.findSome? fun p =>
    let cs := ((List.range 64).filterMap fun c =>
      if s.coreFenced k c || !(test || s.coreLive k c a.fp.mask) || !latticeFree w k c a.fp (a.stride, p) then none
      else (unitsFor w k c a.fp).map fun u => (c, u)).take a.fp.cores
    let lane := if a.fp.bte then laneFor w k (a.stride, p) else none
    if cs.length != a.fp.cores || (a.fp.bte && lane.isNone) then none
    else (grainsFor w k (a.fp.share / 64) (a.stride, p)).map fun g => { stack := k, phase := p, cores := cs, grains := g, lane }

/-- The units of the hardware that a place holds (R302). -/
def Placed.hwUnits (p : Placed) : List HwUnit := p.cores.flatMap fun c =>
  let n := 64 * p.stack + c.1
  .core n :: c.2.banks.map (.bank n) ++ c.2.planes.map (.plane n) ++ c.2.acc.map (.accBank n)

/-- A strand that stands for a place in a trial copy of the weave state. -/
def Placed.stub (p : Placed) (a : Ask) : Strand :=
  { sid := 0, ctx := 0, task := 0, logidx := 0, fp := a.fp, det := false, tagck := false, serial := false, stack := p.stack,
    wix := 0, admitted := 0, stride := a.stride, phase := p.phase, reqStride := a.stride, reqPin := a.pin, lane := p.lane,
    grains := p.grains, decided := none, flip := none, nextCyc := 0, beat := 0, seed := 0, ctrbase := 0, mbx := Vector.replicate 8 0,
    mbxNew := [], digest := 0, image := 0, entries := Vector.replicate 4 0, param := 0, dataVa := 0, status := .placed,
    freeze := none, walks := [], fills := [], icinvs := [], waitSaw := [], raised := [], taking := [], holdAt := none, holdReq := false, linkHeld := false, stopCyc := 0,
    region := { on := false, level := 0, falls := [], opened := 0, grant := 0, reqs := [] }, decl := none,
    molt := none, moltResult := none, cores := p.cores.map fun c => Core.zero c.1 c.2, startTime := 0, resumed := false }

/-- Place the `n` strands of a task in logical order, each on the first stack of the partition where it fits (R61). -/
def State.placeTask (s : State) (test : Bool) (stks : List Nat) (a : Ask) (w : List Strand) : Nat → Option (List Placed)
  | 0 => some []
  | n + 1 => match stks.findSome? fun k => s.placeStrand test w a k with
    | none => none
    | some p => match s.placeTask test stks a (w ++ [p.stub a]) n with
      | none => none
      | some ps => some (p :: ps)

/-- The stacks of a partition code (R28), the lead stack first. -/
def partStacks (p : Nat) : List Nat := if p < 4 then [p] else if p == 4 then [0, 1] else if p == 5 then [2, 3] else [0, 1, 2, 3]

/-- The request of a launch (R25, R300). -/
def launchAsk (fp : Footprint) (serial : Bool) : Ask :=
  if serial then { fp, stride := 1, pin := some 0 } else { fp, stride := 2 ^ fp.strideCode, pin := fp.pin }

/-- A task cannot be placed on an empty partition of its context's size, fenced units left out (R63). -/
def State.noFootprint (s : State) (part : Nat) (fp : Footprint) (serial : Bool) (count : Nat) : Bool :=
  (s.placeTask true (partStacks part) (launchAsk fp serial) [] count).isNone

/-! ## Molts (R64 to R67) -/

/-- A strand may take a lattice on its own cores, units, grains and lane, its old one counted as free (R65, R66). -/
def latticeFits (w : List Strand) (t : Strand) (l : Nat × Nat) : Bool :=
  let w := w.filter fun u => u.sid != t.sid
  t.cores.all (fun c => latticeFree w t.stack c.phys t.fp l) &&
  (match t.lane with
    | some n => laneFree w t.stack n l
    | none => true) &&
  w.all fun u => !(u.stack == t.stack && u.holds l && u.grains.any t.grains.contains)

/-- The weaver may move a strand: its phase is free and it is not serialised (R64). One that has ended since the last window of its
stack is moved in the lead's trial like the others, for that stack is seen as its last window left it (R58). -/
def Strand.movable (t : Strand) : Bool := t.reqPin.isNone && !t.serial

/-- The flip cycle of a commit at cycle `c`, of a change that waits for scrubs up to a cycle (R56). -/
def flipCycle (c scrub : Nat) : Nat := (max (c + 16) scrub + 15) / 16 * 16

/-- Give a strand a new lattice in a window that commits at a cycle. One that is placed begins no earlier than its own flip (R56). The
lattice it runs on needs no flip unless `always`. DESIGN CHOICE (log 34): a change that is pending is replaced. -/
def Strand.setFlip (t : Strand) (c : Nat) (l : Nat × Nat) (always : Bool := false) : Strand :=
  let flip (cyc : Nat) : Option Flip := some { commit := c, cyc, stride := l.1, phase := l.2 }
  match t.status, t.flip with
  | .placed, some g => { t with flip := flip (max (flipCycle c 0) g.cyc) }
  | _, _ => if (t.stride, t.phase) == l && !always then { t with flip := none } else { t with flip := flip (flipCycle c 0) }

/-- Give a strand of the device a new lattice in a window. -/
def State.setFlip (s : State) (sid c : Nat) (l : Nat × Nat) : State := s.modStrand sid fun t => t.setFlip c l

/-- What one window of a stack commits flips on one cycle: the latest that any of its changes waits for (R56, R58). -/
def State.flipTogether (s : State) (k c : Nat) : State :=
  let mine (t : Strand) : Option Flip := if t.stack == k then t.flip.filter fun f => f.commit == c else none
  let f := (s.strands.filterMap mine).foldl (fun m f => max m f.cyc) 0
  { s with strands := s.strands.map fun t => match mine t with
      | some g => { t with flip := some { g with cyc := f }, nextCyc := if t.status == .placed then f + g.phase else t.nextCyc }
      | none => t }

/-- The strands of a stack, ordered by a number. -/
def sortStrands (f : Strand → Nat) (ts : List Strand) : List Strand := sortBy (fun a b => decide (f a ≤ f b)) ts

/-- Compact one stack in a trial (R64): the movable strands leave it, and come back at their requested strides. A strand that
finds no phase spoils the trial. -/
def compactStack (w : List Strand) (k : Nat) : Option (List Strand) :=
  let mv := sortStrands (fun t => t.reqStride) (sortStrands (fun t => t.admitted) (w.filter fun t => t.stack == k && t.movable))
  let fixed := w.filter fun t => !(t.stack == k && t.movable)
  mv.foldl (fun acc t => match acc with
    | none => none
    | some w => match (List.range t.reqStride).find? fun p => latticeFits w t (t.reqStride, p) with
      | none => none
      | some p => some (w ++ [{ t with flip := some { commit := 0, cyc := 0, stride := t.reqStride, phase := p }, decided := none }])) (some fixed)

/-- Compact the stacks of a partition in turn until a launch fits (R64): its places, and the trial with the new lattices.
DESIGN CHOICE (log 34): a stack on which a re-inserted strand finds no phase stays as it is, and the next is tried. -/
def State.compactFor (s : State) (stks : List Nat) (a : Ask) (count : Nat) (w : List Strand) : List Nat → Option (List Placed × List Strand)
  | [] => none
  | k :: ks => match compactStack w k with
    | none => s.compactFor stks a count w ks
    | some w' => match s.placeTask false stks a w' count with
      | some ps => some (ps, w')
      | none => s.compactFor stks a count w' ks

/-! ## Scrubs (R60) -/

/-- The engines that a footprint names: bit 0 matrix, 1 table, 2 rule, 3 block transfer. -/
def Footprint.engines (fp : Footprint) : BitVec 4 := BitVec.ofNat 4 (bnat fp.me + 2 * bnat fp.te + 4 * bnat fp.re + 8 * bnat fp.bte)

/-- The scrubs of a core's units, by kind, from a cycle on: of the strand slot the operand-file contexts of its clusters, and the
configuration planes and format table of its engines (R59, R60). -/
def scrubsOf (ctx : Nat) (co : Core) (fp : Footprint) (cyc : Nat) : List Scrub :=
  let none0 : Units := { slot := 4, banks := [], planes := [], acc := [], shapes := [] }
  let one (u : Units) (m g : BitVec 4) (n : Nat) : Scrub := { ctx, core := co.phys, units := u, mask := m, engines := g, stop := cyc + n }
  [one { none0 with slot := co.units.slot } fp.mask fp.engines 64] ++
  (if co.units.banks.isEmpty then [] else [one { none0 with banks := co.units.banks } 0 0 2048]) ++
  (if co.units.planes.isEmpty then [] else [one { none0 with planes := co.units.planes } 0 0 512]) ++
  (if co.units.acc.isEmpty then [] else [one { none0 with acc := co.units.acc } 0 0 256]) ++
  (if co.units.shapes.isEmpty then [] else [one { none0 with shapes := co.units.shapes } 0 0 16])

/-- A scrub is of units that a footprint takes at a place: of a strand slot only what belongs to its own clusters and engines (R59, R60).
DEDUCED (log 35). -/
def Scrub.meets (x : Scrub) (fp : Footprint) (c : Nat) (u : Units) : Bool :=
  x.core == c && ((x.units.slot == u.slot && (x.mask &&& fp.mask != 0 || x.engines &&& fp.engines != 0)) || x.units.banks.any u.banks.contains || x.units.planes.any u.planes.contains ||
    x.units.acc.any u.acc.contains || x.units.shapes.any u.shapes.contains)

/-- The end of the last scrub that a place waits for (R56, R60). -/
def State.scrubEnd (s : State) (fp : Footprint) (p : Placed) : Nat :=
  ((s.stack p.stack).scrubs.filter fun x => p.cores.any fun c => x.meets fp c.1 c.2).foldl (fun m x => max m x.stop) 0

/-- Take a strand off the device and scrub its space from a cycle on (R58, R60). -/
def State.releaseStrand (s : State) (t : Strand) (cyc : Nat) : State :=
  let s := { s with strands := s.strands.filter fun u => u.sid != t.sid }
  s.modStack t.stack fun k => { k with scrubs := k.scrubs ++ t.cores.flatMap fun c => scrubsOf t.ctx c t.fp cyc }

/-- SCRUB_COMPLETE: units that were released have been scrubbed to zero (R60). -/
def execScrubComplete (k : Nat) (s : State) : Host.Outcome State Fault Refusal :=
  if (s.stack k).scrubs.any fun x => x.stop ≤ (s.stack k).cyc then
    .next (s.modStack k fun t => { t with scrubs := t.scrubs.filter fun x => !(x.stop ≤ t.cyc) })
  else .fault .noOccasion

/-! ## Admission (R22, R27, R57, R61, R126) -/

/-- The 128 bits of a counter block as two scalars (R131). -/
def seedState (seed : W64) (logidx : Nat) : W32 := kcg seed (BitVec.ofNat 32 logidx) 0 0 1 0 ||| 1

/-- A cluster context as admission leaves it (R27). -/
def startCluster (l : Launch) (h : Header) (logidx logcore k : Nat) : Cluster :=
  if bitAt h.fp.mask k then
    { Cluster.zero with
      inMask := true,
      s := ((Cluster.zero.s.set 1 l.param).set 2 (l.image + BitVec.ofNat 64 h.data)).set 3 (BitVec.ofNat 64 logcore),
      seq := Seq.at (l.image.toNat + h.text + h.entries.getD k 0), sr := seedState l.seed logidx }
  else Cluster.zero

/-- A core of a strand as admission leaves it (R27). -/
def startCore (l : Launch) (h : Header) (logidx logcore : Nat) (p : Nat × Units) : Core :=
  { Core.zero p.1 p.2 with cl := Vector.ofFn fun k => startCluster l h logidx logcore k.val }

/-- The lowest free weave index of a stack (R55). -/
def State.freeWix (s : State) (k : Nat) : Nat :=
  ((List.range 16).find? fun i => !s.strands.any fun t => t.stack == k && t.wix == i).getD 15

/-- Admit one strand of a launch at its place, to begin with a flip (R27, R55, R57). DESIGN CHOICE (log 63): its
identifier is the next. -/
def State.admitStrand (s : State) (l : Launch) (h : Header) (task logidx : Nat) (f : Flip) (p : Placed) : State :=
  let a := launchAsk h.fp l.serial
  let t : Strand := { p.stub a with
    sid := s.nextSid, ctx := l.ctx, task, logidx, det := l.det, tagck := l.det || l.tagck, serial := l.serial,
    wix := s.freeWix p.stack, admitted := s.nextNum, flip := some f, nextCyc := f.cyc + p.phase, seed := l.seed, ctrbase := l.ctrbase, mbx := l.mbx, image := l.image,
    entries := Vector.ofFn fun i => BitVec.ofNat 64 (h.entries.getD i.val 0), param := l.param,
    dataVa := l.image + BitVec.ofNat 64 h.data,
    cores := ((List.range p.cores.length).zip p.cores).map fun c => startCore l h logidx c.1 c.2 }
  { s with strands := s.strands ++ [t], nextSid := s.nextSid + 1, nextNum := s.nextNum + 1 }

/-- The commit cycle of the window that a decision on another stack enters (R58). -/
def Stack.nextCommit (k : Stack) : Nat := (k.cyc / 16 + 1) * 16

/-- The flip with which a place begins whose decision commits at `c` on the lead stack `k` (R56, R58). -/
def State.placeFlip (s : State) (k c : Nat) (a : Ask) (p : Placed) : Flip :=
  let commit := if p.stack == k then c else (s.stack p.stack).nextCommit
  { commit, cyc := flipCycle commit (s.scrubEnd a.fp p), stride := a.stride, phase := p.phase }

/-- A record's fields that come from a launch (R47). -/
def Launch.record (l : Launch) (num : Nat) : Record :=
  let q (r : QRef) : Nat := match r with
    | .host n => n
    | .device _ => 64
  let f : Nat × Nat × W32 × W32 := match l.from_ with
    | .packet r seq ck => (0xFFFF, q r, seq, low32 ck)
    | .node _ n _ r seq => (n, q r, seq, 0)
    | .redo _ => (0xFFFF, 0, 0, 0)
  { num, held := false, doneAt := 0, kind := 1, mode := bnat l.det + 2 * bnat (l.det || l.tagck) + 4 * bnat l.serial, node := f.1, queue := f.2.1,
    seq := f.2.2.1, seed := l.seed, ctrbase := l.ctrbase, cookie := f.2.2.2, phases := 0, onStks := 0, strands := l.count,
    start := 0, stop := 0, detail := 0, status := 0, digest := 0 }

/-- The union of single bits. -/
def bitSet (ns : List Nat) : Nat := (ns.eraseDups).foldl (fun m n => m + 2 ^ n) 0

/-- The context table can be read and written: its stack answers, or the link is up where it lies in host memory (R308, R311). -/
def State.tableOk (s : State) : Bool := !s.silent s.ctxtab.toNat && !s.hostAbsent s.ctxtab.toNat

/-- A slot of a context's ring is free when `more` others are taken up: Produced plus reserved minus Consumed is below 2^size
(R49). DESIGN CHOICE (log 66): while Consumed cannot be read no slot is known to be free. -/
def State.freeBeside (s : State) (c : Context) (more : Nat) : Bool :=
  let consumed := s.busNat (s.ctxtab.toNat + 64 * c.num + 0x28) 8
  s.tableOk && more + c.reserved + (c.produced.toNat + 2 ^ 64 - consumed) % 2 ^ 64 < 2 ^ c.ringLog

/-- A slot of a context's ring is free for a record that waits for one (R49). -/
def State.slotFree (s : State) (c : Context) : Bool := s.freeBeside c 0

/-- A context's ring has a slot to reserve for something new, beside the refusals, cancellations and teardowns that reserve
theirs first (R49). -/
def State.ringFree (s : State) (c : Context) : Bool := s.freeBeside c (c.records.filter fun r => !r.held).length

/-- Admit a task at its places (R16, R58): its strands, whose first bundles are looked up (R92), its record's fields, and its slot in the
ring (R49). -/
def State.admitTask (s : State) (k c : Nat) (w : Waiting) (ps : List Placed) : State :=
  let l := w.launch
  let r := { l.record w.num with held := true, phases := bitSet (ps.map (·.phase)), onStks := bitSet (ps.map (·.stack)) }
  let fs := ps.map fun p => s.placeFlip k c (launchAsk w.hdr.fp l.serial) p
  let first := s.nextSid
  let s := ((List.range ps.length).zip (ps.zip fs)).foldl (fun s x => s.admitStrand l w.hdr w.num x.1 x.2.2 x.2.1) s
  let task : Task := { num := w.num, launch := l, hdr := w.hdr, record := r, strands := (List.range ps.length).map (first + ·), digests := [],
                       faults := [], expected := none, runs := [], used := ps.flatMap Placed.hwUnits, counted := [], redoErrors := false, lead := (k, c) }
  let redo := match l.from_ with
    | .redo _ => true
    | _ => false
  let s := { s with tasks := s.tasks ++ [task], waiting := s.waiting.filter fun x => x.num != w.num }
  let s := task.strands.foldl State.lookStart s
  if redo then s else s.modCtx l.ctx fun c => { c with reserved := c.reserved + 1 }

/-- Place a restored strand again (R289): it keeps its number and everything it holds, on new units. Its task has then run on
that stack too (R47). -/
def State.admitImage (s : State) (k c : Nat) (w : Waiting) (t : Strand) (p : Placed) : State :=
  let f := s.placeFlip k c { fp := t.fp, stride := t.reqStride, pin := t.reqPin } p
  let t' : Strand := { t with
    stack := p.stack, wix := s.freeWix p.stack, admitted := s.nextNum, stride := t.reqStride, phase := p.phase, grains := p.grains, lane := p.lane, decided := none,
    flip := some f, nextCyc := f.cyc + p.phase, status := .placed, resumed := true,
    cores := (t.cores.zip p.cores).map (fun x => { x.1 with phys := x.2.1, units := x.2.2 }),
    walks := t.walks.map fun w => { w with phys := (((t.cores.zip p.cores).find? fun x => x.1.phys == w.phys).map (·.2.1)).getD w.phys } }
  let ran (k : Task) : Task := if k.num == t.task then { k with used := k.used ++ p.hwUnits, record := { k.record with onStks := k.record.onStks ||| 2 ^ p.stack } } else k
  { s with strands := s.strands ++ [t'], waiting := s.waiting.filter (fun x => x.num != w.num), nextNum := s.nextNum + 1,
           tasks := s.tasks.map ran }.afresh t'.sid

/-- The order of R22: class, then acceptance. -/
def sortWaiting (ws : List Waiting) : List Waiting :=
  sortBy (fun a b => decide (a.cls < b.cls || (a.cls == b.cls && (a.accepted < b.accepted || (a.accepted == b.accepted && a.num ≤ b.num))))) ws

/-- The partition of a launch's context. -/
def State.partOf (s : State) (ctx : Nat) : Nat := match s.ctx? ctx with
  | some c => c.part
  | none => 7

/-- The launches that wait for one partition, in order. -/
def State.waitingOn (s : State) (part : Nat) : List Waiting := sortWaiting (s.waiting.filter fun w => s.partOf w.launch.ctx == part)

/-- The strands of a context that are admitted, with those a restore will bring back. -/
def State.ctxStrands (s : State) (ctx : Nat) : Nat := (s.strands.filter fun t => t.ctx == ctx && t.status != .ended).length

/-- What a waiting launch asks for. -/
def Waiting.ask (w : Waiting) : Ask := match w.image with
  | some t => { fp := t.fp, stride := t.reqStride, pin := t.reqPin }
  | none => launchAsk w.hdr.fp w.launch.serial

/-- The stacks a waiting launch may take, all of its context's partition (R18, R289): a restored strand with a DRAM share only the one
it was saved from. -/
def State.stacksFor (s : State) (w : Waiting) : List Nat :=
  let part := partStacks (s.partOf w.launch.ctx)
  match w.image with
  | some t => if t.fp.share == 0 then part else part.filter (· == t.stack)
  | none => part

/-- A strand belongs to what waits: it is of the task of the strand to be restored, or is that strand, where it belongs to no task of the
device. -/
def Waiting.owns (w : Waiting) (t : Strand) : Bool := match w.image with
  | some u => if u.task == 0 then u.sid == t.sid else u.task == t.task
  | none => false

/-- A launch re-executes a task, whose record has its slot already (R302). -/
def Launch.isRedo (l : Launch) : Bool := match l.from_ with
  | .redo _ => true
  | _ => false

/-- Something serialised other than what waits is open on stacks of a partition: a task, its strands admitted or saved, or a saved strand
that belongs to no task of the device (R300). -/
def State.serialOpen (s : State) (part : Nat) (w : Waiting) : Bool :=
  let meets (ctx : Nat) : Bool := (partStacks (s.partOf ctx)).any (partStacks part).contains
  (s.tasks.any fun k => !(w.image.any fun u => u.task == k.num) && k.launch.serial && !k.strands.isEmpty && meets k.launch.ctx) ||
  s.saved.any fun t => t.task == 0 && t.serial && !w.owns t && meets t.ctx

/-- Whether anything but space forbids a launch (R36, R45, R49, R300, R308). -/
def State.barred (s : State) (part : Nat) (w : Waiting) : Bool := match s.ctx? w.launch.ctx with
  | none => true
  | some c =>
    let others := s.strands.filter fun t => (partStacks part).contains t.stack && !w.owns t
    c.torn || s.linkHolding || (w.image.isNone && !w.launch.isRedo && !s.ringFree c) ||
    c.limit < s.ctxStrands c.num + (if w.image.isSome then 1 else w.launch.count) ||
    others.any (·.serial) || s.serialOpen part w || (w.launch.serial && !others.isEmpty)

/-- Try one launch: its places, and the trial whose lattices are to be committed. Only the first in order compacts (R64). -/
def State.tryLaunch (s : State) (part : Nat) (first : Bool) (w : Waiting) : Option (List Placed × List Strand) :=
  if s.barred part w then none
  else
    let n := if w.image.isSome then 1 else w.launch.count
    let st := s.stacksFor w
    match s.placeTask false st w.ask s.strands n with
    | some ps => some (ps, s.strands)
    | none => if first then s.compactFor st w.ask n s.strands (partStacks part) else none

/-- Take over the lattices of a trial that differ, or of strands that it lets leave theirs sooner, as molts (R64): on the lead stack they commit in this window, on another stack
they are decided, and commit in the window that is next there (R58). -/
def State.commitTrial (s : State) (k c : Nat) (w : List Strand) : State :=
  w.foldl (fun s t => match s.strand? t.sid with
    | none => s
    | some u =>
      if u.lattice == t.lattice && u.decided == t.decided && u.leavesLate == t.leavesLate then s
      else s.modStrand t.sid fun u =>
        if t.stack == k then { u.setFlip c t.lattice with decided := none } else { u with decided := some t.lattice }) s

/-- The window of a stack takes in what the lead stack has decided for its strands, after its own departures, molts and MOLT
requests and before its admissions (R58). DESIGN CHOICE (log 34): it stands over a MOLT of that window, even one that named a phase. -/
def State.takeDecided (s : State) (k c : Nat) : State :=
  { s with strands := s.strands.map fun t => if t.stack != k then t else match t.decided with
      | some l => { t.setFlip c l with decided := none }
      | none => t }

/-- A launch ends without a task: its record, with its status, waits to be written (R22, R47, R49, R62, R63). -/
def State.refuseLaunch (s : State) (l : Launch) (num status : Nat) : State :=
  match l.from_ with
  | .redo _ => s
  | _ => s.modCtx l.ctx fun c => { c with records := c.records ++ [{ l.record num with status }] }

/-- Add activations to a replay: those that arrive once it is ending are discarded, and more than 256 pending ones end it early
(R43). -/
def Replay.push (r : Replay) (xs : List Activation) : Replay :=
  if r.ending || r.status != 0 then r
  else
    let pend := r.pend ++ xs.filter fun a => a.node != 0xFFFF
    if 256 < pend.length then { r with status := 11, pend := [] } else { r with pend }

/-- Tell a replay that a task it launched has ended with a status (R41, R43). DESIGN CHOICE (log 64): a launch of the replay that
still waits when the replay ends early runs, and the replay's end waits for it. -/
def State.nodeEnded (s : State) (l : Launch) (status : Nat) : State := match l.from_ with
  | .node rep n next _ _ => { s with replays := s.replays.map fun r =>
      if r.num != rep then r
      else if status == 1 then
        { r with running := r.running - 1 }.push (next.map fun e => { node := e, seed := l.seed, pred := n })
      else { r with running := r.running - 1, status := if r.status == 0 then 2 else r.status } }
  | _ => s

/-- A launch takes the reservation of its partition (R22). -/
def State.reserveFor (s : State) (num : Nat) : State :=
  { s with waiting := s.waiting.map fun x => if x.num == num then { x with reserve := true } else x }

/-- Consider the launches of a partition in order (R22, R61, R62, R300). `first` says that none has been offered yet, `closed` that
some launch holds the reservation: then only that one is offered, wherever it stands, and no-wait launches fail. A serialised
launch that is first takes the reservation. DESIGN CHOICE (log 34): compaction (R64) is tried for the launch that holds the reservation,
and for the one that is first once those before it have ended NO-WAIT in the window. -/
def State.admitFrom (s : State) (k c part : Nat) (first closed : Bool) : List Waiting → State
  | [] => s
  | w :: ws =>
    match if closed && !w.reserve then none else s.tryLaunch part first w with
    | some r =>
      let s := s.commitTrial k c r.2
      let s := match w.image with
        | some t => (match r.1 with
          | p :: _ => s.admitImage k c w t p
          | [] => s)
        | none => s.admitTask k c w r.1
      s.admitFrom k c part first (closed && !w.reserve) ws
    | none =>
      if w.launch.noWait && w.image.isNone then
        let s := { s with waiting := s.waiting.filter fun x => x.num != w.num }
        ((s.refuseLaunch w.launch w.num 4).nodeEnded w.launch 4).admitFrom k c part first closed ws
      else if closed then s.admitFrom k c part (first && !w.reserve) true ws
      else if first && w.launch.serial then (s.reserveFor w.num).admitFrom k c part false true ws
      else s.admitFrom k c part false false ws

/-! ## The commit window (R58) -/

/-- Departures: the strands of a stack that have ended leave it, in weave index order. DEDUCED (log 35). -/
def State.departures (s : State) (k c : Nat) : State :=
  (sortStrands (·.wix) (s.strands.filter fun t => t.stack == k && t.status == .ended)).foldl (fun s t => s.releaseStrand t c) s

/-- A strand stands in the weave as the window that commits at `c` finds it: a decision of the lead stack enters later in it (R58). -/
def Strand.entered (t : Strand) (c : Nat) : Bool := t.flip.all fun f => f.commit < c

/-- Speed-up on departure (R65). -/
def State.speedUps (s : State) (k c : Nat) : State :=
  (sortStrands (·.admitted) (s.strands.filter fun t => t.stack == k && t.movable && t.entered c)).foldl (fun s t =>
    let l := t.lattice
    let l' := (l.1 / 2, l.2 % (l.1 / 2))
    if 1 < l.1 && latticeFits s.strands t l' then s.setFlip t.sid c l' else s) s

/-- The lattice that a MOLT request comes to, if it fits (R66). -/
def moltLattice (w : List Strand) (t : Strand) (m : MoltReq) : Option (Nat × Nat) :=
  let ps := match m.pin with
    | some p => [p]
    | none => List.range m.stride
  (ps.find? fun p => latticeFits w t (m.stride, p)).map fun p => (m.stride, p)

/-- The MOLT requests of some strands in weave index order (R66). One equal to the present stride, phase and pin needs no flip; one
that names another pin flips all the same (R248). -/
def State.moltRequests (s : State) (k c : Nat) (ts : List Strand) : State :=
  (sortStrands (·.wix) (ts.filter fun t => t.stack == k && t.molt.isSome && t.moltResult.isNone && t.status != .ended)).foldl (fun s t =>
    match t.molt with
    | none => s
    | some m =>
      let answer (v : Nat) (s : State) : State := s.modStrand t.sid fun t => { t with moltResult := some (m, v) }
      if t.serial then answer 2 s
      else match moltLattice s.strands t m with
        | none => answer 1 s
        | some l =>
          answer 0 (s.modStrand t.sid fun t => { t.setFlip c l (m.pin != t.reqPin) with reqStride := m.stride, reqPin := m.pin })) s

/-- The partitions whose lead stack is `k`. -/
def partsLedBy (k : Nat) : List Nat := if k == 0 then [0, 4, 6] else if k == 2 then [2, 5] else [k]

/-- COMMIT_WINDOW: the 16-cycle window that ends now commits: departures, speed-ups, MOLT requests, admissions; they flip
together (R56, R58). A strand that the lead stack's decision places here in this window asks for no molt in it. -/
def execCommitWindow (k : Nat) (s : State) : Host.Outcome State Fault Refusal :=
  let t := s.stack k
  if 4 ≤ k || t.cyc % 16 != 0 || t.cyc / 16 ≤ t.window then .fault .noOccasion
  else
    let c := t.cyc
    let gone := !t.departed.isEmpty
    let s := s.modStack k fun t => { t with window := c / 16, departed := [] }
    let s := s.departures k c
    let stood := s.strands.filter (·.entered c)
    let s := if gone then s.speedUps k c else s
    let s := (s.moltRequests k c stood).takeDecided k c
    let go (s : State) (p : Nat) : State :=
      let ws := s.waitingOn p
      s.admitFrom k c p true (ws.any (·.reserve)) ws
    .next (((partsLedBy k).foldl go s).flipTogether k c)

/-- WEAVE_FLIP: the shadow copy of a stack's weave table becomes active (R56, R57). A strand that was placed begins, or goes
on where it was saved, and reads the conditions of its waits afresh (R287). -/
def execWeaveFlip (k : Nat) (s : State) : Host.Outcome State Fault Refusal :=
  let cyc := (s.stack k).cyc
  let due (t : Strand) : Bool := t.stack == k && (match t.flip with
    | some f => f.cyc ≤ cyc
    | none => false)
  if !s.strands.any due then .fault .noOccasion
  else
    let go (t : Strand) (f : Flip) : Strand :=
      let t := if t.status == .placed then { t.anew (f.cyc + f.phase) with status := .run } else t
      { t with stride := f.stride, phase := f.phase, flip := none, nextCyc := f.cyc + f.phase, resumed := false }
    let one (t : Strand) : Strand := if due t then (match t.flip with
      | some f => go t f
      | none => t) else t
    let back := s.strands.filter fun t => due t && t.status == .placed
    .next (back.foldl (fun s t => s.lookWaitsAfresh t.sid) { s with strands := s.strands.map one })

/-! ## Retirement (R294, R295) -/

/-- Nothing of a core is still to land or to start. What a drain has landed counts as landed (R282). -/
def Core.quiet (c : Core) : Bool :=
  c.agenda.all (·.drained) && c.loads.isEmpty && c.rstep.isNone && c.nest.isNone && !c.copies.any (fun k => k.next * k.w < k.len) &&
  [c.me, c.te, c.re, c.bte].all fun g => g.q.isEmpty && g.swaps.isEmpty

/-- The strand retires at this boundary: the result of a MOLT has landed too (R248, R294). -/
def Strand.retires (t : Strand) : Bool :=
  t.status == .run && t.raised.isEmpty && t.cores.all Core.quiet && t.contexts.all fun r =>
    let c := t.clusterAt r.core r.cl
    c.halted && c.lq.entries.isEmpty && c.sq.entries.isEmpty && c.arrive.isEmpty && t.molt.isNone

/-- The fault that a cluster which halted in its handler leaves (R239, R295): the lowest core and cluster. -/
def Strand.haltFault (t : Strand) : Option (Nat × Nat × Nat × Nat) :=
  (t.contexts.findSome? fun r => ((t.clusterAt r.core r.cl).inner).map fun b =>
    (1, t.logidx, 4 * r.core + r.cl, b.cause.toNat % 2 ^ 16))

/-- STRAND_RETIRE: the strand ends with its digest final, and departs (R294, R295). -/
def execStrandRetire (sid : Nat) (s : State) : Host.Outcome State Fault Refusal :=
  match s.strand? sid with
  | none => .fault .noOccasion
  | some t => if t.retires then .next (s.endStrand sid t.haltFault) else .fault .noOccasion

/-! ## Ageing and reservation (R22) -/

/-- LAUNCH_AGEING: a launch that has waited 1,000,000 ns more rises one class. -/
def execLaunchAgeing (n : Nat) (s : State) : Host.Outcome State Fault Refusal :=
  if s.waiting.any fun w => w.num == n && 0 < w.cls && w.raisedAt + 1000000 ≤ s.wtime then
    let up (w : Waiting) : Waiting := if w.num == n then { w with cls := w.cls - 1, raisedAt := w.raisedAt + 1000000 } else w
    .next { s with waiting := s.waiting.map up }
  else .fault .noOccasion

/-- The first launch of a partition where none holds the reservation has waited 4,000,000 ns, or is serialised (R22, R300). -/
def State.reservable (s : State) (part : Nat) : Option Waiting :=
  let ws := s.waitingOn part
  match ws with
  | w :: _ => if !ws.any (·.reserve) && (w.launch.serial || w.accepted + 4000000 ≤ s.wtime) then some w else none
  | [] => none

/-- LAUNCH_RESERVATION: from now on the partition admits no other launch until this one is admitted or cancelled. -/
def execLaunchReservation (part : Nat) (s : State) : Host.Outcome State Fault Refusal :=
  match s.reservable part with
  | none => .fault .noOccasion
  | some w => .next (s.reserveFor w.num)

end Sys2Proof.Machine
end

