-- ==== Sys2Proof/Machine/Records.lean ====
section
/-! DEFINITION. Host events, launch records, the ends of tasks, digest checks, and reading an image's header (R24, R25, R47 to
R49, R295, R298, R301, R302, R304). -/

namespace Sys2Proof.Machine

/-! ## Host events (R304) -/

/-- Raise an event of a context; a first bit signals its MSI-X vector. -/
def State.raiseCtx (s : State) (ctx bit : Nat) : State :=
  let old := vget s.ctxevt ctx 0
  let new := old ||| BitVec.ofNat 6 (2 ^ bit)
  { s with ctxevt := vset s.ctxevt ctx new, msix := if old == new then s.msix else s.msix ++ [ctx + 1] }

/-- Raise an event of the device. -/
def State.raiseDev (s : State) (bit : Nat) : State :=
  let new := s.devevt ||| BitVec.ofNat 5 (2 ^ bit)
  { s with devevt := new, msix := if s.devevt == new then s.msix else s.msix ++ [0] }

/-- CTXEVT bit QUEUE. -/
def evQueue : Nat := 0
/-- CTXEVT bit QUOTA. -/
def evQuota : Nat := 1
/-- CTXEVT bit MISMATCH. -/
def evMismatch : Nat := 2
/-- CTXEVT bit HELD. -/
def evHeld : Nat := 3
/-- CTXEVT bit TORN-DOWN. -/
def evTorn : Nat := 4
/-- CTXEVT bit FENCED. -/
def evFenced : Nat := 5

/-! ## What the host sends (R307) -/

/-- A function-level reset is under way (R307). -/
def State.wholeReset (s : State) : Bool := s.resetting.any (·.whole)

/-- A write of the host arrives: during a function-level reset it is not accepted (R307). -/
def accepted (s : State) (f : State → Host.Outcome State Fault Refusal) : Host.Outcome State Fault Refusal :=
  if s.wholeReset then .next s else f s

/-! ## Halting a queue (R32) -/

/-- Change a host queue. -/
def State.modQueue (s : State) (n : Nat) (f : HostQueue → HostQueue) : State :=
  { s with queues := vset s.queues n (f (vget s.queues n HostQueue.reset)) }

/-- A host queue. -/
def State.queue (s : State) (n : Nat) : HostQueue := vget s.queues n HostQueue.reset

/-- Halt a host queue with a cause, naming a packet; `accepted` says that the packet had been accepted. The context's queue
event is raised (R304). DESIGN CHOICE (log 64): a WAITWORD that holds the queue is over. -/
def State.haltQueue (s : State) (n cause : Nat) (at_ : W32) (accepted : Bool) : State :=
  (s.modQueue n fun q => { q with halted := true, cause, where_ := at_, accepted, wait := none, read := none }).raiseCtx (s.queue n).ctx evQueue

/-- A halt that RESUME and SKIP leave alone, and no later failure takes the place of: BAD-CONFIG, TORN-DOWN, LINK-LOST (R32). -/
def haltStays (cause : Nat) : Bool := cause == 7 || cause == 8 || cause == 9

/-- Halt a host queue for a failure that its packets' effects or its records meet: a halt that only a new enabling ends stands (R32,
R45, R309). DESIGN CHOICE (log 78): over any other halt the new failure's Cause, Where and way of SKIP stand. -/
def State.failQueue (s : State) (n cause : Nat) (at_ : W32) (accepted : Bool) : State :=
  if (s.queue n).halted && haltStays (s.queue n).cause then s else s.haltQueue n cause at_ accepted

/-- Halt a host queue with a cause that names no packet: Where is a free value (log 12). -/
def State.haltUnnamed (s : State) (n cause : Nat) : State :=
  { s.haltQueue n cause (Config.unnamed s.freeCtr) false with freeCtr := s.freeCtr + 1 }

/-! ## Records (R47, R49) -/

/-- The 64 bytes of a record. -/
def Record.bytes (r : Record) : List Byte :=
  [r.kind * 2 ^ 60 + r.mode * 2 ^ 56 + r.node % 2 ^ 16 * 2 ^ 40 + r.queue % 128 * 2 ^ 32 + r.seq.toNat, r.seed.toNat, r.ctrbase.toNat,
    r.cookie.toNat * 2 ^ 32 + r.phases % 2 ^ 16 * 2 ^ 16 + r.onStks % 16 * 2 ^ 8 + r.strands % 128, r.start.toNat, r.stop.toNat,
    r.detail % 2 ^ 16 * 2 ^ 16 + r.status % 2 ^ 16, r.digest.toNat].flatMap (bytesOf 8)

/-- A record of a kind with nothing else in it (R47). DESIGN CHOICE (log 78): its Node is zero. -/
def Record.plain (num kind : Nat) (q : QRef) (seq : W32) (status : Nat) : Record :=
  { num, held := false, doneAt := 0, kind, mode := 0, node := 0, queue := (match q with
      | .host n => n
      | .device _ => 64), seq, seed := 0, ctrbase := 0, cookie := 0, phases := 0, onStks := 0, strands := 0, start := 0,
    stop := 0, detail := 0, status, digest := 0 }

/-- A record waits to be written. -/
def State.addRecord (s : State) (ctx : Nat) (r : Record) : State := s.modCtx ctx fun c => { c with records := c.records ++ [r] }

/-- A teardown's record reserves its slot, once one is free beside those of the launches that it cancelled (R49). -/
def State.holdTeardown (s : State) (n : Nat) : State := match s.ctx? n with
  | none => s
  | some c => match c.teardown with
    | none => s
    | some r => if r.held || !s.ringFree c then s
      else s.modCtx n fun c => { c with teardown := some { r with held := true }, reserved := c.reserved + 1 }

/-- The next record of a context that may be written: one whose slot is reserved, or any where a slot is free (R49). -/
def State.nextRecord (s : State) (c : Context) : Option Record := c.records.find? fun r => r.held || s.slotFree c

/-- The virtual address of the next ring slot. -/
def Context.ringSlot (c : Context) : W64 := c.ring + BitVec.ofNat 64 (64 * (c.produced.toNat % 2 ^ c.ringLog))

/-- The host queues of a context. DESIGN CHOICE (log 78): one that is not enabled does not halt with them (R45). -/
def State.queuesOf (s : State) (ctx : Nat) : List Nat := (List.range 64).filter fun n => (s.queue n).enable && (s.queue n).ctx == ctx

/-- A record of the context may be written now (R49). One whose ring, or a page table of it, lies in host memory is kept from a loss of
the link until RESUME (R308, R309). DESIGN CHOICE (log 66): it waits while the context table cannot be written. -/
def State.recordDue (s : State) (c : Context) : Bool :=
  s.tableOk && !c.blocked && (s.nextRecord c).isSome && s.dispLost c.num c.ringSlot != some .host && (match s.dispXlat c.num c.ringSlot true with
    | some b => !(isHost b && s.lostAt.isSome)
    | none => true)

/-- RING_RECORD_WRITE: the record goes into its slot and Produced advances; then a replay's done word is stored. Where the
slot does not translate, nothing is written and the context's queues halt with BAD-ADDRESS (R43, R45, R49). DESIGN CHOICE (log 78): a done
word that cannot be stored any more is dropped. -/
def execRingRecordWrite (ctx : Nat) (s : State) : Host.Outcome State Fault Refusal :=
  match s.ctx? ctx with
  | none => .fault .noOccasion
  | some c =>
    if !s.recordDue c then .fault .noOccasion
    else match s.nextRecord c with
      | none => .fault .noOccasion
      | some r => match s.dispAt ctx c.ringSlot true with
        | none =>
          let s := s.modCtx ctx fun c => { c with blocked := true }
          .next (((s.queuesOf ctx).foldl (fun s n => s.failQueue n 10 (s.queue n).head false) s).raiseCtx ctx evQueue)
        | some b =>
          let s := s.busWrite (cellsAt b r.bytes)
          let s := s.modCtx ctx fun c =>
            { c with records := c.records.filter (fun x => x != r), produced := c.produced + 1,
                     reserved := if r.held then c.reserved - 1 else c.reserved }
          let s := s.busPut (s.ctxtab.toNat + 64 * ctx + 0x20) 8 (c.produced + 1).toNat
          let s := if r.doneAt == 0 then s else (s.dispStore ctx r.doneAt (BitVec.ofNat 64 r.status)).getD s
          .next (if r.kind == 3 then s.raiseCtx ctx evTorn else s)

/-! ## The image (R24, R25) -/

/-- The footprint in a record's four words, if it keeps the conditions of R25. -/
def footprintOf (w0 w1 w2 w3 : Nat) : Option Footprint :=
  let fp : Footprint :=
    { strideCode := fld w0 0 3, pin := if fld w0 3 1 == 1 then some (fld w0 4 4) else none, cores := fld w0 8 7,
      mask := BitVec.ofNat 4 (fld w0 16 4), me := fld w0 20 1 == 1, te := fld w0 21 1 == 1, re := fld w0 22 1 == 1,
      bte := fld w0 23 1 == 1, groups := fld w0 24 3, planes := fld w1 0 6, banks := fld w1 8 6, acc := fld w1 16 6,
      slots := fld w1 24 6, share := w2 }
  let ok := fld w0 27 5 == 0 && fld w0 15 1 == 0 && fp.strideCode ≤ 4 && 1 ≤ fp.cores && fp.cores ≤ 64 &&
    (if fld w0 3 1 == 1 then fld w0 4 4 < 2 ^ fp.strideCode else fld w0 4 4 == 0) && fp.groups ≤ 4 &&
    fld w1 6 2 == 0 && fld w1 14 2 == 0 && fld w1 22 2 == 0 && fld w1 30 2 == 0 && fp.planes ≤ 32 && fp.banks ≤ 32 &&
    fp.acc ≤ 32 && fp.slots ≤ 32 && w2 % 64 == 0 && w2 ≤ 16384 && w3 == 0 && fp.mask != 0 && fp.groups ≤ fp.banks &&
    (fp.banks == 0 || 1 ≤ fp.groups) && (!fp.me || 2 ≤ fp.groups)
  if ok then some fp else none

/-- Every page of a range translates in a context. -/
def State.mapped (s : State) (ctx : Nat) (a : W64) (n : Nat) : Bool :=
  n == 0 || (List.range ((a.toNat % 4096 + n + 4095) / 4096)).all fun i =>
    (s.dispXlat ctx (a + BitVec.ofNat 64 (if i == 0 then 0 else 4096 * i - a.toNat % 4096)) false).isSome

/-- A section lies inside the image and past its header. -/
def sectionOk (size ofs len : Nat) : Bool := ofs + len ≤ size && (len == 0 || 64 ≤ ofs)

/-- The header in 64 bytes, unless it is one that the list of R24 refuses for its fields. DEDUCED (log 15). -/
def headerOf (bs : List Byte) : Option (Header × Nat) :=
  let w (o n : Nat) : Nat := natOfBytes ((bs.drop o).take n)
  match footprintOf (w 0x10 4) (w 0x14 4) (w 0x18 4) (w 0x1C 4) with
  | none => none
  | some fp =>
    let h : Header := { fp, text := w 0x20 4, textLen := w 0x24 4, data := w 0x28 4, dataLen := w 0x2C 4,
                        entries := (List.range 4).map fun k => w (0x30 + 4 * k) 4 }
    let ok := w 0 4 == 0x54444D55 && w 4 2 == 1 && w 6 2 == 0 && sectionOk (w 8 8) h.text h.textLen && sectionOk (w 8 8) h.data h.dataLen && (List.range 4).all fun k =>
        let e := h.entries.getD k 0
        if bitAt fp.mask k then e % 4 == 0 && e < h.textLen else e == 0
    if ok then some (h, w 8 8) else none

/-- Read and check the image and the parameter block of a launch (R24): none is BAD-IMAGE. -/
def State.readHeader (s : State) (ctx : Nat) (image param : W64) : Option Header :=
  if image.toNat % 64 != 0 || param.toNat % 8 != 0 || !s.mapped ctx param 8 then none
  else match s.dispBytes ctx image 64 with
    | none => none
    | some bs => match headerOf bs with
      | none => none
      | some (h, _) =>
        if s.mapped ctx (image + BitVec.ofNat 64 h.text) h.textLen && s.mapped ctx (image + BitVec.ofNat 64 h.data) h.dataLen then
          some h
        else none

/-! ## Launching (R22, R24, R36, R38, R62, R63) -/

/-- The top of a context's seed stack, or 0. -/
def Context.topSeed (c : Context) : W64 := c.seeds.headD 0

/-- A launch enters the waiting set, or is refused with BAD-IMAGE or FOOTPRINT. DESIGN CHOICE (log 64): a launch that no packet of
its own brings is ordered by the time at which it enters. -/
def State.enterLaunch (s : State) (l : Launch) : State :=
  let num := s.nextNum
  let s := { s with nextNum := s.nextNum + 1 }
  let refuse (status : Nat) : State := (s.refuseLaunch l num status).nodeEnded l status
  match s.readHeader l.ctx l.image l.param with
  | none => refuse 7
  | some h =>
    if s.noFootprint (s.partOf l.ctx) h.fp l.serial l.count then refuse 3
    else
      let floor := match s.ctx? l.ctx with
        | some c => c.floor
        | none => 0
      { s with waiting := s.waiting ++ [{ num, launch := l, cls := max l.cls floor, accepted := s.wtime, raisedAt := s.wtime, hdr := h,
                                          image := none, reserve := false }] }

/-! ## The end of a task (R295, R298, R301, R302) -/

/-- Order two faults of a task: the one the record names comes first (R295). -/
def faultLe (a b : Nat × Nat × Nat × Nat) : Bool :=
  a.1 < b.1 || (a.1 == b.1 && (a.2.1 < b.2.1 || (a.2.1 == b.2.1 && a.2.2.1 ≤ b.2.2.1)))

/-- The fault a task's record names: of strands that ended at the third level, which a task does at one boundary, the lowest, else the
lowest that a halt in a handler left (R295). -/
def Task.fault (t : Task) : Option (Nat × Nat × Nat × Nat) := (sortBy faultLe t.faults).head?

/-- The task digest: the strands' digests in logical order (R298). -/
def Task.digest (t : Task) : W64 := taskDigest ((sortBy (fun a b => decide (a.1 ≤ b.1)) t.digests).map (·.2))

/-- A finished task's record is complete: it waits to be written, and a replay goes on (R41, R42, R295). -/
def State.closeTask (s : State) (t : Task) (r : Record) : State :=
  ({ s with tasks := s.tasks.filter fun k => k.num != t.num }.addRecord t.launch.ctx r).nodeEnded t.launch r.status

/-- A task's record meets the armed reference of its context (R301). -/
def State.refMatches (s : State) (t : Task) (r : Record) : Bool :=
  let w := (vget s.drefc t.launch.ctx 0).toNat
  fld w 63 1 == 1 && t.launch.det && r.status == 1 && fld w 32 16 == r.node && fld w 0 32 == r.cookie.toNat

/-- A task whose strands have all ended (R295): its status, then the digest check. A re-execution hands its digest to the
task it repeats (R302). -/
def State.endTask (s : State) (t : Task) : State :=
  let status := if t.record.status != 0 then t.record.status else if t.faults.isEmpty then 1 else 2
  let detail := match t.fault with
    | some f => if status == 2 then f.2.2.2 else 0
    | none => 0
  let r := { t.record with status, detail, digest := t.digest }
  match t.launch.from_ with
  | .redo n => { s with tasks := (s.tasks.filter fun k => k.num != t.num).map fun k =>
      if k.num == n then { k with runs := k.runs ++ [t.digest], redoErrors := k.redoErrors || t.errors,
                                  record := { k.record with stop := t.record.stop } } else k }
  | _ =>
    if s.refMatches t r then
      let c := t.launch.ctx
      let s := { s with drefc := vset s.drefc c (vget s.drefc c 0 &&& 0x7FFFFFFFFFFFFFFF) }
      let want := vget s.drefv c 0
      if want == t.digest then s.closeTask t r
      else { s.raiseCtx c evMismatch with tasks := s.tasks.map fun k => if k.num == t.num then { k with record := r, expected := some want } else k }
    else s.closeTask t r

/-- The next task to end: every strand of it has ended and it is not being checked. What a reset ends is recorded once the reset
completes (R306). -/
def State.taskEnding (s : State) : Option Task :=
  s.tasks.find? fun t => t.strands.isEmpty && t.expected.isNone && !(s.resetting.isSome && t.record.status == 6)

/-- The outcome of a digest check (R302): status and Detail. -/
def classify (want r1 r2 : W64) (firstErr anyErr : Bool) : Nat × Nat :=
  if r1 != r2 then (13, 1)
  else if r1 == want then (if firstErr then (15, 2) else (14, 3))
  else if anyErr then (15, 4) else (13, 5)

/-- A re-execution of a task waits or runs. -/
def State.redoing (s : State) (n : Nat) : Bool :=
  let is (l : Launch) : Bool := match l.from_ with
    | .redo m => m == n
    | _ => false
  s.waiting.any (fun w => is w.launch) || s.tasks.any fun t => is t.launch

/-- DIGEST_REEXECUTION: a mismatching task runs again, serialised, twice; then the mismatch is classified (R302). One that a partition
cannot hold serialised is refused with FOOTPRINT (R63). DEDUCED (log 36). -/
def execDigestReexecution (n : Nat) (s : State) : Host.Outcome State Fault Refusal :=
  match s.tasks.find? fun t => t.num == n && t.expected.isSome && !s.redoing n with
  | none => .fault .noOccasion
  | some t => match t.runs with
    | r1 :: r2 :: _ =>
      let c := classify (t.expected.getD 0) r1 r2 t.errors (t.errors || t.redoErrors)
      .next (s.closeTask t { t.record with status := c.1, detail := c.2 })
    | _ =>
      let l := { t.launch with from_ := .redo n, serial := true, noWait := false }
      if s.noFootprint (s.partOf l.ctx) t.hdr.fp true l.count then .next (s.closeTask t { t.record with status := 3, detail := 0 })
      else
        let w : Waiting := { num := s.nextNum, launch := l, cls := l.cls, accepted := s.wtime, raisedAt := s.wtime, hdr := t.hdr,
                             image := none, reserve := false }
        .next { s with waiting := s.waiting ++ [w], nextNum := s.nextNum + 1 }

end Sys2Proof.Machine
end

