-- ==== Sys2Proof/Machine/Queues.lean ====
section
/-! DEFINITION. The dispatcher's queues and packets: reading, matching, validation and acceptance, and the effect of each packet
type (R30 to R38, R44 to R46). One meaning per packet and per queue event. -/

namespace Sys2Proof.Machine

/-! ## Where a queue stands (R31, R32, R44) -/

/-- The context a queue belongs to. -/
def State.qctx (s : State) : QRef → Nat
  | .host n => (s.queue n).ctx
  | .device c => c

/-- The sequence of the next packet. -/
def State.qhead (s : State) : QRef → W32
  | .host n => (s.queue n).head
  | .device c => match s.ctx? c with
    | some k => k.dqHead
    | none => 0

/-- A host queue is served: enabled, not halted, of an active context that is not torn down. DESIGN CHOICE (log 78): one whose context
is not active rests, and goes on unchecked when the context is active again (R30). -/
def State.served (s : State) (n : Nat) : Bool :=
  let q := s.queue n
  n < 64 && q.enable && !q.halted && (match s.ctx? q.ctx with
    | some c => !c.torn
    | none => false)

/-- The queue can accept a packet now: it holds one, and nothing holds the queue (R32, R35, R44, R49). -/
def State.canAccept (s : State) (q : QRef) : Bool := match q with
  | .host n => s.served n && (s.queue n).wait.isNone && (s.queue n).head != (s.queue n).tail
  | .device c => match s.ctx? c with
    | some k => !k.torn && k.dqWait.isNone && k.dqDiscards.isEmpty && k.dqHead != k.dqTail
    | none => false

/-- Advance a queue past a packet of `n` slots (R32). -/
def State.pass (s : State) (q : QRef) (n : Nat) : State := match q with
  | .host k => s.modQueue k fun h => { h with head := h.head + BitVec.ofNat 32 n, read := none }
  | .device c => s.modCtx c fun k => { k with dqHead := k.dqHead + BitVec.ofNat 32 n }

/-- Discard a packet of a device queue with a status: its record waits for a slot, and only then does the queue pass the `n`
slots of the packet (R44, R49). DEDUCED (log 17). -/
def State.discard (s : State) (c : Nat) (seq : W32) (status n : Nat) : State :=
  s.modCtx c fun k => { k with dqDiscards := k.dqDiscards ++ [(Record.plain s.nextNum 4 (.device c) seq status, n)] }

/-- A packet fails before its acceptance: a host queue halts at it; a device queue passes it with a record (R32, R44). `n` is
its slots, `cause` and `status` the two codes. -/
def State.failBefore (s : State) (q : QRef) (n cause status : Nat) : State := match q with
  | .host k => s.haltQueue k cause (s.queue k).head false
  | .device c => s.discard c (s.qhead q) status n

/-- A packet fails after its acceptance (R32, R34, R35). A queue that a TEARDOWN or the loss of the link has halted stays so. -/
def State.failAfter (s : State) (q : QRef) (seq : W32) (cause status : Nat) : State := match q with
  | .host k => s.failQueue k cause seq true
  | .device c => s.discard c seq status 0

/-- Accept the packet at a queue's head, of `n` slots, and let its effect begin. -/
def onPacket (q : QRef) (n : Nat) (s : State) (f : State → State) : Host.Outcome State Fault Refusal :=
  if s.canAccept q then .next (f (s.pass q n)) else .fault .noOccasion

/-- An address a packet names is aligned and translates (R34). DESIGN CHOICE (log 64): a page that lacks Write translates no address to be
stored to. -/
def State.addrOk (s : State) (ctx : Nat) (a : W64) (w : Bool) : Bool := a.toNat % 8 == 0 && (s.dispXlat ctx a w).isSome

/-! ## Packets (R33 to R38) -/

/-- NOP: accepted, with no effect (R33). -/
def execNopPacket (q : QRef) (s : State) : Host.Outcome State Fault Refusal := onPacket q 1 s id

/-- LAUNCH: the task enters the waiting set, with the top of the seed stack as its seed (R22, R33, R35, R38). -/
def execLaunch (q : QRef) (p : LaunchPkt) (s : State) : Host.Outcome State Fault Refusal :=
  onPacket q 2 s fun s =>
    let ctx := s.qctx q
    let seed := match s.ctx? ctx with
      | some c => c.topSeed
      | none => 0
    s.enterLaunch { ctx, from_ := .packet q p.seq p.cookie, image := p.image, param := p.param, ctrbase := p.ctrbase, count := p.count,
                    det := p.det, tagck := p.tagck, serial := p.serial, noWait := p.noWait, cls := p.cls, mbx := p.mbx, seed }

/-- The patch table of a GRAPH packet (R40), if it translates. -/
def State.readPatches (s : State) (ctx : Nat) (a : W64) (n : Nat) : Option (List (Nat × W64)) :=
  (List.range n).mapM fun i => match s.dispWord ctx (a + BitVec.ofNat 64 (16 * i)) with
    | none => none
    | some o => (s.dispWord ctx (a + BitVec.ofNat 64 (16 * i + 8))).map fun v => (o.toNat, v)

/-- GRAPH: the patch table is copied and a replay begins to wait for its turn; its end record's slot is reserved (R40, R41,
R49). DESIGN CHOICE (log 64): with a patch count of 0 the patch table's address is not looked at. -/
def execGraph (q : QRef) (p : GraphPkt) (s : State) : Host.Outcome State Fault Refusal :=
  match s.ctx? (s.qctx q) with
  | none => .fault .noOccasion
  | some c =>
    if !s.ringFree c then .fault .noOccasion
    else onPacket q 1 s fun s =>
      let bad := !s.addrOk c.num p.base false || (p.patchCount != 0 && p.patchAt.toNat % 8 != 0) ||
        (p.done != 0 && !s.addrOk c.num p.done true)
      match (if bad then none else s.readPatches c.num p.patchAt p.patchCount) with
      | none => s.failAfter q p.seq 10 12
      | some ps =>
        let r : Replay := { num := s.nextNum, ctx := c.num, queue := q, pkt := p, patches := ps, seed := c.topSeed, started := false,
                            pend := [{ node := p.entry, seed := c.topSeed, pred := 0xFFFF }], loops := [], joins := [], running := 0,
                            ending := false, status := 0 }
        { s with replays := s.replays ++ [r], nextNum := s.nextNum + 1 }.modCtx c.num fun c => { c with reserved := c.reserved + 1 }

/-- Run a packet that works on the seed stack: SEED-OVERFLOW or SEED-UNDERFLOW before its acceptance (R37). -/
def onSeeds (q : QRef) (s : State) (f : List W64 → Except Bool (List W64)) : Host.Outcome State Fault Refusal :=
  match s.ctx? (s.qctx q) with
  | none => .fault .noOccasion
  | some c =>
    if !s.canAccept q then .fault .noOccasion
    else match f c.seeds with
      | .error full => .next (if full then s.failBefore q 1 5 16 else s.failBefore q 1 6 17)
      | .ok xs => .next ((s.pass q 1).modCtx c.num fun c => { c with seeds := xs })

/-- A child seed (R37). -/
def childSeed (p : W64) (i : W32) : W64 := (kcg p i 0 0 0 1) ++ (kcg p i 0 0 0 0)

/-- SEEDPUSH (R37). -/
def execSeedpush (q : QRef) (v : W64) (s : State) : Host.Outcome State Fault Refusal :=
  onSeeds q s fun xs => if 16 ≤ xs.length then .error true else .ok (v :: xs)

/-- SEEDPOP (R37). -/
def execSeedpop (q : QRef) (s : State) : Host.Outcome State Fault Refusal :=
  onSeeds q s fun xs => match xs with
    | [] => .error false
    | _ :: rest => .ok rest

/-- SEEDFORK (R37): underflow where the stack is empty, overflow where it is full. -/
def execSeedfork (q : QRef) (i : W32) (s : State) : Host.Outcome State Fault Refusal :=
  onSeeds q s fun xs => match xs with
    | [] => .error false
    | t :: _ => if 16 ≤ xs.length then .error true else .ok (childSeed t i :: xs)

/-- Set what a queue waits for. -/
def State.setWait (s : State) (q : QRef) (w : Option (WaitPkt × Nat × Nat)) : State := match q with
  | .host n => s.modQueue n fun h => { h with wait := w }
  | .device c => s.modCtx c fun k => { k with dqWait := w }

/-- What a queue waits for. -/
def State.waitOf (s : State) : QRef → Option (WaitPkt × Nat × Nat)
  | .host n => (s.queue n).wait
  | .device c => match s.ctx? c with
    | some k => k.dqWait
    | none => none

/-- WAITWORD: the queue waits from now on (R35). -/
def execWaitword (q : QRef) (p : WaitPkt) (s : State) : Host.Outcome State Fault Refusal :=
  onPacket q 1 s fun s =>
    if s.addrOk (s.qctx q) p.addr false then s.setWait q (some (p, s.wtime, s.wtime)) else s.failAfter q p.seq 10 12

/-- WAITWORD_POLL: the word is read; the wait ends where its condition holds, and is read again within 1,000 ns otherwise
(R35). -/
def execWaitwordPoll (q : QRef) (s : State) : Host.Outcome State Fault Refusal :=
  match s.waitOf q with
  | none => .fault .noOccasion
  | some (p, t0, next) =>
    if s.wtime < next then .fault .noOccasion
    else match s.dispWord (s.qctx q) p.addr with
      | none => .next ((s.setWait q none).failAfter q p.seq 10 12)
      | some w =>
        if flagCond p.cond.toNat (w &&& p.mask) p.value then .next (s.setWait q none)
        else .next (({ s with freeCtr := s.freeCtr + 1 }).setWait q
          (some (p, t0, s.wtime + 1 + Config.hostDelay s.freeCtr % 1000)))

/-- WAIT_TIMEOUT: the timeout has passed (R35). -/
def execWaitTimeout (q : QRef) (s : State) : Host.Outcome State Fault Refusal :=
  match s.waitOf q with
  | none => .fault .noOccasion
  | some (p, t0, _) =>
    if p.timeout == 0 || s.wtime < t0 + p.timeout.toNat then .fault .noOccasion
    else .next ((s.setWait q none).failAfter q p.seq 4 18)

/-- SETWORD: the value is stored at device scope, at once or after the earlier launches of the queue (R35). One whose target does not
answer fails as an address that does not translate (log 66). DESIGN CHOICE (log 64): with after-prior too the address is looked at when the
packet is accepted, and once more at the store. -/
def execSetword (q : QRef) (p : SetPkt) (s : State) : Host.Outcome State Fault Refusal :=
  onPacket q 1 s fun s =>
    if !s.addrOk (s.qctx q) p.addr true then s.failAfter q p.seq 10 12
    else if p.after then
      { s with after := s.after ++ [{ num := s.nextNum, ctx := s.qctx q, queue := q, pkt := p }], nextNum := s.nextNum + 1 }
    else (s.dispStore (s.qctx q) p.addr p.value).getD (s.failAfter q p.seq 10 12)

/-- A launch was accepted from a queue, directly or through a replay. -/
def Launch.fromQueue (l : Launch) (q : QRef) : Bool := match l.from_ with
  | .packet r _ _ => r == q
  | _ => false

/-- An after-prior SETWORD has no earlier LAUNCH or GRAPH of its queue without its final record (R35). -/
def State.priorDone (s : State) (a : AfterPrior) : Bool :=
  !(s.waiting.any fun w => w.num < a.num && w.launch.fromQueue a.queue) &&
  !(s.tasks.any fun t => t.num < a.num && t.launch.fromQueue a.queue) &&
  !(s.replays.any fun r => r.num < a.num && r.queue == a.queue) &&
  (match s.ctx? a.ctx with
    | some c => !(c.records.any fun r => r.num < a.num && r.kind ≤ 2 && r.queue == (match a.queue with
        | .host n => n
        | .device _ => 64))
    | none => true)

/-- AFTER_PRIOR_STORE (R35). -/
def execAfterPriorStore (n : Nat) (s : State) : Host.Outcome State Fault Refusal :=
  match s.after.find? fun a => a.num == n with
  | none => .fault .noOccasion
  | some a =>
    if !s.priorDone a then .fault .noOccasion
    else
      let s := { s with after := s.after.filter fun b => b.num != n }
      .next ((s.dispStore a.ctx a.pkt.addr a.pkt.value).getD (s.failAfter a.queue a.pkt.seq 10 12))

/-- QUOTA: the context's quotas are replaced, and where that exhausts its energy quota the QUOTA event is raised (R36, R277). -/
def execQuota (q : QRef) (p : QuotaPkt) (s : State) : Host.Outcome State Fault Refusal :=
  onPacket q 1 s fun s => match s.ctx? (s.qctx q) with
    | none => s
    | some c =>
      let out := p.energy != 0 && p.energy.toNat ≤ c.enused.toNat
      let s := s.modCtx c.num fun c => { c with quota := p.energy, limit := if p.limit == 0 then 64 else p.limit, floor := p.floor, exhausted := out }
      if out && !c.exhausted then s.raiseCtx c.num evQuota else s

/-! ## Teardown (R45, R46) -/

/-- The type of the packet at a position of a context's device queue, with its slots. -/
def State.dqHeader (s : State) (c : Context) (pos : Nat) : Option Nat :=
  (s.dispWord c.num (c.dqBase + BitVec.ofNat 64 (64 * (pos % 256)))).map (·.toNat)

/-- The records of the LAUNCH and GRAPH packets still in a device queue: CANCELLED (R45). DESIGN CHOICE (log 64): that of a GRAPH has kind
2, and its done word is not stored. -/
def State.cancelQueued (s : State) (c : Context) (pos : Nat) : Nat → List Record
  | 0 => []
  | n + 1 =>
    if BitVec.ofNat 32 pos == c.dqTail then []
    else match s.dqHeader c pos with
      | none => s.cancelQueued c (pos + 1) n
      | some h =>
        let ty := fld h 0 8
        let word (o : Nat) : W64 := (s.dispWord c.num (c.dqBase + BitVec.ofNat 64 (64 * (pos % 256) + o))).getD 0
        let base := Record.plain s.nextNum (if ty == 1 then 1 else 2) (.device c.num) (BitVec.ofNat 32 pos) 5
        let ctl := (word 0x20).toNat
        let r := if ty == 1 then { base with node := 0xFFFF, seed := c.topSeed, ctrbase := word 0x18, cookie := low32 (word 0x28),
                                             strands := fld ctl 0 7, mode := fld ctl 8 1 + 2 * max (fld ctl 8 1) (fld ctl 9 1) + 4 * fld ctl 10 1 }
          else base
        (if ty == 1 || ty == 2 then [r] else []) ++ s.cancelQueued c (pos + fld h 8 4 + 1) n

/-- The record of a replay's end (R43, R47). -/
def Replay.endRecord (r : Replay) (status : Nat) : Record :=
  { Record.plain r.num 2 r.queue r.pkt.seq status with held := true, doneAt := r.pkt.done }

/-- The tasks of a context that a lead stack admits on its present cycle, which a TEARDOWN of that cycle cancels (R46). -/
def State.justAdmitted (s : State) (ctx : Nat) : List Task := s.tasks.filter fun t =>
  t.launch.ctx == ctx && t.lead.2 == (s.stack t.lead.1).cyc && s.strands.all fun x => x.task != t.num || x.status == .placed

/-- Take back the admission of tasks: they are as if they had still waited, and hold their record's slot (R46). -/
def State.unadmit (s : State) (ts : List Task) : State :=
  let is (n : Nat) : Bool := ts.any fun t => t.num == n
  { s with strands := s.strands.filter (fun x => !is x.task), tasks := s.tasks.filter fun t => !is t.num }

/-- TEARDOWN: the context's queues halt, what waits is cancelled, and its strands stop at once (R45, R46). A SETWORD that was
accepted with after-prior still stores once the records it waits for are written (R35). DESIGN CHOICE (log 64): a task whose record is
held for its re-executions (R302) ends with it, TORN-DOWN, at this time. -/
def execTeardown (q : QRef) (s : State) : Host.Outcome State Fault Refusal :=
  match s.ctx? (s.qctx q) with
  | none => .fault .noOccasion
  | some c =>
    let seq := s.qhead q
    onPacket q 1 s fun s =>
      let n := c.num
      let s := (s.queuesOf n).foldl (fun s k => s.haltQueue k 8 seq true) s
      let just := s.justAdmitted n
      let s := s.unadmit just
      let mine (ctx : Nat) : Bool := ctx == n
      let waits := s.waiting.filter fun w => mine w.launch.ctx && w.image.isNone
      let passing := (c.dqDiscards.map (·.2)).foldl (· + ·) 0
      let queued := s.cancelQueued c ((c.dqHead.toNat + passing) % 2 ^ 32) 256
      let reps := s.replays.filter fun r => mine r.ctx
      let cancelled := (just.filter fun t => !t.launch.isRedo).map (fun t => { t.launch.record t.num with held := true, status := 5 }) ++
        (waits.filter fun w => !w.launch.isRedo).map (fun w => { w.launch.record w.num with status := 5 }) ++ queued
      let shut (t : Task) : Task :=
        if mine t.launch.ctx then { t with record := { t.record with status := 6, stop := BitVec.ofNat 64 s.wtime }, expected := none } else t
      let s := { s with tasks := s.tasks.map shut }
      let s := (s.strands.filter fun t => mine t.ctx && t.status != .ended).foldl (fun s t => s.endStrand t.sid none) s
      let gone := (s.saved.filter fun t => mine t.ctx) ++ (s.waiting.filter fun w => mine w.launch.ctx).filterMap (·.image)
      let s := gone.foldl (fun s t => s.noteEnd t none) s
      let s := { s with saved := s.saved.filter (fun t => !mine t.ctx), waiting := s.waiting.filter (fun w => !mine w.launch.ctx),
                        replays := s.replays.filter (fun r => !mine r.ctx) }
      let rec' := { Record.plain s.nextNum 3 q seq 6 with cookie := BitVec.ofNat 32 (cancelled.filter fun r => r.kind == 1).length }
      State.holdTeardown (s.modCtx n fun c =>
        { c with torn := true, teardown := some rec', dqHead := c.dqTail, dqWait := none,
                 dqDiscards := c.dqDiscards.map fun d => (d.1, 0),
                 records := c.records ++ cancelled ++ reps.map fun r => r.endRecord 5 }) n

/-- The context's teardown may be recorded: it holds no strand and no space (R45). -/
def State.tornEmpty (s : State) (c : Context) : Bool :=
  c.teardown.isSome && s.ctxStrands c.num == 0 && !(s.strands.any fun t => t.ctx == c.num) &&
  (List.range 4).all fun k => !(s.stack k).scrubs.any fun x => x.ctx == c.num

/-! ## Reading packets (R31 to R34) -/

/-- A field of a packet. -/
def pktFld (bs : List Byte) (o n : Nat) : Nat := natOfBytes ((bs.drop o).take n)

/-- A 64-bit field of a packet. -/
def pktWord (bs : List Byte) (o : Nat) : W64 := BitVec.ofNat 64 (pktFld bs o 8)

/-- Every byte of a packet from `lo` up to `hi` is zero. -/
def pktZero (bs : List Byte) (lo hi : Nat) : Bool := ((bs.drop lo).take (hi - lo)).all (· == 0)

/-- The slots of each packet type. -/
def pktSlots (ty : Nat) : Nat := if ty == 1 then 2 else 1

/-- The event of a packet that passes validation (R33, R34), with its slots. `bs` is the whole packet. DESIGN CHOICE (log 64): an
entry node at or beyond the node count, and a strand limit above 64, count as out of range. -/
def parsePacket (q : QRef) (bs : List Byte) : Option (Ev × Nat) :=
  let h := pktFld bs 0 8
  let ty := fld h 0 8
  let n := pktSlots ty
  let seq : W32 := BitVec.ofNat 32 (fld h 32 32)
  let cls := fld h 13 3
  let noWait := fld h 12 1 == 1
  let mayWait := ty == 1 || ty == 2
  let headOk := fld h 16 16 == 0 && fld h 8 4 + 1 == n && (mayWait || (cls == 0 && !noWait))
  let end_ := 64 * n - 4
  if !headOk then none
  else if ty == 0 then if pktZero bs 8 end_ then some (.nopPacket q, 1) else none
  else if ty == 1 then
    let ctl := pktFld bs 0x20 8
    let count := fld ctl 0 7
    if fld ctl 7 1 == 0 && fld ctl 11 53 == 0 && 1 ≤ count && count ≤ 64 && pktZero bs 0x30 0x40 && pktZero bs 0x60 end_ then
      some (.launch q { seq, cls, noWait, image := pktWord bs 8, param := pktWord bs 0x10, ctrbase := pktWord bs 0x18, count,
                        det := fld ctl 8 1 == 1, tagck := fld ctl 9 1 == 1, serial := fld ctl 10 1 == 1, cookie := pktWord bs 0x28,
                        mbx := Vector.ofFn fun i => BitVec.ofNat 64 (pktFld bs (0x40 + 4 * i.val) 4) }, 2)
    else none
  else if ty == 2 then
    let w := pktFld bs 0x10 8
    let nodes := fld w 0 16
    let pc := pktFld bs 0x20 8
    if fld w 32 32 == 0 && 1 ≤ nodes && nodes ≤ 4096 && fld w 16 16 < nodes && pc ≤ 64 && pktZero bs 0x30 end_ then
      some (.graph q { seq, cls, noWait, base := pktWord bs 8, nodes, entry := fld w 16 16, patchAt := pktWord bs 0x18, patchCount := pc,
                       done := pktWord bs 0x28 }, 1)
    else none
  else if ty == 3 then if pktZero bs 0x10 end_ then some (.seedpush q (pktWord bs 8), 1) else none
  else if ty == 4 then if pktZero bs 8 end_ then some (.seedpop q, 1) else none
  else if ty == 5 then if pktZero bs 12 end_ then some (.seedfork q (BitVec.ofNat 32 (pktFld bs 8 4)), 1) else none
  else if ty == 6 then
    if pktFld bs 0x20 8 ≤ 3 && pktZero bs 0x30 end_ then
      some (.waitword q { seq, addr := pktWord bs 8, mask := pktWord bs 0x10, value := pktWord bs 0x18,
                          cond := BitVec.ofNat 2 (pktFld bs 0x20 8), timeout := pktWord bs 0x28 }, 1)
    else none
  else if ty == 7 then
    if pktFld bs 0x18 8 ≤ 1 && pktZero bs 0x20 end_ then
      some (.setword q { seq, addr := pktWord bs 8, value := pktWord bs 0x10, after := pktFld bs 0x18 8 == 1 }, 1)
    else none
  else if ty == 8 then if pktZero bs 8 end_ then some (.teardown q, 1) else none
  else if ty == 9 then
    let w := pktFld bs 0x10 8
    if fld w 7 1 == 0 && fld w 11 53 == 0 && fld w 0 7 ≤ 64 && pktZero bs 0x18 end_ then
      some (.quota q { energy := pktWord bs 8, limit := fld w 0 7, floor := fld w 8 3 }, 1)
    else none
  else none

/-- The virtual address of slot `k` of a queue's ring. -/
def State.slotVa (s : State) (q : QRef) (k : W32) : W64 := match q with
  | .host n => (s.queue n).base + BitVec.ofNat 64 (64 * (k.toNat % 2 ^ (s.queue n).size))
  | .device c => match s.ctx? c with
    | some x => x.dqBase + BitVec.ofNat 64 (64 * (k.toNat % 256))
    | none => 0

/-- The 64 bytes of a slot of a queue's ring, if it translates; a device queue's slot must also have Write (R32, R44). -/
def State.slotBytes (s : State) (q : QRef) (k : W32) : Option (List Byte) := match q with
  | .host _ => s.dispBytes (s.qctx q) (s.slotVa q k) 64
  | .device c => if (s.dispXlat c (s.slotVa q k) true).isSome then s.dispBytes c (s.slotVa q k) 64 else none

/-- What reading the packet at a queue's head gives: its bytes, or the position of the first slot that does not translate
and the slots to pass. -/
def State.readPacket (s : State) (q : QRef) : Except (W32 × Nat) (List Byte) :=
  let h := s.qhead q
  match s.slotBytes q h with
  | none => .error (h, 1)
  | some bs =>
    let n := fld (pktFld bs 0 8) 8 4 + 1
    let rest := (List.range (n - 1)).map fun i => (h + BitVec.ofNat 32 (i + 1), s.slotBytes q (h + BitVec.ofNat 32 (i + 1)))
    match rest.find? fun r => r.2.isNone with
    | some r => .error (r.1, n)
    | none => .ok (bs ++ rest.flatMap fun r => r.2.getD [])

/-- Both sequence fields of a packet match (R31, R32). -/
def packetMatches (bs : List Byte) (h : W32) : Bool :=
  pktFld bs 4 4 == h.toNat && natOfBytes (bs.drop (bs.length - 4)) == h.toNat

/-- Take a packet that has been read: validate it and let its event follow (R32, R34). A GRAPH that finds no ring slot free
waits at its queue's head (R49). -/
def State.takePacket (s : State) (q : QRef) (bs : List Byte) : State := match parsePacket q bs with
  | none => s.failBefore q (fld (pktFld bs 0 8) 8 4 + 1) 2 8
  | some (e, _) =>
    let blocked := match e, s.ctx? (s.qctx q) with
      | .graph .., some c => !s.ringFree c
      | _, _ => false
    if blocked then s else { s with todo := .ev e :: s.todo }

/-- Read a host queue's packet for the first time in its turn (R32). -/
def State.serveHost (s : State) (n : Nat) : State :=
  let q := s.queue n
  if 2 ^ q.size < (q.tail - q.head).toNat then s.haltUnnamed n 3
  else match s.readPacket (.host n) with
    | .error _ => s.haltQueue n 10 q.head false
    | .ok bs =>
      if packetMatches bs q.head then s.takePacket (.host n) bs
      else s.modQueue n fun q => { q with read := some (s.wtime, s.wtime + 250, 250) }

/-- Read a device queue's packet (R44). -/
def State.serveDevice (s : State) (c : Nat) : State := match s.readPacket (.device c) with
  | .error f => s.discard c f.1 12 f.2
  | .ok bs => s.takePacket (.device c) bs

/-- PACKET_REREAD: a packet that did not match is read again; the interval to the next read doubles up to 8,000 ns (R32). -/
def execPacketReread (q : QRef) (s : State) : Host.Outcome State Fault Refusal :=
  match q with
  | .device _ => .fault .noOccasion
  | .host n => match (s.queue n).read with
    | none => .fault .noOccasion
    | some (t0, next, gap) =>
      if s.wtime < next || !s.canAccept q then .fault .noOccasion
      else match s.readPacket q with
        | .error _ => .next (s.haltQueue n 10 (s.queue n).head false)
        | .ok bs =>
          if packetMatches bs (s.queue n).head then .next ((s.modQueue n fun h => { h with read := none }).takePacket q bs)
          else
            let gap' := min 8000 (2 * gap)
            .next (s.modQueue n fun h => { h with read := some (t0, s.wtime + gap', gap') })

/-- TORN_PACKET: the packet has not matched within 64,000 ns of its first read (R32). -/
def execTornPacket (q : QRef) (s : State) : Host.Outcome State Fault Refusal :=
  match q with
  | .device _ => .fault .noOccasion
  | .host n => match (s.queue n).read with
    | none => .fault .noOccasion
    | some (t0, _, _) => if s.wtime < t0 + 64000 || !s.canAccept q then .fault .noOccasion
      else .next (s.haltQueue n 1 (s.queue n).head false)

/-! ## Round robin (R32) -/

/-- Queue `i` of the round robin: host queues 0 to 63, then the device queues of contexts 0 to 63. -/
def rrQueue (i : Nat) : QRef := if i < 64 then .host i else .device (i - 64)

/-- A queue can be served in its turn. -/
def State.ready (s : State) (q : QRef) : Bool := s.canAccept q && (match q with
  | .host n => (s.queue n).read.isNone && (s.queue n).ready ≤ s.wtime
  | .device _ => true)

/-- Serve the next queue in turn that holds a packet. -/
def State.serveNext (s : State) : State := match (List.range 128).find? fun i => s.ready (rrQueue ((s.rr + i) % 128)) with
  | none => s
  | some i =>
    let k := (s.rr + i) % 128
    let s := { s with rr := (k + 1) % 128 }
    match rrQueue k with
    | .host n => s.serveHost n
    | .device c => s.serveDevice c

end Sys2Proof.Machine
end

