-- ==== Sys2Proof/Machine/Graphs.lean ====
section
/-! DEFINITION. Task graphs: reading a node, one meaning per node type, and the start and end of a replay (R39 to R43). -/

namespace Sys2Proof.Machine

/-! ## Nodes (R39) -/

/-- Word `i` of a node. -/
def nodeWord (w : NodeWords) (i : Nat) : Nat := (vget w i 0).toNat

/-- The type of a node. -/
def nodeType (w : NodeWords) : Nat := fld (nodeWord w 0) 0 8

/-- Words `lo` to 7 of a node are zero. -/
def nodeRest (w : NodeWords) (lo : Nat) : Bool := (List.range 8).all fun i => i < lo || nodeWord w i == 0

/-- Edge `i` of a SWITCH. -/
def switchEdge (w : NodeWords) (i : Nat) : Nat := fld (nodeWord w (4 + i / 4)) (16 * (i % 4)) 16

/-- The edges a node names. DESIGN CHOICE (log 73): of a SWITCH those below its count, and its default; what stands in the others is not
looked at. -/
def nodeEdges (w : NodeWords) : List Nat :=
  let w2 := nodeWord w 2
  match nodeType w with
  | 1 => [fld (nodeWord w 6) 0 16, fld (nodeWord w 6) 16 16]
  | 2 => [fld w2 0 16, fld w2 16 16]
  | 3 => [fld w2 0 16, fld w2 16 16]
  | 4 => fld w2 16 16 :: (List.range (fld w2 0 5)).map (switchEdge w)
  | 5 => [fld w2 0 16]
  | 6 => [fld (nodeWord w 3) 0 16]
  | _ => []

/-- The reserved fields of a node are zero and its counts are in range (R39, R43). -/
def nodeFieldsOk (w : NodeWords) : Bool :=
  let w0 := nodeWord w 0
  let w2 := nodeWord w 2
  match nodeType w with
  | 1 => fld w0 8 24 == 0 && fld w0 39 1 == 0 && fld w0 43 1 == 0 && fld w0 48 16 == 0 && 1 ≤ fld w0 32 7 && fld w0 32 7 ≤ 64 &&
      fld (nodeWord w 6) 32 32 == 0 && nodeRest w 7
  | 2 => fld w0 8 56 == 0 && fld w2 32 32 == 0 && nodeRest w 3
  | 3 => fld w0 8 56 == 0 && nodeRest w 3
  | 4 => fld w0 8 56 == 0 && fld w2 5 11 == 0 && fld w2 32 32 == 0 && 1 ≤ fld w2 0 5 && fld w2 0 5 ≤ 16 && nodeWord w 3 == 0
  | 5 => fld w0 8 56 == 0 && fld (nodeWord w 1) 7 57 == 0 && 1 ≤ nodeWord w 1 && nodeWord w 1 ≤ 64 && fld w2 16 48 == 0 && nodeRest w 3
  | 6 => fld w0 8 56 == 0 && nodeWord w 1 ≤ 1 && fld (nodeWord w 3) 16 48 == 0 && nodeRest w 4
  | 7 => fld w0 8 56 == 0 && nodeRest w 1
  | _ => false

/-- A node keeps the conditions of R43 in a graph of `n` nodes. DEDUCED (log 39). -/
def nodeOk (n : Nat) (w : NodeWords) : Bool := nodeFieldsOk w && (nodeEdges w).all fun e => e == 0xFFFF || e < n

/-- Read a node: memory as it stands, overlaid by the replay's patches (R40, R41). DESIGN CHOICE (log 64): a patch that names no
word of the graph has no effect, and the last of two for one word stands. -/
def State.readNode (s : State) (r : Replay) (node : Nat) : Option NodeWords :=
  let base := r.pkt.base + BitVec.ofNat 64 (64 * node)
  match s.dispBytes r.ctx base 64 with
  | none => none
  | some bs => some (Vector.ofFn fun i =>
      match r.patches.reverse.find? fun p => p.1 == 64 * node + 8 * i.val with
      | some p => p.2
      | none => BitVec.ofNat 64 (natOfBytes ((bs.drop (8 * i.val)).take 8)))

/-! ## Activations (R41, R43) -/

/-- Change a replay. -/
def State.modReplay (s : State) (n : Nat) (f : Replay → Replay) : State :=
  { s with replays := s.replays.map fun r => if r.num == n then f r else r }

/-- A replay ends early with a status and starts no further task (R43). DEDUCED (log 37). -/
def Replay.endEarly (status : Nat) (r : Replay) : Replay := { r with status := if r.status == 0 then status else r.status, pend := [] }

/-- Take an activation of a running replay, of a node of the given type. -/
def onNode (rep : Nat) (a : Activation) (w : NodeWords) (ty : Nat) (s : State) (f : Replay → State → State) :
    Host.Outcome State Fault Refusal :=
  match s.replays.find? fun r => r.num == rep && r.started && r.status == 0 && !r.ending && r.pend.head? == some a with
  | none => .fault .noOccasion
  | some r =>
    if nodeType w != ty then .fault .noOccasion
    else
      let s := s.modReplay rep fun r => { r with pend := r.pend.tail }
      if nodeOk r.pkt.nodes w then .next (f r s) else .next (s.modReplay rep (Replay.endEarly 9))

/-- Activate an edge with a seed. -/
def State.activateEdge (s : State) (rep : Nat) (from_ edge : Nat) (seed : W64) : State :=
  s.modReplay rep fun r => r.push [{ node := edge, seed, pred := from_ }]

/-- Read a control word and go on with it (R41, R43). -/
def State.control (s : State) (r : Replay) (w : NodeWords) (f : W64 → State → State) : State :=
  let a := vget w 1 0
  match (if s.addrOk r.ctx a false then s.dispWord r.ctx a else none) with
  | none => s.modReplay r.num (Replay.endEarly 12)
  | some v => f v s

/-- TASK_NODE: launches a task with the activation's seed (R36, R39, R41). DESIGN CHOICE (log 64): the class and no-wait are the
node's own; those of the GRAPH packet act on no task. -/
def execTaskNode (rep : Nat) (a : Activation) (w : NodeWords) (s : State) : Host.Outcome State Fault Refusal :=
  onNode rep a w 1 s fun r s =>
    let w0 := nodeWord w 0
    let half (i : Nat) : W64 := BitVec.ofNat 64 (fld (nodeWord w (4 + i / 2)) (32 * (i % 2)) 32)
    let s := s.modReplay rep fun r => { r with running := r.running + 1 }
    s.enterLaunch { ctx := r.ctx, from_ := .node rep a.node (nodeEdges w) r.queue r.pkt.seq, image := vget w 1 0, param := vget w 2 0,
                    ctrbase := vget w 3 0, count := fld w0 32 7, det := fld w0 40 1 == 1, tagck := fld w0 41 1 == 1,
                    serial := fld w0 42 1 == 1, noWait := fld w0 47 1 == 1, cls := fld w0 44 3,
                    mbx := Vector.ofFn fun i => if i.val < 4 then half i.val else 0, seed := a.seed }

/-- COND (R41). -/
def execCond (rep : Nat) (a : Activation) (w : NodeWords) (s : State) : Host.Outcome State Fault Refusal :=
  onNode rep a w 2 s fun r s => s.control r w fun v s =>
    s.activateEdge rep a.node (fld (nodeWord w 2) (if v != 0 then 0 else 16) 16) a.seed

/-- LOOP_NODE (R41, R43). -/
def execLoopNode (rep : Nat) (a : Activation) (w : NodeWords) (s : State) : Host.Outcome State Fault Refusal :=
  onNode rep a w 3 s fun r s => s.control r w fun v s =>
    let st := match r.loops.find? fun l => l.1 == a.node with
      | some l => l.2
      | none => (a.seed, 0)
    let limit := fld (nodeWord w 2) 32 32
    let keep (count : Nat) (s : State) : State := s.modReplay rep fun r =>
      { r with loops := (a.node, st.1, count) :: r.loops.filter fun l => l.1 != a.node }
    if v != 0 then
      if limit != 0 && limit < st.2 + 1 then s.modReplay rep (Replay.endEarly 10)
      else (keep (st.2 + 1) s).activateEdge rep a.node (fld (nodeWord w 2) 0 16) (childSeed st.1 (BitVec.ofNat 32 st.2))
    else (keep 0 s).activateEdge rep a.node (fld (nodeWord w 2) 16 16) st.1

/-- SWITCH (R41). -/
def execSwitch (rep : Nat) (a : Activation) (w : NodeWords) (s : State) : Host.Outcome State Fault Refusal :=
  onNode rep a w 4 s fun r s => s.control r w fun v s =>
    let n := fld (nodeWord w 2) 0 5
    s.activateEdge rep a.node (if v.toNat < n then switchEdge w v.toNat else fld (nodeWord w 2) 16 16) a.seed

/-- JOIN: at the k-th arrival the next edge is activated with the seed from the lowest-numbered predecessor (R41). DESIGN CHOICE (log 73):
of two arrivals from one predecessor the earlier counts, and the activation by which a replay enters its graph stands behind all. -/
def execJoin (rep : Nat) (a : Activation) (w : NodeWords) (s : State) : Host.Outcome State Fault Refusal :=
  onNode rep a w 5 s fun r s =>
    let had := match r.joins.find? fun j => j.1 == a.node with
      | some j => j.2
      | none => []
    let arrived := had ++ [(a.pred, a.seed)]
    let others := r.joins.filter fun j => j.1 != a.node
    if arrived.length < nodeWord w 1 then s.modReplay rep fun r => { r with joins := (a.node, arrived) :: others }
    else
      let seed := match (sortBy (fun x y => decide (x.1 ≤ y.1)) arrived).head? with
        | some x => x.2
        | none => a.seed
      (s.modReplay rep fun r => { r with joins := others }).activateEdge rep a.node (fld (nodeWord w 2) 0 16) seed

/-- SEED_NODE (R41). DESIGN CHOICE (log 64): of a FORK's index the low 32 bits count. -/
def execSeedNode (rep : Nat) (a : Activation) (w : NodeWords) (s : State) : Host.Outcome State Fault Refusal :=
  onNode rep a w 6 s fun _ s =>
    s.activateEdge rep a.node (fld (nodeWord w 3) 0 16)
      (if nodeWord w 1 == 0 then childSeed a.seed (low32 (vget w 2 0)) else vget w 2 0)

/-- END_NODE: the replay is ending (R41, R43). DEDUCED (log 38). -/
def execEndNode (rep : Nat) (a : Activation) (w : NodeWords) (s : State) : Host.Outcome State Fault Refusal :=
  onNode rep a w 7 s fun _ s => s.modReplay rep fun r => { r with ending := true, pend := [] }

/-! ## The course of a replay (R40, R43) -/

/-- The event of a node's type. -/
def nodeEvent (rep : Nat) (a : Activation) (w : NodeWords) : Option Ev := match nodeType w with
  | 1 => some (.taskNode rep a w)
  | 2 => some (.cond rep a w)
  | 3 => some (.loopNode rep a w)
  | 4 => some (.switch rep a w)
  | 5 => some (.join rep a w)
  | 6 => some (.seedNode rep a w)
  | 7 => some (.endNode rep a w)
  | _ => none

/-- Start the replays whose turn it is: no earlier replay of the same graph base is open. -/
def startReplays : List (Nat × W64) → List Replay → List Replay
  | _, [] => []
  | seen, r :: rs =>
    let key := (r.ctx, r.pkt.base)
    (if seen.contains key then r else { r with started := true }) :: startReplays (key :: seen) rs

/-- A replay has come to its end. -/
def Replay.over (r : Replay) : Bool := r.started && r.running == 0 && (r.ending || r.pend.isEmpty || r.status != 0)

/-- Move each replay on: write the end records of those that have ended, start those whose turn it is, and read the first
pending node of each. -/
def State.serveReplays (s : State) : State :=
  let ended := s.replays.filter Replay.over
  let s := ended.foldl (fun s r => s.addRecord r.ctx (r.endRecord (if r.status == 0 then 1 else r.status))) s
  let s := { s with replays := startReplays [] (s.replays.filter fun r => !r.over) }
  s.replays.foldl (fun s r =>
    if !r.started || r.status != 0 || r.ending then s
    else match r.pend with
      | [] => s
      | a :: _ => match s.readNode r a.node with
        | none => s.modReplay r.num (Replay.endEarly 12)
        | some w => match nodeEvent r.num a w with
          | none => s.modReplay r.num (Replay.endEarly 9)
          | some e => { s with todo := s.todo ++ [.ev e] }) s

end Sys2Proof.Machine
end

