-- ==== Sys2Proof/Machine/Foreign.lean ====
section
/-! DEFINITION. The strand of an image that another device has written: its header's fields, and free values for everything that the
image's sections hold (R289). -/

namespace Sys2Proof.Machine

/-! Each function takes the words it may use as a function of an index; a part of it takes a shifted one. -/

/-- The words from an index on. -/
def wordsFrom (f : Nat → W64) (k : Nat) : Nat → W64 := fun i => f (k + i)

/-- A word as a number below a bound. -/
def below (f : Nat → W64) (i n : Nat) : Nat := (f i).toNat % n

/-- Up to `n` things, as many as the first word says, each from 64 words of its own. -/
def foreignList {α : Type} (f : Nat → W64) (n : Nat) (one : (Nat → W64) → α) : List α :=
  (List.range (below f 0 (n + 1))).map fun i => one (wordsFrom f (64 * (i + 1)))

/-- The members of a list whose word has bit 0 set. -/
def foreignMarks (f : Nat → W64) (ks : List Nat) : List Nat := ks.filter fun i => bitAt (f i) 0

/-- A sparse store with `n` cells from key 0 on. -/
def foreignCells {w : Nat} (f : Nat → W64) (n : Nat) : Sparse w := Sparse.setAll [] ((List.range n).map fun i => (i, (f i).truncate w))

/-! ## A cluster context -/

/-- What an entry of a store queue does. -/
def foreignStore (f : Nat → W64) : ElOp :=
  let d : Reg := (f 3).truncate 5
  let a := f 1 &&& ~~~7
  let sc := scopeLevel (below f 4 4) a
  let ops : List AtomicOp := [.minI, .minN, .maxI, .maxN, .and, .or, .xor, .xchg, .cas, .fadd]
  match below f 0 8 with
  | 0 => .ecopy (below f 4 4) a (f 2 &&& ~~~7) (below f 5 32)
  | 1 => .atomic (ops.getD (below f 6 11) .add) a (f 2) (f 7) sc d
  | 2 => .bara a sc d
  | 3 => .enq a (low32 (f 2)) d
  | _ => .st a ([1, 2, 4, 8].getD (below f 5 4) 8) (f 2)

/-- What an entry of a load queue does. -/
def foreignLoad (f : Nat → W64) : ElOp := .ld (f 1 &&& ~~~7) ([.d, .w, .ws, .b].getD (below f 4 4) .d) ((f 3).truncate 5)

/-- The queues of a context with one more entry: a load, a store, or a marker, which stands in both. -/
def foreignPush (c : Cluster) (f : Nat → W64) : Cluster :=
  let push (lq sq : Bool) (op : ElOp) : Cluster :=
    if (lq && 16 ≤ c.lq.entries.length) || (sq && 16 ≤ c.sq.entries.length) then c
    else { c with lq := if lq then c.lq.push c.issued op 0 else c.lq, sq := if sq then c.sq.push c.issued op 0 else c.sq,
                  issued := c.issued + 1 }
  match below f 8 4 with
  | 0 => push true false (foreignLoad f)
  | 1 => push false true (foreignStore f)
  | 2 => push true true .mark
  | _ => push true true (.fence (below f 9 6 + 1))

/-- The loops of a context, innermost first, and where it stands in its sequence. -/
def foreignSeq (f : Nat → W64) : Seq :=
  let at_ (i : Nat) : Nat := (f i).toNat / 4 * 4
  let loop (i : Nat) : Loop :=
    { ctr := i, start := some (at_ (8 + 4 * i)), stop := at_ (9 + 4 * i), total := (f (10 + 4 * i)).toNat, iter := (f (11 + 4 * i)).toNat }
  { pc := at_ 0, pos := below f 1 3, tgt := if bitAt (f 2) 0 then some (at_ 3) else none, exits := bitAt (f 2) 1,
    loops := (foreignMarks (wordsFrom f 4) (List.range 4)).map loop, skips := bitAt (f 2) 2 }

/-- The registers of a trap bank, not in use. -/
def foreignBank (f : Nat → W64) : Bank :=
  { Bank.zero with
    pc := f 0 &&& ~~~3, cause := f 1, addr := f 2, tgt := f 3, beat := f 4, fseq := f 5, nme := low32 (f 6), nte := low32 (f 7),
    nre := low32 (f 8), nbte := low32 (f 9), nlq := low32 (f 10), nsq := low32 (f 11), k0 := f 12, k1 := f 13, k2 := f 14, k3 := f 15 }

/-- A cluster context. -/
def foreignCluster (f : Nat → W64) : Cluster :=
  let lanes (f : Nat → W64) : Lanes := Vector.ofFn fun n => low32 (f n.val)
  let c : Cluster := { Cluster.zero with
    inMask := true, s := Vector.ofFn fun i => if i.val == 0 then 0 else f i.val,
    p := Vector.ofFn fun i => if i.val == 0 then BitVec.allOnes 64 else f (32 + i.val),
    o := Vector.ofFn fun i => lanes (wordsFrom f (64 * (i.val + 4))), l := Vector.ofFn fun i => lanes (wordsFrom f (64 * (i.val + 20))),
    q := Vector.ofFn fun i => foreignList (wordsFrom f (64 * (24 + 16 * i.val))) 8 lanes,
    seq := foreignSeq (wordsFrom f 64), sr := low32 (f 45) ||| 1, tvec := f 46 &&& ~~~3, fmtbase := (f 47).truncate 4,
    fmtsel := (f 48).truncate 2, halted := bitAt (f 49) 0, horizon := (f 50).toNat, ta := foreignBank (wordsFrom f 128),
    tb := foreignBank (wordsFrom f 160), lq := { entries := [], next := low32 (f 51) }, sq := { entries := [], next := low32 (f 52) } }
  (List.range (below f 53 33)).foldl (fun c i => foreignPush c (wordsFrom f (64 * (88 + i)))) c

/-! ## A core -/

/-- A shape descriptor. -/
def foreignShape (f : Nat → W64) : Shape :=
  { base := f 0, spad := bitAt (f 1) 0, run := below f 2 (2 ^ 24 - 1) + 1, count1 := below f 3 65535 + 1, count2 := below f 4 65535 + 1,
    count3 := below f 5 65535 + 1, stride1 := f 6, stride2 := f 7, stride3 := f 8 }

/-- The syllables that enter a command in an engine's queue (R185, R220). -/
def isCommand : Instr → Bool
  | .mcfg .. | .cfgld .. | .cfgswap .. | .mgo .. | .mstop .. | .mbase .. | .mfmt .. | .aczero .. | .tload .. | .rload .. | .rstep .. => true
  | .tsld .. | .tsev .. | .xcopy .. => true
  | _ => false

/-- A command of an engine: what a word stands for, if it is a command of that engine (R185). -/
def foreignCmd (u : Unit') (mask : BitVec 4) (f : Nat → W64) (seq : W32) (stamp : Nat) : Option Cmd :=
  match decodeSyl (low32 (f 0)) [low32 (f 1)] with
  | .error _ => none
  | .ok (i, _) =>
    if !isCommand i || cmdUnit i != u then none
    else some { seq, stamp, cl := ((List.range 4).filter fun k => bitAt mask k).getD (below f 2 4) 0, ins := i, val := f 3, fmt := below f 4 16 }
/-- An engine: its planes of `n` bytes each and its queue of at most `m` commands, in order of start beat, numbered in turn. -/
def foreignEngine (u : Unit') (mask : BitVec 4) (x n m : Nat) (f : Nat → W64) : Engine :=
  let add (e : Engine) (i : Nat) : Engine :=
    let g := wordsFrom f (64 * (i + 1))
    match foreignCmd u mask g e.next (max x e.last + below g 5 65536) with
    | none => e
    | some c => { e with q := e.q ++ [c], next := e.next + 1, last := c.stamp }
  (List.range m).foldl add
    { Engine.zero with next := low32 (f 0), active := foreignCells (wordsFrom f (2 ^ 16)) n, shadow := foreignCells (wordsFrom f (2 ^ 17)) n }

/-- An accumulator bank. -/
def foreignAcc (f : Nat → W64) : AccBank :=
  { AccBank.zero with
    mode := [.unallocated, .allocated, .parked].getD (below f 0 3) .parked, own := (f 1).truncate 16, poison := bitAt (f 2) 0 }

/-- A nest at its RETIRE (R282): what the core's image and format entry say of it, with a command, a reduction and a beat of its own. -/
def foreignNest (fp : Footprint) (x : Nat) (me : Engine) (f : Nat → W64) : Option Nest :=
  match (List.range 32).findSome? fun i => foreignCmd .me fp.mask (wordsFrom f (64 * (i + 1))) (low32 (f 1)) (below f 2 (x + 1)) with
  | none => none
  | some cmd =>
    let m := me.active
    if !bitAt (f 0) 0 || !isMgo cmd.ins then none
    else
      let n := Nest.begin cmd cmd.stamp (low32 (f 3)) ((ordersOf m).map orderOf) (countProd m (nestRed m) (nestLevels m))
        ((nestReach m (nestC m) fp.acc).map (·.toNat))
      some { n with red := below f 4 (max 1 n.reds), tau := x + below f 5 65536, seen := foreignMarks (wordsFrom f 4096) (List.range (32 * fp.banks)) }

/-- The record of a stopped RSTEP (R213). -/
def foreignRStep (mask : BitVec 4) (x : Nat) (f : Nat → W64) : Option RStep :=
  match (List.range 32).findSome? fun i => foreignCmd .re mask (wordsFrom f (64 * (i + 1))) (low32 (f 1)) (below f 2 (x + 1)) with
  | none => none
  | some cmd => match bitAt (f 0) 0, cmd.ins with
    | true, .rstep .. => some { cmd, start := cmd.stamp, from_ := below f 3 64, gen := below f 3 64 + below f 4 64, snap := none, copyAt := none }
    | _, _ => none

/-- What the strand keeps on a core. -/
def foreignCore (fp : Footprint) (x n : Nat) (f : Nat → W64) : Core :=
  let me := foreignEngine .me fp.mask x 1024 16 (wordsFrom f (2 ^ 20))
  let step := foreignRStep fp.mask x (wordsFrom f (2 ^ 19 + 2 ^ 18))
  { Core.zero n { slot := 0, banks := List.replicate fp.banks 0, planes := List.replicate fp.planes 0, acc := List.replicate fp.acc 0,
                  shapes := List.replicate fp.slots 0 } with
    cl := Vector.ofFn fun k => if bitAt fp.mask k.val then foreignCluster (wordsFrom f (8192 * (k.val + 1))) else Cluster.zero,
    planes := foreignCells (wordsFrom f (2 ^ 24)) (4096 * fp.planes), planePoison := foreignMarks (wordsFrom f (2 ^ 28)) (List.range (4096 * fp.planes)),
    spad := foreignCells (wordsFrom f (2 ^ 25)) (131072 * fp.banks), spadPoison := foreignMarks (wordsFrom f (2 ^ 29)) (List.range (32768 * fp.banks)),
    tags := foreignCells (wordsFrom f (2 ^ 26)) (32 * fp.banks), acc := foreignCells (wordsFrom f (2 ^ 27)) (4096 * fp.acc),
    banks := Vector.ofFn fun i => if i.val < fp.acc then foreignAcc (wordsFrom f (64 + 4 * i.val)) else AccBank.zero,
    shapes := Vector.ofFn fun i => if i.val < fp.slots && bitAt (f (32 + i.val)) 0 then some (foreignShape (wordsFrom f (256 + 16 * i.val))) else none,
    fmt := Vector.ofFn fun i => low32 (f i.val), me,
    te := foreignEngine .te fp.mask x 4608 16 (wordsFrom f (2 ^ 21)), re := foreignEngine .re fp.mask x 4096 16 (wordsFrom f (2 ^ 22)),
    bte := foreignEngine .bte fp.mask x 0 32 (wordsFrom f (2 ^ 23)),
    nest := if fp.me then foreignNest fp x me (wordsFrom f (2 ^ 19)) else none, rgc := below f 16 65,
    rstep := if bitAt (f 17) 0 then step else none, rstopped := if bitAt (f 17) 0 then none else step }

/-! ## The strand -/

/-- A pending MOLT request (R248). -/
def foreignMolt (fp : Footprint) (f : Nat → W64) : Option MoltReq :=
  let k := ((List.range 4).filter fun k => bitAt fp.mask k).getD (below f 1 4) 0
  if bitAt (f 0) 0 then
    some { stride := 2 ^ below f 2 7, pin := if bitAt (f 3) 0 then some (below f 3 64) else none, core := below f 4 (max 1 fp.cores), cl := k,
           d := (f 5).truncate 5 }
  else none

/-- The strand of an image that this device has not written (R289): its header's footprint, beat, identifier and stack; what its
sections hold is free values of its check word. UNVERIFIED (log 7): what they are. DESIGN CHOICE (log 64): it is not in a handler. -/
def foreignStrand (fp : Footprint) (w : Nat → Nat) : Strand :=
  let f := Config.foreignWord (w 7)
  let cores := (List.range fp.cores).map fun n => foreignCore fp (w 4) n (wordsFrom f (2 ^ 30 * (n + 1)))
  let place : Placed := { stack := w 6 % 4, phase := 0, cores := cores.map fun c => (c.phys, c.units), grains := [], lane := none }
  { place.stub { fp, stride := 2 ^ fp.strideCode, pin := fp.pin } with
    sid := w 5 / 2 ^ 32, ctx := (f 0).toNat % 64, logidx := (f 1).toNat % 64, det := bitAt (f 2) 0, tagck := bitAt (f 2) 1,
    beat := w 4, seed := f 3, ctrbase := f 4, param := f 5, dataVa := f 6, digest := f 7, image := f 8,
    mbx := Vector.ofFn fun i => f (16 + i.val), entries := Vector.ofFn fun i => f (24 + i.val), molt := foreignMolt fp (wordsFrom f 32), cores }

end Sys2Proof.Machine
end

