-- ==== Sys2Proof/Machine/Host.lean ====
section
/-! DEFINITION. What the host does through the dispatcher's and the device's registers: contexts, queues, translations,
mailboxes, and pre-emption with its images (R28 to R32, R147, R160, R287 to R289, R304). -/

namespace Sys2Proof.Machine

/-! ## Contexts (R28, R29) -/

/-- Partition codes share a stack. -/
def partsMeet (a b : Nat) : Bool := (partStacks a).any (partStacks b).contains

/-- Word `i` of a context's descriptor. -/
def State.descWord (s : State) (ctx i : Nat) : Nat := s.busNat (s.ctxtab.toNat + 64 * ctx + 8 * i) 8

/-- The descriptor can be read and keeps the conditions of ACTIVATE. DESIGN CHOICE (log 66): one that cannot be read is BAD-CONFIG. -/
def State.descOk (s : State) (ctx : Nat) : Bool :=
  let w := s.descWord ctx
  s.tableOk && w 0 ≤ 6 && w 1 % 4096 == 0 && w 2 % 64 == 0 && 4 ≤ w 3 && w 3 ≤ 16 && w 6 % 64 == 0 && w 7 == 0 &&
  (w 4 + 2 ^ 64 - w 5) % 2 ^ 64 ≤ 2 ^ w 3 &&
  !s.contexts.any fun c => c.num != ctx && c.part != w 0 && partsMeet c.part (w 0)

/-- CTXCMD as a command with a result leaves it (R29): Busy is never seen set, since a command ends in its own step. -/
def ctxcmdWord (ctx op result : Nat) : W64 := BitVec.ofNat 64 (result * 2 ^ 17 + op * 2 ^ 8 + ctx % 64)

/-- ACTIVATE (R29). DESIGN CHOICE (log 83): the positions of the device queue begin at 0 at each. DEDUCED (log 41). -/
def execActivate (ctx : Nat) (s : State) : Host.Outcome State Fault Refusal := accepted s fun s =>
  let n := ctx % 64
  if (s.ctx? n).isSome then .next { s with ctxcmd := ctxcmdWord n 1 2 }
  else if !s.descOk n then .next { s with ctxcmd := ctxcmdWord n 1 1 }
  else
    let w := s.descWord n
    let c : Context :=
      { num := n, part := w 0, root := w 1, ring := BitVec.ofNat 64 (w 2), ringLog := w 3, produced := BitVec.ofNat 64 (w 4),
        dqBase := BitVec.ofNat 64 (w 6), dqHead := 0, dqTail := 0, dqWait := none, dqDiscards := [], seeds := [], quota := 0,
        limit := 64, floor := 0, records := [], reserved := 0, blocked := false, torn := false, teardown := none, enused := 0,
        enover := 0, exhausted := false }
    .next { s with contexts := s.contexts ++ [c], ctxcmd := ctxcmdWord n 1 0 }

/-- A context is idle (R29). -/
def State.idle (s : State) (c : Context) : Bool :=
  let n := c.num
  !(s.strands.any fun t => t.ctx == n) && !(s.saved.any fun t => t.ctx == n) && !(s.waiting.any fun w => w.launch.ctx == n) &&
  !(s.tasks.any fun t => t.launch.ctx == n) && !(s.replays.any fun r => r.ctx == n) && c.records.isEmpty &&
  c.dqDiscards.isEmpty && c.teardown.isNone && (List.range 4).all fun k => !(s.stack k).scrubs.any fun x => x.ctx == n

/-- RELEASE (R29). -/
def execRelease (ctx : Nat) (s : State) : Host.Outcome State Fault Refusal := accepted s fun s =>
  let n := ctx % 64
  match s.ctx? n with
  | none => .next { s with ctxcmd := ctxcmdWord n 2 1 }
  | some c =>
    if !s.idle c then .next { s with ctxcmd := ctxcmdWord n 2 2 }
    else .next { s with contexts := s.contexts.filter (fun c => c.num != n), ctxcmd := ctxcmdWord n 2 0 }

/-! ## Host queues (R30, R32, R49) -/

/-- A queue of a context has been resumed or enabled again: its waiting records are tried again (R49). -/
def State.retryRecords (s : State) (ctx : Nat) : State := s.modCtx ctx fun c => { c with blocked := false }

/-- The reserved bits of QCTL (R30). -/
def qctlReserved : W64 := ~~~0x3F01

/-- QUEUE_ENABLE: a write of QCTL (R30). With a reserved bit set it changes nothing (R5, log 42). DESIGN CHOICE (log 78): disabling ends a
wait. -/
def execQueueEnable (q : Nat) (v : W64) (s : State) : Host.Outcome State Fault Refusal := accepted s fun s =>
  let on := bitAt v 0
  let h := s.queue q
  if v &&& qctlReserved != 0 then .next s
  else if h.enable then .next (if on then s else s.modQueue q fun h => { h with enable := false, wait := none, read := none })
  else
    let ctx := fld v.toNat 8 6
    if !on then .next (s.modQueue q fun h => { h with ctx })
    else
      let s := s.modQueue q fun h => { HostQueue.reset with base := h.base, size := h.size, enable := true, ctx }
      let s := s.retryRecords ctx
      .next (if (s.ctx? ctx).isSome && 6 ≤ h.size && h.size ≤ 16 then s else s.haltQueue q 7 0 false)

/-- QKICK: Tail is set; the dispatcher looks at the queue after a delay that is not stated (R30, R32). -/
def execQkick (q : Nat) (tail : W32) (s : State) : Host.Outcome State Fault Refusal := accepted s fun s =>
  .next ({ s with freeCtr := s.freeCtr + 1 }.modQueue q fun h => { h with tail, ready := s.wtime + Config.hostDelay s.freeCtr })

/-- QCMD_RESUME (R32, R49). -/
def execQcmdResume (q : Nat) (s : State) : Host.Outcome State Fault Refusal := accepted s fun s =>
  let h := s.queue q
  if !h.halted || haltStays h.cause then .next s
  else .next ((s.modQueue q fun h => { h with halted := false }).retryRecords h.ctx)

/-- The slots that SKIP advances: those of the packet at Head where its header's sequence matches, else one (R32). -/
def State.skipSlots (s : State) (q : Nat) : Nat := match s.dispBytes (s.queue q).ctx (s.slotVa (.host q) (s.queue q).head) 64 with
  | some bs => if pktFld bs 4 4 == (s.queue q).head.toNat then fld (pktFld bs 0 8) 8 4 + 1 else 1
  | none => 1

/-- QCMD_SKIP (R32): past the packet at Head, unless the packet that halted the queue had been accepted. DEDUCED (log 43). -/
def execQcmdSkip (q : Nat) (s : State) : Host.Outcome State Fault Refusal := accepted s fun s =>
  let h := s.queue q
  if !h.halted || haltStays h.cause then .next s
  else
    let n := if h.accepted || h.head == h.tail then 0 else s.skipSlots q
    .next ((s.modQueue q fun h => { h with halted := false, head := h.head + BitVec.ofNat 32 n }).retryRecords h.ctx)

/-! ## Translations and mailboxes (R147, R160, R304) -/

/-- A stack's TLBs, of every level, lose translations. -/
def Stack.dropTlb (k : Stack) (f : TlbEntry → Bool) : Stack :=
  let cut (es : List TlbEntry) : List TlbEntry := es.filter fun e => !f e
  { k with tlb := cut k.tlb, sliceTlb := k.sliceTlb.map cut, micro := k.micro.map cut }

/-- Drop translations from every TLB. -/
def State.dropTlb (s : State) (f : TlbEntry → Bool) : State := { s with stks := s.stks.map fun k => k.dropTlb f }

/-- TLBINV_ONE_PAGE (R304): the page, of any size, that holds the address in TLBADDR. -/
def execTlbinvOnePage (ctx : Nat) (s : State) : Host.Outcome State Fault Refusal := accepted s fun s =>
  let va := s.tlbaddr.toNat
  .next { s.dropTlb fun e => e.ctx == ctx % 64 && va / 2 ^ e.log == e.va / 2 ^ e.log with tlbinv := BitVec.ofNat 64 (ctx % 64 + 256) }

/-- TLBINV_WHOLE_CONTEXT (R304). -/
def execTlbinvWholeContext (ctx : Nat) (s : State) : Host.Outcome State Fault Refusal := accepted s fun s =>
  .next { s.dropTlb fun e => e.ctx == ctx % 64 with tlbinv := BitVec.ofNat 64 (ctx % 64 + 512) }

/-- MBXCTL: the mailbox takes MBXDATA at a beat that is not stated (R160, R304). DEDUCED (log 59). -/
def execMbxctl (strand : W32) (i : Nat) (s : State) : Host.Outcome State Fault Refusal := accepted s fun s =>
  let n := BitVec.ofNat 64 (strand.toNat * 2 ^ 32 + i % 8)
  let r := ({ s with mbxctl := n } : State).fresh
  match r.2.strand? strand.toNat with
  | some t => .next (if t.status == .ended then { s with mbxctl := n }
      else r.2.modStrand t.sid fun t => { t with mbxNew := t.mbxNew ++ [(i % 8, s.mbxdata, t.beat + r.1)] })
  | none => .next { s with mbxctl := n }

/-! ## Pre-emption (R287, R288) -/

/-- PECMD's fields: context, whether one strand is named, that strand. -/
def peFields (w : W64) : Nat × Bool × Nat := (fld w.toNat 0 6, bitAt w 11, fld w.toNat 32 32)

/-- PECMD names this strand. -/
def peNames (w : W64) (t : Strand) : Bool :=
  let f := peFields w
  t.ctx == f.1 && (!f.2.1 || t.sid == f.2.2)

/-- PECMD as a command leaves it: its fields, with Result and Busy. -/
def peWord (w : W64) (result : Nat) (busy : Bool) : W64 :=
  BitVec.ofNat 64 (fld w.toNat 32 32 * 2 ^ 32 + result * 2 ^ 17 + bnat busy * 2 ^ 16 + fld w.toNat 8 4 * 2 ^ 8 + fld w.toNat 0 6)

/-- The command fails with BAD-CONFIG (R288). -/
def State.peBad (s : State) (w : W64) : Bool :=
  let f := peFields w
  (s.ctx? f.1).isNone || s.peaddr.toNat % 4096 != 0 ||
  (f.2.1 && !(s.strands.any fun t => t.status != .ended && peNames w t) && !(s.saved.any (peNames w)))

/-- The reserved bits of PECMD (R288). -/
def pecmdReserved : W64 := 0xFFF0F0C0

/-- Run a PECMD command: ignored while Busy, refused with BAD-CONFIG, also for a reserved bit that is set (R5, R288). -/
def onPecmd (w : W64) (s : State) (f : State → State) : Host.Outcome State Fault Refusal := accepted s fun s =>
  if s.holding.isSome then .next s
  else if w &&& pecmdReserved != 0 || s.peBad w then .next { s with pecmd := peWord w 1 false }
  else .next (f s)

/-- The strands that a HOLD waits for are all held, or gone. -/
def State.holdDone (s : State) (sids : List Nat) : Bool :=
  sids.all fun sid => match s.strand? sid with
    | some t => t.status == .held || t.status == .ended
    | none => true

/-- A HOLD whose strands are all held ends: Busy clears and the context's event is raised (R288). -/
def State.endHold (s : State) : State := match s.holding with
  | none => s
  | some (ctx, sids) =>
    if s.holdDone sids then { s with holding := none, pecmd := peWord s.pecmd 0 false }.raiseCtx ctx evHeld else s

/-- HOLD: the named strands are asked to hold at their pre-emption beats (R287, R288). DEDUCED (log 45). -/
def execHold (w : W64) (s : State) : Host.Outcome State Fault Refusal :=
  onPecmd w s fun s =>
    let named (t : Strand) : Bool := peNames w t && t.status != .ended && t.status != .held
    let ask (t : Strand) : Strand :=
      if !peNames w t then t else if named t && !t.holdReq then { t.askHold with linkHeld := false } else { t with linkHeld := false }
    let sids := (s.strands.filter named).map (·.sid)
    { s with strands := s.strands.map ask, holding := some ((peFields w).1, sids), pecmd := peWord w 0 true }.endHold

/-- Every unit of a strand is ACTIVE (R321). DEDUCED (log 44). -/
def State.unitsLive (s : State) (t : Strand) : Bool := t.cores.all fun c => s.coreLive t.stack c.phys t.fp.mask

/-- A held strand goes on in place at its beat, and reads its conditions, fetches and translates afresh, unless a unit of it is not ACTIVE (R287, R288, R321). -/
def State.resumeStrand (s : State) (t : Strand) : State :=
  if t.status == .held && s.unitsLive t then ((s.modStrand t.sid fun t => t.resumeAt (s.stack t.stack).cyc).lookWaitsAfresh t.sid).afresh t.sid else s

/-- RESUME (R288). -/
def execPecmdResume (w : W64) (s : State) : Host.Outcome State Fault Refusal :=
  onPecmd w s fun s =>
    let held := s.strands.filter fun t => peNames w t && t.status == .held
    if held.isEmpty then { s with pecmd := peWord w 2 false }
    else { held.foldl (fun s t => s.resumeStrand t) s with pecmd := peWord w 0 false }

/-! ## Images (R289) -/

/-- The four words of a strand's footprint record, with the stride and pin as last requested (R25, R66). -/
def Strand.record (t : Strand) : List Nat :=
  let f := t.fp
  [t.reqStride.log2 + (match t.reqPin with
     | some p => 8 + 16 * p
     | none => 0) + f.cores * 2 ^ 8 + f.mask.toNat * 2 ^ 16 + bnat f.me * 2 ^ 20 + bnat f.te * 2 ^ 21 + bnat f.re * 2 ^ 22 +
     bnat f.bte * 2 ^ 23 + f.groups * 2 ^ 24,
   f.planes + f.banks * 2 ^ 8 + f.acc * 2 ^ 16 + f.slots * 2 ^ 24, f.share, 0]

/-- The size of an image: a multiple of 4 KiB that depends only on the footprint record, within the bound of R288. -/
def recordSize (r : List Nat) : Nat :=
  4096 * (1 + Config.imagePages (r.getD 0 0) (r.getD 1 0) (r.getD 2 0) 0 % (16 + 1344 * fld (r.getD 0 0) 8 7))

/-- The size of a strand's image: that of the record its header holds. -/
def Strand.imageSize (t : Strand) : Nat := recordSize t.record

/-- What PESIZE reads (R288). -/
def State.pesize (s : State) : Nat :=
  if s.holding.isSome then 0
  else ((s.strands.filter fun t => peNames s.pecmd t && t.status == .held).map Strand.imageSize).foldl (· + ·) 0

/-- The bytes of an image: header, check word, sections (R289). `num` numbers the image among all written. -/
def Strand.imageBytes (t : Strand) (num following : Nat) : List Byte :=
  let size := t.imageSize
  let body := (List.range (size / 8 - 8)).map fun i => (Config.imageWord num i).toNat
  let r := t.record
  ([0x54494D47 + 2 ^ 32, size, r.getD 0 0 + r.getD 1 0 * 2 ^ 32, r.getD 2 0 + r.getD 3 0 * 2 ^ 32, t.beat,
    t.sid * 2 ^ 32 + following, t.stack, body.foldl (· + ·) 0 % 2 ^ 64] ++ body).flatMap (bytesOf 8)

/-- Write bytes at a virtual address of a context at device scope, if every page may be written. -/
def State.dispStoreBytes (s : State) (ctx : Nat) (va : W64) (bs : List Byte) : Option State :=
  ((cellsAt 0 bs).mapM fun c => (s.dispAt ctx (va + BitVec.ofNat 64 c.1) true).map fun b => (b, c.2)).map fun cells => s.busWrite cells

/-- What an image holds of a strand: everything but its instruction caches and fills, which begin afresh (R91, R287, R289). -/
def Strand.imaged (t : Strand) : Strand :=
  { t with
    flip := none, decided := none, linkHeld := false, fills := [],
    cores := t.cores.map fun co => { co with l1 := [], cl := co.cl.map fun c => { c with l0 := [], gone := [] } } }

/-- A strand's image has been written: it leaves the device, its slots and space in the next window of its stack (R58, R60, R288).
DESIGN CHOICE (log 64): that is a departure, after which the strands of its stack may speed up. What stands on its place until then has
a number of its own that no identifier can be. -/
def State.saveStrand (s : State) (t : Strand) : State :=
  let left := 2 ^ 32 + s.nextNum
  let s := s.modStack t.stack fun k => { k with departed := k.departed ++ [left] }
  { s.modStrand t.sid fun u => { u with sid := left, status := .ended } with saved := s.saved ++ [t.imaged], nextNum := s.nextNum + 1 }

/-- Write the images of strands one after another. -/
def State.writeImages (s : State) (ctx : Nat) (va : W64) : List Strand → Option State
  | [] => some s
  | t :: ts =>
    match s.dispStoreBytes ctx va (t.imageBytes s.nextNum ts.length) with
    | none => none
    | some s' => { s' with images := s'.images ++ [(s'.nextNum, t.imaged)], nextNum := s'.nextNum + 1 }.writeImages ctx
        (va + BitVec.ofNat 64 t.imageSize) ts

/-- SAVE (R288). A buffer that does not translate refuses the command, and nothing is written. -/
def execSave (w : W64) (s : State) : Host.Outcome State Fault Refusal :=
  onPecmd w s fun s =>
    let held := s.strands.filter fun t => peNames w t && t.status == .held
    if held.isEmpty then { s with pecmd := peWord w 2 false }
    else match s.writeImages (peFields w).1 s.peaddr held with
      | none => { s with pecmd := peWord w 1 false }
      | some s => { held.foldl (fun s t => s.saveStrand t) s with pecmd := peWord w 0 false }

/-- The strand whose state an image holds, by the words of its sections: the latest that SAVE wrote so, or one of another device
(R289). -/
def State.imageStrand (s : State) (fp : Footprint) (w body : Nat → Nat) (n : Nat) : Strand :=
  match s.images.reverse.find? fun x => (List.range n).all fun i => (Config.imageWord x.1 i).toNat == body i with
  | some x => x.2
  | none => foreignStrand fp w

/-- Read one image: the strand whose state it holds, its size and its Following field, if its magic number, version, size and check
word are right (R289). -/
def State.readImage (s : State) (ctx : Nat) (va : W64) : Option (Strand × Nat × Nat) :=
  match s.dispBytes ctx va 64 with
  | none => none
  | some h =>
    let w (i : Nat) : Nat := pktFld h (8 * i) 8
    let r := [w 2 % 2 ^ 32, w 2 / 2 ^ 32, w 3 % 2 ^ 32, w 3 / 2 ^ 32]
    match footprintOf (r.getD 0 0) (r.getD 1 0) (r.getD 2 0) (r.getD 3 0), s.dispBytes ctx (va + 64) (recordSize r - 64) with
    | some fp, some bs =>
      let body (i : Nat) : Nat := pktFld bs (8 * i) 8
      let n := recordSize r / 8 - 8
      let sum := (List.range n).foldl (fun a i => a + body i) 0
      if w 0 % 2 ^ 48 == 0x54494D47 + 2 ^ 32 && w 1 == recordSize r && sum % 2 ^ 64 == w 7 then
        some (s.imageStrand fp w body n, w 1, w 5 % 2 ^ 32)
      else none
    | _, _ => none

/-- Read the images of a RESTORE: on from each to the next while Following is nonzero; each belongs to the context. -/
def State.readImages (s : State) (ctx : Nat) (va : W64) : Nat → Option (List Strand)
  | 0 => none
  | n + 1 => match s.readImage ctx va with
    | none => none
    | some (t, size, more) =>
      if t.ctx != ctx then none
      else if more == 0 then some [t] else (s.readImages ctx (va + BitVec.ofNat 64 size) n).map fun ts => t :: ts

/-- The launch of a restored strand that belongs to no task of the device. DESIGN CHOICE (log 64): in the lowest class. -/
def Strand.loneLaunch (t : Strand) : Launch :=
  { ctx := t.ctx, from_ := .redo 0, image := t.image, param := t.param, ctrbase := t.ctrbase, count := 1, det := t.det, tagck := t.tagck,
    serial := t.serial, noWait := false, cls := 7, mbx := t.mbx, seed := t.seed }

/-- A restored strand enters the waiting set (R22, R288). DESIGN CHOICE (log 64): one that is on the device, or waits already, is left
as it is; one that was not saved, so that its launch is not open, runs without a record, in the lowest class; one whose launch is open
waits in the class that launch started in, its waiting counted from the RESTORE and the context's floor left aside. -/
def State.enterImage (s : State) (t : Strand) : State :=
  if (s.strands.any fun u => u.sid == t.sid && u.status != .ended) || s.waiting.any fun w => w.image.any fun u => u.sid == t.sid then s
  else
    let task := if s.saved.any fun u => u.sid == t.sid then s.tasks.find? fun k => k.num == t.task else none
    let from_ : Launch × Header × Strand := match task with
      | some k => ({ k.launch with noWait := false }, k.hdr, t)
      | none => (t.loneLaunch, { fp := t.fp, text := 0, textLen := 0, data := 0, dataLen := 0, entries := [] }, { t with task := 0 })
    let w : Waiting := { num := s.nextNum, launch := from_.1, cls := from_.1.cls, accepted := s.wtime, raisedAt := s.wtime,
                         hdr := from_.2.1, image := some from_.2.2, reserve := false }
    { s with saved := s.saved.filter (fun u => u.sid != t.sid), waiting := s.waiting ++ [w], nextNum := s.nextNum + 1,
             nextSid := max s.nextSid (t.sid + 1) }

/-- RESTORE (R288, R289). -/
def execRestore (w : W64) (s : State) : Host.Outcome State Fault Refusal :=
  onPecmd w s fun s =>
    let f := peFields w
    let pick := (s.readImages f.1 s.peaddr 65536).map fun ts => if f.2.1 then ts.filter fun t => t.sid == f.2.2 else ts
    match pick with
    | none => { s with pecmd := peWord w 3 false }
    | some [] => { s with pecmd := peWord w 3 false }
    | some ts => { ts.foldl (fun s t => s.enterImage t) s with pecmd := peWord w 0 false }

end Sys2Proof.Machine
end

