-- ==== Sys2Proof/Machine/Resets.lean ====
section
/-! DEFINITION. Resets, the loss and return of the host link, power loss, and the thermal safety trip (R306 to R309, R319,
R322). A reset takes effect on the stacks at once, and ends at a time that is not stated (log 48). -/

namespace Sys2Proof.Machine

/-! ## Compute and stack resets (R306) -/

/-- A strand ended by a reset: its launch's record takes TORN-DOWN, and nothing that it had in flight performs.
DESIGN CHOICE (log 48). -/
def State.resetStrand (s : State) (t : Strand) : State :=
  let shut (k : Task) : Task := if k.num == t.task then { k with record := { k.record with status := 6 }, expected := none } else k
  let s := ({ s with tasks := s.tasks.map shut }.noteEnd t none)
  { s with strands := s.strands.filter fun u => u.sid != t.sid }

/-- One stack's SRAM, registers, caches and weave table are cleared; its DRAM, its envelope and its crash log stay.
DEDUCED (log 49). -/
def Stack.cleared (k : Stack) : Stack :=
  { Stack.reset with up := k.up, point := k.point, pointPending := k.pointPending, ceiling := k.ceiling, thermal := k.thermal,
                     refused := k.refused, pwrenv := k.pwrenv, evalAt := k.evalAt, crash := k.crash, crashcnt := k.crashcnt }

/-- Reset one stack. -/
def State.resetStack (s : State) (k : Nat) : State :=
  let s := (s.strands.filter fun t => t.stack == k && t.status != .ended).foldl (fun s t => s.resetStrand t) s
  { s with strands := s.strands.filter (fun t => t.stack != k), flight := s.flight.filter fun f => f.stack != k }.modStack k Stack.cleared

/-- Reset every stack. -/
def State.resetCompute (s : State) : State := (List.range 4).foldl State.resetStack s

/-- Begin a reset of stacks: they are cleared, and answer nothing until it ends; a function-level one ends within 10,000,000 ns
(R306, R307, R311). One asked for during a function-level reset is discarded, and nothing resets what has no power. -/
def State.beginReset (s : State) (ks : List Nat) (whole : Bool) : State :=
  if s.wholeReset || !s.powered then s
  else
    let s := ks.foldl State.resetStack s
    let s := ks.foldl (fun s k => s.modStack k fun t => { t with up := false }) s
    let parts := match s.resetting with
      | some r => r.parts ++ ks
      | none => ks
    let d := Config.hostDelay s.freeCtr
    { s with resetting := some { parts, whole, stop := s.wtime + if whole then d % 10000001 else d }, freeCtr := s.freeCtr + 1 }

/-- The registers of the dispatcher and of the host's windows, the contexts and the queues at their reset values (R303, R306). -/
def State.clearHost (s : State) : State :=
  let r := State.reset
  { s with
    contexts := [], queues := r.queues, rr := r.rr, waiting := [], tasks := [], replays := [], after := [], saved := [],
    ctxtab := r.ctxtab, ctxcmd := r.ctxcmd, pecmd := r.pecmd, peaddr := r.peaddr, holding := none, drefv := r.drefv,
    drefc := r.drefc, tlbaddr := r.tlbaddr, tlbinv := r.tlbinv, mbxdata := r.mbxdata, mbxctl := r.mbxctl,
    resetcmd := r.resetcmd, linkLost := false, linkHolding := false, linkgrace := r.linkgrace, lostAt := none,
    devevt := 0, ctxevt := r.ctxevt, pwrcmd := r.pwrcmd, errcfg := r.errcfg, exports := r.exports, retentionLost := [] }

/-- A stack's registers in the host's windows at their reset values: its envelope, what the governor shows, its crash log
(R273, R274, R285). -/
def Stack.clearHost (k : Stack) : Stack :=
  { k with pwrenv := pwrenvReset, refused := false, point := Stack.reset.point, pointPending := [], ceiling := Stack.reset.ceiling,
           thermal := Stack.reset.thermal, crash := [], crashcnt := 0 }

/-- A reset ends: its stacks run again, and a function-level one has reset the function's registers (R306, R307). After a thermal trip
the stacks stay off (R322). -/
def State.endReset (s : State) : State := match s.resetting with
  | none => s
  | some r =>
    let s := { r.parts.foldl (fun s k => s.modStack k fun t => { t with up := true }) s with resetting := none }
    if r.whole then
      { s.clearHost with stks := s.stks.map Stack.clearHost, power := s.power.filter fun u => u.1 == 2 && s.tripped.contains u.2.1 }
    else s

/-- A reset that is under way has come to its end. -/
def State.resetOver (s : State) : Bool := s.resetting.any fun r => r.stop ≤ s.wtime

/-- STACK_RESET (R306). -/
def execStackReset (k : Nat) (s : State) : Host.Outcome State Fault Refusal :=
  .next (if k < 4 then s.beginReset [k] false else s)

/-- COMPUTE_RESET (R306). -/
def execComputeReset (s : State) : Host.Outcome State Fault Refusal := .next (s.beginReset (List.range 4) false)

/-- FUNCTION_LEVEL_RESET: compute power is cut, and when the reset ends the stacks run again, with every context, queue, event, power
and host-window register at its reset value (R306, R307). -/
def execFunctionLevelReset (s : State) : Host.Outcome State Fault Refusal := .next (s.beginReset (List.range 4) true)

/-- What survives the loss of every volatile state: the island's non-volatile storage and the host's own memory. The model's
inputs, outputs and counter of free values are no part of the device and stay. DEDUCED (log 50). -/
def State.cold (s : State) : State :=
  { State.reset with
    mem := s.mem.filter (fun c => isHost c.1), fwRunning := s.fwRunning, fwCounter := s.fwCounter, otsIndex := s.otsIndex,
    attested := s.attested, hostOut := s.hostOut, hostBad := s.hostBad, sent := s.sent, inputs := s.inputs, freeCtr := s.freeCtr,
    nextSid := s.nextSid, nextNum := s.nextNum, images := s.images }

/-- COLD_RESET (R306). -/
def execColdReset (s : State) : Host.Outcome State Fault Refusal := .next s.cold

/-- POWER_LOSS: all volatile state is gone, and nothing runs until a cold reset; a one-time-key index that was committed is
never used again (R319). DEDUCED (log 51). -/
def execPowerLoss (s : State) : Host.Outcome State Fault Refusal :=
  let s := s.cold
  .next { s with stks := s.stks.map (fun k => { k with up := false }), linkUp := false, powered := false }

/-- A function-level reset is superseded: the stacks run again, and nothing more of it is done (R307). -/
def State.superseded (s : State) : State := match s.resetting with
  | none => s
  | some r =>
    if r.whole then { r.parts.foldl (fun s k => s.modStack k fun t => { t with up := true }) s with resetting := none } else s

/-- ISLAND_RESET: island state, which the dispatcher's is, links and routing tables are cleared; compute state, DRAM and fences stay
(R292, R306). DESIGN CHOICE (log 69). -/
def execIslandReset (s : State) : Host.Outcome State Fault Refusal :=
  let r := State.reset
  .next { s.superseded.clearHost with
    routes := r.routes, ports := r.ports, portReplays := r.portReplays, doorbells := r.doorbells, errs := [], linkUp := s.powered }

/-! ## The host link (R308, R309) -/

/-- A write in flight goes to host memory. -/
def Flight.toHost (f : Flight) : Bool := f.cells.any fun c => isHost c.1

/-- The addresses at which an entry reads or writes memory. -/
def ElOp.sites : ElOp → List W64
  | .ecopy mode d a n => (if mode == 2 then [] else wordAddrs d n) ++ (if mode == 1 then [] else wordAddrs a n)
  | .enq a hdr _ => wordAddrs a (64 * (fld hdr.toNat 8 4 + 1))
  | .mark => []
  | .fence _ => []
  | o => [o.addr]

/-- The first address of host memory at which an entry acts. -/
def State.hostSite (s : State) (q : QView) (e : Entry) : Option W64 := e.op.sites.find? fun a => match s.elTarget q.st q.co.phys a false with
  | .ok (.bus b) => isHost b
  | _ => false

/-- An entry's access has begun and is not complete: it has drawn its delay, or performs, or its data has still to arrive. -/
def Entry.open_ (e : Entry) : Bool := !e.op.marks && (e.ready != 0 || e.level != 0)

/-- Every access of host memory that has begun and is not complete fails with HOST-ABSENT, and no store that is in flight there
performs (R308). -/
def State.failHostEntries (s : State) : State :=
  let one (u : State) (r : CRef) (n : QName) (e : Entry) : State := match s.qview r, u.qview r with
    | some q, some q' => (match s.hostSite q e with
      | some a => q'.fail u n e (cHost, 0) a
      | none => u)
    | _, _ => u
  let all (u : State) (r : CRef) : State := match s.qview r with
    | none => u
    | some q => [QName.lq, QName.sq].foldl (fun u n => ((q.cl.queue n).entries.filter Entry.open_).foldl (fun u e => one u r n e) u) u
  (s.strands.filter fun t => t.status != .ended).foldl (fun u t => t.contexts.foldl all u)
    { s with flight := s.flight.filter fun f => !f.toHost }

/-- SURPRISE_LINK_LOSS: LINKSTAT.Lost and DEVEVT bit 0 are set, open accesses of host memory fail, and every host queue halts (R308).
DEDUCED (log 46). -/
def execSurpriseLinkLoss (s : State) : Host.Outcome State Fault Refusal :=
  if !s.linkUp then .fault .noOccasion
  else
    let s := { s.failHostEntries with linkUp := false, linkLost := true, lostAt := some s.wtime }.raiseDev 0
    .next ((List.range 64).foldl (fun s n => s.haltUnnamed n 9) s)

/-- LINKGRACE_EXPIRY: every admitted strand is held at its pre-emption beat, and no launch is admitted (R308).
DEDUCED (log 47). -/
def execLinkgraceExpiry (s : State) : Host.Outcome State Fault Refusal :=
  match s.lostAt with
  | none => .fault .noOccasion
  | some t0 =>
    if s.linkHolding || s.wtime < t0 + s.linkgrace.toNat then .fault .noOccasion
    else
      let ask (t : Strand) : Strand :=
        if t.status == .ended || t.status == .held || t.holdReq then t else { t.askHold with linkHeld := true }
      .next { s with strands := s.strands.map ask, linkHolding := true }

/-- LINK_RETRAIN: the link is back, and accesses to host memory are served again (R309). -/
def execLinkRetrain (s : State) : Host.Outcome State Fault Refusal :=
  if s.linkUp then .fault .noOccasion else .next { s with linkUp := true }

/-- LINKCMD_RESUME: the strands held by link loss go on, and so do the records that were kept (R308, R309). -/
def execLinkcmdResume (s : State) : Host.Outcome State Fault Refusal := accepted s fun s =>
  let held := s.strands.filter fun t => t.linkHeld
  let s := held.foldl (fun s t => s.resumeStrand t) s
  let free (t : Strand) : Strand := if t.linkHeld then { t with linkHeld := false, holdReq := false, holdAt := none } else t
  .next { s with strands := s.strands.map free, linkHolding := false, lostAt := none }

/-! ## The thermal safety trip (R322) -/

/-- A junction sensor has reached 115 °C, and the trip that this brings does not stand on every stack (R322). -/
def State.overheated (s : State) : Bool := (List.range 4).any (fun k => decide (115 ≤ Config.junction k s.wtime)) &&
  (List.range 4).any fun k => s.powerOf 2 k != .off || !s.tripped.contains k

/-- THERMAL_SAFETY_TRIP: every stack goes to OFF, and every strand ends as in a compute reset. -/
def execThermalSafetyTrip (s : State) : Host.Outcome State Fault Refusal :=
  let s := s.resetCompute
  let rest := s.power.filter fun p => p.1 != 2
  .next ({ s with power := (List.range 4).map (fun k => (2, k, Power.off)) ++ rest, tripped := [0, 1, 2, 3] }.raiseDev 1)

end Sys2Proof.Machine
end

