-- ==== Sys2Proof/Machine/PowerOps.lean ====
section
/-! DEFINITION. The envelope, the governor, energy, droop, power states, and counted errors and fences (R271 to R280, R290 to
R293, R320, R321). -/

namespace Sys2Proof.Machine

/-! ## The envelope and the governor (R272 to R275, R279) -/

/-- A PWRENV value is refused (R273). -/
def pwrenvBad (w : W64) : Bool :=
  let n := w.toNat
  let lo := fld n 0 4
  let hi := fld n 4 4
  let d := fld n 8 4
  fld n 12 4 != 0 || fld n 52 12 != 0 || hi < lo || d < lo || hi < d || fld n 32 8 < 60 || 105 < fld n 32 8

/-- PWRENV (R273). -/
def execPwrenv (k : Nat) (w : W64) (s : State) : Host.Outcome State Fault Refusal := accepted s fun s =>
  .next (s.modStack k fun t => if pwrenvBad w then { t with refused := true } else { t with pwrenv := w, refused := false })

/-- The thermal stretch after an evaluation (R279). -/
def thermalNext (t sensor throttle : Nat) : Nat :=
  if throttle < sensor then min 16 (t + 1) else if sensor + 3 ≤ throttle then max 8 (t - 1) else t

/-- The device's average power in W: the energy of the last 1,000 meterings of 1,000 ns (R275). DEDUCED (log 56). -/
def State.powerAvg (s : State) : Nat := s.powerHist.foldl (· + ·) 0

/-- A stack's Ceiling after an evaluation under a cap (R273, R275). DEDUCED (log 54). -/
def ceilingNext (c cap avg : Nat) : Nat :=
  if cap == 0 then 15 else if cap < avg then c - 1 else if 10 * avg < 9 * cap then min 15 (c + 1) else c

/-- The lowest point that a declaration needs, or 16 (R275): the least k with 0.6 + 0.06 k at least a·S·s ÷ 8 t. -/
def declPoint (now stretch : Nat) (t : Strand) (d : Declaration) : Nat :=
  if d.due ≤ now then 16
  else ((List.range 16).find? fun k => d.left * t.stride * stretch * 100 ≤ 8 * (d.due - now) * (60 + 6 * k)).getD 16

/-- The declarations of a stack. -/
def State.declared (s : State) (k : Nat) : List (Strand × Declaration) :=
  (s.strands.filter fun t => t.admittedOn k).filterMap fun t => t.decl.map fun d => (t, d)

/-- A point is chosen, to take effect at a time; changes chosen before take effect before it. The choice of the point that stands last
is no change (R272). -/
def Stack.decide (k : Stack) (point at_ : Nat) : List (Nat × Nat) :=
  let last := k.pointPending.getLast?.getD (k.point, 0)
  if last.1 == point then k.pointPending else k.pointPending ++ [(point, max at_ last.2)]

/-- GOVERNOR_EVALUATION (R245, R275, R279). -/
def execGovernorEvaluation (k : Nat) (s : State) : Host.Outcome State Fault Refusal :=
  let t := s.stack k
  if 4 ≤ k || s.wtime < t.evalAt then .fault .noOccasion
  else
    let env := t.pwrenv.toNat
    let thermal := thermalNext t.thermal (Config.junction k s.wtime) (fld env 32 8)
    let ceiling := ceilingNext t.ceiling (fld (s.stack 0).pwrenv.toNat 16 16) s.powerAvg
    let top := min (fld env 4 4) ceiling
    let ds := s.declared k
    let needs := ds.map fun x => declPoint s.wtime thermal x.1 x.2
    let want := if ds.isEmpty then fld env 8 4 else max (needs.foldl max 0) (fld env 0 4)
    let point := min want top
    let s := ds.foldl (fun s x =>
      if top < declPoint s.wtime thermal x.1 x.2 && !x.2.risk then
        (s.raiseA x.1.sid cRisk x.2.core x.2.cl).modStrand x.1.sid fun t => { t with decl := t.decl.map fun d => { d with risk := true } }
      else s) s
    let r := s.fresh
    .next (r.2.modStack k fun t =>
      { t with thermal, ceiling, evalAt := s.wtime + 1000, pointPending := t.decide point (s.wtime + 1 + r.1 % 2000) })

/-- OPERATING_POINT_CHANGE: a chosen point takes effect, within 2,000 ns of its choice (R272). -/
def execOperatingPointChange (k : Nat) (s : State) : Host.Outcome State Fault Refusal :=
  match (s.stack k).pointPending with
  | (p, at_) :: rest =>
    if s.wtime < at_ then .fault .noOccasion else .next (s.modStack k fun t => { t with point := p, pointPending := rest })
  | [] => .fault .noOccasion

/-- The point a stack runs at: the lowest of the old and the new until a change takes effect (R272). -/
def Stack.runPoint (k : Stack) : Nat := (k.pointPending.map (·.1)).foldl min k.point

/-! ## Energy (R276, R277) -/

/-- Charge a context (R277): the quota's exhaustion, and its event once. -/
def State.charge (s : State) (ctx n : Nat) : State :=
  match s.ctx? ctx with
  | none => s
  | some c =>
    let used := c.enused + BitVec.ofNat 64 n
    let full := c.quota != 0 && c.quota.toNat ≤ used.toNat
    let s := s.modCtx ctx fun c =>
      { c with enused := used, enover := if c.exhausted then c.enover + BitVec.ofNat 64 n else c.enover, exhausted := full }
    if full && !c.exhausted then s.raiseCtx ctx evQuota else s

/-- One stack's metered energy goes to its strands in proportion to their loads; an inexact share is rounded either way. -/
def State.meter (s : State) (k mj : Nat) : State :=
  let ts := s.strands.filter fun t => t.admittedOn k
  let total := (ts.map fun t => t.load16 t.level).foldl (· + ·) 0
  if total == 0 then s
  else ts.foldl (fun s t =>
    let x := mj * t.load16 t.level
    let up := bnat (x % total != 0 && Config.roundsUp s.freeCtr)
    { s with freeCtr := s.freeCtr + 1 }.charge t.ctx (x / total + up)) s

/-- ENERGY_METERING: the energy of each stack named, in mJ, over the last 1,000 ns (R275, R277). -/
def execEnergyMetering (mj : List (Nat × Nat)) (s : State) : Host.Outcome State Fault Refusal :=
  let total := (mj.map (·.2)).foldl (· + ·) 0
  .next (mj.foldl (fun s e => s.meter e.1 e.2) { s with powerHist := (total :: s.powerHist).take 1000 })

/-! ## Droop (R278) -/

/-- The two bits of a cycle in a signature, by the block steps that started in it. -/
def droopBucket (n : Nat) : Nat := if n == 0 then 0 else if n ≤ 15 then 1 else if n ≤ 47 then 2 else 3

/-- A signature becomes the most recent of a table of 64. -/
def droopStore (sig : W32) (ts : List W32) : List W32 := (sig :: ts).take 64

/-- DROOP_DETECTOR_TRIP (R278). -/
def execDroopDetectorTrip (k : Nat) (s : State) : Host.Outcome State Fault Refusal :=
  .next (s.modStack k fun t => { t with droop := droopStore t.sig t.droop, stretch := some 256 })

/-- DROOP_SIGNATURE_MATCH (R278). -/
def execDroopSignatureMatch (k : Nat) (s : State) : Host.Outcome State Fault Refusal :=
  let t := s.stack k
  if !t.droop.contains t.sig then .fault .noOccasion
  else .next (s.modStack k fun t =>
    { t with droop := t.sig :: t.droop.erase t.sig, stretch := some (max 64 (t.stretch.getD 0)) })

/-- DROOP_STRETCH_END (R278). -/
def execDroopStretchEnd (k : Nat) (s : State) : Host.Outcome State Fault Refusal :=
  if (s.stack k).stretch == some 0 then .next (s.modStack k fun t => { t with stretch := none }) else .fault .noOccasion

/-- DROOPCLR (R278). -/
def execDroopclr (m : BitVec 4) (s : State) : Host.Outcome State Fault Refusal := accepted s fun s =>
  .next ((List.range 4).foldl (fun s k => if bitAt m k then s.modStack k fun t => { t with droop := [] } else s) s)

/-! ## Power states (R320, R321) -/

/-- How active a state is. -/
def Power.rank : Power → Nat
  | .active => 3
  | .gated => 2
  | .retain => 1
  | .off => 0

/-- The code of a state in PWRCMD. -/
def Power.code (p : Power) : Nat := 3 - p.rank

/-- The number of units of a kind. -/
def unitCount (kind : Nat) : Nat := match kind with
  | 0 => 1024
  | 1 => 256
  | 2 => 4
  | 3 => 1
  | _ => 0

/-- The unit that contains a unit. -/
def outerUnit (kind unit : Nat) : Option (Nat × Nat) := match kind with
  | 0 => some (1, unit / 4)
  | 1 => some (2, unit / 64)
  | 2 => some (3, 0)
  | _ => none

/-- The units a unit contains. -/
def innerUnits (kind unit : Nat) : List (Nat × Nat) := match kind with
  | 1 => (List.range 4).map fun i => (0, 4 * unit + i)
  | 2 => (List.range 64).map fun i => (1, 64 * unit + i)
  | 3 => (List.range 4).map fun i => (2, i)
  | _ => []

/-- A strand holds something on a unit. -/
def Strand.onUnit (t : Strand) (kind unit : Nat) : Bool := match kind with
  | 0 => t.cores.any fun c => t.stack * 64 + c.phys == unit / 4 && bitAt t.fp.mask (unit % 4)
  | 1 => t.cores.any fun c => t.stack * 64 + c.phys == unit
  | 2 => t.stack == unit
  | _ => true

/-- How active a unit is: no more than any unit that contains it (R321, R322). -/
def State.rankOf (s : State) : Nat → Nat → Nat → Nat
  | 0, kind, unit => (s.powerOf kind unit).rank
  | n + 1, kind, unit => match outerUnit kind unit with
    | some o => min (s.powerOf kind unit).rank (s.rankOf n o.1 o.2)
    | none => (s.powerOf kind unit).rank

/-- A sensor stands at its stack's Throttle value or above it. -/
def State.hot (s : State) : Bool := (List.range 4).any fun k => fld (s.stack k).pwrenv.toNat 32 8 ≤ Config.junction k s.wtime

/-- A command would take a stack out of the OFF that a trip has left it in, but by ACTIVE with every sensor below its Throttle value
(R322). -/
def State.returnsEarly (s : State) (kind unit : Nat) (p : Power) : Bool :=
  kind == 2 && s.tripped.contains unit && p != .off && (p != .active || s.hot)

/-- The result of a PWRCMD write (R321): BAD-CONFIG for a unit that is not there, a nesting broken, or a stack that may not return yet
after a trip (R322); BUSY with strands in the way. DEDUCED (log 52). DEDUCED (log 53). -/
def State.pwrResult (s : State) (kind unit : Nat) (p : Power) : Nat :=
  let nested := (match outerUnit kind unit with
    | some o => p.rank ≤ s.rankOf 3 o.1 o.2
    | none => true) && (innerUnits kind unit).all fun i => s.rankOf 3 i.1 i.2 ≤ p.rank
  let holders := s.strands.filter fun t => t.onUnit kind unit
  let admitted := holders.filter fun t => t.status != .held && t.status != .ended
  if unitCount kind ≤ unit || !nested || s.returnsEarly kind unit p then 1
  else if (p != .active && !admitted.isEmpty) || (p == .off && !holders.isEmpty) then 2
  else 0

/-- Mark elements of a context as struck. `s0` and `p0` hold nothing, and neither does the head of an empty queue (R290). -/
def Cluster.strike (c : Cluster) (es : List Nat) : Cluster :=
  { c with struck := (c.struck ++ es.filter fun e => e != 0 && e != 32 && (e < 64 || !(vget c.q (e - 64) []).isEmpty)).eraseDups }

/-- Strike the `i`-th line of a cache. -/
def strikeLine (ls : List Line) (i : Nat) : List Line := ls.modify i fun l => { l with bad := true }

/-- Mark element `e` of what a core keeps for a strand as struck: of the context of cluster `k`, the format table, a shape slot by its
physical number, a word of a configuration plane, or a line of the cluster's L0 or of the core's L1 (R10, R290). DESIGN CHOICE (log 68):
their numbers. -/
def Core.strike (c : Core) (k e : Nat) : Core :=
  if e < 68 then c.modCl k fun x => x.strike [e]
  else if 84 ≤ e && e < 116 then match c.units.shapes.findIdx? (· == e - 84) with
    | some i => { c with marks := c.marks ++ [84 + i] }
    | none => c
  else if 116 ≤ e && e % 8 == 7 then c.modCl k fun x => { x with l0 := strikeLine x.l0 ((e - 119) / 8) }
  else if 116 ≤ e && e % 8 == 3 then { c with l1 := strikeLine c.l1 ((e - 123) / 8) }
  else { c with marks := c.marks ++ [e] }

/-- A cluster leaves RETAIN with lost state (R293): what it holds is poisoned, the strands on it take RETENTION-LOSS, and the host is
told which. -/
def State.retentionLoss (s : State) (unit : Nat) : State :=
  let s := { s with retentionLost := s.retentionLost ++ [unit] }.raiseDev 3
  (s.strands.filter fun t => t.onUnit 0 unit && t.status != .ended).foldl (fun s t =>
    match (List.range t.cores.length).find? fun n => (t.cores[n]?.map (·.phys)) == some (unit / 4 % 64) with
    | some n => (s.modStrand t.sid fun t => t.modCl n (unit % 4) fun c => c.strike (List.range 68)).raiseA t.sid cRetain n (unit % 4)
    | none => s) s

/-- The clusters of a unit. -/
def clustersOf (kind unit : Nat) : List Nat := match kind with
  | 0 => [unit]
  | 1 => (List.range 4).map (4 * unit + ·)
  | 2 => (List.range 256).map (256 * unit + ·)
  | _ => List.range 1024

/-- A cluster that leaves RETAIN is checked: its parity may find lost state (R293, R321). -/
def State.parityCheck (s : State) (unit : Nat) : State :=
  let lost := Config.retentionFails s.freeCtr
  let s : State := { s with freeCtr := s.freeCtr + 1 }
  if lost then s.retentionLoss unit else s

/-- Move a unit to a state. Every cluster of it that was in RETAIN, by itself or by what contains it, and is not so any more is checked
(R293). -/
def State.pwrMove (s : State) (kind unit : Nat) (p : Power) : State :=
  let result := s.pwrResult kind unit p
  let retained := (clustersOf kind unit).filter fun c => s.rankOf 3 0 c == Power.retain.rank
  let s := { s with pwrcmd := BitVec.ofNat 64 (result * 2 ^ 18 + p.code * 2 ^ 16 + kind % 4 * 2 ^ 12 + unit % 1024) }
  if result != 0 then s
  else
    let rest := s.power.filter fun u => !(u.1 == kind && u.2.1 == unit)
    let s := { s with power := if p == .active then rest else (kind, unit, p) :: rest,
                      tripped := s.tripped.filter fun k => !(p == .active && kind == 2 && unit == k) }
    (retained.filter fun c => s.rankOf 3 0 c != Power.retain.rank).foldl State.parityCheck s

/-- ACTIVE (R293, R321, R322). -/
def execActive (kind unit : Nat) (s : State) : Host.Outcome State Fault Refusal := accepted s fun s => .next (s.pwrMove kind unit .active)
/-- GATED (R321). -/
def execGated (kind unit : Nat) (s : State) : Host.Outcome State Fault Refusal := accepted s fun s => .next (s.pwrMove kind unit .gated)
/-- RETAIN (R321). -/
def execRetain (kind unit : Nat) (s : State) : Host.Outcome State Fault Refusal := accepted s fun s => .next (s.pwrMove kind unit .retain)
/-- OFF (R321). -/
def execOff (kind unit : Nat) (s : State) : Host.Outcome State Fault Refusal := accepted s fun s => .next (s.pwrMove kind unit .off)

/-! ## Counted errors and fences (R290, R292) -/

/-- ERRCFG: refused with a field of zero or a reserved bit (R292). -/
def execErrcfg (w : W64) (s : State) : Host.Outcome State Fault Refusal := accepted s fun s =>
  let n := w.toNat
  if fld n 48 16 != 0 || fld n 8 24 != 0 || fld n 32 16 == 0 || fld n 0 8 == 0 then .next s else .next { s with errcfg := w }

/-- FENCECLR (R303). With a reserved bit set it changes nothing (R5, log 42). -/
def execFenceclr (w : W64) (s : State) : Host.Outcome State Fault Refusal := accepted s fun s =>
  .next (if w == 1 then { s with fenced := [] } else s)

/-- The core of a unit of a core. -/
def hwUnitCore : HwUnit → Option Nat
  | .core n => some n
  | .bank n _ => some n
  | .accBank n _ => some n
  | .plane n _ => some n
  | _ => none

/-- R63 is tested again: what can no longer be placed is refused with FOOTPRINT. -/
def State.retest (s : State) : State :=
  s.waiting.foldl (fun s w =>
    if w.image.isSome || !s.noFootprint (s.partOf w.launch.ctx) w.hdr.fp w.launch.serial w.launch.count then s
    else ({ s with waiting := s.waiting.filter fun x => x.num != w.num }.refuseLaunch w.launch w.num 3).nodeEnded w.launch 3) s

/-- Fence a unit (R292): the strands on a fenced core are held, and the host is told. -/
def State.fence (s : State) (u : HwUnit) : State :=
  if s.fenced.contains u then s
  else
    let s := { s with fenced := s.fenced ++ [u] }.raiseDev 2
    let s : State := match hwUnitCore u with
      | none => s
      | some n =>
        let here (t : Strand) : Bool := t.status != .ended && t.onUnit 1 n
        let ask (t : Strand) : Strand := if here t && t.status != .held && !t.holdReq then t.askHold else t
        let s := { s with strands := s.strands.map ask }
        (((s.strands.filter here).map (·.ctx)).eraseDups).foldl (fun s c => s.raiseCtx c evFenced) s
    s.retest

/-- Count a corrected error of a unit: its window in ns, its threshold (R292); every open task remembers it (R302). -/
def State.countError (s : State) (u : HwUnit) : State :=
  let window := fld s.errcfg.toNat 32 16 * 60000000000
  let errs := (s.errs ++ [(u, s.wtime)]).filter fun e => s.wtime < e.2 + window
  let s := { s with errs, tasks := s.tasks.map fun k => { k with counted := k.counted ++ [u] } }
  if fld s.errcfg.toNat 0 8 ≤ (errs.filter fun e => e.1 == u).length then s.fence u else s

/-- CORRECTED_ERROR (R292). -/
def execCorrectedError (u : HwUnit) (s : State) : Host.Outcome State Fault Refusal := .next (s.countError u)

/-- Mark what an uncorrectable error has struck: a word of memory at a bus address, the word at an offset of a unit of a core, in the
strand that holds it, or an element of what a core keeps for the strand of a slot (R290). DESIGN CHOICE (log 68): the offset names cluster,
slot and element. -/
def State.strike (s : State) (u : HwUnit) (at_ : Nat) : State :=
  let onCore (n : Nat) (f : Core → Core) : State :=
    { s with strands := s.strands.map fun t => { t with cores := t.cores.map fun c => if t.stack * 64 + c.phys == n then f c else c } }
  match u with
  | .dram g => { s with poison := s.poison ++ [(g * 2 ^ 30 + at_ % 2 ^ 30) / 8] }
  | .cxl p => if isTier2 at_ && at_ / 4096 % 4 == p then { s with poison := s.poison ++ [at_ / 8] } else s
  | .bank n b => onCore n fun c => match c.units.banks.findIdx? (· == b) with
    | some i => { c with spadPoison := c.spadPoison ++ [(i * 131072 + at_ % 131072) / 4] }
    | none => c
  | .plane n b => onCore n fun c => match c.units.planes.findIdx? (· == b) with
    | some i => { c with planePoison := c.planePoison ++ [cellKey i (at_ / 64 % 64) (at_ % 64)] }
    | none => c
  | .accBank n b => onCore n fun c => match c.units.acc.findIdx? (· == b) with
    | some i => { c with banks := vset c.banks i { vget c.banks i AccBank.zero with poison := true } }
    | none => c
  | .core n => onCore n fun c => if c.units.slot == at_ / 4 % 4 then c.strike (at_ % 4) (at_ / 16) else c
  | .port _ => s

/-- UNCORRECTABLE_ERROR: the data is poisoned and the unit fenced at once (R290, R292). -/
def execUncorrectableError (u : HwUnit) (at_ : Nat) (s : State) : Host.Outcome State Fault Refusal :=
  .next ((s.strike u at_).fence u)

end Sys2Proof.Machine
end

