-- ==== Sys2Proof/Machine/Island.lean ====
section
/-! DEFINITION. The island: the register windows, the BARs, the domain, the scale-up ports, doorbells and completions, firmware
and attestation (R274, R285, R301, R303, R304, R310 to R319, R321). -/

namespace Sys2Proof.Machine

/-! ## Reading registers (R303, R304) -/

/-- A host queue's registers (R30). -/
def State.queueReg (s : State) (q i : Nat) : Nat :=
  let h := s.queue q
  match i with
  | 0 => h.base.toNat
  | 1 => h.size
  | 2 => bnat h.enable + h.ctx * 2 ^ 8
  | 3 => h.tail.toNat
  | 4 => h.head.toNat
  | 5 => bnat h.halted + bnat h.wait.isSome * 2 + h.cause * 2 ^ 4 + h.where_.toNat * 2 ^ 32
  | _ => 0

/-- The dispatcher register window, by the index of an 8-byte register. -/
def State.dispReg (s : State) (i : Nat) : Nat :=
  let o := 8 * i
  if o < 0x1000 then s.queueReg (i / 8) (i % 8)
  else if o == 0x1000 then s.pecmd.toNat
  else if o == 0x1008 then s.peaddr.toNat / 4096 * 4096
  else if o == 0x1010 then s.pesize
  else if 0x2000 ≤ o && o < 0x2400 then (vget (if i % 2 == 0 then s.drefv else s.drefc) ((o - 0x2000) / 16) 0).toNat
  else if 0x3000 ≤ o && o < 0x3020 then (s.stack ((o - 0x3000) / 8)).crashcnt
  else if 0x4000 ≤ o && o < 0x8000 then (((s.stack ((o - 0x4000) / 0x1000)).crash.getD (o / 64 % 64) []).getD (i % 8) 0).toNat
  else 0

/-- The device control window (R29, R304, R306). -/
def State.ctlReg (s : State) (i : Nat) : Nat :=
  let o := 8 * i
  if 0x100 ≤ o && o < 0x300 then (vget s.ctxevt ((o - 0x100) / 8) 0).toNat
  else match o with
    | 0x000 => s.ctxtab.toNat
    | 0x008 => s.ctxcmd.toNat
    | 0x010 => s.tlbinv.toNat
    | 0x018 => s.tlbaddr.toNat
    | 0x020 => s.mbxdata.toNat
    | 0x028 => s.mbxctl.toNat
    | 0x030 => bnat s.linkLost + 2 * bnat s.linkHolding
    | 0x040 => s.linkgrace.toNat
    | 0x048 => s.devevt.toNat
    | 0x050 => s.resetcmd.toNat + bnat s.resetting.isSome * 2 ^ 16
    | _ => 0

/-- PWRSTAT (R274). -/
def Stack.stat (k : Stack) : Nat :=
  bnat k.refused * 2 ^ 13 + bnat k.stretch.isSome * 2 ^ 12 + (k.thermal - 8) * 2 ^ 8 + k.ceiling * 2 ^ 4 + k.point

/-- The power window (R273, R274, R277, R321). -/
def State.pwrReg (s : State) (i : Nat) : Nat :=
  let o := 8 * i
  if o < 0x20 then (s.stack i).pwrenv.toNat
  else if o < 0x40 then (s.stack (i - 4)).stat
  else if o == 0x48 then s.pwrcmd.toNat
  else if 0x100 ≤ o && o < 0x500 then match s.ctx? ((o - 0x100) / 16) with
    | some c => (if i % 2 == 0 then c.enused else c.enover).toNat
    | none => 0
  else 0

/-- The management window (R292, R303, R310, R313). -/
def State.mgmtReg (s : State) (i : Nat) : Nat :=
  let o := 8 * i
  if o == 0 then s.errcfg.toNat
  else if 0x400 ≤ o && o < 0xC00 then (vget s.exports ((o - 0x400) / 8) 0).toNat
  else if 0x1000 ≤ o && o < 0x11000 then
    (Sparse.get s.routes ((o - 0x1000) / 4)).toNat + (Sparse.get s.routes ((o - 0x1000) / 4 + 1)).toNat * 2 ^ 32
  else 0

/-- The 8-byte register of BAR 0 at an index; unlisted ones read as zero (R303). -/
def State.regWord (s : State) (i : Nat) : Nat :=
  if i < 0x2000 then s.dispReg i
  else if i < 0x2200 then s.ctlReg (i - 0x2000)
  else if 0x4000 ≤ i && i < 0x4200 then s.pwrReg (i - 0x4000)
  else if 0x6000 ≤ i && i < 0xA000 then s.mgmtReg (i - 0x6000)
  else 0

/-! ## Writing registers (R5, R30, R292, R301, R304, R310, R313) -/

/-- The bits above bit `n`. -/
def above (n : Nat) : W64 := BitVec.allOnes 64 <<< n

/-- The reserved bits of an export entry's word (R310). -/
def exportReserved (i : Nat) : W64 := match i with
  | 0 => ~~~0x0001FFFFFFE00000
  | 1 => ~~~0x000FFFFFFFE00000
  | 2 => ~~~0x000000000FFFFFFF
  | _ => ~~~0x00000000FFFF3FFF

/-- The reserved bits of the register at an offset of BAR 0 (R5), but for PWRENV, ERRCFG and DREFC, whose own chapters check them. A
reserved bit of PEADDR is refused with the command (R288). -/
def regReserved (ofs : Nat) : W64 :=
  if ofs < 0x1000 then match ofs % 64 with
    | 0x00 => 63
    | 0x08 => above 5
    | 0x10 => qctlReserved
    | 0x18 => above 32
    | 0x30 => above 2
    | _ => 0
  else if 0x10100 ≤ ofs && ofs < 0x10300 then above 6
  else if 0x30400 ≤ ofs && ofs < 0x30C00 then exportReserved ((ofs - 0x30400) / 8 % 4)
  else match ofs with
    | 0x1000 => pecmdReserved
    | 0x10000 => 4095
    | 0x10008 => ~~~0xF033F
    | 0x10010 => ~~~0x1033F
    | 0x10018 => ~~~0x0000FFFFFFFFF000
    | 0x10028 => 0xFFFFFFF8
    | 0x10030 => above 2
    | 0x10038 => above 2
    | 0x10040 => above 32
    | 0x10048 => above 5
    | 0x10050 => ~~~0x1010F
    | 0x20040 => above 4
    | 0x20048 => ~~~0x3F33FF
    | 0x30008 => above 1
    | _ => 0

/-- A write that sets a reserved bit is refused with the error its chapter names: CTXCMD, PECMD and PWRCMD answer BAD-CONFIG; where
no error is named, the register stays as it is (R5, R29, R288, R321). DESIGN CHOICE (log 42). -/
def State.refuseWrite (s : State) (ofs : Nat) (w : W64) : State :=
  if ofs == 0x10008 then (if fld w.toNat 8 2 == 1 || fld w.toNat 8 2 == 2 then
    { s with ctxcmd := ctxcmdWord (fld w.toNat 0 6) (fld w.toNat 8 2) 1 } else s)
  else if ofs == 0x1000 then (if s.holding.isNone && 1 ≤ fld w.toNat 8 3 && fld w.toNat 8 3 ≤ 4 then { s with pecmd := peWord w 1 false } else s)
  else if ofs == 0x20048 then { s with pwrcmd := BitVec.ofNat 64 (2 ^ 18 + fld w.toNat 16 2 * 2 ^ 16 + fld w.toNat 12 2 * 2 ^ 12 + fld w.toNat 0 10) }
  else s

/-- REGISTER_WRITE: a host write to a register with no behaviour of its own, by its offset in BAR 0; writing 1 clears a sticky
bit, and QBASE and QSIZE are written only while the queue is not enabled (R30, R304). DESIGN CHOICE (log 42).
DEDUCED (log 57). -/
def execRegisterWrite (ofs : Nat) (w : W64) (s : State) : Host.Outcome State Fault Refusal := accepted s fun s =>
  let q := ofs / 64
  let c := (ofs - 0x10100) / 8
  .next <|
    if ofs % 8 != 0 && !(0x31000 ≤ ofs && ofs < 0x41000 && ofs % 4 == 0) then s
    else if w &&& regReserved ofs != 0 then s
    else if ofs < 0x1000 then
      if (s.queue q).enable then s
      else if ofs % 64 == 0 then s.modQueue q fun h => { h with base := w }
      else if ofs % 64 == 8 then s.modQueue q fun h => { h with size := fld w.toNat 0 5 }
      else s
    else if ofs == 0x1008 then { s with peaddr := w }
    else if 0x2000 ≤ ofs && ofs < 0x2400 && ofs % 16 == 0 then { s with drefv := vset s.drefv ((ofs - 0x2000) / 16) w }
    else if ofs == 0x10000 then { s with ctxtab := w }
    else if ofs == 0x10018 then { s with tlbaddr := w }
    else if ofs == 0x10020 then { s with mbxdata := w }
    else if ofs == 0x10030 then { s with linkLost := s.linkLost && !bitAt w 0 }
    else if ofs == 0x10040 then { s with linkgrace := low32 w }
    else if ofs == 0x10048 then { s with devevt := s.devevt &&& ~~~(w.truncate 5) }
    else if 0x10100 ≤ ofs && ofs < 0x10300 then { s with ctxevt := vset s.ctxevt c (vget s.ctxevt c 0 &&& ~~~(w.truncate 6)) }
    else if 0x30400 ≤ ofs && ofs < 0x30C00 then { s with exports := vset s.exports ((ofs - 0x30400) / 8) w }
    else if 0x31000 ≤ ofs && ofs < 0x41000 then
      if (low32 w) &&& 0xC0000000 != 0 then s else { s with routes := Sparse.set s.routes ((ofs - 0x31000) / 4) (low32 w) }
    else s

/-- DREFC: ignored with a reserved bit set (R301). -/
def execDrefc (ctx : Nat) (w : W64) (s : State) : Host.Outcome State Fault Refusal := accepted s fun s =>
  .next (if fld w.toNat 48 15 != 0 then s else { s with drefc := vset s.drefc ctx w })

/-- PECMD by its Op (R288). -/
def writePecmd (w : W64) (s : State) : Host.Outcome State Fault Refusal := match fld w.toNat 8 3 with
  | 1 => execHold w s
  | 2 => execPecmdResume w s
  | 3 => execSave w s
  | 4 => execRestore w s
  | _ => .next s

/-- RESETCMD (R306): the resets it names, together. A write while a reset runs is ignored. -/
def writeResetcmd (w : W64) (s : State) : Host.Outcome State Fault Refusal :=
  if s.resetting.isSome then .next s
  else
    let s := { s with resetcmd := w &&& 0x10F }
    let ks := (List.range 4).filter fun k => bitAt w k
    if bitAt w 8 then execComputeReset s else .next (if ks.isEmpty then s else s.beginReset ks false)

/-- PWRCMD by its State (R321). -/
def writePwrcmd (w : W64) (s : State) : Host.Outcome State Fault Refusal :=
  let kind := fld w.toNat 12 2
  let unit := fld w.toNat 0 10
  match fld w.toNat 16 2 with
  | 0 => execActive kind unit s
  | 1 => execGated kind unit s
  | 2 => execRetain kind unit s
  | _ => execOff kind unit s

/-- A host write of one register of BAR 0: the command its register starts, or a plain write (R29, R30, R288, R303, R304, R306,
R309, R321). -/
def writeReg (ofs : Nat) (w : W64) (s : State) : Host.Outcome State Fault Refusal :=
  let n := w.toNat
  if w &&& regReserved ofs != 0 then .next (s.refuseWrite ofs w)
  else if ofs < 0x1000 && ofs % 64 == 0x10 then execQueueEnable (ofs / 64) w s
  else if ofs < 0x1000 && ofs % 64 == 0x18 then execQkick (ofs / 64) (low32 w) s
  else if ofs < 0x1000 && ofs % 64 == 0x30 then
    if fld n 0 2 == 1 then execQcmdResume (ofs / 64) s else if fld n 0 2 == 2 then execQcmdSkip (ofs / 64) s else .next s
  else if ofs == 0x1000 then writePecmd w s
  else if 0x2000 ≤ ofs && ofs < 0x2400 && ofs % 16 == 8 then execDrefc ((ofs - 0x2000) / 16) w s
  else if ofs == 0x10008 then
    if fld n 8 2 == 1 then execActivate (fld n 0 6) s else if fld n 8 2 == 2 then execRelease (fld n 0 6) s else .next s
  else if ofs == 0x10010 then
    if fld n 8 2 == 1 then execTlbinvOnePage (fld n 0 6) s else if fld n 8 2 == 2 then execTlbinvWholeContext (fld n 0 6) s else .next s
  else if ofs == 0x10028 then execMbxctl (high32 w) (fld n 0 3) s
  else if ofs == 0x10038 then if fld n 0 2 == 1 then execLinkcmdResume s else .next s
  else if ofs == 0x10050 then writeResetcmd w s
  else if 0x20000 ≤ ofs && ofs < 0x20020 && ofs % 8 == 0 then execPwrenv ((ofs - 0x20000) / 8) w s
  else if ofs == 0x20040 then execDroopclr (w.truncate 4) s
  else if ofs == 0x20048 then writePwrcmd w s
  else if ofs == 0x30000 then execErrcfg w s
  else if ofs == 0x30008 then execFenceclr w s
  else execRegisterWrite ofs w s

/-! ## The BARs (R303, R311) -/

/-- The bus address behind an offset of BAR 2 or BAR 4. -/
def barBus (bar ofs : Nat) : Option Nat :=
  if bar == 2 && ofs < 2 ^ 39 then some ofs else if bar == 4 && ofs < 2 ^ 40 then some (2 ^ 40 + ofs) else none

/-- Data read at device scope goes out, with its poison (R290, R303, R316). -/
def State.answer (s : State) (b n : Nat) : State :=
  { s with hostOut := s.hostOut ++ [some (s.busBytes Place.device b n)],
           hostBad := if s.poisonedRange Place.device b n then s.hostBad ++ [s.hostOut.length] else s.hostBad }

/-- An answer without data goes out: an acknowledgement (no bytes), or none for Unsupported Request or NO-ENDPOINT. -/
def State.answerEmpty (s : State) (ok : Bool) : State := { s with hostOut := s.hostOut ++ [if ok then some [] else none] }

/-- HOST_MEMORY_READ: the bytes, or none for Unsupported Request (R303). During a function-level reset the request is not accepted
(R307). -/
def execHostMemoryRead (bar ofs n : Nat) (s : State) : Host.Outcome State Fault Refusal :=
  if !s.linkUp then .fault .noOccasion
  else if s.wholeReset then .next s
  else if bar == 0 then
    .next { s with hostOut := s.hostOut ++
      [some ((List.range n).map fun i => BitVec.ofNat 8 (s.regWord ((ofs + i) / 8) / 2 ^ (8 * ((ofs + i) % 8))))] }
  else match barBus bar ofs with
    | some b => .next (if s.silent b then s.answerEmpty false else s.answer b n)
    | none => .next (s.answerEmpty false)

/-- HOST_MEMORY_WRITE: performs at device scope, or is dropped; in BAR 0 it writes a register whole, or two routing entries (R303,
R313). During a function-level reset it is not accepted (R307). -/
def execHostMemoryWrite (bar ofs : Nat) (bytes : List Byte) (s : State) : Host.Outcome State Fault Refusal :=
  let v (bs : List Byte) : W64 := BitVec.ofNat 64 (natOfBytes bs)
  let routes := 0x31000 ≤ ofs && ofs < 0x41000
  if !s.linkUp then .fault .noOccasion
  else if s.wholeReset then .next s
  else if bar == 0 then
    if routes && bytes.length == 8 then match writeReg ofs (v (bytes.take 4)) s with
      | .next s => writeReg (ofs + 4) (v (bytes.drop 4)) s
      | r => r
    else if bytes.length == 8 || (bytes.length == 4 && routes) then writeReg ofs (v bytes) s
    else .next s
  else match barBus bar ofs with
    | some b => .next (s.busWrite (cellsAt b bytes))
    | none => .next s

/-! ## The domain (R310 to R314) -/

/-- DOMAIN_ACCESS: an access from another device. One for this device's window is answered with data, an acknowledgement (no bytes),
or none for NO-ENDPOINT, and a store to a doorbell page rings it; one for another device is forwarded by its port, whatever the stacks
do, or answered NO-ENDPOINT where its entry has none (R11, R310, R311, R313, R314). -/
def execDomainAccess (from_ : Nat) (write : Bool) (ofs size : Nat) (v : W64) (s : State) : Host.Outcome State Fault Refusal :=
  let dest := ofs / 2 ^ 49
  let ofs := ofs % 2 ^ 49
  .next <|
    if dest != Config.ownDevice then if (s.portFor from_ dest).isSome then s.send from_ dest else s.answerEmpty false
    else match s.exportAt from_ ofs write with
      | none => s.answerEmpty false
      | some b =>
        if write then
          let s := s.answerEmpty true
          if isDoorbell b then s.ring b size v else s.busWrite (cellsAt b (bytesOf size v.toNat))
        else if isDoorbell b then
          { s with hostOut := s.hostOut ++ [some (bytesOf size (Config.doorbellData s.freeCtr).toNat)], freeCtr := s.freeCtr + 1 }
        else s.answer b size

/-- FLIT_REPLAY: a replay counts as a corrected error of its port (R292, R312). -/
def execFlitReplay (port : Nat) (s : State) : Host.Outcome State Fault Refusal :=
  let n := match s.portReplays.find? fun p => p.1 == port with
    | some p => p.2
    | none => 0
  .next ({ s with portReplays := (port, n + 1) :: s.portReplays.filter fun p => p.1 != port }.countError (.port port))

/-- STOP: a channel of a port stands stopped (R312). DEDUCED (log 58). -/
def execStop (port vc : Nat) (s : State) : Host.Outcome State Fault Refusal :=
  .next { s with ports := (port, vc) :: s.ports.filter fun p => p != (port, vc) }

/-- GO: the channel goes on (R312). -/
def execGo (port vc : Nat) (s : State) : Host.Outcome State Fault Refusal :=
  .next { s with ports := s.ports.filter fun p => p != (port, vc) }

/-! ## Scale-out (R315) -/

/-- DOORBELL: the engine learns a queue pair's producer index (R315). -/
def execDoorbell (ctx : Nat) (v : W64) (s : State) : Host.Outcome State Fault Refusal :=
  let qp := fld v.toNat 0 10
  .next { s with doorbells := (ctx, qp, high32 v) :: s.doorbells.filter fun d => !(d.1 == ctx && d.2.1 == qp) }

/-- COMPLETION_ENTRY_WRITE: a word of a completion entry is written at device scope (R315). -/
def execCompletionEntryWrite (ctx : Nat) (va v : W64) (s : State) : Host.Outcome State Fault Refusal :=
  .next ((s.dispStore ctx va v).getD s)

/-! ## Firmware and attestation (R317 to R319) -/

/-- FIRMWARE_UPDATE: an image that verifies, and is not rolled back, runs; otherwise the previous one stays and the host is
told (R318). DEDUCED (log 60). -/
def execFirmwareUpdate (target version image : Nat) (s : State) : Host.Outcome State Fault Refusal :=
  .next (if Config.lmsVerifies image && vget s.fwCounter target 0 ≤ version then
      { s with fwRunning := vset s.fwRunning target image, fwCounter := vset s.fwCounter target version }
    else s.raiseDev 4)

/-- ATTESTATION: the next one-time-key index is committed, and then its signature is released; refused once they are used up
(R319). -/
def execAttestation (s : State) : Host.Outcome State Fault Refusal :=
  .next (if s.otsIndex < 2 ^ 30 then
      { s with otsIndex := s.otsIndex + 1, attested := s.attested ++ [(s.otsIndex, Config.lmsSignature s.otsIndex)] }
    else s)

end Sys2Proof.Machine
end

