-- ==== Sys2Proof/Machine/Dispatch.lean ====
section
/-! DEFINITION. One arm per instruction: each calls its meaning. -/

namespace Sys2Proof.Machine

def exec (i : Instr) (s : State) : Host.Outcome State Fault Refusal :=
  match i with
  | .nop h => Sys2Proof.Machine.execNop h s
  | .halt h => Sys2Proof.Machine.execHalt h s
  | .add h d a b => Sys2Proof.Machine.execAdd h d a b s
  | .sub h d a b => Sys2Proof.Machine.execSub h d a b s
  | .and h d a b => Sys2Proof.Machine.execAnd h d a b s
  | .or h d a b => Sys2Proof.Machine.execOr h d a b s
  | .xor h d a b => Sys2Proof.Machine.execXor h d a b s
  | .andn h d a b => Sys2Proof.Machine.execAndn h d a b s
  | .shl h d a b => Sys2Proof.Machine.execShl h d a b s
  | .shr h d a b => Sys2Proof.Machine.execShr h d a b s
  | .sar h d a b => Sys2Proof.Machine.execSar h d a b s
  | .rotl h d a b => Sys2Proof.Machine.execRotl h d a b s
  | .mul h d a b => Sys2Proof.Machine.execMul h d a b s
  | .mulhI h d a b => Sys2Proof.Machine.execMulhI h d a b s
  | .mulhN h d a b => Sys2Proof.Machine.execMulhN h d a b s
  | .divI h d a b => Sys2Proof.Machine.execDivI h d a b s
  | .divN h d a b => Sys2Proof.Machine.execDivN h d a b s
  | .modI h d a b => Sys2Proof.Machine.execModI h d a b s
  | .modN h d a b => Sys2Proof.Machine.execModN h d a b s
  | .minI h d a b => Sys2Proof.Machine.execMinI h d a b s
  | .minN h d a b => Sys2Proof.Machine.execMinN h d a b s
  | .maxI h d a b => Sys2Proof.Machine.execMaxI h d a b s
  | .maxN h d a b => Sys2Proof.Machine.execMaxN h d a b s
  | .sel h d a b => Sys2Proof.Machine.execSel h d a b s
  | .clz h d a => Sys2Proof.Machine.execClz h d a s
  | .popc h d a => Sys2Proof.Machine.execPopc h d a s
  | .bfx h d a b => Sys2Proof.Machine.execBfx h d a b s
  | .bfi h d a b => Sys2Proof.Machine.execBfi h d a b s
  | .lea h d a b => Sys2Proof.Machine.execLea h d a b s
  | .mov h d a => Sys2Proof.Machine.execMov h d a s
  | .addl h d a w => Sys2Proof.Machine.execAddl h d a w s
  | .subl h d a w => Sys2Proof.Machine.execSubl h d a w s
  | .andl h d a w => Sys2Proof.Machine.execAndl h d a w s
  | .orl h d a w => Sys2Proof.Machine.execOrl h d a w s
  | .xorl h d a w => Sys2Proof.Machine.execXorl h d a w s
  | .andnl h d a w => Sys2Proof.Machine.execAndnl h d a w s
  | .shll h d a w => Sys2Proof.Machine.execShll h d a w s
  | .shrl h d a w => Sys2Proof.Machine.execShrl h d a w s
  | .sarl h d a w => Sys2Proof.Machine.execSarl h d a w s
  | .rotll h d a w => Sys2Proof.Machine.execRotll h d a w s
  | .mull h d a w => Sys2Proof.Machine.execMull h d a w s
  | .minlI h d a w => Sys2Proof.Machine.execMinlI h d a w s
  | .minlN h d a w => Sys2Proof.Machine.execMinlN h d a w s
  | .maxlI h d a w => Sys2Proof.Machine.execMaxlI h d a w s
  | .maxlN h d a w => Sys2Proof.Machine.execMaxlN h d a w s
  | .movl h d w => Sys2Proof.Machine.execMovl h d w s
  | .leal h d a w => Sys2Proof.Machine.execLeal h d a w s
  | .cmpEq h d a b => Sys2Proof.Machine.execCmpEq h d a b s
  | .cmpNe h d a b => Sys2Proof.Machine.execCmpNe h d a b s
  | .cmpLtI h d a b => Sys2Proof.Machine.execCmpLtI h d a b s
  | .cmpGeI h d a b => Sys2Proof.Machine.execCmpGeI h d a b s
  | .cmpLtN h d a b => Sys2Proof.Machine.execCmpLtN h d a b s
  | .cmpGeN h d a b => Sys2Proof.Machine.execCmpGeN h d a b s
  | .cmplEq h d a w => Sys2Proof.Machine.execCmplEq h d a w s
  | .cmplNe h d a w => Sys2Proof.Machine.execCmplNe h d a w s
  | .cmplLtI h d a w => Sys2Proof.Machine.execCmplLtI h d a w s
  | .cmplGeI h d a w => Sys2Proof.Machine.execCmplGeI h d a w s
  | .cmplLtN h d a w => Sys2Proof.Machine.execCmplLtN h d a w s
  | .cmplGeN h d a w => Sys2Proof.Machine.execCmplGeN h d a w s
  | .br h ofs => Sys2Proof.Machine.execBr h ofs s
  | .call h ofs => Sys2Proof.Machine.execCall h ofs s
  | .jmp h a => Sys2Proof.Machine.execJmp h a s
  | .ret h => Sys2Proof.Machine.execRet h s
  | .loop h c k t => Sys2Proof.Machine.execLoop h c k t s
  | .loopl h c t w => Sys2Proof.Machine.execLoopl h c t w s
  | .cwait h m => Sys2Proof.Machine.execCwait h m s
  | .pand h d a b => Sys2Proof.Machine.execPand h d a b s
  | .por h d a b => Sys2Proof.Machine.execPor h d a b s
  | .pxor h d a b => Sys2Proof.Machine.execPxor h d a b s
  | .pnot h d a => Sys2Proof.Machine.execPnot h d a s
  | .pfirst h d a => Sys2Proof.Machine.execPfirst h d a s
  | .pcount h d a => Sys2Proof.Machine.execPcount h d a s
  | .pany h d a => Sys2Proof.Machine.execPany h d a s
  | .pall h d a => Sys2Proof.Machine.execPall h d a s
  | .mfs h r code => Sys2Proof.Machine.execMfs h r code s
  | .mts h r code => Sys2Proof.Machine.execMts h r code s
  | .vadd h d a b => Sys2Proof.Machine.execVadd h d a b s
  | .vsub h d a b => Sys2Proof.Machine.execVsub h d a b s
  | .vmul h d a b => Sys2Proof.Machine.execVmul h d a b s
  | .vmulhI h d a b => Sys2Proof.Machine.execVmulhI h d a b s
  | .vmulhN h d a b => Sys2Proof.Machine.execVmulhN h d a b s
  | .vminI h d a b => Sys2Proof.Machine.execVminI h d a b s
  | .vminN h d a b => Sys2Proof.Machine.execVminN h d a b s
  | .vmaxI h d a b => Sys2Proof.Machine.execVmaxI h d a b s
  | .vmaxN h d a b => Sys2Proof.Machine.execVmaxN h d a b s
  | .vand h d a b => Sys2Proof.Machine.execVand h d a b s
  | .vor h d a b => Sys2Proof.Machine.execVor h d a b s
  | .vxor h d a b => Sys2Proof.Machine.execVxor h d a b s
  | .vshl h d a b => Sys2Proof.Machine.execVshl h d a b s
  | .vshr h d a b => Sys2Proof.Machine.execVshr h d a b s
  | .vsar h d a b => Sys2Proof.Machine.execVsar h d a b s
  | .vaddsI h d a b => Sys2Proof.Machine.execVaddsI h d a b s
  | .vaddsN h d a b => Sys2Proof.Machine.execVaddsN h d a b s
  | .vsubsI h d a b => Sys2Proof.Machine.execVsubsI h d a b s
  | .vsubsN h d a b => Sys2Proof.Machine.execVsubsN h d a b s
  | .vabs h d a => Sys2Proof.Machine.execVabs h d a s
  | .vfadd h d a b rm => Sys2Proof.Machine.execVfadd h d a b rm s
  | .vfsub h d a b rm => Sys2Proof.Machine.execVfsub h d a b rm s
  | .vfmul h d a b rm => Sys2Proof.Machine.execVfmul h d a b rm s
  | .vfma h d a b rm => Sys2Proof.Machine.execVfma h d a b rm s
  | .vfmin h d a b => Sys2Proof.Machine.execVfmin h d a b s
  | .vfmax h d a b => Sys2Proof.Machine.execVfmax h d a b s
  | .vfabs h d a => Sys2Proof.Machine.execVfabs h d a s
  | .vfneg h d a => Sys2Proof.Machine.execVfneg h d a s
  | .vmov h d a => Sys2Proof.Machine.execVmov h d a s
  | .vsel h d a b => Sys2Proof.Machine.execVsel h d a b s
  | .vcmpEq h d a b => Sys2Proof.Machine.execVcmpEq h d a b s
  | .vcmpNe h d a b => Sys2Proof.Machine.execVcmpNe h d a b s
  | .vcmpLtI h d a b => Sys2Proof.Machine.execVcmpLtI h d a b s
  | .vcmpGeI h d a b => Sys2Proof.Machine.execVcmpGeI h d a b s
  | .vcmpLtN h d a b => Sys2Proof.Machine.execVcmpLtN h d a b s
  | .vcmpGeN h d a b => Sys2Proof.Machine.execVcmpGeN h d a b s
  | .vfcmpEq h d a b => Sys2Proof.Machine.execVfcmpEq h d a b s
  | .vfcmpLt h d a b => Sys2Proof.Machine.execVfcmpLt h d a b s
  | .vfcmpLe h d a b => Sys2Proof.Machine.execVfcmpLe h d a b s
  | .vfcmpUn h d a b => Sys2Proof.Machine.execVfcmpUn h d a b s
  | .vdot4 h d a b sg => Sys2Proof.Machine.execVdot4 h d a b sg s
  | .vscaleb h d a b rm => Sys2Proof.Machine.execVscaleb h d a b rm s
  | .vcvt h d a cv => Sys2Proof.Machine.execVcvt h d a cv s
  | .vcvtt h d a => Sys2Proof.Machine.execVcvtt h d a s
  | .vpack h d a b cv => Sys2Proof.Machine.execVpack h d a b cv s
  | .vunpk h d a cv => Sys2Proof.Machine.execVunpk h d a cv s
  | .vrsum h d a ty => Sys2Proof.Machine.execVrsum h d a ty s
  | .vrmax h d a ty => Sys2Proof.Machine.execVrmax h d a ty s
  | .vrmin h d a ty => Sys2Proof.Machine.execVrmin h d a ty s
  | .vscan h d a ty => Sys2Proof.Machine.execVscan h d a ty s
  | .vsort h d a b ty => Sys2Proof.Machine.execVsort h d a b ty s
  | .vshuf h d a b => Sys2Proof.Machine.execVshuf h d a b s
  | .vrot h d a b => Sys2Proof.Machine.execVrot h d a b s
  | .vrotZf h d a b => Sys2Proof.Machine.execVrotZf h d a b s
  | .vbcast h d a b => Sys2Proof.Machine.execVbcast h d a b s
  | .vrand h d a b u word layer => Sys2Proof.Machine.execVrand h d a b u word layer s
  | .teval h d a k => Sys2Proof.Machine.execTeval h d a k s
  | .drawImmediate h q p r x => Sys2Proof.Machine.execDrawImmediate h q p r x s
  | .drawRegister h q p r x => Sys2Proof.Machine.execDrawRegister h q p r x s
  | .putOperandImmediate h o p r x => Sys2Proof.Machine.execPutOperandImmediate h o p r x s
  | .putOperandRegister h o p r x => Sys2Proof.Machine.execPutOperandRegister h o p r x s
  | .putLastResultImmediate h l p r x => Sys2Proof.Machine.execPutLastResultImmediate h l p r x s
  | .putLastResultRegister h l p r x => Sys2Proof.Machine.execPutLastResultRegister h l p r x s
  | .sld h d k f => Sys2Proof.Machine.execSld h d k f s
  | .sldTagged h d k f tag => Sys2Proof.Machine.execSldTagged h d k f tag s
  | .sst h o k f => Sys2Proof.Machine.execSst h o k f s
  | .sstTagged h o k f tag => Sys2Proof.Machine.execSstTagged h o k f tag s
  | .slds h r k f => Sys2Proof.Machine.execSlds h r k f s
  | .sldsTagged h r k f tag => Sys2Proof.Machine.execSldsTagged h r k f tag s
  | .ssts h r k f => Sys2Proof.Machine.execSsts h r k f s
  | .sstsTagged h r k f tag => Sys2Proof.Machine.execSstsTagged h r k f tag s
  | .ld h d a b m => Sys2Proof.Machine.execLd h d a b m s
  | .st h d a b m => Sys2Proof.Machine.execSt h d a b m s
  | .ecopy h d a b m => Sys2Proof.Machine.execEcopy h d a b m s
  | .mark h => Sys2Proof.Machine.execMark h s
  | .lqwait h v => Sys2Proof.Machine.execLqwait h v s
  | .sqwait h v => Sys2Proof.Machine.execSqwait h v s
  | .fence h v => Sys2Proof.Machine.execFence h v s
  | .aadd h d a b m => Sys2Proof.Machine.execAadd h d a b m s
  | .aminI h d a b m => Sys2Proof.Machine.execAminI h d a b m s
  | .aminN h d a b m => Sys2Proof.Machine.execAminN h d a b m s
  | .amaxI h d a b m => Sys2Proof.Machine.execAmaxI h d a b m s
  | .amaxN h d a b m => Sys2Proof.Machine.execAmaxN h d a b m s
  | .aand h d a b m => Sys2Proof.Machine.execAand h d a b m s
  | .aor h d a b m => Sys2Proof.Machine.execAor h d a b m s
  | .axor h d a b m => Sys2Proof.Machine.execAxor h d a b m s
  | .axchg h d a b m => Sys2Proof.Machine.execAxchg h d a b m s
  | .acas h d a b m => Sys2Proof.Machine.execAcas h d a b m s
  | .afadd h d a b m => Sys2Proof.Machine.execAfadd h d a b m s
  | .bara h d a m => Sys2Proof.Machine.execBara h d a m s
  | .barw h a b m => Sys2Proof.Machine.execBarw h a b m s
  | .flagw h d a b sc cc => Sys2Proof.Machine.execFlagw h d a b sc cc s
  | .pref h a b => Sys2Proof.Machine.execPref h a b s
  | .ipref h a b l => Sys2Proof.Machine.execIpref h a b l s
  | .ipin h d a b l => Sys2Proof.Machine.execIpin h d a b l s
  | .iunpin h a b l => Sys2Proof.Machine.execIunpin h a b l s
  | .icinv h a b => Sys2Proof.Machine.execIcinv h a b s
  | .park h o a b => Sys2Proof.Machine.execPark h o a b s
  | .unpark h d a b => Sys2Proof.Machine.execUnpark h d a b s
  | .mcfg h st g ofs eng => Sys2Proof.Machine.execMcfg h st g ofs eng s
  | .mgo h st cb ca bt at_ => Sys2Proof.Machine.execMgo h st cb ca bt at_ s
  | .mstop h st => Sys2Proof.Machine.execMstop h st s
  | .mbase h st g which => Sys2Proof.Machine.execMbase h st g which s
  | .cfgld h st g ck tag ofs len eng => Sys2Proof.Machine.execCfgld h st g ck tag ofs len eng s
  | .cfgswap h st eng => Sys2Proof.Machine.execCfgswap h st eng s
  | .mfmt h st g e => Sys2Proof.Machine.execMfmt h st g e s
  | .aczero h st rows row bank => Sys2Proof.Machine.execAczero h st rows row bank s
  | .acalloc h d a zero park => Sys2Proof.Machine.execAcalloc h d a zero park s
  | .acfree h a => Sys2Proof.Machine.execAcfree h a s
  | .acown h a b => Sys2Proof.Machine.execAcown h a b s
  | .acld h d a b cv => Sys2Proof.Machine.execAcld h d a b cv s
  | .xcopy h st g rem ck ex stg tag dst frm => Sys2Proof.Machine.execXcopy h st g rem ck ex stg tag dst frm s
  | .tsld h st g slot => Sys2Proof.Machine.execTsld h st g slot s
  | .tsev h st slot => Sys2Proof.Machine.execTsev h st slot s
  | .tload h st g ck tag tb => Sys2Proof.Machine.execTload h st g ck tag tb s
  | .rload h st g ck tag => Sys2Proof.Machine.execRload h st g ck tag s
  | .rstep h st g gens cheq nb alt pl => Sys2Proof.Machine.execRstep h st g gens cheq nb alt pl s
  | .waitb h a => Sys2Proof.Machine.execWaitb h a s
  | .waitbUntil h a => Sys2Proof.Machine.execWaitbUntil h a s
  | .deadline h a b => Sys2Proof.Machine.execDeadline h a b s
  | .deadlineClr h => Sys2Proof.Machine.execDeadlineClr h s
  | .acqp h n => Sys2Proof.Machine.execAcqp h n s
  | .relp h => Sys2Proof.Machine.execRelp h s
  | .molt h d a => Sys2Proof.Machine.execMolt h d a s
  | .enq h d a b => Sys2Proof.Machine.execEnq h d a b s
  | .trap h a n => Sys2Proof.Machine.execTrap h a n s
  | .tret h => Sys2Proof.Machine.execTret h s
  | .tretSkip h n => Sys2Proof.Machine.execTretSkip h n s
  | .mcfgStart c e => Sys2Proof.Machine.execMcfgStart c e s
  | .cfgldStart c e => Sys2Proof.Machine.execCfgldStart c e s
  | .cfgswapStart c e => Sys2Proof.Machine.execCfgswapStart c e s
  | .cfgswapFlip c e => Sys2Proof.Machine.execCfgswapFlip c e s
  | .mgoStart c => Sys2Proof.Machine.execMgoStart c s
  | .matrixBlockStep c => Sys2Proof.Machine.execMatrixBlockStep c s
  | .mstopStart c => Sys2Proof.Machine.execMstopStart c s
  | .mbaseStart c => Sys2Proof.Machine.execMbaseStart c s
  | .mfmtStart c => Sys2Proof.Machine.execMfmtStart c s
  | .aczeroStart c => Sys2Proof.Machine.execAczeroStart c s
  | .xcopyStart c => Sys2Proof.Machine.execXcopyStart c s
  | .xcopyChunk c id j => Sys2Proof.Machine.execXcopyChunk c id j s
  | .tsldStart c => Sys2Proof.Machine.execTsldStart c s
  | .tsevStart c => Sys2Proof.Machine.execTsevStart c s
  | .tloadStart c => Sys2Proof.Machine.execTloadStart c s
  | .tloadReplace c => Sys2Proof.Machine.execTloadReplace c s
  | .rloadStart c => Sys2Proof.Machine.execRloadStart c s
  | .rloadReplace c => Sys2Proof.Machine.execRloadReplace c s
  | .rstepStart c => Sys2Proof.Machine.execRstepStart c s
  | .rstepGeneration c => Sys2Proof.Machine.execRstepGeneration c s
  | .loadPerform r => Sys2Proof.Machine.execLoadPerform r s
  | .loadDataArrival r => Sys2Proof.Machine.execLoadDataArrival r s
  | .storePerform r => Sys2Proof.Machine.execStorePerform r s
  | .ecopyPerform r => Sys2Proof.Machine.execEcopyPerform r s
  | .atomicPerform r => Sys2Proof.Machine.execAtomicPerform r s
  | .baraPerform r => Sys2Proof.Machine.execBaraPerform r s
  | .enqPerform r => Sys2Proof.Machine.execEnqPerform r s
  | .markerRetire r => Sys2Proof.Machine.execMarkerRetire r s
  | .elasticWaitResume sid => Sys2Proof.Machine.execElasticWaitResume sid s
  | .fetchLineFill sid => Sys2Proof.Machine.execFetchLineFill sid s
  | .translationWalk sid => Sys2Proof.Machine.execTranslationWalk sid s
  | .powerGrant k => Sys2Proof.Machine.execPowerGrant k s
  | .regionLevelFall sid => Sys2Proof.Machine.execRegionLevelFall sid s
  | .stallWatchdog sid => Sys2Proof.Machine.execStallWatchdog sid s
  | .deadlineLapse sid => Sys2Proof.Machine.execDeadlineLapse sid s
  | .strandStop sid => Sys2Proof.Machine.execStrandStop sid s
  | .drainEnd sid => Sys2Proof.Machine.execDrainEnd sid s
  | .preemptionHold sid => Sys2Proof.Machine.execPreemptionHold sid s
  | .commitWindow k => Sys2Proof.Machine.execCommitWindow k s
  | .weaveFlip k => Sys2Proof.Machine.execWeaveFlip k s
  | .scrubComplete k => Sys2Proof.Machine.execScrubComplete k s
  | .strandRetire sid => Sys2Proof.Machine.execStrandRetire sid s
  | .digestReexecution task => Sys2Proof.Machine.execDigestReexecution task s
  | .ringRecordWrite ctx => Sys2Proof.Machine.execRingRecordWrite ctx s
  | .nopPacket q => Sys2Proof.Machine.execNopPacket q s
  | .launch q p => Sys2Proof.Machine.execLaunch q p s
  | .graph q p => Sys2Proof.Machine.execGraph q p s
  | .seedpush q v => Sys2Proof.Machine.execSeedpush q v s
  | .seedpop q => Sys2Proof.Machine.execSeedpop q s
  | .seedfork q x => Sys2Proof.Machine.execSeedfork q x s
  | .waitword q p => Sys2Proof.Machine.execWaitword q p s
  | .waitwordPoll q => Sys2Proof.Machine.execWaitwordPoll q s
  | .waitTimeout q => Sys2Proof.Machine.execWaitTimeout q s
  | .setword q p => Sys2Proof.Machine.execSetword q p s
  | .afterPriorStore n => Sys2Proof.Machine.execAfterPriorStore n s
  | .teardown q => Sys2Proof.Machine.execTeardown q s
  | .quota q p => Sys2Proof.Machine.execQuota q p s
  | .packetReread q => Sys2Proof.Machine.execPacketReread q s
  | .tornPacket q => Sys2Proof.Machine.execTornPacket q s
  | .launchAgeing n => Sys2Proof.Machine.execLaunchAgeing n s
  | .launchReservation part => Sys2Proof.Machine.execLaunchReservation part s
  | .taskNode rep a w => Sys2Proof.Machine.execTaskNode rep a w s
  | .cond rep a w => Sys2Proof.Machine.execCond rep a w s
  | .loopNode rep a w => Sys2Proof.Machine.execLoopNode rep a w s
  | .switch rep a w => Sys2Proof.Machine.execSwitch rep a w s
  | .join rep a w => Sys2Proof.Machine.execJoin rep a w s
  | .seedNode rep a w => Sys2Proof.Machine.execSeedNode rep a w s
  | .endNode rep a w => Sys2Proof.Machine.execEndNode rep a w s
  | .activate ctx => Sys2Proof.Machine.execActivate ctx s
  | .release ctx => Sys2Proof.Machine.execRelease ctx s
  | .queueEnable q v => Sys2Proof.Machine.execQueueEnable q v s
  | .qkick q tail => Sys2Proof.Machine.execQkick q tail s
  | .qcmdResume q => Sys2Proof.Machine.execQcmdResume q s
  | .qcmdSkip q => Sys2Proof.Machine.execQcmdSkip q s
  | .hold w => Sys2Proof.Machine.execHold w s
  | .pecmdResume w => Sys2Proof.Machine.execPecmdResume w s
  | .save w => Sys2Proof.Machine.execSave w s
  | .restore w => Sys2Proof.Machine.execRestore w s
  | .tlbinvOnePage ctx => Sys2Proof.Machine.execTlbinvOnePage ctx s
  | .tlbinvWholeContext ctx => Sys2Proof.Machine.execTlbinvWholeContext ctx s
  | .mbxctl strand x => Sys2Proof.Machine.execMbxctl strand x s
  | .linkcmdResume => Sys2Proof.Machine.execLinkcmdResume s
  | .stackReset k => Sys2Proof.Machine.execStackReset k s
  | .computeReset => Sys2Proof.Machine.execComputeReset s
  | .functionLevelReset => Sys2Proof.Machine.execFunctionLevelReset s
  | .coldReset => Sys2Proof.Machine.execColdReset s
  | .islandReset => Sys2Proof.Machine.execIslandReset s
  | .pwrenv k w => Sys2Proof.Machine.execPwrenv k w s
  | .active kind unit => Sys2Proof.Machine.execActive kind unit s
  | .gated kind unit => Sys2Proof.Machine.execGated kind unit s
  | .retain kind unit => Sys2Proof.Machine.execRetain kind unit s
  | .off kind unit => Sys2Proof.Machine.execOff kind unit s
  | .droopclr m => Sys2Proof.Machine.execDroopclr m s
  | .errcfg w => Sys2Proof.Machine.execErrcfg w s
  | .fenceclr w => Sys2Proof.Machine.execFenceclr w s
  | .drefc ctx w => Sys2Proof.Machine.execDrefc ctx w s
  | .registerWrite ofs w => Sys2Proof.Machine.execRegisterWrite ofs w s
  | .surpriseLinkLoss => Sys2Proof.Machine.execSurpriseLinkLoss s
  | .linkgraceExpiry => Sys2Proof.Machine.execLinkgraceExpiry s
  | .governorEvaluation k => Sys2Proof.Machine.execGovernorEvaluation k s
  | .operatingPointChange k => Sys2Proof.Machine.execOperatingPointChange k s
  | .energyMetering mj => Sys2Proof.Machine.execEnergyMetering mj s
  | .droopDetectorTrip k => Sys2Proof.Machine.execDroopDetectorTrip k s
  | .droopSignatureMatch k => Sys2Proof.Machine.execDroopSignatureMatch k s
  | .thermalSafetyTrip => Sys2Proof.Machine.execThermalSafetyTrip s
  | .correctedError u => Sys2Proof.Machine.execCorrectedError u s
  | .uncorrectableError u at_ => Sys2Proof.Machine.execUncorrectableError u at_ s
  | .hostMemoryRead bar ofs n => Sys2Proof.Machine.execHostMemoryRead bar ofs n s
  | .hostMemoryWrite bar ofs bytes => Sys2Proof.Machine.execHostMemoryWrite bar ofs bytes s
  | .domainAccess from_ write ofs size v => Sys2Proof.Machine.execDomainAccess from_ write ofs size v s
  | .flitReplay port => Sys2Proof.Machine.execFlitReplay port s
  | .stop port vc => Sys2Proof.Machine.execStop port vc s
  | .go port vc => Sys2Proof.Machine.execGo port vc s
  | .doorbell ctx v => Sys2Proof.Machine.execDoorbell ctx v s
  | .firmwareUpdate target version image => Sys2Proof.Machine.execFirmwareUpdate target version image s
  | .attestation => Sys2Proof.Machine.execAttestation s
  | .linkRetrain => Sys2Proof.Machine.execLinkRetrain s
  | .droopStretchEnd k => Sys2Proof.Machine.execDroopStretchEnd k s
  | .completionEntryWrite ctx va v => Sys2Proof.Machine.execCompletionEntryWrite ctx va v s
  | .powerLoss => Sys2Proof.Machine.execPowerLoss s

end Sys2Proof.Machine
end

