-- ==== Sys2Proof/Machine/Events.lean ====
section
/-! DEFINITION. Running the steps and events that the device takes of its own accord: each calls the meaning of the instruction
of its name. -/

namespace Sys2Proof.Machine

/-- Run an event of the schedule. -/
def runEv (e : Ev) (s : State) : Host.Outcome State Fault Refusal :=
  match e with
  | .mcfgStart c e => execMcfgStart c e s
  | .cfgldStart c e => execCfgldStart c e s
  | .cfgswapStart c e => execCfgswapStart c e s
  | .cfgswapFlip c e => execCfgswapFlip c e s
  | .mgoStart c => execMgoStart c s
  | .matrixBlockStep c => execMatrixBlockStep c s
  | .mstopStart c => execMstopStart c s
  | .mbaseStart c => execMbaseStart c s
  | .mfmtStart c => execMfmtStart c s
  | .aczeroStart c => execAczeroStart c s
  | .xcopyStart c => execXcopyStart c s
  | .xcopyChunk c id j => execXcopyChunk c id j s
  | .tsldStart c => execTsldStart c s
  | .tsevStart c => execTsevStart c s
  | .tloadStart c => execTloadStart c s
  | .tloadReplace c => execTloadReplace c s
  | .rloadStart c => execRloadStart c s
  | .rloadReplace c => execRloadReplace c s
  | .rstepStart c => execRstepStart c s
  | .rstepGeneration c => execRstepGeneration c s
  | .loadPerform r => execLoadPerform r s
  | .loadDataArrival r => execLoadDataArrival r s
  | .storePerform r => execStorePerform r s
  | .ecopyPerform r => execEcopyPerform r s
  | .atomicPerform r => execAtomicPerform r s
  | .baraPerform r => execBaraPerform r s
  | .enqPerform r => execEnqPerform r s
  | .markerRetire r => execMarkerRetire r s
  | .elasticWaitResume sid => execElasticWaitResume sid s
  | .fetchLineFill sid => execFetchLineFill sid s
  | .translationWalk sid => execTranslationWalk sid s
  | .powerGrant k => execPowerGrant k s
  | .regionLevelFall sid => execRegionLevelFall sid s
  | .stallWatchdog sid => execStallWatchdog sid s
  | .deadlineLapse sid => execDeadlineLapse sid s
  | .strandStop sid => execStrandStop sid s
  | .drainEnd sid => execDrainEnd sid s
  | .preemptionHold sid => execPreemptionHold sid s
  | .commitWindow k => execCommitWindow k s
  | .weaveFlip k => execWeaveFlip k s
  | .scrubComplete k => execScrubComplete k s
  | .strandRetire sid => execStrandRetire sid s
  | .digestReexecution task => execDigestReexecution task s
  | .ringRecordWrite ctx => execRingRecordWrite ctx s
  | .nopPacket q => execNopPacket q s
  | .launch q p => execLaunch q p s
  | .graph q p => execGraph q p s
  | .seedpush q v => execSeedpush q v s
  | .seedpop q => execSeedpop q s
  | .seedfork q i => execSeedfork q i s
  | .waitword q p => execWaitword q p s
  | .waitwordPoll q => execWaitwordPoll q s
  | .waitTimeout q => execWaitTimeout q s
  | .setword q p => execSetword q p s
  | .afterPriorStore n => execAfterPriorStore n s
  | .teardown q => execTeardown q s
  | .quota q p => execQuota q p s
  | .packetReread q => execPacketReread q s
  | .tornPacket q => execTornPacket q s
  | .launchAgeing n => execLaunchAgeing n s
  | .launchReservation part => execLaunchReservation part s
  | .taskNode rep a w => execTaskNode rep a w s
  | .cond rep a w => execCond rep a w s
  | .loopNode rep a w => execLoopNode rep a w s
  | .switch rep a w => execSwitch rep a w s
  | .join rep a w => execJoin rep a w s
  | .seedNode rep a w => execSeedNode rep a w s
  | .endNode rep a w => execEndNode rep a w s
  | .linkgraceExpiry => execLinkgraceExpiry s
  | .governorEvaluation k => execGovernorEvaluation k s
  | .operatingPointChange k => execOperatingPointChange k s
  | .droopSignatureMatch k => execDroopSignatureMatch k s
  | .doorbell ctx v => execDoorbell ctx v s
  | .droopStretchEnd k => execDroopStretchEnd k s
  | .thermalSafetyTrip => execThermalSafetyTrip s

end Sys2Proof.Machine
end

