-- ==== Sys2Proof/Machine/Reads.lean ====
section
/-! DEFINITION. Which elements of a cluster context a syllable reads, where an error may have struck them (R290). -/

namespace Sys2Proof.Machine

/-! ## Reads -/

/-- What a vector source reads. -/
def vsrcReads : VSrc → List Nat
  | .o n => [atO n]
  | .l n => [atL n]
  | .pop n => [atQ n]
  | .keep n => [atQ n]
  | .sreg r => [atS r]
  | _ => []

/-- What a vector destination reads where it is also an addend. -/
def vdstReads : VDst → List Nat
  | .o n => [atO n]
  | .last => [atL 0]

/-- What a stored vector source reads. -/
def osrcReads : OSrc → List Nat
  | .o n => [atO n]
  | .l n => [atL n]

/-- What a stamp reads. -/
def stampReads : Stamp → List Nat
  | .rel _ => []
  | .abs r => [atS r]

/-- The predicate that MFS reads, if its code names one (R159). -/
def mfsReads (code : BitVec 10) : List Nat :=
  if 0x40 ≤ code.toNat && code.toNat < 0x4C then [32 + (code.toNat - 0x40)] else []

/-- What a syllable reads beside its guard. -/
def syllableReads : Instr → List Nat
  | .add _ _ a b => [atS a, atS b]
  | .sub _ _ a b => [atS a, atS b]
  | .and _ _ a b => [atS a, atS b]
  | .or _ _ a b => [atS a, atS b]
  | .xor _ _ a b => [atS a, atS b]
  | .andn _ _ a b => [atS a, atS b]
  | .shl _ _ a b => [atS a, atS b]
  | .shr _ _ a b => [atS a, atS b]
  | .sar _ _ a b => [atS a, atS b]
  | .rotl _ _ a b => [atS a, atS b]
  | .mul _ _ a b => [atS a, atS b]
  | .mulhI _ _ a b => [atS a, atS b]
  | .mulhN _ _ a b => [atS a, atS b]
  | .divI _ _ a b => [atS a, atS b]
  | .divN _ _ a b => [atS a, atS b]
  | .modI _ _ a b => [atS a, atS b]
  | .modN _ _ a b => [atS a, atS b]
  | .minI _ _ a b => [atS a, atS b]
  | .minN _ _ a b => [atS a, atS b]
  | .maxI _ _ a b => [atS a, atS b]
  | .maxN _ _ a b => [atS a, atS b]
  | .sel h _ a b => [atP h.g, atS a, atS b]
  | .clz _ _ a => [atS a]
  | .popc _ _ a => [atS a]
  | .bfx _ _ a b => [atS a, atS b]
  | .bfi _ d a b => [atS d, atS a, atS b]
  | .lea _ _ a b => [atS a, atS b]
  | .mov _ _ a => [atS a]
  | .addl _ _ a _ => [atS a]
  | .subl _ _ a _ => [atS a]
  | .andl _ _ a _ => [atS a]
  | .orl _ _ a _ => [atS a]
  | .xorl _ _ a _ => [atS a]
  | .andnl _ _ a _ => [atS a]
  | .shll _ _ a _ => [atS a]
  | .shrl _ _ a _ => [atS a]
  | .sarl _ _ a _ => [atS a]
  | .rotll _ _ a _ => [atS a]
  | .mull _ _ a _ => [atS a]
  | .minlI _ _ a _ => [atS a]
  | .minlN _ _ a _ => [atS a]
  | .maxlI _ _ a _ => [atS a]
  | .maxlN _ _ a _ => [atS a]
  | .leal _ _ a _ => [atS a]
  | .cmpEq _ _ a b => [atS a, atS b]
  | .cmpNe _ _ a b => [atS a, atS b]
  | .cmpLtI _ _ a b => [atS a, atS b]
  | .cmpGeI _ _ a b => [atS a, atS b]
  | .cmpLtN _ _ a b => [atS a, atS b]
  | .cmpGeN _ _ a b => [atS a, atS b]
  | .cmplEq _ _ a _ => [atS a]
  | .cmplNe _ _ a _ => [atS a]
  | .cmplLtI _ _ a _ => [atS a]
  | .cmplGeI _ _ a _ => [atS a]
  | .cmplLtN _ _ a _ => [atS a]
  | .cmplGeN _ _ a _ => [atS a]
  | .jmp _ a => [atS a]
  | .ret _ => [atS 31]
  | .loop _ _ k _ => [atS k]
  | .pand _ _ a b => [atP a, atP b]
  | .por _ _ a b => [atP a, atP b]
  | .pxor _ _ a b => [atP a, atP b]
  | .pnot _ _ a => [atP a]
  | .pfirst _ _ a => [atP a]
  | .pcount _ _ a => [atP a]
  | .pany _ _ a => [atP a]
  | .pall _ _ a => [atP a]
  | .mfs _ _ code => mfsReads code
  | .mts _ r _ => [atS r]
  | .vadd h _ a b => [atP h.g] ++ vsrcReads a ++ vsrcReads b
  | .vsub h _ a b => [atP h.g] ++ vsrcReads a ++ vsrcReads b
  | .vmul h _ a b => [atP h.g] ++ vsrcReads a ++ vsrcReads b
  | .vmulhI h _ a b => [atP h.g] ++ vsrcReads a ++ vsrcReads b
  | .vmulhN h _ a b => [atP h.g] ++ vsrcReads a ++ vsrcReads b
  | .vminI h _ a b => [atP h.g] ++ vsrcReads a ++ vsrcReads b
  | .vminN h _ a b => [atP h.g] ++ vsrcReads a ++ vsrcReads b
  | .vmaxI h _ a b => [atP h.g] ++ vsrcReads a ++ vsrcReads b
  | .vmaxN h _ a b => [atP h.g] ++ vsrcReads a ++ vsrcReads b
  | .vand h _ a b => [atP h.g] ++ vsrcReads a ++ vsrcReads b
  | .vor h _ a b => [atP h.g] ++ vsrcReads a ++ vsrcReads b
  | .vxor h _ a b => [atP h.g] ++ vsrcReads a ++ vsrcReads b
  | .vshl h _ a b => [atP h.g] ++ vsrcReads a ++ vsrcReads b
  | .vshr h _ a b => [atP h.g] ++ vsrcReads a ++ vsrcReads b
  | .vsar h _ a b => [atP h.g] ++ vsrcReads a ++ vsrcReads b
  | .vaddsI h _ a b => [atP h.g] ++ vsrcReads a ++ vsrcReads b
  | .vaddsN h _ a b => [atP h.g] ++ vsrcReads a ++ vsrcReads b
  | .vsubsI h _ a b => [atP h.g] ++ vsrcReads a ++ vsrcReads b
  | .vsubsN h _ a b => [atP h.g] ++ vsrcReads a ++ vsrcReads b
  | .vabs h _ a => [atP h.g] ++ vsrcReads a
  | .vfadd h _ a b _ => [atP h.g] ++ vsrcReads a ++ vsrcReads b
  | .vfsub h _ a b _ => [atP h.g] ++ vsrcReads a ++ vsrcReads b
  | .vfmul h _ a b _ => [atP h.g] ++ vsrcReads a ++ vsrcReads b
  | .vfma h d a b _ => [atP h.g] ++ vdstReads d ++ vsrcReads a ++ vsrcReads b
  | .vfmin h _ a b => [atP h.g] ++ vsrcReads a ++ vsrcReads b
  | .vfmax h _ a b => [atP h.g] ++ vsrcReads a ++ vsrcReads b
  | .vfabs h _ a => [atP h.g] ++ vsrcReads a
  | .vfneg h _ a => [atP h.g] ++ vsrcReads a
  | .vmov h _ a => [atP h.g] ++ vsrcReads a
  | .vsel h _ a b => [atP h.g] ++ vsrcReads a ++ vsrcReads b
  | .vcmpEq h _ a b => [atP h.g] ++ vsrcReads a ++ vsrcReads b
  | .vcmpNe h _ a b => [atP h.g] ++ vsrcReads a ++ vsrcReads b
  | .vcmpLtI h _ a b => [atP h.g] ++ vsrcReads a ++ vsrcReads b
  | .vcmpGeI h _ a b => [atP h.g] ++ vsrcReads a ++ vsrcReads b
  | .vcmpLtN h _ a b => [atP h.g] ++ vsrcReads a ++ vsrcReads b
  | .vcmpGeN h _ a b => [atP h.g] ++ vsrcReads a ++ vsrcReads b
  | .vfcmpEq h _ a b => [atP h.g] ++ vsrcReads a ++ vsrcReads b
  | .vfcmpLt h _ a b => [atP h.g] ++ vsrcReads a ++ vsrcReads b
  | .vfcmpLe h _ a b => [atP h.g] ++ vsrcReads a ++ vsrcReads b
  | .vfcmpUn h _ a b => [atP h.g] ++ vsrcReads a ++ vsrcReads b
  | .vdot4 h d a b _ => [atP h.g] ++ vdstReads d ++ vsrcReads a ++ vsrcReads b
  | .vscaleb h _ a b _ => [atP h.g] ++ vsrcReads a ++ vsrcReads b
  | .vcvt h _ a _ => [atP h.g] ++ vsrcReads a
  | .vcvtt h _ a => [atP h.g] ++ vsrcReads a
  | .vpack h _ a b _ => [atP h.g] ++ vsrcReads a ++ vsrcReads b
  | .vunpk h _ a _ => [atP h.g] ++ vsrcReads a
  | .vrsum h _ a _ => [atP h.g] ++ vsrcReads a
  | .vrmax h _ a _ => [atP h.g] ++ vsrcReads a
  | .vrmin h _ a _ => [atP h.g] ++ vsrcReads a
  | .vscan h _ a _ => [atP h.g] ++ vsrcReads a
  | .vsort h _ a b _ => [atP h.g] ++ vsrcReads a ++ vsrcReads b
  | .vshuf h _ a b => [atP h.g] ++ vsrcReads a ++ vsrcReads b
  | .vrot h _ a b => [atP h.g] ++ vsrcReads a ++ vsrcReads b
  | .vrotZf h _ a b => [atP h.g] ++ vsrcReads a ++ vsrcReads b
  | .vbcast h _ a b => [atP h.g] ++ vsrcReads a ++ vsrcReads b
  | .vrand h _ a b _ _ _ => [atP h.g] ++ vsrcReads a ++ vsrcReads b
  | .teval h _ a _ => [atP h.g] ++ vsrcReads a
  | .drawRegister _ _ _ _ x => [atS x]
  | .putOperandImmediate _ o _ _ _ => [atO o]
  | .putOperandRegister _ o _ _ x => [atO o, atS x]
  | .putLastResultImmediate _ l _ _ _ => [atL l]
  | .putLastResultRegister _ l _ _ x => [atL l, atS x]
  | .sld _ _ k _ => [atS k]
  | .sldTagged _ _ k _ _ => [atS k]
  | .sst _ o k _ => [atS k] ++ osrcReads o
  | .sstTagged _ o k _ _ => [atS k] ++ osrcReads o
  | .slds _ _ k _ => [atS k]
  | .sldsTagged _ _ k _ _ => [atS k]
  | .ssts _ r k _ => [atS r, atS k]
  | .sstsTagged _ r k _ _ => [atS r, atS k]
  | .ld _ _ a b _ => [atS a, atS b]
  | .st _ d a b _ => [atS d, atS a, atS b]
  | .ecopy _ d a b _ => [atS d, atS a, atS b]
  | .aadd _ _ a b _ => [atS a, atS b]
  | .aminI _ _ a b _ => [atS a, atS b]
  | .aminN _ _ a b _ => [atS a, atS b]
  | .amaxI _ _ a b _ => [atS a, atS b]
  | .amaxN _ _ a b _ => [atS a, atS b]
  | .aand _ _ a b _ => [atS a, atS b]
  | .aor _ _ a b _ => [atS a, atS b]
  | .axor _ _ a b _ => [atS a, atS b]
  | .axchg _ _ a b _ => [atS a, atS b]
  | .acas _ d a b _ => [atS d, atS a, atS b]
  | .afadd _ _ a b _ => [atS a, atS b]
  | .bara _ _ a _ => [atS a]
  | .barw _ a b _ => [atS a, atS b]
  | .flagw _ d a b _ _ => [atS d, atS a, atS b]
  | .pref _ a b => [atS a, atS b]
  | .ipref _ a b _ => [atS a, atS b]
  | .ipin _ _ a b _ => [atS a, atS b]
  | .iunpin _ a b _ => [atS a, atS b]
  | .icinv _ a b => [atS a, atS b]
  | .park _ o a b => [atS a, atS b] ++ osrcReads o
  | .unpark _ _ a b => [atS a, atS b]
  | .mcfg _ st g _ _ => [atS g] ++ stampReads st
  | .mgo _ st _ _ _ _ => stampReads st
  | .mstop _ st => stampReads st
  | .mbase _ st g _ => [atS g] ++ stampReads st
  | .cfgld _ st g _ _ _ _ _ => [atS g] ++ stampReads st
  | .cfgswap _ st _ => stampReads st
  | .mfmt _ st g _ => [atS g] ++ stampReads st
  | .aczero _ st _ _ _ => stampReads st
  | .acalloc _ _ a _ _ => [atS a]
  | .acfree _ a => [atS a]
  | .acown _ a b => [atS a, atS b]
  | .acld _ _ a b _ => [atS a, atS b]
  | .xcopy _ st g _ _ _ _ _ _ _ => [atS g] ++ stampReads st
  | .tsld _ st g _ => [atS g] ++ stampReads st
  | .tsev _ st _ => stampReads st
  | .tload _ st g _ _ _ => [atS g] ++ stampReads st
  | .rload _ st g _ _ => [atS g] ++ stampReads st
  | .rstep _ st g _ _ _ _ _ => [atS g] ++ stampReads st
  | .waitb _ a => [atS a]
  | .waitbUntil _ a => [atS a]
  | .deadline _ a b => [atS a, atS b]
  | .molt _ _ a => [atS a]
  | .enq _ _ a b => [atS a, atS b]
  | .trap _ a _ => [atS a]
  | _ => []

/-- The guard of a syllable that does nothing where it is false (R78): whether it is negated, and its predicate. -/
def syllableGuard : Instr → Option (Bool × PReg)
  | .nop h => some (h.neg, h.g)
  | .halt h => some (h.neg, h.g)
  | .add h _ _ _ => some (h.neg, h.g)
  | .sub h _ _ _ => some (h.neg, h.g)
  | .and h _ _ _ => some (h.neg, h.g)
  | .or h _ _ _ => some (h.neg, h.g)
  | .xor h _ _ _ => some (h.neg, h.g)
  | .andn h _ _ _ => some (h.neg, h.g)
  | .shl h _ _ _ => some (h.neg, h.g)
  | .shr h _ _ _ => some (h.neg, h.g)
  | .sar h _ _ _ => some (h.neg, h.g)
  | .rotl h _ _ _ => some (h.neg, h.g)
  | .mul h _ _ _ => some (h.neg, h.g)
  | .mulhI h _ _ _ => some (h.neg, h.g)
  | .mulhN h _ _ _ => some (h.neg, h.g)
  | .divI h _ _ _ => some (h.neg, h.g)
  | .divN h _ _ _ => some (h.neg, h.g)
  | .modI h _ _ _ => some (h.neg, h.g)
  | .modN h _ _ _ => some (h.neg, h.g)
  | .minI h _ _ _ => some (h.neg, h.g)
  | .minN h _ _ _ => some (h.neg, h.g)
  | .maxI h _ _ _ => some (h.neg, h.g)
  | .maxN h _ _ _ => some (h.neg, h.g)
  | .clz h _ _ => some (h.neg, h.g)
  | .popc h _ _ => some (h.neg, h.g)
  | .bfx h _ _ _ => some (h.neg, h.g)
  | .bfi h _ _ _ => some (h.neg, h.g)
  | .lea h _ _ _ => some (h.neg, h.g)
  | .mov h _ _ => some (h.neg, h.g)
  | .addl h _ _ _ => some (h.neg, h.g)
  | .subl h _ _ _ => some (h.neg, h.g)
  | .andl h _ _ _ => some (h.neg, h.g)
  | .orl h _ _ _ => some (h.neg, h.g)
  | .xorl h _ _ _ => some (h.neg, h.g)
  | .andnl h _ _ _ => some (h.neg, h.g)
  | .shll h _ _ _ => some (h.neg, h.g)
  | .shrl h _ _ _ => some (h.neg, h.g)
  | .sarl h _ _ _ => some (h.neg, h.g)
  | .rotll h _ _ _ => some (h.neg, h.g)
  | .mull h _ _ _ => some (h.neg, h.g)
  | .minlI h _ _ _ => some (h.neg, h.g)
  | .minlN h _ _ _ => some (h.neg, h.g)
  | .maxlI h _ _ _ => some (h.neg, h.g)
  | .maxlN h _ _ _ => some (h.neg, h.g)
  | .movl h _ _ => some (h.neg, h.g)
  | .leal h _ _ _ => some (h.neg, h.g)
  | .cmpEq h _ _ _ => some (h.neg, h.g)
  | .cmpNe h _ _ _ => some (h.neg, h.g)
  | .cmpLtI h _ _ _ => some (h.neg, h.g)
  | .cmpGeI h _ _ _ => some (h.neg, h.g)
  | .cmpLtN h _ _ _ => some (h.neg, h.g)
  | .cmpGeN h _ _ _ => some (h.neg, h.g)
  | .cmplEq h _ _ _ => some (h.neg, h.g)
  | .cmplNe h _ _ _ => some (h.neg, h.g)
  | .cmplLtI h _ _ _ => some (h.neg, h.g)
  | .cmplGeI h _ _ _ => some (h.neg, h.g)
  | .cmplLtN h _ _ _ => some (h.neg, h.g)
  | .cmplGeN h _ _ _ => some (h.neg, h.g)
  | .br h _ => some (h.neg, h.g)
  | .call h _ => some (h.neg, h.g)
  | .jmp h _ => some (h.neg, h.g)
  | .ret h => some (h.neg, h.g)
  | .loop h _ _ _ => some (h.neg, h.g)
  | .loopl h _ _ _ => some (h.neg, h.g)
  | .cwait h _ => some (h.neg, h.g)
  | .pand h _ _ _ => some (h.neg, h.g)
  | .por h _ _ _ => some (h.neg, h.g)
  | .pxor h _ _ _ => some (h.neg, h.g)
  | .pnot h _ _ => some (h.neg, h.g)
  | .pfirst h _ _ => some (h.neg, h.g)
  | .pcount h _ _ => some (h.neg, h.g)
  | .pany h _ _ => some (h.neg, h.g)
  | .pall h _ _ => some (h.neg, h.g)
  | .mfs h _ _ => some (h.neg, h.g)
  | .mts h _ _ => some (h.neg, h.g)
  | .drawImmediate h _ _ _ _ => some (h.neg, h.g)
  | .drawRegister h _ _ _ _ => some (h.neg, h.g)
  | .putOperandImmediate h _ _ _ _ => some (h.neg, h.g)
  | .putOperandRegister h _ _ _ _ => some (h.neg, h.g)
  | .putLastResultImmediate h _ _ _ _ => some (h.neg, h.g)
  | .putLastResultRegister h _ _ _ _ => some (h.neg, h.g)
  | .sld h _ _ _ => some (h.neg, h.g)
  | .sldTagged h _ _ _ _ => some (h.neg, h.g)
  | .sst h _ _ _ => some (h.neg, h.g)
  | .sstTagged h _ _ _ _ => some (h.neg, h.g)
  | .slds h _ _ _ => some (h.neg, h.g)
  | .sldsTagged h _ _ _ _ => some (h.neg, h.g)
  | .ssts h _ _ _ => some (h.neg, h.g)
  | .sstsTagged h _ _ _ _ => some (h.neg, h.g)
  | .ld h _ _ _ _ => some (h.neg, h.g)
  | .st h _ _ _ _ => some (h.neg, h.g)
  | .ecopy h _ _ _ _ => some (h.neg, h.g)
  | .mark h => some (h.neg, h.g)
  | .lqwait h _ => some (h.neg, h.g)
  | .sqwait h _ => some (h.neg, h.g)
  | .fence h _ => some (h.neg, h.g)
  | .aadd h _ _ _ _ => some (h.neg, h.g)
  | .aminI h _ _ _ _ => some (h.neg, h.g)
  | .aminN h _ _ _ _ => some (h.neg, h.g)
  | .amaxI h _ _ _ _ => some (h.neg, h.g)
  | .amaxN h _ _ _ _ => some (h.neg, h.g)
  | .aand h _ _ _ _ => some (h.neg, h.g)
  | .aor h _ _ _ _ => some (h.neg, h.g)
  | .axor h _ _ _ _ => some (h.neg, h.g)
  | .axchg h _ _ _ _ => some (h.neg, h.g)
  | .acas h _ _ _ _ => some (h.neg, h.g)
  | .afadd h _ _ _ _ => some (h.neg, h.g)
  | .bara h _ _ _ => some (h.neg, h.g)
  | .barw h _ _ _ => some (h.neg, h.g)
  | .flagw h _ _ _ _ _ => some (h.neg, h.g)
  | .pref h _ _ => some (h.neg, h.g)
  | .ipref h _ _ _ => some (h.neg, h.g)
  | .ipin h _ _ _ _ => some (h.neg, h.g)
  | .iunpin h _ _ _ => some (h.neg, h.g)
  | .icinv h _ _ => some (h.neg, h.g)
  | .park h _ _ _ => some (h.neg, h.g)
  | .unpark h _ _ _ => some (h.neg, h.g)
  | .mcfg h _ _ _ _ => some (h.neg, h.g)
  | .mgo h _ _ _ _ _ => some (h.neg, h.g)
  | .mstop h _ => some (h.neg, h.g)
  | .mbase h _ _ _ => some (h.neg, h.g)
  | .cfgld h _ _ _ _ _ _ _ => some (h.neg, h.g)
  | .cfgswap h _ _ => some (h.neg, h.g)
  | .mfmt h _ _ _ => some (h.neg, h.g)
  | .aczero h _ _ _ _ => some (h.neg, h.g)
  | .acalloc h _ _ _ _ => some (h.neg, h.g)
  | .acfree h _ => some (h.neg, h.g)
  | .acown h _ _ => some (h.neg, h.g)
  | .acld h _ _ _ _ => some (h.neg, h.g)
  | .xcopy h _ _ _ _ _ _ _ _ _ => some (h.neg, h.g)
  | .tsld h _ _ _ => some (h.neg, h.g)
  | .tsev h _ _ => some (h.neg, h.g)
  | .tload h _ _ _ _ _ => some (h.neg, h.g)
  | .rload h _ _ _ _ => some (h.neg, h.g)
  | .rstep h _ _ _ _ _ _ _ => some (h.neg, h.g)
  | .waitb h _ => some (h.neg, h.g)
  | .waitbUntil h _ => some (h.neg, h.g)
  | .deadline h _ _ => some (h.neg, h.g)
  | .deadlineClr h => some (h.neg, h.g)
  | .acqp h _ => some (h.neg, h.g)
  | .relp h => some (h.neg, h.g)
  | .molt h _ _ => some (h.neg, h.g)
  | .enq h _ _ _ => some (h.neg, h.g)
  | .trap h _ _ => some (h.neg, h.g)
  | .tret h => some (h.neg, h.g)
  | .tretSkip h _ => some (h.neg, h.g)
  | _ => none

/-- What a syllable reads of a cluster as it stands: its guard, and the rest unless the guard is false (R78). -/
def Cluster.readsOf (c : Cluster) (i : Instr) : List Nat := match syllableGuard i with
  | some g => atP g.2 :: (if bitAt (c.rp g.2.toNat) 0 != g.1 then syllableReads i else [])
  | none => syllableReads i

end Sys2Proof.Machine
end

