-- ==== Sys2Proof/Machine/Issue.lean ====
section
/-! DEFINITION. One slot of a strand: the boundary, the beat's landings and engine events, its bundles, the starts and claims of
its engines, and its end; and a slot while a handler runs (R18 to R21, R53, R67 to R70, R89 to R114, R134, R239, R244, R255,
R286). -/

namespace Sys2Proof.Machine

/-! ## The boundary before a beat (R21, R68 to R70, R281, R287, R294) -/

/-- Put tasks at the head of the schedule. -/
def State.first (s : State) (js : List Job) : State := { s with todo := js ++ s.todo }

/-- SLOT: a stack cycle of the strand's lattice. -/
def State.slot (s : State) (sid : Nat) : State :=
  (s.modStrand sid fun t => { t with nextCyc := t.nextCyc + t.stride }).first [.beat sid]

/-- The first beat after a hold request fixes the pre-emption beat's lead (R287). -/
def Strand.noteHold (t : Strand) : Strand :=
  if t.holdReq && t.holdAt.isNone && t.freeze.isNone then { t with holdAt := some (t.beat + 8) } else t

/-- Freeze a strand (R68). -/
def State.freeze (s : State) (t : Strand) (why : FreezeWhy) : State :=
  s.modStrand t.sid fun t => { t with freeze := some { why, since := (s.stack t.stack).cyc, resume := none } }

/-- Put a granted level into force: what earlier ACQPs of the region were still to lower it to has no more effect (R246). A region that
a RELP has ended has no part in the new one (R247). -/
def openRegion (x : Nat) (r : Region) (q : Nat × Nat × Nat × Option Nat) : Region :=
  if q.1 + 8 ≤ x && q.2.2.2.isSome then
    { r with on := true, level := q.2.1, opened := if r.inside then r.opened else x, reqs := r.reqs.filter (fun p => p != q),
             falls := if r.inside then r.falls.filter (fun f => q.1 < f.1) else [] }
  else r

/-- Eight beats after an ACQP of a lower level the region stands at that level at least, whatever an earlier one was still to lower it to
(R246). -/
def Region.outlast (x : Nat) (r : Region) : Region := r.falls.foldl (fun r g =>
  if g.2.2 || x < g.1 + 8 then r
  else { r with level := max r.level g.2.1, falls := r.falls.filter fun f => f.2.2 || g.1 ≤ f.1 || g.2.1 < f.2.1 }) r

/-- What the boundary brings to a strand that is about to execute its beat: grants in force, holds at a rendezvous that begin,
mailboxes, the answer to a MOLT, and elastic data (R68, R114, R160, R225, R246, R248). -/
def Strand.enter (t : Strand) (cyc : Nat) : Strand :=
  let x := t.beat
  let t : Strand := { t with region := (t.region.reqs.foldl (openRegion x) t.region).outlast x }
  let due := t.mbxNew.filter fun m => m.2.2 ≤ x
  let t : Strand := { t with mbx := due.foldl (fun v m => vset v m.1 m.2.1) t.mbx, mbxNew := t.mbxNew.filter fun m => !(m.2.2 ≤ x) }
  let t : Strand := match t.moltResult with
    | some (m, v) => if v == 0 && t.flip.isSome then t
      else { t.modCl m.core m.cl fun c => { c with arrive := c.arrive ++ [(m.d, BitVec.ofNat 64 v)] } with molt := none, moltResult := none }
    | none => t
  t.mapCl fun c =>
    let hold (r : Rdv) : Rdv := if r.beat + 8 ≤ x && r.since.isNone then { r with since := some cyc } else r
    let c : Cluster := { c with rdv := c.rdv.map hold }
    { c.arrive.foldl (fun c a => c.ws x a.1 a.2) c with arrive := [] }

/-- Note in a task the time of its first strand's beat 0 (R47). -/
def State.noteStart (s : State) (t : Strand) : State :=
  let note (k : Task) : Task :=
    if k.num == t.task && k.record.start == 0 then { k with record := { k.record with start := BitVec.ofNat 64 s.wtime } } else k
  if t.beat == 0 then { s with tasks := s.tasks.map note } else s

/-- The ICINVs that have reached every core by now: lookups from this beat on see them (R95). -/
def Strand.invalidateDue (t : Strand) : Strand :=
  (t.icinvs.filter fun i => i.1 ≤ t.beat).foldl (fun t i => t.invalidate (t.beat + 8) i.2.1 i.2.2)
    { t with icinvs := t.icinvs.filter fun i => !(i.1 ≤ t.beat) }

/-- The strand executes its beat: what enters, lands and is read comes first; then the events, the bundles, the starts, the
claims and the end of the beat follow in turn (R255). -/
def State.executeBeat (s : State) (t : Strand) : State :=
  let s := s.noteStart t
  let s := s.modStrand t.sid fun t => (t.enter (s.stack t.stack).cyc).invalidateDue
  let s := s.landAll t t.beat
  let s := s.seeing t.sid fun s =>
    let s := match s.strand? t.sid with
      | some t => s.loadsBeat t
      | none => s
    t.coreRefs.foldl (fun s r => s.readBlocks r 16) s
  s.first ([.evs t.sid] ++ t.contexts.map .issue ++ [.starts t.sid, .claims t.sid, .endBeat t.sid])

/-- Forget the waits, walks and fillings that this beat is past. -/
def Strand.passBeat (t : Strand) (cyc : Nat) : Strand :=
  { t.dropWaits cyc with walks := t.walks.filter (fun w => !(w.beat ≤ t.beat && w.ended.isSome)),
                         fills := t.fills.filter fun f => !(f.beat ≤ t.beat) }

/-- What a running strand does at a boundary of its lattice. -/
def State.boundary (s : State) (sid : Nat) : State :=
  let s := s.modStrand sid fun t => (t.shed (s.stack t.stack).cyc).noteHold
  match s.strand? sid with
  | none => s
  | some t =>
    let cyc := (s.stack t.stack).cyc
    if s.stopDue t then s.first [.ev (.strandStop sid)]
    else if t.holdDue then s.first [.ev (.preemptionHold sid)]
    else if t.retires then s.first [.ev (.strandRetire sid)]
    else if t.freeze.isSome then
      if t.thaws cyc then s.first [.ev (.elasticWaitResume sid), .beat sid]
      else if t.freezeLate cyc || !(t.rdvLate cyc).isEmpty then s.first [.ev (.stallWatchdog sid)]
      else s
    else if !(t.rdvLate cyc).isEmpty then s.first [.ev (.stallWatchdog sid), .beat sid]
    else if t.waitHolds cyc then s.freeze t .elastic
    else if t.grantHolds cyc then s.freeze t .power
    else if t.walkHolds cyc then s.freeze t (.walk [])
    else if t.fillHolds cyc then s.freeze t .fetch
    else (s.modStrand sid fun t => t.passBeat cyc).executeBeat t

/-! ## Engine events before the bundles (R107, R255) -/

/-- The next event of a strand that is due on its beat and comes before its bundles. -/
def State.nextEv (s : State) (t : Strand) : Option Ev :=
  t.coreRefs.findSome? fun r => match s.eview r with
    | none => none
    | some v => match v.co.engineEv r v.x with
      | some e => some e
      | none =>
        if v.co.flipDue .me then some (.cfgswapFlip r .me)
        else if v.co.flipDue .te then some (.cfgswapFlip r .te)
        else if v.co.flipDue .re then some (.cfgswapFlip r .re) else none

/-- The nests of a strand go past the WAITs and RETIREs that are due: a nest that ends is at its drain point (R138, R196, R197). -/
def State.settleNests (s : State) (t : Strand) : State := t.coreRefs.foldl (fun s r => match s.eview r with
  | some v => v.mod s fun c => c.settleNest false v.x 64
  | none => s) s

/-- EVS: the next such event, the fall of a region's level, or what the bundles will read: the strand as its beat begins, and the
snapshot of each RSTEP, which a beat that is undone has not taken (R213, R281). -/
def State.evs (s : State) (sid : Nat) : State :=
  match s.strand? sid with
  | none => s
  | some t =>
    let s := s.settleNests t
    match s.nextEv t, s.strand? sid with
    | some e, _ => s.first [.ev e, .evs sid]
    | none, none => s
    | none, some t =>
      if t.fallDue then s.first [.ev (.regionLevelFall sid), .evs sid]
      else
        let s := { s with snap := s.strand? sid, snapSteps := (s.stack t.stack).steps }
        s.seeing sid fun s => t.coreRefs.foldl (fun s r => match s.eview r with
          | some v => if v.co.rstep.isSome then v.snapshot s else s
          | none => s) s

/-! ## One bundle (R75 to R114, R239, R244) -/

/-- Mark the lines that a bundle touches as issued from, in one partition. -/
def touchIn (ls : List Line) (ns : List Nat) (x : Nat) : List Line := ls.map fun l => if ns.contains l.tag then { l with used := x } else l

/-- Mark the lines that a bundle of a cluster touches as issued from, in its L0 partition and in its core's L1 (R91). -/
def Core.touchLines (c : Core) (k pc len x : Nat) : Core :=
  let ns := linesOf pc len
  { c.modCl k fun y => { y with l0 := touchIn y.l0 ns x } with l1 := touchIn c.l1 ns x }

/-- The bundle has issued: the sequence moves on unless a transfer or a return has set it. DEDUCED (log 74): a handler's bundle ends a run
of Shadow bundles. -/
def Cluster.issued' (c : Cluster) (x len : Nat) (moved sync shadow : Bool) : Cluster :=
  let c := if moved then c else { c with seq := c.seq.advance len }
  { c with shadowRun := if shadow then c.shadowRun + 1 else 0, lastIssue := some (x, sync, shadow) }

/-- Go past a bundle that TRET.SKIP skips (R244). -/
def Cluster.passOne (c : Cluster) (x : Nat) : Cluster :=
  { c with seq := c.seq.advance (c.skipLen x c.seq.pc).1, skip := c.skip - 1 }

/-- A bundle of the program that TRET.SKIP skips: it carries its Sync flag, and not its Shadow flag (R244). -/
def Cluster.skipOne (c : Cluster) (x : Nat) : Cluster :=
  { c.passOne x with shadowRun := 0, lastIssue := some (x, (c.skipLen x c.seq.pc).2, false) }

/-- Run the syllables of a bundle in order. -/
def State.runSyllables (s : State) : List Instr → State
  | [] => s
  | i :: is => (match exec i s with
    | .next s' => s'
    | _ => s).runSyllables is

/-- What a syllable reads that an error has struck, if anything (R290): of its cluster context, of the format table, or of the table engine's
active plane. -/
def Core.strikes (co : Core) (k : Nat) (i : Instr) : Option Nat :=
  let c := co.cluster k
  match (c.readsOf i).find? c.struck.contains with
  | some e => some e
  | none => match i with
    | .vcvtt .. => co.marks.find? (· == 68 + (c.fmtbase.toNat + c.seq.lc c.fmtsel.toNat) % 16)
    | .teval _ _ _ k => co.planeBad .te false (tableAt k.toNat) 1092
    | _ => none

/-- Run the syllables of a bundle. One that reads what an error has struck raises POISON, beside what others raise (R290). -/
def State.runReads (s : State) (is : List Instr) : State :=
  let t := s.runSyllables is
  match s.view with
  | none => t
  | some v => match is.findSome? (v.co.strikes v.cur.cl) with
    | some e => v.raise t cPoison (BitVec.ofNat 64 e)
    | none => t

/-- Read at once the chunks that a core's block transfers have still to read, at most `n`. -/
def State.rushCopies (s : State) (r : CoreRef) : Nat → State
  | 0 => s
  | n + 1 => match s.eview r with
    | none => s
    | some v => match v.co.copies.find? fun k => k.next * k.w < k.len with
      | none => s
      | some k => (s.tryRun (execXcopyChunk r k.id k.next)).rushCopies r n

/-- What the block transfers in progress of a strand have still to write on a core (R139, R286). -/
def State.toCopy (s : State) (t : Strand) (n : Nat) : List Timed :=
  if t.cores.all fun c => c.copies.all fun k => k.len ≤ k.next * k.w then []
  else
    let late := s.modStrand t.sid fun t => { t with beat := t.beat + 2 ^ 32 }
    match (t.coreRefs.foldl (fun s r => s.rushCopies r (2 ^ 24)) late).strand? t.sid, t.cores[n]? with
    | some u, some old => (match u.cores[n]? with
      | some co => co.agenda.filter fun e => !old.agenda.contains e
      | none => [])
    | _, _ => []

/-- The tags that effects set. -/
def tagsOf (es : List Timed) : List (Nat × Byte) := es.filterMap fun e => match e.act with
  | .tag tile t => some (tile, t)
  | _ => none

/-- The tags that a bundle meets while it waits for what is in flight: those that stand, with which it need not wait, and those
that writes in flight set (R286). -/
def Core.tagsMet (c : Core) (es : List Timed) : List (Nat × Byte) :=
  tagsOf es ++ (tagsOf es).map fun p => (p.1, Sparse.get c.drainedSeen.tags p.1)

/-- Run the syllables of a bundle that sees its core settled: what it issues is left to come (R286). -/
def State.runSettled (s : State) (r : CRef) (is : List Instr) : State :=
  match s.eview { strand := r.strand, core := r.core } with
  | none => s
  | some v =>
    let before := match s.snap with
      | some o => o.cores[r.core]?
      | none => none
    let more := s.toCopy v.st r.core
    let es := v.co.agenda ++ more
    let seen :=
      { (v.co.settled before).withLanded more with coming := if v.st.status == .handler then tagsOf es else v.co.tagsMet es }
    (((v.mod s fun _ => seen).runReads is).modStrand r.strand fun t => t.modCore r.core fun c => c.unsettled seen v.co)

/-- A bundle of `len` bytes at `pc` has issued from a cluster: its sequence moves on unless a transfer has moved it. -/
def State.bundleEnds (u : State) (r : CRef) (pc len beat : Nat) (sync shadow : Bool) : State :=
  let moved := match u.cur with
    | some k => k.moved
    | none => false
  { (u.modStrand r.strand fun y => y.modCore r.core fun c =>
      (c.modCl r.cl fun c => c.issued' beat len moved sync shadow).touchLines r.cl pc len beat) with cur := none }

/-- Raise a precise fault at a bundle that does not run; its flags count all the same (R79, R101, R109). -/
def State.issueFault (s : State) (r : CRef) (t : Strand) (handler : Bool) (next code : Nat) (addr : W64) : State :=
  let c := t.clusterAt r.core r.cl
  let f := flagsAt (if handler then c.l0 else c.issueLines t.beat) c.seq.pc
  let cur : Cur :=
    { sid := t.sid, core := r.core, cl := r.cl, beat := t.beat, pc := c.seq.pc, next, shadow := f.1, handler, moved := false }
  let s := { s with cur := some cur }
  let s := match s.view with
    | some v => v.raise s code addr
    | none => s
  let issued (c : Cluster) : Cluster := { c with lastIssue := some (t.beat, f.2 && !handler, f.1 && !handler) }
  { (s.modStrand t.sid fun t => t.modCl r.core r.cl issued) with cur := none }

/-- Run a bundle's syllables with what it may see: a handler's, and one without Shadow in scoreboard mode, sees every result that was
issued before its beat; any other without Shadow what a drain has landed (R239, R282, R286). -/
def State.runBundle (s : State) (r : CRef) (settled shadow : Bool) (is : List Instr) : State :=
  if settled then s.runSettled r is
  else if shadow then s.runReads is
  else s.seeing r.strand fun s => s.runReads is

/-- What the bundle at a cluster's address does, or the fault it raises, but for the length of a run of Shadow bundles. DEDUCED (log 61).
A line that cannot be fetched for any other reason than poison, memory that does not answer among them, raises FETCH (R92), and one that
an error has struck POISON (R290); the answer where memory does not answer is the model's. DESIGN CHOICE (log 76). -/
def State.runAt (s : State) (r : CRef) (t : Strand) (handler : Bool) : State :=
  let c := t.clusterAt r.core r.cl
  let pc := c.seq.pc
  let poisoned (n : Nat) : Bool := match t.cores[r.core]? with
    | some co => s.linePoisoned t co n
    | none => false
  let ls := if handler then c.l0 else c.issueLines t.beat
  let fault (code n : Nat) : State := s.issueFault r t handler pc code (BitVec.ofNat 64 (if n == pc / 64 then pc else 64 * n))
  match struckLine ls pc with
  | some n => fault cPoison n
  | none => match fetchL0 ls pc with
  | .illegal => s.issueFault r t handler pc cIllegal 0
  | .missing n => fault (if poisoned n then cPoison else cFetch) n
  | .bundle b =>
    let f := bundleFlags b
    let len := 4 * b.len
    if c.seq.crosses len then s.issueFault r t handler (pc + len) cIllegal 0
    else
      let cur : Cur := { sid := t.sid, core := r.core, cl := r.cl, beat := t.beat, pc, next := pc + len, shadow := f.1, handler, moved := false }
      let s := { s with cur := some cur }.runBundle r (handler || (!f.1 && t.beat < c.horizon)) f.1 b.syls
      s.bundleEnds r pc len t.beat (f.2 && !handler) (f.1 && !handler)

/-- Issue the bundle at a cluster's address. A 65th Shadow bundle raises SHADOW beside whatever else it raises (R109, R252). -/
def State.issueBundle (s : State) (r : CRef) (t : Strand) (handler : Bool) : State :=
  let c := t.clusterAt r.core r.cl
  let long := !handler && 64 ≤ c.shadowRun && (flagsAt (c.issueLines t.beat) c.seq.pc).1
  let s := s.runAt r t handler
  if long then s.raiseP t cShadow r.core r.cl true 0 else s

/-- A cluster in its handler may issue: what the handler has loaded, and what it waits for, has come (R239).
DEDUCED (log 33). -/
def Cluster.handlerReady (c : Cluster) : Bool :=
  let d := c.depth
  c.handling && !c.halted &&
  !(c.lq.entries ++ c.sq.entries).any (fun e => e.handler == d && e.op.dest.isSome) && c.arrive.isEmpty &&
  c.waits.all fun w => w.handler != d || w.seenAt.isSome

/-- A P cause of this beat stands, raised by a cluster. -/
def Strand.faulted (t : Strand) (r : CRef) : Bool := t.raised.any fun c => c.kind == .p && c.core == r.core && c.cl == r.cl

/-- What a handler's bundle issued lands at once, at the beat at which the strand stands, over what was to come there; of its results for
one register the one from the later slot kind stands (R104, R150, R239). DESIGN CHOICE
(log 77): its accesses of the scratchpad charge no capacity. -/
def State.landNew (s : State) (r : CRef) (before : Strand) : State :=
  let old := match before.cores[r.core]? with
    | some o => o.agenda
    | none => []
  match s.eview { strand := r.strand, core := r.core } with
  | none => s
  | some v =>
    let new := (sortBy (fun a b => decide (a.ord ≤ b.ord)) (v.co.agenda.filter fun e => !old.contains e)).map fun e =>
      { e with beat := before.beat, act := v.co.outcome v.co.re.flips e.act }
    let s := v.mod s fun c => { ({ c with agenda := c.agenda.filter old.contains } : Core).landUnder before.beat new with pending := [] }
    new.foldl (fun s e => s.applyAct { strand := r.strand, core := r.core } e.beat e.act) s

/-- One bundle of a handler: its lines are fetched at once, it takes whole effect or none, and its results land before the next
(R239). -/
def State.handlerBundle (s : State) (r : CRef) (t : Strand) : State :=
  let c := t.clusterAt r.core r.cl
  if !c.handlerReady then s
  else
    let s := (s.lookUp r c.seq.pc Cluster.l0 2 false).1
    match s.strand? t.sid with
    | none => s
    | some t =>
      let s := s.modStrand t.sid fun t => t.modCl r.core r.cl fun c => { c with waits := c.waits.filter fun w => w.handler != c.depth }
      if c.skip != 0 then s.modStrand t.sid fun t => t.modCl r.core r.cl fun c => c.passOne t.beat else
      let s' := { s with snap := some t }.issueBundle r t true
      match s'.strand? t.sid with
      | none => s'
      | some t' =>
        if t'.faulted r then
          (s'.modStrand t.sid fun _ => { t with raised := t.raised ++ t'.raised.filter fun c => c.kind == .p && !t.raised.contains c })
        else
          s'.landNew r t

/-- ISSUE: one cluster's bundle of the beat. -/
def State.issueAt (s : State) (r : CRef) : State :=
  match s.strand? r.strand with
  | none => s
  | some t =>
    let c := t.clusterAt r.core r.cl
    if t.status == .handler then s.handlerBundle r t
    else if c.skip != 0 && !c.halted then s.modStrand t.sid fun t => t.modCl r.core r.cl fun c => c.skipOne t.beat
    else if c.issues t.beat then s.issueBundle r t false
    else s

/-! ## Starts (R134, R185, R255) -/

/-- The event that starts a command. -/
def startEv (r : CoreRef) : Instr → Ev
  | .mcfg _ _ _ _ e => .mcfgStart r (if e == 0 then .me else if e == 1 then .te else .re)
  | .cfgld _ _ _ _ _ _ _ e => .cfgldStart r (if e == 0 then .me else if e == 1 then .te else .re)
  | .cfgswap _ _ e => .cfgswapStart r (if e == 0 then .me else if e == 1 then .te else .re)
  | .mgo .. => .mgoStart r
  | .mstop .. => .mstopStart r
  | .mbase .. => .mbaseStart r
  | .mfmt .. => .mfmtStart r
  | .aczero .. => .aczeroStart r
  | .tload .. => .tloadStart r
  | .rload .. => .rloadStart r
  | .rstep .. => .rstepStart r
  | .tsld .. => .tsldStart r
  | .tsev .. => .tsevStart r
  | _ => .xcopyStart r

/-- The next start of the beat: block transfers of every core, then on each core the matrix engine's commands and step, the
table engine's and the rule engine's. -/
def State.nextStart (s : State) (t : Strand) : Option Ev :=
  let each (f : CoreRef → EView → Option Ev) : Option Ev := t.coreRefs.findSome? fun r => match s.eview r with
    | none => none
    | some v => f r v
  let cmd (u : Unit') (r : CoreRef) (v : EView) : Option Ev := (v.co.due u v.x).map fun c => startEv r c.ins
  match each (cmd .bte) with
  | some e => some e
  | none => each fun r v => match cmd .me r v with
    | some e => some e
    | none =>
      if v.co.stepDue v.x then some (.matrixBlockStep r)
      else match cmd .te r v with
        | some e => some e
        | none => cmd .re r v

/-- STARTS: the next start of the beat, until none is left. -/
def State.starts (s : State) (sid : Nat) : State :=
  match s.strand? sid with
  | none => s
  | some t =>
    let s := s.settleNests t
    match s.nextStart t with
    | some e => s.first [.ev e, .starts sid]
    | none => s

/-! ## Claims (R134, R205) -/

/-- One claim of a bundle: capacity, or a bank it frees that is a C bank of a nest since the commands of the beat have started, be the nest
ended by them or not (R134, R197, R201). -/
def State.claimOne (s : State) (sid n : Nat) (p : Pending) : State :=
  match s.strand? sid with
  | none => s
  | some t =>
    let s := match p.claim with
      | none => s
      | some c => if t.fits [(n, c)] then s.commitClaims sid [(n, c)] else s.raiseP t cSchedule n p.cl p.shadow 0
    match p.bank, t.cores[n]? with
    | some b, some co => if co.cBusy b t.beat then s.raiseP t cAlloc n p.cl p.shadow (BitVec.ofNat 64 b) else s
    | _, _ => s

/-- CLAIMS: the claims of the beat's bundles, clusters rising, beside what has been committed. -/
def State.claimAll (s : State) (sid : Nat) : State :=
  match s.strand? sid with
  | none => s
  | some t => t.coreRefs.foldl (fun s r => match t.cores[r.core]? with
      | none => s
      | some co => (sortBy (fun a b => decide (a.cl ≤ b.cl)) co.pending).foldl (fun s p => s.claimOne sid r.core p) s) s

/-! ## The end of a beat (R101, R114, R245, R247, R281) -/

/-- A cluster has issued a Sync bundle on a beat. -/
def Cluster.synced (c : Cluster) (x : Nat) : Bool := match c.lastIssue with
  | some (b, sync, _) => b == x && sync
  | none => false

/-- SYNC-BREAK for each Sync bundle of a beat that some cluster of its group has not matched. -/
def State.syncBreaks (s : State) (t : Strand) : State :=
  t.contexts.foldl (fun s r =>
    let c := t.clusterAt r.core r.cl
    let broken := (t.contexts.filter fun q => q.core == r.core).any fun q => !(t.clusterAt q.core q.cl).synced t.beat
    let shadow := match c.lastIssue with
      | some (_, _, h) => h
      | none => false
    let skipped := match s.snap with
      | some o => (o.clusterAt r.core r.cl).skip != 0
      | none => false
    if c.synced t.beat && broken && !skipped then s.raiseP t cSync r.core r.cl shadow 0 else s) s

/-- Some bundle of the beat raised a precise cause: no bundle of it takes effect and nothing starts at it, and the strand stops before it
(R101, R134, R281). -/
def State.undoBeat (s : State) (t : Strand) : State :=
  match s.snap with
  | some old =>
    let ps := t.raised.filter fun c => c.kind == .p && !old.raised.contains c
    let s := { s with snap := none }.modStack t.stack fun k => { k with steps := s.snapSteps }
    (s.modStrand t.sid fun _ => { old with raised := old.raised ++ ps }).first [.ev (.strandStop t.sid)]
  | none => s.first [.ev (.strandStop t.sid)]

/-- RENDEZVOUS for each cluster that holds, or is about to, beside one of its mask that has halted (R114). DESIGN CHOICE (log 72): one that
is in its lead bundles when the other halts raises it as its hold begins. -/
def State.rendezvousFaults (s : State) (t : Strand) : State :=
  t.contexts.foldl (fun s r => match (t.clusterAt r.core r.cl).rdv, t.cores[r.core]? with
    | some d, some co =>
      if d.beat + 8 ≤ t.beat + 1 && co.someHalted d.mask && !(co.cluster r.cl).halted &&
          !t.raised.any (fun c => c.code == cRdv && c.kind == .a && c.core == r.core && c.cl == r.cl) then
        s.raiseA t.sid cRdv r.core r.cl d.mask.toNat (hold := true)
      else s
    | _, _ => s) s

/-- What the beat's bundles have read of tables and of `rgc` is decided (R134, R184, R188). -/
def Strand.decideAll (t old : Strand) : Strand := { t with cores := List.zipWith Core.decideAll t.cores old.cores }

/-- The strand goes on to its next beat; the beat that issues a declaration is none of its beats (R245; DEDUCED, log 55). -/
def Strand.nextBeat (t : Strand) : Strand :=
  let x := t.beat + 1
  { t with
    beat := x,
    decl := t.decl.map fun d => { d with left := if d.fresh then d.left else d.left - 1, fresh := false },
    cores := t.cores.map fun c =>
      { c.pruneCopies x with
        pending := [], claims := c.claims.filter (fun k => x ≤ k.beat), cbusy := c.cbusy.filter (fun b => x < b.2),
        cl := c.cl.map fun k => { k with gone := k.gone.filter fun g => x < g.1 } } }

/-- ENDBEAT: the beat is over, or comes to nothing. -/
def State.endBeat (s : State) (sid : Nat) : State :=
  match s.strand? sid with
  | none => { s with snap := none }
  | some t0 =>
    let s := s.syncBreaks t0
    match s.strand? sid with
    | none => s
    | some t =>
      if t.raised.any (fun c => c.kind == .p) then s.undoBeat t
      else
        let before := s.snap.getD t
        let s := ((s.rendezvousFaults t).modStrand sid fun t => (t.decideAll before).nextBeat).lookNext sid
        let lapse := match s.strand? sid with
          | some t => (match t.decl with
            | some d => d.left == 0
            | none => false)
          | none => false
        let fall := match s.strand? sid with
          | some t => t.fallDue
          | none => false
        { s with snap := none }.first ((if lapse then [Job.ev (.deadlineLapse sid)] else []) ++ (if fall then [Job.ev (.regionLevelFall sid)] else []))

/-! ## Slots of a handler (R239, R243, R284) -/

/-- What has arrived for a handler is written at once, over what was to come there (R239). -/
def Strand.arriveAll (t : Strand) : Strand := t.contexts.foldl (fun t r =>
  let es := (t.clusterAt r.core r.cl).arrive.map fun a => ({ beat := t.beat, ord := 0, act := .scalar r.cl a.1 a.2 } : Timed)
  t.modCore r.core fun c => ((c.landUnder t.beat es).withLanded es).modCl r.cl fun k => { k with arrive := [] }) t

/-- One slot while some trap bank is in use: each handling cluster issues one bundle. -/
def State.handlerSlot (s : State) (t : Strand) : State :=
  let s := s.modStrand t.sid Strand.arriveAll
  s.first ((t.contexts.filter fun r => (t.clusterAt r.core r.cl).handling).map .issue ++ [.endBeat t.sid])

/-- The end of such a slot: a trap from a handler, or the return to the program once no bank is in use, with the lead of R68. -/
def State.handlerEnd (s : State) (t : Strand) : State :=
  let s := { s with snap := none }
  let cyc := (s.stack t.stack).cyc
  if s.stopDue t then s.first [.ev (.strandStop t.sid)]
  else if t.handling then s
  else (s.modStrand t.sid fun t =>
    { t with status := .run, freeze := some { why := .ret, since := cyc, resume := some (cyc + 8 * t.stride) } }).lookStart t.sid

/-- BEAT: what a strand does on a cycle of its lattice, by how it stands. -/
def State.beatAt (s : State) (sid : Nat) : State :=
  match s.strand? sid with
  | none => s
  | some t => match t.status with
    | .run => s.boundary sid
    | .handler => s.handlerSlot t
    | _ => s

/-- The end of a slot, by how the strand stands. -/
def State.endAt (s : State) (sid : Nat) : State :=
  match s.strand? sid with
  | none => s
  | some t => if t.status == .handler then s.handlerEnd t else s.endBeat sid

end Sys2Proof.Machine
end

