-- ==== Sys2Proof/Machine/Clock.lean ====
section
/-! DEFINITION. The clocks: a cycle of a stack, its elastic queues and waits, the governor's and the dispatcher's rounds, and one
nanosecond of the device (R7, R21, R22, R32, R40 to R49, R58, R68, R224, R271 to R280). -/

namespace Sys2Proof.Machine

/-! ## A cycle of a stack (R57, R58, R278 to R280) -/

/-- A stack's count, signature and stretch move on by a cycle. The block steps of the strands that drain count with those of the cycle
(R278, R287). -/
def Stack.nextCycle (k : Stack) (drains : Nat → Bool) : Stack :=
  let now := (k.late.filter fun e => drains e.1 && e.2.1 == k.cyc).map (·.2.2)
  { k with cyc := k.cyc + 1, sig := k.sig <<< 2 ||| BitVec.ofNat 32 (droopBucket (k.steps + now.sum)), steps := 0,
           late := k.late.filter fun e => drains e.1 && k.cyc < e.2.1, stretch := k.stretch.map fun n => n - 1 }

/-- The stack has a scrub that has ended. -/
def Stack.scrubDue (k : Stack) : Bool := k.scrubs.any fun x => x.stop ≤ k.cyc

/-- The stack has a lattice change due. -/
def State.flipDue (s : State) (k : Nat) : Bool := s.strands.any fun t => t.stack == k && (match t.flip with
  | some f => f.cyc ≤ (s.stack k).cyc
  | none => false)

/-- A strand of the device drains. -/
def State.drains (s : State) (sid : Nat) : Bool := (s.strand? sid).any fun t => match t.status with
  | .drain _ => true
  | _ => false

/-- CYCLE: a stack cycle begins: scrubs that have ended, the lattices that flip, the window that commits, a droop signature,
then the slots, the elastic queues and the waits; the tasks of strands that have come to the third level end with it. -/
def State.cycle (s : State) (k : Nat) : State :=
  let s := s.modStack k fun t => t.nextCycle s.drains
  let t := s.stack k
  let when (b : Bool) (e : Ev) : List Job := if b then [.ev e] else []
  s.first (when t.scrubDue (.scrubComplete k) ++ when (s.flipDue k) (.weaveFlip k) ++ when (t.cyc % 16 == 0) (.commitWindow k) ++
    when (t.droop.contains t.sig) (.droopSignatureMatch k) ++ when (t.stretch == some 0) (.droopStretchEnd k) ++
    [.slots k, .elastic k, .waits k, .fallen])

/-- SLOTS: the strands of a stack whose lattice holds this cycle, in weave index order. -/
def State.slots (s : State) (k : Nat) : State :=
  let due := s.strands.filter fun t => t.stack == k && t.nextCyc ≤ (s.stack k).cyc && t.status != .placed
  s.first ((sortStrands (·.wix) due).map fun t => .slot t.sid)

/-! ## The elastic queues (R224) -/

/-- The contexts of the strands on a stack that have not ended, by physical core and cluster (R249). -/
def State.liveContexts (s : State) (k : Nat) : List CRef :=
  let key (t : Strand) (r : CRef) : Nat := match t.cores[r.core]? with
    | some co => 4 * co.phys + r.cl
    | none => 0
  let all := (s.strands.filter fun t => t.stack == k && t.status != .ended).flatMap fun t => t.contexts.map fun r => (key t r, r)
  (sortBy (fun a b => decide (a.1 ≤ b.1)) all).map (·.2)

/-- The next elastic event of a stack that is due. -/
def State.nextElastic (s : State) (k : Nat) : Option Ev :=
  (s.liveContexts k).findSome? fun r => match s.qview r with
    | none => none
    | some q =>
      if (q.pickMark s).isSome then some (.markerRetire r)
      else [QName.lq, QName.sq].findSome? fun n => (q.cl.queue n).entries.findSome? fun e =>
        if e.ready != 0 && e.ready ≤ (s.stack k).cyc then q.eventOf s n e else none

/-- Give every entry that may take its next step the cycle at which it does. -/
def State.drawDelays (s : State) (k : Nat) : State :=
  (s.liveContexts k).foldl (fun s r => [QName.lq, QName.sq].foldl (fun s n => match s.qview r with
    | none => s
    | some q => (q.cl.queue n).entries.foldl (fun s e =>
        if e.ready == 0 && (q.eventOf s n e).isSome then
          let d := s.fresh
          q.put d.2 n e { e with ready := (s.stack k).cyc + 1 + d.1 }
        else s) s) s) s

/-- ELASTIC: the next elastic event of the stack, until none is due. -/
def State.elastic (s : State) (k : Nat) : State := match s.nextElastic k with
  | some e => s.first [.ev e, .elastic k]
  | none => s.drawDelays k

/-! ## Waits, drains and grants (R21, R68, R92, R147, R229, R233, R276) -/

/-- Look at the waits of the strands of a stack that run, in their program or in a handler. -/
def State.lookWaits (s : State) (k : Nat) : State :=
  (s.strands.filter fun t => t.stack == k && (t.status == .run || t.status == .handler)).foldl (fun s t => s.lookWaitsOf t) s

/-- What ends for a strand on this cycle: the filling of its lines, a page walk, its drain. -/
def Strand.endings (t : Strand) (cyc : Nat) : List Ev :=
  (if t.fills.any fun f => f.ended.isNone && f.ready ≤ cyc then [.fetchLineFill t.sid] else []) ++
  (if t.walks.any fun w => w.ended.isNone && w.ready ≤ cyc then [.translationWalk t.sid] else []) ++
  (match t.status with
    | .drain _ => if t.stopCyc ≤ cyc && t.elasticDone then [.drainEnd t.sid] else []
    | _ => [])

/-- WAITS: the conditions that waits look at, then what has come, and one grant of the governor. -/
def State.waitsAt (s : State) (k : Nat) : State :=
  let s := s.lookWaits k
  let evs := (s.strands.filter fun t => t.stack == k).flatMap fun t => t.endings (s.stack k).cyc
  s.first (evs.map .ev ++ (if (s.grantable k).isSome then [.ev (.powerGrant k), .waits k] else []))

/-! ## The governor's and the dispatcher's rounds -/

/-- GOVERN: a trip, evaluations and changes of point that are due, and the link's grace (R272, R275, R308, R322). -/
def State.govern (s : State) : State :=
  let ks := List.range 4
  let pts := ks.flatMap fun k => ((s.stack k).pointPending.filter fun p => p.2 ≤ s.wtime).map fun _ => k
  let gov := ks.filter fun k => (s.stack k).evalAt ≤ s.wtime
  let grace := match s.lostAt with
    | some t0 => if !s.linkHolding && t0 + s.linkgrace.toNat ≤ s.wtime then [Job.ev .linkgraceExpiry] else []
    | none => []
  s.first ((if s.overheated then [Job.ev .thermalSafetyTrip] else []) ++ pts.map (fun k => .ev (.operatingPointChange k)) ++ gov.map (fun k => .ev (.governorEvaluation k)) ++ grace)

/-- A teardown whose context is empty leaves its record to be written (R45). -/
def State.endTeardowns (s : State) : State :=
  s.contexts.foldl (fun s c =>
    if s.tornEmpty c then s.modCtx c.num fun c => { c with teardown := none, records := c.records ++ c.teardown.toList } else s) s

/-- Every teardown that has found no slot for its record looks for one, before a discard does (R49). -/
def State.holdTeardowns (s : State) : State := s.contexts.foldl (fun s c => s.holdTeardown c.num) s

/-- The first discard of a device queue, finding a slot free, passes its packet and leaves its record to be written (R44, R49). -/
def State.endDiscards (s : State) : State :=
  s.contexts.foldl (fun s c => match c.dqDiscards with
    | [] => s
    | d :: rest => if s.ringFree c then s.modCtx c.num fun c =>
        { c with dqDiscards := rest, dqHead := c.dqHead + BitVec.ofNat 32 d.2, reserved := c.reserved + 1,
                 records := c.records ++ [{ d.1 with num := s.nextNum, held := true }] }
      else s) s

/-- Every queue that can wait for a word. -/
def allQueues : List QRef := (List.range 128).map rrQueue

/-- What is due in a queue: a poll, then its timeout; a packet read again, or given up (R32, R35). -/
def State.queueEvs (s : State) (q : QRef) : List Ev :=
  (match s.waitOf q with
    | some (p, t0, next) => (if next ≤ s.wtime then [Ev.waitwordPoll q] else []) ++
        (if p.timeout != 0 && t0 + p.timeout.toNat ≤ s.wtime then [Ev.waitTimeout q] else [])
    | none => []) ++
  (match q with
    | .device _ => []
    | .host n => (match (s.queue n).read with
      | some (t0, next, _) => if !s.canAccept q then [] else
          if t0 + 64000 ≤ s.wtime then [Ev.tornPacket q] else if next ≤ s.wtime then [Ev.packetReread q] else []
      | none => []))

/-- What is due in the waiting set (R22). -/
def State.waitingEvs (s : State) : List Ev :=
  (s.waiting.filter fun w => 0 < w.cls && w.raisedAt + 1000000 ≤ s.wtime).map (fun w => Ev.launchAgeing w.num) ++
  ((List.range 7).filter fun p => (s.reservable p).isSome).map Ev.launchReservation

/-- End the tasks whose strands have all ended. -/
def State.endTasks (s : State) : Nat → State
  | 0 => s
  | n + 1 => match s.taskEnding with
    | none => s
    | some t => (s.endTask t).endTasks n

/-- DISPATCH: the dispatcher's round (R22, R32, R35, R40 to R49, R288, R302). A reset that has come to its end is over first; during a
function-level reset the dispatcher rests (R306, R307). -/
def State.dispatch (s : State) : State :=
  let s := if s.resetOver then s.endReset else s
  if s.wholeReset then s else
  let s := ((s.endHold.endTeardowns.holdTeardowns.endDiscards).endTasks s.tasks.length).serveReplays
  let evs := s.waitingEvs ++ allQueues.flatMap s.queueEvs ++ (s.after.filter s.priorDone).map (fun a => Ev.afterPriorStore a.num) ++
    (s.tasks.filter fun t => t.expected.isSome && !s.redoing t.num).map (fun t => Ev.digestReexecution t.num) ++
    (s.contexts.filter s.recordDue).map fun c => Ev.ringRecordWrite c.num
  let s := s.serveNext
  { s with todo := s.todo ++ evs.map .ev }

/-! ## One nanosecond (R7, R272, R278, R279) -/

/-- What a stack's clock gains in a nanosecond, and what a cycle costs it: 600 + 60 k MHz, each cycle of s/8 periods, doubled by a
droop stretch. DEDUCED (log 5). -/
def Stack.gain (k : Stack) : Nat := 8 * (60 + 6 * k.runPoint)
/-- What a cycle costs. -/
def Stack.cost (k : Stack) : Nat := 100 * k.thermal * (match k.stretch with
  | some n => if n == 0 then 1 else 2
  | none => 1)

/-- CLOCK: the cycles of a stack that end in this nanosecond, one after the other: a stretch that begins or ends between them counts for
those that follow (R278). -/
def State.clock (s : State) (k : Nat) : State :=
  let c := (s.stack k).cost
  if (s.stack k).up && c ≤ (s.stack k).acc then (s.modStack k fun t => { t with acc := t.acc - c }).first [.cycle k, .clock k] else s

/-- TICK: a nanosecond passes. -/
def State.tick (s : State) : State :=
  { s with wtime := s.wtime + 1, stks := s.stks.map (fun k => if k.up then { k with acc := k.acc + k.gain } else k),
           todo := [.clock 0, .clock 1, .clock 2, .clock 3, .govern, .dispatch] }

/-- The strand of an event by which an engine reads its core's stores: it sees what a drain has landed (R282). -/
def Ev.reader : Ev → Option Nat
  | .mcfgStart c _ => some c.strand
  | .cfgldStart c _ => some c.strand
  | .mgoStart c => some c.strand
  | .matrixBlockStep c => some c.strand
  | .mstopStart c => some c.strand
  | .mbaseStart c => some c.strand
  | .mfmtStart c => some c.strand
  | .aczeroStart c => some c.strand
  | .xcopyStart c => some c.strand
  | .xcopyChunk c _ _ => some c.strand
  | .tsldStart c => some c.strand
  | .tsevStart c => some c.strand
  | .tloadStart c => some c.strand
  | .rloadStart c => some c.strand
  | .rstepStart c => some c.strand
  | _ => none

/-- Run an event of the schedule. One whose occasion has passed is dropped. -/
def State.runEvent (s : State) (e : Ev) : State :=
  let go (s : State) : State := match runEv e s with
    | .next s' => s'
    | _ => s
  match e.reader with
  | some sid => s.seeing sid go
  | none => go s

/-- Run a task of the schedule. -/
def State.runJob (s : State) : Job → State
  | .ev e => s.runEvent e
  | .clock k => s.clock k
  | .cycle k => s.cycle k
  | .slots k => s.slots k
  | .slot sid => s.slot sid
  | .beat sid => s.beatAt sid
  | .evs sid => s.evs sid
  | .issue r => s.issueAt r
  | .starts sid => s.starts sid
  | .claims sid => s.claimAll sid
  | .endBeat sid => s.endAt sid
  | .elastic k => s.elastic k
  | .waits k => s.waitsAt k
  | .fallen => s.endFallen
  | .dispatch => s.dispatch
  | .govern => s.govern

end Sys2Proof.Machine
end

