-- ==== Sys2Proof/Machine/FetchWord.lean ====
section
/-! DEFINITION. Placing one instruction where the next step issues it: what a loaded image, an admitted strand and a filled
instruction line come to. DESIGN CHOICE (log 14). -/

namespace Sys2Proof.Machine

/-- The footprint of the strand that stands ready to issue: one core and all that a core has (R25). -/
def wholeCore : Footprint :=
  { strideCode := 0, pin := none, cores := 1, mask := 15, me := true, te := true, re := true, bte := true, groups := 4, planes := 32,
    banks := 32, acc := 32, slots := 32, share := 16384 }

/-- Every unit of a core. -/
def wholeUnits : Units :=
  { slot := 0, banks := List.range 32, planes := List.range 32, acc := List.range 32, shapes := List.range 32 }

/-- The 64 bytes of an instruction line that begins with a bundle of one syllable: the words of `w` with End set, then zeros. -/
def wordLine (nbits w : Nat) : List Byte :=
  let n := w % 2 ^ nbits
  bytesOf 64 (if n / 2 ^ 31 % 2 == 1 then n else n + 2 ^ 31)

/-- A strand of a whole core, as admission leaves it, with cluster c0 at address 0 and its line filled with `bytes`. -/
def readyStrand (sid : Nat) (bytes : List Byte) : Strand :=
  let p : Placed := { stack := 0, phase := 0, cores := [(0, wholeUnits)], grains := [], lane := none }
  let c0 : Cluster := { Cluster.zero with inMask := true, l0 := [{ tag := 0, bytes := some bytes, pinned := false, used := 0 }] }
  let c1 : Cluster := { Cluster.zero with inMask := true }
  { p.stub { fp := wholeCore, stride := 1, pin := none } with
    sid, status := .run, cores := [{ Core.zero 0 wholeUnits with cl := #v[c0, c1, c1, c1] }] }

/-- The state with a ready strand whose beat has come to its bundles. -/
def State.readyToIssue (s : State) (bytes : List Byte) : State :=
  let t := readyStrand s.nextSid bytes
  { s with strands := s.strands ++ [t], nextSid := s.nextSid + 1, snap := some t, cur := none,
           todo := [.issue { strand := t.sid, core := 0, cl := 0 }, .starts t.sid, .claims t.sid, .endBeat t.sid] }

end Sys2Proof.Machine
end

