-- ==== Sys2Proof/Machine/Step.lean ====
section
/-! DEFINITION. One step of the device: the next task of the present moment, or an input that has come, or the next
nanosecond. -/

namespace Sys2Proof.Machine

/-- One step. -/
def step (s : State) : Host.Outcome State Fault Refusal :=
  match s.todo with
  | j :: js => .next ({ s with todo := js }.runJob j)
  | [] => match s.inputs with
    | [] => .next s.tick
    | (at_, i) :: is => if at_ ≤ s.wtime then exec i { s with inputs := is } else .next s.tick

/-- The state in which the next step issues the instruction whose bits are `w`. -/
def State.withFetchWord (s : State) (nbits w : Nat) : State := s.readyToIssue (wordLine nbits w)

end Sys2Proof.Machine
end

