-- ==== Sys2Proof/Safety.lean ====
section
/-! DEFINITION. What the statements speak of: the invariants that every step keeps, when operands can be read and a draw be
afforded, results that land, and frames. -/

namespace Sys2Proof.Machine

/-! ## Invariants -/

/-- Memory is in canonical form: addresses strictly rising, no byte equal to what an unlisted address reads as. -/
def State.MemOk (s : State) : Prop := Memory.wf s.mem = true

/-! ## Operands -/

/-- No source reads a queue that holds no appended entry (R105). -/
def View.readable (v : View) (as : List VSrc) : Prop := ∀ a ∈ as, ∀ n, srcQueue a = some n → v.cl.queueOf n ≠ []

/-- The strand is outside a high-current region, or the region's level is not below a draw (R246). -/
def View.affords (v : View) (lvl : Nat) : Prop := v.st.region.on = false ∨ lvl ≤ v.st.region.level

/-! ## Encodings -/

/-- Each instruction's word has the kind and the opcode given (R76, R79, R80). -/
def Opcodes (kind : Nat) (l : List (Instr × Nat)) : Prop :=
  ∀ p ∈ l, ((encode p.1).headD 0).toNat / 2 ^ 29 % 4 = kind ∧ ((encode p.1).headD 0).toNat / 2 ^ 22 % 2 ^ 7 = p.2

/-! ## Results -/

/-- An instruction answers a next state in which a scalar result that satisfies `P` is to land in `d` after `lat` beats. -/
def LandsScalar (s : State) (v : View) (lat : Nat) (d : Reg) (i : Instr) (P : W64 → Prop) : Prop :=
  ∃ z, exec i s = .next (v.land s lat 0 (.scalar v.cur.cl d z)) ∧ P z

/-- An instruction answers a next state in which a predicate result is to land in `d` after one beat. -/
def LandsPred (s : State) (v : View) (d : PReg) (i : Instr) (z : W64) : Prop :=
  exec i s = .next (v.land s 1 0 (.pred v.cur.cl d.toNat z (BitVec.allOnes 64)))

/-- A V instruction answers a next state in which its pops are taken and a result, `f j` in each lane `j`, is to land in the
active lanes of `d` after `lat` beats. -/
def LandsLanes (s : State) (v : View) (as : List VSrc) (lat : Nat) (h : Head) (d : VDst) (i : Instr) (f : Nat → W32) : Prop :=
  ∃ x : Lanes, exec i s = .next (v.land (v.modCl s fun c => c.pop as) lat 1 (.vec v.cur.cl d (v.active h) x)) ∧
    ∀ j < 64, lane x j = f j

/-- A vector compare answers a next state in which its pops are taken, the condition's bits are to land in the active lanes of
a predicate after one beat, and all ones or zero in each lane of the last-result file after `lat`. -/
def LandsCompare (s : State) (v : View) (as : List VSrc) (lat : Nat) (h : Head) (d : PReg) (i : Instr) (f : Nat → Bool) : Prop :=
  ∃ (m : W64) (x : Lanes),
    exec i s = .next (v.land (v.land (v.modCl s fun c => c.pop as) 1 1 (.pred v.cur.cl d.toNat m (v.active h))) lat 1
      (.vec v.cur.cl .last (v.active h) x)) ∧
    (∀ j < 64, bitAt m j = f j) ∧ ∀ j < 64, lane x j = if f j then BitVec.allOnes 32 else 0

/-! ## Bundles -/

/-- The syllables of a bundle answer next states in turn, from one state to another. -/
def runsTo : List Instr → State → State → Prop
  | [], s, u => s = u
  | i :: is, s, u => ∃ v, exec i s = .next v ∧ runsTo is v u

/-- Replace one core of a strand. -/
def State.withCore (s : State) (r : CRef) (f : Core → Core) : State := s.modStrand r.strand fun t => t.modCore r.core f

/-! ## Occasions -/

/-- A command stands at the head of an engine's queue to start on this beat, and no swap that started earlier has still to flip
(R138, R185). -/
def State.startsCmd (s : State) (c : CoreRef) (u : Unit') (v : EView) (cmd : Cmd) : Prop :=
  s.eview c = some v ∧ v.co.due u v.x = some cmd ∧ ∀ k ∈ (v.co.eng u).swaps, v.x ≤ k.stamp

/-- The state in which that command has left its queue. -/
def EView.took (v : EView) (s : State) (u : Unit') : State :=
  v.mod s fun co => co.modEng u fun e => { e with q := e.q.drop 1 }

/-- An entry of an elastic queue takes its step now (R224). -/
def State.picks (s : State) (r : CRef) (n : QName) (ok : Entry → Bool) (q : QView) (e : Entry) : Prop :=
  s.qview r = some q ∧ q.pick s n ok = some e

/-! ## Memory as it is read -/

/-- At the places that see it, `n` bytes from `b` read as `f` says; every other byte, and every byte elsewhere, reads as
before. -/
def State.Writes (s t : State) (b n : Nat) (f : Nat → Byte) (sees : Place → Prop) : Prop :=
  ∀ p x, (b ≤ x → x < b + n → sees p → t.busByte p x = f (x - b)) ∧
    (x < b ∨ b + n ≤ x ∨ ¬ sees p → t.busByte p x = s.busByte p x)

/-- A place sees a write in flight that stands over a byte of memory. -/
def State.covered (s : State) (p : Place) (x : Nat) : Prop := ∃ f ∈ s.flight, f.seenBy p = true ∧ ∃ c ∈ f.cells, c.1 = x

/-- `n` bytes from `b` are written at device scope, as `f` says: each reads so at every place that sees no write in flight over it, which
follows in coherence order (R257; log 80); every other byte reads as before, and so does one whose memory does not answer. -/
def State.WritesDevice (s t : State) (b n : Nat) (f : Nat → Byte) : Prop := ∀ p x,
  (b ≤ x → x < b + n → s.drops x = false → ¬ s.covered p x → t.busByte p x = f (x - b)) ∧
  (x < b ∨ b + n ≤ x ∨ s.drops x = true ∨ s.covered p x → t.busByte p x = s.busByte p x)

/-- The places that see a write of a cluster once it has performed at a scope level (R253, R261). -/
def QView.sees (q : QView) (l : Nat) (p : Place) : Prop :=
  Flight.reach { id := 0, stack := q.st.stack, core := q.co.phys, sid := q.st.sid, cl := q.ref.cl, cells := [], bad := [], level := l } p ≤ l

/-- Memory reads as before at every place. -/
def State.SameMemory (s t : State) : Prop := ∀ p x, t.busByte p x = s.busByte p x

/-! ## Frames -/

/-- The S forms whose only effect is a register or a predicate (R151 to R158). -/
def isScalarForm : Instr → Bool
  | .add .. | .sub .. | .and .. | .or .. | .xor .. | .andn .. | .shl .. | .shr .. | .sar .. | .rotl ..
  | .mul .. | .mulhI .. | .mulhN .. | .divI .. | .divN .. | .modI .. | .modN .. | .minI .. | .minN ..
  | .maxI .. | .maxN .. | .sel .. | .clz .. | .popc .. | .bfx .. | .bfi .. | .lea .. | .mov .. | .addl ..
  | .subl .. | .andl .. | .orl .. | .xorl .. | .andnl .. | .shll .. | .shrl .. | .sarl .. | .rotll ..
  | .mull .. | .minlI .. | .minlN .. | .maxlI .. | .maxlN .. | .movl .. | .leal .. | .cmpEq .. | .cmpNe ..
  | .cmpLtI .. | .cmpGeI .. | .cmpLtN .. | .cmpGeN .. | .cmplEq .. | .cmplNe .. | .cmplLtI .. | .cmplGeI ..
  | .cmplLtN .. | .cmplGeN .. | .pand .. | .por .. | .pxor .. | .pnot .. | .pfirst .. | .pcount .. | .pany ..
  | .pall .. | .mfs .. | .mts .. => true
  | _ => false

/-- The V forms (R167 to R184). -/
def isVectorForm : Instr → Bool
  | .vadd .. | .vsub .. | .vmul .. | .vmulhI .. | .vmulhN .. | .vminI .. | .vminN .. | .vmaxI .. | .vmaxN ..
  | .vand .. | .vor .. | .vxor .. | .vshl .. | .vshr .. | .vsar .. | .vaddsI .. | .vaddsN .. | .vsubsI ..
  | .vsubsN .. | .vabs .. | .vfadd .. | .vfsub .. | .vfmul .. | .vfma .. | .vfmin .. | .vfmax .. | .vfabs ..
  | .vfneg .. | .vmov .. | .vsel .. | .vcmpEq .. | .vcmpNe .. | .vcmpLtI .. | .vcmpGeI .. | .vcmpLtN ..
  | .vcmpGeN .. | .vfcmpEq .. | .vfcmpLt .. | .vfcmpLe .. | .vfcmpUn .. | .vdot4 .. | .vscaleb .. | .vcvt ..
  | .vcvtt .. | .vpack .. | .vunpk .. | .vrsum .. | .vrmax .. | .vrmin .. | .vscan .. | .vsort .. | .vshuf ..
  | .vrot .. | .vrotZf .. | .vbcast .. | .vrand .. | .teval .. => true
  | _ => false

/-- Between two states nothing but strand `sid` has changed, and it only by `R`: memory, flights, every other strand, every
stack, context, queue and register of the device are as before. The issue's own notes (`cur`) may differ. -/
def State.FrameStrand (s t : State) (sid : Nat) (R : Strand → Strand → Prop) : Prop :=
  t = { s with strands := t.strands, cur := t.cur } ∧
  List.Forall₂ (fun x y => if x.sid = sid then R x y else y = x) s.strands t.strands

/-- Between two strands nothing but logical core `n` has changed, and it only by `R`. -/
def Strand.FrameCore (n : Nat) (R : Core → Core → Prop) (x y : Strand) : Prop :=
  y = { x with cores := y.cores } ∧ ∀ k, Option.Rel (fun a b => if k = n then R a b else b = a) x.cores[k]? y.cores[k]?

/-- Between two cores nothing but the results to land has changed: one that was to land still is, and each new one lands at
a later beat than `b`. -/
def Core.OnlyLands (b : Nat) (x y : Core) : Prop :=
  y = { x with agenda := y.agenda } ∧ ∃ new, List.Perm y.agenda (new ++ x.agenda) ∧ ∀ e ∈ new, b < e.beat

end Sys2Proof.Machine
end

