-- ==== Sys2Proof/Certificates/Slice0/Obligations.lean ====
section
/-! DEFINITION. The statements for the provers: each formalises rules of the manual, named in its docstring. -/

open Sys2Proof Sys2Proof.Machine

/-! ## Scalar arithmetic (R150 to R157) -/

/-- R151, R154: each register form answers, and what lands in d after one beat. R152: products and quotients, with the
borderline cases of its table. -/
def Obligations.ScalarRegisterForms : Prop :=
  (∀ (s : State) (v : View) (h : SHead) (d a b : Reg), s.view = some v → v.guard h.neg h.g = true →
    let x := v.rs a
    let y := v.rs b
    let k := y.toNat % 64
    LandsScalar s v 1 d (.add h d a b) (· = x + y) ∧
    LandsScalar s v 1 d (.sub h d a b) (· = x - y) ∧
    LandsScalar s v 1 d (.and h d a b) (· = x &&& y) ∧
    LandsScalar s v 1 d (.or h d a b) (· = x ||| y) ∧
    LandsScalar s v 1 d (.xor h d a b) (· = x ^^^ y) ∧
    LandsScalar s v 1 d (.andn h d a b) (· = x &&& ~~~y) ∧
    LandsScalar s v 1 d (.shl h d a b) (· = x <<< k) ∧
    LandsScalar s v 1 d (.shr h d a b) (· = x >>> k) ∧
    LandsScalar s v 1 d (.sar h d a b) (fun z => ∀ i < 64, z.getLsbD i = if i + k < 64 then x.getLsbD (i + k) else x.msb) ∧
    LandsScalar s v 1 d (.rotl h d a b) (· = (x <<< k) ||| (x >>> (64 - k))) ∧
    LandsScalar s v 1 d (.minI h d a b) (fun z => (z = x ∨ z = y) ∧ z.toInt = min x.toInt y.toInt) ∧
    LandsScalar s v 1 d (.minN h d a b) (fun z => (z = x ∨ z = y) ∧ z.toNat = min x.toNat y.toNat) ∧
    LandsScalar s v 1 d (.maxI h d a b) (fun z => (z = x ∨ z = y) ∧ z.toInt = max x.toInt y.toInt) ∧
    LandsScalar s v 1 d (.maxN h d a b) (fun z => (z = x ∨ z = y) ∧ z.toNat = max x.toNat y.toNat) ∧
    LandsScalar s v 1 d (.clz h d a) (fun z => z.toNat ≤ 64 ∧ (∀ i < z.toNat, x.getLsbD (63 - i) = false) ∧
      (z.toNat < 64 → x.getLsbD (63 - z.toNat) = true)) ∧
    LandsScalar s v 1 d (.popc h d a) (fun z => z.toNat = ((List.range 64).filter fun i => x.getLsbD i).length) ∧
    LandsScalar s v 1 d (.mov h d a) (· = x)) ∧
  (∀ (s : State) (v : View) (h : SHead) (d a b : Reg), s.view = some v → v.guard h.neg h.g = true →
    let x := v.rs a
    let y := v.rs b
    LandsScalar s v 3 d (.mul h d a b) (· = x * y) ∧
    LandsScalar s v 3 d (.mulhI h d a b) (· = ((x.signExtend 128 * y.signExtend 128) >>> 64).truncate 64) ∧
    LandsScalar s v 3 d (.mulhN h d a b) (· = ((x.zeroExtend 128 * y.zeroExtend 128) >>> 64).truncate 64) ∧
    LandsScalar s v 12 d (.divI h d a b) (fun z => if y = 0 then z = 0
      else if x = BitVec.intMin 64 ∧ y = BitVec.allOnes 64 then z = BitVec.intMin 64 else z.toInt = Int.tdiv x.toInt y.toInt) ∧
    LandsScalar s v 12 d (.divN h d a b) (fun z => if y = 0 then z = 0 else z = x / y) ∧
    LandsScalar s v 12 d (.modI h d a b) (fun z => if y = 0 then z = x else z.toInt = x.toInt - y.toInt * Int.tdiv x.toInt y.toInt) ∧
    LandsScalar s v 12 d (.modN h d a b) (fun z => if y = 0 then z = x else z = x - y * (x / y)))

/-- R153: the field of BFX and BFI, bit by bit. R154, R144: SEL's guard chooses and never suppresses; LEA and LEAL land, or
raise ADDRESS and write nothing. -/
def Obligations.BitFieldSelectAndAddressForms : Prop :=
  ((∀ (s : State) (v : View) (h : SHead) (d a b : Reg), s.view = some v → v.guard h.neg h.g = true →
    let x := v.rs a
    let w := min ((v.rs b).extractLsb' 8 7).toNat 64
    let p := ((v.rs b).extractLsb' 0 6).toNat
    LandsScalar s v 1 d (.bfx h d a b) (fun z => ∀ i < 64, z.getLsbD i = (decide (i < w) && x.getLsbD (p + i))) ∧
    LandsScalar s v 1 d (.bfi h d a b) (fun z => ∀ i < 64, z.getLsbD i =
      if p ≤ i ∧ i < p + w then x.getLsbD (i - p) else (v.rs d).getLsbD i)) ∧
  ∀ (h : SHead) (d a b : Reg), Opcodes 0 [(.bfx h d a b, 0x1A), (.bfi h d a b, 0x1B)]) ∧
  (∀ (s : State) (v : View) (h : SHead) (d a b : Reg) (w : W32), s.view = some v →
    LandsScalar s v 1 d (.sel h d a b) (· = if v.guard h.neg h.g then v.rs a else v.rs b) ∧
    (v.guard h.neg h.g = true →
      let local_ (x : W64) : Prop := x.msb = false ∧ x.toNat ≥ 2 ^ 48
      let e := v.rs a + v.rs b * 8
      let l := v.rs a + w.signExtend 64
      (¬ local_ e → LandsScalar s v 1 d (.lea h d a b) (· = e)) ∧
      (local_ e → exec (.lea h d a b) s = .next (v.raise s 3 e)) ∧
      (¬ local_ l → LandsScalar s v 1 d (.leal h d a w) (· = l)) ∧
      (local_ l → exec (.leal h d a w) s = .next (v.raise s 3 l))))

/-- R155, R77: each literal form acts as its register form with b the literal, sign-extended from bit 31. -/
def Obligations.ScalarLiteralForms : Prop :=
  ∀ (s : State) (v : View) (h : SHead) (d a : Reg) (w : W32), s.view = some v → v.guard h.neg h.g = true →
    let x := v.rs a
    let y := w.signExtend 64
    let k := w.toNat % 64
    LandsScalar s v 1 d (.addl h d a w) (· = x + y) ∧
    LandsScalar s v 1 d (.subl h d a w) (· = x - y) ∧
    LandsScalar s v 1 d (.andl h d a w) (· = x &&& y) ∧
    LandsScalar s v 1 d (.orl h d a w) (· = x ||| y) ∧
    LandsScalar s v 1 d (.xorl h d a w) (· = x ^^^ y) ∧
    LandsScalar s v 1 d (.andnl h d a w) (· = x &&& ~~~y) ∧
    LandsScalar s v 1 d (.shll h d a w) (· = x <<< k) ∧
    LandsScalar s v 1 d (.shrl h d a w) (· = x >>> k) ∧
    LandsScalar s v 1 d (.sarl h d a w) (fun z => ∀ i < 64, z.getLsbD i = if i + k < 64 then x.getLsbD (i + k) else x.msb) ∧
    LandsScalar s v 1 d (.rotll h d a w) (· = (x <<< k) ||| (x >>> (64 - k))) ∧
    LandsScalar s v 3 d (.mull h d a w) (· = x * y) ∧
    LandsScalar s v 1 d (.minlI h d a w) (fun z => (z = x ∨ z = y) ∧ z.toInt = min x.toInt y.toInt) ∧
    LandsScalar s v 1 d (.minlN h d a w) (fun z => (z = x ∨ z = y) ∧ z.toNat = min x.toNat y.toNat) ∧
    LandsScalar s v 1 d (.maxlI h d a w) (fun z => (z = x ∨ z = y) ∧ z.toInt = max x.toInt y.toInt) ∧
    LandsScalar s v 1 d (.maxlN h d a w) (fun z => (z = x ∨ z = y) ∧ z.toNat = max x.toNat y.toNat) ∧
    LandsScalar s v 1 d (.movl h d w) (· = y)

/-- R156: a compare writes all ones if its condition holds, else zero. R157: the predicate forms act on all 64 bits at once.
Both: a write to p0 is ignored. -/
def Obligations.ScalarComparesAndPredicates : Prop :=
  ((∀ (s : State) (v : View) (h : SHead) (d : PReg) (a b : Reg) (w : W32), s.view = some v → v.guard h.neg h.g = true →
    let x := v.rs a
    let y := v.rs b
    let l := w.signExtend 64
    let mask (p : Prop) [Decidable p] : W64 := if p then BitVec.allOnes 64 else 0
    LandsPred s v d (.cmpEq h d a b) (mask (x = y)) ∧
    LandsPred s v d (.cmpNe h d a b) (mask (x ≠ y)) ∧
    LandsPred s v d (.cmpLtI h d a b) (mask (x.toInt < y.toInt)) ∧
    LandsPred s v d (.cmpGeI h d a b) (mask (x.toInt ≥ y.toInt)) ∧
    LandsPred s v d (.cmpLtN h d a b) (mask (x.toNat < y.toNat)) ∧
    LandsPred s v d (.cmpGeN h d a b) (mask (x.toNat ≥ y.toNat)) ∧
    LandsPred s v d (.cmplEq h d a w) (mask (x = l)) ∧
    LandsPred s v d (.cmplNe h d a w) (mask (x ≠ l)) ∧
    LandsPred s v d (.cmplLtI h d a w) (mask (x.toInt < l.toInt)) ∧
    LandsPred s v d (.cmplGeI h d a w) (mask (x.toInt ≥ l.toInt)) ∧
    LandsPred s v d (.cmplLtN h d a w) (mask (x.toNat < l.toNat)) ∧
    LandsPred s v d (.cmplGeN h d a w) (mask (x.toNat ≥ l.toNat))) ∧
  ∀ (h : SHead) (d : PReg) (a b : Reg) (w : W32), Opcodes 0 [(.cmpEq h d a b, 0x38), (.cmpNe h d a b, 0x39), (.cmpLtI h d a b, 0x3A), (.cmpGeI h d a b, 0x3B), (.cmpLtN h d a b, 0x3C), (.cmpGeN h d a b, 0x3D),
    (.cmplEq h d a w, 0x40), (.cmplNe h d a w, 0x41), (.cmplLtI h d a w, 0x42), (.cmplGeI h d a w, 0x43), (.cmplLtN h d a w, 0x44), (.cmplGeN h d a w, 0x45)]) ∧
  ((∀ (s : State) (v : View) (h : SHead) (d a b : PReg) (r : Reg), s.view = some v → v.guard h.neg h.g = true →
    let x := v.cl.rp a.toNat
    let y := v.cl.rp b.toNat
    LandsPred s v d (.pand h d a b) (x &&& y) ∧
    LandsPred s v d (.por h d a b) (x ||| y) ∧
    LandsPred s v d (.pxor h d a b) (x ^^^ y) ∧
    LandsPred s v d (.pnot h d a) (~~~x) ∧
    LandsPred s v d (.pfirst h d a) (x &&& (0 - x)) ∧
    LandsScalar s v 1 r (.pcount h r a) (fun z => z.toNat = ((List.range 64).filter fun i => x.getLsbD i).length) ∧
    LandsPred s v d (.pany h d a) (if x = 0 then 0 else BitVec.allOnes 64) ∧
    LandsPred s v d (.pall h d a) (if x = BitVec.allOnes 64 then BitVec.allOnes 64 else 0)) ∧
  (∀ (h : SHead) (d a b : PReg) (r : Reg), Opcodes 0 [(.pand h d a b, 0x60), (.por h d a b, 0x61), (.pxor h d a b, 0x62), (.pnot h d a, 0x63), (.pfirst h d a, 0x64), (.pcount h r a, 0x65),
    (.pany h d a, 0x66), (.pall h d a, 0x67)]) ∧
  ∀ (c : Core) (x k : Nat) (z m : W64), k < 4 → ∀ p < 12, ((c.apply x (.pred k 0 z m)).cluster k).rp p = (c.cluster k).rp p)

/-! ## Vectors (R165 to R184) -/

/-- R167: the integer forms, lane by lane; signed and unsigned extremes, saturation and high products included. -/
def Obligations.VectorIntegerForms : Prop :=
  (∀ (s : State) (v : View) (h : Head) (d : VDst) (a b : VSrc), s.view = some v → v.readable [a, b] →
    let A := fun j => lane (v.src a) j
    let B := fun j => lane (v.src b) j
    let k := fun j => (B j).toNat % 32
    let R := LandsLanes s v [a, b] 4 h d
    let satI := fun n : Int => BitVec.ofInt 32 (max (-2 ^ 31) (min (2 ^ 31 - 1) n))
    let satN := fun n : Int => BitVec.ofInt 32 (max 0 (min (2 ^ 32 - 1) n))
    R (.vadd h d a b) (fun j => A j + B j) ∧
    R (.vsub h d a b) (fun j => A j - B j) ∧
    R (.vmul h d a b) (fun j => A j * B j) ∧
    R (.vmulhI h d a b) (fun j => (((A j).signExtend 64 * (B j).signExtend 64) >>> 32).truncate 32) ∧
    R (.vmulhN h d a b) (fun j => (((A j).zeroExtend 64 * (B j).zeroExtend 64) >>> 32).truncate 32) ∧
    R (.vminI h d a b) (fun j => if (B j).toInt < (A j).toInt then B j else A j) ∧
    R (.vminN h d a b) (fun j => if (B j).toNat < (A j).toNat then B j else A j) ∧
    R (.vmaxI h d a b) (fun j => if (A j).toInt < (B j).toInt then B j else A j) ∧
    R (.vmaxN h d a b) (fun j => if (A j).toNat < (B j).toNat then B j else A j) ∧
    R (.vand h d a b) (fun j => A j &&& B j) ∧
    R (.vor h d a b) (fun j => A j ||| B j) ∧
    R (.vxor h d a b) (fun j => A j ^^^ B j) ∧
    R (.vshl h d a b) (fun j => A j <<< k j) ∧
    R (.vshr h d a b) (fun j => A j >>> k j) ∧
    R (.vsar h d a b) (fun j => (A j).sshiftRight (k j)) ∧
    R (.vaddsI h d a b) (fun j => satI ((A j).toInt + (B j).toInt)) ∧
    R (.vaddsN h d a b) (fun j => satN ((A j).toNat + (B j).toNat)) ∧
    R (.vsubsI h d a b) (fun j => satI ((A j).toInt - (B j).toInt)) ∧
    R (.vsubsN h d a b) (fun j => satN ((A j).toNat - (B j).toNat)) ∧
    (v.readable [a] → LandsLanes s v [a] 4 h d (.vabs h d a) (fun j => satI |(A j).toInt|))) ∧
  ∀ (h : Head) (d : VDst) (a b : VSrc), Opcodes 1 [(.vadd h d a b, 0x00), (.vsub h d a b, 0x01), (.vmul h d a b, 0x02), (.vmulhI h d a b, 0x03), (.vmulhN h d a b, 0x04), (.vminI h d a b, 0x05),
    (.vminN h d a b, 0x06), (.vmaxI h d a b, 0x07), (.vmaxN h d a b, 0x08), (.vand h d a b, 0x09), (.vor h d a b, 0x0A), (.vxor h d a b, 0x0B),
    (.vshl h d a b, 0x0C), (.vshr h d a b, 0x0D), (.vsar h d a b, 0x0E), (.vaddsI h d a b, 0x0F), (.vaddsN h d a b, 0x10), (.vsubsI h d a b, 0x11),
    (.vsubsN h d a b, 0x12), (.vabs h d a, 0x13)]

/-- R168, R166, R172: the float forms, lane by lane, each rounded once under its modifier; a NaN gives the canonical NaN in
VFMIN, VFMAX, VFABS and VFNEG, and VFABS and VFNEG change the sign bit only. -/
def Obligations.VectorFloatForms : Prop :=
  ∀ (s : State) (v : View) (h : Head) (d : VDst) (a b : VSrc) (rm : BitVec 2), s.view = some v → v.readable [a, b] →
    v.affords 3 →
    let A := fun j => lane (v.src a) j
    let B := fun j => lane (v.src b) j
    let C := fun j => match d with
      | .o n => lane (vget v.cl.o n.toNat (splat 0)) j
      | .last => lane (vget v.cl.l 0 (splat 0)) j
    let rnd := round32 rm.toNat
    let R := LandsLanes s v [a, b] 6 h d
    let nan := fun x : W32 => x.extractLsb' 23 8 = 255 ∧ x.extractLsb' 0 23 ≠ 0
    R (.vfadd h d a b rm) (fun j => rnd (Fp.add (rm == 2) (fp32 (A j)) (fp32 (B j)))) ∧
    R (.vfsub h d a b rm) (fun j => rnd (Fp.add (rm == 2) (fp32 (A j)) (fp32 (B j)).neg)) ∧
    R (.vfmul h d a b rm) (fun j => rnd (Fp.mul (fp32 (A j)) (fp32 (B j)))) ∧
    R (.vfma h d a b rm) (fun j => rnd (Fp.add (rm == 2) (fp32 (C j)) (Fp.mul (fp32 (A j)) (fp32 (B j))))) ∧
    (∃ m M : Nat → W32, R (.vfmin h d a b) m ∧ R (.vfmax h d a b) M ∧
      ∀ j, if nan (A j) ∨ nan (B j) then m j = 0x7FC00000 ∧ M j = 0x7FC00000
        else (m j = A j ∧ M j = B j ∨ m j = B j ∧ M j = A j) ∧ fle (m j) (M j) = true ∧
          (A j = 0x80000000 → B j = 0 → m j = 0x80000000) ∧ (A j = 0 → B j = 0x80000000 → m j = 0x80000000)) ∧
    (v.readable [a] →
      LandsLanes s v [a] 6 h d (.vfabs h d a) (fun j => if nan (A j) then 0x7FC00000 else A j &&& 0x7FFFFFFF) ∧
      LandsLanes s v [a] 6 h d (.vfneg h d a) (fun j => if nan (A j) then 0x7FC00000 else A j ^^^ 0x80000000))

/-- R169, R78: VMOV copies; VSEL's guard chooses, and all 64 lanes are written. R171, R166: VDOT4 adds to its addend the exact
sum of four byte products, signed as its modifier says. -/
def Obligations.VectorMovesSelectsAndDotProducts : Prop :=
  ((∀ (s : State) (v : View) (h : Head) (d : VDst) (a b : VSrc), s.view = some v →
    (v.readable [a] → LandsLanes s v [a] 4 h d (.vmov h d a) (fun j => lane (v.src a) j)) ∧
    (v.readable [a, b] → ∃ x : Lanes, exec (.vsel h d a b) s =
        .next (v.land (v.modCl s fun c => c.pop [a, b]) 4 1 (.vec v.cur.cl d (BitVec.allOnes 64) x)) ∧
      ∀ j < 64, lane x j = if bitAt (v.cl.rp h.g.toNat) j != h.neg then lane (v.src a) j else lane (v.src b) j)) ∧
  ∀ (h : Head) (d : VDst) (a b : VSrc), Opcodes 1 [(.vmov h d a, 0x20), (.vsel h d a b, 0x21)]) ∧
  ((∀ (s : State) (v : View) (h : Head) (d : VDst) (a b : VSrc) (sg : BitVec 2), s.view = some v → v.readable [a, b] →
    let byte := fun (signed : Bool) (x : W32) (k : Nat) =>
      if signed then (x.extractLsb' (8 * k) 8).toInt else ((x.extractLsb' (8 * k) 8).toNat : Int)
    let term := fun j k => byte (sg.getLsbD 1) (lane (v.src a) j) k * byte (sg.getLsbD 0) (lane (v.src b) j) k
    let C := fun j => match d with
      | .o n => lane (vget v.cl.o n.toNat (splat 0)) j
      | .last => lane (vget v.cl.l 0 (splat 0)) j
    LandsLanes s v [a, b] 4 h d (.vdot4 h d a b sg) (fun j =>
      C j + BitVec.ofInt 32 (term j 0 + term j 1 + term j 2 + term j 3))) ∧
  ∀ (h : Head) (d : VDst) (a b : VSrc) (sg : BitVec 2), Opcodes 1 [(.vdot4 h d a b sg, 0x38)] ∧
    ((encode (.vdot4 h d a b sg)).headD 0).extractLsb' 0 2 = sg)

/-- R170: the compares' conditions, in the predicate and in the lane vector; a write to p0 is ignored. -/
def Obligations.VectorCompares : Prop :=
  (∀ (s : State) (v : View) (h : Head) (d : PReg) (a b : VSrc), s.view = some v → v.readable [a, b] →
    let A := fun j => lane (v.src a) j
    let B := fun j => lane (v.src b) j
    let nan := fun x : W32 => x.extractLsb' 23 8 = 255 ∧ x.extractLsb' 0 23 ≠ 0
    let zero := fun x : W32 => x &&& 0x7FFFFFFF = 0
    let R := LandsCompare s v [a, b] 4 h d
    let F := LandsCompare s v [a, b] 6 h d
    R (.vcmpEq h d a b) (fun j => decide (A j = B j)) ∧
    R (.vcmpNe h d a b) (fun j => decide (A j ≠ B j)) ∧
    R (.vcmpLtI h d a b) (fun j => decide ((A j).toInt < (B j).toInt)) ∧
    R (.vcmpGeI h d a b) (fun j => decide ((A j).toInt ≥ (B j).toInt)) ∧
    R (.vcmpLtN h d a b) (fun j => decide ((A j).toNat < (B j).toNat)) ∧
    R (.vcmpGeN h d a b) (fun j => decide ((A j).toNat ≥ (B j).toNat)) ∧
    (v.affords 3 →
      F (.vfcmpEq h d a b) (fun j => decide (¬ nan (A j) ∧ ¬ nan (B j) ∧ (A j = B j ∨ zero (A j) ∧ zero (B j)))) ∧
      F (.vfcmpUn h d a b) (fun j => decide (nan (A j) ∨ nan (B j))) ∧
      ∃ lt le : Nat → Bool, F (.vfcmpLt h d a b) lt ∧ F (.vfcmpLe h d a b) le ∧
        ∀ j, (nan (A j) ∨ nan (B j) → lt j = false ∧ le j = false) ∧
          (¬ nan (A j) → ¬ nan (B j) → lt j = (le j && !(decide (A j = B j ∨ zero (A j) ∧ zero (B j))))) ∧
          (¬ nan (A j) → ¬ nan (B j) → le j = if (A j).msb = (B j).msb
            then (if (A j).msb then decide ((B j).toNat ≤ (A j).toNat) else decide ((A j).toNat ≤ (B j).toNat))
            else (A j).msb || decide (zero (A j) ∧ zero (B j)))) ∧
    ∀ (c : Core) (x k : Nat) (z m : W64), k < 4 → ∀ p < 12, ((c.apply x (.pred k 0 z m)).cluster k).rp p = (c.cluster k).rp p) ∧
  ∀ (h : Head) (d : PReg) (a b : VSrc), Opcodes 1 [(.vcmpEq h d a b, 0x28), (.vcmpNe h d a b, 0x29), (.vcmpLtI h d a b, 0x2A), (.vcmpGeI h d a b, 0x2B), (.vcmpLtN h d a b, 0x2C), (.vcmpGeN h d a b, 0x2D),
    (.vfcmpEq h d a b, 0x2E), (.vfcmpLt h d a b, 0x2F), (.vfcmpLe h d a b, 0x30), (.vfcmpUn h d a b, 0x31)]

/-- R172: VSCALEB rounds once the lane times two to the signed second lane; a NaN gives the canonical NaN, and an infinity or a
zero stays as it is. R172: a scale beyond 1,000 either way rounds as a scale of 1,000 does: it only overflows, or falls below
every subnormal. -/
def Obligations.ScaleByPowerOfTwo : Prop :=
  (∀ (s : State) (v : View) (h : Head) (d : VDst) (a b : VSrc) (rm : BitVec 2), s.view = some v → v.readable [a, b] →
    v.affords 3 →
    let A := fun j => lane (v.src a) j
    let B := fun j => lane (v.src b) j
    let n := fun j => max (-1000) (min 1000 (B j).toInt)
    ∃ r : Nat → W32, LandsLanes s v [a, b] 6 h d (.vscaleb h d a b rm) r ∧
      ∀ j, ((A j).extractLsb' 23 8 = 255 → (A j).extractLsb' 0 23 ≠ 0 → r j = 0x7FC00000) ∧
        ((A j).extractLsb' 23 8 = 255 → (A j).extractLsb' 0 23 = 0 → r j = A j) ∧
        (A j &&& 0x7FFFFFFF = 0 → r j = A j) ∧
        ((A j).extractLsb' 23 8 ≠ 255 → r j = round32 rm.toNat ((fp32 (A j)).scale (n j)))) ∧
  (∀ (w : W32) (rm : BitVec 2) (n : Int),
    (1000 ≤ n → round32 rm.toNat ((fp32 w).scale n) = round32 rm.toNat ((fp32 w).scale 1000)) ∧
    (n ≤ -1000 → round32 rm.toNat ((fp32 w).scale n) = round32 rm.toNat ((fp32 w).scale (-1000))))

/-- R173 to R177, R113, R126: the conversions answer, each lane as its rule gives it; each with rounding field 4 advances the
stochastic-rounding state once, whatever its guard; VCVTT refuses a bad entry; VPACK lays its image out, and VUNPK reads one,
as R176's table says. R176, R177: VUNPK of a VPACK image gives back each value that the target format holds, for the integer
formats from INT32, and for BF16 and FP16 from FP32. -/
def Obligations.VectorConversions : Prop :=
  (∀ (s : State) (v : View) (h : Head) (d : VDst) (a b : VSrc) (cv : Conv), s.view = some v → v.affords 3 →
    let f := cv.src.toNat
    let g := cv.dst.toNat
    let sr (rnd : Nat) : W32 := if rnd = 4 then srStep v.cl.sr else v.cl.sr
    let out (as : List VSrc) (rnd : Nat) (x : Lanes) : State :=
      v.land (v.modCl (v.modCl s fun c => c.pop as) fun c => { c with sr := sr rnd }) 6 1 (.vec v.cur.cl d (v.active h) x)
    let conv (rnd src : Nat) (frS : Bool) (dst : Nat) (toS : Bool) (w : W32) (n : Nat) : W32 :=
      convElem src frS dst toS rnd (srBits (sr rnd) (n % 64)) w.toNat
    let e := vget v.co.fmt ((v.cl.fmtbase.toNat + v.cl.seq.lc v.cl.fmtsel.toNat) % 16) 0
    let fmt := (e.extractLsb' 0 4).toNat
    let rnd := (e.extractLsb' 14 3).toNat
    let fmtB := (e.extractLsb' 4 4).toNat
    let refused : Prop := fmt = 3 ∨ fmt = 4 ∨ 8 < fmt ∨ fmtB = 3 ∨ fmtB = 4 ∨ 8 < fmtB ∨ e.extractLsb' 10 2 = 3 ∨ e.extractLsb' 12 2 = 3 ∨
      4 < rnd
    let width (n : Nat) : Nat := if n = 3 ∨ n = 5 then 8 else if n = 4 ∨ n = 6 then 4 else 16
    let scales (n : Nat) : Nat := if n = 3 then 32 else 16
    let bits (x : Lanes) (l lo w : Nat) : Nat := (lane x l).toNat / 2 ^ lo % 2 ^ w
    let elem (x : Lanes) (w n : Nat) : Nat := bits x (n * w / 32) (n * w % 32) w
    let scale (x : Lanes) (m k : Nat) : Nat := bits x (scales m + k / 2) (16 * (k % 2)) 16
    (v.readable [a] →
      (∃ x, exec (.vcvt h d a cv) s = .next (out [a] cv.rnd.toNat x) ∧
        ∀ j < 64, lane x j = conv cv.rnd.toNat f cv.frS g cv.toS (lane (v.src a) j) j) ∧
      (¬ refused → ∃ x, exec (.vcvtt h d a) s = .next (out [a] rnd x) ∧
        ∀ j < 64, lane x j = conv rnd 0 false fmt (e.getLsbD 8) (lane (v.src a) j) j) ∧
      (refused → exec (.vcvtt h d a) s = .next (v.raise s 8)) ∧
      (1 ≤ f → f ≤ 7 → ∃ x,
        exec (.vunpk h d a cv) s = .next (v.land (v.modCl s fun c => c.pop [a]) 6 1 (.vec v.cur.cl d (v.active h) x)) ∧
        ∀ j < 64, let n := j + if cv.half then 64 else 0
          lane x j = if f = 3 ∨ f = 4 then round32 0 (decodeDx f (elem (v.src a) (width f) n) (scale (v.src a) f (n / 32)))
            else convElem f cv.frS g true 0 0 (elem (v.src a) (width f) n))) ∧
    (v.readable [a, b] → 1 ≤ g → g ≤ 7 → ∃ x, exec (.vpack h d a b cv) s = .next (out [a, b] cv.rnd.toNat x) ∧
      let val (n : Nat) : W32 := if n < 64 then lane (v.src a) n else lane (v.src b) (n - 64)
      let block (k : Nat) : List Nat × Nat := packDx g cv.rnd.toNat
        ((List.range 32).map fun j => (val (32 * k + j), srBits (sr cv.rnd.toNat) ((32 * k + j) % 64)))
      if g = 3 ∨ g = 4 then
        (∀ n < 128, elem x (width g) n = (block (n / 32)).1.getD (n % 32) 0 % 2 ^ width g) ∧
        (∀ k < 4, scale x g k = (block k).2 % 2 ^ 16) ∧ ∀ j < 64, scales g + 2 ≤ j → lane x j = 0
      else
        (∀ n < 128, elem x (width g) n = (conv cv.rnd.toNat f cv.frS g cv.toS (val n) n).toNat % 2 ^ width g) ∧
        ∀ j < 64, 4 * width g ≤ j → lane x j = 0)) ∧
  (∀ (x : W32) (dst : BitVec 4) (sgn half : Bool) (a b : Lanes), dst = 1 ∨ dst = 2 ∨ dst = 5 ∨ dst = 6 ∨ dst = 7 →
    let bits := if dst = 5 then 8 else if dst = 6 then 4 else 16
    let whole := 5 ≤ dst.toNat
    let wide : BitVec 4 := if whole then 8 else 0
    let fits (w : W32) : Prop :=
      if whole then (if sgn then -(2 ^ (bits - 1) : Int) ≤ w.toInt ∧ w.toInt < 2 ^ (bits - 1) else w.toNat < 2 ^ bits)
      else ∃ c < 2 ^ 16, w = round32 0 (fpOf dst.toNat c)
    (∀ j < 64, fits (lane a j) ∧ fits (lane b j)) →
    let p : Conv := { half := false, rnd := 0, toS := sgn && whole, frS := sgn && whole, dst, src := wide }
    let u : Conv := { half, rnd := 0, toS := false, frS := sgn && whole, dst := wide, src := dst }
    ∀ j < 64, lane (vunpk u (vpack x p a b)) j = lane (if half then b else a) j)

/-- R178 to R182: reductions, scan, sort and permutations. R182: the permutations of lanes. -/
def Obligations.ReductionsScanSortAndPermutations : Prop :=
  (∀ (s : State) (v : View) (h : Head) (d : VDst) (a b : VSrc) (ty : BitVec 2), s.view = some v → v.affords 3 →
    let A := fun j => lane (v.src a) j
    let act := fun j => bitAt (v.cl.rp h.g.toNat) j != h.neg
    let inp (ident : W32) : List W32 := (List.range 64).map fun j => if act j then A j else ident
    (v.readable [a] →
      (ty.toNat < 2 →
        LandsLanes s v [a] 10 h d (.vrsum h d a ty) (fun _ => (inp 0).sum) ∧
        LandsLanes s v [a] 10 h d (.vscan h d a ty) (fun j => ((inp 0).take (j + 1)).sum)) ∧
      (ty = 2 →
        LandsLanes s v [a] 10 h d (.vrsum h d a ty) (fun _ => treeSum (fadd 0) (inp 0x80000000)) ∧
        LandsLanes s v [a] 10 h d (.vrmax h d a ty) (fun _ => treeSum fmax (inp 0xFF800000)) ∧
        LandsLanes s v [a] 10 h d (.vrmin h d a ty) (fun _ => treeSum fmin (inp 0x7F800000)) ∧
        LandsLanes s v [a] 10 h d (.vscan h d a ty) (fun j =>
          let w := (serialSum (fadd 0) (inp 0x80000000)).getD j 0
          if w.extractLsb' 23 8 = 255 ∧ w.extractLsb' 0 23 ≠ 0 then 0x7FC00000 else w)) ∧
      (ty = 0 → ∃ m M : W32, LandsLanes s v [a] 10 h d (.vrmin h d a ty) (fun _ => m) ∧
        LandsLanes s v [a] 10 h d (.vrmax h d a ty) (fun _ => M) ∧
        m ∈ inp 0x7FFFFFFF ∧ M ∈ inp 0x80000000 ∧ ∀ j < 64, act j = true → m.toInt ≤ (A j).toInt ∧ (A j).toInt ≤ M.toInt) ∧
      (ty = 1 → ∃ m M : W32, LandsLanes s v [a] 10 h d (.vrmin h d a ty) (fun _ => m) ∧
        LandsLanes s v [a] 10 h d (.vrmax h d a ty) (fun _ => M) ∧
        m ∈ inp 0xFFFFFFFF ∧ M ∈ inp 0 ∧ ∀ j < 64, act j = true → m.toNat ≤ (A j).toNat ∧ (A j).toNat ≤ M.toNat)) ∧
    (v.readable [a, b] → ty.toNat < 3 → ∃ x y : Lanes,
      exec (.vsort h d a b ty) s = .next (v.land (v.land (v.modCl s fun c => c.pop [a, b]) 16 1 (.vec v.cur.cl d (v.active h) x)) 16 1
        (.vec v.cur.cl .last (v.active h) y)) ∧
      let nan := fun w : W32 => w.extractLsb' 23 8 = 255 ∧ w.extractLsb' 0 23 ≠ 0
      let key := fun w : W32 => if ty = 0 then w.toInt else if ty = 1 then (w.toNat : Int)
        else if nan w then -(2 ^ 32) else if w.msb then -1 - (w.extractLsb' 0 31).toNat else (w.toNat : Int)
      ∃ p : Equiv.Perm (Fin 64),
        (∀ j : Fin 64, lane y j = lane (v.src b) (p j) ∧ lane x j = if ty = 2 ∧ nan (A (p j)) then 0x7FC00000 else A (p j)) ∧
        ∀ i j : Fin 64, i < j → key (A (p j)) < key (A (p i)) ∨ key (A (p j)) = key (A (p i)) ∧ p i < p j)) ∧
  ((∀ (s : State) (v : View) (h : Head) (d : VDst) (a b : VSrc), s.view = some v → v.readable [a, b] → v.affords 3 →
    let A := fun j => lane (v.src a) j
    let B := fun j => lane (v.src b) j
    let n := ((B 0).extractLsb' 0 6).toNat
    let R := LandsLanes s v [a, b] 10 h d
    R (.vshuf h d a b) (fun j => A ((B j).extractLsb' 0 6).toNat) ∧
    R (.vrot h d a b) (fun j => A ((j + n) % 64)) ∧
    R (.vrotZf h d a b) (fun j => if j + n < 64 then A (j + n) else 0) ∧
    R (.vbcast h d a b) (fun _ => A n)) ∧
  ∀ (h : Head) (d : VDst) (a b : VSrc), Opcodes 1 [(.vshuf h d a b, 0x50), (.vrot h d a b, 0x51), (.vrotZf h d a b, 0x51), (.vbcast h d a b, 0x52)] ∧
    ∀ p ∈ ([(.vshuf h d a b, 0), (.vrot h d a b, 0), (.vrotZf h d a b, 1), (.vbcast h d a b, 0)] : List (Instr × W32)),
      (encode p.1).headD 0 &&& 3 = p.2)

/-- R183, R130, R131: VRAND's lane is a word of the counter generator under the strand's seed, or its uniform value. R131:
u24(w) is the FP32 value (w >> 8) · 2^-24, exactly. -/
def Obligations.CounterDraws : Prop :=
  (∀ (s : State) (v : View) (h : Head) (d : VDst) (a b : VSrc) (word : BitVec 2) (layer : BitVec 24), s.view = some v →
    v.readable [a, b] → v.affords 3 →
    let w := fun j => kcg v.st.seed ((v.st.ctrbase + (lane (v.src b) j).setWidth 64).truncate 32) (layer.setWidth 32)
      (lane (v.src a) j) 0 word.toNat
    LandsLanes s v [a, b] 8 h d (.vrand h d a b false word layer) w ∧
    LandsLanes s v [a, b] 8 h d (.vrand h d a b true word layer) (fun j => u24 (w j))) ∧
  (∀ x : W32, ∃ (m : Nat) (e : Int), fp32 (u24 x) = .fin false m e ∧ (m : ℚ) * 2 ^ e = (x.toNat / 256 : Nat) * (2 : ℚ) ^ (-24 : Int))

/-- R184: TEVAL asks for a table engine, and evaluates table k as it stands at the end of its beat; a NaN gives the canonical
NaN, and a table whose image is all zero gives +0 for every other input. Of any table: an input before T[0] or beyond T[256]
gives what the edge's rule says, one at T[256] that entry, and one between two entries the interpolation T[i] + f·dT, rounded
once to nearest even, with dT the rounded difference of the two; at a grid input that is T[i], or the canonical NaN where dT is
not finite. An entry that is NaN is given as the canonical NaN. -/
def Obligations.TableEvaluation : Prop :=
  (∀ (s : State) (v : View) (h : Head) (d : VDst) (a : VSrc) (k : BitVec 2), s.view = some v →
    (v.st.fp.te = false → exec (.teval h d a k) s = .next (v.raise s 1)) ∧
    (v.st.fp.te = true → v.readable [a] → v.affords 3 →
      exec (.teval h d a k) s =
        .next (v.land (v.modCl s fun c => c.pop [a]) 10 1 (.teval v.cur.cl d (v.active h) k.toNat (v.src a))))) ∧
  (∀ (co old : Core) (e : Timed) (cl : Nat) (d : VDst) (act : W64) (k : Nat) (z : Lanes),
    e ∈ co.agenda → e.act = .teval cl d act k z →
    ∃ x : Lanes, { e with act := .vec cl d act x } ∈ (co.decideAll old).agenda ∧ ∀ j < 64, lane x j = teval co.te.active k (lane z j)) ∧
  ∀ (m : Sparse 8) (k : Nat) (x : W32),
    let isNan (y : W32) : Prop := y.extractLsb' 23 8 = 255 ∧ y.extractLsb' 0 23 ≠ 0
    let finite (y : W32) : Prop := y.extractLsb' 23 8 ≠ 255
    let value (y : W32) : ℚ := (if y.msb then -1 else 1) *
      (if y.extractLsb' 23 8 = 0 then ((y.extractLsb' 0 23).toNat : ℚ) * 2 ^ (-149 : Int)
        else ((2 ^ 23 + (y.extractLsb' 0 23).toNat : Nat) : ℚ) * 2 ^ (((y.extractLsb' 23 8).toNat : Int) - 150))
    let byte (o : Nat) : Byte := Sparse.get m (0x480 * k + o)
    let word (o : Nat) : W32 := byte (o + 3) ++ byte (o + 2) ++ byte (o + 1) ++ byte o
    let lo := word 0
    let T (i : Nat) : W32 := word (0x40 + 4 * i)
    let step : Int := ((word 4).extractLsb' 0 8).toInt
    let edge (rule : BitVec 2) (stop : W32) : Prop := (rule = 0 → teval m k x = 0) ∧
      (rule = 1 → teval m k x = if isNan stop then 0x7FC00000 else stop) ∧ (rule = 2 → teval m k x = x)
    let below := edge ((word 4).extractLsb' 8 2) (T 0)
    let above := edge ((word 4).extractLsb' 10 2) (T 256)
    (isNan x → teval m k x = 0x7FC00000) ∧ (¬ isNan x → teval [] k x = 0) ∧
    (isNan lo → teval m k x = 0x7FC00000) ∧ (x = lo → ¬ finite x → teval m k x = 0x7FC00000) ∧
    (x = 0xFF800000 → ¬ isNan lo → lo ≠ x → below) ∧ (x = 0x7F800000 → ¬ isNan lo → lo ≠ x → above) ∧
    (finite x → lo = 0x7F800000 → below) ∧ (finite x → lo = 0xFF800000 → above) ∧
    (finite x → finite lo →
      let t : ℚ := (value x - value lo) * 2 ^ (-step)
      (t < 0 → below) ∧ (256 < t → above) ∧ (t = 256 → teval m k x = if isNan (T 256) then 0x7FC00000 else T 256) ∧
      ∀ i : Nat, i < 256 → (i : ℚ) ≤ t → t < i + 1 →
        let dT := fsub 0 (T (i + 1)) (T i)
        (finite (T i) → finite dT → t = i → teval m k x = T i) ∧
        (¬ finite dT → t = i → teval m k x = 0x7FC00000) ∧
        (finite (T i) → finite dT → ∃ (neg : Bool) (n : Nat) (e : Int),
          (if neg then -1 else 1 : ℚ) * n * 2 ^ e = value (T i) + (t - i) * value dT ∧
          (t ≠ i → teval m k x = round32 0 (.fin neg n e))))

/-- R105, R175, R246: a V form that reads an empty queue raises QUEUE, VCVTT with a format entry that it refuses FORMAT, and
one whose draw exceeds the region's level OVERCURRENT; none lands anything nor pops a queue. R80, R105: a bundle's pops take
the head of each queue that a pop code names, once, and keeps leave it. -/
def Obligations.VectorTrapsAndPops : Prop :=
  (∀ (s : State) (v : View) (h : Head) (d : VDst) (p : PReg) (a b : VSrc) (rm : BitVec 2) (cv : Conv) (u : Bool) (l : BitVec 24), s.view = some v →
    let int2 : List Instr := [.vadd h d a b, .vsub h d a b, .vmul h d a b, .vmulhI h d a b, .vmulhN h d a b, .vminI h d a b, .vminN h d a b, .vmaxI h d a b,
      .vmaxN h d a b, .vand h d a b, .vor h d a b, .vxor h d a b, .vshl h d a b, .vshr h d a b, .vsar h d a b, .vaddsI h d a b,
      .vaddsN h d a b, .vsubsI h d a b, .vsubsN h d a b, .vsel h d a b, .vcmpEq h p a b, .vcmpNe h p a b, .vcmpLtI h p a b,
      .vcmpGeI h p a b, .vcmpLtN h p a b, .vcmpGeN h p a b, .vdot4 h d a b rm]
    let float2 : List Instr := [.vfadd h d a b rm, .vfsub h d a b rm, .vfmul h d a b rm, .vfma h d a b rm, .vscaleb h d a b rm, .vfmin h d a b, .vfmax h d a b,
      .vshuf h d a b, .vrot h d a b, .vrotZf h d a b, .vbcast h d a b, .vfcmpEq h p a b, .vfcmpLt h p a b, .vfcmpLe h p a b,
      .vfcmpUn h p a b, .vpack h d a b cv, .vsort h d a b rm, .vrand h d a b u rm l]
    let int1 : List Instr := [.vabs h d a, .vmov h d a]
    let float1 : List Instr := [.vfabs h d a, .vfneg h d a, .vcvt h d a cv, .vunpk h d a cv, .vrsum h d a rm, .vrmax h d a rm, .vrmin h d a rm, .vscan h d a rm]
    let entry := vget v.co.fmt v.fmtIndex 0
    (¬ v.readable [a, b] → ∀ i ∈ int2 ++ float2, exec i s = .next (v.raise s 5)) ∧
    (¬ v.readable [a] → (∀ i ∈ int1 ++ float1 ++ [.vcvtt h d a], exec i s = .next (v.raise s 5)) ∧
      (v.st.fp.te = true → exec (.teval h d a rm) s = .next (v.raise s 5))) ∧
    (v.readable [a] → cvttBad entry = true → exec (.vcvtt h d a) s = .next (v.raise s cFormat)) ∧
    (v.st.region.on = true → v.st.region.level < 3 → (∀ f ∈ v.st.region.falls, f.2.2 = true → v.cur.beat ≤ f.1) →
      let tooHigh : State := v.raise s 0x12 0 3
      (v.readable [a, b] → ∀ i ∈ float2, exec i s = .next tooHigh) ∧
      (v.readable [a] → (∀ i ∈ float1, exec i s = .next tooHigh) ∧ (cvttBad entry = false → exec (.vcvtt h d a) s = .next tooHigh) ∧
        (v.st.fp.te = true → exec (.teval h d a rm) s = .next tooHigh)))) ∧
  (∀ (c : Cluster) (as : List VSrc) (n : BitVec 2),
    let c' := c.pop as
    c'.queueOf n = (if .pop n ∈ as then (c.queueOf n).tail else c.queueOf n) ∧ c' = { c with q := c'.q })

/-! ## The main register file, scratchpad and accumulator rows (R81, R106, R132, R215 to R219) -/

/-- R81, R106, R215, R216: DRAW appends at b + 6 the elements its operand selects, lane by lane; PUT writes each lane into the
element it selects from b + 4. A plane outside the footprint raises BOUNDS whatever the guard. -/
def Obligations.DrawAndPut : Prop :=
  ∀ (s : State) (v : View) (h : Head) (q : BitVec 2) (o : BitVec 4) (l : BitVec 2) (p : BitVec 5) (r : BitVec 2) (i : BitVec 6)
    (x : Reg), s.view = some v →
    let at_ (k j : Nat) : Nat := p.toNat * 4096 + (match r.toNat with
      | 0 => 64 * k + j
      | 1 => 64 * j + k
      | 2 => 64 * j + (j + k) % 64
      | _ => 64 * j + (k + 64 - j) % 64)
    let k := i.toNat
    let k' := ((v.rs x).extractLsb' 0 6).toNat
    let flying := (v.co.agenda.filter fun t => match t.act with
      | .append c n _ => c == v.cur.cl && n == q.toNat
      | _ => false).length
    let draws (ins : Instr) (k : Nat) : Prop := (v.cl.queueOf q).length + flying < 8 → (∀ j < 64, at_ k j ∉ v.co.planePoison) →
      ∃ z : Lanes, exec ins s = .next (v.land s 6 2 (.append v.cur.cl q.toNat z)) ∧ ∀ j < 64, lane z j = Sparse.get v.co.planes (at_ k j)
    let puts (ins : Instr) (k : Nat) (z : Lanes) : Prop :=
      exec ins s = .next (v.store s 4 (.plane p.toNat ((List.range 64).map fun j => (at_ k j, lane z j))))
    let six : List Instr := [.drawImmediate h q p r i, .drawRegister h q p r x, .putOperandImmediate h o p r i,
      .putOperandRegister h o p r x, .putLastResultImmediate h l p r i, .putLastResultRegister h l p r x]
    (v.st.fp.planes ≤ p.toNat → ∀ ins ∈ six, exec ins s = .next (v.raise s 2 (p.setWidth 64))) ∧
    (p.toNat < v.st.fp.planes → v.guard h.neg h.g = true →
      draws (.drawImmediate h q p r i) k ∧ draws (.drawRegister h q p r x) k' ∧
      puts (.putOperandImmediate h o p r i) k (vget v.cl.o o.toNat (splat 0)) ∧
      puts (.putOperandRegister h o p r x) k' (vget v.cl.o o.toNat (splat 0)) ∧
      puts (.putLastResultImmediate h l p r i) k (vget v.cl.l l.toNat (splat 0)) ∧
      puts (.putLastResultRegister h l p r x) k' (vget v.cl.l l.toNat (splat 0)) ∧
      (8 ≤ (v.cl.queueOf q).length + flying → exec (.drawImmediate h q p r i) s = .next (v.raise s 5)))

/-- R217, R218, R132: the scratchpad loads land at b + 8 the bytes at base plus scaled offset; a wrong tag raises SCHEDULE, and
a misaligned or outlying address BOUNDS. R217, R218: the scratchpad stores charge the write of b + 4 and schedule there the
source's bytes, low byte first, and on the tagged forms the tile's tag. -/
def Obligations.ScratchpadAccesses : Prop :=
  (∀ (s : State) (v : View) (h : Head) (d : VDst) (r k : Reg) (f : BitVec 7) (tag : Byte), s.view = some v → v.guard h.neg h.g = true →
    let byte (a : Nat) : Nat := (Sparse.get v.co.spad a).toNat
    let word (a : Nat) : Nat := byte a + 2 ^ 8 * byte (a + 1) + 2 ^ 16 * byte (a + 2) + 2 ^ 24 * byte (a + 3)
    let vec (ins : Instr) (a : Nat) : Prop := ∃ z : Lanes,
      exec ins s = .next (v.land (v.claim s 0 a 256 0) 8 2 (.vec v.cur.cl d (BitVec.allOnes 64) z)) ∧
      ∀ j < 64, (lane z j).toNat = word (a + 4 * j)
    let scl (ins : Instr) (a : Nat) : Prop := ∃ z : W64,
      exec ins s = .next (v.land (v.claim s 0 a 8 0) 8 2 (.scalar v.cur.cl r z)) ∧ z.toNat = word a + 2 ^ 32 * word (a + 4)
    let av := v.rs k + BitVec.ofInt 64 (256 * f.toInt)
    let ax := v.rs k + BitVec.ofInt 64 (8 * f.toInt)
    let within (a : W64) (n : Nat) : Prop := a.toNat % n = 0 ∧ a.toNat + n ≤ v.st.fp.banks * 2 ^ 17
    let clean (a : W64) (n : Nat) : Prop := ∀ w ∈ v.co.spadPoison, 4 * w + 4 ≤ a.toNat ∨ a.toNat + n ≤ 4 * w
    let tagged (a : W64) : Prop := v.st.tagck = true → Sparse.get v.co.tags (a.toNat / 4096) = tag ∨ (a.toNat / 4096, tag) ∈ v.co.coming
    (within av 256 → clean av 256 → vec (.sld h d k f) av.toNat ∧ (tagged av → vec (.sldTagged h d k f tag) av.toNat)) ∧
    (within ax 8 → clean ax 8 → scl (.slds h r k f) ax.toNat ∧ (tagged ax → scl (.sldsTagged h r k f tag) ax.toNat)) ∧
    (¬ within av 256 → exec (.sld h d k f) s = .next (v.raise s 2 av) ∧ exec (.sldTagged h d k f tag) s = .next (v.raise s 2 av)) ∧
    (¬ within ax 8 → exec (.slds h r k f) s = .next (v.raise s 2 ax) ∧ exec (.sldsTagged h r k f tag) s = .next (v.raise s 2 ax)) ∧
    (within av 256 → ¬ tagged av → exec (.sldTagged h d k f tag) s = .next (v.raise s 4 av tag.toNat)) ∧
    (within ax 8 → ¬ tagged ax → exec (.sldsTagged h r k f tag) s = .next (v.raise s 4 ax tag.toNat))) ∧
  (∀ (s : State) (v : View) (h : Head) (o : OSrc) (r k : Reg) (f : BitVec 7) (tag : Byte), s.view = some v → v.guard h.neg h.g = true →
    let src : Lanes := match o with
      | .o n => vget v.cl.o n.toNat (splat 0)
      | .l n => vget v.cl.l n.toNat (splat 0)
    let av := v.rs k + BitVec.ofInt 64 (256 * f.toInt)
    let ax := v.rs k + BitVec.ofInt 64 (8 * f.toInt)
    let within (a : W64) (n : Nat) : Prop := a.toNat % n = 0 ∧ a.toNat + n ≤ v.st.fp.banks * 2 ^ 17
    let stored (a : W64) (bs : List Byte) : State := v.store (v.claim s 4 a.toNat 0 bs.length) 4 (.spad a.toNat bs [])
    let withTag (a : W64) (t : State) : State := v.store t 4 (.tag (a.toNat / 4096) tag)
    (within av 256 → ∃ bs : List Byte, bs.length = 256 ∧
      (∀ j < 64, ∀ i < 4, bs[4 * j + i]? = some ((lane src j).extractLsb' (8 * i) 8)) ∧
      exec (.sst h o k f) s = .next (stored av bs) ∧ exec (.sstTagged h o k f tag) s = .next (withTag av (stored av bs))) ∧
    (within ax 8 → ∃ bs : List Byte, bs.length = 8 ∧ (∀ i < 8, bs[i]? = some ((v.rs r).extractLsb' (8 * i) 8)) ∧
      exec (.ssts h r k f) s = .next (stored ax bs) ∧ exec (.sstsTagged h r k f tag) s = .next (withTag ax (stored ax bs))) ∧
    (¬ within av 256 → exec (.sst h o k f) s = .next (v.raise s 2 av) ∧ exec (.sstTagged h o k f tag) s = .next (v.raise s 2 av)) ∧
    (¬ within ax 8 → exec (.ssts h r k f) s = .next (v.raise s 2 ax) ∧ exec (.sstsTagged h r k f tag) s = .next (v.raise s 2 ax)))

/-- R203, R219, R136: the row accesses and their checks, in the order of their codes: BOUNDS, ALLOC, OWNERSHIP. -/
def Obligations.AccumulatorRowAccesses : Prop :=
  ∀ (s : State) (v : View) (h : Head) (d : VDst) (o : OSrc) (a b : Reg) (cv : Conv), s.view = some v → v.guard h.neg h.g = true →
    let bk := (v.rs a).toNat
    let row := (v.rs b).toNat
    let bank := v.co.bank bk
    let src : Lanes := match o with
      | .o n => vget v.cl.o n.toNat (splat 0)
      | .l n => vget v.cl.l n.toNat (splat 0)
    let sr : W32 := if cv.rnd = 4 then srStep v.cl.sr else v.cl.sr
    let s' := v.modCl s fun c => { c with sr }
    let owns : Prop := bank.own.getLsbD (4 * (row / 16) + v.cur.cl) = true
    (bk < v.st.fp.acc → row < 64 → bank.mode = .parked → owns →
      exec (.park h o a b) s = .next (v.store s 4 (.accRow bk row src)) ∧
      (bank.poison = false → ∃ z : Lanes, exec (.unpark h d a b) s = .next (v.land s 6 2 (.vec v.cur.cl d (BitVec.allOnes 64) z)) ∧
        ∀ j < 64, lane z j = Sparse.get v.co.acc (bk * 4096 + row * 64 + j))) ∧
    (bk < v.st.fp.acc → row < 64 → bank.mode = .allocated → owns → bank.poison = false →
      ∃ z : Lanes, exec (.acld h d a b cv) s = .next (v.land s' 6 3 (.vec v.cur.cl d (BitVec.allOnes 64) z)) ∧
        ∀ j < 64, lane z j = convElem cv.src.toNat cv.frS cv.dst.toNat cv.toS cv.rnd.toNat (srBits sr j)
          (Sparse.get v.co.acc (bk * 4096 + row * 64 + j)).toNat) ∧
    (v.st.fp.acc ≤ bk → exec (.park h o a b) s = .next (v.raise s 2 (v.rs a)) ∧ exec (.unpark h d a b) s = .next (v.raise s 2 (v.rs a)) ∧
      exec (.acld h d a b cv) s = .next (v.raise s' 2 (v.rs a))) ∧
    (bk < v.st.fp.acc → row < 64 → bank.mode ≠ .parked → exec (.park h o a b) s = .next (v.raise s 6 (v.rs a)) ∧
      exec (.unpark h d a b) s = .next (v.raise s 6 (v.rs a))) ∧
    (bk < v.st.fp.acc → row < 64 → bank.mode ≠ .allocated → exec (.acld h d a b cv) s = .next (v.raise s' 6 (v.rs a))) ∧
    (bk < v.st.fp.acc → row < 64 → bank.mode = .parked → ¬ owns → exec (.park h o a b) s = .next (v.raise s 7 (v.rs a) row) ∧
      exec (.unpark h d a b) s = .next (v.raise s 7 (v.rs a) row)) ∧
    (bk < v.st.fp.acc → row < 64 → bank.mode = .allocated → ¬ owns → exec (.acld h d a b cv) s = .next (v.raise s' 7 (v.rs a) row)) ∧
    (bk < v.st.fp.acc → 64 ≤ row → exec (.park h o a b) s = .next (v.raise s 2 (v.rs b)) ∧
      exec (.unpark h d a b) s = .next (v.raise s 2 (v.rs b)) ∧ exec (.acld h d a b cv) s = .next (v.raise s' 2 (v.rs b)))

/-! ## Elastic accesses, waits and caches (R93 to R95, R224 to R235) -/

/-- R224 to R234, R249: an elastic instruction takes its entries at the tails of the queues it uses; a full queue raises QUEUE
and an address that is not canonical or not aligned ADDRESS. R226, R252: ECOPY takes a store-queue entry; a count above 2^20
bytes or a scratchpad end outside the banks raises BOUNDS, and else a misaligned or malformed operand ADDRESS. -/
def Obligations.ElasticInstructionsTakeEntries : Prop :=
  (∀ (s : State) (v : View) (h : Head) (d a b : Reg) (m : BitVec 2) (x : BitVec 5), s.view = some v → v.guard h.neg h.g = true →
    let room (q : ElQueue) : Prop := q.entries.length < 16
    let push (q : ElQueue) (iss : Nat) (op : ElOp) : ElQueue :=
      { entries := q.entries ++ [{ seq := q.next, iss, op, handler := v.cl.depth, level := 0, value := none, words := [], fid := 0, ready := 0 }],
        next := q.next + 1 }
    let L (i : Instr) (op : ElOp) : Prop := (room v.cl.lq →
      exec i s = .next (v.modCl s fun c => { c with lq := push c.lq c.issued op, issued := c.issued + 1 })) ∧
      (¬ room v.cl.lq → exec i s = .next (v.raise s 5))
    let S (i : Instr) (op : ElOp) : Prop := (room v.cl.sq →
      exec i s = .next (v.modCl s fun c => { c with sq := push c.sq c.issued op, issued := c.issued + 1 })) ∧
      (¬ room v.cl.sq → exec i s = .next (v.raise s 5))
    let LS (i : Instr) (op : ElOp) : Prop := (room v.cl.lq → room v.cl.sq → exec i s = .next (v.modCl s fun c =>
        { c with lq := push c.lq c.issued op, sq := push c.sq c.issued op, issued := c.issued + 1 })) ∧
      (¬ (room v.cl.lq ∧ room v.cl.sq) → exec i s = .next (v.raise s 5))
    let okAddr (e : W64) (n : Nat) : Prop := (e.msb = true ∨ e.toNat < 2 ^ 48) ∧ e.toNat % n = 0
    let scope (e : W64) : Nat := if e.msb then 6 else match m.toNat with
      | 0 => 2
      | 1 => 4
      | 2 => 5
      | _ => 6
    let size : Nat := match m.toNat with
      | 0 => 8
      | 1 => 4
      | 2 => 4
      | _ => 1
    let kind : LdKind := match m.toNat with
      | 0 => .d
      | 1 => .w
      | 2 => .ws
      | _ => .b
    let e := v.rs a + v.rs b
    let p := v.rs a
    let at8 (op : AtomicOp) : ElOp := .atomic op p (v.rs b) (v.rs d) (scope p) d
    LS (.mark h) .mark ∧ LS (.fence h x) (.fence (x.toNat + 1)) ∧
    (okAddr e size → L (.ld h d a b m) (.ld e kind d) ∧ S (.st h d a b m) (.st e size (BitVec.ofNat 64 ((v.rs d).toNat % 2 ^ (8 * size))))) ∧
    (¬ okAddr e size → exec (.ld h d a b m) s = .next (v.raise s 3 e) ∧ exec (.st h d a b m) s = .next (v.raise s 3 e)) ∧
    (okAddr p 8 → S (.aadd h d a b m) (at8 .add) ∧ S (.aminI h d a b m) (at8 .minI) ∧ S (.aminN h d a b m) (at8 .minN) ∧
      S (.amaxI h d a b m) (at8 .maxI) ∧ S (.amaxN h d a b m) (at8 .maxN) ∧ S (.aand h d a b m) (at8 .and) ∧
      S (.aor h d a b m) (at8 .or) ∧ S (.axor h d a b m) (at8 .xor) ∧ S (.axchg h d a b m) (at8 .xchg) ∧
      S (.acas h d a b m) (at8 .cas) ∧ S (.bara h d a m) (.bara p (scope p) d)) ∧
    (okAddr p 4 → S (.afadd h d a b m) (at8 .fadd)) ∧
    (¬ okAddr p 8 → ∀ i ∈ [Instr.aadd h d a b m, .aminI h d a b m, .aminN h d a b m, .amaxI h d a b m, .amaxN h d a b m, .aand h d a b m,
        .aor h d a b m, .axor h d a b m, .axchg h d a b m, .acas h d a b m, .bara h d a m], exec i s = .next (v.raise s 3 p)) ∧
    (¬ okAddr p 4 → exec (.afadd h d a b m) s = .next (v.raise s 3 p)) ∧
    (¬ okAddr p 64 → exec (.enq h d a b) s = .next (v.raise s 3 p)) ∧
    (okAddr p 64 → ((v.rs b).extractLsb' 0 8).toNat ≤ 7 → S (.enq h d a b) (.enq p ((v.rs b).truncate 32) d)) ∧
    (okAddr p 64 → room v.cl.sq → 7 < ((v.rs b).extractLsb' 0 8).toNat →
      exec (.enq h d a b) s = .next (v.raise s 0x11 0 ((v.rs b).extractLsb' 0 8).toNat))) ∧
  (∀ (s : State) (v : View) (h : Head) (d a b : Reg) (m : BitVec 2), s.view = some v → v.guard h.neg h.g = true → m.toNat < 3 →
    let n := (v.rs b).toNat
    let inside (x : W64) : Prop := x.toNat < v.st.fp.banks * 2 ^ 17 ∧ x.toNat + n ≤ v.st.fp.banks * 2 ^ 17
    let fits : Prop := n ≤ 2 ^ 20 ∧ (m = 2 → inside (v.rs d)) ∧ (m = 1 → inside (v.rs a))
    let good (x : W64) (spad : Prop) : Prop := (spad ∨ x.msb = true ∨ x.toNat < 2 ^ 48) ∧ x.toNat % 8 = 0
    let aligned : Prop := good (v.rs d) (m = 2) ∧ good (v.rs a) (m = 1) ∧ n % 8 = 0
    (fits → aligned → v.cl.sq.entries.length < 16 →
      exec (.ecopy h d a b m) s = .next (v.modCl s fun c => { c with
        sq := {
          entries := c.sq.entries ++ [{
            seq := c.sq.next, iss := c.issued, op := .ecopy m.toNat (v.rs d) (v.rs a) n, handler := v.cl.depth, level := 0, value := none,
            words := [], fid := 0, ready := 0 }],
          next := c.sq.next + 1 },
        issued := c.issued + 1 })) ∧
    (¬ fits → ∃ addr, exec (.ecopy h d a b m) s = .next (v.raise s 2 addr)) ∧
    (fits → ¬ aligned → ∃ addr, exec (.ecopy h d a b m) s = .next (v.raise s 3 addr)) ∧
    (fits → aligned → 16 ≤ v.cl.sq.entries.length → exec (.ecopy h d a b m) s = .next (v.raise s 5)))

/-- R229, R233, R234, R68: a queue wait that its count already meets goes on at once; any other wait is noted with its beat. A
wait holds its strand at a boundary from its beat plus 8 on, unless what it waits for was seen on its own cycle or eight beats'
time ago, and the running strand then freezes there. -/
def Obligations.WaitsBegin : Prop :=
  (∀ (s : State) (v : View) (h : Head) (d a b : Reg) (m cc : BitVec 2) (x : BitVec 5), s.view = some v → v.guard h.neg h.g = true →
    let noted (k : WaitKind) : State := v.modCl s fun c => { c with waits := c.waits ++
      [{ kind := k, beat := v.cur.beat, cyc0 := (s.stack v.st.stack).cyc, iss := c.issued, handler := v.cl.depth, seenAt := none }] }
    let held (q : ElQueue) : Nat := (q.entries.filter fun e => decide (v.cl.depth ≤ e.handler)).length
    let p := v.rs a
    let ok : Prop := (p.msb = true ∨ p.toNat < 2 ^ 48) ∧ p.toNat % 8 = 0
    let scope : Nat := if p.msb then 6 else match m.toNat with
      | 0 => 2
      | 1 => 4
      | 2 => 5
      | _ => 6
    (held v.cl.lq ≤ x.toNat → exec (.lqwait h x) s = .next s) ∧
    (x.toNat < held v.cl.lq → exec (.lqwait h x) s = .next (noted (.lq x.toNat))) ∧
    (held v.cl.sq ≤ x.toNat → exec (.sqwait h x) s = .next s) ∧
    (x.toNat < held v.cl.sq → exec (.sqwait h x) s = .next (noted (.sq x.toNat))) ∧
    (ok → exec (.barw h a b m) s = .next (noted (.barw p (v.rs b) scope))) ∧
    (ok → exec (.flagw h d a b m cc) s =
      .next (noted (.flagw p (v.rs b) (if d = 0 then BitVec.allOnes 64 else v.rs d) cc.toNat scope))) ∧
    (¬ ok → exec (.barw h a b m) s = .next (v.raise s 3 p) ∧ exec (.flagw h d a b m cc) s = .next (v.raise s 3 p))) ∧
  (∀ (t : Strand) (cyc : Nat), t.waitHolds cyc = true ↔ ∃ r ∈ t.contexts, ∃ w ∈ (t.clusterAt r.core r.cl).waits,
    w.beat + 8 ≤ t.beat ∧ ¬ ∃ c, w.seenAt = some c ∧ (c ≤ w.cyc0 ∨ c + 8 * t.stride ≤ cyc)) ∧
  ∀ (s : State) (sid : Nat) (t : Strand), s.strand? sid = some t → t.raised = [] → t.holdReq = false → t.freeze = none →
    t.retires = false → let cyc := (s.stack t.stack).cyc
    t.rdvLate cyc = [] → t.waitHolds cyc = true →
    (s.boundary sid).strand? sid = some { t with freeze := some { why := .elastic, since := cyc, resume := none } }

/-- R93 to R95, R235, R148: PREF brings the lines that a TLB translates into its slice's cache, where each of them then stands,
and changes nothing else. IPREF fetches into the named level, line by line in increasing order: each line that can be fetched
then stands in the partition, a line that cannot changes nothing, and lines of other sets stay. IPIN also pins each line whose
set has a free pin, and answers in d whether a line was left unpinned; IUNPIN unpins and leaves the lines valid; ICINV reaches
every partition of the strand eight beats later, and at once in a handler. That these act at their issue is log 71's reading,
that a range does not wrap log 65's, and that a slice cache drops its oldest line log 19's; that IPIN pins also a line that
poison or silent memory keeps from being fetched, and answers 0 for it, is the model's choice of log 76. -/
def Obligations.PrefetchAndCacheControl : Prop :=
  (∀ (s : State) (v : View) (h : Head) (d a b : Reg) (x : BitVec 2), s.view = some v → v.guard h.neg h.g = true →
    let fetched (t : State) : Prop := t = { s with strands := t.strands, stks := t.stks, tasks := t.tasks } ∧
      (∀ k < 4, t.stack k =
        { s.stack k with
          tlb := (t.stack k).tlb, sliceTlb := (t.stack k).sliceTlb, micro := (t.stack k).micro, cache := (t.stack k).cache }) ∧
      List.Forall₂ (fun p q : Task => q = { p with used := q.used }) s.tasks t.tasks ∧
      List.Forall₂ (fun p q : Strand => if p.sid = v.cur.sid then q = { p with cores := q.cores } ∧
        List.Forall₂ (fun c e : Core => e = { c with l1 := e.l1, cl := e.cl } ∧
          ∀ k < 4, e.cluster k = { c.cluster k with l0 := (e.cluster k).l0, gone := (e.cluster k).gone }) p.cores q.cores
        else q = p) s.strands t.strands
    let pinned (t : State) (n : Nat) : Prop := ∃ l, lineOf (v.cache t x.toNat) n = some l ∧ l.pinned = true
    let within (n : Nat) : Prop := (v.rs a).toNat < 64 * n + 64 ∧ 64 * n < (v.rs a).toNat + (v.rs b).toNat
    let first := (v.rs a).toNat / 64
    let span := if v.rs b = 0 then 0 else ((v.rs a).toNat % 64 + (v.rs b).toNat + 63) / 64
    let held (u : State) : List Nat := vget (u.stack v.st.stack).cache (v.co.phys / 4) []
    let takes (bus : Nat) : Prop := busOk bus = true ∧ s.silent bus = false ∧ s.hostAbsent bus = false ∧ isDoorbell bus = false
    let brought (t : State) (bus : Nat → Option Nat) : Prop := t = { s with stks := t.stks } ∧
      (∀ k < 4, t.stack k = { s.stack k with cache := (t.stack k).cache } ∧
        ∀ m < 16, (k = v.st.stack ∧ m = v.co.phys / 4) ∨ vget (t.stack k).cache m [] = vget (s.stack k).cache m []) ∧
      (∀ l ∈ held t, l ∈ held s ∨ ∃ i < span, ∃ y, bus (first + i) = some y ∧ takes y ∧ l = y / 64) ∧
      (v.st.stack < 4 → v.co.phys < 64 → span ≤ 2 ^ 18 → ∀ i < span, ∀ y, bus (first + i) = some y → takes y → y / 64 ∈ held t)
    let sets := if x.toNat = 0 then 16 else 256
    let lineStep (pin : Bool) (u u' : State) (n : Nat) : Prop := ∀ st co, u.strand? v.cur.sid = some st → st.cores[v.cur.core]? = some co →
      let ls := v.cache u x.toNat
      let ls' := v.cache u' x.toNat
      let mayPin : Prop := pinsIn ls sets n < 3 ∨ pinned u n
      (∀ m, m % sets ≠ n % sets → lineOf ls' m = lineOf ls m) ∧
      (u.lineFor st co n = none → pin = false → u' = u) ∧
      (∀ bs, u.lineFor st co n = some bs → pinsIn ls sets n ≤ 3 → lineBytes ls' n = some ((lineBytes ls n).getD bs)) ∧
      (pin = true → (pinned u' n ↔ mayPin))
    let chain (pin : Bool) (us : Nat → State) : Prop := us 0 = s ∧ (∀ i < span, lineStep pin (us i) (us (i + 1)) (first + i)) ∧
      (span ≤ sets → ∀ i < span, ∀ st co, (us i).strand? v.cur.sid = some st → st.cores[v.cur.core]? = some co →
        (((us i).lineFor st co (first + i)).isSome ∧ pinsIn (v.cache (us i) x.toNat) sets (first + i) ≤ 3 →
          (lineBytes (v.cache (us span) x.toNat) (first + i)).isSome))
    (∃ t, exec (.pref h a b) s = .next t ∧ brought t fun n => if 2 ^ 48 ≤ 64 * n then none
      else (s.tlbHit v.st.stack v.co.phys v.st.ctx (64 * n)).map fun p => p.at (64 * n)) ∧
    (∃ t, exec (.ipref h a b x) s = .next t ∧ fetched t ∧
      (2 ≤ x.toNat → brought t fun n => (s.lineBus v.st v.co n).toOption) ∧
      (x.toNat < 2 → v.cur.cl < 4 → ∃ us : Nat → State, t = us span ∧ chain false us)) ∧
    (∃ u z, exec (.ipin h d a b x) s = .next (v.land u 1 2 (.scalar v.cur.cl d z)) ∧ fetched u ∧ (z = 0 ∨ z = 1) ∧
      (z = 0 ↔ ∀ n, (v.rs b) ≠ 0 → within n → pinned u n) ∧
      (x.toNat < 2 → v.cur.cl < 4 → ∃ us : Nat → State, u = us span ∧ chain true us)) ∧
    (∃ t, exec (.iunpin h a b x) s = .next t ∧ fetched t ∧ (∀ n, (v.rs b) ≠ 0 → within n → ¬ pinned t n) ∧
      ∀ l ∈ v.cache s x.toNat, (l.bytes.isSome → ∃ m ∈ v.cache t x.toNat, m.tag = l.tag ∧ m.bytes = l.bytes) ∧
        (¬ ((v.rs b) ≠ 0 ∧ within l.tag) → l.pinned = true ∨ l.bytes.isSome → l ∈ v.cache t x.toNat)) ∧
    exec (.icinv h a b) s = .next (s.modStrand v.cur.sid fun t => if v.cur.handler then t.invalidate 0 (v.rs a).toNat (v.rs b).toNat
      else { t with icinvs := t.icinvs ++ [(v.cur.beat + 8, (v.rs a).toNat, (v.rs b).toNat)] })) ∧
  ∀ (t : Strand) (upto a n : Nat),
    let u := t.invalidate upto a n
    let within (l : Line) : Prop := a < 64 * l.tag + 64 ∧ 64 * l.tag < a + n
    u = { t with cores := u.cores } ∧ u.cores.length = t.cores.length ∧
    ∀ (i : Nat) (c e : Core), t.cores[i]? = some c → u.cores[i]? = some e →
      (∀ l, l ∈ e.l1 ↔ l ∈ c.l1 ∧ ¬ (0 < n ∧ within l)) ∧
      ∀ k < 4, ∀ l, l ∈ (e.cluster k).l0 ↔ l ∈ (c.cluster k).l0 ∧ ¬ (0 < n ∧ within l)

/-! ## Guards, control and special registers (R78, R89, R111 to R114, R158 to R164) -/

/-- R78, R81, R113, R150, R185, R214, R238: a false guard suppresses the whole syllable: nothing is written, started or raised,
once the footprint holds the plane or the engine that it names; of an ACLD the stochastic-rounding state steps all the same
(R126). R161, R89: NOP changes nothing; HALT halts its context, but raises ILLEGAL in a delay bundle. -/
def Obligations.FalseGuardsNopAndHalt : Prop :=
  (∀ (s : State) (v : View) (h : SHead) (g : Head) (d a b : Reg) (p q r : PReg) (w : W32) (m : BitVec 2) (x : BitVec 5) (n : BitVec 10) (f : BitVec 7)
    (o : OSrc) (e : VDst) (t t' : Byte) (z y : Bool) (k k' : BitVec 6) (j : BitVec 4) (c : BitVec 11) (i3 : BitVec 3) (ts : Stamp) (cv : Conv),
    s.view = some v →
    (v.guard h.neg h.g = false → ∀ i ∈ ([.add h d a b, .sub h d a b, .and h d a b, .or h d a b, .xor h d a b, .andn h d a b, .shl h d a b, .shr h d a b, .sar h d a b,
      .rotl h d a b, .mul h d a b, .mulhI h d a b, .mulhN h d a b, .divI h d a b, .divN h d a b, .modI h d a b, .modN h d a b,
      .minI h d a b, .minN h d a b, .maxI h d a b, .maxN h d a b, .bfx h d a b, .bfi h d a b, .lea h d a b, .clz h d a, .popc h d a,
      .mov h d a, .addl h d a w, .subl h d a w, .andl h d a w, .orl h d a w, .xorl h d a w, .andnl h d a w, .shll h d a w,
      .shrl h d a w, .sarl h d a w, .rotll h d a w, .mull h d a w, .minlI h d a w, .minlN h d a w, .maxlI h d a w, .maxlN h d a w,
      .leal h d a w, .movl h d w, .cmpEq h p a b, .cmpNe h p a b, .cmpLtI h p a b, .cmpGeI h p a b, .cmpLtN h p a b, .cmpGeN h p a b,
      .cmplEq h p a w, .cmplNe h p a w, .cmplLtI h p a w, .cmplGeI h p a w, .cmplLtN h p a w, .cmplGeN h p a w, .pand h p q r,
      .por h p q r, .pxor h p q r, .pnot h p q, .pfirst h p q, .pcount h d q, .pany h p q, .pall h p q, .mfs h d n, .mts h d n] : List Instr), exec i s = .next s) ∧
    (v.guard g.neg g.g = false →
      (∀ i ∈ ([.sld g e a f, .sldTagged g e a f t, .sst g o a f, .sstTagged g o a f t, .slds g d a f, .sldsTagged g d a f t, .ssts g d a f,
        .sstsTagged g d a f t, .ld g d a b m, .st g d a b m, .ecopy g d a b m, .mark g, .lqwait g x, .sqwait g x, .fence g x,
        .aadd g d a b m, .aminI g d a b m, .aminN g d a b m, .amaxI g d a b m, .amaxN g d a b m, .aand g d a b m, .aor g d a b m,
        .axor g d a b m, .axchg g d a b m, .acas g d a b m, .afadd g d a b m, .bara g d a m, .barw g a b m, .flagw g d a b m m,
        .pref g a b, .ipref g a b m, .ipin g d a b m, .iunpin g a b m, .icinv g a b, .park g o a b, .unpark g e a b,
        .acalloc g d a z y, .acfree g a, .acown g a b, .waitb g a, .waitbUntil g a, .deadline g a b, .deadlineClr g, .acqp g x,
        .relp g, .molt g d a, .enq g d a b, .trap g a x] : List Instr), exec i s = .next s) ∧
      (x.toNat < v.st.fp.planes → ∀ i ∈ ([.drawImmediate g m x m k, .drawRegister g m x m a, .putOperandImmediate g j x m k, .putOperandRegister g j x m a,
        .putLastResultImmediate g m x m k, .putLastResultRegister g m x m a] : List Instr), exec i s = .next s) ∧
      (v.st.fp.names (unitOf m) = true → ∀ i ∈ ([.mcfg g ts a c m, .cfgld g ts a z t t' t' m, .cfgswap g ts m] : List Instr), exec i s = .next s) ∧
      (v.st.fp.me = true → ∀ i ∈ ([.mgo g ts z y t t', .mstop g ts, .mbase g ts a i3, .mfmt g ts a j, .aczero g ts k k' x] : List Instr),
        exec i s = .next s) ∧
      (v.st.fp.bte = true → ∀ i ∈ ([.xcopy g ts a m z t y t' x x, .tsld g ts a x, .tsev g ts x] : List Instr), exec i s = .next s) ∧
      (v.st.fp.te = true → exec (.tload g ts a z t m) s = .next s) ∧
      (v.st.fp.re = true → ∀ i ∈ ([.rload g ts a z t, .rstep g ts a k z m x x] : List Instr), exec i s = .next s) ∧
      exec (.acld g e a b cv) s = .next (v.modCl s fun c => { c with sr := v.srNext cv.rnd.toNat }))) ∧
  (∀ (s : State) (v : View) (h : SHead), s.view = some v →
    exec (.nop h) s = .next s ∧
    (v.cl.seq.pos ≠ 0 → exec (.halt h) s = .next (v.raise s 1)) ∧
    (v.cl.seq.pos = 0 → v.guard h.neg h.g = false → exec (.halt h) s = .next s) ∧
    (v.cl.seq.pos = 0 → v.guard h.neg h.g = true → exec (.halt h) s = .next (v.modCl s fun c =>
      { c with halted := true, ta := { c.ta with counts := false }, tb := { c.tb with counts := false } })))

/-- R89, R90, R162: a transfer in place issues its delay bundles next and its target after them where its guard holds; CALL
also writes s31 with the address past the delay bundles. In scoreboard mode JMP and RET read their register, and have their
target looked up, as they issue. A misplaced one raises ILLEGAL whatever its guard. -/
def Obligations.Transfers : Prop :=
  ∀ (s : State) (v : View) (h : SHead) (a : Reg) (ofs : BitVec 15), s.view = some v →
    let q := v.cl.seq
    let bad := q.badTransfer v.len (v.d1 s) (v.d2 s)
    let seqd (tgt : Option Nat) (exits : Bool) : State :=
      { (v.modCl s fun c => { c with seq := { pc := q.pc + v.len, pos := 1, tgt, exits, loops := q.loops } }) with
        cur := some { v.cur with moved := true } }
    let rel : Nat := (((v.cur.pc : Int) + 4 * ofs.toInt) % 2 ^ 64).toNat
    let four : List Instr := [.br h ofs, .call h ofs, .jmp h a, .ret h]
    (q.pos ≠ 0 → bad = true) ∧ (q.pos = 0 → q.loops = [] → bad = false) ∧
    (bad = true → ∀ i ∈ four, exec i s = .next (v.raise s 1)) ∧
    (bad = false → v.guard h.neg h.g = false → ∀ i ∈ four, exec i s = .next (seqd none false)) ∧
    (bad = false → v.guard h.neg h.g = true →
      exec (.br h ofs) s = .next (seqd (some rel) true) ∧
      (∃ z, exec (.call h ofs) s = .next (v.land (seqd (some rel) false) 1 0 (.scalar v.cur.cl 31 z)) ∧
        ∀ n m, v.d1 s = some n → v.d2 s = some m → z = BitVec.ofNat 64 (v.cur.next + n + m)) ∧
      let fresh (t : State) : State := v.modCl t fun c => { c with gone := c.gone.map fun g => (min g.1 (v.cur.beat + 3), g.2) }
      (v.cur.handler = true →
        exec (.jmp h a) s = .next (seqd (some (v.rs a).toNat) true) ∧ exec (.ret h) s = .next (seqd (some (v.rs 31).toNat) false)) ∧
      (v.cur.handler = false → v.cur.beat < v.cl.horizon →
        exec (.jmp h a) s = .next (fresh (seqd (some (v.rs a).toNat) true)) ∧
        exec (.ret h) s = .next (fresh (seqd (some (v.rs 31).toNat) false))) ∧
      (v.cur.handler = false → v.cl.horizon ≤ v.cur.beat →
        exec (.jmp h a) s = .next (seqd (some (v.cl.rsBack v.cur.beat a).toNat) true) ∧
        exec (.ret h) s = .next (seqd (some (v.cl.rsBack v.cur.beat 31).toNat) false)))

/-- R90: JMP and RET see their register as a bundle of eight beats earlier would have read it: a write that landed later than
that is not seen, and one that landed then or before is. R89: the two delay bundles issue in turn, and then the target, or with
a false guard the bundle after them. R111: the body's last bundle leads back to its first, with no overhead, while iterations
remain, and then to End; the counter reads the iteration. -/
def Obligations.SequencesAdvance : Prop :=
  (∀ (c : Cluster) (x b : Nat) (r : Reg) (v : W64), (∀ e ∈ c.slog, e.2.1 ≠ r.toNat) → r ≠ 0 → x ≤ b →
    (c.ws x r v).rsBack b r = if x + 8 ≤ b then v else c.rs r) ∧
  (∀ (q : Seq) (len n m : Nat) (tgt : Option Nat),
    let q1 := q.transfer len tgt false
    let q2 := q1.advance n
    let q3 := q2.advance m
    q1.pc = q.pc + len ∧ q2.pc = q.pc + len + n ∧ q3.pc = tgt.getD (q.pc + len + n + m) ∧ q3.pos = 0 ∧ q3.tgt = none) ∧
  (∀ (pc len b total iter ctr : Nat) (outer : List Loop),
    let l : Loop := { ctr, start := some b, stop := pc + len, total, iter }
    let q : Seq := { pc, pos := 0, tgt := none, exits := false, loops := l :: outer }
    b ≤ pc → 0 < len →
    q.lc ctr = iter ∧
    (iter + 1 < total → (q.advance len).pc = b ∧ (q.advance len).lc ctr = iter + 1 ∧ (q.advance len).loops.length = outer.length + 1) ∧
    (total ≤ iter + 1 → outer = [] → (q.advance len).pc = pc + len ∧ (q.advance len).loops = [] ∧ (q.advance len).lc ctr = 0))

/-- R111, R112: LOOP and LOOPL in place make their counter active with the count, or with a count of zero or a false guard go
to End after the delay bundles; a counter already active, an End beyond an enclosing loop's or an empty body raises ILLEGAL. -/
def Obligations.HardwareLoopsBegin : Prop :=
  ∀ (s : State) (v : View) (h : SHead) (c : BitVec 2) (k : Reg) (t : BitVec 8) (w : W32), s.view = some v →
    let q := v.cl.seq
    let stop := v.cur.pc + 4 * t.toNat
    let bad := q.badTransfer v.len (v.d1 s) (v.d2 s) || q.badLoop v.len c.toNat stop (v.d1 s) (v.d2 s)
    let seqd (tgt : Option Nat) (skips : Bool) (loops : List Loop) : State :=
      { (v.modCl s fun x => { x with seq := { pc := q.pc + v.len, pos := 1, tgt, exits := false, loops, skips } }) with
        cur := some { v.cur with moved := true } }
    let runs (total : Nat) : State := seqd none false ({ ctr := c.toNat, start := none, stop, total, iter := 0 } :: q.loops)
    let skips : State := seqd (some stop) true q.loops
    let count := (v.rs k).toNat % 2 ^ 32
    (bad = true → exec (.loop h c k t) s = .next (v.raise s 1) ∧ exec (.loopl h c t w) s = .next (v.raise s 1)) ∧
    (bad = false → v.guard h.neg h.g = true → 0 < count → exec (.loop h c k t) s = .next (runs count)) ∧
    (bad = false → v.guard h.neg h.g = false ∨ count = 0 → exec (.loop h c k t) s = .next skips) ∧
    (bad = false → v.guard h.neg h.g = true → 0 < w.toNat → exec (.loopl h c t w) s = .next (runs w.toNat)) ∧
    (bad = false → v.guard h.neg h.g = false ∨ w.toNat = 0 → exec (.loopl h c t w) s = .next skips) ∧
    (q.pos ≠ 0 → bad = true) ∧
    ((∃ l ∈ q.loops, l.ctr = c.toNat) → bad = true) ∧
    ((∃ l ∈ q.loops, ∃ b, l.start = some b ∧ b ≤ q.pc ∧ q.pc < l.stop ∧ l.stop < stop) → bad = true)

/-- R114, R164: CWAIT arrives with its mask and beat; the last arrival of the mask completes it, and every cluster of the mask
then issues its first bundle past its lead at x + 8. A cluster that has arrived keeps the beat of its first CWAIT (log 74, the
model's reading). -/
def Obligations.RendezvousArrival : Prop :=
  ∀ (s : State) (v : View) (h : SHead) (m : BitVec 4), s.view = some v → v.cur.cl < 4 →
    let mine (k : Nat) : Prop := m.getLsbD k = true
    let named : Prop := mine v.cur.cl ∧ ∀ k < 4, mine k → v.st.fp.mask.getLsbD k = true
    let waits (k : Nat) : Prop := ∃ r, (v.co.cluster k).rdv = some r ∧ r.mask = m
    let others : Prop := ∀ k < 4, (∀ r, (v.co.cluster k).rdv = some r → r.mask.getLsbD v.cur.cl = true → r.mask = m) ∧
      (mine k → ((v.coBefore s).cluster k).halted = false)
    let wait : Rdv := v.cl.rdv.getD { mask := m, beat := v.cur.beat, since := none }
    let here (k : Nat) : Prop := waits k ∨ (k = v.cur.cl ∧ v.cl.rdv = none)
    (¬ named → exec (.cwait h m) s = .next (v.raise s 1)) ∧
    (named → v.guard h.neg h.g = false ∨ v.cur.handler = true → exec (.cwait h m) s = .next s) ∧
    (named → v.guard h.neg h.g = true → v.cur.handler = false → ¬ others → exec (.cwait h m) s = .next (v.raise s 0xF 0 m.toNat)) ∧
    (named → v.guard h.neg h.g = true → v.cur.handler = false → others → ∃ f : Core → Core, exec (.cwait h m) s = .next (v.modCore s f) ∧
      ((∃ k < 4, mine k ∧ ¬ here k) → ∀ k < 4, (f v.co).cluster k =
        if k = v.cur.cl then { v.cl with rdv := some wait } else v.co.cluster k) ∧
      ((∀ k < 4, mine k → here k) → ∀ k < 4,
        let c := v.co.cluster k
        (f v.co).cluster k = if k = v.cur.cl then { v.cl with rdv := none, gaps := v.cl.gaps ++ [(wait.beat + 8, v.cur.beat + 8)] }
          else if m.getLsbD k then { c with rdv := none, gaps := c.gaps ++ (match c.rdv with
            | some r => [(r.beat + 8, v.cur.beat + 8)]
            | none => []) }
          else c))

/-- R158 to R160, R240, R188: MFS lands, after one beat, the register its code names; the generation count lands as it stands
at the end of the beat, zero where the rule engine's planes have flipped on it; MTS lands its register from the next beat.
R158, R159, R240, R110: what a landed MTS writes: only the bits a register implements; nothing to p0, and nothing to the pc or
target of a bank that is not in use. -/
def Obligations.SpecialRegisters : Prop :=
  ((∀ (s : State) (v : View) (h : SHead) (r : Reg), s.view = some v → v.guard h.neg h.g = true →
    let reads (code : Nat) (x : W64) : Prop := LandsScalar s v 1 r (.mfs h r (BitVec.ofNat 10 code)) (· = x)
    let nat (n : Nat) : W64 := BitVec.ofNat 64 n
    let inner (f : Bank → W64) : W64 := if v.cl.tb.inUse then f v.cl.tb else if v.cl.ta.inUse then f v.cl.ta else 0
    let bank (base : Nat) (b : Bank) : Prop :=
      reads base (b.pc &&& ~~~3) ∧ reads (base + 1) b.cause ∧ reads (base + 2) b.addr ∧ reads (base + 3) (b.tgt &&& ~~~3) ∧ reads (base + 4) b.beat ∧
      reads (base + 5) b.fseq ∧ reads (base + 8) (b.nme.setWidth 64) ∧ reads (base + 9) (b.nte.setWidth 64) ∧
      reads (base + 10) (b.nre.setWidth 64) ∧ reads (base + 11) (b.nbte.setWidth 64) ∧ reads (base + 12) (b.nlq.setWidth 64) ∧
      reads (base + 13) (b.nsq.setWidth 64) ∧ reads (base + 16) b.k0 ∧ reads (base + 17) b.k1 ∧ reads (base + 18) b.k2 ∧
      reads (base + 19) b.k3
    reads 0 (nat v.cur.beat) ∧ reads 1 (nat (s.stack v.st.stack).cyc) ∧ reads 2 (nat s.wtime) ∧
    (∀ i : Fin 8, reads (8 + i) (v.st.mbx[i])) ∧ reads 0x10 v.cl.tvec ∧ reads 0x11 (inner (·.cause)) ∧ reads 0x12 (inner (·.addr)) ∧
    reads 0x18 (allocst (v.banksBefore s)) ∧ reads 0x19 (v.cl.fmtbase.setWidth 64) ∧ reads 0x1A (v.cl.fmtsel.setWidth 64) ∧ reads 0x20 v.st.seed ∧ reads 0x21 v.st.ctrbase ∧
    reads 0x22 (nat v.st.logidx) ∧ reads 0x23 (nat v.st.sid) ∧ reads 0x24 (nat v.st.ctx) ∧ reads 0x25 v.st.digest ∧
    reads 0x26 (if v.st.region.on then nat v.st.region.level else 0) ∧ (∀ n < 4, reads (0x30 + n) (nat (v.cl.seq.lc n))) ∧
    (∀ n < 12, reads (0x40 + n) (v.cl.rp n)) ∧ bank 0x100 v.cl.ta ∧ bank 0x120 v.cl.tb ∧
    exec (.mfs h r 0x1B) s = .next (v.land s 1 0 (.rgc v.cur.cl r (nat v.co.rgc))) ∧
    ∀ code : BitVec 10, exec (.mts h r code) s = .next (v.land s 1 0 (.special v.cur.cl code.toNat (v.rs r)))) ∧
  ∀ (co old : Core) (e : Timed) (cl : Nat) (d : Reg) (z : W64), e ∈ co.agenda → e.act = .rgc cl d z →
    { e with act := .scalar cl d (if co.re.flips = old.re.flips then z else 0) } ∈ (co.decideAll old).agenda) ∧
  (∀ (c : Cluster) (x : W64),
    let w (code : Nat) : Cluster := c.writeSpecial code x
    let aligned : W64 := x &&& 0xFFFFFFFFFFFFFFFC
    let aim (b : Bank) : Bank :=
      if b.inUse = false then b
      else { b with tgt := aligned, seq := if b.seq.pos = 0 then b.seq
        else { b.seq with tgt := some aligned.toNat, exits := true, skips := false } }
    w 0x10 = { c with tvec := aligned } ∧ w 0x19 = { c with fmtbase := x.truncate 4 } ∧ w 0x1A = { c with fmtsel := x.truncate 2 } ∧
    w 0x40 = c ∧ (∀ n < 12, 0 < n → (w (0x40 + n)).rp n = x ∧ ∀ k < 12, k ≠ n → (w (0x40 + n)).rp k = c.rp k) ∧
    w 0x100 = { c with ta := if c.ta.inUse then { c.ta with pc := aligned } else c.ta } ∧
    w 0x103 = { c with ta := aim c.ta } ∧
    w 0x120 = { c with tb := if c.tb.inUse then { c.tb with pc := aligned } else c.tb } ∧
    w 0x123 = { c with tb := aim c.tb } ∧
    w 0x110 = { c with ta := { c.ta with k0 := x } } ∧ w 0x111 = { c with ta := { c.ta with k1 := x } } ∧
    w 0x112 = { c with ta := { c.ta with k2 := x } } ∧ w 0x113 = { c with ta := { c.ta with k3 := x } } ∧
    w 0x130 = { c with tb := { c.tb with k0 := x } } ∧ w 0x131 = { c with tb := { c.tb with k1 := x } } ∧
    w 0x132 = { c with tb := { c.tb with k2 := x } } ∧ w 0x133 = { c with tb := { c.tb with k3 := x } })

/-! ## Commands and accumulator banks at issue (R141, R185, R200 to R204) -/

/-- R83, R113, R141, R185: a command enters its queue with the queue's next sequence number, its stamp and the value of its
scalar; a late stamp, or but for the block-transfer engine one out of order, raises SCHEDULE, a full queue QUEUE, and an engine
outside the footprint ILLEGAL whatever the guard. R204, R252: ACZERO's checks at issue come in the order BOUNDS, SCHEDULE,
QUEUE, OWNERSHIP; a command that passes them enters the matrix engine's queue. -/
def Obligations.CommandsEnterTheirQueues : Prop :=
  (∀ (s : State) (v : View) (h : Head) (st : Stamp) (g : Reg) (i : Instr) (u : Unit') (val : W64) (fmt : Nat), s.view = some v →
    let x := v.rs g
    let fi := (v.cl.fmtbase.toNat + v.cl.seq.lc v.cl.fmtsel.toNat) % 16
    let unit (e : BitVec 2) : Unit' := match e.toNat with
      | 0 => .me
      | 1 => .te
      | _ => .re
    ((∃ ofs e, i = .mcfg h st g ofs e ∧ u = unit e ∧ val = x ∧ fmt = 0) ∨ (∃ cb ca bt a, i = .mgo h st cb ca bt a ∧ u = .me ∧ val = 0 ∧ fmt = fi) ∨
      (i = .mstop h st ∧ u = .me ∧ val = 0 ∧ fmt = 0) ∨ (∃ w, i = .mbase h st g w ∧ u = .me ∧ val = x ∧ fmt = 0) ∨
      (∃ ck t ofs len e, i = .cfgld h st g ck t ofs len e ∧ u = unit e ∧ val = x ∧ fmt = 0) ∨
      (∃ e, i = .cfgswap h st e ∧ u = unit e ∧ val = 0 ∧ fmt = 0) ∨ (∃ e, i = .mfmt h st g e ∧ u = .me ∧ val = x ∧ fmt = 0) ∨
      (∃ rem ck ex stg t dst frm, i = .xcopy h st g rem ck ex stg t dst frm ∧ u = .bte ∧ val = x ∧ fmt = 0) ∨
      (∃ k, i = .tsld h st g k ∧ u = .bte ∧ val = x ∧ fmt = 0) ∨ (∃ k, i = .tsev h st k ∧ u = .bte ∧ val = 0 ∧ fmt = 0) ∨
      (∃ ck t k, i = .tload h st g ck t k ∧ u = .te ∧ val = x ∧ fmt = 0) ∨ (∃ ck t, i = .rload h st g ck t ∧ u = .re ∧ val = x ∧ fmt = 0) ∨
      (∃ n c nb alt pl, i = .rstep h st g n c nb alt pl ∧ u = .re ∧ val = x ∧ fmt = 0)) →
    let t : Nat := match st with
      | .rel n => v.cur.beat + n.toNat
      | .abs r => (v.rs r).toNat
    let e := v.co.eng u
    let named := match u with
      | .me => v.st.fp.me
      | .te => v.st.fp.te
      | .re => v.st.fp.re
      | .bte => v.st.fp.bte
    let full : Nat := if u = .bte then 32 else 16
    let late : Prop := t < v.cur.beat ∨ u ≠ .bte ∧ t < e.last
    (named = false → exec i s = .next (v.raise s 1)) ∧
    (named = true → v.guard h.neg h.g = false → exec i s = .next s) ∧
    (named = true → v.guard h.neg h.g = true → late → exec i s = .next (v.raise s 4)) ∧
    (named = true → v.guard h.neg h.g = true → ¬ late → full ≤ e.q.length → exec i s = .next (v.raise s 5)) ∧
    (named = true → v.guard h.neg h.g = true → ¬ late → e.q.length < full → ∃ f : Engine → Engine,
      exec i s = .next (v.modCore s fun c => c.modEng u f) ∧ ∀ y, f y = { y with q := (f y).q, next := y.next + 1, last := t } ∧
        List.Perm (f y).q ({ seq := y.next, stamp := t, cl := v.cur.cl, ins := i, val, fmt } :: y.q) ∧
        ((y.q.Pairwise fun a b => a.stamp ≤ b.stamp) → (f y).q.Pairwise fun a b => a.stamp ≤ b.stamp))) ∧
  (∀ (s : State) (v : View) (h : Head) (st : Stamp) (rows row : BitVec 6) (bank : BitVec 5), s.view = some v → v.st.fp.me = true →
    v.guard h.neg h.g = true →
    let i : Instr := .aczero h st rows row bank
    let t : Nat := match st with
      | .rel n => v.cur.beat + n.toNat
      | .abs r => (v.rs r).toNat
    let owned : Prop := ∀ k ≤ rows.toNat, (v.co.bank bank.toNat).own.getLsbD (4 * ((row.toNat + k) / 16) + v.cur.cl) = true
    let late : Prop := t < v.cur.beat ∨ t < v.co.me.last
    (v.st.fp.acc ≤ bank.toNat → exec i s = .next (v.raise s 2 (bank.setWidth 64))) ∧
    (bank.toNat < v.st.fp.acc → late → exec i s = .next (v.raise s 4)) ∧
    (bank.toNat < v.st.fp.acc → ¬ late → 16 ≤ v.co.me.q.length → exec i s = .next (v.raise s 5)) ∧
    (bank.toNat < v.st.fp.acc → ¬ late → v.co.me.q.length < 16 → ¬ owned → ∃ r, exec i s = .next (v.raise s 7 (bank.setWidth 64) r)) ∧
    (bank.toNat < v.st.fp.acc → ¬ late → v.co.me.q.length < 16 → owned → ∃ f : Engine → Engine,
      exec i s = .next (v.modCore s fun c => { c with me := f c.me }) ∧
      ∀ x, f x = { x with q := (f x).q, next := x.next + 1, last := t } ∧
        List.Perm (f x).q ({ seq := x.next, stamp := t, cl := v.cur.cl, ins := i, val := 0, fmt := 0 } :: x.q)))

/-- R200, R201, R202, R136: ACALLOC, ACFREE and ACOWN change one bank's state and masks and no other's; ACALLOC lands the new
`allocst` after one beat; each raises BOUNDS, then ALLOC. -/
def Obligations.AccumulatorBankStates : Prop :=
  ∀ (s : State) (v : View) (h : Head) (d a b : Reg) (zero park : Bool), s.view = some v → v.guard h.neg h.g = true →
    let k := (v.rs a).toNat
    let x := v.co.bank k
    let m := v.st.fp.mask
    let busy : Prop := (∃ n, v.co.nest = some n ∧ k ∈ n.banks) ∨ ∃ e ∈ v.co.cbusy, e.1 = k ∧ v.cur.beat < e.2
    let after (t : State) : Option Core := (t.strand? v.cur.sid).bind fun u => u.cores[v.cur.core]?
    let only (c : Core) (y : AccBank) : Prop := c.bank k = y ∧ ∀ j, j ≠ k → c.bank j = v.co.bank j
    (v.st.fp.acc ≤ k → ∀ i ∈ ([.acalloc h d a zero park, .acfree h a, .acown h a b] : List Instr), exec i s = .next (v.raise s 2 (v.rs a))) ∧
    (k < v.st.fp.acc → x.mode ≠ .unallocated → exec (.acalloc h d a zero park) s = .next (v.raise s 6 (v.rs a))) ∧
    (k < v.st.fp.acc → x.mode = .unallocated → exec (.acfree h a) s = .next (v.raise s 6 (v.rs a)) ∧
      exec (.acown h a b) s = .next (v.raise s 6 (v.rs a))) ∧
    (k < v.st.fp.acc → busy → exec (.acfree h a) s = .next (v.raise s 6 (v.rs a))) ∧
    (k < v.st.fp.acc → k < 32 → x.mode = .unallocated → ∃ t c z, exec (.acalloc h d a zero park) s = .next t ∧ after t = some c ∧
      only c { x with mode := if park then .parked else .allocated, own := m ++ m ++ m ++ m } ∧
      { beat := v.cur.beat + 1, ord := v.ord 3, act := .scalar v.cur.cl d z } ∈ c.agenda ∧
      (zero = true → { beat := v.cur.beat + 1, ord := v.rank, act := .accZero k 0 64 } ∈ c.agenda) ∧
      ∀ j < 32, z.getLsbD j = ((c.bank j).mode != .unallocated) ∧ z.getLsbD (32 + j) = ((c.bank j).mode == .parked)) ∧
    (k < v.st.fp.acc → k < 32 → x.mode ≠ .unallocated → ¬ busy → ∃ t c, exec (.acfree h a) s = .next t ∧ after t = some c ∧
      only c { x with mode := .unallocated } ∧ c.acc = v.co.acc) ∧
    (k < v.st.fp.acc → x.mode ≠ .unallocated → x.ownBeat = v.cur.beat + 1 → v.cur.handler = false → exec (.acown h a b) s = .next s) ∧
    (k < v.st.fp.acc → k < 32 → x.mode ≠ .unallocated → x.ownBeat ≠ v.cur.beat + 1 ∨ v.cur.handler = true → ∃ t c, exec (.acown h a b) s = .next t ∧ after t = some c ∧
      only c
        { x with
          own := (v.rs b).truncate 16 &&& (m ++ m ++ m ++ m), ownBeat := if v.cur.handler then x.ownBeat else v.cur.beat + 1 })

/-! ## Pacing, holds and traps at issue (R237 to R248) -/

/-- R245 to R248: a declaration stands or is cleared; ACQP asks for its level or lowers the region's, RELP ends it, and of
those of one beat the last stands, clusters rising and of each the cores; MOLT answers MALFORMED or BUSY at once and otherwise
leaves its request with the weaver. R237: a WAITB holds its cluster, and nothing else, to the beat its table gives. -/
def Obligations.PacingInstructions : Prop :=
  (∀ (s : State) (v : View) (h : Head) (d a b : Reg) (n : BitVec 5), s.view = some v → v.guard h.neg h.g = true →
    let beats := ((v.rs a).extractLsb' 0 48).toNat
    let due := s.wtime + ((v.rs b).extractLsb' 0 48).toNat
    let ofStrand (f : Strand → Strand) : State := s.modStrand v.cur.sid f
    let w := (v.rs a).toNat
    let bad : Prop := 256 ≤ w ∨ 4 < w % 8 ∨ 2 ^ (w % 8) ≤ w / 16 ∨ (w / 8 % 2 = 1 ∧ w / 16 ≠ 0)
    (beats ≠ 0 → exec (.deadline h a b) s = .next (ofStrand fun t =>
      { t with decl := some { left := beats, due, core := v.cur.core, cl := v.cur.cl, risk := false, fresh := !v.cur.handler } })) ∧
    (beats = 0 → exec (.deadline h a b) s = .next (ofStrand fun t => { t with decl := none })) ∧
    exec (.deadlineClr h) s = .next (ofStrand fun t => { t with decl := none }) ∧
    (let undone (r : Region) : Region :=
        { r with reqs := r.reqs.filter (fun q => q.1 != v.cur.beat), falls := r.falls.filter fun f => f.1 != v.cur.beat }
      let inside (r : Region) : Prop := r.on = true ∧ ∀ f ∈ (undone r).falls, f.2.2 = false
      let place := 64 * v.cur.cl + v.cur.core
      let later (r : Region) : Prop := v.cur.handler = false ∧ ∃ p, r.last = some (v.cur.beat, p) ∧ place < p
      let last (r : Region) : Region := if v.cur.handler then r else { r with last := some (v.cur.beat, place) }
      (∃ f : Region → Region, exec (.acqp h n) s = .next (ofStrand fun t => { t with region := f t.region }) ∧
        ∀ r, (later r → f r = r) ∧
          (¬ later r → inside r → n.toNat < r.level →
            f r = last { undone r with falls := (undone r).falls ++ [(v.cur.beat, n.toNat, false)] }) ∧
          (¬ later r → ¬ (inside r ∧ n.toNat < r.level) →
            f r = last { undone r with reqs := (undone r).reqs ++ [(v.cur.beat, n.toNat, (s.stack v.st.stack).cyc, none)] })) ∧
      ∃ f : Region → Region, exec (.relp h) s = .next (ofStrand fun t => { t with region := f t.region }) ∧
        ∀ r, (later r → f r = r) ∧ (¬ later r → inside r → f r = last { undone r with falls := (undone r).falls ++ [(v.cur.beat, 0, true)] }) ∧
          (¬ later r → ¬ inside r → f r = last (undone r))) ∧
    (bad → exec (.molt h d a) s = .next (v.land s 1 3 (.scalar v.cur.cl d 3))) ∧
    (¬ bad → v.st.molt.isSome = true → exec (.molt h d a) s = .next (v.land s 1 3 (.scalar v.cur.cl d 4))) ∧
    let req : MoltReq := { stride := 2 ^ (w % 8), pin := if w / 8 % 2 = 1 then none else some (w / 16), core := v.cur.core, cl := v.cur.cl, d }
    (¬ bad → v.st.molt = none → exec (.molt h d a) s = .next (ofStrand fun t => { t with molt := some req }))) ∧
  (∀ (s : State) (v : View) (h : Head) (a : Reg), s.view = some v → v.guard h.neg h.g = true →
    exec (.waitb h a) s = .next (v.modCl s fun c => { c with waitb := v.cur.beat + 1 + (v.rs a).toNat % 2 ^ 32 }) ∧
    exec (.waitbUntil h a) s = .next (v.modCl s fun c => { c with waitb := max (v.cur.beat + 1) (v.rs a).toNat }) ∧
    ∀ (c : Cluster) (x : Nat), c.issues x = true → c.waitb ≤ x)

/-- R242, R251: TRAP raises SOFTWARE, of a kind taken after its bundle, with n in Detail and the value of sa as its address.
R243, R244: a return leaves the innermost bank in use and resumes at its address with its delay position, skipping n bundles
over those that a trap had left to skip, which log 27 keeps in the bank (the model's reading); its target and its loops are
those recorded with it; it raises ILLEGAL with no bank in use or in a delay bundle, as one beside a transfer that has just
taken its place is not, and UNRESUMABLE where the cause word has Shadow. -/
def Obligations.SoftwareTrapsAndReturns : Prop :=
  (∀ (s : State) (v : View) (h : Head) (a : Reg) (n : BitVec 5), s.view = some v → v.guard h.neg h.g = true →
    ∃ c : Cause, exec (.trap h a n) s = .next (s.modStrand v.cur.sid fun t => { t with raised := t.raised ++ [{ c with frozen := t.still }] }) ∧
      c.code = 0x13 ∧ c.kind = .soft ∧ c.core = v.cur.core ∧ c.cl = v.cur.cl ∧ c.beat = v.cur.beat ∧ c.addr = v.rs a ∧
      c.detail = n.toNat ∧ c.shadow = false ∧ c.queue = 0) ∧
  (∀ (s : State) (v : View) (h : Head) (n : BitVec 5), s.view = some v →
    let two : List (Instr × Nat) := [(.tret h, 0), (.tretSkip h n, n.toNat)]
    (v.cl.ta.inUse = false → v.cl.tb.inUse = false → ∀ i ∈ two, exec i.1 s = .next (v.raise s 1)) ∧
    (v.cl.seq.pos ≠ 0 → v.cur.moved = false → ∀ i ∈ two, exec i.1 s = .next (v.raise s 1)) ∧
    ∀ b : Bank, (b = if v.cl.tb.inUse then v.cl.tb else v.cl.ta) → b.inUse = true → v.cl.seq.pos = 0 ∨ v.cur.moved = true →
      (v.guard h.neg h.g = false → ∀ i ∈ two, exec i.1 s = .next s) ∧
      (v.guard h.neg h.g = true → b.cause.getLsbD 16 = true → ∀ i ∈ two, exec i.1 s = .next (v.raise s 0x14)) ∧
      (v.guard h.neg h.g = true → b.cause.getLsbD 16 = false → ∀ i ∈ two, ∃ f : Cluster → Cluster,
        exec i.1 s = .next { (v.modCl s f) with cur := some { v.cur with moved := true } } ∧
        (f v.cl).seq = { b.seq with pc := b.pc.toNat } ∧ (f v.cl).skip = b.skip + i.2 ∧
        (f v.cl).tb.inUse = false ∧ (f v.cl).ta.inUse = (v.cl.tb.inUse && v.cl.ta.inUse) ∧
        f v.cl = { v.cl with seq := (f v.cl).seq, skip := (f v.cl).skip, halted := b.wasHalted, ta := (f v.cl).ta, tb := (f v.cl).tb }))

/-! ## Landing, frames and memory (R1, R103 to R107, R110, R150, R255 to R261) -/

/-- R88, R103, R104, R105, R110: what a result changes when it lands, and that it changes nothing else: s0 and p0 keep their
values, only active lanes of a destination are written, and the last-result file moves down by one. R106, R135, R217, R218,
R204, R193: what a write to a shared store changes when it becomes visible, element by element. -/
def Obligations.LandedResults : Prop :=
  (∀ (c : Core) (b k : Nat), k < 4 →
    let only (c' : Core) : Prop := c' = { c with cl := c'.cl } ∧ ∀ j, j ≠ k → c'.cluster j = c.cluster j
    let x := c.cluster k
    let shifts (y : Cluster) (e : Lanes) : Prop := y.l = #v[e, x.l[0], x.l[1], x.l[2]]
    (∀ (d : Reg) (z : W64), let c' := c.apply b (.scalar k d z)
      only c' ∧ ∀ r, (c'.cluster k).rs r = if r = d ∧ d ≠ 0 then z else x.rs r) ∧
    (∀ (d : Nat) (z mask : W64), d < 12 → let c' := c.apply b (.pred k d z mask)
      only c' ∧ ∀ p < 12, (c'.cluster k).rp p = if p = d ∧ d ≠ 0 then (x.rp d &&& ~~~mask) ||| (z &&& mask) else x.rp p) ∧
    (∀ (n : BitVec 4) (act : W64) (z : Lanes), let c' := c.apply b (.vec k (.o n) act z)
      only c' ∧ ∃ e : Lanes, (∀ j < 64, lane e j = if act.getLsbD j then lane z j else lane x.o[n.toNat] j) ∧
        c'.cluster k = { x with o := x.o.set n.toNat e, l := (c'.cluster k).l, struck := (c'.cluster k).struck } ∧ shifts (c'.cluster k) e) ∧
    (∀ (act : W64) (z : Lanes), let c' := c.apply b (.vec k .last act z)
      only c' ∧ ∃ e : Lanes, (∀ j < 64, lane e j = if act.getLsbD j then lane z j else 0) ∧
        c'.cluster k = { x with l := (c'.cluster k).l, struck := (c'.cluster k).struck } ∧ shifts (c'.cluster k) e) ∧
    (∀ (q : BitVec 2) (z : Lanes), let c' := c.apply b (.append k q.toNat z)
      only c' ∧ ∀ n : BitVec 2, (c'.cluster k).queueOf n = if n = q then x.queueOf q ++ [z] else x.queueOf n)) ∧
  (∀ (c : Core) (b : Nat),
    (∀ (a : Nat) (bs : List Byte), let c' := c.apply b (.spad a bs [])
      (∀ i (h : i < bs.length), Sparse.get c'.spad (a + i) = bs[i]) ∧
      (∀ j, j < a ∨ a + bs.length ≤ j → Sparse.get c'.spad j = Sparse.get c.spad j) ∧
      c' = { c with spad := c'.spad, spadPoison := c'.spadPoison }) ∧
    (∀ (tile : Nat) (t : Byte) (j : Nat), let c' := c.apply b (.tag tile t)
      Sparse.get c'.tags j = (if j = tile then t else Sparse.get c.tags j) ∧ c' = { c with tags := c'.tags }) ∧
    (∀ (bank row : Nat) (z : Lanes), row < 64 → let c' := c.apply b (.accRow bank row z)
      (∀ j < 64, Sparse.get c'.acc (bank * 4096 + row * 64 + j) = lane z j) ∧
      (∀ i, i / 64 ≠ bank * 64 + row → Sparse.get c'.acc i = Sparse.get c.acc i) ∧ c' = { c with acc := c'.acc }) ∧
    (∀ (bank row n : Nat), let c' := c.apply b (.accZero bank row n)
      ∀ i, Sparse.get c'.acc i = if bank * 4096 + row * 64 ≤ i ∧ i < bank * 4096 + (row + n) * 64 then 0 else Sparse.get c.acc i) ∧
    (∀ (p dir k : Nat) (z : Lanes), dir < 4 → k < 64 →
      let c' := c.apply b (.plane p ((planeKeys p dir k).zip (lanesList z)))
      (∀ j < 64, Sparse.get c'.planes ((planeKeys p dir k).getD j 0) = lane z j) ∧
      ∀ i, i ∉ planeKeys p dir k → Sparse.get c'.planes i = Sparse.get c.planes i) ∧
    (∀ (e : Nat) (w : W32), e < 16 → ∀ i < 16, vget (c.apply b (.fmtEntry e w)).fmt i 0 = if i = e then w else vget c.fmt i 0))

/-- R107, R150, R255: a result takes its place among those to land: its beat is issue beat plus latency, results of earlier
beats land first, and every other one keeps its place. R107, R151: with nothing else to land, a scalar result of beat b is what
its register reads once beat b + latency has landed, and what stood there before is read until then. -/
def Obligations.ResultsLandAtTheirBeat : Prop :=
  (∀ (c : Core) (b ord : Nat) (a : Act),
    let c' := c.sched b ord a
    c' = { c with agenda := c'.agenda } ∧ List.Perm c'.agenda ({ beat := b, ord, act := a } :: c.agenda) ∧
    List.Sublist c.agenda c'.agenda ∧
    ((c.agenda.Pairwise fun x y => x.beat ≤ y.beat) → c'.agenda.Pairwise fun x y => x.beat ≤ y.beat)) ∧
  (∀ (s t : State) (v : View) (lat : Nat) (d r : Reg) (z : W64) (x : Nat), s.view = some v → v.co.agenda = [] → v.cur.cl < 4 →
    t = v.land s lat 0 (.scalar v.cur.cl d z) → v.cur.beat + lat < 2 ^ 64 →
    let read (u : State) : Option W64 := (u.strand? v.cur.sid).bind fun y => (y.cores[v.cur.core]?).map fun c => (c.cluster v.cur.cl).rs r
    read (t.landCore { strand := v.cur.sid, core := v.cur.core } x) =
      some (if v.cur.beat + lat ≤ x ∧ r = d ∧ d ≠ 0 then z else v.cl.rs r))

/-- R107, R224, R239: what a syllable may change at its issue. Memory, every other strand and every register of the device
stay; no register, plane, scratchpad byte, tag or accumulator element of its own strand changes before its result lands. The
sequence changes by transfers, loops and returns alone, trap banks by returns and HALT, bank states by the three bank
instructions, queues of vectors by V forms, caches by the cache instructions, how long lines that have left still serve by
those, JMP and RET, and the stacks' caches and translations by those that fetch lines. -/
def Obligations.SyllablesChangeOnlyTheirOwn : Prop :=
  ∀ (i : Instr) (s t : State) (v : View), encode i ≠ [] → s.view = some v → exec i s = .next t →
    let moves := match i with
      | .br .. | .call .. | .jmp .. | .ret .. | .loop .. | .loopl .. | .tret .. | .tretSkip .. => true
      | _ => false
    let late := match i with
      | .jmp .. | .ret .. => true
      | _ => false
    let traps := match i with
      | .halt .. | .tret .. | .tretSkip .. => true
      | _ => false
    let banks := match i with
      | .acalloc .. | .acfree .. | .acown .. => true
      | _ => false
    let caches := match i with
      | .ipref .. | .ipin .. | .iunpin .. | .icinv .. => true
      | _ => false
    let fetches := match i with
      | .pref .. | .ipref .. | .ipin .. => true
      | _ => false
    let clusterOk (a b : Cluster) : Prop :=
      b = { a with q := b.q, seq := b.seq, sr := b.sr, ta := b.ta, tb := b.tb, halted := b.halted, waitb := b.waitb, skip := b.skip,
                   rdv := b.rdv, gaps := b.gaps, lq := b.lq, sq := b.sq, issued := b.issued, waits := b.waits, l0 := b.l0,
                   gone := b.gone } ∧
      (moves = false → b.seq = a.seq) ∧ (traps = false → b.ta = a.ta ∧ b.tb = a.tb ∧ b.halted = a.halted) ∧
      (isVectorForm i = false → b.q = a.q) ∧
      (caches = false → b.l0 = a.l0 ∧ b.gone.map (·.2) = a.gone.map (·.2) ∧ (late = false → b.gone = a.gone))
    let engineOk (a b : Engine) : Prop := b = { a with q := b.q, next := b.next, last := b.last }
    let coreOk (a b : Core) : Prop :=
      b = { a with cl := b.cl, agenda := b.agenda, banks := b.banks, pending := b.pending, l1 := b.l1, me := b.me, te := b.te, re := b.re,
                   bte := b.bte } ∧
      (∀ k, clusterOk (a.cluster k) (b.cluster k)) ∧ engineOk a.me b.me ∧ engineOk a.te b.te ∧ engineOk a.re b.re ∧ engineOk a.bte b.bte ∧
      (banks = false → b.banks = a.banks) ∧ (caches = false → b.l1 = a.l1) ∧ (∃ new, List.Perm b.agenda (new ++ a.agenda) ∧ ∀ e ∈ new, v.cur.beat < e.beat)
    (∀ p b, t.busByte p b = s.busByte p b) ∧
    s.FrameStrand (if fetches then { t with stks := s.stks, tasks := s.tasks } else t) v.cur.sid fun x y =>
      y = { x with cores := y.cores, raised := y.raised, decl := y.decl, region := y.region, molt := y.molt, icinvs := y.icinvs } ∧
      (caches = false → y.icinvs = x.icinvs) ∧
      (∃ new, y.raised = x.raised ++ new) ∧
      ∀ k, Option.Rel (fun a b => if k = v.cur.core ∨ caches = true then coreOk a b else b = a) x.cores[k]? y.cores[k]?

/-- R150, R165: the frame of the forms whose only effect is a register: nothing but results to land changes, each at a later
beat; V forms also take their pops and conversions step the stochastic-rounding state. -/
def Obligations.RegisterFormsOnlyLand : Prop :=
  ∀ (i : Instr) (s t : State) (v : View), s.view = some v → exec i s = .next t →
    let raises (f : Core → Core → Prop) : Prop := s.FrameStrand t v.cur.sid fun x y =>
      Strand.FrameCore v.cur.core f { x with raised := y.raised } y
    (isScalarForm i = true → raises (Core.OnlyLands v.cur.beat)) ∧
    (isVectorForm i = true → raises fun a b => Core.OnlyLands v.cur.beat { a with cl := b.cl } b ∧
      ∀ k, b.cluster k = if k = v.cur.cl then { a.cluster k with q := (b.cluster k).q, sr := (b.cluster k).sr } else a.cluster k)

/-- R1, R257, R269: bytes written at device scope are what every place reads there, low byte first, but where it sees a write
in flight, which follows them in coherence order by the model's choice (log 80); every other byte reads as before, and what is
in flight stays as it is; stores to memory that does not answer are dropped: a quarter of the second tier behind a fenced port,
a stack that is off, host memory with its link down. -/
def Obligations.DeviceWritesAreReadEverywhere : Prop :=
  ∀ (s : State) (b : Nat) (v : W64),
    let t := s.busPut b 8 v.toNat
    s.WritesDevice t b 8 (fun i => v.extractLsb' (8 * i) 8) ∧ t = { s with mem := t.mem, poison := t.poison }

/-! ## Engine commands as they run (R137 to R143, R185 to R223) -/

/-- R137, R138, R186 to R188, R193, R198, R199, R204: what each configuration command does at its stamp. MCFG and MBASE write
their bytes and no other byte of their plane; CFGLD begins its reads; a swap flips an idle engine's planes at once and
otherwise waits; MFMT and ACZERO take effect on the next beat; MSTOP ends the nest after its step in progress. -/
def Obligations.ConfigurationCommandsStart : Prop :=
  ∀ (s : State) (c : CoreRef) (e : Eng) (v : EView) (cmd : Cmd) (h : Head) (st : Stamp) (g : Reg),
    let u := engUnit e
    let t := v.took s u
    let flips (co : Core) : Core :=
      let co := co.modEng u fun g => { g with active := g.shadow, shadow := g.active, flips := g.flips + 1 }
      let co := { co with marks := flipMarks u co.marks }
      if u = .re then { co with rgc := 0, rstopped := none } else co
    let mayFlip : Prop := (v.co.eng u).filling ≤ v.x ∧ (u = .te → headersOk (v.co.eng u).shadow = true ∧
      ∀ k < 4, v.co.planeBad .te true (0x480 * k) 64 = none)
    let putsBytes (f : Sparse 8 → Sparse 8) (ofs n : Nat) (x : Nat) : Prop :=
      ∀ m k, Sparse.get (f m) k = if ofs ≤ k ∧ k < ofs + n then BitVec.ofNat 8 (x / 2 ^ (8 * (k - ofs))) else Sparse.get m k
    (s.startsCmd c u v cmd →
      (∀ ofs en, cmd.ins = .mcfg h st g ofs en → ∃ f, putsBytes f (8 * ofs.toNat) 8 cmd.val.toNat ∧
        exec (.mcfgStart c e) s = .next (v.mod t fun co =>
          (co.modEng u fun g => { g with shadow := f g.shadow }).healPlane u true (8 * ofs.toNat) 8)) ∧
      (∀ ck tag ofs len en, cmd.ins = .cfgld h st g ck tag ofs len en →
        let a := cmd.val.toNat
        let n := len.toNat + 1
        let new := (List.range n).map fun j => (c.core, { beat := v.x + 1 + j, group := v.co.group (a + 64 * j), rd := 64, wr := 0 : Claim })
        a % 64 = 0 → a + 64 * n ≤ v.st.fp.banks * 2 ^ 17 → v.st.fits new = true →
        exec (.cfgldStart c e) s = .next (v.mod (v.mod (t.commitClaims c.strand new) fun co =>
          { co with loads := co.loads ++ [{ cmd, start := v.x, addr := a, lines := n, got := [], seen := [] }] }) fun co =>
          co.modEng u fun g => { g with filling := max g.filling (v.x + 16 + n) })) ∧
      (∀ en, cmd.ins = .cfgswap h st en →
        (v.co.working u = true → exec (.cfgswapStart c e) s = .next (v.mod t fun co =>
          co.modEng u fun g => { g with swaps := g.swaps ++ [{ cmd with stamp := v.x }] })) ∧
        (v.co.working u = false → mayFlip → exec (.cfgswapStart c e) s = .next (v.mod t flips)))) ∧
    (∀ k ks, s.eview c = some v → (v.co.eng u).swaps = k :: ks → v.co.working u = false → mayFlip →
      exec (.cfgswapFlip c e) s = .next (v.mod (v.mod s fun co => co.modEng u fun g => { g with swaps := ks }) flips)) ∧
    (s.startsCmd c .me v cmd →
      let t := v.took s .me
      (∀ en, cmd.ins = .mfmt h st g en → cmd.val.toNat < 2 ^ 17 →
        exec (.mfmtStart c) s = .next (v.mod t fun co => co.sched (v.x + 1) 4 (.fmtEntry en.toNat (cmd.val.truncate 32)))) ∧
      (∀ rows row bank, cmd.ins = .aczero h st rows row bank → v.co.cBusy bank.toNat v.x = false →
        (vget (v.banks s) bank.toNat AccBank.zero).mode = .allocated →
        exec (.aczeroStart c) s = .next (v.mod t fun co => co.sched (v.x + 1) 4 (.accZero bank.toNat row.toNat (rows.toNat + 1)))) ∧
      (∀ which, cmd.ins = .mbase h st g which → which ≠ 4 → ∃ f, putsBytes f (0x10 + 4 * which.toNat) 4 cmd.val.toNat ∧
        exec (.mbaseStart c) s = .next (v.mod t fun co =>
          (co.modEng .me fun g => { g with active := f g.active }).healPlane .me false (0x10 + 4 * which.toNat) 4)) ∧
      (∀ which, cmd.ins = .mbase h st g which → which = 4 → v.co.nest = none →
        ∃ f, putsBytes f 0x20 4 (planeNat v.co.me.active 0x20 / 32 * 32 + cmd.val.toNat % 32) ∧
          exec (.mbaseStart c) s = .next (v.mod t fun co => co.modEng .me fun g => { g with active := f g.active })) ∧
      (cmd.ins = .mstop h st → (v.co.nest = none → exec (.mstopStart c) s = .next t) ∧
        ∀ n, v.co.nest = some n →
          let y := max v.x (n.lastLand - 8)
          (v.x < y → exec (.mstopStart c) s = .next (v.mod t fun co => { co with nest := some { n with stopped := true, tau := y } })) ∧
          (y ≤ v.x → exec (.mstopStart c) s = .next (v.mod t fun co =>
            { co with nest := none, cbusy := co.cbusy ++ n.banks.map fun b => (b, n.lastLand) }))))

/-- R190, R194 to R197, R119: an MGO that passes the checks begins its nest, whose first step comes two beats later; a block
step that nothing forbids commits its reads and adds its products to C eight beats after its end. For INT8 operands each
element of the bank takes the exact sum of its row's products, wrapping. -/
def Obligations.MatrixNestsAndSteps : Prop :=
  (∀ (s : State) (c : CoreRef) (v : EView) (cmd : Cmd) (h : Head) (st : Stamp) (cb ca : Bool) (bt a : Byte),
    s.startsCmd c .me v cmd → cmd.ins = .mgo h st cb ca bt a →
    let m := v.co.me.active
    let w := vget v.co.fmt cmd.fmt 0
    let d := countProd m 0 (nestRed m)
    let orders := (ordersOf m).map orderOf
    let dx : Prop := (fmtEntry w).a = 3 ∨ (fmtEntry w).a = 4
    v.co.nest = none → imageBad m = false → entryBad w = false → d ≤ 4096 → d = stepsOf (nestK m) →
    (dx → nestScales m = d) → (¬ dx → nestScales m = 0) → (∀ o ∈ ordersOf m, orderBad o = false) →
    ((orders.filter fun o => o.1 == 1 || o.1 == 2).map (·.2)).sum = d → retireBad orders = false →
    (∀ b ∈ nestReach m (nestC m) v.st.fp.acc, 0 ≤ b ∧ b < v.st.fp.acc ∧ (vget (v.banks s) b.toNat AccBank.zero).mode = .allocated) →
    v.st.region.exceeds v.x (nestDraw (fmtEntry w)) = false → 68 + cmd.fmt ∉ v.co.marks → v.co.planeBad .me false 0 1024 = none →
    ∃ n : Nest, exec (.mgoStart c) s = .next (v.mod (v.took s .me) fun co => { co with nest := some n }) ∧
      n.cmd = cmd ∧ n.start = v.x ∧ n.tau = v.x + 2 ∧ n.fmt = w ∧ n.items = orders ∧ n.s = 0 ∧ n.red = 0 ∧ n.stopped = false ∧
      n.reds = countProd m (nestRed m) (nestLevels m)) ∧
  (∀ (s : State) (c : CoreRef) (v : EView) (n : Nest), s.eview c = some v → v.co.nest = some n → v.co.stepDue v.x = true →
    let e := fmtEntry n.fmt
    let d := max (fmtWidth e.a) (fmtWidth e.b)
    let p := stepPlan v.co.me.active n
    let zero := (n.items.headD (1, 0)).1 == 2 && n.fresh
    let new := (List.range d).flatMap fun j => [p.a, p.b].map fun k =>
      (c.core, ({ beat := v.x + j, group := v.co.group k, rd := 256, wr := 0 } : Claim))
    v.stepFault s n p new = none → v.stepPoison n p zero = none →
    ∃ (n' : Nest) (sa sb : List Byte),
      exec (.matrixBlockStep c) s = .next (v.mod ((s.modStack v.st.stack fun k => { k with steps := k.steps + 1 }).commitClaims c.strand new)
        fun co => { (co.sched (v.x + d + 8) 4 (.accAdd p.c.toNat zero n.fmt p.kk (v.co.spadBytes p.a (256 * fmtWidth e.a))
          (v.co.spadBytes p.b (256 * fmtWidth e.b)) sa sb)) with nest := some n' }) ∧
      n'.s = n.s + 1 ∧ n'.red = n.red ∧ n'.tau = v.x + d ∧ n'.lastLand = v.x + d + 8 ∧ n'.banks = n.banks) ∧
  ∀ (co : Core) (beat bank kk : Nat) (zero : Bool) (w : W32) (A B : List Byte), kk ≤ 32 → A.length = 2048 → B.length = 2048 →
    w.extractLsb' 0 4 = 5 → w.extractLsb' 4 4 = 5 → w.extractLsb' 10 2 = 1 →
    let byte (sg : Bool) (bs : List Byte) (i : Nat) : Int := if sg then (bs.getD i 0).toInt else (bs.getD i 0).toNat
    let t := co.apply beat (.accAdd bank zero w kk A B [] [])
    (∀ m < 64, ∀ col < 64, Sparse.get t.acc (bank * 4096 + 64 * m + col) =
      (if zero then 0 else Sparse.get co.acc (bank * 4096 + 64 * m + col)) +
        BitVec.ofInt 32 ((List.range kk).map fun k => byte (w.getLsbD 8) A (32 * m + k) * byte (w.getLsbD 9) B (32 * col + k)).sum) ∧
    ∀ i, i / 4096 ≠ bank → Sparse.get t.acc i = Sparse.get co.acc i

/-- R207 to R213: TLOAD and RLOAD begin their reads, and their tables replace the active ones whole; an RSTEP begins or goes on
at `rgc`; each generation that completes writes its target plane and no other, and the last one ends the RSTEP, or starts the
copy whose landing ends it and carries the last result into the primary plane. The snapshot of a generation is what it makes of
its source plane as that stands at its snapshot beat: of the primary plane for an even generation or in CHEQ, else of the
other; a cell becomes its table's entry, but that in CHEQ those of the other parity keep their codes, and only those of the
generation's parity are written. A cell of a binary Moore neighbourhood away from the edges is the table's entry for its nine
cells. -/
def Obligations.TableAndRuleEngines : Prop :=
  let cell (bits : Nat) (m : Nat → W32) (i c : Nat) : Nat := (m (64 * i + c * bits / 32)).toNat / 2 ^ (c * bits % 32) % 2 ^ bits
  (∀ (s : State) (c : CoreRef) (v : EView) (cmd : Cmd) (h : Head) (st : Stamp) (g : Reg) (ck : Bool) (tag : Byte) (tb : BitVec 2),
    let a := cmd.val.toNat
    let reads (n : Nat) := (List.range n).map fun j => (c.core, { beat := v.x + 1 + j, group := v.co.group (a + 64 * j), rd := 64, wr := 0 : Claim })
    let begins (u : Unit') (n : Nat) : State := v.mod ((v.took s u).commitClaims c.strand (reads n)) fun co =>
      { co with loads := co.loads ++ [{ cmd, start := v.x, addr := a, lines := n, got := [], seen := [] }] }
    a % 64 = 0 → v.st.region.exceeds v.x 6 = false →
    (s.startsCmd c .te v cmd → cmd.ins = .tload h st g ck tag tb → a + 1152 ≤ v.st.fp.banks * 2 ^ 17 → v.st.fits (reads 18) = true →
      exec (.tloadStart c) s = .next (begins .te 18)) ∧
    (s.startsCmd c .re v cmd → cmd.ins = .rload h st g ck tag → a + 4096 ≤ v.st.fp.banks * 2 ^ 17 → v.st.fits (reads 64) = true →
      v.co.rstep = none → exec (.rloadStart c) s = .next (begins .re 64))) ∧
  (∀ (s : State) (c : CoreRef) (v : EView) (l : Load) (h : Head) (st : Stamp) (g : Reg) (ck : Bool) (tag : Byte) (tb : BitVec 2),
    s.eview c = some v →
    let s' := v.mod s fun co => { co with loads := co.loads.filter fun m => m != l }
    (v.co.endedLoad isTload v.x = some l → l.cmd.ins = .tload h st g ck tag tb → 1092 ≤ l.got.length →
      headerOk (Sparse.setAll [] (cellsAt 0 (l.got.take 1092))) 0 = true → ∃ f : Sparse 8 → Sparse 8,
        exec (.tloadReplace c) s = .next (v.mod s' fun co =>
          (co.modEng .te fun g => { g with active := f g.active }).healPlane .te false (0x480 * tb.toNat) 1092) ∧
        ∀ m k, Sparse.get (f m) k = if 0x480 * tb.toNat ≤ k ∧ k < 0x480 * tb.toNat + 1092 then l.got.getD (k - 0x480 * tb.toNat) 0
          else Sparse.get m k) ∧
    (v.co.endedLoad isRload v.x = some l → ∃ f : Sparse 8 → Sparse 8,
        exec (.rloadReplace c) s = .next (v.mod s' fun co =>
          { ((co.modEng .re fun g => { g with active := f g.active }).healPlane .re false 0 l.got.length) with rgc := 0, rstopped := none }) ∧
        ∀ m k, Sparse.get (f m) k = if k < l.got.length then l.got.getD k 0 else Sparse.get m k)) ∧
  (∀ (s : State) (c : CoreRef) (v : EView) (cmd : Cmd) (w : RWord), s.startsCmd c .re v cmd → rword cmd.ins = some w →
    w.plane < v.st.fp.planes → (w.cheq = true → w.alt = 0) → (w.cheq = false → w.alt < v.st.fp.planes ∧ w.alt ≠ w.plane) →
    v.co.working .re = false → boundaryBad cmd.val w.nb w.gens = false → v.st.region.exceeds v.x 9 = false →
    (0 < v.co.rgc → ∃ r, v.co.rstopped = some r ∧ rword r.cmd.ins = some w ∧ r.cmd.val = cmd.val ∧ v.co.rgc < w.gens) →
    exec (.rstepStart c) s = .next (v.mod (v.took s .re) fun co =>
      { co with rstep := some { cmd, start := v.x, from_ := v.co.rgc, gen := v.co.rgc, snap := none, copyAt := none }, rstopped := none })) ∧
  (∀ (s : State) (c : CoreRef) (v : EView) (r : RStep) (w : RWord), s.eview c = some v → v.co.rstep = some r → rword r.cmd.ins = some w →
    (∀ y, r.copyAt = some y → y ≤ v.x → exec (.rstepGeneration c) s = .next (v.mod s fun co => { co with rstep := none, rgc := 0 })) ∧
    (∀ new, r.copyAt = none → r.snap = some new → r.snapAt + 64 ≤ v.x → ∃ f : Core → Core,
      exec (.rstepGeneration c) s = .next (v.mod s f) ∧ ∀ co,
        (new.length = 4096 → (w.cheq = false → ∀ i < 4096, Sparse.get (f co).planes (w.target r.gen * 4096 + i) = new.getD i 0) ∧
          ∀ k, k / 4096 ≠ w.target r.gen → Sparse.get (f co).planes k = Sparse.get co.planes k) ∧
        (new.length = 4096 → w.cheq = true → ∀ i c, i < 64 → c < 2048 / ruleBits w.nb →
          let at_ (m : Nat → W32) : Nat := cell (ruleBits w.nb) m i c
          at_ (fun n => Sparse.get (f co).planes (w.plane * 4096 + n)) =
            if (i + c) % 2 = r.gen % 2 then at_ (fun n => new.getD n 0) else at_ fun n => Sparse.get co.planes (w.plane * 4096 + n)) ∧
        (r.gen + 1 < w.gens → (f co).rgc = r.gen + 1 ∧ (f co).rstep = some { r with gen := r.gen + 1, snap := none }) ∧
        (w.gens ≤ r.gen + 1 → w.cheq = true ∨ w.gens % 2 = 0 → (f co).rgc = 0 ∧ (f co).rstep = none) ∧
        (w.gens ≤ r.gen + 1 → w.cheq = false → w.gens % 2 = 1 → (f co).rgc = r.gen + 1 ∧
          (f co).rstep = some { r with gen := r.gen + 1, snap := none, copyAt := some (r.snapAt + 80) } ∧
          (∃ e ∈ (f co).agenda, e.beat = r.snapAt + 80 ∧
            e.act = .plane w.plane ((List.range new.length).map fun n => (w.plane * 4096 + n, new.getD n 0))) ∧
          ∀ e ∈ (f co).agenda, e ∈ co.agenda ∨ e.beat = r.snapAt + 80))) ∧
  (∀ (s : State) (v : EView) (r : RStep) (w : RWord), v.co.rstep = some r → rword r.cmd.ins = some w →
    (r.snap ≠ none ∨ r.copyAt ≠ none ∨ v.x < r.snapAt → v.snapshot s = s) ∧
    (r.snap = none → r.copyAt = none → r.snapAt ≤ v.x →
      let p := if w.cheq ∨ r.gen % 2 = 0 then w.plane else w.alt
      (∀ i ∈ v.co.planePoison, i / 4096 ≠ p) → v.co.planeBad .re false 0 4096 = none →
      ∃ rows : List W32, rows.length = 4096 ∧ (∀ i < 4096, rows.getD i 0 = Sparse.get v.co.planes (p * 4096 + i)) ∧
        v.snapshot s = v.mod s fun co => { co with rstep := some { r with
          snap := some (generation rows co.re.active w.nb r.cmd.val w.cheq r.gen) } })) ∧
  (∀ (rows : List W32) (tbl : Sparse 8) (nb : Nat) (w : W64) (cheq : Bool) (j i c : Nat), i < 64 → c < 2048 / ruleBits nb →
    (generation rows tbl nb w cheq j).length = 4096 ∧
    cell (ruleBits nb) (fun n => (generation rows tbl nb w cheq j).getD n 0) i c =
      if cheq = true ∧ (i + c) % 2 ≠ j % 2 then cell (ruleBits nb) (fun n => rows.getD n 0) i c
      else (Sparse.get tbl (ruleIndex rows nb w i c)).toNat % 2 ^ ruleBits nb) ∧
  ∀ (rows : List W32) (tbl : Sparse 8) (w : W64) (j i c : Nat), 1 ≤ i → i < 63 → 1 ≤ c → c < 2047 →
    let cell (i c : Nat) : Nat := ((rows.getD (64 * i + c / 32) 0).getLsbD (c % 32)).toNat
    let idx := [cell (i - 1) (c - 1), cell (i - 1) c, cell (i - 1) (c + 1), cell i (c - 1), cell i c, cell i (c + 1), cell (i + 1) (c - 1),
      cell (i + 1) c, cell (i + 1) (c + 1)].foldl (fun a x => 2 * a + x) 0
    ((generation rows tbl 0 w false j).getD (64 * i + c / 32) 0).getLsbD (c % 32) = (Sparse.get tbl idx).getLsbD 0

/-- R139 to R143, R220 to R223: an XCOPY that nothing forbids keeps its descriptors, commits its charges and follows with its
chunks; a chunk that its tags allow schedules, for beat start + h + 1 + j, the byte read at each place of its source for the
byte at that place of its destination, the tags of the tiles that end in it where StageTag asks for them, and nothing else; a
write of DRAM is what stack scope then reads, the stores that it overtakes whole have performed everywhere with it (log 80),
and no slice cache keeps a line of it; TSLD begins its read and TSEV empties its slot. A descriptor's byte lies at its base
plus its loop counters times their strides. -/
def Obligations.BlockTransfers : Prop :=
  (∀ (s : State) (c : CoreRef) (v : EView) (cmd : Cmd) (w : XWord) (src dst : Shape), s.startsCmd c .bte v cmd → xword cmd.ins = some w →
    w.frm < v.st.fp.slots → w.dst < v.st.fp.slots → vget v.co.shapes w.frm none = some src → vget v.co.shapes w.dst none = some dst →
    let lc := cmd.val.toNat % 64
    let a := if w.rem = 2 then lc else c.core
    let b := if w.rem = 1 then lc else c.core
    let phys (n : Nat) : Nat := match v.st.cores[n]? with
      | some co => co.phys
      | none => 0
    let path : Nat × Nat := if src.spad = false then (v.st.fp.share, 96) else if dst.spad = false then (v.st.fp.share, 64)
      else if a = b then (512, 12) else (256, 12 + 2 * hops (phys a) (phys b))
    let k : Copy := { id := v.co.copyNext, cmd, start := v.x, srcCore := a, dstCore := b, src, dst, w := path.1, h := path.2,
                      len := src.len, next := 0, checked := [] }
    (v.took s .bte).copyFault v.st v.co.phys w k lc = none → v.co.bte.fifth v.x = false → v.st.region.exceeds v.x 6 = false →
    84 + w.frm ∉ v.co.marks → 84 + w.dst ∉ v.co.marks →
    let t := v.mod ((v.took s .bte).commitClaims c.strand (v.st.copyClaims k)) fun co =>
      { (co.modEng .bte fun e => e.started v.x) with copies := co.copies ++ [k], copyNext := co.copyNext + 1 }
    exec (.xcopyStart c) s = .next (t.walkPages v.st v.co.phys k (t.missing v.st v.co.phys (if src.spad then dst else src))) ∧
    (src.spad = true → dst.spad = true → exec (.xcopyStart c) s = .next t)) ∧
  (∀ (s : State) (c : CoreRef) (v : EView) (k : Copy) (w : XWord) (j : Nat) (rd : Nat → Byte) (bus : Nat → Nat), s.eview c = some v →
    v.co.copies.find? (fun m => m.id == k.id) = some k → xword k.cmd.ins = some w → k.next = j → j * k.w < k.len → k.start + 1 + j ≤ v.x →
    let lo := j * k.w
    let hi := min k.len ((j + 1) * k.w)
    let src (i : Nat) : W64 := k.src.byteAt (lo + i)
    let dst (i : Nat) : W64 := k.dst.byteAt (lo + i)
    let onBus (a : W64) (wr : Bool) (b : Nat) : Prop := canonical a = true ∧ isDomain a = false ∧
      s.xlat v.st.stack v.co.phys v.st.ctx a.toNat wr false = .ok b
    let sees : State := { s with flight := s.flight.map fun f => if v.st.waitSaw.contains f.id then { f with level := 5 } else f }
    (∀ i < hi - lo, if k.src.spad then ∃ co, v.st.cores[k.srcCore]? = some co ∧ rd i = Sparse.get co.spad (src i).toNat
      else ∃ b, onBus (src i) false b ∧ rd i = sees.busByte { stack := v.st.stack, core := 2 ^ 20, sid := 0, cl := 0 } b) →
    (k.dst.spad = false → ∀ i < hi - lo, onBus (dst i) true (bus i)) →
    (w.ck = true → v.st.tagck = true → ∀ co, v.st.cores[k.srcCore]? = some co → ∀ i < hi - lo,
      (src i).toNat / 4096 ∈ k.checked ∨ Sparse.get co.tags ((src i).toNat / 4096) = w.ex) →
    ∃ (ts : List Task) (new : List Timed) (seen : List Nat),
      ts.map (fun q => { q with used := [] }) = s.tasks.map (fun q => { q with used := [] }) ∧
      exec (.xcopyChunk c k.id j) s = .next (v.mod
        (({ s with tasks := ts } : State).modCoreRef { c with core := if k.dst.spad then k.dstCore else c.core } fun co =>
          new.foldl (fun co e => co.sched e.beat e.ord e.act) co)
        fun co => { co with copies := co.copies.map fun m =>
          if m.id == k.id then { m with next := j + 1, checked := (seen ++ m.checked).eraseDups } else m }) ∧
      (∀ e ∈ new, e.beat = k.start + k.h + 1 + j ∧ e.ord = k.ord) ∧
      (k.dst.spad = true →
        (new.flatMap fun e => match e.act with
          | .spad a bs _ => cellsAt a bs
          | _ => []) = (List.range (hi - lo)).map (fun i => ((dst i).toNat, rd i)) ∧
        let ends (i : Nat) : Prop := i < hi - lo ∧ ∀ m, hi ≤ m → m < k.len → (k.dst.byteAt m).toNat / 4096 ≠ (dst i).toNat / 4096
        (∀ e ∈ new, (∃ a bs bad, e.act = .spad a bs bad) ∨ (w.stg = true ∧ ∃ i, ends i ∧ e.act = .tag ((dst i).toNat / 4096) w.tag)) ∧
        (w.stg = true → ∀ i, ends i → ∃ e ∈ new, e.act = .tag ((dst i).toNat / 4096) w.tag)) ∧
      (k.dst.spad = false → ∃ bad, new.map (·.act) =
        [.dram ((List.range (hi - lo)).map fun i => (bus i, rd i)) ((List.range (hi - lo)).map dst) bad])) ∧
  (∀ (s : State) (cells : List (Nat × Byte)) (p : Place), (∀ e ∈ cells, s.drops e.1 = false) →
    (∀ f ∈ s.flight, f.seenBy p = true → 4 ≤ f.level) →
    (∀ b, (∀ e ∈ cells, e.1 ≠ b) → (∀ f ∈ s.overrun cells, ∀ c ∈ f.cells, c.1 ≠ b) → (s.timedWrite cells).busByte p b = s.busByte p b) ∧
    (∀ b, ∀ e, cells.reverse.find? (fun e => e.1 == b) = some e → (s.timedWrite cells).busByte p b = e.2) ∧
    (∀ f ∈ s.overrun cells, (∃ g ∈ s.flight, (∀ c ∈ g.cells, ∃ e ∈ cells, e.1 = c.1) ∧ g.cells ≠ [])) ∧
    ∀ k ∈ (s.timedWrite cells).stks, ∀ ls ∈ k.cache, ∀ l ∈ ls, ∀ e ∈ cells, e.1 / 64 ≠ l) ∧
  (∀ (s : State) (c : CoreRef) (v : EView) (cmd : Cmd) (h : Head) (st : Stamp) (g : Reg) (slot : BitVec 5), s.startsCmd c .bte v cmd →
    slot.toNat < v.st.fp.slots → v.co.bte.fifth v.x = false →
    let t := v.took s .bte
    let a := cmd.val.toNat
    let new := [(c.core, ({ beat := v.x + 1, group := v.co.group a, rd := 64, wr := 0 } : Claim))]
    (cmd.ins = .tsld h st g slot → a % 64 = 0 → a + 64 ≤ v.st.fp.banks * 2 ^ 17 → v.st.fits new = true →
      exec (.tsldStart c) s = .next (v.mod (v.mod (t.commitClaims c.strand new) fun co =>
        { co with loads := co.loads ++ [{ cmd, start := v.x, addr := a, lines := 1, got := [], seen := [] }] }) fun co =>
        co.modEng .bte fun e => e.started v.x)) ∧
    (cmd.ins = .tsev h st slot → exec (.tsevStart c) s = .next (v.mod t fun co =>
      { (co.modEng .bte fun e => e.started v.x) with shapes := vset co.shapes slot.toNat none }))) ∧
  ∀ (d : Shape) (r i j k : Nat), r < d.run → i < d.count1 → j < d.count2 → k < d.count3 →
    d.byteAt (r + d.run * (i + d.count1 * (j + d.count2 * k))) =
      d.base + BitVec.ofNat 64 i * d.stride1 + BitVec.ofNat 64 j * d.stride2 + BitVec.ofNat 64 k * d.stride3 + BitVec.ofNat 64 r

/-! ## Elastic entries as they perform (R21, R224 to R232, R249, R261) -/

/-- R224, R225, R261, R297: a load performs by fixing its value from the bytes its place sees; its data enters its register at
a boundary; a store waits for the writes in flight at its bytes that are still to perform at its scope (log 80), then becomes
visible to the places of that scope, and at its last one folds and retires; a marker leaves both queues once everything ahead
of it has, and has begun where an entry behind it has (R283). -/
def Obligations.LoadsStoresAndMarkersPerform : Prop :=
  let begun (e x : Entry) : Entry := if x.op.marks = true ∧ x.before e = true then { x with level := 1 } else x
  (∀ (s : State) (r : CRef) (q : QView) (e : Entry) (a : W64) (k : LdKind) (d : Reg) (b : Nat),
    s.picks r .lq (fun e => e.op.isLd && e.value.isNone) q e → e.op = .ld a k d → s.elTarget q.st q.co.phys a false = .ok (.bus b) →
    isDoorbell b = false → s.poisonedRange q.place b k.size = false →
    ∃ (z : W64) (saw : List Nat), exec (.loadPerform r) s =
        .next (q.mod (q.put (s.touch q.st q.co.phys a false).spend .lq e { e with level := 6, value := some z, ready := 0 }) fun c =>
          { c with saw := saw.map (fun i => (e.iss, e.handler, i)) ++ c.saw.filter fun w => s.flight.any fun f => f.id == w.2.2 }) ∧
      (∀ i < 8, z.extractLsb' (8 * i) 8 = if i < k.size then s.busByte q.place (b + i)
        else if k = .ws ∧ z.getLsbD 31 = true then 0xFF else 0)) ∧
  (∀ (s : State) (r : CRef) (q : QView) (n : QName) (e : Entry) (d : Reg) (z : W64), s.picks r n Entry.landing q e → n = q.arriving s →
    e.op.dest = some d → e.value = some z →
    exec (.loadDataArrival r) s = .next (q.mod (q.drop s n e) fun c => { c with arrive := c.arrive ++ [(d, z)] })) ∧
  (∀ (s : State) (r : CRef) (q : QView) (e : Entry) (a : W64) (n b : Nat) (z : W64),
    s.picks r .sq (fun e => e.op.isSt && decide (e.level < e.op.final)) q e → e.op = .st a n z → e.level = 0 → n ≤ 8 →
    s.elTarget q.st q.co.phys a true = .ok (.bus b) → isDoorbell b = false → (∀ i < n, s.drops (b + i) = false) →
    (q.settled s b n e.next = false →
      exec (.storePerform r) s = .next (q.put (s.touch q.st q.co.phys a true) .sq e { e with ready := 0 })) ∧
    (q.settled s b n e.next = true → ∃ t, exec (.storePerform r) s = .next t ∧ s.Writes t b n (fun i => z.extractLsb' (8 * i) 8) (q.sees e.next) ∧
      ∀ y, t.qview r = some y → y.st.digest = (if e.op.final ≤ e.next then q.st.digest + foldOf a n z else q.st.digest) ∧
        (e.op.final ≤ e.next → y.cl.sq.entries = (q.cl.sq.entries.filter fun x => x.seq != e.seq).map (begun e)) ∧
        (e.next < e.op.final → ∃ e', e'.op = e.op ∧ e'.level = e.next ∧
          y.cl.sq.entries = (q.cl.sq.entries.map fun x => if x.seq = e.seq then e' else x).map (begun e)))) ∧
  (∀ (s : State) (r : CRef) (q : QView) (e : Entry) (a : W64) (n : Nat) (z : W64) (f : Flight),
    s.picks r .sq (fun e => e.op.isSt && decide (e.level < e.op.final)) q e → e.op = .st a n z → e.level = 4 → isDomain a = false →
    f ∈ s.flight → f.id = e.fid → e.fid ≠ 0 → (f.cells.map (·.1)).Nodup → (∀ g ∈ s.flight, g ≠ f → ∀ c ∈ g.cells, ∀ x ∈ f.cells, c.1 ≠ x.1) →
    (∀ g ∈ s.flight, g.id = f.id → g = f) → let answers (x : Nat) : Prop := s.hostAbsent x = false ∧ s.silent x = false
    ((∀ x ∈ f.cells, answers x.1 ∧ s.drops x.1 = false) →
      ∃ t, exec (.storePerform r) s = .next t ∧ (∀ p, ∀ x ∈ f.cells, t.busByte p x.1 = x.2) ∧
        (∀ p y, (∀ x ∈ f.cells, x.1 ≠ y) → t.busByte p y = s.busByte p y) ∧
        ∀ y, t.qview r = some y → y.st.digest = q.st.digest + foldOf a n z ∧
          y.cl.sq.entries = (q.cl.sq.entries.filter fun x => x.seq != e.seq).map (begun e)) ∧
    ((∃ x ∈ f.cells, ¬ answers x.1) → ∃ t c, exec (.storePerform r) s = .next t ∧ t.mem = s.mem ∧
      t.flight = s.flight.filter (fun g => g.id != e.fid) ∧ (c.code = 0x17 ∨ c.code = 0x18) ∧ c.kind = .q ∧ c.fseq = e.seq ∧
      ∀ y, t.qview r = some y → y.st.digest = q.st.digest ∧ y.st.raised = q.st.raised ++ [c] ∧
        y.cl.sq.entries = (q.cl.sq.entries.filter fun x => x.seq != e.seq).map (begun e))) ∧
  ∀ (s : State) (r : CRef) (q : QView) (e : Entry), s.qview r = some q → q.pickMark s = some e →
    e.op.marks = true ∧ q.live e = true ∧ (∀ x ∈ q.cl.lq.entries ++ q.cl.sq.entries, x.before e = false) ∧
    exec (.markerRetire r) s = .next (q.mod s fun c =>
      { c with lq := { c.lq with entries := c.lq.entries.filter fun x => x.iss != e.iss },
               sq := { c.sq with entries := c.sq.entries.filter fun x => x.iss != e.iss } })

/-- R230 to R232: an atomic or a barrier arrival reads its word, keeps the old value for its register, and leaves the new value
its operation gives, which the places of its scope see, once no write at the word is still to perform there (log 80); a compare
that fails, and a malformed barrier word, leave memory as it is. -/
def Obligations.AtomicsAndBarriersPerform : Prop :=
  ∀ (s : State) (r : CRef) (q : QView) (e : Entry) (a : W64) (b : Nat), e.level = 0 →
    s.elTarget q.st q.co.phys a true = .ok (.bus b) → isDoorbell b = false →
    let word (n : Nat) : Nat := ((List.range n).map fun i => (s.busByte q.place (b + i)).toNat * 2 ^ (8 * i)).sum
    let keeps (t : State) (z : W64) : Prop := ∀ q', t.qview r = some q' → ∀ e' ∈ q'.cl.sq.entries, e'.seq = e.seq → e'.value = some z
    (∀ (op : AtomicOp) (z cmp : W64) (sc : Nat) (d : Reg), s.picks r .sq (fun e => e.op.isAtomic && decide (e.level < e.op.final)) q e →
      e.op = .atomic op a z cmp sc d →
      let n := if op = .fadd then 4 else 8
      let old := BitVec.ofNat 64 (word n)
      let new : W64 := match op with
        | .add => old + z
        | .minI => if z.toInt < old.toInt then z else old
        | .minN => if z.toNat < old.toNat then z else old
        | .maxI => if old.toInt < z.toInt then z else old
        | .maxN => if old.toNat < z.toNat then z else old
        | .and => old &&& z
        | .or => old ||| z
        | .xor => old ^^^ z
        | .xchg => z
        | .cas => if old = cmp then z else old
        | .fadd => (round32 0 (Fp.add false (fp32 (old.truncate 32)) (fp32 (z.truncate 32)))).zeroExtend 64
      s.poisonedRange q.place b n = false → q.settled s b n e.next = true → (∀ i < n, s.drops (b + i) = false) →
      ∃ t, exec (.atomicPerform r) s = .next t ∧ keeps t old ∧
        ((op = .cas → old = cmp) → s.Writes t b n (fun i => new.extractLsb' (8 * i) 8) (q.sees e.next)) ∧
        (op = .cas → old ≠ cmp → s.SameMemory t)) ∧
    (∀ (sc : Nat) (d : Reg), s.picks r .sq (fun e => e.op.isBara && decide (e.level < e.op.final)) q e → e.op = .bara a sc d →
      s.poisonedRange q.place b 8 = false → q.settled s b 8 e.next = true → (∀ i < 8, s.drops (b + i) = false) →
      let w := BitVec.ofNat 64 (word 8)
      let arrived := (w.extractLsb' 0 20).toNat
      let expected := (w.extractLsb' 20 20).toNat
      let gen : W64 := (w.extractLsb' 40 24).zeroExtend 64
      ∃ t, exec (.baraPerform r) s = .next t ∧
        (expected ≤ arrived → keeps t (gen ||| 0x8000000000000000) ∧ s.SameMemory t) ∧
        (arrived + 1 < expected → keeps t gen ∧ s.Writes t b 8 (fun i => (w + 1).extractLsb' (8 * i) 8) (q.sees e.next)) ∧
        (arrived + 1 = expected → keeps t gen ∧ s.Writes t b 8 (fun i =>
          ((w.extractLsb' 40 24 + 1) ++ w.extractLsb' 20 20 ++ (0 : BitVec 20) : W64).extractLsb' (8 * i) 8) (q.sees e.next)))

/-- R226, R249, R260, R266, R308, R311, R44: a copy reads its whole source and then writes it; into the scratchpad it leaves
memory as it is, with each byte in its place. An ENQ that finds its queue full, or its context torn down, answers 1 and changes
nothing else; otherwise it answers 0, moves the queue's tail and puts the packet's slots, but where a slot's memory does not
answer: then it raises a Q cause and places nothing. Each slot put changes its own 64 bytes and no other; what is in flight
there stands over it (log 80). -/
def Obligations.CopiesAndEnqueuesPerform : Prop :=
  (∀ (s : State) (r : CRef) (q : QView) (e : Entry) (mode n : Nat) (d a : W64) (ws : List (W64 × Bool)),
    s.picks r .sq (fun e => e.op.isCopy && decide (e.level < e.op.final)) q e → e.op = .ecopy mode d a n → e.level = 0 →
    q.copySource s mode a n = .ok ws →
    (mode = 2 → n % 8 = 0 → ∃ t, exec (.ecopyPerform r) s = .next t ∧ s.SameMemory t ∧
      ∀ q', t.qview r = some q' → ∀ i < n, Sparse.get q'.co.spad (d.toNat + i) =
        ((ws.map (·.1)).getD (i / 8) 0).extractLsb' (8 * (i % 8)) 8) ∧
    (mode ≠ 2 → ∀ ts, s.resolveAll q.st q.co.phys true (wordAddrs d n) = .ok ts →
      let out := (ts.zip ws).filterMap fun x => match x.1 with
        | .bus b => if isDoorbell b then none else some (b, x.2.1)
        | .remote _ => none
      (∀ w ∈ out, q.settled s w.1 8 e.next = true) → ∃ t, exec (.ecopyPerform r) s = .next t ∧
        (∀ p x, (∀ w ∈ out, x < w.1 ∨ w.1 + 8 ≤ x) ∨ ¬ q.sees e.next p → t.busByte p x = s.busByte p x) ∧
        ∀ (i : Nat) (w : Nat × W64), out[i]? = some w → (∀ j y, i < j → out[j]? = some y → y.1 + 8 ≤ w.1 ∨ w.1 + 8 ≤ y.1) →
          ∀ p, q.sees e.next p → ∀ k < 8, s.drops (w.1 + k) = false → t.busByte p (w.1 + k) = w.2.extractLsb' (8 * k) 8)) ∧
  (∀ (s : State) (r : CRef) (q : QView) (e : Entry) (a : W64) (hdr : W32) (d : Reg) (c : Context),
    s.picks r .sq (fun e => e.op.isEnq && decide (e.level < e.op.final)) q e → e.op = .enq a hdr d → s.ctx? q.st.ctx = some c →
    let n := (hdr.extractLsb' 8 4).toNat + 1
    let room : Prop := c.torn = false ∧ n ≤ 256 - (c.dqTail - c.dqHead).toNat
    (¬ room → exec (.enqPerform r) s = .next (q.performed s { e with value := some 1 } 6)) ∧
    (∀ ws, room → q.copySource s 0 a (64 * n) = .ok ws → (∀ w ∈ ws, w.2 = false) →
      (∀ i < n, s.dispLost q.st.ctx (dqSlot c.dqBase (c.dqTail.toNat + i)) = none) →
      let s1 := (s.touchAll q.st q.co.phys false (wordAddrs a (64 * n))).spendN ws.length
      let bs := enqBytes (ws.map (·.1)) hdr c.dqTail
      exec (.enqPerform r) s = .next (q.performed (((List.range n).foldl (fun s i =>
        s.putSlot q.st.ctx c.dqBase (c.dqTail.toNat + i) ((bs.drop (64 * i)).take 64)) s1).modCtx q.st.ctx fun c =>
          { c with dqTail := c.dqTail + BitVec.ofNat 32 n }) { e with value := some 0 } 6)) ∧
    (∀ ws i f, room → q.copySource s 0 a (64 * n) = .ok ws → (∀ w ∈ ws, w.2 = false) → i < n →
      s.dispLost q.st.ctx (dqSlot c.dqBase (c.dqTail.toNat + i)) = some f → ∃ t k, exec (.enqPerform r) s = .next t ∧ s.SameMemory t ∧
        t.contexts = s.contexts ∧ k.kind = .q ∧ k.fseq = e.seq ∧ (t.strand? r.strand).map (·.raised) = some (q.st.raised ++ [k]))) ∧
  (∀ (ws : List W64) (hdr seq : W32), 8 ≤ ws.length →
    let bs := enqBytes ws hdr seq
    bs.length = 8 * ws.length ∧ (∀ i < 4, bs[i]? = some (hdr.extractLsb' (8 * i) 8) ∧ bs[4 + i]? = some (seq.extractLsb' (8 * i) 8) ∧
      bs[8 * ws.length - 4 + i]? = some (seq.extractLsb' (8 * i) 8)) ∧
    ∀ i, 8 ≤ i → i + 4 < 8 * ws.length → bs[i]? = some ((ws.getD (i / 8) 0).extractLsb' (8 * (i % 8)) 8)) ∧
  ∀ (s : State) (ctx pos : Nat) (base : W64) (bs : List Byte) (b : Nat), bs.length = 64 →
    s.dispXlat ctx (base + BitVec.ofNat 64 (64 * (pos % 256))) true = some b → (∀ i < 64, s.drops (b + i) = false) →
    s.WritesDevice (s.putSlot ctx base pos bs) b 64 fun i => bs.getD i 0

/-! ## Freezes, waits and pacing as they end (R21, R68 to R70, R92, R245 to R247, R276) -/

/-- R21, R68, R69, R70, R92, R245, R247, R276: what each event that ends a freeze, a walk, a declaration, a request or a region
changes in its strand; memory stays as it is. -/
def Obligations.FreezesAndRegionsEnd : Prop :=
  (∀ (s : State) (sid : Nat) (t : Strand), s.strand? sid = some t →
    let cyc := (s.stack t.stack).cyc
    (t.status = .run → t.thaws cyc = true → exec (.elasticWaitResume sid) s = .next (s.modStrand sid fun t => { t with freeze := none })) ∧
    ((∃ f ∈ t.fills, f.ended = none ∧ f.ready ≤ cyc) → exec (.fetchLineFill sid) s = .next (s.modStrand sid fun t =>
      { t with fills := t.fills.map fun f => if f.ended = none ∧ f.ready ≤ cyc then { f with ended := some (cyc, t.beat) } else f })) ∧
    (∀ w, t.walks.find? (fun w => w.ended.isNone && decide (w.ready ≤ cyc)) = some w → ∃ u, exec (.translationWalk sid) s = .next u ∧
      u = { s with stks := u.stks, strands := u.strands, tasks := u.tasks, sent := u.sent } ∧
      u.strand? sid = some { t with walks := t.walks.map fun v => if v = w then { w with ended := some (cyc, t.beat) } else v }) ∧
    (t.status = .run → t.freezeLate cyc = true → ∃ u c, exec (.stallWatchdog sid) s = .next u ∧ u = { s with strands := u.strands } ∧
      (u.strand? sid).map (·.raised) = some (t.raised ++ [c]) ∧ c.code = 0x10 ∧ c.kind = .p ∧ c.core = 0 ∧ c.cl = t.lowest) ∧
    (t.status = .run → t.freezeLate cyc = false → t.rdvLate cyc ≠ [] → ∃ u, exec (.stallWatchdog sid) s = .next u ∧
      u = { s with strands := u.strands } ∧ ∀ r ∈ t.rdvLate cyc, ∀ y, u.strand? sid = some y →
        ∃ c ∈ y.raised, c.code = 0x10 ∧ c.kind = .a ∧ c.core = r.core ∧ c.cl = r.cl ∧ c.hold = true) ∧
    (∀ d, t.decl = some d → d.left = 0 → exec (.deadlineLapse sid) s = .next (s.modStrand sid fun t => { t with decl := none })) ∧
    (∀ b lvl ends, t.fallNow = some (b, lvl, ends) → exec (.regionLevelFall sid) s =
      .next (s.modStrand sid fun t => { t with region := { t.region with
        on := !ends, level := if ends then 0 else lvl, grant := if ends then 0 else lvl,
        falls := if ends then [] else t.region.falls.filter fun f => f != (b, lvl, ends) } }))) ∧
  ∀ (s : State) (k sid b lvl : Nat), s.grantable k = some (sid, b, lvl) →
    exec (.powerGrant k) s = .next (s.modStrand sid fun t => { t with region := { t.region with
      grant := max t.region.grant lvl, reqs := t.region.reqs.map fun q =>
        if q.1 = b ∧ q.2.1 = lvl ∧ q.2.2.2 = none then (q.1, q.2.1, q.2.2.1, some (s.stack k).cyc) else q } }) ∧
    ∃ t, s.strand? sid = some t ∧ (s.freeGrant t lvl = true ∨ s.withheld t lvl = false ∧
      (((s.strands.filter fun u => u.admittedOn k && u.sid != sid).map fun u => u.load16 u.level).sum + t.load16 lvl ≤
        16 * ((s.stack k).pwrenv.toNat / 2 ^ 40 % 2 ^ 12)))

/-! ## Stops, drains and traps (R239 to R241, R252, R281, R282, R284, R287) -/

/-- R252, R281, R282, R284, R285, R287: a strand stops for the lowest code of each context, and begins to drain, or crashes
where one of them is at the third level; the drain ends in the handler with a bank written, or, for a hold with nothing raised,
in the held state, or running again where the hold was withdrawn; a hold begins its drain at its beat. Each beat of a drain
counts the stride in cycles, and its block steps start within it. -/
def Obligations.StrandsStopAndDrain : Prop :=
  (∀ (s : State) (sid : Nat) (t : Strand), s.strand? sid = some t →
    let cyc := (s.stack t.stack).cyc
    (∀ c, s.stopDue t = true → t.choose.taking.find? t.fatal = some c → exec (.strandStop sid) s = .next (s.crashStrand t c)) ∧
    (s.stopDue t = true → t.choose.taking = [] → exec (.strandStop sid) s = .next (s.modStrand sid fun _ => t.choose)) ∧
    let drains (i : Instr) (y : Strand) (hold : Bool) : Prop := ∃ (x : Nat) (late : List (Nat × Nat × Nat)), y.beat ≤ x ∧
      exec i s = .next (({ s with freeCtr := s.freeCtr + 1 }.modStrand sid fun _ =>
        { y with status := .drain hold, stopCyc := cyc + (x - y.beat) * y.stride + 1 + Config.delay s.freeCtr, freeze := none }).modStack
          y.stack fun k => { k with late := k.late ++ late }) ∧
      ∀ e ∈ late, e.1 = sid ∧ 0 < e.2.2 ∧ ∃ b, y.beat ≤ b ∧ b ≤ x ∧ e.2.1 = cyc + (b - y.beat) * y.stride
    (s.stopDue t = true → (∀ c ∈ t.choose.taking, t.fatal c = false) → t.choose.taking ≠ [] → drains (.strandStop sid) t.choose false) ∧
    (t.holdDue = true → drains (.preemptionHold sid) t true) ∧
    ∀ hold t', t.status = .drain hold → t.stopCyc ≤ cyc → t.elasticDone = true →
      let s' := (s.drainStrand t).1.modStrand sid fun t => { t.afterDrain with stopCyc := cyc }
      s'.strand? sid = some t' →
      (hold = true → t'.choose.taking = [] → ∃ u, exec (.drainEnd sid) s = .next u ∧
        ∃ y, u.strand? sid = some y ∧ y.status = (if t'.holdReq then .held else .run) ∧ y.holdReq = false ∧ y.beat = t'.beat ∧ y.digest = t'.digest) ∧
      (∀ c co, hold = false → t'.taking = [c] → t'.fatal c = false →
        t'.cores[c.core]? = some co → c.cl < 4 → ∃ u fall, exec (.drainEnd sid) s = .next u ∧ ∃ y, u.strand? sid = some y ∧
          y.status = .handler ∧ y.taking = [] ∧ y.beat = t'.beat ∧
          let k := takeTrap co (co.cluster c.cl) c t'.beat fall
          y.clusterAt c.core c.cl = { k with horizon := (y.clusterAt c.core c.cl).horizon, rdv := (y.clusterAt c.core c.cl).rdv })) ∧
  ∀ cs : List Cause, (∀ c ∈ chooseCauses cs, c ∈ cs ∧ ∀ d ∈ cs, d.core = c.core → d.cl = c.cl → c.code ≤ d.code) ∧
    ∀ d ∈ cs, ∃ c ∈ chooseCauses cs, c.core = d.core ∧ c.cl = d.cl

/-- R239, R240, R241: a trap enters `tvec` with no loop active and no transfer pending, and writes the first bank not in use:
the address of the bundle it stopped before, the cause word, the address and sequence number of the cause, the target of a
pending transfer, the beat, the loops, the bundles still to skip, and for each queue the first entry that had not begun, or,
for the cause's own queue, the entry after the one that raised it. With both banks in use, or no handler address, the trap is
at the third level, but that DEADLINE-RISK needs no address. -/
def Obligations.TakingATrap : Prop :=
  ∀ (co : Core) (cl : Cluster) (c : Cause) (beat fall : Nat),
    let t := takeTrap co cl c beat fall
    let b := if cl.ta.inUse then t.tb else t.ta
    let cut (e : Engine) (n : Nat) : W32 :=
      let x := match e.q with
        | k :: _ => k.seq
        | [] => e.next
      if c.queue = n then c.fseq + 1 else x
    let cutEl (q : ElQueue) (n : Nat) : W32 :=
      let x := match q.entries.filter fun e => e.level == 0 with
        | e :: _ => e.seq
        | [] => q.next
      if c.queue = n then c.fseq + 1 else x
    t.seq = { pc := cl.tvec.toNat, pos := 0, tgt := none, exits := false, loops := [] } ∧ t.halted = false ∧ t.skip = 0 ∧
    b.inUse = true ∧ b.pc = BitVec.ofNat 64 cl.seq.pc ∧ b.addr = c.addr ∧ b.beat = BitVec.ofNat 64 beat ∧
    b.fseq = c.fseq.zeroExtend 64 ∧ (∀ x, c.k0 = some x → b.k0 = x) ∧
    (c.k0 = none → b.k0 = if cl.ta.inUse then cl.tb.k0 else cl.ta.k0) ∧
    b.tgt = (if cl.seq.pos = 0 then 0 else BitVec.ofNat 64 (cl.seq.tgt.getD fall)) ∧
    (c.code < 2 ^ 16 → c.queue < 2 ^ 4 → cl.seq.pos < 4 →
      b.cause.extractLsb' 0 16 = BitVec.ofNat 16 c.code ∧ b.cause.getLsbD 16 = c.shadow ∧
      b.cause.extractLsb' 18 2 = BitVec.ofNat 2 cl.seq.pos ∧ b.cause.extractLsb' 20 4 = BitVec.ofNat 4 c.queue ∧
      b.cause.extractLsb' 24 8 = BitVec.ofNat 8 c.detail ∧ b.cause.extractLsb' 32 32 = 0) ∧
    b.nme = cut co.me 1 ∧ b.nte = cut co.te 2 ∧ b.nre = cut co.re 3 ∧ b.nbte = cut co.bte 4 ∧
    b.nlq = cutEl cl.lq 5 ∧ b.nsq = cutEl cl.sq 6 ∧ b.skip = cl.skip ∧ b.wasHalted = cl.halted ∧
    b.seq = { cl.seq with loops := cl.seq.loops.map fun l => if l.start = none then { l with start := some fall } else l } ∧
    (cl.ta.inUse = true → t.ta = cl.ta) ∧ (cl.ta.inUse = false → t.tb = cl.tb) ∧
    t = { cl with seq := t.seq, halted := false, skip := 0, ta := t.ta, tb := t.tb } ∧
    (thirdLevel cl c = true ↔ cl.ta.inUse = true ∧ cl.tb.inUse = true ∨ cl.tvec = 0 ∧ c.code ≠ 0x19)

/-! ## The weaver, launches and the ends of tasks (R22, R49, R56 to R61, R294, R295, R300 to R302) -/

/-- R22, R56 to R60, R294, R295, R302: a commit window takes off the strands that have ended and writes no memory; a flip gives
each strand whose cycle has come its lattice, and a placed one begins; a scrub that has ended is over; a strand that retires
ends with its digest in its task; a launch ages one class when it has waited, and the first of its partition takes the
reservation when it has waited or is serialised; a mismatching task runs again, serialised, until it has run twice more, and is
then classified. -/
def Obligations.WeaverEvents : Prop :=
  (∀ (s : State) (k : Nat), k < 4 → (s.stack k).cyc % 16 = 0 → (s.stack k).window < (s.stack k).cyc / 16 →
    ∃ u, exec (.commitWindow k) s = .next u ∧ (u.stack k).window = (s.stack k).cyc / 16 ∧ (u.stack k).departed = [] ∧
      (∀ t ∈ u.strands, t.stack = k → t.status ≠ .ended) ∧ u.mem = s.mem ∧ u.flight = s.flight ∧ u.poison = s.poison) ∧
  (∀ (s : State) (k : Nat),
    let due (t : Strand) (f : Flip) : Prop := t.stack = k ∧ t.flip = some f ∧ f.cyc ≤ (s.stack k).cyc
    (∃ t ∈ s.strands, ∃ f, due t f) → ∃ (g : Strand → Strand) (back : List Strand),
      exec (.weaveFlip k) s = .next (back.foldl (fun s t => s.lookWaitsAfresh t.sid) { s with strands := s.strands.map g }) ∧
      (∀ t, t ∈ back ↔ t ∈ s.strands ∧ t.status = .placed ∧ ∃ f, due t f) ∧
      ∀ t, (∀ f, due t f → g t =
        { (if t.status = .placed then t.anew (f.cyc + f.phase) else t) with
          stride := f.stride, phase := f.phase, flip := none, nextCyc := f.cyc + f.phase,
          status := if t.status = .placed then .run else t.status, resumed := false }) ∧ ((∀ f, ¬ due t f) → g t = t)) ∧
  (∀ (s : State) (k : Nat), (∃ x ∈ (s.stack k).scrubs, x.stop ≤ (s.stack k).cyc) → exec (.scrubComplete k) s =
    .next (s.modStack k fun t => { t with scrubs := t.scrubs.filter fun x => decide (t.cyc < x.stop) })) ∧
  (∀ (s : State) (sid : Nat) (t : Strand), s.strand? sid = some t → t.retires = true → ∃ u, exec (.strandRetire sid) s = .next u ∧
    (u.strand? sid).map (fun y => (y.status, y.digest)) = some (.ended, t.digest) ∧ u.mem = s.mem ∧ u.flight = s.flight ∧
    u.tasks = s.tasks.map (fun k => if k.num = t.task then
      { k with strands := k.strands.filter (fun x => decide (x ≠ sid)), digests := k.digests ++ [(t.logidx, t.digest)],
               faults := k.faults ++ t.haltFault.toList, record := { k.record with stop := BitVec.ofNat 64 s.wtime } } else k) ∧
    (t.stack < 4 → sid ∈ (u.stack t.stack).departed)) ∧
  (∀ (s : State) (n : Nat), (∃ w ∈ s.waiting, w.num = n ∧ 0 < w.cls ∧ w.raisedAt + 1000000 ≤ s.wtime) →
    exec (.launchAgeing n) s = .next { s with waiting := s.waiting.map fun w =>
      if w.num = n then { w with cls := w.cls - 1, raisedAt := w.raisedAt + 1000000 } else w }) ∧
  (∀ (s : State) (part : Nat) (w : Waiting) (ws : List Waiting), s.waitingOn part = w :: ws → (∀ x ∈ w :: ws, x.reserve = false) →
    w.launch.serial = true ∨ w.accepted + 4000000 ≤ s.wtime → exec (.launchReservation part) s = .next { s with waiting := s.waiting.map fun x =>
      if x.num = w.num then { x with reserve := true } else x }) ∧
  ∀ (s : State) (n : Nat) (t : Task) (want : W64), s.tasks.find? (fun t => t.num == n && t.expected.isSome && !s.redoing n) = some t →
    t.expected = some want →
    let fits : Prop := s.noFootprint (s.partOf t.launch.ctx) t.hdr.fp true t.launch.count = false
    (t.runs.length < 2 → ¬ fits → exec (.digestReexecution n) s = .next (s.closeTask t { t.record with status := 3, detail := 0 })) ∧
    (t.runs.length < 2 → fits → ∃ w : Waiting, exec (.digestReexecution n) s =
      .next { s with waiting := s.waiting ++ [w], nextNum := s.nextNum + 1 } ∧
      w.launch = { t.launch with from_ := .redo n, serial := true, noWait := false } ∧ w.hdr = t.hdr ∧ w.image = none) ∧
    ∀ a b rest, t.runs = a :: b :: rest →
      let r : Nat × Nat := if a ≠ b then (13, 1) else if a = want then (if t.errors then (15, 2) else (14, 3))
        else if t.errors || t.redoErrors then (15, 4) else (13, 5)
      exec (.digestReexecution n) s = .next (s.closeTask t { t.record with status := r.1, detail := r.2 })

/-! ## The dispatcher's packets (R30 to R38, R43 to R49) -/

/-- R32 to R38, R40, R44, R49, R277: a packet at the head of a queue that can accept passes its slots and has its effect: a
LAUNCH enters the waiting set under the top seed, a GRAPH begins a replay with a reserved slot, the seed packets work on the
stack of 16, a QUOTA replaces the quotas, and raises the context's QUOTA event where that exhausts the energy quota. A full or
empty seed stack fails the packet before its acceptance. That a patch table of no entry may lie anywhere is the model's choice
(log 64). -/
def Obligations.PacketsTakeEffect : Prop :=
  (∀ (s : State) (q : QRef), s.canAccept q = true →
    exec (.nopPacket q) s = .next (s.pass q 1) ∧
    (∀ (p : LaunchPkt) (h : Header) (c : Context),
      let s' := s.pass q 2
      s'.ctx? (s'.qctx q) = some c → s'.readHeader (s'.qctx q) p.image p.param = some h →
      s'.noFootprint (s'.partOf (s'.qctx q)) h.fp p.serial p.count = false →
      ∃ w : Waiting, exec (.launch q p) s = .next { s' with nextNum := s'.nextNum + 1, waiting := s'.waiting ++ [w] } ∧
        w.num = s'.nextNum ∧ w.hdr = h ∧ w.accepted = s.wtime ∧ w.image = none ∧ w.reserve = false ∧ w.cls = max p.cls c.floor ∧
        w.launch.seed = c.seeds.headD 0 ∧ w.launch.image = p.image ∧ w.launch.param = p.param ∧ w.launch.count = p.count ∧
        w.launch.ctrbase = p.ctrbase ∧ w.launch.det = p.det ∧ w.launch.tagck = p.tagck ∧ w.launch.serial = p.serial ∧
        w.launch.noWait = p.noWait ∧ w.launch.mbx = p.mbx ∧ w.launch.from_ = .packet q p.seq p.cookie) ∧
    ∀ c, s.ctx? (s.qctx q) = some c →
      (∀ p : QuotaPkt,
        let out : Prop := p.energy ≠ 0 ∧ p.energy.toNat ≤ c.enused.toNat
        let u := (s.pass q 1).modCtx c.num fun c => { c with quota := p.energy, limit := if p.limit = 0 then 64 else p.limit,
                                                             floor := p.floor, exhausted := decide out }
        exec (.quota q p) s = .next (if out ∧ c.exhausted = false then u.raiseCtx c.num 1 else u)) ∧
      (∀ v, c.seeds.length < 16 → exec (.seedpush q v) s = .next ((s.pass q 1).modCtx c.num fun c' => { c' with seeds := v :: c.seeds })) ∧
      (∀ v, 16 ≤ c.seeds.length → exec (.seedpush q v) s = .next (s.failBefore q 1 5 16)) ∧
      (∀ x xs, c.seeds = x :: xs → exec (.seedpop q) s = .next ((s.pass q 1).modCtx c.num fun c' => { c' with seeds := xs })) ∧
      (c.seeds = [] → exec (.seedpop q) s = .next (s.failBefore q 1 6 17) ∧
        ∀ i, exec (.seedfork q i) s = .next (s.failBefore q 1 6 17)) ∧
      (∀ i, 16 ≤ c.seeds.length → exec (.seedfork q i) s = .next (s.failBefore q 1 5 16)) ∧
      (∀ i x xs, c.seeds = x :: xs → c.seeds.length < 16 → ∃ y : W64, exec (.seedfork q i) s =
          .next ((s.pass q 1).modCtx c.num fun c' => { c' with seeds := y :: c.seeds }) ∧
        y.truncate 32 = kcg x i 0 0 0 0 ∧ (y >>> 32).truncate 32 = kcg x i 0 0 0 1) ∧
      (∀ (p : GraphPkt) (ps : List (Nat × W64)), s.ringFree c = true →
        let s' := s.pass q 1
        s'.addrOk c.num p.base false = true → (p.patchCount ≠ 0 → p.patchAt.toNat % 8 = 0) →
        (p.done ≠ 0 → s'.addrOk c.num p.done true = true) → s'.readPatches c.num p.patchAt p.patchCount = some ps →
        ∃ r : Replay, exec (.graph q p) s =
          .next ({ s' with replays := s'.replays ++ [r], nextNum := s'.nextNum + 1 }.modCtx c.num fun c => { c with reserved := c.reserved + 1 }) ∧
          r.num = s'.nextNum ∧ r.ctx = c.num ∧ r.queue = q ∧ r.pkt = p ∧ r.patches = ps ∧ r.seed = c.seeds.headD 0 ∧ r.started = false ∧
          r.pend = [{ node := p.entry, seed := c.seeds.headD 0, pred := 0xFFFF }])) ∧
  (∀ (s : State) (n m : Nat), n < 64 →
    (s.pass (.host n) m).queue n = { s.queue n with head := (s.queue n).head + BitVec.ofNat 32 m, read := none } ∧
    (s.failBefore (.host n) m 5 16).queue n =
      { s.queue n with halted := true, cause := 5, where_ := (s.queue n).head, accepted := false, wait := none, read := none })

/-- R32, R35, R43, R45, R49: WAITWORD holds its queue until its word meets the condition or its timeout passes; SETWORD stores
its word and no other, at once or once the launches before it are recorded (that its address is looked at when it is accepted
too is log 64's choice); a packet that does not match is read again at doubling intervals, and given up after 64,000 ns;
TEARDOWN halts and cancels, but for the stores that accepted SETWORDs have still to make; a record goes into its slot and moves
Produced. -/
def Obligations.WaitsStoresAndRecords : Prop :=
  (∀ (s : State) (q : QRef), s.canAccept q = true →
    let s' := s.pass q 1
    let ctx := s'.qctx q
    (∀ p : WaitPkt, s'.addrOk ctx p.addr false = true → exec (.waitword q p) s = .next (s'.setWait q (some (p, s.wtime, s.wtime)))) ∧
    (∀ p : SetPkt, s'.addrOk ctx p.addr true = true →
      (p.after = true → exec (.setword q p) s = .next { s' with
        after := s'.after ++ [{ num := s'.nextNum, ctx, queue := q, pkt := p }], nextNum := s'.nextNum + 1 }) ∧
      (∀ b, p.after = false → s'.dispXlat ctx p.addr true = some b → (∀ i < 8, s'.drops (b + i) = false) →
        ∃ t, exec (.setword q p) s = .next t ∧ s.WritesDevice t b 8 fun i => p.value.extractLsb' (8 * i) 8)) ∧
    (∀ c, s.ctx? (s.qctx q) = some c → ∃ u, exec (.teardown q) s = .next u ∧
      (∀ x, u.ctx? c.num = some x → x.torn = true ∧ x.dqHead = x.dqTail ∧ x.dqWait = none ∧ x.teardown.isSome = true) ∧
      (∀ n < 64, (s.queue n).enable = true → (s.queue n).ctx = c.num → (u.queue n).halted = true ∧ (u.queue n).cause = 8) ∧
      (∀ t ∈ u.strands, t.ctx = c.num → t.status = .ended) ∧ (∀ w ∈ u.waiting, w.launch.ctx ≠ c.num) ∧
      (∀ r ∈ u.replays, r.ctx ≠ c.num) ∧ u.after = s.after ∧ ∀ t ∈ u.saved, t.ctx ≠ c.num)) ∧
  (∀ (s : State) (q : QRef) (p : WaitPkt) (t0 next : Nat), s.waitOf q = some (p, t0, next) →
    let cond (w : W64) : Prop := match p.cond.toNat with
      | 0 => w = p.value
      | 1 => w ≠ p.value
      | 2 => p.value.toNat ≤ w.toNat
      | _ => w.toNat < p.value.toNat
    (∀ w, next ≤ s.wtime → s.dispWord (s.qctx q) p.addr = some w → cond (w &&& p.mask) →
      exec (.waitwordPoll q) s = .next (s.setWait q none)) ∧
    (∀ w, next ≤ s.wtime → s.dispWord (s.qctx q) p.addr = some w → ¬ cond (w &&& p.mask) → ∃ x,
      exec (.waitwordPoll q) s = .next ({ s with freeCtr := s.freeCtr + 1 }.setWait q (some (p, t0, x))) ∧ s.wtime < x ∧ x ≤ s.wtime + 1000) ∧
    (p.timeout ≠ 0 → t0 + p.timeout.toNat ≤ s.wtime → exec (.waitTimeout q) s = .next ((s.setWait q none).failAfter q p.seq 4 18))) ∧
  (∀ (s : State) (n : Nat) (a : AfterPrior) (b : Nat), s.after.find? (fun x => x.num == n) = some a → s.priorDone a = true →
    s.dispXlat a.ctx a.pkt.addr true = some b → (∀ i < 8, s.drops (b + i) = false) → ∃ t, exec (.afterPriorStore n) s = .next t ∧
      s.WritesDevice t b 8 (fun i => a.pkt.value.extractLsb' (8 * i) 8) ∧ t.after = s.after.filter fun x => decide (x.num ≠ n)) ∧
  (∀ (s : State) (n t0 next gap : Nat), (s.queue n).read = some (t0, next, gap) → s.canAccept (.host n) = true →
    (∀ bs, next ≤ s.wtime → s.readPacket (.host n) = .ok bs → packetMatches bs (s.queue n).head = true →
      exec (.packetReread (.host n)) s = .next ((s.modQueue n fun h => { h with read := none }).takePacket (.host n) bs)) ∧
    (∀ bs, next ≤ s.wtime → s.readPacket (.host n) = .ok bs → packetMatches bs (s.queue n).head = false →
      exec (.packetReread (.host n)) s =
        .next (s.modQueue n fun h => { h with read := some (t0, s.wtime + min 8000 (2 * gap), min 8000 (2 * gap)) })) ∧
    (t0 + 64000 ≤ s.wtime → ∃ u, exec (.tornPacket (.host n)) s = .next u ∧ (u.queue n).halted = true ∧ (u.queue n).cause = 1 ∧
      (u.queue n).where_ = (s.queue n).head ∧ (u.queue n).head = (s.queue n).head)) ∧
  ∀ (s : State) (ctx b : Nat) (c : Context) (r : Record), s.ctx? ctx = some c → s.recordDue c = true → s.nextRecord c = some r →
    s.dispAt ctx (c.ring + BitVec.ofNat 64 (64 * (c.produced.toNat % 2 ^ c.ringLog))) true = some b →
    let counter := s.ctxtab.toNat + 64 * ctx + 0x20
    ∃ u x, exec (.ringRecordWrite ctx) s = .next u ∧ u.ctx? ctx = some x ∧ x.produced = c.produced + 1 ∧ r ∉ x.records ∧
      x.reserved = (if r.held then c.reserved - 1 else c.reserved) ∧
      (r.doneAt = 0 → ∀ p a, (a < counter ∨ counter + 8 ≤ a) →
        (a < b ∨ b + 64 ≤ a → u.busByte p a = s.busByte p a) ∧
        (b ≤ a → a < b + 64 → s.drops a = false → ¬ s.covered p a → u.busByte p a = r.bytes.getD (a - b) 0))

/-! ## Task graphs (R39 to R43) -/

/-- R36, R41, R43: what the activation of each type of node does to its replay; a node that breaks the conditions of R43 ends
its replay early, and so does a control word that cannot be read. That the low 32 bits of a SEED FORK's index count is the
model's choice (log 64), and so is what logs 37 to 39 and 73 say of nodes that break the conditions. -/
def Obligations.GraphNodes : Prop :=
  ∀ (s : State) (rep : Nat) (a : Activation) (w : NodeWords) (r : Replay),
    s.replays.find? (fun r => r.num == rep && r.started && r.status == 0 && !r.ending && r.pend.head? == some a) = some r →
    let word (i lo n : Nat) : Nat := (vget w i 0).toNat / 2 ^ lo % 2 ^ n
    let t := s.modReplay rep fun r => { r with pend := r.pend.tail }
    let goes (u : State) (edge : Nat) (seed : W64) : State := u.modReplay rep fun r => r.push [{ node := edge, seed, pred := a.node }]
    let reads (v : W64) : Prop := (vget w 1 0).toNat % 8 = 0 ∧ t.dispWord r.ctx (vget w 1 0) = some v
    (∀ p : Nat × Instr, p ∈ ([(1, .taskNode rep a w), (2, .cond rep a w), (3, .loopNode rep a w), (4, .switch rep a w), (5, .join rep a w),
        (6, .seedNode rep a w), (7, .endNode rep a w)] : List (Nat × Instr)) → word 0 0 8 = p.1 → nodeOk r.pkt.nodes w = false →
      exec p.2 s = .next (t.modReplay rep fun r => { r with status := if r.status = 0 then 9 else r.status, pend := [] })) ∧
    (nodeOk r.pkt.nodes w = true →
      (word 0 0 8 = 1 → ∃ l : Launch, exec (.taskNode rep a w) s =
          .next ((t.modReplay rep fun r => { r with running := r.running + 1 }).enterLaunch l) ∧
        l.ctx = r.ctx ∧ l.seed = a.seed ∧ l.image = vget w 1 0 ∧ l.param = vget w 2 0 ∧ l.ctrbase = vget w 3 0 ∧ l.count = word 0 32 7 ∧
        l.cls = word 0 44 3 ∧ l.from_ = .node rep a.node [word 6 0 16, word 6 16 16] r.queue r.pkt.seq) ∧
      (word 0 0 8 = 2 → (∀ v, reads v → exec (.cond rep a w) s =
          .next (goes t (if v ≠ 0 then word 2 0 16 else word 2 16 16) a.seed)) ∧
        ((∀ v, ¬ reads v) → exec (.cond rep a w) s =
          .next (t.modReplay r.num fun r => { r with status := if r.status = 0 then 12 else r.status, pend := [] }))) ∧
      (word 0 0 8 = 3 → ∀ v, reads v →
        let st : W64 × Nat := match r.loops.find? fun l => l.1 == a.node with
          | some l => l.2
          | none => (a.seed, 0)
        let limit := word 2 32 32
        let keep (n : Nat) : State := t.modReplay rep fun r => { r with loops := (a.node, st.1, n) :: r.loops.filter fun l => l.1 != a.node }
        (v = 0 → exec (.loopNode rep a w) s = .next (goes (keep 0) (word 2 16 16) st.1)) ∧
        (v ≠ 0 → limit ≠ 0 → limit < st.2 + 1 → exec (.loopNode rep a w) s =
          .next (t.modReplay rep fun r => { r with status := if r.status = 0 then 10 else r.status, pend := [] })) ∧
        (v ≠ 0 → limit = 0 ∨ st.2 + 1 ≤ limit → exec (.loopNode rep a w) s =
          .next (goes (keep (st.2 + 1)) (word 2 0 16) (childSeed st.1 (BitVec.ofNat 32 st.2))))) ∧
      (word 0 0 8 = 4 → ∀ v, reads v → exec (.switch rep a w) s = .next (goes t
        (if v.toNat < word 2 0 5 then word (4 + v.toNat / 4) (16 * (v.toNat % 4)) 16 else word 2 16 16) a.seed)) ∧
      (word 0 0 8 = 5 →
        let had : List (Nat × W64) := match r.joins.find? fun j => j.1 == a.node with
          | some j => j.2
          | none => []
        let all := had ++ [(a.pred, a.seed)]
        let others := r.joins.filter fun j => j.1 != a.node
        (all.length < word 1 0 64 → exec (.join rep a w) s = .next (t.modReplay rep fun r => { r with joins := (a.node, all) :: others })) ∧
        (word 1 0 64 ≤ all.length → ∃ x ∈ all, (∀ y ∈ all, x.1 ≤ y.1) ∧ exec (.join rep a w) s =
          .next (goes (t.modReplay rep fun r => { r with joins := others }) (word 2 0 16) x.2))) ∧
      (word 0 0 8 = 6 → exec (.seedNode rep a w) s = .next (goes t (word 3 0 16)
        (if word 1 0 64 = 0 then childSeed a.seed ((vget w 2 0).truncate 32) else vget w 2 0))) ∧
      (word 0 0 8 = 7 → exec (.endNode rep a w) s = .next (t.modReplay rep fun r => { r with ending := true, pend := [] })))

/-! ## The host's commands (R28 to R32, R147, R160, R287 to R289, R292, R301, R303, R304, R309) -/

/-- R29 to R32, R49, R307: ACTIVATE and RELEASE with their three results each; QCTL, QKICK, RESUME and SKIP on a host queue; a
QCTL word with a reserved bit set changes nothing (log 42), and during a function-level reset no such write is accepted. That
disabling an enabled queue ends a WAITWORD that holds it is the model's choice of log 78, and that a device queue's positions
begin at 0 that of log 83. -/
def Obligations.ContextsAndQueues : Prop :=
  (∀ (s : State) (n : Nat) (v : W64) (tail : W32), s.wholeReset = true →
    ∀ i ∈ [Instr.activate n, .release n, .queueEnable n v, .qkick n tail, .qcmdResume n, .qcmdSkip n], exec i s = .next s) ∧
  (∀ (s : State) (n : Nat), n < 64 → s.wholeReset = false →
    let result (op r : Nat) : W64 := BitVec.ofNat 64 (r * 2 ^ 17 + op * 2 ^ 8 + n)
    ((s.ctx? n).isSome = true → exec (.activate n) s = .next { s with ctxcmd := result 1 2 }) ∧
    (s.ctx? n = none → s.descOk n = false → exec (.activate n) s = .next { s with ctxcmd := result 1 1 }) ∧
    (s.ctx? n = none → s.descOk n = true → ∃ c : Context,
      exec (.activate n) s = .next { s with contexts := s.contexts ++ [c], ctxcmd := result 1 0 } ∧
      c.num = n ∧ c.part = s.descWord n 0 ∧ c.root = s.descWord n 1 ∧ c.ring = BitVec.ofNat 64 (s.descWord n 2) ∧
      c.ringLog = s.descWord n 3 ∧ c.produced = BitVec.ofNat 64 (s.descWord n 4) ∧ c.dqBase = BitVec.ofNat 64 (s.descWord n 6) ∧
      c.dqHead = 0 ∧ c.dqTail = 0 ∧ c.seeds = [] ∧ c.quota = 0 ∧ c.limit = 64 ∧ c.floor = 0 ∧ c.enused = 0 ∧ c.enover = 0 ∧ c.torn = false) ∧
    (s.ctx? n = none → exec (.release n) s = .next { s with ctxcmd := result 2 1 }) ∧
    ∀ c, s.ctx? n = some c →
      (s.idle c = false → exec (.release n) s = .next { s with ctxcmd := result 2 2 }) ∧
      (s.idle c = true → exec (.release n) s = .next { s with contexts := s.contexts.filter (fun c => decide (c.num ≠ n)), ctxcmd := result 2 0 })) ∧
  ∀ (s : State) (q : Nat) (v : W64) (tail : W32), q < 64 → s.wholeReset = false →
    let h := s.queue q
    let plain : Prop := v &&& ~~~0x3F01 = 0
    (¬ plain → exec (.queueEnable q v) s = .next s) ∧
    let ctx := v.toNat / 2 ^ 8 % 2 ^ 6
    (h.enable = true → v.getLsbD 0 = true → exec (.queueEnable q v) s = .next s) ∧
    (plain → h.enable = true → v.getLsbD 0 = false → exec (.queueEnable q v) s =
      .next (s.modQueue q fun h => { h with enable := false, wait := none, read := none })) ∧
    (plain → h.enable = false → v.getLsbD 0 = false → exec (.queueEnable q v) s = .next (s.modQueue q fun h => { h with ctx })) ∧
    (plain → h.enable = false → v.getLsbD 0 = true → ∃ u, exec (.queueEnable q v) s = .next u ∧
      let g := u.queue q
      g.enable = true ∧ g.ctx = ctx ∧ g.head = 0 ∧ g.tail = 0 ∧ g.base = h.base ∧ g.size = h.size ∧
      if (s.ctx? ctx).isSome = true ∧ 6 ≤ h.size ∧ h.size ≤ 16 then g.halted = false ∧ g.cause = 0 else g.halted = true ∧ g.cause = 7) ∧
    (∃ u, exec (.qkick q tail) s = .next u ∧ u.queue q = { h with tail, ready := (u.queue q).ready } ∧ s.wtime ≤ (u.queue q).ready) ∧
    (h.halted = false ∨ h.cause = 7 ∨ h.cause = 8 ∨ h.cause = 9 → exec (.qcmdResume q) s = .next s ∧ exec (.qcmdSkip q) s = .next s) ∧
    (h.halted = true → h.cause ≠ 7 → h.cause ≠ 8 → h.cause ≠ 9 →
      (∃ u, exec (.qcmdResume q) s = .next u ∧ u.queue q = { h with halted := false }) ∧
      ∃ u n, exec (.qcmdSkip q) s = .next u ∧ u.queue q = { h with halted := false, head := h.head + BitVec.ofNat 32 n } ∧
        (h.accepted = true → n = 0) ∧ (h.accepted = false → h.head ≠ h.tail →
          (∀ bs, s.dispBytes h.ctx (s.slotVa (.host q) h.head) 64 = some bs → pktFld bs 4 4 = h.head.toNat → n = pktFld bs 0 8 / 2 ^ 8 % 2 ^ 4 + 1) ∧
          (∀ bs, s.dispBytes h.ctx (s.slotVa (.host q) h.head) 64 = some bs → pktFld bs 4 4 ≠ h.head.toNat → n = 1)))

/-- R147, R160, R287 to R289, R301, R304, R307, R309: HOLD asks the named strands, RESUME lets held ones go on, at the later of
their stack's cycle and their next slot, with waits, walks and fetches made afresh, SAVE takes them off and RESTORE brings them
back to the waiting set (log 64 names what of it the model chose), each with its result; that a strand with a unit that is not
ACTIVE stays held through RESUME is log 44's reading, and that LINKCMD RESUME ends every hold for link loss and forgets the
loss log 47's; the other commands of the register windows, which leave a register as it is where a reserved bit is set (log
42); CTXCMD then answers BAD-CONFIG, and so does PECMD (R5, R29). During a function-level reset no write is accepted. -/
def Obligations.HostCommands : Prop :=
  let goesOn (s : State) (t y : Strand) : Prop :=
    let cyc := max (s.stack t.stack).cyc t.nextCyc
    y = { t with
      status := .run, linkHeld := false, holdReq := false, holdAt := none, fills := y.fills, walks := y.walks, cores := y.cores,
      raised := y.raised, waitSaw := y.waitSaw, region := { t.region with since := cyc } } ∧
    (∃ new, y.raised = t.raised ++ new ∧ ∀ c ∈ new, c.kind = .q) ∧
    (∀ f ∈ y.fills, f.ended = none) ∧ (∀ w ∈ y.walks, w.ended = none ∧ ∃ o ∈ t.walks, w.vas = o.vas ∧ w.beat = o.beat) ∧
    List.Forall₂ (fun c e : Core => e = { c with l1 := e.l1, cl := e.cl } ∧ ∀ k < 4,
      let x := c.cluster k
      (x.inMask = false → e.cluster k = { x with l0 := (e.cluster k).l0 }) ∧ (x.inMask = true → e.cluster k = { x with
        l0 := (e.cluster k).l0, gone := (e.cluster k).gone, waits := (e.cluster k).waits,
        rdv := x.rdv.map fun d => { d with since := d.since.map fun _ => cyc } } ∧
      List.Forall₂ (fun w z : Wait => z = { w with cyc0 := cyc, seenAt := z.seenAt } ∧
        (z.seenAt = none ∨ z.seenAt = some (s.stack t.stack).cyc)) x.waits (e.cluster k).waits)) t.cores y.cores
  let onlyFetches (s u : State) : Prop :=
    (∀ k < 4, u.stack k = { s.stack k with
      tlb := (u.stack k).tlb, sliceTlb := (u.stack k).sliceTlb, micro := (u.stack k).micro, cache := (u.stack k).cache }) ∧
    List.Forall₂ (fun p q : Task => q = { p with used := q.used }) s.tasks u.tasks
  (∀ (s : State) (w : W64) (n : Nat) (x : W32), s.wholeReset = true →
    ∀ i ∈ [Instr.hold w, .pecmdResume w, .save w, .restore w, .tlbinvOnePage n, .tlbinvWholeContext n, .drefc n w, .errcfg w, .fenceclr w,
      .registerWrite n w, .mbxctl x n, .linkcmdResume], exec i s = .next s) ∧
  (∀ (s : State) (w : W64), s.wholeReset = false →
    let ctx := (w.extractLsb' 0 6).toNat
    let one := w.getLsbD 11
    let sid := (w.extractLsb' 32 32).toNat
    let named (t : Strand) : Prop := t.ctx = ctx ∧ (one = true → t.sid = sid)
    let bad : Prop := w &&& 0xFFF0F0C0 ≠ 0 ∨ s.ctx? ctx = none ∨ s.peaddr.toNat % 4096 ≠ 0 ∨
      one = true ∧ (¬ ∃ t ∈ s.strands, t.status ≠ .ended ∧ named t) ∧ ¬ ∃ t ∈ s.saved, named t
    let result (r : Nat) : W64 := BitVec.ofNat 64 (sid * 2 ^ 32 + r * 2 ^ 17 + (w.extractLsb' 8 4).toNat * 2 ^ 8 + ctx)
    let four : List Instr := [.hold w, .pecmdResume w, .save w, .restore w]
    (s.holding.isSome = true → ∀ i ∈ four, exec i s = .next s) ∧
    (s.holding = none → bad → ∀ i ∈ four, exec i s = .next { s with pecmd := result 1 }) ∧
    (s.holding = none → ¬ bad →
      (∃ u, exec (.hold w) s = .next u ∧ (∀ t ∈ u.strands, named t → t.status ≠ .ended → t.status ≠ .held → t.holdReq = true) ∧
        (∀ t ∈ u.strands, named t → t.linkHeld = false) ∧ u.mem = s.mem ∧ u.flight = s.flight ∧
        ((∀ t ∈ s.strands, named t → t.status = .ended ∨ t.status = .held) → u.holding = none ∧ u.pecmd = result 0)) ∧
      ((¬ ∃ t ∈ s.strands, named t ∧ t.status = .held) → exec (.pecmdResume w) s = .next { s with pecmd := result 2 } ∧
        exec (.save w) s = .next { s with pecmd := result 2 }) ∧
      ((∃ t ∈ s.strands, named t ∧ t.status = .held) → ∃ u, exec (.pecmdResume w) s = .next u ∧
        u = { s with strands := u.strands, stks := u.stks, tasks := u.tasks, freeCtr := u.freeCtr, pecmd := result 0 } ∧ onlyFetches s u ∧
        ((s.strands.map (·.sid)).Nodup → List.Forall₂ (fun t y : Strand =>
          if t.ctx = ctx ∧ (one = true → t.sid = sid) ∧ t.status = .held ∧ s.unitsLive t = true then goesOn s t y else y = t)
          s.strands u.strands)) ∧
      (∀ s', (∃ t ∈ s.strands, named t ∧ t.status = .held) →
        s.writeImages ctx s.peaddr (s.strands.filter fun t => peNames w t && t.status == .held) = some s' →
        ∃ u, exec (.save w) s = .next u ∧ u.pecmd = result 0 ∧ (∀ t ∈ u.strands, ¬ (named t ∧ t.status = .held)) ∧
          ∀ t ∈ s.strands, named t → t.status = .held →
            { t with
              flip := none, decided := none, linkHeld := false, fills := [],
              cores := t.cores.map fun co => { co with l1 := [], cl := co.cl.map fun c => { c with l0 := [], gone := [] } } } ∈ u.saved ∧
            (t.stack < 4 → (s.strands.map (·.sid)).Nodup → (∀ y ∈ s.strands, y.sid < 2 ^ 32) →
              ∃ y ∈ u.strands, y = { t with sid := y.sid, status := .ended } ∧ 2 ^ 32 ≤ y.sid ∧ y.sid ∈ (u.stack t.stack).departed)) ∧
      (∀ all, s.readImages ctx s.peaddr 65536 = some all →
        let picked := if one then all.filter fun t => t.sid == sid else all
        (picked = [] → exec (.restore w) s = .next { s with pecmd := result 3 }) ∧
        (picked ≠ [] → ∃ u, exec (.restore w) s = .next u ∧ u.pecmd = result 0 ∧ u.strands = s.strands ∧ ∀ y ∈ picked,
          ((∃ x ∈ u.waiting, ∃ z, x.image = some z ∧ z.sid = y.sid) ∨ ∃ t ∈ s.strands, t.sid = y.sid ∧ t.status ≠ .ended) ∧
          ((picked.map (·.sid)).Nodup → (∃ t ∈ s.saved, t.sid = y.sid) → (¬ ∃ t ∈ s.strands, t.sid = y.sid ∧ t.status ≠ .ended) →
            (¬ ∃ x ∈ s.waiting, ∃ z, x.image = some z ∧ z.sid = y.sid) → ∀ k, s.tasks.find? (fun k => k.num == y.task) = some k →
              ∃ x ∈ u.waiting, x.image = some y ∧ x.launch = { k.launch with noWait := false } ∧ x.hdr = k.hdr))) ∧
      (s.readImages ctx s.peaddr 65536 = none → exec (.restore w) s = .next { s with pecmd := result 3 }))) ∧
  (∀ (s : State) (n : Nat) (w : W64), n < 64 → s.wholeReset = false →
    (let keep (es : List TlbEntry) := es.filter fun e => decide (¬ (e.ctx = n ∧ s.tlbaddr.toNat / 2 ^ e.log = e.va / 2 ^ e.log))
      ∃ u, exec (.tlbinvOnePage n) s = .next u ∧ u = { s with stks := u.stks, tlbinv := BitVec.ofNat 64 (n + 256) } ∧
        ∀ k < 4, u.stack k = { s.stack k with
          tlb := keep (s.stack k).tlb, sliceTlb := (s.stack k).sliceTlb.map keep, micro := (s.stack k).micro.map keep }) ∧
    (let keep (es : List TlbEntry) := es.filter fun e => decide (e.ctx ≠ n)
      ∃ u, exec (.tlbinvWholeContext n) s = .next u ∧ u = { s with stks := u.stks, tlbinv := BitVec.ofNat 64 (n + 512) } ∧
        ∀ k < 4, u.stack k = { s.stack k with
          tlb := keep (s.stack k).tlb, sliceTlb := (s.stack k).sliceTlb.map keep, micro := (s.stack k).micro.map keep }) ∧
    exec (.drefc n w) s = .next (if w.extractLsb' 48 15 ≠ 0 then s else { s with drefc := vset s.drefc n w }) ∧
    exec (.errcfg w) s = .next (if w.extractLsb' 48 16 ≠ 0 ∨ w.extractLsb' 8 24 ≠ 0 ∨ w.extractLsb' 32 16 = 0 ∨ w.extractLsb' 0 8 = 0
      then s else { s with errcfg := w }) ∧
    exec (.fenceclr w) s = .next (if w = 1 then { s with fenced := [] } else s) ∧
    exec (.registerWrite 0x10000 w) s = .next (if w.extractLsb' 0 12 ≠ 0 then s else { s with ctxtab := w }) ∧
    exec (.registerWrite 0x1008 w) s = .next { s with peaddr := w } ∧
    exec (.registerWrite 0x10020 w) s = .next { s with mbxdata := w } ∧
    exec (.registerWrite 0x10018 w) s = .next (if w.extractLsb' 0 12 ≠ 0 ∨ w.extractLsb' 48 16 ≠ 0 then s else { s with tlbaddr := w }) ∧
    exec (.registerWrite 0x10040 w) s = .next (if w.extractLsb' 32 32 ≠ 0 then s else { s with linkgrace := w.truncate 32 }) ∧
    exec (.registerWrite 0x10048 w) s = .next (if w.extractLsb' 5 59 ≠ 0 then s else { s with devevt := s.devevt &&& ~~~(w.truncate 5) }) ∧
    exec (.registerWrite (0x10100 + 8 * n) w) s = .next (if w.extractLsb' 6 58 ≠ 0 then s
      else { s with ctxevt := vset s.ctxevt n (vget s.ctxevt n 0 &&& ~~~(w.truncate 6)) }) ∧
    exec (.registerWrite (0x2000 + 16 * n) w) s = .next { s with drefv := vset s.drefv n w } ∧
    exec (.registerWrite (64 * n) w) s = .next (if w.extractLsb' 0 6 ≠ 0 ∨ (s.queue n).enable = true then s
      else s.modQueue n fun h => { h with base := w })) ∧
  (∀ (s : State) (w : W64), s.linkUp = true → s.wholeReset = false →
    let op := w.toNat / 2 ^ 8 % 4
    w &&& ~~~0xF033F ≠ 0 → op = 1 ∨ op = 2 → exec (.hostMemoryWrite 0 0x10008 (bytesOf 8 w.toNat)) s =
      .next { s with ctxcmd := BitVec.ofNat 64 (1 * 2 ^ 17 + op * 2 ^ 8 + w.toNat % 2 ^ 6) }) ∧
  (∀ (s : State) (n : W32) (i : Nat) (t : Strand), i < 8 → s.wholeReset = false → s.strand? n.toNat = some t → t.status ≠ .ended →
    ∃ x, exec (.mbxctl n i) s = .next ({ s with mbxctl := BitVec.ofNat 64 (n.toNat * 2 ^ 32 + i), freeCtr := s.freeCtr + 1 }.modStrand t.sid fun t =>
      { t with mbxNew := t.mbxNew ++ [(i, s.mbxdata, t.beat + x)] })) ∧
  ∀ s : State, s.wholeReset = false → ∃ u, exec .linkcmdResume s = .next u ∧ (∀ t ∈ u.strands, t.linkHeld = false) ∧
    u = { s with strands := u.strands, stks := u.stks, tasks := u.tasks, freeCtr := u.freeCtr, linkHolding := false, lostAt := none } ∧
    onlyFetches s u ∧
    ((s.strands.map (·.sid)).Nodup → List.Forall₂ (fun t y : Strand =>
      if t.linkHeld = false then y = t else if t.status = .held ∧ s.unitsLive t = true then goesOn s t y
      else y = { t with linkHeld := false, holdReq := false, holdAt := none }) s.strands u.strands)

/-! ## Resets and the link (R306 to R309, R319, R322) -/

/-- R306 to R309, R319, R322: what each reset ends and what it keeps, and that a function-level one resets the function's
registers when it ends; the loss and the return of the link; a trip puts every stack in OFF. What an island reset clears is the
model's choice (log 69), that CTXTAB and PECMD are 0 and every unit is ACTIVE at reset is log 2's, that a stack or compute
reset keeps PWRENV log 49's, and that the grace timer runs until RESUME log 47's. -/
def Obligations.ResetsAndTheLink : Prop :=
  ∀ s : State,
    let none_ : List Instr := [.computeReset, .functionLevelReset, .stackReset 0, .stackReset 1, .stackReset 2, .stackReset 3]
    (s.wholeReset = true ∨ s.powered = false → ∀ i ∈ none_, exec i s = .next s) ∧
    (s.wholeReset = false → s.powered = true →
      (∀ k < 4, ∃ u r, exec (.stackReset k) s = .next u ∧ (∀ t ∈ u.strands, t.stack ≠ k) ∧
        (∀ t ∈ s.strands, t.stack ≠ k → (∀ y ∈ s.strands, y.sid = t.sid → y.stack ≠ k) → t ∈ u.strands) ∧
        u.mem = s.mem ∧ u.contexts = s.contexts ∧ u.queues = s.queues ∧ (u.stack k).cyc = 0 ∧ (u.stack k).tlb = [] ∧
        (u.stack k).up = false ∧ (u.stack k).pwrenv = (s.stack k).pwrenv ∧ (∀ j, j ≠ k → u.stack j = s.stack j) ∧
        u.resetting = some r ∧ k ∈ r.parts ∧ r.whole = false ∧ s.wtime ≤ r.stop) ∧
      (∃ u r, exec .computeReset s = .next u ∧ (∀ t ∈ u.strands, 4 ≤ t.stack) ∧ u.mem = s.mem ∧ u.contexts = s.contexts ∧
        u.queues = s.queues ∧ u.power = s.power ∧ (∀ k < 4, (u.stack k).up = false) ∧ u.resetting = some r ∧ (∀ k < 4, k ∈ r.parts) ∧
        r.whole = false) ∧
      ∃ u r, exec .functionLevelReset s = .next u ∧ (∀ t ∈ u.strands, 4 ≤ t.stack) ∧ u.mem = s.mem ∧ (∀ k < 4, (u.stack k).up = false) ∧
        u.resetting = some r ∧ (∀ k < 4, k ∈ r.parts) ∧ r.whole = true ∧ r.stop ≤ s.wtime + 10000000) ∧
    (∀ r, s.resetting = some r → r.whole = true →
      (∀ js, s.todo = .dispatch :: js → r.stop ≤ s.wtime → step s = step s.endReset) ∧
      let u := s.endReset
      u.resetting = none ∧ u.contexts = [] ∧ u.waiting = [] ∧ u.tasks = [] ∧ u.replays = [] ∧ (∀ n < 64, u.queue n = HostQueue.reset) ∧
      u.ctxtab = 0 ∧ u.pecmd = 0 ∧ u.linkgrace = 10000000 ∧ u.devevt = 0 ∧ u.mem = s.mem ∧ (∀ p, p ∈ u.power ↔ p ∈ s.power ∧ p.1 = 2 ∧ p.2.1 ∈ s.tripped) ∧
      ∀ k < 4, (u.stack k).pwrenv = pwrenvReset ∧ (u.stack k).crashcnt = 0 ∧ (k ∈ r.parts → (u.stack k).up = true)) ∧
    (∃ u, exec .coldReset s = .next u ∧ u.strands = [] ∧ u.contexts = [] ∧ u.flight = [] ∧ u.stks = State.reset.stks ∧ u.wtime = 0 ∧
      (∀ a, Sparse.get u.mem a = if isHost a then Sparse.get s.mem a else 0) ∧ u.fwRunning = s.fwRunning ∧ u.fwCounter = s.fwCounter ∧
      u.otsIndex = s.otsIndex ∧ u.routes = [] ∧ u.fenced = [] ∧ u.errcfg = errcfgReset ∧ u.linkUp = true ∧ u.powered = true ∧
      u.resetting = none) ∧
    (∃ u, exec .powerLoss s = .next u ∧ u.strands = [] ∧ u.contexts = [] ∧ (∀ k < 4, (u.stack k).up = false) ∧ u.linkUp = false ∧
      u.powered = false ∧ u.otsIndex = s.otsIndex) ∧
    (∃ u, exec .islandReset s = .next u ∧ u.routes = [] ∧ u.exports = State.reset.exports ∧ u.linkUp = s.powered ∧ u.contexts = [] ∧
      (∀ n < 64, u.queue n = HostQueue.reset) ∧ u.mem = s.mem ∧ u.strands = s.strands ∧ u.power = s.power ∧ u.fenced = s.fenced ∧
      u.wholeReset = false ∧ (s.wholeReset = false → u.stks = s.stks)) ∧
    (s.linkUp = true → ∃ u, exec .surpriseLinkLoss s = .next u ∧ u.linkUp = false ∧ u.linkLost = true ∧ u.lostAt = some s.wtime ∧
      u.devevt.getLsbD 0 = true ∧ u.mem = s.mem ∧ (∀ f ∈ u.flight, f ∈ s.flight ∧ ∀ c ∈ f.cells, isHost c.1 = false) ∧
      ∀ n < 64, (u.queue n).halted = true ∧ (u.queue n).cause = 9) ∧
    (∀ t0, s.lostAt = some t0 → s.linkHolding = false → t0 + s.linkgrace.toNat ≤ s.wtime → exec .linkgraceExpiry s =
      .next { s with linkHolding := true, strands := s.strands.map fun t =>
        if t.status = .ended ∨ t.status = .held ∨ t.holdReq = true then t
        else
          let waits := (t.freeze.any fun f => f.why != .ret) = true ∧ t.inShadow = false ∧ t.handling = false
          { t with holdReq := true, linkHeld := true, holdAt := if waits then some t.beat else none } }) ∧
    (s.linkUp = false → exec .linkRetrain s = .next { s with linkUp := true }) ∧
    ∃ u, exec .thermalSafetyTrip s = .next u ∧ (∀ t ∈ u.strands, 4 ≤ t.stack) ∧ (∀ k < 4, u.powerOf 2 k = .off ∧ k ∈ u.tripped) ∧
      u.devevt.getLsbD 1 = true ∧ u.mem = s.mem ∧ u.contexts = s.contexts

/-! ## Power, energy and errors (R272 to R279, R290, R292, R293, R320, R321) -/

/-- R272, R273, R275, R277, R278, R279, R290, R292, R307, R321: an envelope out of range is refused and the old one stays; an
evaluation of the governor takes the thermal stretch and the Ceiling on and chooses min(max(want, Min), Max, Ceiling) for a
stack with a declaration and min(Default, Max, Ceiling) for any other, each declaration needing the lowest point that brings
its beats in before its deadline, and marks as at risk the declarations that need more (what a Cap of 0 does to the Ceiling is
log 54's reading, the average log 56's); a choice that differs from what stands last takes effect at most 2,000 ns later;
energy is charged to the strands of a stack; droop signatures are kept, the most recent of 64 first; a power command answers
its result and moves its unit only where that is 0; during a function-level reset none of these writes is accepted; an error is
counted and fences its unit at the threshold, and an uncorrectable one fences at once and marks what it struck (how the offset
names what a core's error strikes is the model's choice, log 68). -/
def Obligations.PowerAndErrors : Prop :=
  (∀ (s : State) (k : Nat) (w : W64), k < 4 →
    let f (lo n : Nat) : Nat := w.toNat / 2 ^ lo % 2 ^ n
    let ok : Prop := f 12 4 = 0 ∧ f 52 12 = 0 ∧ f 0 4 ≤ f 8 4 ∧ f 8 4 ≤ f 4 4 ∧ 60 ≤ f 32 8 ∧ f 32 8 ≤ 105
    (s.wholeReset = false → ok → exec (.pwrenv k w) s = .next (s.modStack k fun t => { t with pwrenv := w, refused := false })) ∧
    (s.wholeReset = false → ¬ ok → exec (.pwrenv k w) s = .next (s.modStack k fun t => { t with refused := true })) ∧
    ((s.stack k).evalAt ≤ s.wtime →
      let old := s.stack k
      let env (lo n : Nat) : Nat := old.pwrenv.toNat / 2 ^ lo % 2 ^ n
      let cap := (s.stack 0).pwrenv.toNat / 2 ^ 16 % 2 ^ 16
      let avg := s.powerHist.sum
      let c := old.ceiling
      let ceil := if cap = 0 then 15 else if cap < avg then c - 1 else if 10 * avg < 9 * cap then min 15 (c + 1) else c
      let sensor := Config.junction k s.wtime
      let slow := if env 32 8 < sensor then min 16 (old.thermal + 1) else if sensor + 3 ≤ env 32 8 then max 8 (old.thermal - 1) else old.thermal
      let declares (t : Strand) (d : Declaration) : Prop := t ∈ s.strands ∧ t.stack = k ∧ t.status ≠ .ended ∧ t.decl = some d
      let fast (t : Strand) (d : Declaration) (p : Nat) : Prop := s.wtime < d.due ∧
        d.left * t.stride * slow * 100 ≤ 8 * (d.due - s.wtime) * (60 + 6 * p)
      let needs (t : Strand) (d : Declaration) (p : Nat) : Prop := p ≤ 16 ∧ (p < 16 → fast t d p) ∧ ∀ q < p, ¬ fast t d q
      let last := (old.pointPending.getLast?.getD (old.point, 0)).1
      ∃ u want, exec (.governorEvaluation k) s = .next u ∧ u.mem = s.mem ∧ (u.stack k).evalAt = s.wtime + 1000 ∧
        (u.stack k).point = old.point ∧ (u.stack k).ceiling = ceil ∧ (u.stack k).thermal = slow ∧
        ((∀ t d, ¬ declares t d) → want = env 8 4) ∧
        ((∃ t d, declares t d) → env 0 4 ≤ want ∧ (∀ t d, declares t d → ∃ p, needs t d p ∧ p ≤ want) ∧
          (want = env 0 4 ∨ ∃ t d, declares t d ∧ needs t d want)) ∧
        ((s.strands.map (·.sid)).Nodup → ∀ t d n, declares t d → needs t d n → min (env 4 4) ceil < n →
          ∃ y ∈ u.strands, y.sid = t.sid ∧ y.decl = some { d with risk := true }) ∧
        let p := min want (min (env 4 4) ceil)
        (p = last → (u.stack k).pointPending = old.pointPending) ∧
        (p ≠ last → ∃ at_, (u.stack k).pointPending = old.pointPending ++ [(p, at_)] ∧ s.wtime < at_ ∧
          ((∀ x ∈ old.pointPending, x.2 ≤ s.wtime + 2000) → at_ ≤ s.wtime + 2000))) ∧
    (∀ p at_ rest, (s.stack k).pointPending = (p, at_) :: rest → at_ ≤ s.wtime → exec (.operatingPointChange k) s =
      .next (s.modStack k fun t => { t with point := p, pointPending := rest })) ∧
    (∃ u, exec (.droopDetectorTrip k) s = .next u ∧
      u = s.modStack k (fun t => { t with droop := (u.stack k).droop, stretch := some 256 }) ∧
      (u.stack k).droop = ((s.stack k).sig :: (s.stack k).droop).take 64) ∧
    ((s.stack k).sig ∈ (s.stack k).droop → exec (.droopSignatureMatch k) s = .next (s.modStack k fun t =>
      { t with droop := t.sig :: t.droop.erase t.sig, stretch := some (max 64 (t.stretch.getD 0)) })) ∧
    ((s.stack k).stretch = some 0 → exec (.droopStretchEnd k) s = .next (s.modStack k fun t => { t with stretch := none }))) ∧
  (∀ (s : State) (m : BitVec 4), s.wholeReset = false → ∃ u, exec (.droopclr m) s = .next u ∧ u = { s with stks := u.stks } ∧
    ∀ k < 4, u.stack k = if m.getLsbD k then { s.stack k with droop := [] } else s.stack k) ∧
  (∀ (s : State) (mj : List (Nat × Nat)), ∃ u, exec (.energyMetering mj) s = .next u ∧ u.mem = s.mem ∧ u.strands = s.strands ∧
    u.powerHist = ((mj.map (·.2)).sum :: s.powerHist).take 1000 ∧
    u.contexts.map (fun c => c.num) = s.contexts.map (fun c => c.num) ∧
    ∀ k m t c, mj = [(k, m)] → s.strands.filter (fun t => t.admittedOn k) = [t] → t.load16 t.level ≠ 0 → s.ctx? t.ctx = some c →
      ∃ x, u.ctx? t.ctx = some x ∧ x.enused = c.enused + BitVec.ofNat 64 m ∧
        x.enover = (if c.exhausted then c.enover + BitVec.ofNat 64 m else c.enover) ∧
        x.exhausted = (c.quota != 0 && decide (c.quota.toNat ≤ x.enused.toNat))) ∧
  (∀ (s : State) (k kind unit : Nat) (w : W64) (m : BitVec 4), s.wholeReset = true →
    ∀ i ∈ [Instr.pwrenv k w, .droopclr m, .active kind unit, .gated kind unit, .retain kind unit, .off kind unit], exec i s = .next s) ∧
  (∀ (s : State) (kind unit : Nat), kind < 4 → unit < 1024 → s.wholeReset = false →
    let moved (p : Power) (u : State) : Prop :=
      u.pwrcmd = BitVec.ofNat 64 (s.pwrResult kind unit p * 2 ^ 18 + p.code * 2 ^ 16 + kind * 2 ^ 12 + unit) ∧ u.mem = s.mem ∧
      (s.pwrResult kind unit p ≠ 0 → u = { s with pwrcmd := u.pwrcmd }) ∧
      (s.pwrResult kind unit p = 0 → u.powerOf kind unit = p ∧ ∀ j n, (j, n) ≠ (kind, unit) → u.powerOf j n = s.powerOf j n)
    (∃ u, exec (.active kind unit) s = .next u ∧ moved .active u) ∧ (∃ u, exec (.gated kind unit) s = .next u ∧ moved .gated u) ∧
    (∃ u, exec (.retain kind unit) s = .next u ∧ moved .retain u) ∧ ∃ u, exec (.off kind unit) s = .next u ∧ moved .off u) ∧
  ∀ (s : State) (x : HwUnit),
    let recent := (s.errs ++ [(x, s.wtime)]).filter fun e => decide (s.wtime < e.2 + s.errcfg.toNat / 2 ^ 32 % 2 ^ 16 * 60000000000)
    let reached : Prop := s.errcfg.toNat % 2 ^ 8 ≤ (recent.filter fun e => e.1 == x).length
    (∃ u, exec (.correctedError x) s = .next u ∧ u.errs = recent ∧ u.mem = s.mem ∧ (reached → x ∈ u.fenced) ∧
      (¬ reached → u.fenced = s.fenced)) ∧
    (∀ at_, ∃ u, exec (.uncorrectableError x at_) s = .next u ∧ x ∈ u.fenced ∧ u.mem = s.mem ∧
      (∀ g, x = .dram g → (g * 2 ^ 30 + at_ % 2 ^ 30) / 8 ∈ u.poison) ∧
      ∀ n, x = .core n → ∀ t ∈ s.strands, ∀ (j : Nat) (co : Core), t.cores[j]? = some co → t.stack * 64 + co.phys = n → co.units.slot = at_ / 4 % 4 →
        let e := at_ / 16
        ∃ y ∈ u.strands, ∃ d : Core, y.sid = t.sid ∧ y.cores[j]? = some d ∧
          (e < 68 → e ≠ 0 → e ≠ 32 → (64 ≤ e → vget (co.cluster (at_ % 4)).q (e - 64) [] ≠ []) → e ∈ (d.cluster (at_ % 4)).struck) ∧
          (68 ≤ e → e < 84 ∨ 116 ≤ e ∧ e % 4 ≠ 3 → e ∈ d.marks) ∧
          (∀ i l, e = 119 + 8 * i → (co.cluster (at_ % 4)).l0[i]? = some l → (d.cluster (at_ % 4)).l0[i]? = some { l with bad := true }) ∧
          (∀ i l, e = 123 + 8 * i → co.l1[i]? = some l → d.l1[i]? = some { l with bad := true }) ∧
          ∀ i, 84 ≤ e → e < 116 → co.units.shapes[i]? = some (e - 84) → (∀ m < i, co.units.shapes[m]? ≠ some (e - 84)) → 84 + i ∈ d.marks)

/-! ## The island (R303, R310, R312, R315, R318, R319) -/

/-- R303, R310, R312, R315, R318, R319: reads through a BAR are answered from device-scope memory, or refused; writes perform
at device scope where they are not dropped, below what is in flight there (log 80), and change no other byte; an access from
another device is forwarded by its port, or goes through the export table; ports, doorbells, completions, firmware and
attestation do what their rules say. -/
def Obligations.IslandEvents : Prop :=
  let answers (s u : State) (b n : Nat) : Prop := u = { s with hostOut := u.hostOut, hostBad := u.hostBad } ∧
    u.hostOut = s.hostOut ++ [some ((List.range n).map fun i => s.busByte Place.device (b + i))] ∧
    u.hostBad = if s.poisonedRange Place.device b n then s.hostBad ++ [s.hostOut.length] else s.hostBad
  (∀ (s : State) (bar ofs b : Nat), s.linkUp = true →
    (bar = 2 ∧ ofs < 2 ^ 39 ∧ b = ofs ∨ bar = 4 ∧ ofs < 2 ^ 40 ∧ b = 2 ^ 40 + ofs) →
    (s.wholeReset = true → (∀ n, exec (.hostMemoryRead bar ofs n) s = .next s) ∧ ∀ bs, exec (.hostMemoryWrite bar ofs bs) s = .next s) ∧
    (s.wholeReset = false →
      (∀ n, (s.silent b = true → exec (.hostMemoryRead bar ofs n) s = .next { s with hostOut := s.hostOut ++ [none] }) ∧
        (s.silent b = false → ∃ u, exec (.hostMemoryRead bar ofs n) s = .next u ∧ answers s u b n)) ∧
      ∀ bs : List Byte, ∃ u, exec (.hostMemoryWrite bar ofs bs) s = .next u ∧ s.WritesDevice u b bs.length fun i => bs.getD i 0)) ∧
  (∀ (s : State) (src addr size : Nat) (v : W64), size ≤ 8 →
    let dest := addr / 2 ^ 49
    let ofs := addr % 2 ^ 49
    (dest ≠ Config.ownDevice → ∀ wr,
      (∀ p, s.portFor src dest = some p → exec (.domainAccess src wr addr size v) s = .next { s with sent := s.sent ++ [(src, dest, p)] }) ∧
      (s.portFor src dest = none → exec (.domainAccess src wr addr size v) s = .next { s with hostOut := s.hostOut ++ [none] })) ∧
    (dest = Config.ownDevice →
      (∀ wr, s.exportAt src ofs wr = none → exec (.domainAccess src wr addr size v) s = .next { s with hostOut := s.hostOut ++ [none] }) ∧
      (∀ b, s.exportAt src ofs false = some b → isDoorbell b = false →
        ∃ u, exec (.domainAccess src false addr size v) s = .next u ∧ answers s u b size) ∧
      ∀ b, s.exportAt src ofs true = some b →
        (isDoorbell b = false → ∃ u, exec (.domainAccess src true addr size v) s = .next u ∧ u.hostOut = s.hostOut ++ [some []] ∧
          s.WritesDevice u b size fun i => v.extractLsb' (8 * i) 8) ∧
        (isDoorbell b = true → size = 8 → (b - 2 ^ 41) % 4096 = 8 * (v.toNat % 2 ^ 10 % 512) →
          exec (.domainAccess src true addr size v) s =
            .next { s with hostOut := s.hostOut ++ [some []], todo := .ev (.doorbell ((b - 2 ^ 41) / 4096) v) :: s.todo }))) ∧
  (∀ (s : State) (port vc ctx : Nat) (v : W64),
    (∃ u, exec (.flitReplay port) s = .next u ∧
      u.errs = (s.errs ++ [(HwUnit.port port, s.wtime)]).filter fun e => decide (s.wtime < e.2 + s.errcfg.toNat / 2 ^ 32 % 2 ^ 16 * 60000000000)) ∧
    exec (.stop port vc) s = .next { s with ports := (port, vc) :: s.ports.filter fun p => decide (p ≠ (port, vc)) } ∧
    exec (.go port vc) s = .next { s with ports := s.ports.filter fun p => decide (p ≠ (port, vc)) } ∧
    exec (.doorbell ctx v) s = .next { s with
      doorbells := (ctx, (v.extractLsb' 0 10).toNat, (v >>> 32).truncate 32) ::
      s.doorbells.filter fun d => decide (¬ (d.1 = ctx ∧ d.2.1 = (v.extractLsb' 0 10).toNat)) }) ∧
  (∀ (s : State) (ctx : Nat) (va v : W64),
    (∀ b, s.dispAt ctx va true = some b →
      ∃ u, exec (.completionEntryWrite ctx va v) s = .next u ∧ s.WritesDevice u b 8 fun i => v.extractLsb' (8 * i) 8) ∧
    (s.dispAt ctx va true = none → exec (.completionEntryWrite ctx va v) s = .next s)) ∧
  ∀ (s : State),
    (∀ target version image : Nat, target < 3 →
      let accepted : Prop := Config.lmsVerifies image = true ∧ vget s.fwCounter target 0 ≤ version
      (accepted → exec (.firmwareUpdate target version image) s =
        .next { s with fwRunning := vset s.fwRunning target image, fwCounter := vset s.fwCounter target version }) ∧
      (¬ accepted → ∃ u, exec (.firmwareUpdate target version image) s = .next u ∧ u.fwRunning = s.fwRunning ∧ u.fwCounter = s.fwCounter ∧
        u.devevt.getLsbD 4 = true)) ∧
    (s.otsIndex < 2 ^ 30 → exec .attestation s =
      .next { s with otsIndex := s.otsIndex + 1, attested := s.attested ++ [(s.otsIndex, Config.lmsSignature s.otsIndex)] }) ∧
    (2 ^ 30 ≤ s.otsIndex → exec .attestation s = .next s)

/-! ## Reset, decoding and the step (R75 to R88, R255, R273, R292, R304, R306) -/

/-- R273, R292, R304, R306: what cold reset leaves: no strand, context, waiting launch, task, fence, poisoned word, write in
flight or route, each stack's envelope, the error thresholds, the link grace, and memory in canonical form. That no queue is
enabled and every unit is ACTIVE is the model's choice (log 2). -/
def Obligations.ResetValues : Prop :=
  let s := State.reset
  s.MemOk ∧ s.strands = [] ∧ s.contexts = [] ∧ s.waiting = [] ∧ s.tasks = [] ∧ s.fenced = [] ∧ s.power = [] ∧ s.poison = [] ∧
  s.flight = [] ∧ s.routes = [] ∧ (∀ n < 64, (s.queue n).enable = false) ∧
  (∀ k < 4, let w := (s.stack k).pwrenv
    w.extractLsb' 40 12 = 4095 ∧ w.extractLsb' 32 8 = 95 ∧ w.extractLsb' 16 16 = 0 ∧ w.extractLsb' 8 4 = 15 ∧ w.extractLsb' 4 4 = 15 ∧
    w.extractLsb' 0 4 = 0 ∧ w.extractLsb' 12 4 = 0 ∧ w.extractLsb' 52 12 = 0) ∧
  s.errcfg.extractLsb' 32 16 = 1440 ∧ s.errcfg.extractLsb' 0 8 = 8 ∧ s.linkgrace = 10000000

/-- R1, R75 to R88: words written out from the encoding tables decode to the instructions they stand for. -/
def Obligations.WordsOfTheManual : Prop :=
  let g : Head := { last := true, neg := false, g := 0 }
  let sh : SHead := { last := true, neg := false, g := 0, sync := false, shadow := false }
  decodeSyl 0x9C408040 [] = .ok (.mts sh 8 0x010, []) ∧
  decodeSyl 0x9C00A044 [] = .ok (.mfs sh 10 0x011, []) ∧
  decodeSyl 0xA8003080 [] = .ok (.vmov g (.o 3) (.o 1), []) ∧
  decodeSyl 0xB6001E74 [0x04000003] = .ok (.vrand g (.o 1) .zero .lane true 0 3, []) ∧
  decodeSyl 0xC0804403 [] = .ok (.putOperandImmediate g 2 4 0 3, []) ∧
  decodeSyl 0xD0005320 [] = .ok (.park g (.o 5) 6 8, []) ∧
  decodeSyl 0xEC80000C [] = .ok (.tretSkip g 3, []) ∧
  decodeSyl 0xE8800030 [] = .ok (.acqp g 12, []) ∧
  decodeSyl 0xE8400298 [] = .ok (.deadline g 5 6, []) ∧
  decodeSyl 0xEC00048C [] = .ok (.trap g 9 3, [])

/-- R75 to R88: the decoder reads back every operand of every well-formed instruction, at every value its encoding admits, and
leaves the words that follow it; and a word and its literals have no other reading: what decodes is well formed and encodes to
them. -/
def Obligations.DecodingAndEncodingAgree : Prop :=
  (∀ (i : Instr) (w : W32) (ws rest : List W32), i.wf = true → encode i = w :: ws → decodeSyl w (ws ++ rest) = .ok (i, rest)) ∧
  ∀ (w : W32) (ls rest : List W32) (i : Instr), decodeSyl w ls = .ok (i, rest) → i.wf = true ∧ encode i ++ rest = w :: ls

/-- R74 to R77, R89, R92, R244, R255: where the schedule comes to a cluster's bundle, the next step runs each decoded syllable
in turn in the context of that bundle, and then the cluster's sequence moves on unless a transfer has moved it; a bundle that
TRET.SKIP skips only passes. The bundle is the one that the bytes of the instruction lines at the address decode to. R286,
R239: in scoreboard mode a bundle without Shadow, and in a handler every bundle, runs on its core as it is once what was issued
before has landed; R282: any other without Shadow sees what a drain has landed. That those results take their own beats in the
stores is the model's reading (log 16). A bundle in a line that an error has struck raises POISON and does nothing else, and
one whose syllables read what an error has struck raises POISON beside what they do (R290; the elements' numbers are log 68's).
An event of the schedule and an input whose time has come run their instruction, and an event by which an engine reads sees
what a drain has landed; with nothing to do a nanosecond passes. That one step takes the head of the schedule, else a due
input, else a nanosecond, is the model's choice (log 4). -/
def Obligations.AStepRunsTheDecodedBundle : Prop :=
  let drained (t : Strand) : Prop := ∃ co ∈ t.cores, ∃ e ∈ co.agenda, e.drained = true
  let shown (s : State) (t : Strand) : State := s.modStrand t.sid fun y => { y with cores := t.cores.map Core.drainedSeen }
  let back (u : State) (t : Strand) : State := u.modStrand t.sid fun y =>
    { y with cores := List.zipWith (fun c o => c.unsettled o.1 o.2) y.cores ((t.cores.map Core.drainedSeen).zip t.cores) }
  (∀ (s u : State) (r : CRef) (js : List Job) (t : Strand) (co : Core) (b : Bundle), s.todo = .issue r :: js →
    s.strand? r.strand = some t → t.cores[r.core]? = some co →
    let c := co.cluster r.cl
    let handler := t.status == .handler
    let f := bundleFlags b
    let unstruck : Prop := c.struck = [] ∧ co.marks = []
    let bad (ls : List Line) (n : Nat) : Prop := c.seq.pc < 64 * n + 64 ∧ 64 * n < c.seq.pc + 4 * b.len ∧ lineBad ls n = true
    let cur : Cur := { sid := t.sid, core := r.core, cl := r.cl, beat := t.beat, pc := c.seq.pc, next := c.seq.pc + 4 * b.len,
                       shadow := f.1, handler, moved := false }
    (t.status ≠ .handler → c.skip ≠ 0 → c.halted = false →
      step s = .next ({ s with todo := js }.modStrand t.sid fun t => t.modCl r.core r.cl fun c => c.skipOne t.beat)) ∧
    (t.status ≠ .handler → fetchL0 (c.issueLines t.beat) c.seq.pc = .bundle b → c.issues t.beat = true → c.skip = 0 →
      (f.1 = true → c.shadowRun < 64) → ∀ n, bad (c.issueLines t.beat) n → (∀ m < n, ¬ bad (c.issueLines t.beat) m) →
      ∃ v y x, step s = .next v ∧ v.strand? t.sid = some y ∧ y.raised = t.raised ++ [x] ∧ x.code = 0x0015 ∧ x.kind = .p ∧
        x.core = r.core ∧ x.cl = r.cl ∧ x.addr = BitVec.ofNat 64 (max c.seq.pc (64 * n)) ∧ v.mem = s.mem) ∧
    (t.status ≠ .handler → fetchL0 (c.issueLines t.beat) c.seq.pc = .bundle b → (∀ n, ¬ bad (c.issueLines t.beat) n) →
      c.seq.crosses (4 * b.len) = false → c.issues t.beat = true → c.skip = 0 → (f.1 = true → c.shadowRun < 64) →
      let begin_ : State := { s with todo := js, cur := some cur }
      (f.1 = true ∨ c.horizon ≤ t.beat ∧ ¬ drained t → runsTo b.syls begin_ u →
        let here : View := { cur, st := t, co, cl := c }
        let v : State := match b.syls.findSome? (co.strikes r.cl) with
          | some e => here.raise u cPoison (BitVec.ofNat 64 e)
          | none => u
        step s = .next (v.bundleEnds r cur.pc (4 * b.len) t.beat f.2 f.1)) ∧
      (f.1 = false → c.horizon ≤ t.beat → drained t → unstruck → runsTo b.syls (shown begin_ t) u →
        step s = .next ((back u t).bundleEnds r cur.pc (4 * b.len) t.beat f.2 f.1)) ∧
      (t.beat < c.horizon → f.1 = false → unstruck →
        let more := begin_.toCopy t r.core
        let seen : Core := { (co.settled ((s.snap.map fun o => o.cores[r.core]?).join)).withLanded more with
                             coming := co.tagsMet (co.agenda ++ more) }
        runsTo b.syls (begin_.withCore r fun _ => seen) u →
          step s = .next ((u.withCore r fun c => c.unsettled seen co).bundleEnds r cur.pc (4 * b.len) t.beat f.2 f.1))) ∧
    (t.status = .handler → fetchL0 c.l0 c.seq.pc = .bundle b → (∀ n, ¬ bad c.l0 n) → c.seq.crosses (4 * b.len) = false → c.skip = 0 →
      c.handlerReady = true → unstruck →
      let free (co : Core) : Core := co.modCl r.cl fun c => { c with waits := c.waits.filter fun w => w.handler != c.depth }
      let begin_ : State := { s with todo := js, snap := some t, cur := some cur }.withCore r free
      let more := begin_.toCopy (t.modCore r.core free) r.core
      let seen : Core := { ((free co).settled (some co)).withLanded more with coming := tagsOf ((free co).agenda ++ more) }
      runsTo b.syls (begin_.withCore r fun _ => seen) u →
        let v := (u.withCore r fun c => c.unsettled seen (free co)).bundleEnds r cur.pc (4 * b.len) t.beat false false
        (∀ y, v.strand? t.sid = some y → y.faulted r = false) → step s = .next (v.landNew r t))) ∧
  (∀ (c : Cluster) (x len : Nat) (moved sync shadow : Bool),
    (c.issued' x len moved sync shadow).seq = if moved then c.seq else c.seq.advance len) ∧
  (∀ (ls : List Line) (pc : Nat) (a b : List Byte) (x : Bundle), pc % 4 = 0 → lineBytes ls (pc / 64) = some a → a.length = 64 →
    (pc % 64 + 32 ≤ 64 → decodeBytes ((a.drop (pc % 64)).take 32) = .ok x → fetchL0 ls pc = .bundle x) ∧
    (lineBytes ls (pc / 64 + 1) = some b → b.length = 64 → decodeBytes (((a ++ b).drop (pc % 64)).take 32) = .ok x →
      fetchL0 ls pc = .bundle x)) ∧
  (∀ (s u : State) (e : Ev) (js : List Job), s.todo = .ev e :: js →
    ((∀ sid t, e.reader = some sid → s.strand? sid = some t → ¬ drained t) → runEv e { s with todo := js } = .next u → step s = .next u) ∧
    ∀ sid t, e.reader = some sid → s.strand? sid = some t → drained t → runEv e (shown { s with todo := js } t) = .next u →
      step s = .next (back u t)) ∧
  (∀ (s : State) (n : Nat) (i : Instr) (is : List (Nat × Instr)), s.todo = [] → s.inputs = (n, i) :: is → n ≤ s.wtime →
    step s = exec i { s with inputs := is }) ∧
  ∀ s : State, s.todo = [] → (∀ e ∈ s.inputs.head?, s.wtime < e.1) → ∃ u, step s = .next u ∧ u.wtime = s.wtime + 1 ∧ u.mem = s.mem ∧
    u.strands = s.strands

/-- R257, R261, R305: whatever a step does, memory stays a list of addresses strictly rising that lists no byte equal to what
an unlisted address reads as. That an unlisted address reads 0 is the model's choice (log 1). -/
def Obligations.EveryStepKeepsMemoryCanonical : Prop :=
  ∀ s t : State, s.MemOk → step s = .next t → t.MemOk
end

