-- ==== Sys2Proof/Laws/Memory.lean ====
section
/-! SUPPORT. Sparse stores and memory: reading after writing, and that every memory operation keeps the canonical form. -/

namespace Sys2Proof.Machine

variable {w : Nat}

/-! ## Sparse stores -/

@[simp] theorem Sparse.wfFrom_nil (lo : Nat) : Sparse.wfFrom (w := w) lo [] = true := rfl

theorem Sparse.wfFrom_cons (lo a : Nat) (x : BitVec w) (m : Sparse w) :
    Sparse.wfFrom lo ((a, x) :: m) = true ↔ lo ≤ a ∧ x ≠ 0 ∧ Sparse.wfFrom (a + 1) m = true := by
  simp [Sparse.wfFrom, and_assoc]

theorem Sparse.wfFrom_mono {lo hi : Nat} (h : lo ≤ hi) {m : Sparse w} (hm : Sparse.wfFrom hi m = true) :
    Sparse.wfFrom lo m = true := by
  cases m with
  | nil => rfl
  | cons c m =>
    obtain ⟨a, x⟩ := c
    rw [Sparse.wfFrom_cons] at *
    exact ⟨h.trans hm.1, hm.2⟩

/-- Dropping entries keeps the canonical form. -/
theorem Sparse.filter_wfFrom {m : Sparse w} {lo : Nat} (f : Nat × BitVec w → Bool) (hm : Sparse.wfFrom lo m = true) :
    Sparse.wfFrom lo (m.filter f) = true := by
  induction m generalizing lo with
  | nil => rfl
  | cons c m ih =>
    have h := (Sparse.wfFrom_cons lo c.1 c.2 m).1 hm
    cases hf : f c with
    | false => simpa [hf] using Sparse.wfFrom_mono (by omega) (ih h.2.2)
    | true =>
      rw [List.filter_cons_of_pos hf]
      exact (Sparse.wfFrom_cons lo c.1 c.2 _).2 ⟨h.1, h.2.1, ih h.2.2⟩

theorem Sparse.clear_wfFrom {m : Sparse w} {lo : Nat} (f : Nat → Bool) (hm : Sparse.wfFrom lo m = true) :
    Sparse.wfFrom lo (Sparse.clear m f) = true :=
  Sparse.filter_wfFrom _ hm

theorem Sparse.put_wfFrom {m : Sparse w} {lo k : Nat} {v : BitVec w} (hv : v ≠ 0) (hm : Sparse.wfFrom lo m = true)
    (hk : lo ≤ k) : Sparse.wfFrom lo (Sparse.put m k v) = true := by
  induction m generalizing lo with
  | nil => exact (Sparse.wfFrom_cons lo k v []).2 ⟨hk, hv, rfl⟩
  | cons c m ih =>
    obtain ⟨a, x⟩ := c
    have h := (Sparse.wfFrom_cons lo a x m).1 hm
    unfold Sparse.put
    split
    · exact (Sparse.wfFrom_cons _ _ _ _).2 ⟨hk, hv, (Sparse.wfFrom_cons _ _ _ _).2 ⟨by omega, h.2⟩⟩
    · split
      · rename_i he
        obtain rfl : k = a := by simpa using he
        exact (Sparse.wfFrom_cons _ _ _ _).2 ⟨hk, hv, h.2.2⟩
      · rename_i hlt he
        have : k ≠ a := by simpa using he
        exact (Sparse.wfFrom_cons _ _ _ _).2 ⟨h.1, h.2.1, ih h.2.2 (by omega)⟩

/-- A write keeps the canonical form. -/
theorem Sparse.set_wfFrom {m : Sparse w} {k : Nat} (v : BitVec w) (hm : Sparse.wfFrom 0 m = true) :
    Sparse.wfFrom 0 (Sparse.set m k v) = true := by
  unfold Sparse.set
  split
  · exact Sparse.filter_wfFrom _ hm
  · rename_i hv
    exact Sparse.put_wfFrom (by simpa using hv) hm (Nat.zero_le k)

theorem Sparse.get_filter_ne (m : Sparse w) (k j : Nat) :
    Sparse.get (m.filter fun c => c.1 != k) j = if j = k then 0 else Sparse.get m j := by
  induction m with
  | nil => simp [Sparse.get]
  | cons c m ih =>
    obtain ⟨a, x⟩ := c
    by_cases ha : a = k
    · subst ha
      by_cases hj : j = a
      · subst hj
        simpa using ih
      · have : a ≠ j := fun h => hj h.symm
        simp [ih, hj, Sparse.get, this]
    · by_cases hj : j = k
      · subst hj
        simpa [ha, Sparse.get] using ih
      · by_cases haj : a = j <;> simp [ha, Sparse.get, ih, hj, haj]

theorem Sparse.get_put (m : Sparse w) (k j : Nat) (v : BitVec w) :
    Sparse.get (Sparse.put m k v) j = if j = k then v else Sparse.get m j := by
  induction m with
  | nil =>
    by_cases hj : j = k
    · simp [Sparse.put, Sparse.get, hj]
    · have : k ≠ j := fun h => hj h.symm
      simp [Sparse.put, Sparse.get, hj, this]
  | cons c m ih =>
    obtain ⟨a, x⟩ := c
    unfold Sparse.put
    split
    · by_cases hj : j = k
      · simp [Sparse.get, hj]
      · have : k ≠ j := fun h => hj h.symm
        simp [Sparse.get, hj, this]
    · split
      · rename_i he
        obtain rfl : k = a := by simpa using he
        by_cases hj : j = k
        · simp [Sparse.get, hj]
        · have : k ≠ j := fun h => hj h.symm
          simp [Sparse.get, hj, this]
      · rename_i he
        have hka : k ≠ a := by simpa using he
        by_cases haj : a = j
        · have : j ≠ k := fun h => hka (h ▸ haj.symm)
          simp [Sparse.get, haj, this]
        · simp [Sparse.get, haj, ih]

/-- Reading after a write: the value written at its key, and what stood before at every other. -/
@[simp] theorem Sparse.get_set (m : Sparse w) (k j : Nat) (v : BitVec w) :
    Sparse.get (Sparse.set m k v) j = if j = k then v else Sparse.get m j := by
  unfold Sparse.set
  split
  · rename_i hv
    rw [Sparse.get_filter_ne, eq_of_beq hv]
  · exact Sparse.get_put m k j v

theorem Sparse.setAll_wf {m : Sparse w} (cells : List (Nat × BitVec w)) (hm : Sparse.wfFrom 0 m = true) :
    Sparse.wfFrom 0 (Sparse.setAll m cells) = true := by
  unfold Sparse.setAll
  induction cells generalizing m with
  | nil => exact hm
  | cons c cs ih => exact ih (Sparse.set_wfFrom c.2 hm)

/-- Writing many keys leaves alone every key that is not among them. -/
theorem Sparse.get_setAll_ne (m : Sparse w) (cells : List (Nat × BitVec w)) {j : Nat} (hj : ∀ c ∈ cells, c.1 ≠ j) :
    Sparse.get (Sparse.setAll m cells) j = Sparse.get m j := by
  unfold Sparse.setAll
  induction cells generalizing m with
  | nil => rfl
  | cons c cs ih =>
    rw [List.foldl_cons, ih _ fun d hd => hj d (List.mem_cons_of_mem _ hd), Sparse.get_set, if_neg]
    exact fun h => hj c List.mem_cons_self h.symm

/-! ## Memory -/

/-- A write at device scope keeps memory's form. -/
theorem State.busWrite_memOk {s : State} (cells : List (Nat × Byte)) (h : s.MemOk) : (s.busWrite cells).MemOk :=
  Sparse.setAll_wf _ h

theorem State.busPut_memOk {s : State} (b n v : Nat) (h : s.MemOk) : (s.busPut b n v).MemOk :=
  State.busWrite_memOk _ h

/-- A flight that enters memory keeps memory's form. -/
theorem State.settle_memOk {s : State} (id : Nat) (h : s.MemOk) : (s.settle id).MemOk := by
  unfold State.settle
  split
  · exact h
  · exact Sparse.setAll_wf _ h

/-- Flights that enter memory one after another keep memory's form. -/
theorem State.settles_memOk (fs : List Flight) : ∀ {s : State}, s.MemOk → (fs.foldl (fun s f => s.settle f.id) s).MemOk := by
  induction fs with
  | nil => exact id
  | cons f fs ih => exact fun h => ih (State.settle_memOk f.id h)

theorem State.settleAll_memOk {s : State} (want : Flight → Bool) (h : s.MemOk) : (s.settleAll want).MemOk :=
  State.settles_memOk _ h

/-- A timed write keeps memory's form. -/
theorem State.timedWrite_memOk {s : State} (cells : List (Nat × Byte)) (h : s.MemOk) : (s.timedWrite cells).MemOk :=
  Sparse.setAll_wf _ (State.settles_memOk _ h)

theorem State.dispStore_memOk {s t : State} {ctx : Nat} {va v : W64} (h : s.MemOk) (ht : s.dispStore ctx va v = some t) :
    t.MemOk := by
  unfold State.dispStore at ht
  cases hx : s.dispAt ctx va true with
  | none => rw [hx] at ht; cases ht
  | some b =>
    rw [hx] at ht
    cases ht
    exact State.busPut_memOk b 8 v.toNat h

/-- What survives the loss of power is in canonical form. -/
theorem State.cold_memOk {s : State} (h : s.MemOk) : s.cold.MemOk := Sparse.filter_wfFrom _ h

theorem State.reset_memOk : State.reset.MemOk := rfl

end Sys2Proof.Machine
end

