-- ==== Sys2Proof/Laws/State.lean ====
section
/-! SUPPORT. One lemma per field and update: what each update of the state, of a strand, a core and a cluster leaves as it was,
and what it writes; then the look-ups after an update. -/

namespace Sys2Proof.Machine

/-! ## Fields -/

/-! ### `State.modStrand` -/

@[simp] theorem State.modStrand_wtime (s : State) (n : Nat) (f : Strand → Strand) : (s.modStrand n f).wtime = s.wtime := rfl
@[simp] theorem State.modStrand_mem (s : State) (n : Nat) (f : Strand → Strand) : (s.modStrand n f).mem = s.mem := rfl
@[simp] theorem State.modStrand_poison (s : State) (n : Nat) (f : Strand → Strand) : (s.modStrand n f).poison = s.poison := rfl
@[simp] theorem State.modStrand_flight (s : State) (n : Nat) (f : Strand → Strand) : (s.modStrand n f).flight = s.flight := rfl
@[simp] theorem State.modStrand_stks (s : State) (n : Nat) (f : Strand → Strand) : (s.modStrand n f).stks = s.stks := rfl
@[simp] theorem State.modStrand_strands (s : State) (n : Nat) (f : Strand → Strand) : (s.modStrand n f).strands = s.strands.map fun t => if t.sid == n then f t else t := rfl
@[simp] theorem State.modStrand_nextSid (s : State) (n : Nat) (f : Strand → Strand) : (s.modStrand n f).nextSid = s.nextSid := rfl
@[simp] theorem State.modStrand_nextNum (s : State) (n : Nat) (f : Strand → Strand) : (s.modStrand n f).nextNum = s.nextNum := rfl
@[simp] theorem State.modStrand_contexts (s : State) (n : Nat) (f : Strand → Strand) : (s.modStrand n f).contexts = s.contexts := rfl
@[simp] theorem State.modStrand_queues (s : State) (n : Nat) (f : Strand → Strand) : (s.modStrand n f).queues = s.queues := rfl
@[simp] theorem State.modStrand_rr (s : State) (n : Nat) (f : Strand → Strand) : (s.modStrand n f).rr = s.rr := rfl
@[simp] theorem State.modStrand_waiting (s : State) (n : Nat) (f : Strand → Strand) : (s.modStrand n f).waiting = s.waiting := rfl
@[simp] theorem State.modStrand_tasks (s : State) (n : Nat) (f : Strand → Strand) : (s.modStrand n f).tasks = s.tasks := rfl
@[simp] theorem State.modStrand_replays (s : State) (n : Nat) (f : Strand → Strand) : (s.modStrand n f).replays = s.replays := rfl
@[simp] theorem State.modStrand_after (s : State) (n : Nat) (f : Strand → Strand) : (s.modStrand n f).after = s.after := rfl
@[simp] theorem State.modStrand_saved (s : State) (n : Nat) (f : Strand → Strand) : (s.modStrand n f).saved = s.saved := rfl
@[simp] theorem State.modStrand_images (s : State) (n : Nat) (f : Strand → Strand) : (s.modStrand n f).images = s.images := rfl
@[simp] theorem State.modStrand_ctxtab (s : State) (n : Nat) (f : Strand → Strand) : (s.modStrand n f).ctxtab = s.ctxtab := rfl
@[simp] theorem State.modStrand_ctxcmd (s : State) (n : Nat) (f : Strand → Strand) : (s.modStrand n f).ctxcmd = s.ctxcmd := rfl
@[simp] theorem State.modStrand_pecmd (s : State) (n : Nat) (f : Strand → Strand) : (s.modStrand n f).pecmd = s.pecmd := rfl
@[simp] theorem State.modStrand_peaddr (s : State) (n : Nat) (f : Strand → Strand) : (s.modStrand n f).peaddr = s.peaddr := rfl
@[simp] theorem State.modStrand_holding (s : State) (n : Nat) (f : Strand → Strand) : (s.modStrand n f).holding = s.holding := rfl
@[simp] theorem State.modStrand_drefv (s : State) (n : Nat) (f : Strand → Strand) : (s.modStrand n f).drefv = s.drefv := rfl
@[simp] theorem State.modStrand_drefc (s : State) (n : Nat) (f : Strand → Strand) : (s.modStrand n f).drefc = s.drefc := rfl
@[simp] theorem State.modStrand_tlbaddr (s : State) (n : Nat) (f : Strand → Strand) : (s.modStrand n f).tlbaddr = s.tlbaddr := rfl
@[simp] theorem State.modStrand_tlbinv (s : State) (n : Nat) (f : Strand → Strand) : (s.modStrand n f).tlbinv = s.tlbinv := rfl
@[simp] theorem State.modStrand_mbxdata (s : State) (n : Nat) (f : Strand → Strand) : (s.modStrand n f).mbxdata = s.mbxdata := rfl
@[simp] theorem State.modStrand_mbxctl (s : State) (n : Nat) (f : Strand → Strand) : (s.modStrand n f).mbxctl = s.mbxctl := rfl
@[simp] theorem State.modStrand_resetcmd (s : State) (n : Nat) (f : Strand → Strand) : (s.modStrand n f).resetcmd = s.resetcmd := rfl
@[simp] theorem State.modStrand_resetting (s : State) (n : Nat) (f : Strand → Strand) : (s.modStrand n f).resetting = s.resetting := rfl
@[simp] theorem State.modStrand_powered (s : State) (n : Nat) (f : Strand → Strand) : (s.modStrand n f).powered = s.powered := rfl
@[simp] theorem State.modStrand_linkUp (s : State) (n : Nat) (f : Strand → Strand) : (s.modStrand n f).linkUp = s.linkUp := rfl
@[simp] theorem State.modStrand_linkLost (s : State) (n : Nat) (f : Strand → Strand) : (s.modStrand n f).linkLost = s.linkLost := rfl
@[simp] theorem State.modStrand_linkHolding (s : State) (n : Nat) (f : Strand → Strand) : (s.modStrand n f).linkHolding = s.linkHolding := rfl
@[simp] theorem State.modStrand_linkgrace (s : State) (n : Nat) (f : Strand → Strand) : (s.modStrand n f).linkgrace = s.linkgrace := rfl
@[simp] theorem State.modStrand_lostAt (s : State) (n : Nat) (f : Strand → Strand) : (s.modStrand n f).lostAt = s.lostAt := rfl
@[simp] theorem State.modStrand_devevt (s : State) (n : Nat) (f : Strand → Strand) : (s.modStrand n f).devevt = s.devevt := rfl
@[simp] theorem State.modStrand_ctxevt (s : State) (n : Nat) (f : Strand → Strand) : (s.modStrand n f).ctxevt = s.ctxevt := rfl
@[simp] theorem State.modStrand_msix (s : State) (n : Nat) (f : Strand → Strand) : (s.modStrand n f).msix = s.msix := rfl
@[simp] theorem State.modStrand_pwrcmd (s : State) (n : Nat) (f : Strand → Strand) : (s.modStrand n f).pwrcmd = s.pwrcmd := rfl
@[simp] theorem State.modStrand_power (s : State) (n : Nat) (f : Strand → Strand) : (s.modStrand n f).power = s.power := rfl
@[simp] theorem State.modStrand_powerHist (s : State) (n : Nat) (f : Strand → Strand) : (s.modStrand n f).powerHist = s.powerHist := rfl
@[simp] theorem State.modStrand_tripped (s : State) (n : Nat) (f : Strand → Strand) : (s.modStrand n f).tripped = s.tripped := rfl
@[simp] theorem State.modStrand_errcfg (s : State) (n : Nat) (f : Strand → Strand) : (s.modStrand n f).errcfg = s.errcfg := rfl
@[simp] theorem State.modStrand_errs (s : State) (n : Nat) (f : Strand → Strand) : (s.modStrand n f).errs = s.errs := rfl
@[simp] theorem State.modStrand_fenced (s : State) (n : Nat) (f : Strand → Strand) : (s.modStrand n f).fenced = s.fenced := rfl
@[simp] theorem State.modStrand_retentionLost (s : State) (n : Nat) (f : Strand → Strand) : (s.modStrand n f).retentionLost = s.retentionLost := rfl
@[simp] theorem State.modStrand_exports (s : State) (n : Nat) (f : Strand → Strand) : (s.modStrand n f).exports = s.exports := rfl
@[simp] theorem State.modStrand_routes (s : State) (n : Nat) (f : Strand → Strand) : (s.modStrand n f).routes = s.routes := rfl
@[simp] theorem State.modStrand_ports (s : State) (n : Nat) (f : Strand → Strand) : (s.modStrand n f).ports = s.ports := rfl
@[simp] theorem State.modStrand_portReplays (s : State) (n : Nat) (f : Strand → Strand) : (s.modStrand n f).portReplays = s.portReplays := rfl
@[simp] theorem State.modStrand_doorbells (s : State) (n : Nat) (f : Strand → Strand) : (s.modStrand n f).doorbells = s.doorbells := rfl
@[simp] theorem State.modStrand_fwRunning (s : State) (n : Nat) (f : Strand → Strand) : (s.modStrand n f).fwRunning = s.fwRunning := rfl
@[simp] theorem State.modStrand_fwCounter (s : State) (n : Nat) (f : Strand → Strand) : (s.modStrand n f).fwCounter = s.fwCounter := rfl
@[simp] theorem State.modStrand_otsIndex (s : State) (n : Nat) (f : Strand → Strand) : (s.modStrand n f).otsIndex = s.otsIndex := rfl
@[simp] theorem State.modStrand_attested (s : State) (n : Nat) (f : Strand → Strand) : (s.modStrand n f).attested = s.attested := rfl
@[simp] theorem State.modStrand_hostOut (s : State) (n : Nat) (f : Strand → Strand) : (s.modStrand n f).hostOut = s.hostOut := rfl
@[simp] theorem State.modStrand_hostBad (s : State) (n : Nat) (f : Strand → Strand) : (s.modStrand n f).hostBad = s.hostBad := rfl
@[simp] theorem State.modStrand_sent (s : State) (n : Nat) (f : Strand → Strand) : (s.modStrand n f).sent = s.sent := rfl
@[simp] theorem State.modStrand_cur (s : State) (n : Nat) (f : Strand → Strand) : (s.modStrand n f).cur = s.cur := rfl
@[simp] theorem State.modStrand_snap (s : State) (n : Nat) (f : Strand → Strand) : (s.modStrand n f).snap = s.snap := rfl
@[simp] theorem State.modStrand_snapSteps (s : State) (n : Nat) (f : Strand → Strand) : (s.modStrand n f).snapSteps = s.snapSteps := rfl
@[simp] theorem State.modStrand_todo (s : State) (n : Nat) (f : Strand → Strand) : (s.modStrand n f).todo = s.todo := rfl
@[simp] theorem State.modStrand_inputs (s : State) (n : Nat) (f : Strand → Strand) : (s.modStrand n f).inputs = s.inputs := rfl
@[simp] theorem State.modStrand_freeCtr (s : State) (n : Nat) (f : Strand → Strand) : (s.modStrand n f).freeCtr = s.freeCtr := rfl

/-! ### `State.modStack` -/

@[simp] theorem State.modStack_wtime (s : State) (k : Nat) (f : Stack → Stack) : (s.modStack k f).wtime = s.wtime := rfl
@[simp] theorem State.modStack_mem (s : State) (k : Nat) (f : Stack → Stack) : (s.modStack k f).mem = s.mem := rfl
@[simp] theorem State.modStack_poison (s : State) (k : Nat) (f : Stack → Stack) : (s.modStack k f).poison = s.poison := rfl
@[simp] theorem State.modStack_flight (s : State) (k : Nat) (f : Stack → Stack) : (s.modStack k f).flight = s.flight := rfl
@[simp] theorem State.modStack_stks (s : State) (k : Nat) (f : Stack → Stack) : (s.modStack k f).stks = vset s.stks k (f (s.stack k)) := rfl
@[simp] theorem State.modStack_strands (s : State) (k : Nat) (f : Stack → Stack) : (s.modStack k f).strands = s.strands := rfl
@[simp] theorem State.modStack_nextSid (s : State) (k : Nat) (f : Stack → Stack) : (s.modStack k f).nextSid = s.nextSid := rfl
@[simp] theorem State.modStack_nextNum (s : State) (k : Nat) (f : Stack → Stack) : (s.modStack k f).nextNum = s.nextNum := rfl
@[simp] theorem State.modStack_contexts (s : State) (k : Nat) (f : Stack → Stack) : (s.modStack k f).contexts = s.contexts := rfl
@[simp] theorem State.modStack_queues (s : State) (k : Nat) (f : Stack → Stack) : (s.modStack k f).queues = s.queues := rfl
@[simp] theorem State.modStack_rr (s : State) (k : Nat) (f : Stack → Stack) : (s.modStack k f).rr = s.rr := rfl
@[simp] theorem State.modStack_waiting (s : State) (k : Nat) (f : Stack → Stack) : (s.modStack k f).waiting = s.waiting := rfl
@[simp] theorem State.modStack_tasks (s : State) (k : Nat) (f : Stack → Stack) : (s.modStack k f).tasks = s.tasks := rfl
@[simp] theorem State.modStack_replays (s : State) (k : Nat) (f : Stack → Stack) : (s.modStack k f).replays = s.replays := rfl
@[simp] theorem State.modStack_after (s : State) (k : Nat) (f : Stack → Stack) : (s.modStack k f).after = s.after := rfl
@[simp] theorem State.modStack_saved (s : State) (k : Nat) (f : Stack → Stack) : (s.modStack k f).saved = s.saved := rfl
@[simp] theorem State.modStack_images (s : State) (k : Nat) (f : Stack → Stack) : (s.modStack k f).images = s.images := rfl
@[simp] theorem State.modStack_ctxtab (s : State) (k : Nat) (f : Stack → Stack) : (s.modStack k f).ctxtab = s.ctxtab := rfl
@[simp] theorem State.modStack_ctxcmd (s : State) (k : Nat) (f : Stack → Stack) : (s.modStack k f).ctxcmd = s.ctxcmd := rfl
@[simp] theorem State.modStack_pecmd (s : State) (k : Nat) (f : Stack → Stack) : (s.modStack k f).pecmd = s.pecmd := rfl
@[simp] theorem State.modStack_peaddr (s : State) (k : Nat) (f : Stack → Stack) : (s.modStack k f).peaddr = s.peaddr := rfl
@[simp] theorem State.modStack_holding (s : State) (k : Nat) (f : Stack → Stack) : (s.modStack k f).holding = s.holding := rfl
@[simp] theorem State.modStack_drefv (s : State) (k : Nat) (f : Stack → Stack) : (s.modStack k f).drefv = s.drefv := rfl
@[simp] theorem State.modStack_drefc (s : State) (k : Nat) (f : Stack → Stack) : (s.modStack k f).drefc = s.drefc := rfl
@[simp] theorem State.modStack_tlbaddr (s : State) (k : Nat) (f : Stack → Stack) : (s.modStack k f).tlbaddr = s.tlbaddr := rfl
@[simp] theorem State.modStack_tlbinv (s : State) (k : Nat) (f : Stack → Stack) : (s.modStack k f).tlbinv = s.tlbinv := rfl
@[simp] theorem State.modStack_mbxdata (s : State) (k : Nat) (f : Stack → Stack) : (s.modStack k f).mbxdata = s.mbxdata := rfl
@[simp] theorem State.modStack_mbxctl (s : State) (k : Nat) (f : Stack → Stack) : (s.modStack k f).mbxctl = s.mbxctl := rfl
@[simp] theorem State.modStack_resetcmd (s : State) (k : Nat) (f : Stack → Stack) : (s.modStack k f).resetcmd = s.resetcmd := rfl
@[simp] theorem State.modStack_resetting (s : State) (k : Nat) (f : Stack → Stack) : (s.modStack k f).resetting = s.resetting := rfl
@[simp] theorem State.modStack_powered (s : State) (k : Nat) (f : Stack → Stack) : (s.modStack k f).powered = s.powered := rfl
@[simp] theorem State.modStack_linkUp (s : State) (k : Nat) (f : Stack → Stack) : (s.modStack k f).linkUp = s.linkUp := rfl
@[simp] theorem State.modStack_linkLost (s : State) (k : Nat) (f : Stack → Stack) : (s.modStack k f).linkLost = s.linkLost := rfl
@[simp] theorem State.modStack_linkHolding (s : State) (k : Nat) (f : Stack → Stack) : (s.modStack k f).linkHolding = s.linkHolding := rfl
@[simp] theorem State.modStack_linkgrace (s : State) (k : Nat) (f : Stack → Stack) : (s.modStack k f).linkgrace = s.linkgrace := rfl
@[simp] theorem State.modStack_lostAt (s : State) (k : Nat) (f : Stack → Stack) : (s.modStack k f).lostAt = s.lostAt := rfl
@[simp] theorem State.modStack_devevt (s : State) (k : Nat) (f : Stack → Stack) : (s.modStack k f).devevt = s.devevt := rfl
@[simp] theorem State.modStack_ctxevt (s : State) (k : Nat) (f : Stack → Stack) : (s.modStack k f).ctxevt = s.ctxevt := rfl
@[simp] theorem State.modStack_msix (s : State) (k : Nat) (f : Stack → Stack) : (s.modStack k f).msix = s.msix := rfl
@[simp] theorem State.modStack_pwrcmd (s : State) (k : Nat) (f : Stack → Stack) : (s.modStack k f).pwrcmd = s.pwrcmd := rfl
@[simp] theorem State.modStack_power (s : State) (k : Nat) (f : Stack → Stack) : (s.modStack k f).power = s.power := rfl
@[simp] theorem State.modStack_powerHist (s : State) (k : Nat) (f : Stack → Stack) : (s.modStack k f).powerHist = s.powerHist := rfl
@[simp] theorem State.modStack_tripped (s : State) (k : Nat) (f : Stack → Stack) : (s.modStack k f).tripped = s.tripped := rfl
@[simp] theorem State.modStack_errcfg (s : State) (k : Nat) (f : Stack → Stack) : (s.modStack k f).errcfg = s.errcfg := rfl
@[simp] theorem State.modStack_errs (s : State) (k : Nat) (f : Stack → Stack) : (s.modStack k f).errs = s.errs := rfl
@[simp] theorem State.modStack_fenced (s : State) (k : Nat) (f : Stack → Stack) : (s.modStack k f).fenced = s.fenced := rfl
@[simp] theorem State.modStack_retentionLost (s : State) (k : Nat) (f : Stack → Stack) : (s.modStack k f).retentionLost = s.retentionLost := rfl
@[simp] theorem State.modStack_exports (s : State) (k : Nat) (f : Stack → Stack) : (s.modStack k f).exports = s.exports := rfl
@[simp] theorem State.modStack_routes (s : State) (k : Nat) (f : Stack → Stack) : (s.modStack k f).routes = s.routes := rfl
@[simp] theorem State.modStack_ports (s : State) (k : Nat) (f : Stack → Stack) : (s.modStack k f).ports = s.ports := rfl
@[simp] theorem State.modStack_portReplays (s : State) (k : Nat) (f : Stack → Stack) : (s.modStack k f).portReplays = s.portReplays := rfl
@[simp] theorem State.modStack_doorbells (s : State) (k : Nat) (f : Stack → Stack) : (s.modStack k f).doorbells = s.doorbells := rfl
@[simp] theorem State.modStack_fwRunning (s : State) (k : Nat) (f : Stack → Stack) : (s.modStack k f).fwRunning = s.fwRunning := rfl
@[simp] theorem State.modStack_fwCounter (s : State) (k : Nat) (f : Stack → Stack) : (s.modStack k f).fwCounter = s.fwCounter := rfl
@[simp] theorem State.modStack_otsIndex (s : State) (k : Nat) (f : Stack → Stack) : (s.modStack k f).otsIndex = s.otsIndex := rfl
@[simp] theorem State.modStack_attested (s : State) (k : Nat) (f : Stack → Stack) : (s.modStack k f).attested = s.attested := rfl
@[simp] theorem State.modStack_hostOut (s : State) (k : Nat) (f : Stack → Stack) : (s.modStack k f).hostOut = s.hostOut := rfl
@[simp] theorem State.modStack_hostBad (s : State) (k : Nat) (f : Stack → Stack) : (s.modStack k f).hostBad = s.hostBad := rfl
@[simp] theorem State.modStack_sent (s : State) (k : Nat) (f : Stack → Stack) : (s.modStack k f).sent = s.sent := rfl
@[simp] theorem State.modStack_cur (s : State) (k : Nat) (f : Stack → Stack) : (s.modStack k f).cur = s.cur := rfl
@[simp] theorem State.modStack_snap (s : State) (k : Nat) (f : Stack → Stack) : (s.modStack k f).snap = s.snap := rfl
@[simp] theorem State.modStack_snapSteps (s : State) (k : Nat) (f : Stack → Stack) : (s.modStack k f).snapSteps = s.snapSteps := rfl
@[simp] theorem State.modStack_todo (s : State) (k : Nat) (f : Stack → Stack) : (s.modStack k f).todo = s.todo := rfl
@[simp] theorem State.modStack_inputs (s : State) (k : Nat) (f : Stack → Stack) : (s.modStack k f).inputs = s.inputs := rfl
@[simp] theorem State.modStack_freeCtr (s : State) (k : Nat) (f : Stack → Stack) : (s.modStack k f).freeCtr = s.freeCtr := rfl

/-! ### `State.modCtx` -/

@[simp] theorem State.modCtx_wtime (s : State) (n : Nat) (f : Context → Context) : (s.modCtx n f).wtime = s.wtime := rfl
@[simp] theorem State.modCtx_mem (s : State) (n : Nat) (f : Context → Context) : (s.modCtx n f).mem = s.mem := rfl
@[simp] theorem State.modCtx_poison (s : State) (n : Nat) (f : Context → Context) : (s.modCtx n f).poison = s.poison := rfl
@[simp] theorem State.modCtx_flight (s : State) (n : Nat) (f : Context → Context) : (s.modCtx n f).flight = s.flight := rfl
@[simp] theorem State.modCtx_stks (s : State) (n : Nat) (f : Context → Context) : (s.modCtx n f).stks = s.stks := rfl
@[simp] theorem State.modCtx_strands (s : State) (n : Nat) (f : Context → Context) : (s.modCtx n f).strands = s.strands := rfl
@[simp] theorem State.modCtx_nextSid (s : State) (n : Nat) (f : Context → Context) : (s.modCtx n f).nextSid = s.nextSid := rfl
@[simp] theorem State.modCtx_nextNum (s : State) (n : Nat) (f : Context → Context) : (s.modCtx n f).nextNum = s.nextNum := rfl
@[simp] theorem State.modCtx_contexts (s : State) (n : Nat) (f : Context → Context) : (s.modCtx n f).contexts = s.contexts.map fun c => if c.num == n then f c else c := rfl
@[simp] theorem State.modCtx_queues (s : State) (n : Nat) (f : Context → Context) : (s.modCtx n f).queues = s.queues := rfl
@[simp] theorem State.modCtx_rr (s : State) (n : Nat) (f : Context → Context) : (s.modCtx n f).rr = s.rr := rfl
@[simp] theorem State.modCtx_waiting (s : State) (n : Nat) (f : Context → Context) : (s.modCtx n f).waiting = s.waiting := rfl
@[simp] theorem State.modCtx_tasks (s : State) (n : Nat) (f : Context → Context) : (s.modCtx n f).tasks = s.tasks := rfl
@[simp] theorem State.modCtx_replays (s : State) (n : Nat) (f : Context → Context) : (s.modCtx n f).replays = s.replays := rfl
@[simp] theorem State.modCtx_after (s : State) (n : Nat) (f : Context → Context) : (s.modCtx n f).after = s.after := rfl
@[simp] theorem State.modCtx_saved (s : State) (n : Nat) (f : Context → Context) : (s.modCtx n f).saved = s.saved := rfl
@[simp] theorem State.modCtx_images (s : State) (n : Nat) (f : Context → Context) : (s.modCtx n f).images = s.images := rfl
@[simp] theorem State.modCtx_ctxtab (s : State) (n : Nat) (f : Context → Context) : (s.modCtx n f).ctxtab = s.ctxtab := rfl
@[simp] theorem State.modCtx_ctxcmd (s : State) (n : Nat) (f : Context → Context) : (s.modCtx n f).ctxcmd = s.ctxcmd := rfl
@[simp] theorem State.modCtx_pecmd (s : State) (n : Nat) (f : Context → Context) : (s.modCtx n f).pecmd = s.pecmd := rfl
@[simp] theorem State.modCtx_peaddr (s : State) (n : Nat) (f : Context → Context) : (s.modCtx n f).peaddr = s.peaddr := rfl
@[simp] theorem State.modCtx_holding (s : State) (n : Nat) (f : Context → Context) : (s.modCtx n f).holding = s.holding := rfl
@[simp] theorem State.modCtx_drefv (s : State) (n : Nat) (f : Context → Context) : (s.modCtx n f).drefv = s.drefv := rfl
@[simp] theorem State.modCtx_drefc (s : State) (n : Nat) (f : Context → Context) : (s.modCtx n f).drefc = s.drefc := rfl
@[simp] theorem State.modCtx_tlbaddr (s : State) (n : Nat) (f : Context → Context) : (s.modCtx n f).tlbaddr = s.tlbaddr := rfl
@[simp] theorem State.modCtx_tlbinv (s : State) (n : Nat) (f : Context → Context) : (s.modCtx n f).tlbinv = s.tlbinv := rfl
@[simp] theorem State.modCtx_mbxdata (s : State) (n : Nat) (f : Context → Context) : (s.modCtx n f).mbxdata = s.mbxdata := rfl
@[simp] theorem State.modCtx_mbxctl (s : State) (n : Nat) (f : Context → Context) : (s.modCtx n f).mbxctl = s.mbxctl := rfl
@[simp] theorem State.modCtx_resetcmd (s : State) (n : Nat) (f : Context → Context) : (s.modCtx n f).resetcmd = s.resetcmd := rfl
@[simp] theorem State.modCtx_resetting (s : State) (n : Nat) (f : Context → Context) : (s.modCtx n f).resetting = s.resetting := rfl
@[simp] theorem State.modCtx_powered (s : State) (n : Nat) (f : Context → Context) : (s.modCtx n f).powered = s.powered := rfl
@[simp] theorem State.modCtx_linkUp (s : State) (n : Nat) (f : Context → Context) : (s.modCtx n f).linkUp = s.linkUp := rfl
@[simp] theorem State.modCtx_linkLost (s : State) (n : Nat) (f : Context → Context) : (s.modCtx n f).linkLost = s.linkLost := rfl
@[simp] theorem State.modCtx_linkHolding (s : State) (n : Nat) (f : Context → Context) : (s.modCtx n f).linkHolding = s.linkHolding := rfl
@[simp] theorem State.modCtx_linkgrace (s : State) (n : Nat) (f : Context → Context) : (s.modCtx n f).linkgrace = s.linkgrace := rfl
@[simp] theorem State.modCtx_lostAt (s : State) (n : Nat) (f : Context → Context) : (s.modCtx n f).lostAt = s.lostAt := rfl
@[simp] theorem State.modCtx_devevt (s : State) (n : Nat) (f : Context → Context) : (s.modCtx n f).devevt = s.devevt := rfl
@[simp] theorem State.modCtx_ctxevt (s : State) (n : Nat) (f : Context → Context) : (s.modCtx n f).ctxevt = s.ctxevt := rfl
@[simp] theorem State.modCtx_msix (s : State) (n : Nat) (f : Context → Context) : (s.modCtx n f).msix = s.msix := rfl
@[simp] theorem State.modCtx_pwrcmd (s : State) (n : Nat) (f : Context → Context) : (s.modCtx n f).pwrcmd = s.pwrcmd := rfl
@[simp] theorem State.modCtx_power (s : State) (n : Nat) (f : Context → Context) : (s.modCtx n f).power = s.power := rfl
@[simp] theorem State.modCtx_powerHist (s : State) (n : Nat) (f : Context → Context) : (s.modCtx n f).powerHist = s.powerHist := rfl
@[simp] theorem State.modCtx_tripped (s : State) (n : Nat) (f : Context → Context) : (s.modCtx n f).tripped = s.tripped := rfl
@[simp] theorem State.modCtx_errcfg (s : State) (n : Nat) (f : Context → Context) : (s.modCtx n f).errcfg = s.errcfg := rfl
@[simp] theorem State.modCtx_errs (s : State) (n : Nat) (f : Context → Context) : (s.modCtx n f).errs = s.errs := rfl
@[simp] theorem State.modCtx_fenced (s : State) (n : Nat) (f : Context → Context) : (s.modCtx n f).fenced = s.fenced := rfl
@[simp] theorem State.modCtx_retentionLost (s : State) (n : Nat) (f : Context → Context) : (s.modCtx n f).retentionLost = s.retentionLost := rfl
@[simp] theorem State.modCtx_exports (s : State) (n : Nat) (f : Context → Context) : (s.modCtx n f).exports = s.exports := rfl
@[simp] theorem State.modCtx_routes (s : State) (n : Nat) (f : Context → Context) : (s.modCtx n f).routes = s.routes := rfl
@[simp] theorem State.modCtx_ports (s : State) (n : Nat) (f : Context → Context) : (s.modCtx n f).ports = s.ports := rfl
@[simp] theorem State.modCtx_portReplays (s : State) (n : Nat) (f : Context → Context) : (s.modCtx n f).portReplays = s.portReplays := rfl
@[simp] theorem State.modCtx_doorbells (s : State) (n : Nat) (f : Context → Context) : (s.modCtx n f).doorbells = s.doorbells := rfl
@[simp] theorem State.modCtx_fwRunning (s : State) (n : Nat) (f : Context → Context) : (s.modCtx n f).fwRunning = s.fwRunning := rfl
@[simp] theorem State.modCtx_fwCounter (s : State) (n : Nat) (f : Context → Context) : (s.modCtx n f).fwCounter = s.fwCounter := rfl
@[simp] theorem State.modCtx_otsIndex (s : State) (n : Nat) (f : Context → Context) : (s.modCtx n f).otsIndex = s.otsIndex := rfl
@[simp] theorem State.modCtx_attested (s : State) (n : Nat) (f : Context → Context) : (s.modCtx n f).attested = s.attested := rfl
@[simp] theorem State.modCtx_hostOut (s : State) (n : Nat) (f : Context → Context) : (s.modCtx n f).hostOut = s.hostOut := rfl
@[simp] theorem State.modCtx_hostBad (s : State) (n : Nat) (f : Context → Context) : (s.modCtx n f).hostBad = s.hostBad := rfl
@[simp] theorem State.modCtx_sent (s : State) (n : Nat) (f : Context → Context) : (s.modCtx n f).sent = s.sent := rfl
@[simp] theorem State.modCtx_cur (s : State) (n : Nat) (f : Context → Context) : (s.modCtx n f).cur = s.cur := rfl
@[simp] theorem State.modCtx_snap (s : State) (n : Nat) (f : Context → Context) : (s.modCtx n f).snap = s.snap := rfl
@[simp] theorem State.modCtx_snapSteps (s : State) (n : Nat) (f : Context → Context) : (s.modCtx n f).snapSteps = s.snapSteps := rfl
@[simp] theorem State.modCtx_todo (s : State) (n : Nat) (f : Context → Context) : (s.modCtx n f).todo = s.todo := rfl
@[simp] theorem State.modCtx_inputs (s : State) (n : Nat) (f : Context → Context) : (s.modCtx n f).inputs = s.inputs := rfl
@[simp] theorem State.modCtx_freeCtr (s : State) (n : Nat) (f : Context → Context) : (s.modCtx n f).freeCtr = s.freeCtr := rfl

/-! ### `State.modQueue` -/

@[simp] theorem State.modQueue_wtime (s : State) (n : Nat) (f : HostQueue → HostQueue) : (s.modQueue n f).wtime = s.wtime := rfl
@[simp] theorem State.modQueue_mem (s : State) (n : Nat) (f : HostQueue → HostQueue) : (s.modQueue n f).mem = s.mem := rfl
@[simp] theorem State.modQueue_poison (s : State) (n : Nat) (f : HostQueue → HostQueue) : (s.modQueue n f).poison = s.poison := rfl
@[simp] theorem State.modQueue_flight (s : State) (n : Nat) (f : HostQueue → HostQueue) : (s.modQueue n f).flight = s.flight := rfl
@[simp] theorem State.modQueue_stks (s : State) (n : Nat) (f : HostQueue → HostQueue) : (s.modQueue n f).stks = s.stks := rfl
@[simp] theorem State.modQueue_strands (s : State) (n : Nat) (f : HostQueue → HostQueue) : (s.modQueue n f).strands = s.strands := rfl
@[simp] theorem State.modQueue_nextSid (s : State) (n : Nat) (f : HostQueue → HostQueue) : (s.modQueue n f).nextSid = s.nextSid := rfl
@[simp] theorem State.modQueue_nextNum (s : State) (n : Nat) (f : HostQueue → HostQueue) : (s.modQueue n f).nextNum = s.nextNum := rfl
@[simp] theorem State.modQueue_contexts (s : State) (n : Nat) (f : HostQueue → HostQueue) : (s.modQueue n f).contexts = s.contexts := rfl
@[simp] theorem State.modQueue_queues (s : State) (n : Nat) (f : HostQueue → HostQueue) : (s.modQueue n f).queues = vset s.queues n (f (s.queue n)) := rfl
@[simp] theorem State.modQueue_rr (s : State) (n : Nat) (f : HostQueue → HostQueue) : (s.modQueue n f).rr = s.rr := rfl
@[simp] theorem State.modQueue_waiting (s : State) (n : Nat) (f : HostQueue → HostQueue) : (s.modQueue n f).waiting = s.waiting := rfl
@[simp] theorem State.modQueue_tasks (s : State) (n : Nat) (f : HostQueue → HostQueue) : (s.modQueue n f).tasks = s.tasks := rfl
@[simp] theorem State.modQueue_replays (s : State) (n : Nat) (f : HostQueue → HostQueue) : (s.modQueue n f).replays = s.replays := rfl
@[simp] theorem State.modQueue_after (s : State) (n : Nat) (f : HostQueue → HostQueue) : (s.modQueue n f).after = s.after := rfl
@[simp] theorem State.modQueue_saved (s : State) (n : Nat) (f : HostQueue → HostQueue) : (s.modQueue n f).saved = s.saved := rfl
@[simp] theorem State.modQueue_images (s : State) (n : Nat) (f : HostQueue → HostQueue) : (s.modQueue n f).images = s.images := rfl
@[simp] theorem State.modQueue_ctxtab (s : State) (n : Nat) (f : HostQueue → HostQueue) : (s.modQueue n f).ctxtab = s.ctxtab := rfl
@[simp] theorem State.modQueue_ctxcmd (s : State) (n : Nat) (f : HostQueue → HostQueue) : (s.modQueue n f).ctxcmd = s.ctxcmd := rfl
@[simp] theorem State.modQueue_pecmd (s : State) (n : Nat) (f : HostQueue → HostQueue) : (s.modQueue n f).pecmd = s.pecmd := rfl
@[simp] theorem State.modQueue_peaddr (s : State) (n : Nat) (f : HostQueue → HostQueue) : (s.modQueue n f).peaddr = s.peaddr := rfl
@[simp] theorem State.modQueue_holding (s : State) (n : Nat) (f : HostQueue → HostQueue) : (s.modQueue n f).holding = s.holding := rfl
@[simp] theorem State.modQueue_drefv (s : State) (n : Nat) (f : HostQueue → HostQueue) : (s.modQueue n f).drefv = s.drefv := rfl
@[simp] theorem State.modQueue_drefc (s : State) (n : Nat) (f : HostQueue → HostQueue) : (s.modQueue n f).drefc = s.drefc := rfl
@[simp] theorem State.modQueue_tlbaddr (s : State) (n : Nat) (f : HostQueue → HostQueue) : (s.modQueue n f).tlbaddr = s.tlbaddr := rfl
@[simp] theorem State.modQueue_tlbinv (s : State) (n : Nat) (f : HostQueue → HostQueue) : (s.modQueue n f).tlbinv = s.tlbinv := rfl
@[simp] theorem State.modQueue_mbxdata (s : State) (n : Nat) (f : HostQueue → HostQueue) : (s.modQueue n f).mbxdata = s.mbxdata := rfl
@[simp] theorem State.modQueue_mbxctl (s : State) (n : Nat) (f : HostQueue → HostQueue) : (s.modQueue n f).mbxctl = s.mbxctl := rfl
@[simp] theorem State.modQueue_resetcmd (s : State) (n : Nat) (f : HostQueue → HostQueue) : (s.modQueue n f).resetcmd = s.resetcmd := rfl
@[simp] theorem State.modQueue_resetting (s : State) (n : Nat) (f : HostQueue → HostQueue) : (s.modQueue n f).resetting = s.resetting := rfl
@[simp] theorem State.modQueue_powered (s : State) (n : Nat) (f : HostQueue → HostQueue) : (s.modQueue n f).powered = s.powered := rfl
@[simp] theorem State.modQueue_linkUp (s : State) (n : Nat) (f : HostQueue → HostQueue) : (s.modQueue n f).linkUp = s.linkUp := rfl
@[simp] theorem State.modQueue_linkLost (s : State) (n : Nat) (f : HostQueue → HostQueue) : (s.modQueue n f).linkLost = s.linkLost := rfl
@[simp] theorem State.modQueue_linkHolding (s : State) (n : Nat) (f : HostQueue → HostQueue) : (s.modQueue n f).linkHolding = s.linkHolding := rfl
@[simp] theorem State.modQueue_linkgrace (s : State) (n : Nat) (f : HostQueue → HostQueue) : (s.modQueue n f).linkgrace = s.linkgrace := rfl
@[simp] theorem State.modQueue_lostAt (s : State) (n : Nat) (f : HostQueue → HostQueue) : (s.modQueue n f).lostAt = s.lostAt := rfl
@[simp] theorem State.modQueue_devevt (s : State) (n : Nat) (f : HostQueue → HostQueue) : (s.modQueue n f).devevt = s.devevt := rfl
@[simp] theorem State.modQueue_ctxevt (s : State) (n : Nat) (f : HostQueue → HostQueue) : (s.modQueue n f).ctxevt = s.ctxevt := rfl
@[simp] theorem State.modQueue_msix (s : State) (n : Nat) (f : HostQueue → HostQueue) : (s.modQueue n f).msix = s.msix := rfl
@[simp] theorem State.modQueue_pwrcmd (s : State) (n : Nat) (f : HostQueue → HostQueue) : (s.modQueue n f).pwrcmd = s.pwrcmd := rfl
@[simp] theorem State.modQueue_power (s : State) (n : Nat) (f : HostQueue → HostQueue) : (s.modQueue n f).power = s.power := rfl
@[simp] theorem State.modQueue_powerHist (s : State) (n : Nat) (f : HostQueue → HostQueue) : (s.modQueue n f).powerHist = s.powerHist := rfl
@[simp] theorem State.modQueue_tripped (s : State) (n : Nat) (f : HostQueue → HostQueue) : (s.modQueue n f).tripped = s.tripped := rfl
@[simp] theorem State.modQueue_errcfg (s : State) (n : Nat) (f : HostQueue → HostQueue) : (s.modQueue n f).errcfg = s.errcfg := rfl
@[simp] theorem State.modQueue_errs (s : State) (n : Nat) (f : HostQueue → HostQueue) : (s.modQueue n f).errs = s.errs := rfl
@[simp] theorem State.modQueue_fenced (s : State) (n : Nat) (f : HostQueue → HostQueue) : (s.modQueue n f).fenced = s.fenced := rfl
@[simp] theorem State.modQueue_retentionLost (s : State) (n : Nat) (f : HostQueue → HostQueue) : (s.modQueue n f).retentionLost = s.retentionLost := rfl
@[simp] theorem State.modQueue_exports (s : State) (n : Nat) (f : HostQueue → HostQueue) : (s.modQueue n f).exports = s.exports := rfl
@[simp] theorem State.modQueue_routes (s : State) (n : Nat) (f : HostQueue → HostQueue) : (s.modQueue n f).routes = s.routes := rfl
@[simp] theorem State.modQueue_ports (s : State) (n : Nat) (f : HostQueue → HostQueue) : (s.modQueue n f).ports = s.ports := rfl
@[simp] theorem State.modQueue_portReplays (s : State) (n : Nat) (f : HostQueue → HostQueue) : (s.modQueue n f).portReplays = s.portReplays := rfl
@[simp] theorem State.modQueue_doorbells (s : State) (n : Nat) (f : HostQueue → HostQueue) : (s.modQueue n f).doorbells = s.doorbells := rfl
@[simp] theorem State.modQueue_fwRunning (s : State) (n : Nat) (f : HostQueue → HostQueue) : (s.modQueue n f).fwRunning = s.fwRunning := rfl
@[simp] theorem State.modQueue_fwCounter (s : State) (n : Nat) (f : HostQueue → HostQueue) : (s.modQueue n f).fwCounter = s.fwCounter := rfl
@[simp] theorem State.modQueue_otsIndex (s : State) (n : Nat) (f : HostQueue → HostQueue) : (s.modQueue n f).otsIndex = s.otsIndex := rfl
@[simp] theorem State.modQueue_attested (s : State) (n : Nat) (f : HostQueue → HostQueue) : (s.modQueue n f).attested = s.attested := rfl
@[simp] theorem State.modQueue_hostOut (s : State) (n : Nat) (f : HostQueue → HostQueue) : (s.modQueue n f).hostOut = s.hostOut := rfl
@[simp] theorem State.modQueue_hostBad (s : State) (n : Nat) (f : HostQueue → HostQueue) : (s.modQueue n f).hostBad = s.hostBad := rfl
@[simp] theorem State.modQueue_sent (s : State) (n : Nat) (f : HostQueue → HostQueue) : (s.modQueue n f).sent = s.sent := rfl
@[simp] theorem State.modQueue_cur (s : State) (n : Nat) (f : HostQueue → HostQueue) : (s.modQueue n f).cur = s.cur := rfl
@[simp] theorem State.modQueue_snap (s : State) (n : Nat) (f : HostQueue → HostQueue) : (s.modQueue n f).snap = s.snap := rfl
@[simp] theorem State.modQueue_snapSteps (s : State) (n : Nat) (f : HostQueue → HostQueue) : (s.modQueue n f).snapSteps = s.snapSteps := rfl
@[simp] theorem State.modQueue_todo (s : State) (n : Nat) (f : HostQueue → HostQueue) : (s.modQueue n f).todo = s.todo := rfl
@[simp] theorem State.modQueue_inputs (s : State) (n : Nat) (f : HostQueue → HostQueue) : (s.modQueue n f).inputs = s.inputs := rfl
@[simp] theorem State.modQueue_freeCtr (s : State) (n : Nat) (f : HostQueue → HostQueue) : (s.modQueue n f).freeCtr = s.freeCtr := rfl

/-! ### `State.modReplay` -/

@[simp] theorem State.modReplay_wtime (s : State) (n : Nat) (f : Replay → Replay) : (s.modReplay n f).wtime = s.wtime := rfl
@[simp] theorem State.modReplay_mem (s : State) (n : Nat) (f : Replay → Replay) : (s.modReplay n f).mem = s.mem := rfl
@[simp] theorem State.modReplay_poison (s : State) (n : Nat) (f : Replay → Replay) : (s.modReplay n f).poison = s.poison := rfl
@[simp] theorem State.modReplay_flight (s : State) (n : Nat) (f : Replay → Replay) : (s.modReplay n f).flight = s.flight := rfl
@[simp] theorem State.modReplay_stks (s : State) (n : Nat) (f : Replay → Replay) : (s.modReplay n f).stks = s.stks := rfl
@[simp] theorem State.modReplay_strands (s : State) (n : Nat) (f : Replay → Replay) : (s.modReplay n f).strands = s.strands := rfl
@[simp] theorem State.modReplay_nextSid (s : State) (n : Nat) (f : Replay → Replay) : (s.modReplay n f).nextSid = s.nextSid := rfl
@[simp] theorem State.modReplay_nextNum (s : State) (n : Nat) (f : Replay → Replay) : (s.modReplay n f).nextNum = s.nextNum := rfl
@[simp] theorem State.modReplay_contexts (s : State) (n : Nat) (f : Replay → Replay) : (s.modReplay n f).contexts = s.contexts := rfl
@[simp] theorem State.modReplay_queues (s : State) (n : Nat) (f : Replay → Replay) : (s.modReplay n f).queues = s.queues := rfl
@[simp] theorem State.modReplay_rr (s : State) (n : Nat) (f : Replay → Replay) : (s.modReplay n f).rr = s.rr := rfl
@[simp] theorem State.modReplay_waiting (s : State) (n : Nat) (f : Replay → Replay) : (s.modReplay n f).waiting = s.waiting := rfl
@[simp] theorem State.modReplay_tasks (s : State) (n : Nat) (f : Replay → Replay) : (s.modReplay n f).tasks = s.tasks := rfl
@[simp] theorem State.modReplay_replays (s : State) (n : Nat) (f : Replay → Replay) : (s.modReplay n f).replays = s.replays.map fun r => if r.num == n then f r else r := rfl
@[simp] theorem State.modReplay_after (s : State) (n : Nat) (f : Replay → Replay) : (s.modReplay n f).after = s.after := rfl
@[simp] theorem State.modReplay_saved (s : State) (n : Nat) (f : Replay → Replay) : (s.modReplay n f).saved = s.saved := rfl
@[simp] theorem State.modReplay_images (s : State) (n : Nat) (f : Replay → Replay) : (s.modReplay n f).images = s.images := rfl
@[simp] theorem State.modReplay_ctxtab (s : State) (n : Nat) (f : Replay → Replay) : (s.modReplay n f).ctxtab = s.ctxtab := rfl
@[simp] theorem State.modReplay_ctxcmd (s : State) (n : Nat) (f : Replay → Replay) : (s.modReplay n f).ctxcmd = s.ctxcmd := rfl
@[simp] theorem State.modReplay_pecmd (s : State) (n : Nat) (f : Replay → Replay) : (s.modReplay n f).pecmd = s.pecmd := rfl
@[simp] theorem State.modReplay_peaddr (s : State) (n : Nat) (f : Replay → Replay) : (s.modReplay n f).peaddr = s.peaddr := rfl
@[simp] theorem State.modReplay_holding (s : State) (n : Nat) (f : Replay → Replay) : (s.modReplay n f).holding = s.holding := rfl
@[simp] theorem State.modReplay_drefv (s : State) (n : Nat) (f : Replay → Replay) : (s.modReplay n f).drefv = s.drefv := rfl
@[simp] theorem State.modReplay_drefc (s : State) (n : Nat) (f : Replay → Replay) : (s.modReplay n f).drefc = s.drefc := rfl
@[simp] theorem State.modReplay_tlbaddr (s : State) (n : Nat) (f : Replay → Replay) : (s.modReplay n f).tlbaddr = s.tlbaddr := rfl
@[simp] theorem State.modReplay_tlbinv (s : State) (n : Nat) (f : Replay → Replay) : (s.modReplay n f).tlbinv = s.tlbinv := rfl
@[simp] theorem State.modReplay_mbxdata (s : State) (n : Nat) (f : Replay → Replay) : (s.modReplay n f).mbxdata = s.mbxdata := rfl
@[simp] theorem State.modReplay_mbxctl (s : State) (n : Nat) (f : Replay → Replay) : (s.modReplay n f).mbxctl = s.mbxctl := rfl
@[simp] theorem State.modReplay_resetcmd (s : State) (n : Nat) (f : Replay → Replay) : (s.modReplay n f).resetcmd = s.resetcmd := rfl
@[simp] theorem State.modReplay_resetting (s : State) (n : Nat) (f : Replay → Replay) : (s.modReplay n f).resetting = s.resetting := rfl
@[simp] theorem State.modReplay_powered (s : State) (n : Nat) (f : Replay → Replay) : (s.modReplay n f).powered = s.powered := rfl
@[simp] theorem State.modReplay_linkUp (s : State) (n : Nat) (f : Replay → Replay) : (s.modReplay n f).linkUp = s.linkUp := rfl
@[simp] theorem State.modReplay_linkLost (s : State) (n : Nat) (f : Replay → Replay) : (s.modReplay n f).linkLost = s.linkLost := rfl
@[simp] theorem State.modReplay_linkHolding (s : State) (n : Nat) (f : Replay → Replay) : (s.modReplay n f).linkHolding = s.linkHolding := rfl
@[simp] theorem State.modReplay_linkgrace (s : State) (n : Nat) (f : Replay → Replay) : (s.modReplay n f).linkgrace = s.linkgrace := rfl
@[simp] theorem State.modReplay_lostAt (s : State) (n : Nat) (f : Replay → Replay) : (s.modReplay n f).lostAt = s.lostAt := rfl
@[simp] theorem State.modReplay_devevt (s : State) (n : Nat) (f : Replay → Replay) : (s.modReplay n f).devevt = s.devevt := rfl
@[simp] theorem State.modReplay_ctxevt (s : State) (n : Nat) (f : Replay → Replay) : (s.modReplay n f).ctxevt = s.ctxevt := rfl
@[simp] theorem State.modReplay_msix (s : State) (n : Nat) (f : Replay → Replay) : (s.modReplay n f).msix = s.msix := rfl
@[simp] theorem State.modReplay_pwrcmd (s : State) (n : Nat) (f : Replay → Replay) : (s.modReplay n f).pwrcmd = s.pwrcmd := rfl
@[simp] theorem State.modReplay_power (s : State) (n : Nat) (f : Replay → Replay) : (s.modReplay n f).power = s.power := rfl
@[simp] theorem State.modReplay_powerHist (s : State) (n : Nat) (f : Replay → Replay) : (s.modReplay n f).powerHist = s.powerHist := rfl
@[simp] theorem State.modReplay_tripped (s : State) (n : Nat) (f : Replay → Replay) : (s.modReplay n f).tripped = s.tripped := rfl
@[simp] theorem State.modReplay_errcfg (s : State) (n : Nat) (f : Replay → Replay) : (s.modReplay n f).errcfg = s.errcfg := rfl
@[simp] theorem State.modReplay_errs (s : State) (n : Nat) (f : Replay → Replay) : (s.modReplay n f).errs = s.errs := rfl
@[simp] theorem State.modReplay_fenced (s : State) (n : Nat) (f : Replay → Replay) : (s.modReplay n f).fenced = s.fenced := rfl
@[simp] theorem State.modReplay_retentionLost (s : State) (n : Nat) (f : Replay → Replay) : (s.modReplay n f).retentionLost = s.retentionLost := rfl
@[simp] theorem State.modReplay_exports (s : State) (n : Nat) (f : Replay → Replay) : (s.modReplay n f).exports = s.exports := rfl
@[simp] theorem State.modReplay_routes (s : State) (n : Nat) (f : Replay → Replay) : (s.modReplay n f).routes = s.routes := rfl
@[simp] theorem State.modReplay_ports (s : State) (n : Nat) (f : Replay → Replay) : (s.modReplay n f).ports = s.ports := rfl
@[simp] theorem State.modReplay_portReplays (s : State) (n : Nat) (f : Replay → Replay) : (s.modReplay n f).portReplays = s.portReplays := rfl
@[simp] theorem State.modReplay_doorbells (s : State) (n : Nat) (f : Replay → Replay) : (s.modReplay n f).doorbells = s.doorbells := rfl
@[simp] theorem State.modReplay_fwRunning (s : State) (n : Nat) (f : Replay → Replay) : (s.modReplay n f).fwRunning = s.fwRunning := rfl
@[simp] theorem State.modReplay_fwCounter (s : State) (n : Nat) (f : Replay → Replay) : (s.modReplay n f).fwCounter = s.fwCounter := rfl
@[simp] theorem State.modReplay_otsIndex (s : State) (n : Nat) (f : Replay → Replay) : (s.modReplay n f).otsIndex = s.otsIndex := rfl
@[simp] theorem State.modReplay_attested (s : State) (n : Nat) (f : Replay → Replay) : (s.modReplay n f).attested = s.attested := rfl
@[simp] theorem State.modReplay_hostOut (s : State) (n : Nat) (f : Replay → Replay) : (s.modReplay n f).hostOut = s.hostOut := rfl
@[simp] theorem State.modReplay_hostBad (s : State) (n : Nat) (f : Replay → Replay) : (s.modReplay n f).hostBad = s.hostBad := rfl
@[simp] theorem State.modReplay_sent (s : State) (n : Nat) (f : Replay → Replay) : (s.modReplay n f).sent = s.sent := rfl
@[simp] theorem State.modReplay_cur (s : State) (n : Nat) (f : Replay → Replay) : (s.modReplay n f).cur = s.cur := rfl
@[simp] theorem State.modReplay_snap (s : State) (n : Nat) (f : Replay → Replay) : (s.modReplay n f).snap = s.snap := rfl
@[simp] theorem State.modReplay_snapSteps (s : State) (n : Nat) (f : Replay → Replay) : (s.modReplay n f).snapSteps = s.snapSteps := rfl
@[simp] theorem State.modReplay_todo (s : State) (n : Nat) (f : Replay → Replay) : (s.modReplay n f).todo = s.todo := rfl
@[simp] theorem State.modReplay_inputs (s : State) (n : Nat) (f : Replay → Replay) : (s.modReplay n f).inputs = s.inputs := rfl
@[simp] theorem State.modReplay_freeCtr (s : State) (n : Nat) (f : Replay → Replay) : (s.modReplay n f).freeCtr = s.freeCtr := rfl

/-! ### `State.raiseCtx` -/

@[simp] theorem State.raiseCtx_wtime (s : State) (n b : Nat) : (s.raiseCtx n b).wtime = s.wtime := rfl
@[simp] theorem State.raiseCtx_mem (s : State) (n b : Nat) : (s.raiseCtx n b).mem = s.mem := rfl
@[simp] theorem State.raiseCtx_poison (s : State) (n b : Nat) : (s.raiseCtx n b).poison = s.poison := rfl
@[simp] theorem State.raiseCtx_flight (s : State) (n b : Nat) : (s.raiseCtx n b).flight = s.flight := rfl
@[simp] theorem State.raiseCtx_stks (s : State) (n b : Nat) : (s.raiseCtx n b).stks = s.stks := rfl
@[simp] theorem State.raiseCtx_strands (s : State) (n b : Nat) : (s.raiseCtx n b).strands = s.strands := rfl
@[simp] theorem State.raiseCtx_nextSid (s : State) (n b : Nat) : (s.raiseCtx n b).nextSid = s.nextSid := rfl
@[simp] theorem State.raiseCtx_nextNum (s : State) (n b : Nat) : (s.raiseCtx n b).nextNum = s.nextNum := rfl
@[simp] theorem State.raiseCtx_contexts (s : State) (n b : Nat) : (s.raiseCtx n b).contexts = s.contexts := rfl
@[simp] theorem State.raiseCtx_queues (s : State) (n b : Nat) : (s.raiseCtx n b).queues = s.queues := rfl
@[simp] theorem State.raiseCtx_rr (s : State) (n b : Nat) : (s.raiseCtx n b).rr = s.rr := rfl
@[simp] theorem State.raiseCtx_waiting (s : State) (n b : Nat) : (s.raiseCtx n b).waiting = s.waiting := rfl
@[simp] theorem State.raiseCtx_tasks (s : State) (n b : Nat) : (s.raiseCtx n b).tasks = s.tasks := rfl
@[simp] theorem State.raiseCtx_replays (s : State) (n b : Nat) : (s.raiseCtx n b).replays = s.replays := rfl
@[simp] theorem State.raiseCtx_after (s : State) (n b : Nat) : (s.raiseCtx n b).after = s.after := rfl
@[simp] theorem State.raiseCtx_saved (s : State) (n b : Nat) : (s.raiseCtx n b).saved = s.saved := rfl
@[simp] theorem State.raiseCtx_images (s : State) (n b : Nat) : (s.raiseCtx n b).images = s.images := rfl
@[simp] theorem State.raiseCtx_ctxtab (s : State) (n b : Nat) : (s.raiseCtx n b).ctxtab = s.ctxtab := rfl
@[simp] theorem State.raiseCtx_ctxcmd (s : State) (n b : Nat) : (s.raiseCtx n b).ctxcmd = s.ctxcmd := rfl
@[simp] theorem State.raiseCtx_pecmd (s : State) (n b : Nat) : (s.raiseCtx n b).pecmd = s.pecmd := rfl
@[simp] theorem State.raiseCtx_peaddr (s : State) (n b : Nat) : (s.raiseCtx n b).peaddr = s.peaddr := rfl
@[simp] theorem State.raiseCtx_holding (s : State) (n b : Nat) : (s.raiseCtx n b).holding = s.holding := rfl
@[simp] theorem State.raiseCtx_drefv (s : State) (n b : Nat) : (s.raiseCtx n b).drefv = s.drefv := rfl
@[simp] theorem State.raiseCtx_drefc (s : State) (n b : Nat) : (s.raiseCtx n b).drefc = s.drefc := rfl
@[simp] theorem State.raiseCtx_tlbaddr (s : State) (n b : Nat) : (s.raiseCtx n b).tlbaddr = s.tlbaddr := rfl
@[simp] theorem State.raiseCtx_tlbinv (s : State) (n b : Nat) : (s.raiseCtx n b).tlbinv = s.tlbinv := rfl
@[simp] theorem State.raiseCtx_mbxdata (s : State) (n b : Nat) : (s.raiseCtx n b).mbxdata = s.mbxdata := rfl
@[simp] theorem State.raiseCtx_mbxctl (s : State) (n b : Nat) : (s.raiseCtx n b).mbxctl = s.mbxctl := rfl
@[simp] theorem State.raiseCtx_resetcmd (s : State) (n b : Nat) : (s.raiseCtx n b).resetcmd = s.resetcmd := rfl
@[simp] theorem State.raiseCtx_resetting (s : State) (n b : Nat) : (s.raiseCtx n b).resetting = s.resetting := rfl
@[simp] theorem State.raiseCtx_powered (s : State) (n b : Nat) : (s.raiseCtx n b).powered = s.powered := rfl
@[simp] theorem State.raiseCtx_linkUp (s : State) (n b : Nat) : (s.raiseCtx n b).linkUp = s.linkUp := rfl
@[simp] theorem State.raiseCtx_linkLost (s : State) (n b : Nat) : (s.raiseCtx n b).linkLost = s.linkLost := rfl
@[simp] theorem State.raiseCtx_linkHolding (s : State) (n b : Nat) : (s.raiseCtx n b).linkHolding = s.linkHolding := rfl
@[simp] theorem State.raiseCtx_linkgrace (s : State) (n b : Nat) : (s.raiseCtx n b).linkgrace = s.linkgrace := rfl
@[simp] theorem State.raiseCtx_lostAt (s : State) (n b : Nat) : (s.raiseCtx n b).lostAt = s.lostAt := rfl
@[simp] theorem State.raiseCtx_devevt (s : State) (n b : Nat) : (s.raiseCtx n b).devevt = s.devevt := rfl
@[simp] theorem State.raiseCtx_ctxevt (s : State) (n b : Nat) : (s.raiseCtx n b).ctxevt = vset s.ctxevt n (vget s.ctxevt n 0 ||| BitVec.ofNat 6 (2 ^ b)) := rfl
@[simp] theorem State.raiseCtx_pwrcmd (s : State) (n b : Nat) : (s.raiseCtx n b).pwrcmd = s.pwrcmd := rfl
@[simp] theorem State.raiseCtx_power (s : State) (n b : Nat) : (s.raiseCtx n b).power = s.power := rfl
@[simp] theorem State.raiseCtx_powerHist (s : State) (n b : Nat) : (s.raiseCtx n b).powerHist = s.powerHist := rfl
@[simp] theorem State.raiseCtx_tripped (s : State) (n b : Nat) : (s.raiseCtx n b).tripped = s.tripped := rfl
@[simp] theorem State.raiseCtx_errcfg (s : State) (n b : Nat) : (s.raiseCtx n b).errcfg = s.errcfg := rfl
@[simp] theorem State.raiseCtx_errs (s : State) (n b : Nat) : (s.raiseCtx n b).errs = s.errs := rfl
@[simp] theorem State.raiseCtx_fenced (s : State) (n b : Nat) : (s.raiseCtx n b).fenced = s.fenced := rfl
@[simp] theorem State.raiseCtx_retentionLost (s : State) (n b : Nat) : (s.raiseCtx n b).retentionLost = s.retentionLost := rfl
@[simp] theorem State.raiseCtx_exports (s : State) (n b : Nat) : (s.raiseCtx n b).exports = s.exports := rfl
@[simp] theorem State.raiseCtx_routes (s : State) (n b : Nat) : (s.raiseCtx n b).routes = s.routes := rfl
@[simp] theorem State.raiseCtx_ports (s : State) (n b : Nat) : (s.raiseCtx n b).ports = s.ports := rfl
@[simp] theorem State.raiseCtx_portReplays (s : State) (n b : Nat) : (s.raiseCtx n b).portReplays = s.portReplays := rfl
@[simp] theorem State.raiseCtx_doorbells (s : State) (n b : Nat) : (s.raiseCtx n b).doorbells = s.doorbells := rfl
@[simp] theorem State.raiseCtx_fwRunning (s : State) (n b : Nat) : (s.raiseCtx n b).fwRunning = s.fwRunning := rfl
@[simp] theorem State.raiseCtx_fwCounter (s : State) (n b : Nat) : (s.raiseCtx n b).fwCounter = s.fwCounter := rfl
@[simp] theorem State.raiseCtx_otsIndex (s : State) (n b : Nat) : (s.raiseCtx n b).otsIndex = s.otsIndex := rfl
@[simp] theorem State.raiseCtx_attested (s : State) (n b : Nat) : (s.raiseCtx n b).attested = s.attested := rfl
@[simp] theorem State.raiseCtx_hostOut (s : State) (n b : Nat) : (s.raiseCtx n b).hostOut = s.hostOut := rfl
@[simp] theorem State.raiseCtx_hostBad (s : State) (n b : Nat) : (s.raiseCtx n b).hostBad = s.hostBad := rfl
@[simp] theorem State.raiseCtx_sent (s : State) (n b : Nat) : (s.raiseCtx n b).sent = s.sent := rfl
@[simp] theorem State.raiseCtx_cur (s : State) (n b : Nat) : (s.raiseCtx n b).cur = s.cur := rfl
@[simp] theorem State.raiseCtx_snap (s : State) (n b : Nat) : (s.raiseCtx n b).snap = s.snap := rfl
@[simp] theorem State.raiseCtx_snapSteps (s : State) (n b : Nat) : (s.raiseCtx n b).snapSteps = s.snapSteps := rfl
@[simp] theorem State.raiseCtx_todo (s : State) (n b : Nat) : (s.raiseCtx n b).todo = s.todo := rfl
@[simp] theorem State.raiseCtx_inputs (s : State) (n b : Nat) : (s.raiseCtx n b).inputs = s.inputs := rfl
@[simp] theorem State.raiseCtx_freeCtr (s : State) (n b : Nat) : (s.raiseCtx n b).freeCtr = s.freeCtr := rfl

/-! ### `State.raiseDev` -/

@[simp] theorem State.raiseDev_wtime (s : State) (b : Nat) : (s.raiseDev b).wtime = s.wtime := rfl
@[simp] theorem State.raiseDev_mem (s : State) (b : Nat) : (s.raiseDev b).mem = s.mem := rfl
@[simp] theorem State.raiseDev_poison (s : State) (b : Nat) : (s.raiseDev b).poison = s.poison := rfl
@[simp] theorem State.raiseDev_flight (s : State) (b : Nat) : (s.raiseDev b).flight = s.flight := rfl
@[simp] theorem State.raiseDev_stks (s : State) (b : Nat) : (s.raiseDev b).stks = s.stks := rfl
@[simp] theorem State.raiseDev_strands (s : State) (b : Nat) : (s.raiseDev b).strands = s.strands := rfl
@[simp] theorem State.raiseDev_nextSid (s : State) (b : Nat) : (s.raiseDev b).nextSid = s.nextSid := rfl
@[simp] theorem State.raiseDev_nextNum (s : State) (b : Nat) : (s.raiseDev b).nextNum = s.nextNum := rfl
@[simp] theorem State.raiseDev_contexts (s : State) (b : Nat) : (s.raiseDev b).contexts = s.contexts := rfl
@[simp] theorem State.raiseDev_queues (s : State) (b : Nat) : (s.raiseDev b).queues = s.queues := rfl
@[simp] theorem State.raiseDev_rr (s : State) (b : Nat) : (s.raiseDev b).rr = s.rr := rfl
@[simp] theorem State.raiseDev_waiting (s : State) (b : Nat) : (s.raiseDev b).waiting = s.waiting := rfl
@[simp] theorem State.raiseDev_tasks (s : State) (b : Nat) : (s.raiseDev b).tasks = s.tasks := rfl
@[simp] theorem State.raiseDev_replays (s : State) (b : Nat) : (s.raiseDev b).replays = s.replays := rfl
@[simp] theorem State.raiseDev_after (s : State) (b : Nat) : (s.raiseDev b).after = s.after := rfl
@[simp] theorem State.raiseDev_saved (s : State) (b : Nat) : (s.raiseDev b).saved = s.saved := rfl
@[simp] theorem State.raiseDev_images (s : State) (b : Nat) : (s.raiseDev b).images = s.images := rfl
@[simp] theorem State.raiseDev_ctxtab (s : State) (b : Nat) : (s.raiseDev b).ctxtab = s.ctxtab := rfl
@[simp] theorem State.raiseDev_ctxcmd (s : State) (b : Nat) : (s.raiseDev b).ctxcmd = s.ctxcmd := rfl
@[simp] theorem State.raiseDev_pecmd (s : State) (b : Nat) : (s.raiseDev b).pecmd = s.pecmd := rfl
@[simp] theorem State.raiseDev_peaddr (s : State) (b : Nat) : (s.raiseDev b).peaddr = s.peaddr := rfl
@[simp] theorem State.raiseDev_holding (s : State) (b : Nat) : (s.raiseDev b).holding = s.holding := rfl
@[simp] theorem State.raiseDev_drefv (s : State) (b : Nat) : (s.raiseDev b).drefv = s.drefv := rfl
@[simp] theorem State.raiseDev_drefc (s : State) (b : Nat) : (s.raiseDev b).drefc = s.drefc := rfl
@[simp] theorem State.raiseDev_tlbaddr (s : State) (b : Nat) : (s.raiseDev b).tlbaddr = s.tlbaddr := rfl
@[simp] theorem State.raiseDev_tlbinv (s : State) (b : Nat) : (s.raiseDev b).tlbinv = s.tlbinv := rfl
@[simp] theorem State.raiseDev_mbxdata (s : State) (b : Nat) : (s.raiseDev b).mbxdata = s.mbxdata := rfl
@[simp] theorem State.raiseDev_mbxctl (s : State) (b : Nat) : (s.raiseDev b).mbxctl = s.mbxctl := rfl
@[simp] theorem State.raiseDev_resetcmd (s : State) (b : Nat) : (s.raiseDev b).resetcmd = s.resetcmd := rfl
@[simp] theorem State.raiseDev_resetting (s : State) (b : Nat) : (s.raiseDev b).resetting = s.resetting := rfl
@[simp] theorem State.raiseDev_powered (s : State) (b : Nat) : (s.raiseDev b).powered = s.powered := rfl
@[simp] theorem State.raiseDev_linkUp (s : State) (b : Nat) : (s.raiseDev b).linkUp = s.linkUp := rfl
@[simp] theorem State.raiseDev_linkLost (s : State) (b : Nat) : (s.raiseDev b).linkLost = s.linkLost := rfl
@[simp] theorem State.raiseDev_linkHolding (s : State) (b : Nat) : (s.raiseDev b).linkHolding = s.linkHolding := rfl
@[simp] theorem State.raiseDev_linkgrace (s : State) (b : Nat) : (s.raiseDev b).linkgrace = s.linkgrace := rfl
@[simp] theorem State.raiseDev_lostAt (s : State) (b : Nat) : (s.raiseDev b).lostAt = s.lostAt := rfl
@[simp] theorem State.raiseDev_devevt (s : State) (b : Nat) : (s.raiseDev b).devevt = s.devevt ||| BitVec.ofNat 5 (2 ^ b) := rfl
@[simp] theorem State.raiseDev_ctxevt (s : State) (b : Nat) : (s.raiseDev b).ctxevt = s.ctxevt := rfl
@[simp] theorem State.raiseDev_pwrcmd (s : State) (b : Nat) : (s.raiseDev b).pwrcmd = s.pwrcmd := rfl
@[simp] theorem State.raiseDev_power (s : State) (b : Nat) : (s.raiseDev b).power = s.power := rfl
@[simp] theorem State.raiseDev_powerHist (s : State) (b : Nat) : (s.raiseDev b).powerHist = s.powerHist := rfl
@[simp] theorem State.raiseDev_tripped (s : State) (b : Nat) : (s.raiseDev b).tripped = s.tripped := rfl
@[simp] theorem State.raiseDev_errcfg (s : State) (b : Nat) : (s.raiseDev b).errcfg = s.errcfg := rfl
@[simp] theorem State.raiseDev_errs (s : State) (b : Nat) : (s.raiseDev b).errs = s.errs := rfl
@[simp] theorem State.raiseDev_fenced (s : State) (b : Nat) : (s.raiseDev b).fenced = s.fenced := rfl
@[simp] theorem State.raiseDev_retentionLost (s : State) (b : Nat) : (s.raiseDev b).retentionLost = s.retentionLost := rfl
@[simp] theorem State.raiseDev_exports (s : State) (b : Nat) : (s.raiseDev b).exports = s.exports := rfl
@[simp] theorem State.raiseDev_routes (s : State) (b : Nat) : (s.raiseDev b).routes = s.routes := rfl
@[simp] theorem State.raiseDev_ports (s : State) (b : Nat) : (s.raiseDev b).ports = s.ports := rfl
@[simp] theorem State.raiseDev_portReplays (s : State) (b : Nat) : (s.raiseDev b).portReplays = s.portReplays := rfl
@[simp] theorem State.raiseDev_doorbells (s : State) (b : Nat) : (s.raiseDev b).doorbells = s.doorbells := rfl
@[simp] theorem State.raiseDev_fwRunning (s : State) (b : Nat) : (s.raiseDev b).fwRunning = s.fwRunning := rfl
@[simp] theorem State.raiseDev_fwCounter (s : State) (b : Nat) : (s.raiseDev b).fwCounter = s.fwCounter := rfl
@[simp] theorem State.raiseDev_otsIndex (s : State) (b : Nat) : (s.raiseDev b).otsIndex = s.otsIndex := rfl
@[simp] theorem State.raiseDev_attested (s : State) (b : Nat) : (s.raiseDev b).attested = s.attested := rfl
@[simp] theorem State.raiseDev_hostOut (s : State) (b : Nat) : (s.raiseDev b).hostOut = s.hostOut := rfl
@[simp] theorem State.raiseDev_hostBad (s : State) (b : Nat) : (s.raiseDev b).hostBad = s.hostBad := rfl
@[simp] theorem State.raiseDev_sent (s : State) (b : Nat) : (s.raiseDev b).sent = s.sent := rfl
@[simp] theorem State.raiseDev_cur (s : State) (b : Nat) : (s.raiseDev b).cur = s.cur := rfl
@[simp] theorem State.raiseDev_snap (s : State) (b : Nat) : (s.raiseDev b).snap = s.snap := rfl
@[simp] theorem State.raiseDev_snapSteps (s : State) (b : Nat) : (s.raiseDev b).snapSteps = s.snapSteps := rfl
@[simp] theorem State.raiseDev_todo (s : State) (b : Nat) : (s.raiseDev b).todo = s.todo := rfl
@[simp] theorem State.raiseDev_inputs (s : State) (b : Nat) : (s.raiseDev b).inputs = s.inputs := rfl
@[simp] theorem State.raiseDev_freeCtr (s : State) (b : Nat) : (s.raiseDev b).freeCtr = s.freeCtr := rfl

/-! ### `State.busWrite` -/

@[simp] theorem State.busWrite_wtime (s : State) (cs : List (Nat × Byte)) : (s.busWrite cs).wtime = s.wtime := rfl
@[simp] theorem State.busWrite_mem (s : State) (cs : List (Nat × Byte)) : (s.busWrite cs).mem = Sparse.setAll s.mem (cs.filter fun c => !s.drops c.1) := rfl
@[simp] theorem State.busWrite_flight (s : State) (cs : List (Nat × Byte)) : (s.busWrite cs).flight = s.flight := rfl
@[simp] theorem State.busWrite_stks (s : State) (cs : List (Nat × Byte)) : (s.busWrite cs).stks = s.stks := rfl
@[simp] theorem State.busWrite_strands (s : State) (cs : List (Nat × Byte)) : (s.busWrite cs).strands = s.strands := rfl
@[simp] theorem State.busWrite_nextSid (s : State) (cs : List (Nat × Byte)) : (s.busWrite cs).nextSid = s.nextSid := rfl
@[simp] theorem State.busWrite_nextNum (s : State) (cs : List (Nat × Byte)) : (s.busWrite cs).nextNum = s.nextNum := rfl
@[simp] theorem State.busWrite_contexts (s : State) (cs : List (Nat × Byte)) : (s.busWrite cs).contexts = s.contexts := rfl
@[simp] theorem State.busWrite_queues (s : State) (cs : List (Nat × Byte)) : (s.busWrite cs).queues = s.queues := rfl
@[simp] theorem State.busWrite_rr (s : State) (cs : List (Nat × Byte)) : (s.busWrite cs).rr = s.rr := rfl
@[simp] theorem State.busWrite_waiting (s : State) (cs : List (Nat × Byte)) : (s.busWrite cs).waiting = s.waiting := rfl
@[simp] theorem State.busWrite_tasks (s : State) (cs : List (Nat × Byte)) : (s.busWrite cs).tasks = s.tasks := rfl
@[simp] theorem State.busWrite_replays (s : State) (cs : List (Nat × Byte)) : (s.busWrite cs).replays = s.replays := rfl
@[simp] theorem State.busWrite_after (s : State) (cs : List (Nat × Byte)) : (s.busWrite cs).after = s.after := rfl
@[simp] theorem State.busWrite_saved (s : State) (cs : List (Nat × Byte)) : (s.busWrite cs).saved = s.saved := rfl
@[simp] theorem State.busWrite_images (s : State) (cs : List (Nat × Byte)) : (s.busWrite cs).images = s.images := rfl
@[simp] theorem State.busWrite_ctxtab (s : State) (cs : List (Nat × Byte)) : (s.busWrite cs).ctxtab = s.ctxtab := rfl
@[simp] theorem State.busWrite_ctxcmd (s : State) (cs : List (Nat × Byte)) : (s.busWrite cs).ctxcmd = s.ctxcmd := rfl
@[simp] theorem State.busWrite_pecmd (s : State) (cs : List (Nat × Byte)) : (s.busWrite cs).pecmd = s.pecmd := rfl
@[simp] theorem State.busWrite_peaddr (s : State) (cs : List (Nat × Byte)) : (s.busWrite cs).peaddr = s.peaddr := rfl
@[simp] theorem State.busWrite_holding (s : State) (cs : List (Nat × Byte)) : (s.busWrite cs).holding = s.holding := rfl
@[simp] theorem State.busWrite_drefv (s : State) (cs : List (Nat × Byte)) : (s.busWrite cs).drefv = s.drefv := rfl
@[simp] theorem State.busWrite_drefc (s : State) (cs : List (Nat × Byte)) : (s.busWrite cs).drefc = s.drefc := rfl
@[simp] theorem State.busWrite_tlbaddr (s : State) (cs : List (Nat × Byte)) : (s.busWrite cs).tlbaddr = s.tlbaddr := rfl
@[simp] theorem State.busWrite_tlbinv (s : State) (cs : List (Nat × Byte)) : (s.busWrite cs).tlbinv = s.tlbinv := rfl
@[simp] theorem State.busWrite_mbxdata (s : State) (cs : List (Nat × Byte)) : (s.busWrite cs).mbxdata = s.mbxdata := rfl
@[simp] theorem State.busWrite_mbxctl (s : State) (cs : List (Nat × Byte)) : (s.busWrite cs).mbxctl = s.mbxctl := rfl
@[simp] theorem State.busWrite_resetcmd (s : State) (cs : List (Nat × Byte)) : (s.busWrite cs).resetcmd = s.resetcmd := rfl
@[simp] theorem State.busWrite_resetting (s : State) (cs : List (Nat × Byte)) : (s.busWrite cs).resetting = s.resetting := rfl
@[simp] theorem State.busWrite_powered (s : State) (cs : List (Nat × Byte)) : (s.busWrite cs).powered = s.powered := rfl
@[simp] theorem State.busWrite_linkUp (s : State) (cs : List (Nat × Byte)) : (s.busWrite cs).linkUp = s.linkUp := rfl
@[simp] theorem State.busWrite_linkLost (s : State) (cs : List (Nat × Byte)) : (s.busWrite cs).linkLost = s.linkLost := rfl
@[simp] theorem State.busWrite_linkHolding (s : State) (cs : List (Nat × Byte)) : (s.busWrite cs).linkHolding = s.linkHolding := rfl
@[simp] theorem State.busWrite_linkgrace (s : State) (cs : List (Nat × Byte)) : (s.busWrite cs).linkgrace = s.linkgrace := rfl
@[simp] theorem State.busWrite_lostAt (s : State) (cs : List (Nat × Byte)) : (s.busWrite cs).lostAt = s.lostAt := rfl
@[simp] theorem State.busWrite_devevt (s : State) (cs : List (Nat × Byte)) : (s.busWrite cs).devevt = s.devevt := rfl
@[simp] theorem State.busWrite_ctxevt (s : State) (cs : List (Nat × Byte)) : (s.busWrite cs).ctxevt = s.ctxevt := rfl
@[simp] theorem State.busWrite_msix (s : State) (cs : List (Nat × Byte)) : (s.busWrite cs).msix = s.msix := rfl
@[simp] theorem State.busWrite_pwrcmd (s : State) (cs : List (Nat × Byte)) : (s.busWrite cs).pwrcmd = s.pwrcmd := rfl
@[simp] theorem State.busWrite_power (s : State) (cs : List (Nat × Byte)) : (s.busWrite cs).power = s.power := rfl
@[simp] theorem State.busWrite_powerHist (s : State) (cs : List (Nat × Byte)) : (s.busWrite cs).powerHist = s.powerHist := rfl
@[simp] theorem State.busWrite_tripped (s : State) (cs : List (Nat × Byte)) : (s.busWrite cs).tripped = s.tripped := rfl
@[simp] theorem State.busWrite_errcfg (s : State) (cs : List (Nat × Byte)) : (s.busWrite cs).errcfg = s.errcfg := rfl
@[simp] theorem State.busWrite_errs (s : State) (cs : List (Nat × Byte)) : (s.busWrite cs).errs = s.errs := rfl
@[simp] theorem State.busWrite_fenced (s : State) (cs : List (Nat × Byte)) : (s.busWrite cs).fenced = s.fenced := rfl
@[simp] theorem State.busWrite_retentionLost (s : State) (cs : List (Nat × Byte)) : (s.busWrite cs).retentionLost = s.retentionLost := rfl
@[simp] theorem State.busWrite_exports (s : State) (cs : List (Nat × Byte)) : (s.busWrite cs).exports = s.exports := rfl
@[simp] theorem State.busWrite_routes (s : State) (cs : List (Nat × Byte)) : (s.busWrite cs).routes = s.routes := rfl
@[simp] theorem State.busWrite_ports (s : State) (cs : List (Nat × Byte)) : (s.busWrite cs).ports = s.ports := rfl
@[simp] theorem State.busWrite_portReplays (s : State) (cs : List (Nat × Byte)) : (s.busWrite cs).portReplays = s.portReplays := rfl
@[simp] theorem State.busWrite_doorbells (s : State) (cs : List (Nat × Byte)) : (s.busWrite cs).doorbells = s.doorbells := rfl
@[simp] theorem State.busWrite_fwRunning (s : State) (cs : List (Nat × Byte)) : (s.busWrite cs).fwRunning = s.fwRunning := rfl
@[simp] theorem State.busWrite_fwCounter (s : State) (cs : List (Nat × Byte)) : (s.busWrite cs).fwCounter = s.fwCounter := rfl
@[simp] theorem State.busWrite_otsIndex (s : State) (cs : List (Nat × Byte)) : (s.busWrite cs).otsIndex = s.otsIndex := rfl
@[simp] theorem State.busWrite_attested (s : State) (cs : List (Nat × Byte)) : (s.busWrite cs).attested = s.attested := rfl
@[simp] theorem State.busWrite_hostOut (s : State) (cs : List (Nat × Byte)) : (s.busWrite cs).hostOut = s.hostOut := rfl
@[simp] theorem State.busWrite_hostBad (s : State) (cs : List (Nat × Byte)) : (s.busWrite cs).hostBad = s.hostBad := rfl
@[simp] theorem State.busWrite_sent (s : State) (cs : List (Nat × Byte)) : (s.busWrite cs).sent = s.sent := rfl
@[simp] theorem State.busWrite_cur (s : State) (cs : List (Nat × Byte)) : (s.busWrite cs).cur = s.cur := rfl
@[simp] theorem State.busWrite_snap (s : State) (cs : List (Nat × Byte)) : (s.busWrite cs).snap = s.snap := rfl
@[simp] theorem State.busWrite_snapSteps (s : State) (cs : List (Nat × Byte)) : (s.busWrite cs).snapSteps = s.snapSteps := rfl
@[simp] theorem State.busWrite_todo (s : State) (cs : List (Nat × Byte)) : (s.busWrite cs).todo = s.todo := rfl
@[simp] theorem State.busWrite_inputs (s : State) (cs : List (Nat × Byte)) : (s.busWrite cs).inputs = s.inputs := rfl
@[simp] theorem State.busWrite_freeCtr (s : State) (cs : List (Nat × Byte)) : (s.busWrite cs).freeCtr = s.freeCtr := rfl

/-! ### `State.first` -/

@[simp] theorem State.first_wtime (s : State) (js : List Job) : (s.first js).wtime = s.wtime := rfl
@[simp] theorem State.first_mem (s : State) (js : List Job) : (s.first js).mem = s.mem := rfl
@[simp] theorem State.first_poison (s : State) (js : List Job) : (s.first js).poison = s.poison := rfl
@[simp] theorem State.first_flight (s : State) (js : List Job) : (s.first js).flight = s.flight := rfl
@[simp] theorem State.first_stks (s : State) (js : List Job) : (s.first js).stks = s.stks := rfl
@[simp] theorem State.first_strands (s : State) (js : List Job) : (s.first js).strands = s.strands := rfl
@[simp] theorem State.first_nextSid (s : State) (js : List Job) : (s.first js).nextSid = s.nextSid := rfl
@[simp] theorem State.first_nextNum (s : State) (js : List Job) : (s.first js).nextNum = s.nextNum := rfl
@[simp] theorem State.first_contexts (s : State) (js : List Job) : (s.first js).contexts = s.contexts := rfl
@[simp] theorem State.first_queues (s : State) (js : List Job) : (s.first js).queues = s.queues := rfl
@[simp] theorem State.first_rr (s : State) (js : List Job) : (s.first js).rr = s.rr := rfl
@[simp] theorem State.first_waiting (s : State) (js : List Job) : (s.first js).waiting = s.waiting := rfl
@[simp] theorem State.first_tasks (s : State) (js : List Job) : (s.first js).tasks = s.tasks := rfl
@[simp] theorem State.first_replays (s : State) (js : List Job) : (s.first js).replays = s.replays := rfl
@[simp] theorem State.first_after (s : State) (js : List Job) : (s.first js).after = s.after := rfl
@[simp] theorem State.first_saved (s : State) (js : List Job) : (s.first js).saved = s.saved := rfl
@[simp] theorem State.first_images (s : State) (js : List Job) : (s.first js).images = s.images := rfl
@[simp] theorem State.first_ctxtab (s : State) (js : List Job) : (s.first js).ctxtab = s.ctxtab := rfl
@[simp] theorem State.first_ctxcmd (s : State) (js : List Job) : (s.first js).ctxcmd = s.ctxcmd := rfl
@[simp] theorem State.first_pecmd (s : State) (js : List Job) : (s.first js).pecmd = s.pecmd := rfl
@[simp] theorem State.first_peaddr (s : State) (js : List Job) : (s.first js).peaddr = s.peaddr := rfl
@[simp] theorem State.first_holding (s : State) (js : List Job) : (s.first js).holding = s.holding := rfl
@[simp] theorem State.first_drefv (s : State) (js : List Job) : (s.first js).drefv = s.drefv := rfl
@[simp] theorem State.first_drefc (s : State) (js : List Job) : (s.first js).drefc = s.drefc := rfl
@[simp] theorem State.first_tlbaddr (s : State) (js : List Job) : (s.first js).tlbaddr = s.tlbaddr := rfl
@[simp] theorem State.first_tlbinv (s : State) (js : List Job) : (s.first js).tlbinv = s.tlbinv := rfl
@[simp] theorem State.first_mbxdata (s : State) (js : List Job) : (s.first js).mbxdata = s.mbxdata := rfl
@[simp] theorem State.first_mbxctl (s : State) (js : List Job) : (s.first js).mbxctl = s.mbxctl := rfl
@[simp] theorem State.first_resetcmd (s : State) (js : List Job) : (s.first js).resetcmd = s.resetcmd := rfl
@[simp] theorem State.first_resetting (s : State) (js : List Job) : (s.first js).resetting = s.resetting := rfl
@[simp] theorem State.first_powered (s : State) (js : List Job) : (s.first js).powered = s.powered := rfl
@[simp] theorem State.first_linkUp (s : State) (js : List Job) : (s.first js).linkUp = s.linkUp := rfl
@[simp] theorem State.first_linkLost (s : State) (js : List Job) : (s.first js).linkLost = s.linkLost := rfl
@[simp] theorem State.first_linkHolding (s : State) (js : List Job) : (s.first js).linkHolding = s.linkHolding := rfl
@[simp] theorem State.first_linkgrace (s : State) (js : List Job) : (s.first js).linkgrace = s.linkgrace := rfl
@[simp] theorem State.first_lostAt (s : State) (js : List Job) : (s.first js).lostAt = s.lostAt := rfl
@[simp] theorem State.first_devevt (s : State) (js : List Job) : (s.first js).devevt = s.devevt := rfl
@[simp] theorem State.first_ctxevt (s : State) (js : List Job) : (s.first js).ctxevt = s.ctxevt := rfl
@[simp] theorem State.first_msix (s : State) (js : List Job) : (s.first js).msix = s.msix := rfl
@[simp] theorem State.first_pwrcmd (s : State) (js : List Job) : (s.first js).pwrcmd = s.pwrcmd := rfl
@[simp] theorem State.first_power (s : State) (js : List Job) : (s.first js).power = s.power := rfl
@[simp] theorem State.first_powerHist (s : State) (js : List Job) : (s.first js).powerHist = s.powerHist := rfl
@[simp] theorem State.first_tripped (s : State) (js : List Job) : (s.first js).tripped = s.tripped := rfl
@[simp] theorem State.first_errcfg (s : State) (js : List Job) : (s.first js).errcfg = s.errcfg := rfl
@[simp] theorem State.first_errs (s : State) (js : List Job) : (s.first js).errs = s.errs := rfl
@[simp] theorem State.first_fenced (s : State) (js : List Job) : (s.first js).fenced = s.fenced := rfl
@[simp] theorem State.first_retentionLost (s : State) (js : List Job) : (s.first js).retentionLost = s.retentionLost := rfl
@[simp] theorem State.first_exports (s : State) (js : List Job) : (s.first js).exports = s.exports := rfl
@[simp] theorem State.first_routes (s : State) (js : List Job) : (s.first js).routes = s.routes := rfl
@[simp] theorem State.first_ports (s : State) (js : List Job) : (s.first js).ports = s.ports := rfl
@[simp] theorem State.first_portReplays (s : State) (js : List Job) : (s.first js).portReplays = s.portReplays := rfl
@[simp] theorem State.first_doorbells (s : State) (js : List Job) : (s.first js).doorbells = s.doorbells := rfl
@[simp] theorem State.first_fwRunning (s : State) (js : List Job) : (s.first js).fwRunning = s.fwRunning := rfl
@[simp] theorem State.first_fwCounter (s : State) (js : List Job) : (s.first js).fwCounter = s.fwCounter := rfl
@[simp] theorem State.first_otsIndex (s : State) (js : List Job) : (s.first js).otsIndex = s.otsIndex := rfl
@[simp] theorem State.first_attested (s : State) (js : List Job) : (s.first js).attested = s.attested := rfl
@[simp] theorem State.first_hostOut (s : State) (js : List Job) : (s.first js).hostOut = s.hostOut := rfl
@[simp] theorem State.first_hostBad (s : State) (js : List Job) : (s.first js).hostBad = s.hostBad := rfl
@[simp] theorem State.first_sent (s : State) (js : List Job) : (s.first js).sent = s.sent := rfl
@[simp] theorem State.first_cur (s : State) (js : List Job) : (s.first js).cur = s.cur := rfl
@[simp] theorem State.first_snap (s : State) (js : List Job) : (s.first js).snap = s.snap := rfl
@[simp] theorem State.first_snapSteps (s : State) (js : List Job) : (s.first js).snapSteps = s.snapSteps := rfl
@[simp] theorem State.first_todo (s : State) (js : List Job) : (s.first js).todo = js ++ s.todo := rfl
@[simp] theorem State.first_inputs (s : State) (js : List Job) : (s.first js).inputs = s.inputs := rfl
@[simp] theorem State.first_freeCtr (s : State) (js : List Job) : (s.first js).freeCtr = s.freeCtr := rfl

/-! ### `Strand.modCore` -/

@[simp] theorem Strand.modCore_sid (t : Strand) (n : Nat) (f : Core → Core) : (t.modCore n f).sid = t.sid := rfl
@[simp] theorem Strand.modCore_ctx (t : Strand) (n : Nat) (f : Core → Core) : (t.modCore n f).ctx = t.ctx := rfl
@[simp] theorem Strand.modCore_task (t : Strand) (n : Nat) (f : Core → Core) : (t.modCore n f).task = t.task := rfl
@[simp] theorem Strand.modCore_logidx (t : Strand) (n : Nat) (f : Core → Core) : (t.modCore n f).logidx = t.logidx := rfl
@[simp] theorem Strand.modCore_fp (t : Strand) (n : Nat) (f : Core → Core) : (t.modCore n f).fp = t.fp := rfl
@[simp] theorem Strand.modCore_det (t : Strand) (n : Nat) (f : Core → Core) : (t.modCore n f).det = t.det := rfl
@[simp] theorem Strand.modCore_tagck (t : Strand) (n : Nat) (f : Core → Core) : (t.modCore n f).tagck = t.tagck := rfl
@[simp] theorem Strand.modCore_serial (t : Strand) (n : Nat) (f : Core → Core) : (t.modCore n f).serial = t.serial := rfl
@[simp] theorem Strand.modCore_stack (t : Strand) (n : Nat) (f : Core → Core) : (t.modCore n f).stack = t.stack := rfl
@[simp] theorem Strand.modCore_wix (t : Strand) (n : Nat) (f : Core → Core) : (t.modCore n f).wix = t.wix := rfl
@[simp] theorem Strand.modCore_admitted (t : Strand) (n : Nat) (f : Core → Core) : (t.modCore n f).admitted = t.admitted := rfl
@[simp] theorem Strand.modCore_stride (t : Strand) (n : Nat) (f : Core → Core) : (t.modCore n f).stride = t.stride := rfl
@[simp] theorem Strand.modCore_phase (t : Strand) (n : Nat) (f : Core → Core) : (t.modCore n f).phase = t.phase := rfl
@[simp] theorem Strand.modCore_reqStride (t : Strand) (n : Nat) (f : Core → Core) : (t.modCore n f).reqStride = t.reqStride := rfl
@[simp] theorem Strand.modCore_reqPin (t : Strand) (n : Nat) (f : Core → Core) : (t.modCore n f).reqPin = t.reqPin := rfl
@[simp] theorem Strand.modCore_lane (t : Strand) (n : Nat) (f : Core → Core) : (t.modCore n f).lane = t.lane := rfl
@[simp] theorem Strand.modCore_grains (t : Strand) (n : Nat) (f : Core → Core) : (t.modCore n f).grains = t.grains := rfl
@[simp] theorem Strand.modCore_decided (t : Strand) (n : Nat) (f : Core → Core) : (t.modCore n f).decided = t.decided := rfl
@[simp] theorem Strand.modCore_flip (t : Strand) (n : Nat) (f : Core → Core) : (t.modCore n f).flip = t.flip := rfl
@[simp] theorem Strand.modCore_nextCyc (t : Strand) (n : Nat) (f : Core → Core) : (t.modCore n f).nextCyc = t.nextCyc := rfl
@[simp] theorem Strand.modCore_beat (t : Strand) (n : Nat) (f : Core → Core) : (t.modCore n f).beat = t.beat := rfl
@[simp] theorem Strand.modCore_seed (t : Strand) (n : Nat) (f : Core → Core) : (t.modCore n f).seed = t.seed := rfl
@[simp] theorem Strand.modCore_ctrbase (t : Strand) (n : Nat) (f : Core → Core) : (t.modCore n f).ctrbase = t.ctrbase := rfl
@[simp] theorem Strand.modCore_mbx (t : Strand) (n : Nat) (f : Core → Core) : (t.modCore n f).mbx = t.mbx := rfl
@[simp] theorem Strand.modCore_mbxNew (t : Strand) (n : Nat) (f : Core → Core) : (t.modCore n f).mbxNew = t.mbxNew := rfl
@[simp] theorem Strand.modCore_digest (t : Strand) (n : Nat) (f : Core → Core) : (t.modCore n f).digest = t.digest := rfl
@[simp] theorem Strand.modCore_image (t : Strand) (n : Nat) (f : Core → Core) : (t.modCore n f).image = t.image := rfl
@[simp] theorem Strand.modCore_entries (t : Strand) (n : Nat) (f : Core → Core) : (t.modCore n f).entries = t.entries := rfl
@[simp] theorem Strand.modCore_param (t : Strand) (n : Nat) (f : Core → Core) : (t.modCore n f).param = t.param := rfl
@[simp] theorem Strand.modCore_dataVa (t : Strand) (n : Nat) (f : Core → Core) : (t.modCore n f).dataVa = t.dataVa := rfl
@[simp] theorem Strand.modCore_status (t : Strand) (n : Nat) (f : Core → Core) : (t.modCore n f).status = t.status := rfl
@[simp] theorem Strand.modCore_freeze (t : Strand) (n : Nat) (f : Core → Core) : (t.modCore n f).freeze = t.freeze := rfl
@[simp] theorem Strand.modCore_walks (t : Strand) (n : Nat) (f : Core → Core) : (t.modCore n f).walks = t.walks := rfl
@[simp] theorem Strand.modCore_fills (t : Strand) (n : Nat) (f : Core → Core) : (t.modCore n f).fills = t.fills := rfl
@[simp] theorem Strand.modCore_icinvs (t : Strand) (n : Nat) (f : Core → Core) : (t.modCore n f).icinvs = t.icinvs := rfl
@[simp] theorem Strand.modCore_waitSaw (t : Strand) (n : Nat) (f : Core → Core) : (t.modCore n f).waitSaw = t.waitSaw := rfl
@[simp] theorem Strand.modCore_raised (t : Strand) (n : Nat) (f : Core → Core) : (t.modCore n f).raised = t.raised := rfl
@[simp] theorem Strand.modCore_taking (t : Strand) (n : Nat) (f : Core → Core) : (t.modCore n f).taking = t.taking := rfl
@[simp] theorem Strand.modCore_holdAt (t : Strand) (n : Nat) (f : Core → Core) : (t.modCore n f).holdAt = t.holdAt := rfl
@[simp] theorem Strand.modCore_holdReq (t : Strand) (n : Nat) (f : Core → Core) : (t.modCore n f).holdReq = t.holdReq := rfl
@[simp] theorem Strand.modCore_linkHeld (t : Strand) (n : Nat) (f : Core → Core) : (t.modCore n f).linkHeld = t.linkHeld := rfl
@[simp] theorem Strand.modCore_stopCyc (t : Strand) (n : Nat) (f : Core → Core) : (t.modCore n f).stopCyc = t.stopCyc := rfl
@[simp] theorem Strand.modCore_region (t : Strand) (n : Nat) (f : Core → Core) : (t.modCore n f).region = t.region := rfl
@[simp] theorem Strand.modCore_decl (t : Strand) (n : Nat) (f : Core → Core) : (t.modCore n f).decl = t.decl := rfl
@[simp] theorem Strand.modCore_molt (t : Strand) (n : Nat) (f : Core → Core) : (t.modCore n f).molt = t.molt := rfl
@[simp] theorem Strand.modCore_moltResult (t : Strand) (n : Nat) (f : Core → Core) : (t.modCore n f).moltResult = t.moltResult := rfl
@[simp] theorem Strand.modCore_cores (t : Strand) (n : Nat) (f : Core → Core) : (t.modCore n f).cores = t.cores.modify n f := rfl
@[simp] theorem Strand.modCore_startTime (t : Strand) (n : Nat) (f : Core → Core) : (t.modCore n f).startTime = t.startTime := rfl
@[simp] theorem Strand.modCore_resumed (t : Strand) (n : Nat) (f : Core → Core) : (t.modCore n f).resumed = t.resumed := rfl

/-! ### `Strand.raise` -/

@[simp] theorem Strand.raise_sid (t : Strand) (c : Cause) : (t.raise c).sid = t.sid := rfl
@[simp] theorem Strand.raise_ctx (t : Strand) (c : Cause) : (t.raise c).ctx = t.ctx := rfl
@[simp] theorem Strand.raise_task (t : Strand) (c : Cause) : (t.raise c).task = t.task := rfl
@[simp] theorem Strand.raise_logidx (t : Strand) (c : Cause) : (t.raise c).logidx = t.logidx := rfl
@[simp] theorem Strand.raise_fp (t : Strand) (c : Cause) : (t.raise c).fp = t.fp := rfl
@[simp] theorem Strand.raise_det (t : Strand) (c : Cause) : (t.raise c).det = t.det := rfl
@[simp] theorem Strand.raise_tagck (t : Strand) (c : Cause) : (t.raise c).tagck = t.tagck := rfl
@[simp] theorem Strand.raise_serial (t : Strand) (c : Cause) : (t.raise c).serial = t.serial := rfl
@[simp] theorem Strand.raise_stack (t : Strand) (c : Cause) : (t.raise c).stack = t.stack := rfl
@[simp] theorem Strand.raise_wix (t : Strand) (c : Cause) : (t.raise c).wix = t.wix := rfl
@[simp] theorem Strand.raise_admitted (t : Strand) (c : Cause) : (t.raise c).admitted = t.admitted := rfl
@[simp] theorem Strand.raise_stride (t : Strand) (c : Cause) : (t.raise c).stride = t.stride := rfl
@[simp] theorem Strand.raise_phase (t : Strand) (c : Cause) : (t.raise c).phase = t.phase := rfl
@[simp] theorem Strand.raise_reqStride (t : Strand) (c : Cause) : (t.raise c).reqStride = t.reqStride := rfl
@[simp] theorem Strand.raise_reqPin (t : Strand) (c : Cause) : (t.raise c).reqPin = t.reqPin := rfl
@[simp] theorem Strand.raise_lane (t : Strand) (c : Cause) : (t.raise c).lane = t.lane := rfl
@[simp] theorem Strand.raise_grains (t : Strand) (c : Cause) : (t.raise c).grains = t.grains := rfl
@[simp] theorem Strand.raise_decided (t : Strand) (c : Cause) : (t.raise c).decided = t.decided := rfl
@[simp] theorem Strand.raise_flip (t : Strand) (c : Cause) : (t.raise c).flip = t.flip := rfl
@[simp] theorem Strand.raise_nextCyc (t : Strand) (c : Cause) : (t.raise c).nextCyc = t.nextCyc := rfl
@[simp] theorem Strand.raise_beat (t : Strand) (c : Cause) : (t.raise c).beat = t.beat := rfl
@[simp] theorem Strand.raise_seed (t : Strand) (c : Cause) : (t.raise c).seed = t.seed := rfl
@[simp] theorem Strand.raise_ctrbase (t : Strand) (c : Cause) : (t.raise c).ctrbase = t.ctrbase := rfl
@[simp] theorem Strand.raise_mbx (t : Strand) (c : Cause) : (t.raise c).mbx = t.mbx := rfl
@[simp] theorem Strand.raise_mbxNew (t : Strand) (c : Cause) : (t.raise c).mbxNew = t.mbxNew := rfl
@[simp] theorem Strand.raise_digest (t : Strand) (c : Cause) : (t.raise c).digest = t.digest := rfl
@[simp] theorem Strand.raise_image (t : Strand) (c : Cause) : (t.raise c).image = t.image := rfl
@[simp] theorem Strand.raise_entries (t : Strand) (c : Cause) : (t.raise c).entries = t.entries := rfl
@[simp] theorem Strand.raise_param (t : Strand) (c : Cause) : (t.raise c).param = t.param := rfl
@[simp] theorem Strand.raise_dataVa (t : Strand) (c : Cause) : (t.raise c).dataVa = t.dataVa := rfl
@[simp] theorem Strand.raise_status (t : Strand) (c : Cause) : (t.raise c).status = t.status := rfl
@[simp] theorem Strand.raise_freeze (t : Strand) (c : Cause) : (t.raise c).freeze = t.freeze := rfl
@[simp] theorem Strand.raise_walks (t : Strand) (c : Cause) : (t.raise c).walks = t.walks := rfl
@[simp] theorem Strand.raise_fills (t : Strand) (c : Cause) : (t.raise c).fills = t.fills := rfl
@[simp] theorem Strand.raise_icinvs (t : Strand) (c : Cause) : (t.raise c).icinvs = t.icinvs := rfl
@[simp] theorem Strand.raise_waitSaw (t : Strand) (c : Cause) : (t.raise c).waitSaw = t.waitSaw := rfl
@[simp] theorem Strand.raise_raised (t : Strand) (c : Cause) : (t.raise c).raised = t.raised ++ [{ c with frozen := t.still }] := rfl
@[simp] theorem Strand.raise_taking (t : Strand) (c : Cause) : (t.raise c).taking = t.taking := rfl
@[simp] theorem Strand.raise_holdAt (t : Strand) (c : Cause) : (t.raise c).holdAt = t.holdAt := rfl
@[simp] theorem Strand.raise_holdReq (t : Strand) (c : Cause) : (t.raise c).holdReq = t.holdReq := rfl
@[simp] theorem Strand.raise_linkHeld (t : Strand) (c : Cause) : (t.raise c).linkHeld = t.linkHeld := rfl
@[simp] theorem Strand.raise_stopCyc (t : Strand) (c : Cause) : (t.raise c).stopCyc = t.stopCyc := rfl
@[simp] theorem Strand.raise_region (t : Strand) (c : Cause) : (t.raise c).region = t.region := rfl
@[simp] theorem Strand.raise_decl (t : Strand) (c : Cause) : (t.raise c).decl = t.decl := rfl
@[simp] theorem Strand.raise_molt (t : Strand) (c : Cause) : (t.raise c).molt = t.molt := rfl
@[simp] theorem Strand.raise_moltResult (t : Strand) (c : Cause) : (t.raise c).moltResult = t.moltResult := rfl
@[simp] theorem Strand.raise_cores (t : Strand) (c : Cause) : (t.raise c).cores = t.cores := rfl
@[simp] theorem Strand.raise_startTime (t : Strand) (c : Cause) : (t.raise c).startTime = t.startTime := rfl
@[simp] theorem Strand.raise_resumed (t : Strand) (c : Cause) : (t.raise c).resumed = t.resumed := rfl

/-! ### `Core.modCl` -/

@[simp] theorem Core.modCl_phys (c : Core) (k : Nat) (f : Cluster → Cluster) : (c.modCl k f).phys = c.phys := rfl
@[simp] theorem Core.modCl_units (c : Core) (k : Nat) (f : Cluster → Cluster) : (c.modCl k f).units = c.units := rfl
@[simp] theorem Core.modCl_cl (c : Core) (k : Nat) (f : Cluster → Cluster) : (c.modCl k f).cl = vset c.cl k (f (c.cluster k)) := rfl
@[simp] theorem Core.modCl_planes (c : Core) (k : Nat) (f : Cluster → Cluster) : (c.modCl k f).planes = c.planes := rfl
@[simp] theorem Core.modCl_planePoison (c : Core) (k : Nat) (f : Cluster → Cluster) : (c.modCl k f).planePoison = c.planePoison := rfl
@[simp] theorem Core.modCl_spad (c : Core) (k : Nat) (f : Cluster → Cluster) : (c.modCl k f).spad = c.spad := rfl
@[simp] theorem Core.modCl_spadPoison (c : Core) (k : Nat) (f : Cluster → Cluster) : (c.modCl k f).spadPoison = c.spadPoison := rfl
@[simp] theorem Core.modCl_tags (c : Core) (k : Nat) (f : Cluster → Cluster) : (c.modCl k f).tags = c.tags := rfl
@[simp] theorem Core.modCl_coming (c : Core) (k : Nat) (f : Cluster → Cluster) : (c.modCl k f).coming = c.coming := rfl
@[simp] theorem Core.modCl_acc (c : Core) (k : Nat) (f : Cluster → Cluster) : (c.modCl k f).acc = c.acc := rfl
@[simp] theorem Core.modCl_banks (c : Core) (k : Nat) (f : Cluster → Cluster) : (c.modCl k f).banks = c.banks := rfl
@[simp] theorem Core.modCl_shapes (c : Core) (k : Nat) (f : Cluster → Cluster) : (c.modCl k f).shapes = c.shapes := rfl
@[simp] theorem Core.modCl_fmt (c : Core) (k : Nat) (f : Cluster → Cluster) : (c.modCl k f).fmt = c.fmt := rfl
@[simp] theorem Core.modCl_me (c : Core) (k : Nat) (f : Cluster → Cluster) : (c.modCl k f).me = c.me := rfl
@[simp] theorem Core.modCl_te (c : Core) (k : Nat) (f : Cluster → Cluster) : (c.modCl k f).te = c.te := rfl
@[simp] theorem Core.modCl_re (c : Core) (k : Nat) (f : Cluster → Cluster) : (c.modCl k f).re = c.re := rfl
@[simp] theorem Core.modCl_bte (c : Core) (k : Nat) (f : Cluster → Cluster) : (c.modCl k f).bte = c.bte := rfl
@[simp] theorem Core.modCl_nest (c : Core) (k : Nat) (f : Cluster → Cluster) : (c.modCl k f).nest = c.nest := rfl
@[simp] theorem Core.modCl_cbusy (c : Core) (k : Nat) (f : Cluster → Cluster) : (c.modCl k f).cbusy = c.cbusy := rfl
@[simp] theorem Core.modCl_loads (c : Core) (k : Nat) (f : Cluster → Cluster) : (c.modCl k f).loads = c.loads := rfl
@[simp] theorem Core.modCl_rstep (c : Core) (k : Nat) (f : Cluster → Cluster) : (c.modCl k f).rstep = c.rstep := rfl
@[simp] theorem Core.modCl_rstopped (c : Core) (k : Nat) (f : Cluster → Cluster) : (c.modCl k f).rstopped = c.rstopped := rfl
@[simp] theorem Core.modCl_rgc (c : Core) (k : Nat) (f : Cluster → Cluster) : (c.modCl k f).rgc = c.rgc := rfl
@[simp] theorem Core.modCl_copies (c : Core) (k : Nat) (f : Cluster → Cluster) : (c.modCl k f).copies = c.copies := rfl
@[simp] theorem Core.modCl_copyNext (c : Core) (k : Nat) (f : Cluster → Cluster) : (c.modCl k f).copyNext = c.copyNext := rfl
@[simp] theorem Core.modCl_claims (c : Core) (k : Nat) (f : Cluster → Cluster) : (c.modCl k f).claims = c.claims := rfl
@[simp] theorem Core.modCl_pending (c : Core) (k : Nat) (f : Cluster → Cluster) : (c.modCl k f).pending = c.pending := rfl
@[simp] theorem Core.modCl_agenda (c : Core) (k : Nat) (f : Cluster → Cluster) : (c.modCl k f).agenda = c.agenda := rfl
@[simp] theorem Core.modCl_l1 (c : Core) (k : Nat) (f : Cluster → Cluster) : (c.modCl k f).l1 = c.l1 := rfl
@[simp] theorem Core.modCl_marks (c : Core) (k : Nat) (f : Cluster → Cluster) : (c.modCl k f).marks = c.marks := rfl

/-! ### `Core.sched` -/

@[simp] theorem Core.sched_phys (c : Core) (beat ord : Nat) (a : Act) : (c.sched beat ord a).phys = c.phys := rfl
@[simp] theorem Core.sched_units (c : Core) (beat ord : Nat) (a : Act) : (c.sched beat ord a).units = c.units := rfl
@[simp] theorem Core.sched_cl (c : Core) (beat ord : Nat) (a : Act) : (c.sched beat ord a).cl = c.cl := rfl
@[simp] theorem Core.sched_planes (c : Core) (beat ord : Nat) (a : Act) : (c.sched beat ord a).planes = c.planes := rfl
@[simp] theorem Core.sched_planePoison (c : Core) (beat ord : Nat) (a : Act) : (c.sched beat ord a).planePoison = c.planePoison := rfl
@[simp] theorem Core.sched_spad (c : Core) (beat ord : Nat) (a : Act) : (c.sched beat ord a).spad = c.spad := rfl
@[simp] theorem Core.sched_spadPoison (c : Core) (beat ord : Nat) (a : Act) : (c.sched beat ord a).spadPoison = c.spadPoison := rfl
@[simp] theorem Core.sched_tags (c : Core) (beat ord : Nat) (a : Act) : (c.sched beat ord a).tags = c.tags := rfl
@[simp] theorem Core.sched_coming (c : Core) (beat ord : Nat) (a : Act) : (c.sched beat ord a).coming = c.coming := rfl
@[simp] theorem Core.sched_acc (c : Core) (beat ord : Nat) (a : Act) : (c.sched beat ord a).acc = c.acc := rfl
@[simp] theorem Core.sched_banks (c : Core) (beat ord : Nat) (a : Act) : (c.sched beat ord a).banks = c.banks := rfl
@[simp] theorem Core.sched_shapes (c : Core) (beat ord : Nat) (a : Act) : (c.sched beat ord a).shapes = c.shapes := rfl
@[simp] theorem Core.sched_fmt (c : Core) (beat ord : Nat) (a : Act) : (c.sched beat ord a).fmt = c.fmt := rfl
@[simp] theorem Core.sched_me (c : Core) (beat ord : Nat) (a : Act) : (c.sched beat ord a).me = c.me := rfl
@[simp] theorem Core.sched_te (c : Core) (beat ord : Nat) (a : Act) : (c.sched beat ord a).te = c.te := rfl
@[simp] theorem Core.sched_re (c : Core) (beat ord : Nat) (a : Act) : (c.sched beat ord a).re = c.re := rfl
@[simp] theorem Core.sched_bte (c : Core) (beat ord : Nat) (a : Act) : (c.sched beat ord a).bte = c.bte := rfl
@[simp] theorem Core.sched_nest (c : Core) (beat ord : Nat) (a : Act) : (c.sched beat ord a).nest = c.nest := rfl
@[simp] theorem Core.sched_cbusy (c : Core) (beat ord : Nat) (a : Act) : (c.sched beat ord a).cbusy = c.cbusy := rfl
@[simp] theorem Core.sched_loads (c : Core) (beat ord : Nat) (a : Act) : (c.sched beat ord a).loads = c.loads := rfl
@[simp] theorem Core.sched_rstep (c : Core) (beat ord : Nat) (a : Act) : (c.sched beat ord a).rstep = c.rstep := rfl
@[simp] theorem Core.sched_rstopped (c : Core) (beat ord : Nat) (a : Act) : (c.sched beat ord a).rstopped = c.rstopped := rfl
@[simp] theorem Core.sched_rgc (c : Core) (beat ord : Nat) (a : Act) : (c.sched beat ord a).rgc = c.rgc := rfl
@[simp] theorem Core.sched_copies (c : Core) (beat ord : Nat) (a : Act) : (c.sched beat ord a).copies = c.copies := rfl
@[simp] theorem Core.sched_copyNext (c : Core) (beat ord : Nat) (a : Act) : (c.sched beat ord a).copyNext = c.copyNext := rfl
@[simp] theorem Core.sched_claims (c : Core) (beat ord : Nat) (a : Act) : (c.sched beat ord a).claims = c.claims := rfl
@[simp] theorem Core.sched_pending (c : Core) (beat ord : Nat) (a : Act) : (c.sched beat ord a).pending = c.pending := rfl
@[simp] theorem Core.sched_agenda (c : Core) (beat ord : Nat) (a : Act) : (c.sched beat ord a).agenda = insertTimed { beat, ord, act := a } c.agenda := rfl
@[simp] theorem Core.sched_l1 (c : Core) (beat ord : Nat) (a : Act) : (c.sched beat ord a).l1 = c.l1 := rfl
@[simp] theorem Core.sched_marks (c : Core) (beat ord : Nat) (a : Act) : (c.sched beat ord a).marks = c.marks := rfl

/-! ### `Cluster.pushL` -/

@[simp] theorem Cluster.pushL_inMask (c : Cluster) (v : Lanes) : (c.pushL v).inMask = c.inMask := rfl
@[simp] theorem Cluster.pushL_s (c : Cluster) (v : Lanes) : (c.pushL v).s = c.s := rfl
@[simp] theorem Cluster.pushL_p (c : Cluster) (v : Lanes) : (c.pushL v).p = c.p := rfl
@[simp] theorem Cluster.pushL_o (c : Cluster) (v : Lanes) : (c.pushL v).o = c.o := rfl
@[simp] theorem Cluster.pushL_l (c : Cluster) (v : Lanes) : (c.pushL v).l = #v[v, vget c.l 0 v, vget c.l 1 v, vget c.l 2 v] := rfl
@[simp] theorem Cluster.pushL_q (c : Cluster) (v : Lanes) : (c.pushL v).q = c.q := rfl
@[simp] theorem Cluster.pushL_seq (c : Cluster) (v : Lanes) : (c.pushL v).seq = c.seq := rfl
@[simp] theorem Cluster.pushL_sr (c : Cluster) (v : Lanes) : (c.pushL v).sr = c.sr := rfl
@[simp] theorem Cluster.pushL_tvec (c : Cluster) (v : Lanes) : (c.pushL v).tvec = c.tvec := rfl
@[simp] theorem Cluster.pushL_fmtbase (c : Cluster) (v : Lanes) : (c.pushL v).fmtbase = c.fmtbase := rfl
@[simp] theorem Cluster.pushL_fmtsel (c : Cluster) (v : Lanes) : (c.pushL v).fmtsel = c.fmtsel := rfl
@[simp] theorem Cluster.pushL_ta (c : Cluster) (v : Lanes) : (c.pushL v).ta = c.ta := rfl
@[simp] theorem Cluster.pushL_tb (c : Cluster) (v : Lanes) : (c.pushL v).tb = c.tb := rfl
@[simp] theorem Cluster.pushL_shadowRun (c : Cluster) (v : Lanes) : (c.pushL v).shadowRun = c.shadowRun := rfl
@[simp] theorem Cluster.pushL_halted (c : Cluster) (v : Lanes) : (c.pushL v).halted = c.halted := rfl
@[simp] theorem Cluster.pushL_waitb (c : Cluster) (v : Lanes) : (c.pushL v).waitb = c.waitb := rfl
@[simp] theorem Cluster.pushL_skip (c : Cluster) (v : Lanes) : (c.pushL v).skip = c.skip := rfl
@[simp] theorem Cluster.pushL_rdv (c : Cluster) (v : Lanes) : (c.pushL v).rdv = c.rdv := rfl
@[simp] theorem Cluster.pushL_gaps (c : Cluster) (v : Lanes) : (c.pushL v).gaps = c.gaps := rfl
@[simp] theorem Cluster.pushL_lq (c : Cluster) (v : Lanes) : (c.pushL v).lq = c.lq := rfl
@[simp] theorem Cluster.pushL_sq (c : Cluster) (v : Lanes) : (c.pushL v).sq = c.sq := rfl
@[simp] theorem Cluster.pushL_issued (c : Cluster) (v : Lanes) : (c.pushL v).issued = c.issued := rfl
@[simp] theorem Cluster.pushL_waits (c : Cluster) (v : Lanes) : (c.pushL v).waits = c.waits := rfl
@[simp] theorem Cluster.pushL_horizon (c : Cluster) (v : Lanes) : (c.pushL v).horizon = c.horizon := rfl
@[simp] theorem Cluster.pushL_slog (c : Cluster) (v : Lanes) : (c.pushL v).slog = c.slog := rfl
@[simp] theorem Cluster.pushL_arrive (c : Cluster) (v : Lanes) : (c.pushL v).arrive = c.arrive := rfl
@[simp] theorem Cluster.pushL_saw (c : Cluster) (v : Lanes) : (c.pushL v).saw = c.saw := rfl
@[simp] theorem Cluster.pushL_lastIssue (c : Cluster) (v : Lanes) : (c.pushL v).lastIssue = c.lastIssue := rfl
@[simp] theorem Cluster.pushL_l0 (c : Cluster) (v : Lanes) : (c.pushL v).l0 = c.l0 := rfl
@[simp] theorem Cluster.pushL_gone (c : Cluster) (v : Lanes) : (c.pushL v).gone = c.gone := rfl

/-! ### `Cluster.ws` -/

@[simp] theorem Cluster.ws_inMask (c : Cluster) (x : Nat) (r : Reg) (v : W64) : (c.ws x r v).inMask = c.inMask := by
  unfold Cluster.ws; split <;> rfl
@[simp] theorem Cluster.ws_p (c : Cluster) (x : Nat) (r : Reg) (v : W64) : (c.ws x r v).p = c.p := by
  unfold Cluster.ws; split <;> rfl
@[simp] theorem Cluster.ws_o (c : Cluster) (x : Nat) (r : Reg) (v : W64) : (c.ws x r v).o = c.o := by
  unfold Cluster.ws; split <;> rfl
@[simp] theorem Cluster.ws_l (c : Cluster) (x : Nat) (r : Reg) (v : W64) : (c.ws x r v).l = c.l := by
  unfold Cluster.ws; split <;> rfl
@[simp] theorem Cluster.ws_q (c : Cluster) (x : Nat) (r : Reg) (v : W64) : (c.ws x r v).q = c.q := by
  unfold Cluster.ws; split <;> rfl
@[simp] theorem Cluster.ws_seq (c : Cluster) (x : Nat) (r : Reg) (v : W64) : (c.ws x r v).seq = c.seq := by
  unfold Cluster.ws; split <;> rfl
@[simp] theorem Cluster.ws_sr (c : Cluster) (x : Nat) (r : Reg) (v : W64) : (c.ws x r v).sr = c.sr := by
  unfold Cluster.ws; split <;> rfl
@[simp] theorem Cluster.ws_tvec (c : Cluster) (x : Nat) (r : Reg) (v : W64) : (c.ws x r v).tvec = c.tvec := by
  unfold Cluster.ws; split <;> rfl
@[simp] theorem Cluster.ws_fmtbase (c : Cluster) (x : Nat) (r : Reg) (v : W64) : (c.ws x r v).fmtbase = c.fmtbase := by
  unfold Cluster.ws; split <;> rfl
@[simp] theorem Cluster.ws_fmtsel (c : Cluster) (x : Nat) (r : Reg) (v : W64) : (c.ws x r v).fmtsel = c.fmtsel := by
  unfold Cluster.ws; split <;> rfl
@[simp] theorem Cluster.ws_ta (c : Cluster) (x : Nat) (r : Reg) (v : W64) : (c.ws x r v).ta = c.ta := by
  unfold Cluster.ws; split <;> rfl
@[simp] theorem Cluster.ws_tb (c : Cluster) (x : Nat) (r : Reg) (v : W64) : (c.ws x r v).tb = c.tb := by
  unfold Cluster.ws; split <;> rfl
@[simp] theorem Cluster.ws_shadowRun (c : Cluster) (x : Nat) (r : Reg) (v : W64) : (c.ws x r v).shadowRun = c.shadowRun := by
  unfold Cluster.ws; split <;> rfl
@[simp] theorem Cluster.ws_halted (c : Cluster) (x : Nat) (r : Reg) (v : W64) : (c.ws x r v).halted = c.halted := by
  unfold Cluster.ws; split <;> rfl
@[simp] theorem Cluster.ws_waitb (c : Cluster) (x : Nat) (r : Reg) (v : W64) : (c.ws x r v).waitb = c.waitb := by
  unfold Cluster.ws; split <;> rfl
@[simp] theorem Cluster.ws_skip (c : Cluster) (x : Nat) (r : Reg) (v : W64) : (c.ws x r v).skip = c.skip := by
  unfold Cluster.ws; split <;> rfl
@[simp] theorem Cluster.ws_rdv (c : Cluster) (x : Nat) (r : Reg) (v : W64) : (c.ws x r v).rdv = c.rdv := by
  unfold Cluster.ws; split <;> rfl
@[simp] theorem Cluster.ws_gaps (c : Cluster) (x : Nat) (r : Reg) (v : W64) : (c.ws x r v).gaps = c.gaps := by
  unfold Cluster.ws; split <;> rfl
@[simp] theorem Cluster.ws_lq (c : Cluster) (x : Nat) (r : Reg) (v : W64) : (c.ws x r v).lq = c.lq := by
  unfold Cluster.ws; split <;> rfl
@[simp] theorem Cluster.ws_sq (c : Cluster) (x : Nat) (r : Reg) (v : W64) : (c.ws x r v).sq = c.sq := by
  unfold Cluster.ws; split <;> rfl
@[simp] theorem Cluster.ws_issued (c : Cluster) (x : Nat) (r : Reg) (v : W64) : (c.ws x r v).issued = c.issued := by
  unfold Cluster.ws; split <;> rfl
@[simp] theorem Cluster.ws_waits (c : Cluster) (x : Nat) (r : Reg) (v : W64) : (c.ws x r v).waits = c.waits := by
  unfold Cluster.ws; split <;> rfl
@[simp] theorem Cluster.ws_horizon (c : Cluster) (x : Nat) (r : Reg) (v : W64) : (c.ws x r v).horizon = c.horizon := by
  unfold Cluster.ws; split <;> rfl
@[simp] theorem Cluster.ws_arrive (c : Cluster) (x : Nat) (r : Reg) (v : W64) : (c.ws x r v).arrive = c.arrive := by
  unfold Cluster.ws; split <;> rfl
@[simp] theorem Cluster.ws_saw (c : Cluster) (x : Nat) (r : Reg) (v : W64) : (c.ws x r v).saw = c.saw := by
  unfold Cluster.ws; split <;> rfl
@[simp] theorem Cluster.ws_lastIssue (c : Cluster) (x : Nat) (r : Reg) (v : W64) : (c.ws x r v).lastIssue = c.lastIssue := by
  unfold Cluster.ws; split <;> rfl
@[simp] theorem Cluster.ws_l0 (c : Cluster) (x : Nat) (r : Reg) (v : W64) : (c.ws x r v).l0 = c.l0 := by
  unfold Cluster.ws; split <;> rfl
@[simp] theorem Cluster.ws_gone (c : Cluster) (x : Nat) (r : Reg) (v : W64) : (c.ws x r v).gone = c.gone := by
  unfold Cluster.ws; split <;> rfl

/-! ### `Cluster.wp` -/

@[simp] theorem Cluster.wp_inMask (c : Cluster) (n : Nat) (v m : W64) : (c.wp n v m).inMask = c.inMask := by
  unfold Cluster.wp; split <;> rfl
@[simp] theorem Cluster.wp_s (c : Cluster) (n : Nat) (v m : W64) : (c.wp n v m).s = c.s := by
  unfold Cluster.wp; split <;> rfl
@[simp] theorem Cluster.wp_o (c : Cluster) (n : Nat) (v m : W64) : (c.wp n v m).o = c.o := by
  unfold Cluster.wp; split <;> rfl
@[simp] theorem Cluster.wp_l (c : Cluster) (n : Nat) (v m : W64) : (c.wp n v m).l = c.l := by
  unfold Cluster.wp; split <;> rfl
@[simp] theorem Cluster.wp_q (c : Cluster) (n : Nat) (v m : W64) : (c.wp n v m).q = c.q := by
  unfold Cluster.wp; split <;> rfl
@[simp] theorem Cluster.wp_seq (c : Cluster) (n : Nat) (v m : W64) : (c.wp n v m).seq = c.seq := by
  unfold Cluster.wp; split <;> rfl
@[simp] theorem Cluster.wp_sr (c : Cluster) (n : Nat) (v m : W64) : (c.wp n v m).sr = c.sr := by
  unfold Cluster.wp; split <;> rfl
@[simp] theorem Cluster.wp_tvec (c : Cluster) (n : Nat) (v m : W64) : (c.wp n v m).tvec = c.tvec := by
  unfold Cluster.wp; split <;> rfl
@[simp] theorem Cluster.wp_fmtbase (c : Cluster) (n : Nat) (v m : W64) : (c.wp n v m).fmtbase = c.fmtbase := by
  unfold Cluster.wp; split <;> rfl
@[simp] theorem Cluster.wp_fmtsel (c : Cluster) (n : Nat) (v m : W64) : (c.wp n v m).fmtsel = c.fmtsel := by
  unfold Cluster.wp; split <;> rfl
@[simp] theorem Cluster.wp_ta (c : Cluster) (n : Nat) (v m : W64) : (c.wp n v m).ta = c.ta := by
  unfold Cluster.wp; split <;> rfl
@[simp] theorem Cluster.wp_tb (c : Cluster) (n : Nat) (v m : W64) : (c.wp n v m).tb = c.tb := by
  unfold Cluster.wp; split <;> rfl
@[simp] theorem Cluster.wp_shadowRun (c : Cluster) (n : Nat) (v m : W64) : (c.wp n v m).shadowRun = c.shadowRun := by
  unfold Cluster.wp; split <;> rfl
@[simp] theorem Cluster.wp_halted (c : Cluster) (n : Nat) (v m : W64) : (c.wp n v m).halted = c.halted := by
  unfold Cluster.wp; split <;> rfl
@[simp] theorem Cluster.wp_waitb (c : Cluster) (n : Nat) (v m : W64) : (c.wp n v m).waitb = c.waitb := by
  unfold Cluster.wp; split <;> rfl
@[simp] theorem Cluster.wp_skip (c : Cluster) (n : Nat) (v m : W64) : (c.wp n v m).skip = c.skip := by
  unfold Cluster.wp; split <;> rfl
@[simp] theorem Cluster.wp_rdv (c : Cluster) (n : Nat) (v m : W64) : (c.wp n v m).rdv = c.rdv := by
  unfold Cluster.wp; split <;> rfl
@[simp] theorem Cluster.wp_gaps (c : Cluster) (n : Nat) (v m : W64) : (c.wp n v m).gaps = c.gaps := by
  unfold Cluster.wp; split <;> rfl
@[simp] theorem Cluster.wp_lq (c : Cluster) (n : Nat) (v m : W64) : (c.wp n v m).lq = c.lq := by
  unfold Cluster.wp; split <;> rfl
@[simp] theorem Cluster.wp_sq (c : Cluster) (n : Nat) (v m : W64) : (c.wp n v m).sq = c.sq := by
  unfold Cluster.wp; split <;> rfl
@[simp] theorem Cluster.wp_issued (c : Cluster) (n : Nat) (v m : W64) : (c.wp n v m).issued = c.issued := by
  unfold Cluster.wp; split <;> rfl
@[simp] theorem Cluster.wp_waits (c : Cluster) (n : Nat) (v m : W64) : (c.wp n v m).waits = c.waits := by
  unfold Cluster.wp; split <;> rfl
@[simp] theorem Cluster.wp_horizon (c : Cluster) (n : Nat) (v m : W64) : (c.wp n v m).horizon = c.horizon := by
  unfold Cluster.wp; split <;> rfl
@[simp] theorem Cluster.wp_slog (c : Cluster) (n : Nat) (v m : W64) : (c.wp n v m).slog = c.slog := by
  unfold Cluster.wp; split <;> rfl
@[simp] theorem Cluster.wp_arrive (c : Cluster) (n : Nat) (v m : W64) : (c.wp n v m).arrive = c.arrive := by
  unfold Cluster.wp; split <;> rfl
@[simp] theorem Cluster.wp_saw (c : Cluster) (n : Nat) (v m : W64) : (c.wp n v m).saw = c.saw := by
  unfold Cluster.wp; split <;> rfl
@[simp] theorem Cluster.wp_lastIssue (c : Cluster) (n : Nat) (v m : W64) : (c.wp n v m).lastIssue = c.lastIssue := by
  unfold Cluster.wp; split <;> rfl
@[simp] theorem Cluster.wp_l0 (c : Cluster) (n : Nat) (v m : W64) : (c.wp n v m).l0 = c.l0 := by
  unfold Cluster.wp; split <;> rfl
@[simp] theorem Cluster.wp_gone (c : Cluster) (n : Nat) (v m : W64) : (c.wp n v m).gone = c.gone := by
  unfold Cluster.wp; split <;> rfl

/-! ### `Cluster.landVec` -/

@[simp] theorem Cluster.landVec_inMask (c : Cluster) (d : VDst) (a : W64) (v : Lanes) : (c.landVec d a v).inMask = c.inMask := by
  cases d <;> rfl
@[simp] theorem Cluster.landVec_s (c : Cluster) (d : VDst) (a : W64) (v : Lanes) : (c.landVec d a v).s = c.s := by
  cases d <;> rfl
@[simp] theorem Cluster.landVec_p (c : Cluster) (d : VDst) (a : W64) (v : Lanes) : (c.landVec d a v).p = c.p := by
  cases d <;> rfl
@[simp] theorem Cluster.landVec_q (c : Cluster) (d : VDst) (a : W64) (v : Lanes) : (c.landVec d a v).q = c.q := by
  cases d <;> rfl
@[simp] theorem Cluster.landVec_seq (c : Cluster) (d : VDst) (a : W64) (v : Lanes) : (c.landVec d a v).seq = c.seq := by
  cases d <;> rfl
@[simp] theorem Cluster.landVec_sr (c : Cluster) (d : VDst) (a : W64) (v : Lanes) : (c.landVec d a v).sr = c.sr := by
  cases d <;> rfl
@[simp] theorem Cluster.landVec_tvec (c : Cluster) (d : VDst) (a : W64) (v : Lanes) : (c.landVec d a v).tvec = c.tvec := by
  cases d <;> rfl
@[simp] theorem Cluster.landVec_fmtbase (c : Cluster) (d : VDst) (a : W64) (v : Lanes) : (c.landVec d a v).fmtbase = c.fmtbase := by
  cases d <;> rfl
@[simp] theorem Cluster.landVec_fmtsel (c : Cluster) (d : VDst) (a : W64) (v : Lanes) : (c.landVec d a v).fmtsel = c.fmtsel := by
  cases d <;> rfl
@[simp] theorem Cluster.landVec_ta (c : Cluster) (d : VDst) (a : W64) (v : Lanes) : (c.landVec d a v).ta = c.ta := by
  cases d <;> rfl
@[simp] theorem Cluster.landVec_tb (c : Cluster) (d : VDst) (a : W64) (v : Lanes) : (c.landVec d a v).tb = c.tb := by
  cases d <;> rfl
@[simp] theorem Cluster.landVec_shadowRun (c : Cluster) (d : VDst) (a : W64) (v : Lanes) : (c.landVec d a v).shadowRun = c.shadowRun := by
  cases d <;> rfl
@[simp] theorem Cluster.landVec_halted (c : Cluster) (d : VDst) (a : W64) (v : Lanes) : (c.landVec d a v).halted = c.halted := by
  cases d <;> rfl
@[simp] theorem Cluster.landVec_waitb (c : Cluster) (d : VDst) (a : W64) (v : Lanes) : (c.landVec d a v).waitb = c.waitb := by
  cases d <;> rfl
@[simp] theorem Cluster.landVec_skip (c : Cluster) (d : VDst) (a : W64) (v : Lanes) : (c.landVec d a v).skip = c.skip := by
  cases d <;> rfl
@[simp] theorem Cluster.landVec_rdv (c : Cluster) (d : VDst) (a : W64) (v : Lanes) : (c.landVec d a v).rdv = c.rdv := by
  cases d <;> rfl
@[simp] theorem Cluster.landVec_gaps (c : Cluster) (d : VDst) (a : W64) (v : Lanes) : (c.landVec d a v).gaps = c.gaps := by
  cases d <;> rfl
@[simp] theorem Cluster.landVec_lq (c : Cluster) (d : VDst) (a : W64) (v : Lanes) : (c.landVec d a v).lq = c.lq := by
  cases d <;> rfl
@[simp] theorem Cluster.landVec_sq (c : Cluster) (d : VDst) (a : W64) (v : Lanes) : (c.landVec d a v).sq = c.sq := by
  cases d <;> rfl
@[simp] theorem Cluster.landVec_issued (c : Cluster) (d : VDst) (a : W64) (v : Lanes) : (c.landVec d a v).issued = c.issued := by
  cases d <;> rfl
@[simp] theorem Cluster.landVec_waits (c : Cluster) (d : VDst) (a : W64) (v : Lanes) : (c.landVec d a v).waits = c.waits := by
  cases d <;> rfl
@[simp] theorem Cluster.landVec_horizon (c : Cluster) (d : VDst) (a : W64) (v : Lanes) : (c.landVec d a v).horizon = c.horizon := by
  cases d <;> rfl
@[simp] theorem Cluster.landVec_slog (c : Cluster) (d : VDst) (a : W64) (v : Lanes) : (c.landVec d a v).slog = c.slog := by
  cases d <;> rfl
@[simp] theorem Cluster.landVec_arrive (c : Cluster) (d : VDst) (a : W64) (v : Lanes) : (c.landVec d a v).arrive = c.arrive := by
  cases d <;> rfl
@[simp] theorem Cluster.landVec_saw (c : Cluster) (d : VDst) (a : W64) (v : Lanes) : (c.landVec d a v).saw = c.saw := by
  cases d <;> rfl
@[simp] theorem Cluster.landVec_lastIssue (c : Cluster) (d : VDst) (a : W64) (v : Lanes) : (c.landVec d a v).lastIssue = c.lastIssue := by
  cases d <;> rfl
@[simp] theorem Cluster.landVec_l0 (c : Cluster) (d : VDst) (a : W64) (v : Lanes) : (c.landVec d a v).l0 = c.l0 := by
  cases d <;> rfl
@[simp] theorem Cluster.landVec_gone (c : Cluster) (d : VDst) (a : W64) (v : Lanes) : (c.landVec d a v).gone = c.gone := by
  cases d <;> rfl

/-! ## Look-ups -/

/-- A vector reads back what was written at an index inside it, and at another index what it held. -/
theorem vget_vset {α : Type} {n : Nat} (v : Vector α n) (i j : Nat) (x d : α) :
    vget (vset v i x) j d = if i = j ∧ i < n then x else vget v j d := by
  unfold vget vset
  by_cases hi : i < n
  · by_cases hj : j < n
    · simp [hi, hj, Vector.getElem_set]
    · have : ¬ (i = j) := by omega
      simp [hj, this]
  · simp [hi]

/-- The stack that was changed. -/
@[simp] theorem State.stack_modStack (s : State) {k : Nat} (f : Stack → Stack) (h : k < 4) :
    (s.modStack k f).stack k = f (s.stack k) := by
  simp [State.stack, vget_vset, h]

/-- Another stack. -/
theorem State.stack_modStack_ne (s : State) {k j : Nat} (f : Stack → Stack) (h : k ≠ j) :
    (s.modStack k f).stack j = s.stack j := by
  simp [State.stack, vget_vset, h]

@[simp] theorem State.stack_modStrand (s : State) (n k : Nat) (f : Strand → Strand) : (s.modStrand n f).stack k = s.stack k := rfl

/-- The queue that was changed. -/
@[simp] theorem State.queue_modQueue (s : State) {n : Nat} (f : HostQueue → HostQueue) (h : n < 64) :
    (s.modQueue n f).queue n = f (s.queue n) := by
  simp [State.queue, vget_vset, h]

/-- Another queue. -/
theorem State.queue_modQueue_ne (s : State) {n m : Nat} (f : HostQueue → HostQueue) (h : n ≠ m) :
    (s.modQueue n f).queue m = s.queue m := by
  simp [State.queue, vget_vset, h]

@[simp] theorem State.queue_modCtx (s : State) (n m : Nat) (f : Context → Context) : (s.modCtx n f).queue m = s.queue m := rfl

/-- An element found by its number, after a change of it that keeps the number. -/
theorem find_map_key {α : Type} (key : α → Nat) (f : α → α) (n : Nat) (hf : ∀ a, key a = n → key (f a) = n) (xs : List α) :
    (xs.map fun a => if key a == n then f a else a).find? (fun a => key a == n) = (xs.find? fun a => key a == n).map f := by
  induction xs with
  | nil => rfl
  | cons a xs ih =>
    by_cases h : key a = n
    · simp [h, hf a h]
    · simp only [List.map_cons, List.find?_cons, beq_iff_eq, h, if_false]
      rw [show (key a == n) = false from beq_eq_false_iff_ne.2 h]
      simpa using ih

/-- The strand that was changed. -/
theorem State.strand_modStrand (s : State) (n : Nat) (f : Strand → Strand) (hf : ∀ t : Strand, t.sid = n → (f t).sid = n) :
    (s.modStrand n f).strand? n = (s.strand? n).map f :=
  find_map_key Strand.sid f n hf s.strands

/-- The context that was changed. -/
theorem State.ctx_modCtx (s : State) (n : Nat) (f : Context → Context) (hf : ∀ c : Context, c.num = n → (f c).num = n) :
    (s.modCtx n f).ctx? n = (s.ctx? n).map f :=
  find_map_key Context.num f n hf s.contexts

/-- A context that is found has its number. -/
theorem State.ctx_num {s : State} {n : Nat} {c : Context} (h : s.ctx? n = some c) : c.num = n := by
  simpa using List.find?_some h

/-- A strand that is found has its identifier. -/
theorem State.strand_sid {s : State} {n : Nat} {t : Strand} (h : s.strand? n = some t) : t.sid = n := by
  simpa using List.find?_some h

/-- What a place reads does not depend on the strands. -/
@[simp] theorem State.busByte_modStrand (s : State) (n : Nat) (f : Strand → Strand) (p : Place) (b : Nat) :
    (s.modStrand n f).busByte p b = s.busByte p b := rfl

@[simp] theorem State.busByte_modCtx (s : State) (n : Nat) (f : Context → Context) (p : Place) (b : Nat) :
    (s.modCtx n f).busByte p b = s.busByte p b := rfl

@[simp] theorem State.busByte_modStack (s : State) (n : Nat) (f : Stack → Stack) (p : Place) (b : Nat) :
    (s.modStack n f).busByte p b = s.busByte p b := rfl

end Sys2Proof.Machine
end

