-- ==== Sys2Proof/Laws/Ops.lean ====
section
/-! SUPPORT. What each shared operation answers, said once: in the direct form, and where it matters in the form "if it answers
a next state, then". -/

namespace Sys2Proof.Machine

/-! ## Views -/

/-- A view's strand, core and cluster are those of the state. -/
theorem State.view_eq {s : State} {v : View} (h : s.view = some v) :
    s.cur = some v.cur ∧ s.strand? v.cur.sid = some v.st ∧ v.st.cores[v.cur.core]? = some v.co ∧ v.cl = v.co.cluster v.cur.cl := by
  unfold State.view at h
  cases h1 : s.cur with
  | none => simp [h1] at h
  | some c =>
    cases h2 : s.strand? c.sid with
    | none => simp [h1, h2] at h
    | some t =>
      cases h3 : t.cores[c.core]? with
      | none => simp [h1, h2, h3] at h
      | some co =>
        simp only [h1, h2, h3, Option.some.injEq] at h
        subst h
        exact ⟨rfl, h2, h3, rfl⟩

/-- A state has the view its parts make. -/
theorem State.view_of {s : State} {c : Cur} {t : Strand} {co : Core} (h1 : s.cur = some c) (h2 : s.strand? c.sid = some t)
    (h3 : t.cores[c.core]? = some co) : s.view = some ⟨c, t, co, co.cluster c.cl⟩ := by
  simp [State.view, h1, h2, h3]

theorem withView_some {s : State} {v : View} (f : View → State) (hv : s.view = some v) : withView s f = .next (f v) := by
  simp [withView, hv]

/-- A syllable that answers has a view. -/
theorem withView_next {s t : State} {f : View → State} (h : withView s f = .next t) : ∃ v, s.view = some v ∧ t = f v := by
  unfold withView at h
  cases hv : s.view with
  | none => simp [hv] at h
  | some v =>
    simp only [hv, Host.Outcome.next.injEq] at h
    exact ⟨v, rfl, h.symm⟩

/-! ## Guards (R78) -/

theorem onS_true {s : State} {v : View} {h : SHead} {f : View → State} (hv : s.view = some v) (hg : v.guard h.neg h.g = true) :
    onS h s f = .next (f v) := by
  simp [onS, withView, hv, hg]

theorem onS_false {s : State} {v : View} {h : SHead} {f : View → State} (hv : s.view = some v) (hg : v.guard h.neg h.g = false) :
    onS h s f = .next s := by
  simp [onS, withView, hv, hg]

theorem onS_next {s t : State} {h : SHead} {f : View → State} (ht : onS h s f = .next t) :
    ∃ v, s.view = some v ∧ (v.guard h.neg h.g = true ∧ t = f v ∨ v.guard h.neg h.g = false ∧ t = s) := by
  obtain ⟨v, hv, rfl⟩ := withView_next ht
  refine ⟨v, hv, ?_⟩
  cases v.guard h.neg h.g <;> simp

theorem onMX_true {s : State} {v : View} {h : Head} {f : View → State} (hv : s.view = some v) (hg : v.guard h.neg h.g = true) :
    onMX h s f = .next (f v) := by
  simp [onMX, withView, hv, hg]

theorem onMX_false {s : State} {v : View} {h : Head} {f : View → State} (hv : s.view = some v) (hg : v.guard h.neg h.g = false) :
    onMX h s f = .next s := by
  simp [onMX, withView, hv, hg]

theorem onMX_next {s t : State} {h : Head} {f : View → State} (ht : onMX h s f = .next t) :
    ∃ v, s.view = some v ∧ (v.guard h.neg h.g = true ∧ t = f v ∨ v.guard h.neg h.g = false ∧ t = s) := by
  obtain ⟨v, hv, rfl⟩ := withView_next ht
  refine ⟨v, hv, ?_⟩
  cases v.guard h.neg h.g <;> simp

/-- A syllable with a register-file operand (R81). -/
theorem onPlane_next {s t : State} {h : Head} {p : BitVec 5} {f : View → State} (ht : onPlane h p s f = .next t) :
    ∃ v, s.view = some v ∧ (v.st.fp.planes ≤ p.toNat ∧ t = v.raise s cBounds (BitVec.ofNat 64 p.toNat) ∨
      p.toNat < v.st.fp.planes ∧ (v.guard h.neg h.g = true ∧ t = f v ∨ v.guard h.neg h.g = false ∧ t = s)) := by
  obtain ⟨v, hv, rfl⟩ := withView_next ht
  refine ⟨v, hv, ?_⟩
  by_cases hp : v.st.fp.planes ≤ p.toNat
  · exact .inl ⟨hp, if_pos hp⟩
  · rw [if_neg hp]
    refine .inr ⟨Nat.lt_of_not_le hp, ?_⟩
    cases v.guard h.neg h.g <;> simp

theorem onPlane_true {s : State} {v : View} {h : Head} {p : BitVec 5} {f : View → State} (hv : s.view = some v)
    (hp : p.toNat < v.st.fp.planes) (hg : v.guard h.neg h.g = true) : onPlane h p s f = .next (f v) := by
  simp [onPlane, withView, hv, hg, Nat.not_le.2 hp]

theorem onEng_true {s : State} {v : View} {h : Head} {u : Unit'} {f : View → State} (hv : s.view = some v)
    (hu : v.st.fp.names u = true) (hg : v.guard h.neg h.g = true) : onEng h u s f = .next (f v) := by
  simp [onEng, withView, hv, hg, hu]

/-! ## Vector syllables (R80, R103, R105, R246) -/

theorem readable_dry {v : View} {as : List VSrc} (h : v.readable as) : as.any v.dry = false := by
  simp only [List.any_eq_false]
  intro a ha
  unfold View.dry
  cases hq : srcQueue a with
  | none => simp
  | some n => simpa using h a ha n hq

theorem affords_exceeds {v : View} {lvl x : Nat} (h : v.affords lvl) : v.st.region.exceeds x lvl = false := by
  unfold Region.exceeds
  rcases h with h | h
  · simp [h]
  · simp only [Bool.and_eq_false_iff, decide_eq_false_iff_not, not_lt]
    exact .inl (.inr h)

theorem affords_zero (v : View) : v.affords 0 := .inr (Nat.zero_le _)

theorem affords_mono {v : View} {a b : Nat} (h : v.affords a) (hb : b ≤ a) : v.affords b := h.imp id (Nat.le_trans hb)

theorem onV_ok {s : State} {v : View} {lvl : Nat} {as : List VSrc} {f : View → State → State} (hv : s.view = some v)
    (hr : v.readable as) (ha : v.affords lvl) : onV lvl as s f = .next (f v (v.modCl s fun c => c.pop as)) := by
  simp [onV, withView, hv, readable_dry hr, affords_exceeds ha]

theorem lane_mk (f : Nat → W32) {j : Nat} (h : j < 64) : lane (mkLanes f) j = f j := by simp [lane, mkLanes, h]

theorem lane_map2 (f : W32 → W32 → W32) (a b : Lanes) {j : Nat} (h : j < 64) : lane (map2 f a b) j = f (lane a j) (lane b j) :=
  lane_mk _ h

/-- A scalar result through the guard. -/
theorem lands_onS {s : State} {v : View} {h : SHead} {lat : Nat} {d : Reg} {i : Instr} {P : W64 → Prop} (g : View → W64)
    (hv : s.view = some v) (hg : v.guard h.neg h.g = true)
    (hi : exec i s = onS h s fun v => v.landS s lat d (g v)) (hp : P (g v)) : LandsScalar s v lat d i P :=
  ⟨g v, by rw [hi, onS_true hv hg]; rfl, hp⟩

/-- A predicate result through the guard. -/
theorem landsP_onS {s : State} {v : View} {h : SHead} {d : PReg} {i : Instr} {z : W64} (g : View → W64)
    (hv : s.view = some v) (hg : v.guard h.neg h.g = true)
    (hi : exec i s = onS h s fun v => v.landP s d (g v)) (hp : g v = z) : LandsPred s v d i z := by
  unfold LandsPred
  rw [hi, onS_true hv hg, hp]; rfl

/-- A vector result. -/
theorem lands_onV {s : State} {v : View} {lvl lat : Nat} {as : List VSrc} {h : Head} {d : VDst} {i : Instr} {f : Nat → W32}
    (g : View → Lanes) (hv : s.view = some v) (hr : v.readable as) (ha : v.affords lvl)
    (hi : exec i s = onV lvl as s fun v s => v.landV s lat h d (g v)) (hp : ∀ j < 64, lane (g v) j = f j) :
    LandsLanes s v as lat h d i f :=
  ⟨g v, by rw [hi, onV_ok hv hr ha]; rfl, hp⟩

/-! ## Engines and elastic entries (R134, R185, R225) -/

theorem eview_ref {s : State} {c : CoreRef} {v : EView} (h : s.eview c = some v) : v.ref = c := by
  unfold State.eview at h
  cases h1 : s.strand? c.strand with
  | none => simp [h1] at h
  | some st =>
    cases h2 : st.cores[c.core]? with
    | none => simp [h1, h2] at h
    | some co => simp [h1, h2] at h; rw [← h]

/-- A command that is due leaves its queue and starts. -/
theorem startCmd_eq {s : State} {c : CoreRef} {u : Unit'} {v : EView} {cmd : Cmd} {ok : Instr → Bool} {f}
    (h : s.startsCmd c u v cmd) (hok : ok cmd.ins = true) : startCmd c u ok s f = .next (f v cmd (v.took s u)) := by
  obtain ⟨h1, h2, h3⟩ := h
  have hs : (v.co.eng u).swaps.any (fun k => decide (k.stamp < v.x)) = false := by
    simpa only [List.any_eq_false, decide_eq_true_eq, not_lt] using h3
  simp [startCmd, h1, h2, hok, hs, EView.took]

/-- A start that answers has a command that is due, and either raises SCHEDULE or has its effect. -/
theorem startCmd_next {s t : State} {c : CoreRef} {u : Unit'} {ok : Instr → Bool} {f} (h : startCmd c u ok s f = .next t) :
    ∃ v cmd, s.eview c = some v ∧ v.co.due u v.x = some cmd ∧ ok cmd.ins = true ∧
      (t = (v.took s u).raiseE c cmd cSchedule ∨ t = f v cmd (v.took s u)) := by
  unfold startCmd at h
  cases hv : s.eview c with
  | none => simp [hv] at h
  | some v =>
    cases hd : v.co.due u v.x with
    | none => simp [hv, hd] at h
    | some cmd =>
      cases hok : ok cmd.ins with
      | false => simp [hv, hd, hok] at h
      | true =>
        simp only [hv, hd, hok, if_true, Host.Outcome.next.injEq] at h
        refine ⟨v, cmd, rfl, hd, hok, ?_⟩
        rw [← h]
        split
        · exact .inl rfl
        · exact .inr rfl

theorem onEntry_next {s t : State} {r : CRef} {n : QName} {ok : Entry → Bool} {f} (h : onEntry r n ok s f = .next t) :
    ∃ q e, s.qview r = some q ∧ q.pick s n ok = some e ∧ t = f q e := by
  unfold onEntry at h
  cases hq : s.qview r with
  | none => simp [hq] at h
  | some q =>
    cases he : q.pick s n ok with
    | none => simp [hq, he] at h
    | some e =>
      simp only [hq, he, Host.Outcome.next.injEq] at h
      exact ⟨q, e, rfl, he, h.symm⟩

/-! ## The dispatcher (R32, R37, R41, R288) -/

theorem onPacket_ok {s : State} {q : QRef} (n : Nat) (f : State → State) (h : s.canAccept q = true) :
    onPacket q n s f = .next (f (s.pass q n)) := by
  simp [onPacket, h]

theorem onPacket_next {s t : State} {q : QRef} {n : Nat} {f : State → State} (h : onPacket q n s f = .next t) :
    s.canAccept q = true ∧ t = f (s.pass q n) := by
  unfold onPacket at h
  split at h
  · simp only [Host.Outcome.next.injEq] at h
    exact ⟨‹_›, h.symm⟩
  · simp at h

theorem onSeeds_ok {s : State} {q : QRef} {c : Context} {xs : List W64} {f} (hc : s.ctx? (s.qctx q) = some c)
    (ha : s.canAccept q = true) (hf : f c.seeds = .ok xs) :
    onSeeds q s f = .next ((s.pass q 1).modCtx c.num fun c => { c with seeds := xs }) := by
  simp [onSeeds, hc, ha, hf]

theorem onSeeds_full {s : State} {q : QRef} {c : Context} {f} (hc : s.ctx? (s.qctx q) = some c) (ha : s.canAccept q = true)
    (hf : f c.seeds = .error true) : onSeeds q s f = .next (s.failBefore q 1 5 16) := by
  simp [onSeeds, hc, ha, hf]

theorem onSeeds_empty {s : State} {q : QRef} {c : Context} {f} (hc : s.ctx? (s.qctx q) = some c) (ha : s.canAccept q = true)
    (hf : f c.seeds = .error false) : onSeeds q s f = .next (s.failBefore q 1 6 17) := by
  simp [onSeeds, hc, ha, hf]

/-- The replay whose next activation is `a`. -/
def State.atNode (s : State) (rep : Nat) (a : Activation) (r : Replay) : Prop :=
  s.replays.find? (fun r => r.num == rep && r.started && r.status == 0 && !r.ending && r.pend.head? == some a) = some r

theorem State.atNode_num {s : State} {rep : Nat} {a : Activation} {r : Replay} (h : s.atNode rep a r) : r.num = rep := by
  have := List.find?_some h
  simp only [Bool.and_eq_true, beq_iff_eq] at this
  exact this.1.1.1.1

theorem onNode_ok {s : State} {rep : Nat} {a : Activation} {w : NodeWords} {ty : Nat} {r : Replay} {f} (h : s.atNode rep a r)
    (ht : nodeType w = ty) (hok : nodeOk r.pkt.nodes w = true) :
    onNode rep a w ty s f = .next (f r (s.modReplay rep fun r => { r with pend := r.pend.tail })) := by
  simp [onNode, show s.replays.find? _ = _ from h, ht, hok]

theorem onNode_bad {s : State} {rep : Nat} {a : Activation} {w : NodeWords} {ty : Nat} {r : Replay} {f} (h : s.atNode rep a r)
    (ht : nodeType w = ty) (hok : nodeOk r.pkt.nodes w = false) :
    onNode rep a w ty s f = .next ((s.modReplay rep fun r => { r with pend := r.pend.tail }).modReplay rep (Replay.endEarly 9)) := by
  simp [onNode, show s.replays.find? _ = _ from h, ht, hok]

theorem accepted_ok {s : State} (f : State → Host.Outcome State Fault Refusal) (h : s.wholeReset = false) : accepted s f = f s := by
  simp [accepted, h]

/-- During a function-level reset nothing that the host writes is accepted (R307). -/
theorem accepted_reset {s : State} (f : State → Host.Outcome State Fault Refusal) (h : s.wholeReset = true) : accepted s f = .next s := by
  simp [accepted, h]

theorem onPecmd_busy {s : State} {w : W64} (f : State → State) (h : s.holding.isSome = true) : onPecmd w s f = .next s := by
  simp [onPecmd, accepted, h]

theorem onPecmd_bad {s : State} {w : W64} (f : State → State) (hr : s.wholeReset = false) (h : s.holding = none)
    (hb : w &&& pecmdReserved ≠ 0 ∨ s.peBad w = true) : onPecmd w s f = .next { s with pecmd := peWord w 1 false } := by
  have hc : (w &&& pecmdReserved != 0 || s.peBad w) = true := by simpa using hb
  simp only [onPecmd, accepted, hr, h, hc, if_true, Option.isSome_none, Bool.false_eq_true, if_false]

theorem onPecmd_ok {s : State} {w : W64} (f : State → State) (hr : s.wholeReset = false) (h : s.holding = none)
    (hw : w &&& pecmdReserved = 0) (hb : s.peBad w = false) : onPecmd w s f = .next (f s) := by
  simp [onPecmd, accepted, hr, h, hw, hb]

/-! ## What a drain has landed, translations, resets -/

/-- Where nothing has been drained, an act sees the strand as it stands. -/
theorem State.seeing_none {s : State} {sid : Nat} {f : State → State} (h : s.strand? sid = none) : s.seeing sid f = f s := by
  simp [State.seeing, h]

theorem State.seeing_eq {s : State} {sid : Nat} {t : Strand} {f : State → State} (h : s.strand? sid = some t)
    (hd : (t.cores.all fun c => c.agenda.all fun e => !e.drained) = true) : s.seeing sid f = f s := by
  simp only [State.seeing, h, hd, if_true]

/-- A translation that a TLB takes in is found there. -/
theorem tlbFind_put {n : Nat} {e : TlbEntry} {es : List TlbEntry} (hn : 0 < n) (he : e.va = e.va / 2 ^ e.log * 2 ^ e.log) :
    (tlbFind (tlbPut n e es) e.ctx e.va).isSome = true := by
  unfold tlbPut
  split
  · assumption
  · obtain ⟨m, rfl⟩ : ∃ m, n = m + 1 := ⟨n - 1, by omega⟩
    simp [tlbFind, ← he]

/-- A flip cycle is a multiple of 16, a window after its commit at least, and after the scrubs it waits for (R56). -/
theorem flipCycle_spec (c scrub : Nat) : flipCycle c scrub % 16 = 0 ∧ c + 16 ≤ flipCycle c scrub ∧ scrub ≤ flipCycle c scrub := by
  unfold flipCycle
  omega

/-- Lines of which no error has struck any show no struck line. -/
theorem lineBad_false {ls : List Line} (h : ∀ l ∈ ls, l.bad = false) (n : Nat) : lineBad ls n = false := by
  unfold lineBad lineOf
  cases hf : ls.find? fun l => l.tag == n with
  | none => rfl
  | some l => simpa using h l (List.mem_of_find?_eq_some hf)

/-- A flight keeps exactly the cells that no later write has overtaken, and its place, author and level. -/
theorem Flight.without_cells (f : Flight) (gone : Nat → Bool) : (f.without gone).cells = f.cells.filter (fun c => !gone c.1) ∧
    ∀ p, (f.without gone).seenBy p = f.seenBy p := ⟨rfl, fun _ => rfl⟩

/-- Flights that follow one another in memory change nothing of the state but memory, the flights and poison. -/
theorem State.settles_spec (fs : List Flight) : ∀ s : State, ∃ m g p,
    fs.foldl (fun s f => s.settle f.id) s = { s with mem := m, flight := g, poison := p } := by
  induction fs with
  | nil => exact fun s => ⟨s.mem, s.flight, s.poison, rfl⟩
  | cons f fs ih =>
    intro s
    obtain ⟨m, g, p, h⟩ : ∃ m g p, s.settle f.id = { s with mem := m, flight := g, poison := p } := by
      unfold State.settle
      split
      · exact ⟨s.mem, s.flight, s.poison, rfl⟩
      · exact ⟨_, _, _, rfl⟩
    obtain ⟨m', g', p', h'⟩ := ih (s.settle f.id)
    exact ⟨m', g', p', by rw [List.foldl_cons, h', h]⟩

/-- What a timed write does outside memory, the flights and poison: the slice caches lose its lines (R142, R269). -/
theorem State.timedWrite_spec (s : State) (cells : List (Nat × Byte)) : ∃ m g p ks,
    s.timedWrite cells = { s with mem := m, flight := g, poison := p, stks := ks } := by
  obtain ⟨m, g, p, h⟩ := State.settles_spec (s.overrun (cells.filter fun c => !s.drops c.1)) s
  simp only [State.timedWrite, h]
  exact ⟨_, _, _, _, rfl⟩

/-- Some flights with their elders are all flights, and those wanted are among them (R257, R258). -/
theorem withElders_spec (want : Flight → Bool) (fs : List Flight) :
    (∀ f ∈ withElders want fs, f ∈ fs) ∧ ∀ f ∈ fs, want f = true → f ∈ withElders want fs := by
  induction fs with
  | nil => simp [withElders]
  | cons f fs ih =>
    refine ⟨fun g hg => ?_, fun g hg hw => ?_⟩
    · simp only [withElders] at hg
      split at hg
      · rcases List.mem_cons.1 hg with h | h
        · simp [h]
        · exact List.mem_cons_of_mem _ (ih.1 g h)
      · exact List.mem_cons_of_mem _ (ih.1 g hg)
    · simp only [withElders]
      rcases List.mem_cons.1 hg with h | h
      · subst h
        simp [hw]
      · split
        · exact List.mem_cons_of_mem _ (ih.2 g h hw)
        · exact ih.2 g h hw

/-- Where nothing is in flight that a scope has still to see, an elastic write need not wait (R258). -/
theorem QView.settled_nil {q : QView} {s : State} (h : s.flight = []) (b n sc : Nat) : q.settled s b n sc = true := by
  simp [QView.settled, h]

/-- Each entry of the steps of a drain is one of its beats, with at least one block step that starts there. -/
theorem stepsAt_spec (xs : List (Nat × Nat)) : ∀ (before : Nat), ∀ e ∈ stepsAt before xs, 0 < e.2 ∧ ∃ x ∈ xs, x.1 = e.1 := by
  induction xs with
  | nil => intro _ _ h; cases h
  | cons x xs ih =>
    intro before e h
    have tail : ∀ b, e ∈ stepsAt b xs → 0 < e.2 ∧ ∃ y ∈ x :: xs, y.1 = e.1 := fun b h =>
      let ⟨p, y, m, q⟩ := ih b e h
      ⟨p, y, List.mem_cons_of_mem _ m, q⟩
    unfold stepsAt at h
    split at h
    · exact tail _ h
    · obtain rfl | h := List.mem_cons.1 h
      · exact ⟨by simp only; omega, x, List.mem_cons_self, rfl⟩
      · exact tail _ h

/-- A drain goes forward from the beat it begins at, and each beat it counts the block steps of lies within it. -/
theorem State.drainFrom_spec (sid : Nat) : ∀ (n : Nat) (s : State) (last : Nat) (landed : List (List Timed)) (steps : List (Nat × Nat)),
    last ≤ (s.drainFrom sid last landed steps n).2.1 ∧ ∀ e ∈ (s.drainFrom sid last landed steps n).2.2.2,
      e ∈ steps ∨ (last ≤ e.1 ∧ e.1 ≤ (s.drainFrom sid last landed steps n).2.1) := by
  intro n
  induction n with
  | zero => exact fun _ last _ _ => ⟨Nat.le_refl last, fun _ h => .inl h⟩
  | succ n ih =>
    intro s last landed steps
    simp only [State.drainFrom]
    split
    · exact ⟨Nat.le_refl last, fun _ h => .inl h⟩
    · split
      · exact ⟨Nat.le_refl last, fun _ h => .inl h⟩
      · rename_i t _ y _
        obtain ⟨h1, h2⟩ := ih _ (max y last) _ _
        refine ⟨Nat.le_trans (Nat.le_max_right ..) h1, fun e he => ?_⟩
        obtain h | h := h2 e he
        · obtain h | h := List.mem_append.1 h
          · exact .inl h
          · rw [List.mem_singleton.1 h]
            exact .inr ⟨Nat.le_max_right .., h1⟩
        · exact .inr ⟨Nat.le_trans (Nat.le_max_right ..) h.1, h.2⟩

/-- A drain's plan ends no earlier than it begins, and each of its entries is a beat within it with at least one block step. -/
theorem State.drainPlan_spec (s : State) (t : Strand) : t.beat ≤ (s.drainPlan t).1 ∧ ∀ e ∈ (s.drainPlan t).2,
    0 < e.2 ∧ t.beat ≤ e.1 ∧ e.1 ≤ (s.drainPlan t).1 := by
  simp only [State.drainPlan]
  split
  · exact ⟨Nat.le_refl _, fun _ h => nomatch h⟩
  · refine ⟨(State.drainFrom_spec _ _ _ _ _ _).1, fun e h => ?_⟩
    obtain ⟨p, x, m, q⟩ := stepsAt_spec _ _ e h
    obtain h | h := (State.drainFrom_spec _ _ _ _ _ _).2 x m
    · cases h
    · exact ⟨p, q ▸ h⟩

/-- What beginning a drain does: the strand drains, for as long as its beats and a free number of cycles take, and its stack notes the
block steps to come; a free value is spent. -/
theorem State.beginDrain_spec (s : State) (t : Strand) (hold : Bool) : ∃ (x : Nat) (late : List (Nat × Nat × Nat)), t.beat ≤ x ∧
    s.beginDrain t hold = (({ s with freeCtr := s.freeCtr + 1 }.modStrand t.sid fun _ =>
      { t with status := .drain hold, freeze := none, stopCyc := (s.stack t.stack).cyc + (x - t.beat) * t.stride + 1 +
        Config.delay s.freeCtr }).modStack t.stack fun k => { k with late := k.late ++ late }) ∧
    ∀ e ∈ late, e.1 = t.sid ∧ 0 < e.2.2 ∧ ∃ b, t.beat ≤ b ∧ b ≤ x ∧ e.2.1 = (s.stack t.stack).cyc + (b - t.beat) * t.stride := by
  refine ⟨_, _, (State.drainPlan_spec s { t with status := .drain hold, freeze := none }).1, rfl, ?_⟩
  intro e h
  obtain ⟨y, m, rfl⟩ := List.mem_map.1 h
  have p := (State.drainPlan_spec _ _).2 y m
  exact ⟨rfl, p.1, y.1, p.2.1, p.2.2, rfl⟩

/-- Among entries without markers nothing else begins when one of them does. -/
theorem Entry.head_self (e x : Entry) (h : x.op.marks = false) : e.head x = x := by simp [Entry.head, h]

/-- An entry that begins changes no entry but markers, and of those only that they have begun (R283). -/
theorem Entry.head_spec (e x : Entry) : e.head x = { x with level := (e.head x).level } ∧ (e.head x = x ∨ (e.head x).level = 1) := by
  unfold Entry.head
  split <;> simp

/-- A reset asked for during a function-level one is discarded (R307). -/
theorem State.beginReset_discarded {s : State} (ks : List Nat) (whole : Bool) (h : s.wholeReset = true) : s.beginReset ks whole = s := by
  simp [State.beginReset, h]

end Sys2Proof.Machine
end

