-- ==== Sys2Proof/Laws/PerInstr.lean ====
section
/-! SUPPORT. What is said of each instruction as syntax, one lemma per constructor. -/

namespace Sys2Proof.Laws

/-! ## Encoding (R75 to R83) -/

/-- R75, R77: the words of an instruction are at most four, its own and up to three literals; a step or event has none. -/
def Encoding.Statement (i : Instr) : Prop := (encode i).length ≤ 4

/-- A source draws at most one literal word (R80). -/
theorem Encoding.lits_le (a : VSrc) : a.lits.length ≤ 1 := by cases a <;> simp [VSrc.lits]

theorem Encoding.lits1 (a : VSrc) : a.lits.length ≤ 3 := Nat.le_trans (Encoding.lits_le a) (by decide)
theorem Encoding.lits1w (a : VSrc) (w : W32) : (a.lits ++ [w]).length ≤ 3 := by
  have h := Encoding.lits_le a
  rw [List.length_append, List.length_singleton]; omega
theorem Encoding.lits2 (a b : VSrc) : (a.lits ++ b.lits).length ≤ 3 := by
  have h := Encoding.lits_le a
  have h' := Encoding.lits_le b
  rw [List.length_append]; omega
theorem Encoding.lits2w (a b : VSrc) (w : W32) : (a.lits ++ b.lits ++ [w]).length ≤ 3 := by
  have h := Encoding.lits_le a
  have h' := Encoding.lits_le b
  rw [List.length_append, List.length_append, List.length_singleton]; omega

/-- Words that begin with an instruction's own. -/
theorem Encoding.of_cons {i : Instr} {w : W32} {ws : List W32} (h : encode i = w :: ws) (hn : ws.length ≤ 3) :
    Encoding.Statement i := by
  unfold Encoding.Statement
  rw [h, List.length_cons]; omega

/-- No words. -/
theorem Encoding.of_nil {i : Instr} (h : encode i = []) : Encoding.Statement i := by
  unfold Encoding.Statement
  rw [h]; decide

theorem Encoding.nop (h : SHead) : Encoding.Statement (.nop h) :=
  Encoding.of_cons rfl (by simp)
theorem Encoding.halt (h : SHead) : Encoding.Statement (.halt h) :=
  Encoding.of_cons rfl (by simp)
theorem Encoding.add (h : SHead) (d : Reg) (a : Reg) (b : Reg) : Encoding.Statement (.add h d a b) :=
  Encoding.of_cons rfl (by simp)
theorem Encoding.sub (h : SHead) (d : Reg) (a : Reg) (b : Reg) : Encoding.Statement (.sub h d a b) :=
  Encoding.of_cons rfl (by simp)
theorem Encoding.and (h : SHead) (d : Reg) (a : Reg) (b : Reg) : Encoding.Statement (.and h d a b) :=
  Encoding.of_cons rfl (by simp)
theorem Encoding.or (h : SHead) (d : Reg) (a : Reg) (b : Reg) : Encoding.Statement (.or h d a b) :=
  Encoding.of_cons rfl (by simp)
theorem Encoding.xor (h : SHead) (d : Reg) (a : Reg) (b : Reg) : Encoding.Statement (.xor h d a b) :=
  Encoding.of_cons rfl (by simp)
theorem Encoding.andn (h : SHead) (d : Reg) (a : Reg) (b : Reg) : Encoding.Statement (.andn h d a b) :=
  Encoding.of_cons rfl (by simp)
theorem Encoding.shl (h : SHead) (d : Reg) (a : Reg) (b : Reg) : Encoding.Statement (.shl h d a b) :=
  Encoding.of_cons rfl (by simp)
theorem Encoding.shr (h : SHead) (d : Reg) (a : Reg) (b : Reg) : Encoding.Statement (.shr h d a b) :=
  Encoding.of_cons rfl (by simp)
theorem Encoding.sar (h : SHead) (d : Reg) (a : Reg) (b : Reg) : Encoding.Statement (.sar h d a b) :=
  Encoding.of_cons rfl (by simp)
theorem Encoding.rotl (h : SHead) (d : Reg) (a : Reg) (b : Reg) : Encoding.Statement (.rotl h d a b) :=
  Encoding.of_cons rfl (by simp)
theorem Encoding.mul (h : SHead) (d : Reg) (a : Reg) (b : Reg) : Encoding.Statement (.mul h d a b) :=
  Encoding.of_cons rfl (by simp)
theorem Encoding.mulhI (h : SHead) (d : Reg) (a : Reg) (b : Reg) : Encoding.Statement (.mulhI h d a b) :=
  Encoding.of_cons rfl (by simp)
theorem Encoding.mulhN (h : SHead) (d : Reg) (a : Reg) (b : Reg) : Encoding.Statement (.mulhN h d a b) :=
  Encoding.of_cons rfl (by simp)
theorem Encoding.divI (h : SHead) (d : Reg) (a : Reg) (b : Reg) : Encoding.Statement (.divI h d a b) :=
  Encoding.of_cons rfl (by simp)
theorem Encoding.divN (h : SHead) (d : Reg) (a : Reg) (b : Reg) : Encoding.Statement (.divN h d a b) :=
  Encoding.of_cons rfl (by simp)
theorem Encoding.modI (h : SHead) (d : Reg) (a : Reg) (b : Reg) : Encoding.Statement (.modI h d a b) :=
  Encoding.of_cons rfl (by simp)
theorem Encoding.modN (h : SHead) (d : Reg) (a : Reg) (b : Reg) : Encoding.Statement (.modN h d a b) :=
  Encoding.of_cons rfl (by simp)
theorem Encoding.minI (h : SHead) (d : Reg) (a : Reg) (b : Reg) : Encoding.Statement (.minI h d a b) :=
  Encoding.of_cons rfl (by simp)
theorem Encoding.minN (h : SHead) (d : Reg) (a : Reg) (b : Reg) : Encoding.Statement (.minN h d a b) :=
  Encoding.of_cons rfl (by simp)
theorem Encoding.maxI (h : SHead) (d : Reg) (a : Reg) (b : Reg) : Encoding.Statement (.maxI h d a b) :=
  Encoding.of_cons rfl (by simp)
theorem Encoding.maxN (h : SHead) (d : Reg) (a : Reg) (b : Reg) : Encoding.Statement (.maxN h d a b) :=
  Encoding.of_cons rfl (by simp)
theorem Encoding.sel (h : SHead) (d : Reg) (a : Reg) (b : Reg) : Encoding.Statement (.sel h d a b) :=
  Encoding.of_cons rfl (by simp)
theorem Encoding.clz (h : SHead) (d : Reg) (a : Reg) : Encoding.Statement (.clz h d a) :=
  Encoding.of_cons rfl (by simp)
theorem Encoding.popc (h : SHead) (d : Reg) (a : Reg) : Encoding.Statement (.popc h d a) :=
  Encoding.of_cons rfl (by simp)
theorem Encoding.bfx (h : SHead) (d : Reg) (a : Reg) (b : Reg) : Encoding.Statement (.bfx h d a b) :=
  Encoding.of_cons rfl (by simp)
theorem Encoding.bfi (h : SHead) (d : Reg) (a : Reg) (b : Reg) : Encoding.Statement (.bfi h d a b) :=
  Encoding.of_cons rfl (by simp)
theorem Encoding.lea (h : SHead) (d : Reg) (a : Reg) (b : Reg) : Encoding.Statement (.lea h d a b) :=
  Encoding.of_cons rfl (by simp)
theorem Encoding.mov (h : SHead) (d : Reg) (a : Reg) : Encoding.Statement (.mov h d a) :=
  Encoding.of_cons rfl (by simp)
theorem Encoding.addl (h : SHead) (d : Reg) (a : Reg) (w : W32) : Encoding.Statement (.addl h d a w) :=
  Encoding.of_cons rfl (by simp)
theorem Encoding.subl (h : SHead) (d : Reg) (a : Reg) (w : W32) : Encoding.Statement (.subl h d a w) :=
  Encoding.of_cons rfl (by simp)
theorem Encoding.andl (h : SHead) (d : Reg) (a : Reg) (w : W32) : Encoding.Statement (.andl h d a w) :=
  Encoding.of_cons rfl (by simp)
theorem Encoding.orl (h : SHead) (d : Reg) (a : Reg) (w : W32) : Encoding.Statement (.orl h d a w) :=
  Encoding.of_cons rfl (by simp)
theorem Encoding.xorl (h : SHead) (d : Reg) (a : Reg) (w : W32) : Encoding.Statement (.xorl h d a w) :=
  Encoding.of_cons rfl (by simp)
theorem Encoding.andnl (h : SHead) (d : Reg) (a : Reg) (w : W32) : Encoding.Statement (.andnl h d a w) :=
  Encoding.of_cons rfl (by simp)
theorem Encoding.shll (h : SHead) (d : Reg) (a : Reg) (w : W32) : Encoding.Statement (.shll h d a w) :=
  Encoding.of_cons rfl (by simp)
theorem Encoding.shrl (h : SHead) (d : Reg) (a : Reg) (w : W32) : Encoding.Statement (.shrl h d a w) :=
  Encoding.of_cons rfl (by simp)
theorem Encoding.sarl (h : SHead) (d : Reg) (a : Reg) (w : W32) : Encoding.Statement (.sarl h d a w) :=
  Encoding.of_cons rfl (by simp)
theorem Encoding.rotll (h : SHead) (d : Reg) (a : Reg) (w : W32) : Encoding.Statement (.rotll h d a w) :=
  Encoding.of_cons rfl (by simp)
theorem Encoding.mull (h : SHead) (d : Reg) (a : Reg) (w : W32) : Encoding.Statement (.mull h d a w) :=
  Encoding.of_cons rfl (by simp)
theorem Encoding.minlI (h : SHead) (d : Reg) (a : Reg) (w : W32) : Encoding.Statement (.minlI h d a w) :=
  Encoding.of_cons rfl (by simp)
theorem Encoding.minlN (h : SHead) (d : Reg) (a : Reg) (w : W32) : Encoding.Statement (.minlN h d a w) :=
  Encoding.of_cons rfl (by simp)
theorem Encoding.maxlI (h : SHead) (d : Reg) (a : Reg) (w : W32) : Encoding.Statement (.maxlI h d a w) :=
  Encoding.of_cons rfl (by simp)
theorem Encoding.maxlN (h : SHead) (d : Reg) (a : Reg) (w : W32) : Encoding.Statement (.maxlN h d a w) :=
  Encoding.of_cons rfl (by simp)
theorem Encoding.movl (h : SHead) (d : Reg) (w : W32) : Encoding.Statement (.movl h d w) :=
  Encoding.of_cons rfl (by simp)
theorem Encoding.leal (h : SHead) (d : Reg) (a : Reg) (w : W32) : Encoding.Statement (.leal h d a w) :=
  Encoding.of_cons rfl (by simp)
theorem Encoding.cmpEq (h : SHead) (d : PReg) (a : Reg) (b : Reg) : Encoding.Statement (.cmpEq h d a b) :=
  Encoding.of_cons rfl (by simp)
theorem Encoding.cmpNe (h : SHead) (d : PReg) (a : Reg) (b : Reg) : Encoding.Statement (.cmpNe h d a b) :=
  Encoding.of_cons rfl (by simp)
theorem Encoding.cmpLtI (h : SHead) (d : PReg) (a : Reg) (b : Reg) : Encoding.Statement (.cmpLtI h d a b) :=
  Encoding.of_cons rfl (by simp)
theorem Encoding.cmpGeI (h : SHead) (d : PReg) (a : Reg) (b : Reg) : Encoding.Statement (.cmpGeI h d a b) :=
  Encoding.of_cons rfl (by simp)
theorem Encoding.cmpLtN (h : SHead) (d : PReg) (a : Reg) (b : Reg) : Encoding.Statement (.cmpLtN h d a b) :=
  Encoding.of_cons rfl (by simp)
theorem Encoding.cmpGeN (h : SHead) (d : PReg) (a : Reg) (b : Reg) : Encoding.Statement (.cmpGeN h d a b) :=
  Encoding.of_cons rfl (by simp)
theorem Encoding.cmplEq (h : SHead) (d : PReg) (a : Reg) (w : W32) : Encoding.Statement (.cmplEq h d a w) :=
  Encoding.of_cons rfl (by simp)
theorem Encoding.cmplNe (h : SHead) (d : PReg) (a : Reg) (w : W32) : Encoding.Statement (.cmplNe h d a w) :=
  Encoding.of_cons rfl (by simp)
theorem Encoding.cmplLtI (h : SHead) (d : PReg) (a : Reg) (w : W32) : Encoding.Statement (.cmplLtI h d a w) :=
  Encoding.of_cons rfl (by simp)
theorem Encoding.cmplGeI (h : SHead) (d : PReg) (a : Reg) (w : W32) : Encoding.Statement (.cmplGeI h d a w) :=
  Encoding.of_cons rfl (by simp)
theorem Encoding.cmplLtN (h : SHead) (d : PReg) (a : Reg) (w : W32) : Encoding.Statement (.cmplLtN h d a w) :=
  Encoding.of_cons rfl (by simp)
theorem Encoding.cmplGeN (h : SHead) (d : PReg) (a : Reg) (w : W32) : Encoding.Statement (.cmplGeN h d a w) :=
  Encoding.of_cons rfl (by simp)
theorem Encoding.br (h : SHead) (ofs : BitVec 15) : Encoding.Statement (.br h ofs) :=
  Encoding.of_cons rfl (by simp)
theorem Encoding.call (h : SHead) (ofs : BitVec 15) : Encoding.Statement (.call h ofs) :=
  Encoding.of_cons rfl (by simp)
theorem Encoding.jmp (h : SHead) (a : Reg) : Encoding.Statement (.jmp h a) :=
  Encoding.of_cons rfl (by simp)
theorem Encoding.ret (h : SHead) : Encoding.Statement (.ret h) :=
  Encoding.of_cons rfl (by simp)
theorem Encoding.loop (h : SHead) (c : BitVec 2) (k : Reg) (t : BitVec 8) : Encoding.Statement (.loop h c k t) :=
  Encoding.of_cons rfl (by simp)
theorem Encoding.loopl (h : SHead) (c : BitVec 2) (t : BitVec 8) (w : W32) : Encoding.Statement (.loopl h c t w) :=
  Encoding.of_cons rfl (by simp)
theorem Encoding.cwait (h : SHead) (m : BitVec 4) : Encoding.Statement (.cwait h m) :=
  Encoding.of_cons rfl (by simp)
theorem Encoding.pand (h : SHead) (d : PReg) (a : PReg) (b : PReg) : Encoding.Statement (.pand h d a b) :=
  Encoding.of_cons rfl (by simp)
theorem Encoding.por (h : SHead) (d : PReg) (a : PReg) (b : PReg) : Encoding.Statement (.por h d a b) :=
  Encoding.of_cons rfl (by simp)
theorem Encoding.pxor (h : SHead) (d : PReg) (a : PReg) (b : PReg) : Encoding.Statement (.pxor h d a b) :=
  Encoding.of_cons rfl (by simp)
theorem Encoding.pnot (h : SHead) (d : PReg) (a : PReg) : Encoding.Statement (.pnot h d a) :=
  Encoding.of_cons rfl (by simp)
theorem Encoding.pfirst (h : SHead) (d : PReg) (a : PReg) : Encoding.Statement (.pfirst h d a) :=
  Encoding.of_cons rfl (by simp)
theorem Encoding.pcount (h : SHead) (d : Reg) (a : PReg) : Encoding.Statement (.pcount h d a) :=
  Encoding.of_cons rfl (by simp)
theorem Encoding.pany (h : SHead) (d : PReg) (a : PReg) : Encoding.Statement (.pany h d a) :=
  Encoding.of_cons rfl (by simp)
theorem Encoding.pall (h : SHead) (d : PReg) (a : PReg) : Encoding.Statement (.pall h d a) :=
  Encoding.of_cons rfl (by simp)
theorem Encoding.mfs (h : SHead) (r : Reg) (code : BitVec 10) : Encoding.Statement (.mfs h r code) :=
  Encoding.of_cons rfl (by simp)
theorem Encoding.mts (h : SHead) (r : Reg) (code : BitVec 10) : Encoding.Statement (.mts h r code) :=
  Encoding.of_cons rfl (by simp)
theorem Encoding.vadd (h : Head) (d : VDst) (a : VSrc) (b : VSrc) : Encoding.Statement (.vadd h d a b) :=
  Encoding.of_cons rfl (Encoding.lits2 a b)
theorem Encoding.vsub (h : Head) (d : VDst) (a : VSrc) (b : VSrc) : Encoding.Statement (.vsub h d a b) :=
  Encoding.of_cons rfl (Encoding.lits2 a b)
theorem Encoding.vmul (h : Head) (d : VDst) (a : VSrc) (b : VSrc) : Encoding.Statement (.vmul h d a b) :=
  Encoding.of_cons rfl (Encoding.lits2 a b)
theorem Encoding.vmulhI (h : Head) (d : VDst) (a : VSrc) (b : VSrc) : Encoding.Statement (.vmulhI h d a b) :=
  Encoding.of_cons rfl (Encoding.lits2 a b)
theorem Encoding.vmulhN (h : Head) (d : VDst) (a : VSrc) (b : VSrc) : Encoding.Statement (.vmulhN h d a b) :=
  Encoding.of_cons rfl (Encoding.lits2 a b)
theorem Encoding.vminI (h : Head) (d : VDst) (a : VSrc) (b : VSrc) : Encoding.Statement (.vminI h d a b) :=
  Encoding.of_cons rfl (Encoding.lits2 a b)
theorem Encoding.vminN (h : Head) (d : VDst) (a : VSrc) (b : VSrc) : Encoding.Statement (.vminN h d a b) :=
  Encoding.of_cons rfl (Encoding.lits2 a b)
theorem Encoding.vmaxI (h : Head) (d : VDst) (a : VSrc) (b : VSrc) : Encoding.Statement (.vmaxI h d a b) :=
  Encoding.of_cons rfl (Encoding.lits2 a b)
theorem Encoding.vmaxN (h : Head) (d : VDst) (a : VSrc) (b : VSrc) : Encoding.Statement (.vmaxN h d a b) :=
  Encoding.of_cons rfl (Encoding.lits2 a b)
theorem Encoding.vand (h : Head) (d : VDst) (a : VSrc) (b : VSrc) : Encoding.Statement (.vand h d a b) :=
  Encoding.of_cons rfl (Encoding.lits2 a b)
theorem Encoding.vor (h : Head) (d : VDst) (a : VSrc) (b : VSrc) : Encoding.Statement (.vor h d a b) :=
  Encoding.of_cons rfl (Encoding.lits2 a b)
theorem Encoding.vxor (h : Head) (d : VDst) (a : VSrc) (b : VSrc) : Encoding.Statement (.vxor h d a b) :=
  Encoding.of_cons rfl (Encoding.lits2 a b)
theorem Encoding.vshl (h : Head) (d : VDst) (a : VSrc) (b : VSrc) : Encoding.Statement (.vshl h d a b) :=
  Encoding.of_cons rfl (Encoding.lits2 a b)
theorem Encoding.vshr (h : Head) (d : VDst) (a : VSrc) (b : VSrc) : Encoding.Statement (.vshr h d a b) :=
  Encoding.of_cons rfl (Encoding.lits2 a b)
theorem Encoding.vsar (h : Head) (d : VDst) (a : VSrc) (b : VSrc) : Encoding.Statement (.vsar h d a b) :=
  Encoding.of_cons rfl (Encoding.lits2 a b)
theorem Encoding.vaddsI (h : Head) (d : VDst) (a : VSrc) (b : VSrc) : Encoding.Statement (.vaddsI h d a b) :=
  Encoding.of_cons rfl (Encoding.lits2 a b)
theorem Encoding.vaddsN (h : Head) (d : VDst) (a : VSrc) (b : VSrc) : Encoding.Statement (.vaddsN h d a b) :=
  Encoding.of_cons rfl (Encoding.lits2 a b)
theorem Encoding.vsubsI (h : Head) (d : VDst) (a : VSrc) (b : VSrc) : Encoding.Statement (.vsubsI h d a b) :=
  Encoding.of_cons rfl (Encoding.lits2 a b)
theorem Encoding.vsubsN (h : Head) (d : VDst) (a : VSrc) (b : VSrc) : Encoding.Statement (.vsubsN h d a b) :=
  Encoding.of_cons rfl (Encoding.lits2 a b)
theorem Encoding.vabs (h : Head) (d : VDst) (a : VSrc) : Encoding.Statement (.vabs h d a) :=
  Encoding.of_cons rfl (Encoding.lits1 a)
theorem Encoding.vfadd (h : Head) (d : VDst) (a : VSrc) (b : VSrc) (rm : BitVec 2) : Encoding.Statement (.vfadd h d a b rm) :=
  Encoding.of_cons rfl (Encoding.lits2 a b)
theorem Encoding.vfsub (h : Head) (d : VDst) (a : VSrc) (b : VSrc) (rm : BitVec 2) : Encoding.Statement (.vfsub h d a b rm) :=
  Encoding.of_cons rfl (Encoding.lits2 a b)
theorem Encoding.vfmul (h : Head) (d : VDst) (a : VSrc) (b : VSrc) (rm : BitVec 2) : Encoding.Statement (.vfmul h d a b rm) :=
  Encoding.of_cons rfl (Encoding.lits2 a b)
theorem Encoding.vfma (h : Head) (d : VDst) (a : VSrc) (b : VSrc) (rm : BitVec 2) : Encoding.Statement (.vfma h d a b rm) :=
  Encoding.of_cons rfl (Encoding.lits2 a b)
theorem Encoding.vfmin (h : Head) (d : VDst) (a : VSrc) (b : VSrc) : Encoding.Statement (.vfmin h d a b) :=
  Encoding.of_cons rfl (Encoding.lits2 a b)
theorem Encoding.vfmax (h : Head) (d : VDst) (a : VSrc) (b : VSrc) : Encoding.Statement (.vfmax h d a b) :=
  Encoding.of_cons rfl (Encoding.lits2 a b)
theorem Encoding.vfabs (h : Head) (d : VDst) (a : VSrc) : Encoding.Statement (.vfabs h d a) :=
  Encoding.of_cons rfl (Encoding.lits1 a)
theorem Encoding.vfneg (h : Head) (d : VDst) (a : VSrc) : Encoding.Statement (.vfneg h d a) :=
  Encoding.of_cons rfl (Encoding.lits1 a)
theorem Encoding.vmov (h : Head) (d : VDst) (a : VSrc) : Encoding.Statement (.vmov h d a) :=
  Encoding.of_cons rfl (Encoding.lits1 a)
theorem Encoding.vsel (h : Head) (d : VDst) (a : VSrc) (b : VSrc) : Encoding.Statement (.vsel h d a b) :=
  Encoding.of_cons rfl (Encoding.lits2 a b)
theorem Encoding.vcmpEq (h : Head) (d : PReg) (a : VSrc) (b : VSrc) : Encoding.Statement (.vcmpEq h d a b) :=
  Encoding.of_cons rfl (Encoding.lits2 a b)
theorem Encoding.vcmpNe (h : Head) (d : PReg) (a : VSrc) (b : VSrc) : Encoding.Statement (.vcmpNe h d a b) :=
  Encoding.of_cons rfl (Encoding.lits2 a b)
theorem Encoding.vcmpLtI (h : Head) (d : PReg) (a : VSrc) (b : VSrc) : Encoding.Statement (.vcmpLtI h d a b) :=
  Encoding.of_cons rfl (Encoding.lits2 a b)
theorem Encoding.vcmpGeI (h : Head) (d : PReg) (a : VSrc) (b : VSrc) : Encoding.Statement (.vcmpGeI h d a b) :=
  Encoding.of_cons rfl (Encoding.lits2 a b)
theorem Encoding.vcmpLtN (h : Head) (d : PReg) (a : VSrc) (b : VSrc) : Encoding.Statement (.vcmpLtN h d a b) :=
  Encoding.of_cons rfl (Encoding.lits2 a b)
theorem Encoding.vcmpGeN (h : Head) (d : PReg) (a : VSrc) (b : VSrc) : Encoding.Statement (.vcmpGeN h d a b) :=
  Encoding.of_cons rfl (Encoding.lits2 a b)
theorem Encoding.vfcmpEq (h : Head) (d : PReg) (a : VSrc) (b : VSrc) : Encoding.Statement (.vfcmpEq h d a b) :=
  Encoding.of_cons rfl (Encoding.lits2 a b)
theorem Encoding.vfcmpLt (h : Head) (d : PReg) (a : VSrc) (b : VSrc) : Encoding.Statement (.vfcmpLt h d a b) :=
  Encoding.of_cons rfl (Encoding.lits2 a b)
theorem Encoding.vfcmpLe (h : Head) (d : PReg) (a : VSrc) (b : VSrc) : Encoding.Statement (.vfcmpLe h d a b) :=
  Encoding.of_cons rfl (Encoding.lits2 a b)
theorem Encoding.vfcmpUn (h : Head) (d : PReg) (a : VSrc) (b : VSrc) : Encoding.Statement (.vfcmpUn h d a b) :=
  Encoding.of_cons rfl (Encoding.lits2 a b)
theorem Encoding.vdot4 (h : Head) (d : VDst) (a : VSrc) (b : VSrc) (sg : BitVec 2) : Encoding.Statement (.vdot4 h d a b sg) :=
  Encoding.of_cons rfl (Encoding.lits2 a b)
theorem Encoding.vscaleb (h : Head) (d : VDst) (a : VSrc) (b : VSrc) (rm : BitVec 2) : Encoding.Statement (.vscaleb h d a b rm) :=
  Encoding.of_cons rfl (Encoding.lits2 a b)
theorem Encoding.vcvt (h : Head) (d : VDst) (a : VSrc) (cv : Conv) : Encoding.Statement (.vcvt h d a cv) :=
  Encoding.of_cons rfl (Encoding.lits1w a _)
theorem Encoding.vcvtt (h : Head) (d : VDst) (a : VSrc) : Encoding.Statement (.vcvtt h d a) :=
  Encoding.of_cons rfl (Encoding.lits1 a)
theorem Encoding.vpack (h : Head) (d : VDst) (a : VSrc) (b : VSrc) (cv : Conv) : Encoding.Statement (.vpack h d a b cv) :=
  Encoding.of_cons rfl (Encoding.lits2w a b _)
theorem Encoding.vunpk (h : Head) (d : VDst) (a : VSrc) (cv : Conv) : Encoding.Statement (.vunpk h d a cv) :=
  Encoding.of_cons rfl (Encoding.lits1w a _)
theorem Encoding.vrsum (h : Head) (d : VDst) (a : VSrc) (ty : BitVec 2) : Encoding.Statement (.vrsum h d a ty) :=
  Encoding.of_cons rfl (Encoding.lits1 a)
theorem Encoding.vrmax (h : Head) (d : VDst) (a : VSrc) (ty : BitVec 2) : Encoding.Statement (.vrmax h d a ty) :=
  Encoding.of_cons rfl (Encoding.lits1 a)
theorem Encoding.vrmin (h : Head) (d : VDst) (a : VSrc) (ty : BitVec 2) : Encoding.Statement (.vrmin h d a ty) :=
  Encoding.of_cons rfl (Encoding.lits1 a)
theorem Encoding.vscan (h : Head) (d : VDst) (a : VSrc) (ty : BitVec 2) : Encoding.Statement (.vscan h d a ty) :=
  Encoding.of_cons rfl (Encoding.lits1 a)
theorem Encoding.vsort (h : Head) (d : VDst) (a : VSrc) (b : VSrc) (ty : BitVec 2) : Encoding.Statement (.vsort h d a b ty) :=
  Encoding.of_cons rfl (Encoding.lits2 a b)
theorem Encoding.vshuf (h : Head) (d : VDst) (a : VSrc) (b : VSrc) : Encoding.Statement (.vshuf h d a b) :=
  Encoding.of_cons rfl (Encoding.lits2 a b)
theorem Encoding.vrot (h : Head) (d : VDst) (a : VSrc) (b : VSrc) : Encoding.Statement (.vrot h d a b) :=
  Encoding.of_cons rfl (Encoding.lits2 a b)
theorem Encoding.vrotZf (h : Head) (d : VDst) (a : VSrc) (b : VSrc) : Encoding.Statement (.vrotZf h d a b) :=
  Encoding.of_cons rfl (Encoding.lits2 a b)
theorem Encoding.vbcast (h : Head) (d : VDst) (a : VSrc) (b : VSrc) : Encoding.Statement (.vbcast h d a b) :=
  Encoding.of_cons rfl (Encoding.lits2 a b)
theorem Encoding.vrand (h : Head) (d : VDst) (a : VSrc) (b : VSrc) (u : Bool) (word : BitVec 2) (layer : BitVec 24) : Encoding.Statement (.vrand h d a b u word layer) :=
  Encoding.of_cons rfl (Encoding.lits2w a b _)
theorem Encoding.teval (h : Head) (d : VDst) (a : VSrc) (k : BitVec 2) : Encoding.Statement (.teval h d a k) :=
  Encoding.of_cons rfl (Encoding.lits1 a)
theorem Encoding.drawImmediate (h : Head) (q : BitVec 2) (p : BitVec 5) (r : BitVec 2) (i : BitVec 6) : Encoding.Statement (.drawImmediate h q p r i) :=
  Encoding.of_cons rfl (by simp)
theorem Encoding.drawRegister (h : Head) (q : BitVec 2) (p : BitVec 5) (r : BitVec 2) (x : Reg) : Encoding.Statement (.drawRegister h q p r x) :=
  Encoding.of_cons rfl (by simp)
theorem Encoding.putOperandImmediate (h : Head) (o : BitVec 4) (p : BitVec 5) (r : BitVec 2) (i : BitVec 6) : Encoding.Statement (.putOperandImmediate h o p r i) :=
  Encoding.of_cons rfl (by simp)
theorem Encoding.putOperandRegister (h : Head) (o : BitVec 4) (p : BitVec 5) (r : BitVec 2) (x : Reg) : Encoding.Statement (.putOperandRegister h o p r x) :=
  Encoding.of_cons rfl (by simp)
theorem Encoding.putLastResultImmediate (h : Head) (l : BitVec 2) (p : BitVec 5) (r : BitVec 2) (i : BitVec 6) : Encoding.Statement (.putLastResultImmediate h l p r i) :=
  Encoding.of_cons rfl (by simp)
theorem Encoding.putLastResultRegister (h : Head) (l : BitVec 2) (p : BitVec 5) (r : BitVec 2) (x : Reg) : Encoding.Statement (.putLastResultRegister h l p r x) :=
  Encoding.of_cons rfl (by simp)
theorem Encoding.sld (h : Head) (d : VDst) (k : Reg) (f : BitVec 7) : Encoding.Statement (.sld h d k f) :=
  Encoding.of_cons rfl (by simp)
theorem Encoding.sldTagged (h : Head) (d : VDst) (k : Reg) (f : BitVec 7) (tag : Byte) : Encoding.Statement (.sldTagged h d k f tag) :=
  Encoding.of_cons rfl (by simp)
theorem Encoding.sst (h : Head) (o : OSrc) (k : Reg) (f : BitVec 7) : Encoding.Statement (.sst h o k f) :=
  Encoding.of_cons rfl (by simp)
theorem Encoding.sstTagged (h : Head) (o : OSrc) (k : Reg) (f : BitVec 7) (tag : Byte) : Encoding.Statement (.sstTagged h o k f tag) :=
  Encoding.of_cons rfl (by simp)
theorem Encoding.slds (h : Head) (r : Reg) (k : Reg) (f : BitVec 7) : Encoding.Statement (.slds h r k f) :=
  Encoding.of_cons rfl (by simp)
theorem Encoding.sldsTagged (h : Head) (r : Reg) (k : Reg) (f : BitVec 7) (tag : Byte) : Encoding.Statement (.sldsTagged h r k f tag) :=
  Encoding.of_cons rfl (by simp)
theorem Encoding.ssts (h : Head) (r : Reg) (k : Reg) (f : BitVec 7) : Encoding.Statement (.ssts h r k f) :=
  Encoding.of_cons rfl (by simp)
theorem Encoding.sstsTagged (h : Head) (r : Reg) (k : Reg) (f : BitVec 7) (tag : Byte) : Encoding.Statement (.sstsTagged h r k f tag) :=
  Encoding.of_cons rfl (by simp)
theorem Encoding.ld (h : Head) (d : Reg) (a : Reg) (b : Reg) (m : BitVec 2) : Encoding.Statement (.ld h d a b m) :=
  Encoding.of_cons rfl (by simp)
theorem Encoding.st (h : Head) (d : Reg) (a : Reg) (b : Reg) (m : BitVec 2) : Encoding.Statement (.st h d a b m) :=
  Encoding.of_cons rfl (by simp)
theorem Encoding.ecopy (h : Head) (d : Reg) (a : Reg) (b : Reg) (m : BitVec 2) : Encoding.Statement (.ecopy h d a b m) :=
  Encoding.of_cons rfl (by simp)
theorem Encoding.mark (h : Head) : Encoding.Statement (.mark h) :=
  Encoding.of_cons rfl (by simp)
theorem Encoding.lqwait (h : Head) (v : BitVec 5) : Encoding.Statement (.lqwait h v) :=
  Encoding.of_cons rfl (by simp)
theorem Encoding.sqwait (h : Head) (v : BitVec 5) : Encoding.Statement (.sqwait h v) :=
  Encoding.of_cons rfl (by simp)
theorem Encoding.fence (h : Head) (v : BitVec 5) : Encoding.Statement (.fence h v) :=
  Encoding.of_cons rfl (by simp)
theorem Encoding.aadd (h : Head) (d : Reg) (a : Reg) (b : Reg) (m : BitVec 2) : Encoding.Statement (.aadd h d a b m) :=
  Encoding.of_cons rfl (by simp)
theorem Encoding.aminI (h : Head) (d : Reg) (a : Reg) (b : Reg) (m : BitVec 2) : Encoding.Statement (.aminI h d a b m) :=
  Encoding.of_cons rfl (by simp)
theorem Encoding.aminN (h : Head) (d : Reg) (a : Reg) (b : Reg) (m : BitVec 2) : Encoding.Statement (.aminN h d a b m) :=
  Encoding.of_cons rfl (by simp)
theorem Encoding.amaxI (h : Head) (d : Reg) (a : Reg) (b : Reg) (m : BitVec 2) : Encoding.Statement (.amaxI h d a b m) :=
  Encoding.of_cons rfl (by simp)
theorem Encoding.amaxN (h : Head) (d : Reg) (a : Reg) (b : Reg) (m : BitVec 2) : Encoding.Statement (.amaxN h d a b m) :=
  Encoding.of_cons rfl (by simp)
theorem Encoding.aand (h : Head) (d : Reg) (a : Reg) (b : Reg) (m : BitVec 2) : Encoding.Statement (.aand h d a b m) :=
  Encoding.of_cons rfl (by simp)
theorem Encoding.aor (h : Head) (d : Reg) (a : Reg) (b : Reg) (m : BitVec 2) : Encoding.Statement (.aor h d a b m) :=
  Encoding.of_cons rfl (by simp)
theorem Encoding.axor (h : Head) (d : Reg) (a : Reg) (b : Reg) (m : BitVec 2) : Encoding.Statement (.axor h d a b m) :=
  Encoding.of_cons rfl (by simp)
theorem Encoding.axchg (h : Head) (d : Reg) (a : Reg) (b : Reg) (m : BitVec 2) : Encoding.Statement (.axchg h d a b m) :=
  Encoding.of_cons rfl (by simp)
theorem Encoding.acas (h : Head) (d : Reg) (a : Reg) (b : Reg) (m : BitVec 2) : Encoding.Statement (.acas h d a b m) :=
  Encoding.of_cons rfl (by simp)
theorem Encoding.afadd (h : Head) (d : Reg) (a : Reg) (b : Reg) (m : BitVec 2) : Encoding.Statement (.afadd h d a b m) :=
  Encoding.of_cons rfl (by simp)
theorem Encoding.bara (h : Head) (d : Reg) (a : Reg) (m : BitVec 2) : Encoding.Statement (.bara h d a m) :=
  Encoding.of_cons rfl (by simp)
theorem Encoding.barw (h : Head) (a : Reg) (b : Reg) (m : BitVec 2) : Encoding.Statement (.barw h a b m) :=
  Encoding.of_cons rfl (by simp)
theorem Encoding.flagw (h : Head) (d : Reg) (a : Reg) (b : Reg) (sc : BitVec 2) (cc : BitVec 2) : Encoding.Statement (.flagw h d a b sc cc) :=
  Encoding.of_cons rfl (by simp)
theorem Encoding.pref (h : Head) (a : Reg) (b : Reg) : Encoding.Statement (.pref h a b) :=
  Encoding.of_cons rfl (by simp)
theorem Encoding.ipref (h : Head) (a : Reg) (b : Reg) (l : BitVec 2) : Encoding.Statement (.ipref h a b l) :=
  Encoding.of_cons rfl (by simp)
theorem Encoding.ipin (h : Head) (d : Reg) (a : Reg) (b : Reg) (l : BitVec 2) : Encoding.Statement (.ipin h d a b l) :=
  Encoding.of_cons rfl (by simp)
theorem Encoding.iunpin (h : Head) (a : Reg) (b : Reg) (l : BitVec 2) : Encoding.Statement (.iunpin h a b l) :=
  Encoding.of_cons rfl (by simp)
theorem Encoding.icinv (h : Head) (a : Reg) (b : Reg) : Encoding.Statement (.icinv h a b) :=
  Encoding.of_cons rfl (by simp)
theorem Encoding.park (h : Head) (o : OSrc) (a : Reg) (b : Reg) : Encoding.Statement (.park h o a b) :=
  Encoding.of_cons rfl (by simp)
theorem Encoding.unpark (h : Head) (d : VDst) (a : Reg) (b : Reg) : Encoding.Statement (.unpark h d a b) :=
  Encoding.of_cons rfl (by simp)
theorem Encoding.mcfg (h : Head) (st : Stamp) (g : Reg) (ofs : BitVec 11) (eng : BitVec 2) : Encoding.Statement (.mcfg h st g ofs eng) :=
  Encoding.of_cons rfl (by simp)
theorem Encoding.mgo (h : Head) (st : Stamp) (cb : Bool) (ca : Bool) (bt : Byte) (at_ : Byte) : Encoding.Statement (.mgo h st cb ca bt at_) :=
  Encoding.of_cons rfl (by simp)
theorem Encoding.mstop (h : Head) (st : Stamp) : Encoding.Statement (.mstop h st) :=
  Encoding.of_cons rfl (by simp)
theorem Encoding.mbase (h : Head) (st : Stamp) (g : Reg) (which : BitVec 3) : Encoding.Statement (.mbase h st g which) :=
  Encoding.of_cons rfl (by simp)
theorem Encoding.cfgld (h : Head) (st : Stamp) (g : Reg) (ck : Bool) (tag : Byte) (ofs : Byte) (len : Byte) (eng : BitVec 2) : Encoding.Statement (.cfgld h st g ck tag ofs len eng) :=
  Encoding.of_cons rfl (by simp)
theorem Encoding.cfgswap (h : Head) (st : Stamp) (eng : BitVec 2) : Encoding.Statement (.cfgswap h st eng) :=
  Encoding.of_cons rfl (by simp)
theorem Encoding.mfmt (h : Head) (st : Stamp) (g : Reg) (e : BitVec 4) : Encoding.Statement (.mfmt h st g e) :=
  Encoding.of_cons rfl (by simp)
theorem Encoding.aczero (h : Head) (st : Stamp) (rows : BitVec 6) (row : BitVec 6) (bank : BitVec 5) : Encoding.Statement (.aczero h st rows row bank) :=
  Encoding.of_cons rfl (by simp)
theorem Encoding.acalloc (h : Head) (d : Reg) (a : Reg) (zero : Bool) (park : Bool) : Encoding.Statement (.acalloc h d a zero park) :=
  Encoding.of_cons rfl (by simp)
theorem Encoding.acfree (h : Head) (a : Reg) : Encoding.Statement (.acfree h a) :=
  Encoding.of_cons rfl (by simp)
theorem Encoding.acown (h : Head) (a : Reg) (b : Reg) : Encoding.Statement (.acown h a b) :=
  Encoding.of_cons rfl (by simp)
theorem Encoding.acld (h : Head) (d : VDst) (a : Reg) (b : Reg) (cv : Conv) : Encoding.Statement (.acld h d a b cv) :=
  Encoding.of_cons rfl (by simp)
theorem Encoding.xcopy (h : Head) (st : Stamp) (g : Reg) (rem : BitVec 2) (ck : Bool) (ex : Byte) (stg : Bool) (tag : Byte) (dst : BitVec 5) (frm : BitVec 5) : Encoding.Statement (.xcopy h st g rem ck ex stg tag dst frm) :=
  Encoding.of_cons rfl (by simp)
theorem Encoding.tsld (h : Head) (st : Stamp) (g : Reg) (slot : BitVec 5) : Encoding.Statement (.tsld h st g slot) :=
  Encoding.of_cons rfl (by simp)
theorem Encoding.tsev (h : Head) (st : Stamp) (slot : BitVec 5) : Encoding.Statement (.tsev h st slot) :=
  Encoding.of_cons rfl (by simp)
theorem Encoding.tload (h : Head) (st : Stamp) (g : Reg) (ck : Bool) (tag : Byte) (tb : BitVec 2) : Encoding.Statement (.tload h st g ck tag tb) :=
  Encoding.of_cons rfl (by simp)
theorem Encoding.rload (h : Head) (st : Stamp) (g : Reg) (ck : Bool) (tag : Byte) : Encoding.Statement (.rload h st g ck tag) :=
  Encoding.of_cons rfl (by simp)
theorem Encoding.rstep (h : Head) (st : Stamp) (g : Reg) (gens : BitVec 6) (cheq : Bool) (nb : BitVec 2) (alt : BitVec 5) (pl : BitVec 5) : Encoding.Statement (.rstep h st g gens cheq nb alt pl) :=
  Encoding.of_cons rfl (by simp)
theorem Encoding.waitb (h : Head) (a : Reg) : Encoding.Statement (.waitb h a) :=
  Encoding.of_cons rfl (by simp)
theorem Encoding.waitbUntil (h : Head) (a : Reg) : Encoding.Statement (.waitbUntil h a) :=
  Encoding.of_cons rfl (by simp)
theorem Encoding.deadline (h : Head) (a : Reg) (b : Reg) : Encoding.Statement (.deadline h a b) :=
  Encoding.of_cons rfl (by simp)
theorem Encoding.deadlineClr (h : Head) : Encoding.Statement (.deadlineClr h) :=
  Encoding.of_cons rfl (by simp)
theorem Encoding.acqp (h : Head) (n : BitVec 5) : Encoding.Statement (.acqp h n) :=
  Encoding.of_cons rfl (by simp)
theorem Encoding.relp (h : Head) : Encoding.Statement (.relp h) :=
  Encoding.of_cons rfl (by simp)
theorem Encoding.molt (h : Head) (d : Reg) (a : Reg) : Encoding.Statement (.molt h d a) :=
  Encoding.of_cons rfl (by simp)
theorem Encoding.enq (h : Head) (d : Reg) (a : Reg) (b : Reg) : Encoding.Statement (.enq h d a b) :=
  Encoding.of_cons rfl (by simp)
theorem Encoding.trap (h : Head) (a : Reg) (n : BitVec 5) : Encoding.Statement (.trap h a n) :=
  Encoding.of_cons rfl (by simp)
theorem Encoding.tret (h : Head) : Encoding.Statement (.tret h) :=
  Encoding.of_cons rfl (by simp)
theorem Encoding.tretSkip (h : Head) (n : BitVec 5) : Encoding.Statement (.tretSkip h n) :=
  Encoding.of_cons rfl (by simp)
theorem Encoding.mcfgStart (c : CoreRef) (e : Eng) : Encoding.Statement (.mcfgStart c e) :=
  Encoding.of_nil rfl
theorem Encoding.cfgldStart (c : CoreRef) (e : Eng) : Encoding.Statement (.cfgldStart c e) :=
  Encoding.of_nil rfl
theorem Encoding.cfgswapStart (c : CoreRef) (e : Eng) : Encoding.Statement (.cfgswapStart c e) :=
  Encoding.of_nil rfl
theorem Encoding.cfgswapFlip (c : CoreRef) (e : Eng) : Encoding.Statement (.cfgswapFlip c e) :=
  Encoding.of_nil rfl
theorem Encoding.mgoStart (c : CoreRef) : Encoding.Statement (.mgoStart c) :=
  Encoding.of_nil rfl
theorem Encoding.matrixBlockStep (c : CoreRef) : Encoding.Statement (.matrixBlockStep c) :=
  Encoding.of_nil rfl
theorem Encoding.mstopStart (c : CoreRef) : Encoding.Statement (.mstopStart c) :=
  Encoding.of_nil rfl
theorem Encoding.mbaseStart (c : CoreRef) : Encoding.Statement (.mbaseStart c) :=
  Encoding.of_nil rfl
theorem Encoding.mfmtStart (c : CoreRef) : Encoding.Statement (.mfmtStart c) :=
  Encoding.of_nil rfl
theorem Encoding.aczeroStart (c : CoreRef) : Encoding.Statement (.aczeroStart c) :=
  Encoding.of_nil rfl
theorem Encoding.xcopyStart (c : CoreRef) : Encoding.Statement (.xcopyStart c) :=
  Encoding.of_nil rfl
theorem Encoding.xcopyChunk (c : CoreRef) (id : Nat) (j : Nat) : Encoding.Statement (.xcopyChunk c id j) :=
  Encoding.of_nil rfl
theorem Encoding.tsldStart (c : CoreRef) : Encoding.Statement (.tsldStart c) :=
  Encoding.of_nil rfl
theorem Encoding.tsevStart (c : CoreRef) : Encoding.Statement (.tsevStart c) :=
  Encoding.of_nil rfl
theorem Encoding.tloadStart (c : CoreRef) : Encoding.Statement (.tloadStart c) :=
  Encoding.of_nil rfl
theorem Encoding.tloadReplace (c : CoreRef) : Encoding.Statement (.tloadReplace c) :=
  Encoding.of_nil rfl
theorem Encoding.rloadStart (c : CoreRef) : Encoding.Statement (.rloadStart c) :=
  Encoding.of_nil rfl
theorem Encoding.rloadReplace (c : CoreRef) : Encoding.Statement (.rloadReplace c) :=
  Encoding.of_nil rfl
theorem Encoding.rstepStart (c : CoreRef) : Encoding.Statement (.rstepStart c) :=
  Encoding.of_nil rfl
theorem Encoding.rstepGeneration (c : CoreRef) : Encoding.Statement (.rstepGeneration c) :=
  Encoding.of_nil rfl
theorem Encoding.loadPerform (r : CRef) : Encoding.Statement (.loadPerform r) :=
  Encoding.of_nil rfl
theorem Encoding.loadDataArrival (r : CRef) : Encoding.Statement (.loadDataArrival r) :=
  Encoding.of_nil rfl
theorem Encoding.storePerform (r : CRef) : Encoding.Statement (.storePerform r) :=
  Encoding.of_nil rfl
theorem Encoding.ecopyPerform (r : CRef) : Encoding.Statement (.ecopyPerform r) :=
  Encoding.of_nil rfl
theorem Encoding.atomicPerform (r : CRef) : Encoding.Statement (.atomicPerform r) :=
  Encoding.of_nil rfl
theorem Encoding.baraPerform (r : CRef) : Encoding.Statement (.baraPerform r) :=
  Encoding.of_nil rfl
theorem Encoding.enqPerform (r : CRef) : Encoding.Statement (.enqPerform r) :=
  Encoding.of_nil rfl
theorem Encoding.markerRetire (r : CRef) : Encoding.Statement (.markerRetire r) :=
  Encoding.of_nil rfl
theorem Encoding.elasticWaitResume (sid : Nat) : Encoding.Statement (.elasticWaitResume sid) :=
  Encoding.of_nil rfl
theorem Encoding.fetchLineFill (sid : Nat) : Encoding.Statement (.fetchLineFill sid) :=
  Encoding.of_nil rfl
theorem Encoding.translationWalk (sid : Nat) : Encoding.Statement (.translationWalk sid) :=
  Encoding.of_nil rfl
theorem Encoding.powerGrant (k : Nat) : Encoding.Statement (.powerGrant k) :=
  Encoding.of_nil rfl
theorem Encoding.regionLevelFall (sid : Nat) : Encoding.Statement (.regionLevelFall sid) :=
  Encoding.of_nil rfl
theorem Encoding.stallWatchdog (sid : Nat) : Encoding.Statement (.stallWatchdog sid) :=
  Encoding.of_nil rfl
theorem Encoding.deadlineLapse (sid : Nat) : Encoding.Statement (.deadlineLapse sid) :=
  Encoding.of_nil rfl
theorem Encoding.strandStop (sid : Nat) : Encoding.Statement (.strandStop sid) :=
  Encoding.of_nil rfl
theorem Encoding.drainEnd (sid : Nat) : Encoding.Statement (.drainEnd sid) :=
  Encoding.of_nil rfl
theorem Encoding.preemptionHold (sid : Nat) : Encoding.Statement (.preemptionHold sid) :=
  Encoding.of_nil rfl
theorem Encoding.commitWindow (k : Nat) : Encoding.Statement (.commitWindow k) :=
  Encoding.of_nil rfl
theorem Encoding.weaveFlip (k : Nat) : Encoding.Statement (.weaveFlip k) :=
  Encoding.of_nil rfl
theorem Encoding.scrubComplete (k : Nat) : Encoding.Statement (.scrubComplete k) :=
  Encoding.of_nil rfl
theorem Encoding.strandRetire (sid : Nat) : Encoding.Statement (.strandRetire sid) :=
  Encoding.of_nil rfl
theorem Encoding.digestReexecution (task : Nat) : Encoding.Statement (.digestReexecution task) :=
  Encoding.of_nil rfl
theorem Encoding.ringRecordWrite (ctx : Nat) : Encoding.Statement (.ringRecordWrite ctx) :=
  Encoding.of_nil rfl
theorem Encoding.nopPacket (q : QRef) : Encoding.Statement (.nopPacket q) :=
  Encoding.of_nil rfl
theorem Encoding.launch (q : QRef) (p : LaunchPkt) : Encoding.Statement (.launch q p) :=
  Encoding.of_nil rfl
theorem Encoding.graph (q : QRef) (p : GraphPkt) : Encoding.Statement (.graph q p) :=
  Encoding.of_nil rfl
theorem Encoding.seedpush (q : QRef) (v : W64) : Encoding.Statement (.seedpush q v) :=
  Encoding.of_nil rfl
theorem Encoding.seedpop (q : QRef) : Encoding.Statement (.seedpop q) :=
  Encoding.of_nil rfl
theorem Encoding.seedfork (q : QRef) (i : W32) : Encoding.Statement (.seedfork q i) :=
  Encoding.of_nil rfl
theorem Encoding.waitword (q : QRef) (p : WaitPkt) : Encoding.Statement (.waitword q p) :=
  Encoding.of_nil rfl
theorem Encoding.waitwordPoll (q : QRef) : Encoding.Statement (.waitwordPoll q) :=
  Encoding.of_nil rfl
theorem Encoding.waitTimeout (q : QRef) : Encoding.Statement (.waitTimeout q) :=
  Encoding.of_nil rfl
theorem Encoding.setword (q : QRef) (p : SetPkt) : Encoding.Statement (.setword q p) :=
  Encoding.of_nil rfl
theorem Encoding.afterPriorStore (n : Nat) : Encoding.Statement (.afterPriorStore n) :=
  Encoding.of_nil rfl
theorem Encoding.teardown (q : QRef) : Encoding.Statement (.teardown q) :=
  Encoding.of_nil rfl
theorem Encoding.quota (q : QRef) (p : QuotaPkt) : Encoding.Statement (.quota q p) :=
  Encoding.of_nil rfl
theorem Encoding.packetReread (q : QRef) : Encoding.Statement (.packetReread q) :=
  Encoding.of_nil rfl
theorem Encoding.tornPacket (q : QRef) : Encoding.Statement (.tornPacket q) :=
  Encoding.of_nil rfl
theorem Encoding.launchAgeing (n : Nat) : Encoding.Statement (.launchAgeing n) :=
  Encoding.of_nil rfl
theorem Encoding.launchReservation (part : Nat) : Encoding.Statement (.launchReservation part) :=
  Encoding.of_nil rfl
theorem Encoding.taskNode (rep : Nat) (a : Activation) (w : NodeWords) : Encoding.Statement (.taskNode rep a w) :=
  Encoding.of_nil rfl
theorem Encoding.cond (rep : Nat) (a : Activation) (w : NodeWords) : Encoding.Statement (.cond rep a w) :=
  Encoding.of_nil rfl
theorem Encoding.loopNode (rep : Nat) (a : Activation) (w : NodeWords) : Encoding.Statement (.loopNode rep a w) :=
  Encoding.of_nil rfl
theorem Encoding.switch (rep : Nat) (a : Activation) (w : NodeWords) : Encoding.Statement (.switch rep a w) :=
  Encoding.of_nil rfl
theorem Encoding.join (rep : Nat) (a : Activation) (w : NodeWords) : Encoding.Statement (.join rep a w) :=
  Encoding.of_nil rfl
theorem Encoding.seedNode (rep : Nat) (a : Activation) (w : NodeWords) : Encoding.Statement (.seedNode rep a w) :=
  Encoding.of_nil rfl
theorem Encoding.endNode (rep : Nat) (a : Activation) (w : NodeWords) : Encoding.Statement (.endNode rep a w) :=
  Encoding.of_nil rfl
theorem Encoding.activate (ctx : Nat) : Encoding.Statement (.activate ctx) :=
  Encoding.of_nil rfl
theorem Encoding.release (ctx : Nat) : Encoding.Statement (.release ctx) :=
  Encoding.of_nil rfl
theorem Encoding.queueEnable (q : Nat) (v : W64) : Encoding.Statement (.queueEnable q v) :=
  Encoding.of_nil rfl
theorem Encoding.qkick (q : Nat) (tail : W32) : Encoding.Statement (.qkick q tail) :=
  Encoding.of_nil rfl
theorem Encoding.qcmdResume (q : Nat) : Encoding.Statement (.qcmdResume q) :=
  Encoding.of_nil rfl
theorem Encoding.qcmdSkip (q : Nat) : Encoding.Statement (.qcmdSkip q) :=
  Encoding.of_nil rfl
theorem Encoding.hold (w : W64) : Encoding.Statement (.hold w) :=
  Encoding.of_nil rfl
theorem Encoding.pecmdResume (w : W64) : Encoding.Statement (.pecmdResume w) :=
  Encoding.of_nil rfl
theorem Encoding.save (w : W64) : Encoding.Statement (.save w) :=
  Encoding.of_nil rfl
theorem Encoding.restore (w : W64) : Encoding.Statement (.restore w) :=
  Encoding.of_nil rfl
theorem Encoding.tlbinvOnePage (ctx : Nat) : Encoding.Statement (.tlbinvOnePage ctx) :=
  Encoding.of_nil rfl
theorem Encoding.tlbinvWholeContext (ctx : Nat) : Encoding.Statement (.tlbinvWholeContext ctx) :=
  Encoding.of_nil rfl
theorem Encoding.mbxctl (strand : W32) (i : Nat) : Encoding.Statement (.mbxctl strand i) :=
  Encoding.of_nil rfl
theorem Encoding.linkcmdResume : Encoding.Statement .linkcmdResume :=
  Encoding.of_nil rfl
theorem Encoding.stackReset (k : Nat) : Encoding.Statement (.stackReset k) :=
  Encoding.of_nil rfl
theorem Encoding.computeReset : Encoding.Statement .computeReset :=
  Encoding.of_nil rfl
theorem Encoding.functionLevelReset : Encoding.Statement .functionLevelReset :=
  Encoding.of_nil rfl
theorem Encoding.coldReset : Encoding.Statement .coldReset :=
  Encoding.of_nil rfl
theorem Encoding.islandReset : Encoding.Statement .islandReset :=
  Encoding.of_nil rfl
theorem Encoding.pwrenv (k : Nat) (w : W64) : Encoding.Statement (.pwrenv k w) :=
  Encoding.of_nil rfl
theorem Encoding.active (kind : Nat) (unit : Nat) : Encoding.Statement (.active kind unit) :=
  Encoding.of_nil rfl
theorem Encoding.gated (kind : Nat) (unit : Nat) : Encoding.Statement (.gated kind unit) :=
  Encoding.of_nil rfl
theorem Encoding.retain (kind : Nat) (unit : Nat) : Encoding.Statement (.retain kind unit) :=
  Encoding.of_nil rfl
theorem Encoding.off (kind : Nat) (unit : Nat) : Encoding.Statement (.off kind unit) :=
  Encoding.of_nil rfl
theorem Encoding.droopclr (m : BitVec 4) : Encoding.Statement (.droopclr m) :=
  Encoding.of_nil rfl
theorem Encoding.errcfg (w : W64) : Encoding.Statement (.errcfg w) :=
  Encoding.of_nil rfl
theorem Encoding.fenceclr (w : W64) : Encoding.Statement (.fenceclr w) :=
  Encoding.of_nil rfl
theorem Encoding.drefc (ctx : Nat) (w : W64) : Encoding.Statement (.drefc ctx w) :=
  Encoding.of_nil rfl
theorem Encoding.registerWrite (ofs : Nat) (w : W64) : Encoding.Statement (.registerWrite ofs w) :=
  Encoding.of_nil rfl
theorem Encoding.surpriseLinkLoss : Encoding.Statement .surpriseLinkLoss :=
  Encoding.of_nil rfl
theorem Encoding.linkgraceExpiry : Encoding.Statement .linkgraceExpiry :=
  Encoding.of_nil rfl
theorem Encoding.governorEvaluation (k : Nat) : Encoding.Statement (.governorEvaluation k) :=
  Encoding.of_nil rfl
theorem Encoding.operatingPointChange (k : Nat) : Encoding.Statement (.operatingPointChange k) :=
  Encoding.of_nil rfl
theorem Encoding.energyMetering (mj : List (Nat × Nat)) : Encoding.Statement (.energyMetering mj) :=
  Encoding.of_nil rfl
theorem Encoding.droopDetectorTrip (k : Nat) : Encoding.Statement (.droopDetectorTrip k) :=
  Encoding.of_nil rfl
theorem Encoding.droopSignatureMatch (k : Nat) : Encoding.Statement (.droopSignatureMatch k) :=
  Encoding.of_nil rfl
theorem Encoding.thermalSafetyTrip : Encoding.Statement .thermalSafetyTrip :=
  Encoding.of_nil rfl
theorem Encoding.correctedError (u : HwUnit) : Encoding.Statement (.correctedError u) :=
  Encoding.of_nil rfl
theorem Encoding.uncorrectableError (u : HwUnit) (at_ : Nat) : Encoding.Statement (.uncorrectableError u at_) :=
  Encoding.of_nil rfl
theorem Encoding.hostMemoryRead (bar : Nat) (ofs : Nat) (n : Nat) : Encoding.Statement (.hostMemoryRead bar ofs n) :=
  Encoding.of_nil rfl
theorem Encoding.hostMemoryWrite (bar : Nat) (ofs : Nat) (bytes : List Byte) : Encoding.Statement (.hostMemoryWrite bar ofs bytes) :=
  Encoding.of_nil rfl
theorem Encoding.domainAccess (from_ : Nat) (write : Bool) (ofs : Nat) (size : Nat) (v : W64) : Encoding.Statement (.domainAccess from_ write ofs size v) :=
  Encoding.of_nil rfl
theorem Encoding.flitReplay (port : Nat) : Encoding.Statement (.flitReplay port) :=
  Encoding.of_nil rfl
theorem Encoding.stop (port : Nat) (vc : Nat) : Encoding.Statement (.stop port vc) :=
  Encoding.of_nil rfl
theorem Encoding.go (port : Nat) (vc : Nat) : Encoding.Statement (.go port vc) :=
  Encoding.of_nil rfl
theorem Encoding.doorbell (ctx : Nat) (v : W64) : Encoding.Statement (.doorbell ctx v) :=
  Encoding.of_nil rfl
theorem Encoding.firmwareUpdate (target : Nat) (version : Nat) (image : Nat) : Encoding.Statement (.firmwareUpdate target version image) :=
  Encoding.of_nil rfl
theorem Encoding.attestation : Encoding.Statement .attestation :=
  Encoding.of_nil rfl
theorem Encoding.linkRetrain : Encoding.Statement .linkRetrain :=
  Encoding.of_nil rfl
theorem Encoding.droopStretchEnd (k : Nat) : Encoding.Statement (.droopStretchEnd k) :=
  Encoding.of_nil rfl
theorem Encoding.completionEntryWrite (ctx : Nat) (va : W64) (v : W64) : Encoding.Statement (.completionEntryWrite ctx va v) :=
  Encoding.of_nil rfl
theorem Encoding.powerLoss : Encoding.Statement .powerLoss :=
  Encoding.of_nil rfl

end Sys2Proof.Laws
end

