-- ==== Sys2Proof/Tests/Slice0.lean ====
section
/-! SUPPORT. Tests: words of the manual, ill-formed terms, and one state for the hypotheses of each statement. Each expected
value comes from the manual or is worked out from it by hand. -/

namespace Sys2Proof.Tests

open Sys2Proof Sys2Proof.Machine

/- One test after another: tests that run beside each other wait for each other's kernel checks, each in a thread of its own. -/
set_option Elab.async false

/-! ## A small state -/

/-- A head that always runs. -/
def sh : SHead := { last := true, neg := false, g := 0, sync := false, shadow := false }
/-- The same of a V, M or X syllable. -/
def mh : Head := { last := true, neg := false, g := 0 }
/-- A head whose guard is false: p0 complemented. -/
def shN : SHead := { sh with neg := true }
/-- The same of a V, M or X syllable. -/
def mhN : Head := { mh with neg := true }

/-- Scalar registers from s0 up. -/
def regs (xs : List W64) : Vector W64 32 := Vector.ofFn fun i => xs.getD i.val 0

/-- A cluster with such registers. -/
def cluWith (xs : List W64) : Cluster := { Cluster.zero with inMask := true, s := regs xs }

/-- A core whose c0 is given. -/
def coreOf (c : Cluster) : Core := { Core.zero 0 wholeUnits with cl := #v[c, Cluster.zero, Cluster.zero, Cluster.zero] }

/-- A strand of one core, at beat 100. -/
def strandOf (co : Core) : Strand := { readyStrand 1 [] with cores := [co], beat := 100 }

/-- What c0 of that core issues at beat 100: a bundle of one word at address 64. -/
def cur0 : Cur := { sid := 1, core := 0, cl := 0, beat := 100, pc := 64, next := 68, shadow := false, handler := false, moved := false }

/-- The device with one strand that is issuing. -/
def mk (t : Strand) : State := { State.reset with strands := [t], cur := some cur0 }

/-- What its syllable sees. -/
def vw (t : Strand) (co : Core) : View := { cur := cur0, st := t, co, cl := co.cluster 0 }

theorem mk_view (co : Core) : (mk (strandOf co)).view = some (vw (strandOf co) co) := rfl

/-- A cluster with some register values at the ends of their ranges. -/
def cluA : Cluster := cluWith [0, 0x1000000000000, 0xFFFFFFFFFFFF, 7, 0xFFFFFFFFFFFFFFF8]
/-- The core, strand, state and view of that cluster. -/
def coA : Core := coreOf cluA
def tA : Strand := strandOf coA
def sA : State := mk tA
def vA : View := vw tA coA

/-! ## Scalar and vector forms -/

theorem witness_ScalarRegisterForms : sA.view = some vA ∧ vA.guard sh.neg sh.g = true := ⟨rfl, by decide⟩

theorem witness_BitFieldSelectAndAddressForms : sA.view = some vA ∧ vA.guard sh.neg sh.g = true ∧
    ((vA.rs 1 + vA.rs 0 * 8).msb = false ∧ (vA.rs 1 + vA.rs 0 * 8).toNat ≥ 2 ^ 48) ∧
    ¬ ((vA.rs 2 + vA.rs 0 * 8).msb = false ∧ (vA.rs 2 + vA.rs 0 * 8).toNat ≥ 2 ^ 48) := by
  refine ⟨rfl, by decide, by decide, by decide⟩

/-- Literal forms of LEAL at the two ends of the local range. -/
theorem witness_BitFieldSelectAndAddressForms_literal :
    ((vA.rs 2 + (1 : W32).signExtend 64).msb = false ∧ (vA.rs 2 + (1 : W32).signExtend 64).toNat ≥ 2 ^ 48) ∧
    ¬ ((vA.rs 1 + (0xFFFFFFFF : W32).signExtend 64).msb = false ∧ (vA.rs 1 + (0xFFFFFFFF : W32).signExtend 64).toNat ≥ 2 ^ 48) := by
  decide

theorem witness_ScalarLiteralForms : sA.view = some vA ∧ vA.guard sh.neg sh.g = true := ⟨rfl, by decide⟩

theorem witness_ScalarComparesAndPredicates : sA.view = some vA ∧ vA.guard sh.neg sh.g = true := ⟨rfl, by decide⟩

/-- Sources that read no queue can always be read. -/
theorem readable_plain (v : View) (a b : BitVec 4) : v.readable [.o a, .o b] := by
  simp [View.readable, srcQueue]

/-- A cluster with an entry in q0. -/
def cluQ : Cluster := { cluA with q := #v[[splat 1], [], [], []] }
def coQ : Core := coreOf cluQ
def tQ : Strand := strandOf coQ
def vQ : View := vw tQ coQ

theorem witness_VectorIntegerForms : sA.view = some vA ∧ vA.readable [.o 0, .o 1] ∧ (mk tQ).view = some vQ ∧ vQ.readable [.pop 0] := by
  refine ⟨rfl, readable_plain _ _ _, rfl, ?_⟩
  simp only [View.readable, List.mem_singleton, srcQueue, forall_eq, Option.some.injEq]
  rintro n rfl
  decide

theorem witness_VectorFloatForms : sA.view = some vA ∧ vA.readable [.o 0, .o 1] ∧ vA.affords 3 :=
  ⟨rfl, readable_plain _ _ _, .inl rfl⟩

theorem witness_VectorMovesSelectsAndDotProducts : sA.view = some vA ∧ vA.readable [.o 0, .o 1] := ⟨rfl, readable_plain _ _ _⟩

theorem witness_VectorCompares : sA.view = some vA ∧ vA.readable [.o 0, .o 1] ∧ vA.affords 3 := ⟨rfl, readable_plain _ _ _, .inl rfl⟩

theorem witness_ScaleByPowerOfTwo : sA.view = some vA ∧ vA.readable [.o 0, .o 1] ∧ vA.affords 3 := ⟨rfl, readable_plain _ _ _, .inl rfl⟩

/-- A core whose format entry 0 asks VCVTT for a scale field, and one with no bad field. -/
theorem witness_VectorConversions : sA.view = some vA ∧ vA.affords 3 ∧ vA.readable [.o 0, .o 1] ∧
    (let e := vget vA.co.fmt ((vA.cl.fmtbase.toNat + vA.cl.seq.lc vA.cl.fmtsel.toNat) % 16) 0
     e = 0) ∧
    (∀ w : W32, let v := vw tA { coA with fmt := Vector.replicate 16 w }
     vget v.co.fmt ((v.cl.fmtbase.toNat + v.cl.seq.lc v.cl.fmtsel.toNat) % 16) 0 = w) ∧
    (∀ e ∈ ([3, 4, 9, 0x30, 0x40, 0x90, 0xC00, 0x3000, 0x14000] : List W32),
     let fmt := (e.extractLsb' 0 4).toNat
     let fmtB := (e.extractLsb' 4 4).toNat
     fmt = 3 ∨ fmt = 4 ∨ 8 < fmt ∨ fmtB = 3 ∨ fmtB = 4 ∨ 8 < fmtB ∨ e.extractLsb' 10 2 = 3 ∨ e.extractLsb' 12 2 = 3 ∨
       4 < (e.extractLsb' 14 3).toNat) := by
  refine ⟨rfl, .inl rfl, readable_plain _ _ _, by decide, fun _ => rfl, fun e h => ?_⟩
  simp only [List.mem_cons, List.not_mem_nil, or_false] at h
  rcases h with h | h | h | h | h | h | h | h | h <;> subst h <;> decide

theorem witness_ReductionsScanSortAndPermutations : sA.view = some vA ∧ vA.readable [.o 0, .o 1] ∧ vA.affords 3 :=
  ⟨rfl, readable_plain _ _ _, .inl rfl⟩

theorem witness_CounterDraws : sA.view = some vA ∧ vA.readable [.o 0, .o 1] ∧ vA.affords 3 := ⟨rfl, readable_plain _ _ _, .inl rfl⟩

/-- A strand without engines, with few planes and banks. -/
def tB : Strand := { tA with fp := { wholeCore with me := false, te := false, re := false, bte := false, planes := 4, banks := 4, acc := 4 } }
def vB : View := vw tB coA

theorem witness_TableEvaluation : sA.view = some vA ∧ vA.st.fp.te = true ∧ vA.readable [.o 0] ∧ vA.affords 3 ∧ (mk tB).view = some vB ∧
    vB.st.fp.te = false ∧ (∃ e ∈ ({ coA with agenda := [{ beat := 110, ord := 0, act := .teval 0 .last 0 1 (splat 0) }] } : Core).agenda,
      e.act = .teval 0 .last 0 1 (splat 0)) :=
  ⟨rfl, rfl, by simp [View.readable, srcQueue], .inl rfl, rfl, rfl, _, List.mem_singleton.2 rfl, rfl⟩

/-- R184 with CLAMP below, IDENT above, T[1] = 1, T[2] = 2 and T[256] infinite: between two entries, below, above, at 256, and on a
grid input whose difference is infinite. -/
def tab0 : Sparse 8 := [(0x005, 0x09), (0x046, 0x80), (0x047, 0x3F), (0x04B, 0x40), (0x442, 0x80), (0x443, 0x7F)]
theorem test_teval : teval tab0 0 0x3FC00000 = 0x3FC00000 ∧ teval tab0 0 0xBF800000 = 0 ∧ teval tab0 0 0x43808000 = 0x43808000 ∧
    teval tab0 0 0x43800000 = 0x7F800000 ∧ teval tab0 0 0x437F0000 = 0x7FC00000 := by decide +kernel

/-- With `lo` 0 and step 0 of that table t is x: 1.5 and 1 between entries, -1 below, 256 at the end and 257 above. -/
theorem witness_TableEvaluation_values :
    let value (y : W32) : ℚ := (if y.msb then -1 else 1) *
      (if y.extractLsb' 23 8 = 0 then ((y.extractLsb' 0 23).toNat : ℚ) * 2 ^ (-149 : Int)
        else ((2 ^ 23 + (y.extractLsb' 0 23).toNat : Nat) : ℚ) * 2 ^ (((y.extractLsb' 23 8).toNat : Int) - 150))
    value 0 = 0 ∧ value 0x3FC00000 = 3 / 2 ∧ value 0x3F800000 = 1 ∧ value 0xBF800000 < 0 ∧ value 0x43800000 = 256 ∧
      256 < value 0x43808000 ∧ Sparse.get tab0 4 = 0 ∧ Sparse.get tab0 5 = 9 ∧ fsub 0 0x40000000 0x3F800000 = 0x3F800000 ∧
      fsub 0 0x7F800000 0 = 0x7F800000 := by
  decide +kernel

/-- A strand in a region of level 2. -/
def tR : Strand := { tA with region := { on := true, level := 2, falls := [], opened := 0, grant := 2, reqs := [] } }
def vR : View := vw tR coA

theorem witness_VectorTrapsAndPops : sA.view = some vA ∧ ¬ vA.readable [.pop 0, .o 1] ∧ (mk tR).view = some vR ∧ vR.readable [.o 0, .o 1] ∧
    vR.st.region.on = true ∧ vR.st.region.level < 3 ∧ (∀ f ∈ vR.st.region.falls, f.2.2 = true → vR.cur.beat ≤ f.1) := by
  refine ⟨rfl, fun h => h (.pop 0) (by simp) 0 rfl ?_, rfl, readable_plain _ _ _, rfl, by decide, fun _ h => nomatch h⟩
  decide

/-- One source, the table engine, and format entries that VCVTT takes and refuses. -/
theorem witness_VectorTrapsAndPops_one : ¬ vA.readable [.keep 3] ∧ vR.readable [.o 0] ∧ vA.st.fp.te = true ∧ vR.st.fp.te = true ∧
    cvttBad (vget vR.co.fmt vR.fmtIndex 0) = false ∧
    (let v := vw tA { coA with fmt := Vector.replicate 16 3 }; v.readable [.o 0] ∧ cvttBad (vget v.co.fmt v.fmtIndex 0) = true) := by
  refine ⟨fun h => h (.keep 3) (by simp) 3 rfl ?_, by simp [View.readable, srcQueue], rfl, rfl, by decide, by simp [View.readable, srcQueue], by decide⟩
  decide

/-! ## Register file, scratchpad and accumulator rows -/

/-- A view of the strand with four planes, for a plane inside the footprint and one outside. -/
theorem witness_DrawAndPut : (mk tB).view = some vB ∧ vB.st.fp.planes ≤ (4 : BitVec 5).toNat ∧ (3 : BitVec 5).toNat < vB.st.fp.planes ∧
    vB.guard mh.neg mh.g = true ∧ (vB.cl.queueOf 0).length < 8 ∧ (∀ j < 64, 3 * 4096 + (64 * 63 + j) ∉ vB.co.planePoison) := by
  refine ⟨rfl, by decide, by decide, by decide, by decide, fun _ _ h => nomatch h⟩

/-- R106's example: lane 1 of `m0.adi[0]` is element (1, 63), key 127, which is not poisoned. -/
theorem witness_DrawAndPut_adi : (0 : BitVec 5).toNat < vB.st.fp.planes ∧ (planeKeys 0 (3 : BitVec 2).toNat (0 : BitVec 6).toNat)[1]? = some 127 ∧
    64 * 1 + ((0 : BitVec 6).toNat + 64 - 1) % 64 = 127 ∧ 127 ∉ vB.co.planePoison := by decide

/-- A full queue of vectors. -/
theorem witness_DrawAndPut_full : 8 ≤ ((vw (strandOf (coreOf { cluA with q := Vector.replicate 4 (List.replicate 8 (splat 0)) }))
    (coreOf { cluA with q := Vector.replicate 4 (List.replicate 8 (splat 0)) })).cl.queueOf 0).length := by decide

/-- Scratchpad addresses at the end of four banks, s1 the last vector, s2 the last scalar and s3 past the end. -/
def cluS : Cluster := cluWith [0, 4 * 131072 - 256, 4 * 131072 - 8, 4 * 131072]
def coS : Core := { coreOf cluS with tags := [(0, 7)] }
def tS : Strand := { strandOf coS with tagck := true, fp := tB.fp }
def vS : View := vw tS coS

theorem witness_ScratchpadAccesses : (mk tS).view = some vS ∧ vS.guard mh.neg mh.g = true ∧
    ((vS.rs 1 + BitVec.ofInt 64 (256 * (0 : BitVec 7).toInt)).toNat % 256 = 0 ∧
      (vS.rs 1 + BitVec.ofInt 64 (256 * (0 : BitVec 7).toInt)).toNat + 256 ≤ vS.st.fp.banks * 2 ^ 17) ∧
    ((vS.rs 2 + BitVec.ofInt 64 (8 * (0 : BitVec 7).toInt)).toNat % 8 = 0 ∧
      (vS.rs 2 + BitVec.ofInt 64 (8 * (0 : BitVec 7).toInt)).toNat + 8 ≤ vS.st.fp.banks * 2 ^ 17) ∧
    ¬ ((vS.rs 3).toNat + 8 ≤ vS.st.fp.banks * 2 ^ 17) ∧ (∀ w ∈ vS.co.spadPoison, 4 * w + 4 ≤ 0) ∧
    (vS.st.tagck = true ∧ Sparse.get vS.co.tags 0 = 7 ∧ Sparse.get vS.co.tags 0 ≠ 8) := by
  refine ⟨rfl, by decide, by decide, by decide, by decide, fun _ h => (nomatch h), by decide⟩

/-- Bank 3 parked and bank 2 allocated, both owned by c0 in their last band alone. -/
def coK : Core := { coreOf (cluWith [0, 3, 63, 2, 4, 64]) with
  banks := ((Vector.replicate 32 AccBank.zero).set 3 { AccBank.zero with mode := .parked, own := 0x1000 }).set 2
    { AccBank.zero with mode := .allocated, own := 0x1000 } }
def tK : Strand := { strandOf coK with fp := tB.fp }
def vK : View := vw tK coK

theorem witness_AccumulatorRowAccesses : (mk tK).view = some vK ∧ vK.guard mh.neg mh.g = true ∧
    ((vK.rs 1).toNat < vK.st.fp.acc ∧ (vK.rs 2).toNat < 64 ∧ (vK.co.bank (vK.rs 1).toNat).mode = .parked ∧
      (vK.co.bank (vK.rs 1).toNat).own.getLsbD (4 * ((vK.rs 2).toNat / 16) + vK.cur.cl) = true ∧
      (vK.co.bank (vK.rs 1).toNat).poison = false) ∧
    ((vK.rs 3).toNat < vK.st.fp.acc ∧ (vK.co.bank (vK.rs 3).toNat).mode = .allocated ∧
      (vK.co.bank (vK.rs 3).toNat).own.getLsbD (4 * ((vK.rs 2).toNat / 16) + vK.cur.cl) = true) ∧
    vK.st.fp.acc ≤ (vK.rs 4).toNat ∧ 64 ≤ (vK.rs 5).toNat ∧
    (vK.co.bank (vK.rs 3).toNat).own.getLsbD (4 * ((vK.rs 0).toNat / 16) + vK.cur.cl) = false := by
  refine ⟨rfl, by decide, by decide, by decide, by decide, by decide, by decide⟩

/-! ## Elastic instructions -/

/-- An entry of a load or store queue. -/
def ent (seq : W32) (op : ElOp) : Entry :=
  { seq, iss := 0, op, handler := 0, level := 0, value := none, words := [], fid := 0, ready := 0 }

/-- Sixteen markers. -/
def sixteen : ElQueue := { entries := (List.range 16).map fun i => ent (BitVec.ofNat 32 i) .mark, next := 16 }

/-- Addresses: s1 the last canonical word below 2^48, s2 the first beyond, s3 a window word, s4 misaligned, s5 a count of 2^20,
s6 one of 2^20 + 8, s7 one of 4, s8 of an ENQ of type 7, s9 of type 8, s10 a line, s11 the scratchpad's last eight bytes. -/
def cluE : Cluster := cluWith [0, 0xFFFFFFFFFFF8, 0x1000000000000, 0x8000000000000000, 4, 0x100000, 0x100008, 4, 7, 8, 0x40, 4 * 131072 - 8]
def coE : Core := coreOf cluE
def tE : Strand := { strandOf coE with fp := tB.fp }
def vE : View := vw tE coE
def coF : Core := coreOf { cluE with lq := sixteen, sq := sixteen }
def vF : View := vw { strandOf coF with fp := tB.fp } coF

theorem witness_ElasticInstructionsTakeEntries : (mk tE).view = some vE ∧ vE.guard mh.neg mh.g = true ∧
    vE.cl.lq.entries.length < 16 ∧ vE.cl.sq.entries.length < 16 ∧ ¬ vF.cl.lq.entries.length < 16 ∧ ¬ vF.cl.sq.entries.length < 16 ∧
    (let ok (e : W64) (n : Nat) : Prop := (e.msb = true ∨ e.toNat < 2 ^ 48) ∧ e.toNat % n = 0
     ok (vE.rs 1) 8 ∧ ¬ ok (vE.rs 2) 8 ∧ ok (vE.rs 3) 64 ∧ ¬ ok (vE.rs 4) 8 ∧ ok (vE.rs 4) 4 ∧ ok (vE.rs 10) 64 ∧
       ¬ ok (vE.rs 2) 4 ∧ ¬ ok (vE.rs 4) 64 ∧ ¬ ok (vE.rs 2) 64) ∧
    ((vE.rs 8).extractLsb' 0 8).toNat ≤ 7 ∧ 7 < ((vE.rs 9).extractLsb' 0 8).toNat := by
  refine ⟨rfl, by decide, by decide, by decide, by decide, by decide, ?_, by decide, by decide⟩
  decide

/-- The ends and counts of ECOPY. -/
theorem witness_ElasticInstructionsTakeEntries_copy :
    (let spad (x : W64) (n : Nat) : Prop := x.toNat % 8 = 0 ∧ x.toNat + n ≤ vE.st.fp.banks * 2 ^ 17
     spad (vE.rs 11) 8 ∧ ¬ spad (vE.rs 11) 16 ∧ spad (vE.rs 0) (vE.rs 7).toNat) ∧
    (vE.rs 5).toNat ≤ 2 ^ 20 ∧ (vE.rs 5).toNat % 8 = 0 ∧ 2 ^ 20 < (vE.rs 6).toNat ∧ (vE.rs 7).toNat % 8 ≠ 0 ∧ 16 ≤ vF.cl.sq.entries.length := by
  decide

theorem witness_WaitsBegin : (mk tE).view = some vE ∧ vE.guard mh.neg mh.g = true ∧
    (let held (v : View) (q : ElQueue) : Nat := (q.entries.filter fun e => decide (v.cl.depth ≤ e.handler)).length
     held vE vE.cl.lq ≤ (0 : BitVec 5).toNat ∧ (15 : BitVec 5).toNat < held vF vF.cl.lq ∧ held vF vF.cl.sq ≤ (16 : BitVec 5).toNat) := by
  refine ⟨rfl, by decide, ?_⟩
  decide

/-- A wait of beat 92 is due at beat 100, and one of beat 93 is not; a condition seen at cycle 5 holds the strand up to cycle 13. -/
def coP (beat : Nat) (seenAt : Option Nat) : Core :=
  coreOf { cluA with waits := [{ kind := .lq 0, beat, cyc0 := 4, iss := 0, handler := 0, seenAt }] }
theorem witness_WaitsBegin_due : (strandOf (coP 92 none)).waitHolds 10 = true ∧ (strandOf (coP 93 none)).waitHolds 10 = false ∧
    (strandOf (coP 92 (some 5))).waitHolds 12 = true ∧ (strandOf (coP 92 (some 5))).waitHolds 13 = false ∧
    (mk (strandOf (coP 92 none))).strand? 1 = some (strandOf (coP 92 none)) ∧ (strandOf (coP 92 none)).raised = [] ∧
    (strandOf (coP 92 none)).holdReq = false ∧ (strandOf (coP 92 none)).freeze = none ∧ (strandOf (coP 92 none)).retires = false ∧
    (strandOf (coP 92 none)).rdvLate 10 = [] := by
  refine ⟨by decide, by decide, by decide, by decide, rfl, rfl, rfl, rfl, by decide, by decide⟩

/-! ## Control -/

/-- A cluster in its first delay bundle. -/
def coD : Core := coreOf { cluA with seq := { Seq.at 64 with pos := 1 } }
def vD : View := vw (strandOf coD) coD

theorem witness_FalseGuardsNopAndHalt : sA.view = some vA ∧ vA.guard shN.neg shN.g = false ∧ vA.guard mhN.neg mhN.g = false ∧
    vA.cl.seq.pos = 0 ∧ (mk (strandOf coD)).view = some vD ∧ vD.cl.seq.pos ≠ 0 ∧ (31 : BitVec 5).toNat < vA.st.fp.planes ∧
    (∀ m : BitVec 2, vA.st.fp.names (unitOf m) = true) ∧ vA.st.fp.me = true ∧ vA.st.fp.te = true ∧ vA.st.fp.re = true ∧ vA.st.fp.bte = true := by
  refine ⟨rfl, by decide, by decide, by decide, rfl, by decide, by decide, by decide, rfl, rfl, rfl, rfl⟩

/-- A view in a handler, and one before its horizon. -/
def vH : View := { vA with cur := { cur0 with handler := true } }
def coZ : Core := coreOf { cluA with horizon := 101 }

theorem witness_Transfers : sA.view = some vA ∧ vA.cl.seq.badTransfer vA.len (vA.d1 sA) (vA.d2 sA) = false ∧
    vA.guard sh.neg sh.g = true ∧ vA.guard shN.neg shN.g = false ∧ vA.cur.handler = false ∧ vA.cl.horizon ≤ vA.cur.beat ∧
    vD.cl.seq.badTransfer vD.len none none = true ∧ vH.cur.handler = true ∧ cur0.beat < (coZ.cluster 0).horizon := by
  refine ⟨rfl, by decide, by decide, by decide, rfl, by decide, by decide, rfl, by decide⟩

/-- A loop of one bundle of eight bytes at its last iteration, and at the one before. -/
theorem witness_SequencesAdvance : (∀ e ∈ cluA.slog, e.2.1 ≠ (3 : Reg).toNat) ∧ (3 : Reg) ≠ 0 ∧ (100 : Nat) ≤ 107 ∧ (100 : Nat) ≤ 108 ∧
    (64 : Nat) ≤ 64 ∧ 0 < 8 ∧ 0 + 1 < 2 ∧ 2 ≤ 1 + 1 := by
  refine ⟨fun _ h => (nomatch h), by decide, by decide, by decide, by decide, by decide, by decide, by decide⟩

/-- A cluster inside a loop on lc0 whose body ends at 80. -/
def coL : Core := coreOf { cluA with seq := { Seq.at 68 with loops := [{ ctr := 0, start := some 64, stop := 80, total := 2, iter := 0 }] } }
def vL : View := vw (strandOf coL) coL

theorem witness_HardwareLoopsBegin : sA.view = some vA ∧
    (vA.cl.seq.badTransfer vA.len (vA.d1 sA) (vA.d2 sA) || vA.cl.seq.badLoop vA.len 1 (64 + 4 * 255) (vA.d1 sA) (vA.d2 sA)) = false ∧
    0 < (vA.rs 3).toNat % 2 ^ 32 ∧ (vA.rs 0).toNat % 2 ^ 32 = 0 ∧ (mk (strandOf coL)).view = some vL ∧
    (∃ l ∈ vL.cl.seq.loops, l.ctr = (0 : BitVec 2).toNat) ∧
    (∃ l ∈ vL.cl.seq.loops, ∃ b, l.start = some b ∧ b ≤ vL.cl.seq.pc ∧ vL.cl.seq.pc < l.stop ∧ l.stop < 64 + 4 * 5) := by
  refine ⟨rfl, by decide, by decide, by decide, rfl, ⟨_, List.mem_singleton.2 rfl, by decide⟩,
    ⟨_, List.mem_singleton.2 rfl, 64, rfl, by decide, by decide, by decide⟩⟩

/-- c1 waits at a rendezvous of c0 and c1; with no partner there c0 waits alone. -/
def coW : Core := { coA with cl := #v[cluA, { Cluster.zero with rdv := some { mask := 3, beat := 90, since := none } }, Cluster.zero, Cluster.zero] }
def vW : View := vw (strandOf coW) coW

theorem witness_RendezvousArrival : (mk (strandOf coW)).view = some vW ∧ vW.cur.cl < 4 ∧
    ((3 : BitVec 4).getLsbD vW.cur.cl = true ∧ ∀ k < 4, (3 : BitVec 4).getLsbD k = true → vW.st.fp.mask.getLsbD k = true) ∧
    (2 : BitVec 4).getLsbD vW.cur.cl = false ∧ vW.guard sh.neg sh.g = true ∧ vW.cur.handler = false ∧
    (∀ k < 4, k ≠ vW.cur.cl → (3 : BitVec 4).getLsbD k = true → ∃ r, (vW.co.cluster k).rdv = some r ∧ r.mask = 3) ∧
    (vA.co.cluster 1).rdv = none ∧ (vA.co.cluster 1).halted = false ∧
    (∃ r, (vW.co.cluster 1).rdv = some r ∧ r.mask.getLsbD vW.cur.cl = true ∧ r.mask ≠ (1 : BitVec 4)) := by
  refine ⟨rfl, by decide, by decide, by decide, by decide, rfl, ?_, rfl, rfl, ⟨_, rfl, by decide, by decide⟩⟩
  intro k hk h0 h3
  have : k = 1 := by
    match k, hk with
    | 0, _ => exact absurd rfl h0
    | 1, _ => rfl
    | 2, _ => exact absurd h3 (by decide)
    | 3, _ => exact absurd h3 (by decide)
  subst this
  exact ⟨_, rfl, rfl⟩

theorem witness_SpecialRegisters : sA.view = some vA ∧ vA.guard sh.neg sh.g = true := ⟨rfl, by decide⟩

/-! ## Commands and accumulator banks -/

/-- A matrix engine with sixteen commands, and one whose last stamp is beat 120. -/
def coM : Core := { coA with me := { Engine.zero with q := List.replicate 16 { seq := 0, stamp := 100, cl := 0, ins := .nop sh, val := 0, fmt := 0 } } }
def coN : Core := { coA with me := { Engine.zero with last := 120 } }

theorem witness_CommandsEnterTheirQueues : sA.view = some vA ∧ vA.st.fp.me = true ∧ vA.guard mh.neg mh.g = true ∧
    vA.guard mhN.neg mhN.g = false ∧ vB.st.fp.me = false ∧
    (let t := vA.cur.beat + (0 : BitVec 9).toNat; ¬ (t < vA.cur.beat ∨ Unit'.me ≠ .bte ∧ t < (vA.co.eng .me).last)) ∧
    (vA.rs 3).toNat < vA.cur.beat ∧ 119 < (coN.eng .me).last ∧ (vA.co.eng .me).q.length < 16 ∧ 16 ≤ (coM.eng .me).q.length := by
  refine ⟨rfl, rfl, by decide, by decide, rfl, by decide, by decide, by decide, by decide, by decide⟩

/-- ACZERO of the last band of a bank that c0 owns there, and of one that it does not. -/
theorem witness_CommandsEnterTheirQueues_aczero : (mk tK).view = some vK ∧ vK.st.fp.me = false ∧ vA.st.fp.me = true ∧
    vK.st.fp.acc ≤ (4 : BitVec 5).toNat ∧ (3 : BitVec 5).toNat < vK.st.fp.acc ∧
    (∀ k ≤ (15 : BitVec 6).toNat, (vK.co.bank 3).own.getLsbD (4 * (((48 : BitVec 6).toNat + k) / 16) + vK.cur.cl) = true) ∧
    (vK.co.bank 3).own.getLsbD (4 * ((47 : BitVec 6).toNat / 16) + vK.cur.cl) = false := by
  refine ⟨rfl, rfl, rfl, by decide, by decide, by decide, by decide⟩

/-- A bank that a nest holds. -/
def nest0 : Nest :=
  { cmd := { seq := 0, stamp := 0, cl := 0, ins := .nop sh, val := 0, fmt := 0 }, start := 0, fmt := 0, orders := [], items := [], fresh := false,
    s := 0, red := 0, reds := 0, tau := 0, banks := [3], lastLand := 0, seen := [], wrote := [], stopped := false, reading := none }

theorem witness_AccumulatorBankStates : (mk tK).view = some vK ∧ vK.guard mh.neg mh.g = true ∧ vK.st.fp.acc ≤ (vK.rs 4).toNat ∧
    (vK.rs 1).toNat < vK.st.fp.acc ∧ (vK.co.bank (vK.rs 1).toNat).mode ≠ .unallocated ∧ (vK.co.bank 0).mode = .unallocated ∧
    ¬ ((∃ n, vK.co.nest = some n ∧ 3 ∈ n.banks) ∨ ∃ e ∈ vK.co.cbusy, e.1 = 3 ∧ vK.cur.beat < e.2) ∧ 3 ∈ nest0.banks ∧
    (vK.co.bank 3).ownBeat ≠ vK.cur.beat + 1 ∧ vK.cur.handler = false ∧ vH.cur.handler = true := by
  refine ⟨rfl, by decide, by decide, by decide, by decide, by decide, ?_, by decide, by decide, rfl, rfl⟩
  rintro (⟨n, h, _⟩ | ⟨e, h, _⟩)
  · cases h
  · cases h

/-- MOLT words: stride 16 with phase 15, then one past it, a stride code of 5, and an any-phase request that names a phase. -/
theorem witness_PacingInstructions : sA.view = some vA ∧ vA.guard mh.neg mh.g = true ∧
    (let bad (w : Nat) : Prop := 256 ≤ w ∨ 4 < w % 8 ∨ 2 ^ (w % 8) ≤ w / 16 ∨ (w / 8 % 2 = 1 ∧ w / 16 ≠ 0)
     ¬ bad 0xF4 ∧ bad 0x104 ∧ bad 5 ∧ bad 0x83 ∧ bad 0x1C) ∧
    ((vA.rs 3).extractLsb' 0 48).toNat ≠ 0 ∧ ((vA.rs 0).extractLsb' 0 48).toNat = 0 ∧ vA.st.molt = none := by
  refine ⟨rfl, by decide, ?_, by decide, by decide, rfl⟩
  decide

/-- A region that an ACQP of the same beat, of cluster 1, has acted on already, and one that it has not. -/
theorem witness_PacingInstructions_later : vA.cur.handler = false ∧ vH.cur.handler = true ∧
    ({ vA.st.region with last := some (vA.cur.beat, 64) } : Region).last = some (vA.cur.beat, 64) ∧ 64 * vA.cur.cl + vA.cur.core < 64 ∧
    vA.st.region.last = none := by
  refine ⟨rfl, rfl, rfl, by decide, rfl⟩

/-- Contexts with a bank in use, one of them for a trap of a shadow bundle. -/
def bankA : Bank := { Bank.zero with inUse := true, counts := true, pc := 0x40 }
def coT : Core := coreOf { cluA with ta := bankA }
def coU : Core := coreOf { cluA with ta := bankA, tb := { bankA with cause := 0x10000 } }
def vT : View := vw (strandOf coT) coT

theorem witness_SoftwareTrapsAndReturns : (mk (strandOf coT)).view = some vT ∧ vT.guard mh.neg mh.g = true ∧ vT.guard mhN.neg mhN.g = false ∧
    vT.cl.tb.inUse = false ∧ vT.cl.ta.inUse = true ∧ vT.cl.seq.pos = 0 ∧ vT.cl.ta.cause.getLsbD 16 = false ∧
    (coU.cluster 0).tb.inUse = true ∧ (coU.cluster 0).tb.cause.getLsbD 16 = true ∧ vA.cl.ta.inUse = false ∧ vA.cl.tb.inUse = false ∧
    vD.cl.seq.pos ≠ 0 ∧ vD.cur.moved = false ∧
    (let co := coreOf { cluA with ta := bankA, seq := { Seq.at 64 with pos := 1 } }
     let v : View := { vw (strandOf co) co with cur := { cur0 with moved := true } }
     { mk (strandOf co) with cur := some { cur0 with moved := true } }.view = some v ∧ v.cl.seq.pos ≠ 0 ∧ v.cur.moved = true ∧ v.cl.ta.inUse = true) := by
  refine ⟨rfl, by decide, by decide, rfl, rfl, rfl, by decide, rfl, by decide, rfl, rfl, by decide, rfl, ⟨rfl, by decide, rfl, rfl⟩⟩

/-! ## Landing and frames -/

theorem witness_LandedResults : (3 : Nat) < 4 ∧ (11 : Nat) < 12 ∧ (63 : Nat) < 64 ∧ (15 : Nat) < 16 := by decide

theorem witness_ResultsLandAtTheirBeat : sA.view = some vA ∧ vA.co.agenda = [] ∧ vA.cur.cl < 4 ∧ vA.cur.beat + 12 < 2 ^ 64 :=
  ⟨rfl, rfl, by decide, by decide⟩

theorem witness_SyllablesChangeOnlyTheirOwn : encode (.add sh 1 2 3) ≠ [] ∧ sA.view = some vA ∧ ∃ t, exec (.add sh 1 2 3) sA = .next t :=
  ⟨by decide, rfl, _, rfl⟩

theorem witness_RegisterFormsOnlyLand : sA.view = some vA ∧ (∃ t, exec (.add sh 1 2 3) sA = .next t) ∧ isScalarForm (.add sh 1 2 3) = true ∧
    (∃ t, exec (.vadd mh (.o 1) (.o 2) (.o 3)) sA = .next t) ∧ isVectorForm (.vadd mh (.o 1) (.o 2) (.o 3)) = true :=
  ⟨rfl, ⟨_, rfl⟩, rfl, ⟨_, rfl⟩, rfl⟩

/-! ## Engines -/

/-- A command that starts at beat 100. -/
def cmdOf (i : Instr) (val : W64) : Cmd := { seq := 0, stamp := 100, cl := 0, ins := i, val, fmt := 0 }
/-- An engine with one command in its queue. -/
def engOf (i : Instr) (val : W64) : Engine := { Engine.zero with q := [cmdOf i val] }
/-- The core of the strand. -/
def cr : CoreRef := { strand := 1, core := 0 }
/-- What an engine event of that core sees. -/
def ev (t : Strand) (co : Core) : EView := { ref := cr, st := t, co }
/-- The state of a strand at its events. -/
def evS (co : Core) : State := mk (strandOf co)

/-- A command at the head of its queue starts. -/
theorem starts_of (co : Core) (u : Unit') (cmd : Cmd) (h : co.due u 100 = some cmd) (hs : ∀ k ∈ (co.eng u).swaps, 100 ≤ k.stamp) :
    (evS co).startsCmd cr u (ev (strandOf co) co) cmd := ⟨rfl, h, hs⟩

/-- One stamp for all. -/
def at0 : Stamp := .rel 0
def mcfgI : Instr := .mcfg mh at0 1 127 0
def cfgldI : Instr := .cfgld mh at0 1 false 0 0 63 0
def swapI : Instr := .cfgswap mh at0 0

theorem witness_ConfigurationCommandsStart :
    (evS { coA with me := engOf mcfgI 5 }).startsCmd cr .me (ev (strandOf { coA with me := engOf mcfgI 5 }) { coA with me := engOf mcfgI 5 }) (cmdOf mcfgI 5) ∧
    (evS { coA with me := engOf swapI 0 }).startsCmd cr .me (ev (strandOf { coA with me := engOf swapI 0 }) { coA with me := engOf swapI 0 }) (cmdOf swapI 0) ∧
    ({ coA with me := engOf swapI 0 } : Core).working .me = false ∧ ({ coA with nest := some nest0 } : Core).working .me = true ∧
    (engOf swapI 0).filling ≤ 100 ∧ headersOk Engine.zero.shadow = true := by
  refine ⟨starts_of _ _ _ rfl (fun _ h => nomatch h), starts_of _ _ _ rfl (fun _ h => nomatch h), rfl, rfl, by decide, by decide⟩

/-- CFGLD of a whole plane at the last place it fits. -/
def coCfgld : Core := { coA with me := engOf cfgldI (32 * 131072 - 4096) }
theorem witness_ConfigurationCommandsStart_load :
    (evS coCfgld).startsCmd cr .me (ev (strandOf coCfgld) coCfgld) (cmdOf cfgldI (32 * 131072 - 4096)) ∧
    (32 * 131072 - 4096) % 64 = 0 ∧ 32 * 131072 - 4096 + 64 * ((63 : BitVec 6).toNat + 1) ≤ (strandOf coCfgld).fp.banks * 2 ^ 17 ∧
    (strandOf coCfgld).fits ((List.range 64).map fun j =>
      (0, { beat := 101 + j, group := coCfgld.group (32 * 131072 - 4096 + 64 * j), rd := 64, wr := 0 : Claim })) = true := by
  refine ⟨starts_of _ _ _ rfl (fun _ h => nomatch h), by decide, by decide, by decide⟩

/-- A swap that waits for its engine. -/
def coSwap : Core := { coA with me := { Engine.zero with swaps := [cmdOf swapI 0] } }
theorem witness_ConfigurationCommandsStart_flip : (evS coSwap).eview cr = some (ev (strandOf coSwap) coSwap) ∧
    (coSwap.eng .me).swaps = [cmdOf swapI 0] ∧ coSwap.working .me = false ∧ (coSwap.eng .me).filling ≤ 100 := ⟨rfl, rfl, rfl, by decide⟩

/-- MFMT, ACZERO, MBASE and MSTOP at their starts. -/
def coMe (i : Instr) (val : W64) : Core :=
  { coA with me := engOf i val, banks := (Vector.replicate 32 AccBank.zero).set 2 { AccBank.zero with mode := .allocated, own := 0xFFFF } }
theorem witness_ConfigurationCommandsStart_matrix :
    (∀ i val, (evS (coMe i val)).startsCmd cr .me (ev (strandOf (coMe i val)) (coMe i val)) (cmdOf i val)) ∧ (0x1FFFF : W64).toNat < 2 ^ 17 ∧
    (∀ i val, (coMe i val).cBusy 2 100 = false ∧ ((ev (strandOf (coMe i val)) (coMe i val)).banks (evS (coMe i val)))[2].mode = .allocated ∧
      (coMe i val).nest = none) ∧ nest0.lastLand - 8 ≤ 100 := by
  refine ⟨fun i val => starts_of _ _ _ rfl (fun _ h => nomatch h), by decide, fun _ _ => ⟨rfl, rfl, rfl⟩, by decide⟩

/-- An image of one level of one INT8 step, SET and then RETIRE; B lies in bank 8. -/
def image1 : Sparse 8 := [(0, 0x09), (1, 0x08), (0x16, 0x10), (0x40, 1), (0x100, 1), (0x103, 0x20), (0x107, 0x40)]
def mgoI : Instr := .mgo mh at0 false false 0 0
def fmt8 : W32 := 0x455
def coG : Core := { coMe mgoI 0 with
  me := { engOf mgoI 0 with active := image1 }, fmt := Vector.replicate 16 fmt8, banks := Vector.replicate 32 { AccBank.zero with mode := .allocated } }
def evG : EView := ev (strandOf coG) coG

theorem witness_MatrixNestsAndSteps : (evS coG).startsCmd cr .me evG (cmdOf mgoI 0) ∧ coG.nest = none ∧ imageBad image1 = false ∧
    entryBad fmt8 = false ∧ countProd image1 0 (nestRed image1) = 1 ∧ stepsOf (nestK image1) = 1 ∧ nestScales image1 = 0 ∧
    (∀ o ∈ ordersOf image1, orderBad o = false) ∧ (ordersOf image1).map orderOf = [(2, 1), (4, 0)] ∧ retireBad [(2, 1), (4, 0)] = false ∧
    nestReach image1 (nestC image1) 32 = [0] ∧ (vget (evG.banks (evS coG)) 0 AccBank.zero).mode = .allocated ∧
    evG.st.region.exceeds 100 (nestDraw (fmtEntry fmt8)) = false ∧ 68 + 0 ∉ coG.marks ∧ coG.planeBad .me false 0 1024 = none := by
  refine ⟨starts_of _ _ _ rfl (fun _ h => nomatch h), rfl, by decide +kernel, by decide, by decide, by decide, by decide, by decide, by decide, by decide,
    by decide, rfl, by decide, by decide, rfl⟩

/-- Its step, two beats after its start. -/
def coG' : Core := { coG with me := { Engine.zero with active := image1 },
                              nest := some { nest0 with fmt := fmt8, orders := [(2, 1), (4, 0)], items := [(2, 1), (4, 0)], fresh := true, tau := 100 } }
theorem witness_MatrixNestsAndSteps_step : coG'.stepDue 100 = true ∧
    (let n := coG'.nest.getD nest0
     let p := stepPlan image1 n
     (ev (strandOf coG') coG').stepFault (evS coG') n p ((List.range 8).flatMap fun j => [p.a, p.b].map fun k =>
       (0, ({ beat := 100 + j, group := coG'.group k, rd := 256, wr := 0 } : Claim))) = none ∧
     (ev (strandOf coG') coG').stepPoison n p true = none) := by
  refine ⟨by decide, ?_⟩
  decide

/-- The INT8 product of two full blocks. -/
theorem witness_MatrixNestsAndSteps_product : 32 ≤ 32 ∧ (List.replicate 2048 (0 : Byte)).length = 2048 ∧ fmt8.extractLsb' 0 4 = 5 ∧
    fmt8.extractLsb' 4 4 = 5 ∧ fmt8.extractLsb' 10 2 = 1 := by
  refine ⟨by decide, List.length_replicate, by decide, by decide, by decide⟩

def tloadI : Instr := .tload mh at0 1 false 0 3
def rloadI : Instr := .rload mh at0 1 false 0
/-- A table load at the last place it fits, and a rule load. -/
def coTe : Core := { coA with te := engOf tloadI (32 * 131072 - 1152), re := engOf rloadI (32 * 131072 - 4096) }
theorem witness_TableAndRuleEngines :
    (evS coTe).startsCmd cr .te (ev (strandOf coTe) coTe) (cmdOf tloadI (32 * 131072 - 1152)) ∧
    (evS coTe).startsCmd cr .re (ev (strandOf coTe) coTe) (cmdOf rloadI (32 * 131072 - 4096)) ∧ (32 * 131072 - 1152) % 64 = 0 ∧
    32 * 131072 - 1152 + 1152 ≤ (strandOf coTe).fp.banks * 2 ^ 17 ∧ coTe.rstep = none ∧ (strandOf coTe).region.exceeds 100 6 = false ∧
    (strandOf coTe).fits ((List.range 18).map fun j =>
      (0, { beat := 101 + j, group := coTe.group (32 * 131072 - 1152 + 64 * j), rd := 64, wr := 0 : Claim })) = true := by
  refine ⟨starts_of _ _ _ rfl (fun _ h => nomatch h), starts_of _ _ _ rfl (fun _ h => nomatch h), by decide, by decide, rfl, by decide, by decide⟩

/-- A table of zeros that has been read whole. -/
def loadT : Load := { cmd := cmdOf tloadI 0, start := 60, addr := 0, lines := 18, got := List.replicate 1152 0, seen := [] }
def loadR : Load := { cmd := cmdOf rloadI 0, start := 20, addr := 0, lines := 64, got := List.replicate 4096 0, seen := [] }
theorem witness_TableAndRuleEngines_replace : ({ coA with loads := [loadT] } : Core).endedLoad isTload 100 = some loadT ∧
    ({ coA with loads := [loadR] } : Core).endedLoad isRload 100 = some loadR ∧ 1092 ≤ loadT.got.length ∧ headerOk [] 0 = true := by
  refine ⟨rfl, rfl, ?_, by decide⟩
  rw [show loadT.got = List.replicate 1152 0 from rfl, List.length_replicate]; decide

def rstepI : Instr := .rstep mh at0 1 2 false 0 1 0
/-- Three generations between planes 0 and 1, the first of them taken at beat 102. -/
def coRe : Core := { coA with re := engOf rstepI 0 }
def rs0 : RStep := { cmd := cmdOf rstepI 0, start := 34, from_ := 0, gen := 0, snap := some [], copyAt := none }
theorem witness_TableAndRuleEngines_rules : (evS coRe).startsCmd cr .re (ev (strandOf coRe) coRe) (cmdOf rstepI 0) ∧
    rword rstepI = some { gens := 3, cheq := false, nb := 0, alt := 1, plane := 0 } ∧ 1 < (strandOf coRe).fp.planes ∧ coRe.working .re = false ∧
    boundaryBad 0 0 3 = false ∧ (strandOf coRe).region.exceeds 100 9 = false ∧ coRe.rgc = 0 ∧ rs0.snapAt + 64 ≤ 100 ∧ rs0.gen + 1 < 3 := by
  refine ⟨starts_of _ _ _ rfl (fun _ h => nomatch h), rfl, by decide, rfl, by decide, by decide, rfl, by decide, by decide⟩

/-- The same with its snapshot to be taken, at its last generation of three with the copy to come, and a step that writes cells in two
colours. -/
def rcheqI : Instr := .rstep mh at0 1 2 true 0 0 0
def rs1 : RStep := { rs0 with snap := none }
theorem witness_TableAndRuleEngines_snapshot :
    (ev (strandOf { coA with rstep := some rs1 }) { coA with rstep := some rs1 }).co.rstep = some rs1 ∧ rs1.copyAt = none ∧ rs1.snapAt ≤ 100 ∧
    coA.planePoison = [] ∧ coA.planeBad .re false 0 4096 = none ∧ rword rcheqI = some { gens := 3, cheq := true, nb := 0, alt := 0, plane := 0 } ∧
    ({ rs0 with copyAt := some 90 } : RStep).copyAt = some 90 ∧ (90 : Nat) ≤ 100 ∧ 3 ≤ ({ rs0 with gen := 2 } : RStep).gen + 1 ∧
    63 < 64 ∧ 2047 < 2048 / ruleBits 0 ∧ (1 + 1) % 2 ≠ 1 % 2 := by
  refine ⟨rfl, rfl, by decide, rfl, by decide, rfl, rfl, by decide, by decide, by decide, by decide, by decide⟩

/-! ## Block transfers -/

/-- A block of 64 bytes at an address of the scratchpad. -/
def block (a : W64) : Shape := { base := a, spad := true, run := 64, count1 := 1, count2 := 1, count3 := 1, stride1 := 0, stride2 := 0, stride3 := 0 }
def xcopyI : Instr := .xcopy mh at0 1 0 false 0 false 0 1 0
def coX : Core := { coA with bte := engOf xcopyI 0, shapes := ((Vector.replicate 32 none).set 0 (some (block 0))).set 1 (some (block 0x100000)) }
def copy0 : Copy :=
  { id := 0, cmd := cmdOf xcopyI 0, start := 100, srcCore := 0, dstCore := 0, src := block 0, dst := block 0x100000, w := 512, h := 12, len := 64,
    next := 0, checked := [] }
theorem witness_BlockTransfers : (evS coX).startsCmd cr .bte (ev (strandOf coX) coX) (cmdOf xcopyI 0) ∧
    xword xcopyI = some { rem := 0, ck := false, ex := 0, stg := false, tag := 0, dst := 1, frm := 0 } ∧ 1 < (strandOf coX).fp.slots ∧
    vget coX.shapes 0 none = some (block 0) ∧ vget coX.shapes 1 none = some (block 0x100000) ∧ coX.bte.fifth 100 = false ∧
    (strandOf coX).region.exceeds 100 6 = false ∧ ((ev (strandOf coX) coX).took (evS coX) .bte).copyFault (strandOf coX) 0
      { rem := 0, ck := false, ex := 0, stg := false, tag := 0, dst := 1, frm := 0 } copy0 0 = none := by
  refine ⟨starts_of _ _ _ rfl (fun _ h => nomatch h), rfl, by decide, rfl, rfl, by decide, by decide, by decide +kernel⟩

def tsldI : Instr := .tsld mh at0 1 31
def tsevI : Instr := .tsev mh at0 31
def coY : Core := { coA with copies := [{ copy0 with start := 99 }] }
theorem witness_BlockTransfers_chunk : (evS coY).eview cr = some (ev (strandOf coY) coY) ∧
    coY.copies.find? (fun m => m.id == 0) = some { copy0 with start := 99 } ∧ 0 * 512 < 64 ∧ 99 + 1 + 0 ≤ 100 ∧ copy0.src.spad = true ∧ copy0.dst.spad = true ∧
    (strandOf coY).cores[copy0.srcCore]? = some coY ∧ (strandOf coY).tagck = false ∧ (strandOf coS).cores[0]? = some coS ∧
    Sparse.get coS.tags (((block 0).byteAt 63).toNat / 4096) = 7 ∧ 84 + 0 ∉ coX.marks ∧ 84 + 1 ∉ coX.marks := by
  refine ⟨rfl, by decide, by decide, by decide, rfl, rfl, rfl, rfl, rfl, by decide, by decide, by decide⟩

theorem witness_BlockTransfers_slots :
    (∀ i val, (evS { coA with bte := engOf i val }).startsCmd cr .bte (ev (strandOf { coA with bte := engOf i val }) { coA with bte := engOf i val })
      (cmdOf i val)) ∧ (31 : BitVec 5).toNat < (strandOf coA).fp.slots ∧ (32 * 131072 - 64) + 64 ≤ (strandOf coA).fp.banks * 2 ^ 17 ∧
    (63 : Nat) < (block 0).run ∧ 0 < (block 0).count3 := by
  refine ⟨fun i val => starts_of _ _ _ rfl (fun _ h => nomatch h), by decide, by decide, by decide, by decide⟩

/-! ## Memory of a context -/

/-- Tables that map the first gibibyte of a context onto the first gibibyte of stack 0: a root at 0x1000, and at 0x2000 a leaf
that may be written and fetched from. -/
def mem0 : Sparse 8 := [(0x1000, 0x01), (0x1001, 0x20), (0x2000, 0x0F)]

/-- A context with those tables, its ring at 0x8000 and its device queue at 0x10000. -/
def ctx0 : Context :=
  { num := 0, part := 0, root := 0x1000, ring := 0x8000, ringLog := 4, produced := 0, dqBase := 0x10000, dqHead := 0, dqTail := 0, dqWait := none,
    dqDiscards := [], seeds := [], quota := 0, limit := 64, floor := 0, records := [], reserved := 0, blocked := false, torn := false,
    teardown := none, enused := 0, enover := 0, exhausted := false }

/-- Queue 0 of that context with two slots to read, its ring at 0x4000. -/
def hq0 : HostQueue := { HostQueue.reset with base := 0x4000, size := 6, enable := true, tail := 2 }

/-- The device with that context and queue; the context table lies at 0x100000. -/
def sC : State :=
  { State.reset with mem := mem0, contexts := [ctx0], queues := (Vector.replicate 64 HostQueue.reset).set 0 hq0, ctxtab := 0x100000, wtime := 5000000 }

theorem sC_mem : sC.MemOk := rfl
theorem sC_xlat (w : Bool) : sC.dispXlat 0 0x5008 w = some 0x5008 := by cases w <;> decide +kernel

/-! ## Caches -/

/-- A strand whose s10 lies in a page of 4 KiB at bus address 0x5000 that a TLB holds, and may be fetched from. -/
def pgL : TlbEntry := { ctx := 0, va := 0, log := 12, bus := 0x5000, w := false, x := true }
def sL : State := { mk tE with contexts := [ctx0], mem := mem0, stks := (Vector.replicate 4 Stack.reset).set 0 { Stack.reset with tlb := [pgL] } }

theorem witness_PrefetchAndCacheControl : sL.view = some vE ∧ vE.guard mh.neg mh.g = true ∧ (vE.rs 10).toNat / 64 = 1 ∧ (vE.rs 8).toNat = 7 ∧
    ((vE.rs 10).toNat % 64 + (vE.rs 8).toNat + 63) / 64 = 1 ∧ ((sL.tlbHit 0 0 0 64).map fun p => p.at 64) = some 0x5040 ∧
    (busOk 0x5040 = true ∧ sL.silent 0x5040 = false ∧ sL.hostAbsent 0x5040 = false ∧ isDoorbell 0x5040 = false) ∧ vE.st.stack < 4 ∧ vE.co.phys < 64 ∧
    vE.cur.cl < 4 ∧ (sL.lineBus vE.st vE.co 1).toOption = some 0x5040 ∧ (sL.lineFor vE.st vE.co 1).isSome ∧ sL.lineFor vE.st vE.co (2 ^ 42) = none ∧
    pinsIn (vE.cache sL 0) 16 1 ≤ 3 ∧ pinsIn (vE.cache sL 1) 256 1 < 3 ∧ sL.strand? 1 = some vE.st ∧ vE.st.cores[0]? = some vE.co := by
  refine ⟨rfl, by decide, by decide, by decide, by decide, by decide +kernel, by decide +kernel, by decide, by decide, by decide, by decide +kernel,
    by decide +kernel, by decide +kernel, by decide, by decide, rfl, rfl⟩

/-! ## Elastic entries as they perform -/

/-- A cluster reference. -/
def rr : CRef := { strand := 1, core := 0, cl := 0 }
/-- The device with such a strand of that context, on stack 0 at cycle 10. -/
def elS (c : Cluster) : State :=
  { sC with strands := [strandOf (coreOf c)], stks := (Vector.replicate 4 Stack.reset).set 0 { Stack.reset with cyc := 10 } }
/-- What its entries see. -/
def elV (c : Cluster) : QView := { ref := rr, st := strandOf (coreOf c), co := coreOf c, cl := c }
/-- An entry that may take its next step. -/
def due (op : ElOp) : Entry := { ent 0 op with ready := 1 }
/-- A cluster with one entry in a queue. -/
def cluLq (e : Entry) : Cluster := { cluE with lq := { entries := [e], next := 1 } }
def cluSq (e : Entry) : Cluster := { cluE with sq := { entries := [e], next := 1 } }

def eLd : Entry := due (.ld 0x5008 .ws 3)
def eGot : Entry := { eLd with level := 6, value := some 0xFFFFFFFF80000000 }
def eSt : Entry := due (.st 0x5008 4 0x11223344)
theorem witness_LoadsStoresAndMarkersPerform :
    (elS (cluLq eLd)).picks rr .lq (fun e => e.op.isLd && e.value.isNone) (elV (cluLq eLd)) eLd ∧
    (elS (cluLq eLd)).elTarget (elV (cluLq eLd)).st 0 0x5008 false = .ok (.bus 0x5008) ∧ isDoorbell 0x5008 = false ∧
    (elS (cluLq eLd)).poisonedRange (elV (cluLq eLd)).place 0x5008 4 = false ∧ (∀ i < 4, (elS (cluSq eSt)).drops (0x5008 + i) = false) ∧
    (elS (cluLq eGot)).picks rr .lq Entry.landing (elV (cluLq eGot)) eGot ∧ (elV (cluLq eGot)).arriving (elS (cluLq eGot)) = .lq ∧
    (elS (cluSq eSt)).picks rr .sq (fun e => e.op.isSt && decide (e.level < e.op.final)) (elV (cluSq eSt)) eSt ∧
    (elS (cluSq eSt)).elTarget (elV (cluSq eSt)).st 0 0x5008 true = .ok (.bus 0x5008) := by
  refine ⟨⟨rfl, by decide +kernel⟩, by decide +kernel, by decide, by decide, by decide, ⟨rfl, by decide +kernel⟩, by decide +kernel,
    ⟨rfl, by decide +kernel⟩, by decide +kernel⟩

/-- The first scope of such a store with nothing in flight at its bytes, and where a write that has not come to that scope is. -/
def sHeld : State := { elS (cluSq eSt) with flight := [{ id := 1, stack := 0, core := 0, sid := 1, cl := 0, cells := [(0x5009, 0x44)], bad := [], level := 0 }] }
theorem witness_LoadsStoresAndMarkersPerform_settled : eSt.level = 0 ∧ (∀ i < 4, (elS (cluSq eSt)).drops (0x5008 + i) = false) ∧
    (elV (cluSq eSt)).settled (elS (cluSq eSt)) 0x5008 4 eSt.next = true ∧ (elV (cluSq eSt)).settled sHeld 0x5008 4 eSt.next = false ∧
    sHeld.picks rr .sq (fun e => e.op.isSt && decide (e.level < e.op.final)) (elV (cluSq eSt)) eSt ∧
    sHeld.elTarget (elV (cluSq eSt)).st 0 0x5008 true = .ok (.bus 0x5008) := by
  refine ⟨rfl, by decide, by decide, by decide, ⟨rfl, by decide +kernel⟩, by decide +kernel⟩

/-- A store at its last scope, with its flight; and a marker with nothing ahead of it. -/
def eSt4 : Entry := { eSt with level := 4, fid := 1 }
def fl1 : Flight := { id := 1, stack := 0, core := 0, sid := 1, cl := 0, cells := [(0x5008, 0x44), (0x5009, 0x33), (0x500A, 0x22), (0x500B, 0x11)], bad := [], level := 4 }
def sF : State := { elS (cluSq eSt4) with flight := [fl1] }
theorem witness_LoadsStoresAndMarkersPerform_last :
    sF.picks rr .sq (fun e => e.op.isSt && decide (e.level < e.op.final)) (elV (cluSq eSt4)) eSt4 ∧ isDomain 0x5008 = false ∧ fl1 ∈ sF.flight ∧
    fl1.id = eSt4.fid ∧ eSt4.fid ≠ 0 ∧ (fl1.cells.map (·.1)).Nodup ∧ (∀ g ∈ sF.flight, g = fl1) ∧
    (∀ x ∈ fl1.cells, sF.hostAbsent x.1 = false ∧ sF.silent x.1 = false ∧ sF.drops x.1 = false) ∧
    (elS { cluLq (ent 0 .mark) with sq := { entries := [ent 0 .mark], next := 1 } }).qview rr =
      some (elV { cluLq (ent 0 .mark) with sq := { entries := [ent 0 .mark], next := 1 } }) ∧
    (elV { cluLq (ent 0 .mark) with sq := { entries := [ent 0 .mark], next := 1 } }).pickMark (elS { cluLq (ent 0 .mark) with sq := { entries := [ent 0 .mark], next := 1 } }) = some (ent 0 .mark) := by
  refine ⟨⟨rfl, by decide +kernel⟩, by decide, List.mem_singleton.2 rfl, rfl, by decide, by decide, fun _ h => List.mem_singleton.1 h, by decide, rfl,
    by decide +kernel⟩

/-- A store to host memory at its last scope when the link is down. -/
def flH : Flight := { fl1 with cells := [(2 ^ 51, 0x44)] }
def sFh : State := { elS (cluSq eSt4) with flight := [flH], linkUp := false }
theorem witness_LoadsStoresAndMarkersPerform_absent :
    sFh.picks rr .sq (fun e => e.op.isSt && decide (e.level < e.op.final)) (elV (cluSq eSt4)) eSt4 ∧ flH ∈ sFh.flight ∧ (∀ g ∈ sFh.flight, g = flH) ∧
    (∃ x ∈ flH.cells, ¬ (sFh.hostAbsent x.1 = false ∧ sFh.silent x.1 = false)) := by
  refine ⟨⟨rfl, by decide +kernel⟩, List.mem_singleton.2 rfl, fun _ h => List.mem_singleton.1 h, by decide⟩

def eAt : Entry := due (.atomic .cas 0x5008 5 0 4 3)
def eBar : Entry := due (.bara 0x5008 4 3)
theorem witness_AtomicsAndBarriersPerform :
    (elS (cluSq eAt)).picks rr .sq (fun e => e.op.isAtomic && decide (e.level < e.op.final)) (elV (cluSq eAt)) eAt ∧ eAt.level = 0 ∧
    isDomain 0x5008 = false ∧ (elS (cluSq eAt)).elTarget (elV (cluSq eAt)).st 0 0x5008 true = .ok (.bus 0x5008) ∧
    (elS (cluSq eAt)).poisonedRange (elV (cluSq eAt)).place 0x5008 8 = false ∧ (elV (cluSq eAt)).settled (elS (cluSq eAt)) 0x5008 8 eAt.next = true ∧
    (∀ i < 8, (elS (cluSq eAt)).drops (0x5008 + i) = false) ∧
    (elS (cluSq eBar)).picks rr .sq (fun e => e.op.isBara && decide (e.level < e.op.final)) (elV (cluSq eBar)) eBar := by
  refine ⟨⟨rfl, by decide +kernel⟩, rfl, by decide, by decide +kernel, by decide, by decide, by decide, ⟨rfl, by decide +kernel⟩⟩

/-- Barrier words: malformed with nothing expected, one arrival short of the last, and the last of two. -/
theorem witness_AtomicsAndBarriersPerform_words :
    (let arrived (w : W64) := (w.extractLsb' 0 20).toNat
     let expected (w : W64) := (w.extractLsb' 20 20).toNat
     expected 0 ≤ arrived 0 ∧ arrived 0x200000 + 1 < expected 0x200000 ∧ arrived 0x200001 + 1 = expected 0x200001) := by decide

def eCopy (mode : Nat) : Entry := due (.ecopy mode 0x6000 0x5000 16)
def eEnq : Entry := due (.enq 0x5000 0 3)
theorem witness_CopiesAndEnqueuesPerform :
    (elS (cluSq (eCopy 2))).picks rr .sq (fun e => e.op.isCopy && decide (e.level < e.op.final)) (elV (cluSq (eCopy 2))) (eCopy 2) ∧
    (elV (cluSq (eCopy 2))).copySource (elS (cluSq (eCopy 2))) 2 0x5000 16 = .ok [(0, false), (0, false)] ∧
    (elS (cluSq (eCopy 0))).picks rr .sq (fun e => e.op.isCopy && decide (e.level < e.op.final)) (elV (cluSq (eCopy 0))) (eCopy 0) ∧
    (elS (cluSq (eCopy 0))).resolveAll (elV (cluSq (eCopy 0))).st 0 true (wordAddrs 0x6000 16) = .ok [.bus 0x6000, .bus 0x6008] ∧
    (elS (cluSq eEnq)).picks rr .sq (fun e => e.op.isEnq && decide (e.level < e.op.final)) (elV (cluSq eEnq)) eEnq ∧
    (elS (cluSq eEnq)).ctx? (elV (cluSq eEnq)).st.ctx = some ctx0 ∧
    (ctx0.torn = false ∧ 1 ≤ 256 - (ctx0.dqTail - ctx0.dqHead).toNat) ∧ ¬ (1 ≤ 256 - ((256 : W32) - 0).toNat) ∧
    (elV (cluSq eEnq)).copySource (elS (cluSq eEnq)) 0 0x5000 64 = .ok (List.replicate 8 (0, false)) := by
  refine ⟨⟨rfl, by decide +kernel⟩, by decide +kernel, ⟨rfl, by decide +kernel⟩, by decide +kernel, ⟨rfl, by decide +kernel⟩, rfl, by decide, by decide,
    by decide +kernel⟩

/-- A device queue in host memory, behind a page of a gibibyte at 0x40000000, with the link down. -/
def ctxH : Context := { ctx0 with dqBase := 0x40000000 }
def sEnqH : State := { elS (cluSq eEnq) with mem := mem0 ++ [(0x2008, 0x0F), (0x200E, 0x08)], contexts := [ctxH], linkUp := false }
theorem witness_CopiesAndEnqueuesPerform_lost : (elS (cluSq eEnq)).dispLost 0 (dqSlot 0x10000 0) = none ∧ sEnqH.dispLost 0 (dqSlot 0x40000000 0) = some .host ∧
    sEnqH.picks rr .sq (fun e => e.op.isEnq && decide (e.level < e.op.final)) (elV (cluSq eEnq)) eEnq ∧ sEnqH.ctx? 0 = some ctxH ∧
    (elV (cluSq eEnq)).copySource sEnqH 0 0x5000 64 = .ok (List.replicate 8 (0, false)) := by
  refine ⟨by decide +kernel, by decide +kernel, ⟨rfl, by decide +kernel⟩, rfl, by decide +kernel⟩

theorem witness_CopiesAndEnqueuesPerform_slot : (List.replicate 64 (0 : Byte)).length = 64 ∧
    sC.dispXlat 0 (0x10000 + BitVec.ofNat 64 (64 * (255 % 256))) true = some 0x13FC0 ∧ (∀ i < 64, sC.drops (0x13FC0 + i) = false) := by
  refine ⟨by decide, by decide +kernel, by decide⟩

/-- Bytes of memory at the ends of a timed copy, and a timed write. -/
theorem witness_BlockTransfers_memory : canonical 0x5000 = true ∧ isDomain 0x5000 = false ∧ (elS cluE).xlat 0 0 0 0x5000 false false = .ok 0x5000 ∧
    (elS cluE).xlat 0 0 0 0x5000 true false = .ok 0x5000 ∧ (∀ e ∈ [((0x5000 : Nat), (1 : Byte)), (0x5001, 2)], sF.drops e.1 = false) ∧
    (∀ f ∈ sF.flight, f.seenBy (Strand.timedPlace (strandOf coE)) = true → 4 ≤ f.level) := by
  refine ⟨by decide, by decide, by decide +kernel, by decide +kernel, by decide, by decide⟩

/-- A timed write over every byte of a store that has performed at stack scope overtakes it; one over some of them does not. -/
theorem witness_BlockTransfers_overrun : sF.overrun (cellsAt 0x5000 (List.replicate 16 (1 : Byte))) = [fl1] ∧
    sF.overrun (cellsAt 0x500A (List.replicate 8 (1 : Byte))) = [] := by decide

/-! ## Freezes, stops and traps -/

/-- The device with one strand, its stack at a cycle. -/
def atCyc (t : Strand) (cyc : Nat) : State := { sC with strands := [t], stks := (Vector.replicate 4 Stack.reset).set 0 { Stack.reset with cyc } }

theorem atCyc_strand (t : Strand) (cyc : Nat) (h : t.sid = 1) : (atCyc t cyc).strand? 1 = some t := by
  simp [atCyc, State.strand?, h]

/-- A freeze for a fetch that has come, one whose line is still to come, a walk that is over, and a freeze of 2^24 cycles. -/
def tFr (resume : Option Nat) : Strand := { tA with freeze := some { why := .fetch, since := 5, resume } }
def tWalk : Strand := { tA with walks := [{ beat := 100, ready := 9, ended := none, phys := 0, vas := [0x5000] }] }
theorem witness_FreezesAndRegionsEnd : (atCyc (tFr (some 10)) 10).strand? 1 = some (tFr (some 10)) ∧ (tFr (some 10)).status = .run ∧
    (tFr (some 10)).thaws 10 = true ∧ (tFr (some 11)).thaws 10 = false ∧ (9 : Nat) ≤ 10 ∧
    tWalk.walks.find? (fun w => w.ended.isNone && decide (w.ready ≤ 10)) = some { beat := 100, ready := 9, ended := none, phys := 0, vas := [0x5000] } ∧
    (tFr none).freezeLate (2 ^ 24 + 5) = true ∧ (tFr none).freezeLate (2 ^ 24 + 4) = false ∧
    (strandOf coW).freezeLate (2 ^ 24) = false := by
  refine ⟨atCyc_strand _ _ rfl, rfl, by decide, by decide, by decide, rfl, by decide, by decide, rfl⟩

/-- A filling whose lines have come at cycle 9, and one still to come. -/
def tFill : Strand := { tA with fills := [{ beat := 100, ready := 9, ended := none, lines := [] }] }
theorem witness_FreezesAndRegionsEnd_fill : (∃ f ∈ tFill.fills, f.ended = none ∧ f.ready ≤ 9) ∧ ¬ ∃ f ∈ tFill.fills, f.ended = none ∧ f.ready ≤ 8 := by
  decide

/-- A rendezvous of 2^24 cycles, a lapsed declaration, and a region that ends. -/
def coV : Core := coreOf { cluA with rdv := some { mask := 3, beat := 80, since := some 5 } }
def tDecl : Strand := { tA with decl := some { left := 0, due := 0, core := 0, cl := 0, risk := false } }
def tFall : Strand := { tR with region := { tR.region with falls := [(99, 0, true)] } }
theorem witness_FreezesAndRegionsEnd_regions : (strandOf coV).rdvLate (2 ^ 24 + 5) ≠ [] ∧ (strandOf coV).rdvLate (2 ^ 24 + 4) = [] ∧
    (∃ d, tDecl.decl = some d ∧ d.left = 0) ∧ tFall.fallNow = some (99, 0, true) := by
  refine ⟨by decide, by decide, ⟨_, rfl, rfl⟩, by decide⟩

/-- A request for level 15 that waits. -/
def tReq : Strand := { tA with region := { tA.region with reqs := [(90, 15, 3, none)] } }
theorem witness_FreezesAndRegionsEnd_grant : (atCyc tReq 10).grantable 0 = some (1, 90, 15) := by decide +kernel

/-- A cause of a context. -/
def causeOf (code : Nat) (kind : CauseKind) : Cause :=
  { code, kind, core := 0, cl := 0, beat := 100, cyc := 10, addr := 0, detail := 0, queue := 0, fseq := 0, shadow := false, k0 := none }
def tRaised : Strand := { tA with raised := [causeOf 5 .p, causeOf 2 .p] }
def tHold : Strand := { tA with holdReq := true, holdAt := some 100 }
def tDrain (hold : Bool) : Strand := { tA with status := .drain hold, stopCyc := 10, taking := if hold then [] else [causeOf 2 .p] }
theorem witness_StrandsStopAndDrain : (atCyc tRaised 10).stopDue tRaised = true ∧ tRaised.choose.taking = [causeOf 2 .p] ∧ tHold.holdDue = true ∧
    (tDrain true).elasticDone = true ∧ (tDrain true).stopCyc ≤ 10 ∧
    (let s' (hold : Bool) := ((atCyc (tDrain hold) 10).drainStrand (tDrain hold)).1.modStrand 1 fun t => { t.afterDrain with stopCyc := 10 }
     (((s' true).strand? 1).map fun t => t.choose.taking) = some [] ∧ (((s' false).strand? 1).map fun t => t.taking) = some [causeOf 2 .p]) ∧
    thirdLevel { cluA with tvec := 0x40 } (causeOf 2 .p) = false := by
  refine ⟨by decide, by decide, by decide, by decide, by decide, ⟨by decide +kernel, by decide +kernel⟩, by decide⟩

/-- A cause without a handler address is at the third level, and with one it is not; a DEADLINE-RISK without one is discarded. -/
def tTvec : Strand := { strandOf (coreOf { cluA with tvec := 0x40 }) with raised := [causeOf 5 .p, causeOf 2 .p] }
def tRisk : Strand := { tA with raised := [causeOf 0x19 .a] }
theorem witness_StrandsStopAndDrain_levels : tRaised.choose.taking.find? tRaised.fatal = some (causeOf 2 .p) ∧
    (∀ c ∈ tTvec.choose.taking, tTvec.fatal c = false) ∧ tTvec.choose.taking ≠ [] ∧ (atCyc tTvec 10).stopDue tTvec = true ∧
    tRisk.choose.taking = [] ∧ (atCyc tRisk 16).stopDue tRisk = true ∧ (atCyc tRisk 15).stopDue tRisk = false ∧
    (strandOf coA).holdReq = false ∧ tHold.holdReq = true := by
  refine ⟨by decide, by decide, by decide, by decide, by decide, by decide, by decide, rfl, rfl⟩

/-- The fields of a cause at the ends of their ranges, and both banks: one that is in use and one that is free. -/
theorem witness_TakingATrap : (0x19 : Nat) < 2 ^ 16 ∧ (6 : Nat) < 2 ^ 4 ∧ (2 : Nat) < 4 ∧ (coU.cluster 0).ta.inUse = true ∧ cluA.ta.inUse = false ∧
    (causeOf 2 .p).k0 = none := by decide

/-! ## The weaver and the ends of tasks -/

/-- A strand whose flip has come, one that has ended, and one that has halted with nothing left. -/
def tFlip : Strand := { tA with status := .placed, flip := some { commit := 0, cyc := 16, stride := 4, phase := 3 } }
def tHalt : Strand := strandOf (coreOf { cluA with halted := true })
def launch0 : Launch :=
  { ctx := 0, from_ := .packet (.host 0) 0 0, image := 0x30000, param := 0x5008, ctrbase := 0, count := 1, det := true, tagck := false, serial := false,
    noWait := false, cls := 7, mbx := Vector.replicate 8 0, seed := 0 }
def hdr0 : Header :=
  { fp := { strideCode := 0, pin := none, cores := 1, mask := 1, me := false, te := false, re := false, bte := false, groups := 0, planes := 0, banks := 0,
            acc := 0, slots := 0, share := 0 }, text := 64, textLen := 64, data := 0, dataLen := 0, entries := [0, 0, 0, 0] }
def wait0 : Waiting := { num := 1, launch := launch0, cls := 7, accepted := 1000000, raisedAt := 4000000, hdr := hdr0, image := none, reserve := false }
def task0 : Task :=
  { num := 1, launch := launch0, hdr := hdr0, record := launch0.record 1, strands := [], digests := [], faults := [], expected := some 7, runs := [], used := [.core 0],
    counted := [.core 0], redoErrors := false, lead := (0, 0) }
theorem witness_WeaverEvents : (atCyc tFlip 16).wtime = 5000000 ∧ ((atCyc tFlip 16).stack 0).cyc % 16 = 0 ∧
    ((atCyc tFlip 16).stack 0).window < ((atCyc tFlip 16).stack 0).cyc / 16 ∧
    (∃ t ∈ (atCyc tFlip 16).strands, ∃ f, t.stack = 0 ∧ t.flip = some f ∧ f.cyc ≤ ((atCyc tFlip 16).stack 0).cyc) ∧
    tHalt.retires = true ∧ (0 < wait0.cls ∧ wait0.raisedAt + 1000000 ≤ sC.wtime) ∧
    { sC with waiting := [wait0] }.waitingOn 0 = [wait0] ∧ wait0.reserve = false ∧ wait0.accepted + 4000000 ≤ sC.wtime ∧
    { sC with tasks := [task0] }.tasks.find? (fun t => t.num == 1 && t.expected.isSome && !{ sC with tasks := [task0] }.redoing 1) = some task0 := by
  refine ⟨rfl, by decide, by decide, ⟨tFlip, List.mem_singleton.2 rfl, _, rfl, rfl, by decide⟩, by decide, by decide, by decide +kernel, rfl, by decide,
    by decide +kernel⟩

/-- A task that fits when it runs again, serialised, and one whose footprint no stack holds. -/
theorem witness_WeaverEvents_again : task0.expected = some 7 ∧ task0.runs.length < 2 ∧ sC.noFootprint (sC.partOf 0) hdr0.fp true 1 = false ∧
    sC.noFootprint (sC.partOf 0) { hdr0.fp with cores := 65 } true 1 = true := by
  refine ⟨rfl, by decide, by decide +kernel, by decide +kernel⟩

/-! ## The dispatcher -/

/-- The header of an image at 0x30000, and the device that holds it. -/
def memI : Sparse 8 := mem0 ++ [(0x30000, 0x55), (0x30001, 0x4D), (0x30002, 0x44), (0x30003, 0x54), (0x30004, 1), (0x30008, 0x80), (0x30011, 1),
  (0x30012, 1), (0x30020, 0x40), (0x30024, 0x40)]
def sI : State := { sC with mem := memI }

theorem witness_PacketsTakeEffect : sI.canAccept (.host 0) = true ∧ (sI.pass (.host 0) 2).ctx? 0 = some ctx0 ∧
    (sI.pass (.host 0) 2).readHeader 0 0x30000 0x5008 = some hdr0 ∧ ctx0.seeds.length < 16 ∧ sI.ringFree ctx0 = true ∧
    (sI.pass (.host 0) 1).addrOk 0 0x5008 true = true ∧ (sI.pass (.host 0) 1).readPatches 0 0x5008 1 = some [(0, 0)] := by
  refine ⟨by decide +kernel, rfl, by decide +kernel, by decide, by decide +kernel, by decide +kernel, by decide +kernel⟩

theorem witness_PacketsTakeEffect_place : (sI.pass (.host 0) 2).noFootprint 0 hdr0.fp false 1 = false := by decide +kernel

theorem witness_PacketsTakeEffect_seeds : 16 ≤ (List.replicate 16 (0 : W64)).length ∧ ctx0.seeds = [] ∧
    { sC with contexts := [{ ctx0 with seeds := [5] }] }.canAccept (.host 0) = true := by
  refine ⟨by decide, rfl, by decide +kernel⟩

/-- A word at 0x5008 that a WAITWORD waits for to be 0, read for the first time now, with a timeout of 1,000 ns. -/
def wp0 : WaitPkt := { seq := 0, addr := 0x5008, mask := 0xFF, value := 0, cond := 0, timeout := 1000 }
def sWait (w : WaitPkt) (t0 : Nat) : State := { sC with queues := sC.queues.set 0 { hq0 with wait := some (w, t0, sC.wtime) } }
theorem witness_WaitsStoresAndRecords : sC.canAccept (.host 0) = true ∧ (sC.pass (.host 0) 1).addrOk 0 0x5008 true = true ∧
    (sC.pass (.host 0) 1).dispXlat 0 0x5008 true = some 0x5008 ∧ (∀ i < 8, sC.drops (0x5008 + i) = false) ∧
    (sWait wp0 0).waitOf (.host 0) = some (wp0, 0, sC.wtime) ∧ (sWait wp0 0).dispWord 0 0x5008 = some 0 ∧ ((0 : W64) &&& 0xFF = 0) ∧
    ¬ ((0 : W64) &&& 0xFF = 1) ∧ wp0.timeout ≠ 0 ∧ (sC.wtime - 1000) + wp0.timeout.toNat ≤ sC.wtime := by
  refine ⟨by decide +kernel, by decide +kernel, by decide +kernel, by decide, rfl, by decide +kernel, by decide, by decide, by decide, by decide⟩

/-- A store after earlier launches with none left, a packet that is read again, and a record whose slot is reserved. -/
def after0 : AfterPrior := { num := 1, ctx := 0, queue := .host 0, pkt := { seq := 0, addr := 0x5008, value := 1, after := true } }
def sAfter : State := { sC with after := [after0] }
def sRead (head : W32) (t0 : Nat) : State := { sC with queues := sC.queues.set 0 { hq0 with head, tail := head + 2, read := some (t0, sC.wtime, 250) } }
def rec0 : Record := { Record.plain 1 1 (.host 0) 0 1 with held := true }
def ctxR : Context := { ctx0 with records := [rec0], reserved := 1, produced := 15 }
def sRec : State := { sC with contexts := [ctxR] }
theorem witness_WaitsStoresAndRecords_later : sAfter.after.find? (fun x => x.num == 1) = some after0 ∧ sAfter.priorDone after0 = true ∧
    ((sRead 0 0).readPacket (.host 0)).toOption.map (fun bs => packetMatches bs 0) = some true ∧
    ((sRead 1 0).readPacket (.host 0)).toOption.map (fun bs => packetMatches bs 1) = some false ∧ (sRead 1 0).canAccept (.host 0) = true ∧
    (sC.wtime - 64000) + 64000 ≤ sC.wtime ∧ sRec.ctx? 0 = some ctxR ∧ sRec.recordDue ctxR = true ∧ sRec.nextRecord ctxR = some rec0 ∧
    sRec.dispXlat 0 (ctxR.ring + BitVec.ofNat 64 (64 * (ctxR.produced.toNat % 2 ^ ctxR.ringLog))) true = some 0x83C0 ∧ rec0.doneAt = 0 := by
  refine ⟨by decide +kernel, by decide +kernel, by decide +kernel, by decide +kernel, by decide +kernel, by decide, rfl, by decide +kernel, by decide +kernel,
    by decide +kernel, rfl⟩

/-! ## Task graphs -/

/-- A node of such words. -/
def nd (xs : List W64) : NodeWords := Vector.ofFn fun i => xs.getD i.val 0
def act0 : Activation := { node := 0, seed := 9, pred := 3 }
def pkt0 : GraphPkt :=
  { seq := 0, cls := 7, noWait := false, base := 0x20000, nodes := 4, entry := 0, patchAt := 0, patchCount := 0, done := 0 }
def rep0 : Replay :=
  { num := 1, ctx := 0, queue := .host 0, pkt := pkt0, patches := [], seed := 0, started := true, pend := [act0], loops := [], joins := [], running := 0,
    ending := false, status := 0 }
def sG : State := { sC with replays := [rep0] }

/-- One node of each type whose fields stand at the ends of their ranges: 64 slots of count, 16 edges of a SWITCH, 64
arrivals of a JOIN, and edges of the last node and of none. -/
def nodeList : List NodeWords :=
  [nd [0x4000000001, 0x30000, 0, 0, 0, 0, 0xFFFF0003], nd [2, 0x5008, 0xFFFF0003], nd [3, 0x5008, 0x100030001], nd [4, 0x5008, 0xFFFF0010],
   nd [5, 64, 1], nd [6, 1, 5, 1], nd [7]]

theorem witness_GraphNodes : sG.replays.find? (fun r => r.num == 1 && r.started && r.status == 0 && !r.ending && r.pend.head? == some act0) = some rep0 ∧
    nodeList.all (nodeOk rep0.pkt.nodes) = true ∧ nodeList.map nodeType = [1, 2, 3, 4, 5, 6, 7] := by
  refine ⟨by decide, by decide +kernel, by decide +kernel⟩

/-- Nodes that break the conditions: an edge past the last node, counts of 0 and 65, 17 edges of a SWITCH. -/
theorem witness_GraphNodes_bad : [nd [7, 1], nd [2, 0x5008, 4], nd [0x4100000001, 0x30000], nd [1, 0x30000], nd [4, 0x5008, 0x11], nd [5, 65, 1],
    nd [3, 0x5008, 0x40000], nd [6, 2]].all (fun w => !nodeOk rep0.pkt.nodes w) = true := by decide +kernel

/-- A control word that reads 0, one that reads 1, and a misaligned address. -/
theorem witness_GraphNodes_reads : sG.dispWord 0 0x5008 = some 0 ∧ sG.dispWord 0 0x1000 = some 0x2001 ∧ ¬ ((0x5009 : W64).toNat % 8 = 0) := by
  refine ⟨by decide +kernel, by decide +kernel, by decide⟩

/-! ## The host's commands -/

/-- The device with a ring size of 16 slots written for context 1, and with that field at 17. -/
def sD (n : Byte) : State := { sC with mem := mem0 ++ [(0x100058, n)] }

theorem witness_ContextsAndQueues : (sC.ctx? 0).isSome = true ∧ sC.ctx? 1 = none ∧ (sD 16).ctx? 1 = none ∧ (sD 16).descOk 1 = true ∧ (sD 4).descOk 1 = true ∧
    (sD 3).descOk 1 = false ∧ (sD 17).descOk 1 = false ∧ sC.ctx? 0 = some ctx0 ∧ sC.idle ctx0 = true ∧ { sC with strands := [tA] }.idle ctx0 = false := by
  refine ⟨rfl, rfl, rfl, by decide +kernel, by decide +kernel, by decide +kernel, by decide +kernel, rfl, by decide +kernel, by decide +kernel⟩

/-- A function-level reset that has come to its end. -/
def rst0 : Resetting := { parts := [0, 1, 2, 3], whole := true, stop := 5000000 }
/-- Words of QCTL with every field set and with a reserved bit, and a device in a function-level reset and out of it. -/
theorem witness_ContextsAndQueues_words : (0x3F01 : W64) &&& ~~~0x3F01 = 0 ∧ (0x4001 : W64) &&& ~~~0x3F01 ≠ 0 ∧ (0x3 : W64) &&& ~~~0x3F01 ≠ 0 ∧
    sC.wholeReset = false ∧ { sC with resetting := some rst0 }.wholeReset = true := by decide

/-- An enabled queue and one that is not, sizes at the ends of the range, halted queues, and a packet in its slot and one that is not. -/
theorem witness_ContextsAndQueues_queues :
    let q (h : HostQueue) : State := { sC with queues := sC.queues.set 0 h }
    (sC.queue 0).enable = true ∧ (sC.queue 1).enable = false ∧ ((q { hq0 with enable := false, size := 16 }).queue 0).size = 16 ∧
    ((q { hq0 with enable := false, size := 17 }).queue 0).size = 17 ∧ ((q { hq0 with halted := true, cause := 6 }).queue 0).halted = true ∧
    ((q { hq0 with halted := true, cause := 6 }).queue 0).cause ≠ 7 ∧ ((q { hq0 with halted := true, cause := 9 }).queue 0).cause = 9 ∧
    (sC.dispBytes 0 (sC.slotVa (.host 0) 0) 64).map (fun bs => pktFld bs 4 4) = some (0 : W32).toNat ∧
    ((q { hq0 with head := 1 }).dispBytes 0 (sC.slotVa (.host 0) 1) 64).map (fun bs => pktFld bs 4 4) ≠ some (1 : W32).toNat := by
  refine ⟨by decide +kernel, by decide +kernel, by decide +kernel, by decide +kernel, by decide +kernel, by decide +kernel, by decide +kernel, by decide +kernel,
    by decide +kernel⟩

/-- A held strand and one that runs; the whole context and one strand named; a context that is not there, a buffer that is misaligned, a strand
that is not there, and a command that is still at work. -/
def tHeld : Strand := { tA with status := .held }
def sH : State := { sC with strands := [tHeld] }
theorem witness_HostCommands :
    (let named (w : W64) (t : Strand) : Prop := t.ctx = (w.extractLsb' 0 6).toNat ∧ (w.getLsbD 11 = true → t.sid = (w.extractLsb' 32 32).toNat)
     named 0 tHeld ∧ named 0x100000800 tHeld ∧ ¬ named 0x200000800 tHeld ∧ ¬ named 1 tHeld) ∧
    sH.holding = none ∧ { sH with holding := some (0, []) }.holding.isSome = true ∧ sH.ctx? 1 = none ∧ sH.ctx? 0 ≠ none ∧ sH.peaddr.toNat % 4096 = 0 ∧
    ({ sH with peaddr := 1 }.peaddr).toNat % 4096 ≠ 0 ∧ tHeld.status = .held ∧ sH.unitsLive tHeld = true ∧ tHeld.status ≠ .ended ∧
    (sH.strands.map (·.sid)).Nodup ∧ sH.strand? (1 : W32).toNat = some tHeld ∧ sH.linkUp = true ∧ sH.wholeReset = false ∧
    (0x150 : W64) &&& ~~~0xF033F ≠ 0 ∧ (0x150 : W64).toNat / 2 ^ 8 % 4 = 1 ∧ (0x100000F3F : W64) &&& 0xFFF0F0C0 = 0 ∧ (0x40 : W64) &&& 0xFFF0F0C0 ≠ 0 ∧
    (∀ y ∈ sH.strands, y.sid < 2 ^ 32) ∧ tHeld.stack < 4 ∧ { sC with resetting := some rst0 }.wholeReset = true := by
  refine ⟨by decide, by decide +kernel, by decide, rfl, by decide, by decide, by decide, rfl, by decide +kernel, by decide, by decide, rfl, rfl, rfl, by decide, by decide, by decide, by decide,
    by decide, by decide, by decide⟩

/-! ## Resets and the link, power, errors -/

theorem witness_ResetsAndTheLink : sC.linkUp = true ∧ { sC with linkUp := false }.linkUp = false ∧ { sC with lostAt := some 0 }.lostAt = some 0 ∧
    0 + { sC with lostAt := some 0, wtime := 10000000 }.linkgrace.toNat ≤ { sC with lostAt := some 0, wtime := 10000000 }.wtime ∧
    sC.linkHolding = false ∧ tA.stack ≠ 1 ∧ sC.tripped = [] ∧ sC.wholeReset = false ∧ sC.powered = true ∧
    { sC with powered := false }.powered = false := by decide

/-- A function-level reset that has come to its end. -/
theorem witness_ResetsAndTheLink_ends : { sC with resetting := some rst0, todo := [.dispatch] }.resetting = some rst0 ∧ rst0.whole = true ∧
    { sC with resetting := some rst0, todo := [.dispatch] }.todo = .dispatch :: [] ∧ rst0.stop ≤ sC.wtime ∧
    { sC with resetting := some rst0 }.wholeReset = true := by
  refine ⟨rfl, rfl, rfl, by decide, by decide⟩

/-- Words of PWRENV with Throttle at 60 and 105, and just outside; and with Default above Max. -/
theorem witness_PowerAndErrors :
    (let ok (w : W64) : Prop := w.toNat / 2 ^ 12 % 2 ^ 4 = 0 ∧ w.toNat / 2 ^ 52 % 2 ^ 12 = 0 ∧ w.toNat % 2 ^ 4 ≤ w.toNat / 2 ^ 8 % 2 ^ 4 ∧
       w.toNat / 2 ^ 8 % 2 ^ 4 ≤ w.toNat / 2 ^ 4 % 2 ^ 4 ∧ 60 ≤ w.toNat / 2 ^ 32 % 2 ^ 8 ∧ w.toNat / 2 ^ 32 % 2 ^ 8 ≤ 105
     ok 0x3C00000FFF ∧ ok 0x6900000000 ∧ ¬ ok 0x3B00000FFF ∧ ¬ ok 0x6A00000FFF ∧ ¬ ok 0x3C00000100) := by decide

/-- A stack whose evaluation, change of point, signature and stretch have come. -/
def stkP : Stack := { Stack.reset with evalAt := 5000000, pointPending := [(3, 5000000), (4, 5000000)], sig := 7, droop := [1, 7], stretch := some 0 }
/-- A strand of context 0 in a region of level 2. -/
def tLvl : Strand := tR
def sP : State := { sC with stks := (Vector.replicate 4 Stack.reset).set 3 stkP, strands := [tLvl] }
theorem witness_PowerAndErrors_due : (sP.stack 3).evalAt ≤ sP.wtime ∧ (sP.stack 3).pointPending = (3, 5000000) :: [(4, 5000000)] ∧ (sP.stack 3).sig ∈ (sP.stack 3).droop ∧
    (sP.stack 3).stretch = some 0 ∧ sP.strands.filter (fun t => t.admittedOn 0) = [tLvl] ∧ tLvl.load16 tLvl.level ≠ 0 ∧ sP.ctx? tLvl.ctx = some ctx0 := by
  refine ⟨by decide, rfl, by decide, rfl, by decide, by decide, rfl⟩

/-- A declaration whose deadline has passed, which needs more than any point, and one whose deadline is far. -/
def tDue (due : Nat) : Strand := { tA with stack := 3, decl := some { left := 1, due, core := 0, cl := 0, risk := false } }
theorem witness_PowerAndErrors_declared : (∀ t ∈ sC.strands, t.decl = none) ∧ tDue 0 ∈ { sP with strands := [tDue 0] }.strands ∧ (tDue 0).stack = 3 ∧
    (tDue 0).status ≠ .ended ∧ ¬ sP.wtime < 0 ∧ min (pwrenvReset.toNat / 2 ^ 4 % 2 ^ 4) 15 < 16 ∧ ({ sP with strands := [tDue 0] }.strands.map fun y : Strand => y.sid).Nodup ∧
    sP.wtime < 10000000 ∧ (∀ slow ≤ 16, 1 * (tDue 10000000).stride * slow * 100 ≤ 8 * (10000000 - sP.wtime) * (60 + 6 * 0)) := by
  refine ⟨fun _ h => (nomatch h), List.mem_singleton.2 rfl, rfl, by decide, by decide, by decide, by decide, by decide, by decide +kernel⟩

/-- What an error of core 0 strikes in the slot it holds: a scalar, a queue head, a format entry, a shape slot and a plane word. -/
theorem witness_PowerAndErrors_struck : tQ.cores[0]? = some coQ ∧ tQ.stack * 64 + coQ.phys = 0 ∧ (∀ e, coQ.units.slot = (16 * e + 4 * coQ.units.slot) / 4 % 4) ∧
    vget (coQ.cluster 0).q (64 - 64) [] ≠ [] ∧ coQ.units.shapes[31]? = some (115 - 84) ∧ (∀ m < 31, coQ.units.shapes[m]? ≠ some (115 - 84)) := by
  refine ⟨rfl, by decide, fun e => ?_, by decide, by decide, by decide⟩
  rw [show coQ.units.slot = 0 from rfl]; omega

/-- A core of a strand with a line in the L0 of cluster 1 and one in its L1, and the offsets that strike them. -/
def ln0 : Line := { tag := 0, bytes := none, pinned := false, used := 0 }
def coLn : Core := { coQ.modCl 1 (fun c => { c with l0 := [ln0] }) with l1 := [ln0] }
theorem witness_PowerAndErrors_lines : (strandOf coLn).cores[0]? = some coLn ∧ (strandOf coLn).stack * 64 + coLn.phys = 0 ∧
    coLn.units.slot = (16 * 119 + 4 * coLn.units.slot + 1) / 4 % 4 ∧ (16 * 119 + 1) / 16 = 119 + 8 * 0 ∧ (16 * 119 + 1) % 4 = 1 ∧
    (coLn.cluster 1).l0[0]? = some ln0 ∧ 16 * 123 / 16 = 123 + 8 * 0 ∧ coLn.l1[0]? = some ln0 := by
  refine ⟨rfl, by decide, by decide, by decide, by decide, rfl, by decide, rfl⟩

/-- Power commands with each result, at the last unit of a kind and past it; and the threshold of errors reached and not. -/
theorem witness_PowerAndErrors_results : sP.pwrResult 2 3 .gated = 1 ∧ sP.pwrResult 0 1023 .active = 0 ∧ sP.pwrResult 2 4 .active = 1 ∧
    sP.pwrResult 0 0 .gated = 2 ∧ (let n (k : Nat) := ((List.replicate k (HwUnit.core 5, 0)).filter fun e => e.1 == HwUnit.core 5).length
      errcfgReset.toNat % 2 ^ 8 ≤ n 8 ∧ ¬ errcfgReset.toNat % 2 ^ 8 ≤ n 7) := by
  refine ⟨by decide +kernel, by decide +kernel, by decide +kernel, by decide +kernel, by decide, by decide⟩

/-! ## The island -/

/-- Windows at their last byte, a stack that is down, and an export of one unit of the second tier for devices 0 to 1. -/
def sE : State := { sC with exports := (((Vector.replicate 256 0).set 1 0x10000000000).set 2 1).set 3 0x40010000 }
def sDown : State := { sC with stks := Vector.replicate 4 { Stack.reset with up := false } }
theorem witness_IslandEvents : sC.linkUp = true ∧ 2 ^ 39 - 1 < 2 ^ 39 ∧ 2 ^ 40 - 1 < 2 ^ 40 ∧ sC.silent (2 ^ 39 - 1) = false ∧ sDown.silent (2 ^ 39 - 1) = true ∧
    sC.silent (2 ^ 40 + (2 ^ 40 - 1)) = false ∧ (∀ i < 8, sC.drops (0x5008 + i) = false) ∧ sC.exportAt 0 0 true = none ∧
    sE.exportAt 1 (2 ^ 21 - 8) false = some (2 ^ 40 + 2 ^ 21 - 8) ∧ sE.exportAt 1 (2 ^ 21 - 8) true = none ∧ sE.exportAt 2 0 false = none ∧
    sE.exportAt 1 (2 ^ 21) false = none ∧ isDoorbell (2 ^ 40 + 2 ^ 21 - 8) = false ∧ sC.dispXlat 0 0x5008 true = some 0x5008 := by
  refine ⟨by decide, by decide, by decide, by decide +kernel, by decide +kernel, by decide +kernel, by decide, by decide +kernel, by decide +kernel,
    by decide +kernel, by decide +kernel, by decide +kernel, by decide, by decide +kernel⟩

/-- An export that may be written, and firmware that is older than its counter, whatever its signature. -/
theorem witness_IslandEvents_more :
    { sE with exports := sE.exports.set 3 0x80010000 }.exportAt 0 0 true = some (2 ^ 40) ∧
    { sC with routes := [(Config.ownDevice + 1, 0x5)] }.portFor 3 (Config.ownDevice + 1) = some 5 ∧ Config.ownDevice + 1 ≠ Config.ownDevice ∧
    { sC with fenced := [.port 0] }.portFor 3 7 = none ∧ sC.wholeReset = false ∧ { sC with resetting := some rst0 }.wholeReset = true ∧
    { sE with exports := ((sE.exports.set 1 0x20000000000).set 2 1).set 3 0x80010000 }.exportAt 0 8 true = some (2 ^ 41 + 8) ∧
    isDoorbell (2 ^ 41 + 8) = true ∧ (2 ^ 41 + 8 - 2 ^ 41) % 4096 = 8 * ((1 : W64).toNat % 2 ^ 10 % 512) ∧
    sC.dispAt 0 0x5008 true = some 0x5008 ∧ sC.dispAt 1 0x5008 true = none ∧
    (∀ image, ¬ (Config.lmsVerifies image = true ∧ vget ({ sE with fwCounter := #v[2, 0, 0] }.fwCounter) 0 0 ≤ 1)) ∧ sE.otsIndex < 2 ^ 30 ∧
    2 ^ 30 ≤ { sE with otsIndex := 2 ^ 30 }.otsIndex := by
  refine ⟨by decide +kernel, ?_, by simp, by decide +kernel, by decide, by decide, by decide +kernel, by decide, by decide, by decide +kernel,
    by decide +kernel, fun _ h => absurd h.2 (by decide), by decide, by decide⟩
  simp [State.portFor, State.portsTo, Sparse.get]
  decide

/-! ## The step -/

/-- MTS s1 into special register 0x010, and RET: a bundle that goes on and one whose transfer moves the cluster. -/
def sW : State := State.reset.withFetchWord 32 0x9C408040
def cr0 : CRef := { strand := 1, core := 0, cl := 0 }
def tW : Strand := readyStrand 1 (wordLine 32 0x9C408040)
def bW : Bundle := { syls := [.mts sh 8 0x010], len := 1 }
theorem witness_AStepRunsTheDecodedBundle : sW.todo = .issue cr0 :: [.starts 1, .claims 1, .endBeat 1] ∧ sW.strand? 1 = some tW ∧
    (∃ co, tW.cores[0]? = some co ∧ (co.cluster 0).issues tW.beat = true ∧ (co.cluster 0).skip = 0 ∧ (co.cluster 0).horizon ≤ tW.beat ∧
      fetchL0 (co.cluster 0).l0 (co.cluster 0).seq.pc = .bundle bW ∧ (co.cluster 0).seq.crosses (4 * bW.len) = false ∧ (bundleFlags bW).1 = false) ∧
    tW.status ≠ .handler := by
  refine ⟨rfl, rfl, ⟨_, rfl, by decide +kernel, rfl, by decide, by decide +kernel, by decide, by decide⟩, by decide⟩

/-- The bundle where an error has struck s8, which it reads, and where nothing is struck. -/
theorem witness_AStepRunsTheDecodedBundle_struck : (∃ co, tW.cores[0]? = some co ∧ (co.cluster 0).struck = [] ∧ co.marks = [] ∧ co.strikes 0 (.mts sh 8 0x010) = none) ∧
    ∃ co, (tW.modCl 0 0 fun c => { c with struck := [8] }).cores[0]? = some co ∧ bW.syls.findSome? (co.strikes 0) = some 8 := by
  refine ⟨⟨_, rfl, rfl, rfl, by decide⟩, ⟨_, rfl, by decide⟩⟩

/-- The bundle in a line that nothing has struck, and in one that an error has. -/
theorem witness_AStepRunsTheDecodedBundle_line : (∃ co, tW.cores[0]? = some co ∧ ∀ n, lineBad ((co.cluster 0).issueLines tW.beat) n = false) ∧
    ∃ co, (tW.modCl 0 0 fun c => { c with l0 := strikeLine c.l0 0 }).cores[0]? = some co ∧
      (let ls := (co.cluster 0).issueLines tW.beat
       let pc := (co.cluster 0).seq.pc
       fetchL0 ls pc = .bundle bW ∧ pc < 64 * (pc / 64) + 64 ∧ 64 * (pc / 64) < pc + 4 * bW.len ∧ lineBad ls (pc / 64) = true ∧
       ∀ m < pc / 64, ¬ pc < 64 * m + 64) :=
  ⟨⟨_, rfl, fun n => lineBad_false (by decide +kernel) n⟩, _, rfl, by decide +kernel, by decide +kernel, by decide +kernel, by decide +kernel,
    fun m h => by omega⟩

/-- The same bundle in scoreboard mode, and in the handler of a trap. -/
def tWs : Strand := tW.modCl 0 0 fun c => { c with horizon := tW.beat + 1 }
def tWh : Strand := { tW.modCl 0 0 (fun c => { c with ta := { c.ta with inUse := true, counts := true } }) with status := .handler }
def sWt (t : Strand) : State := { sW with strands := [t] }
def curW (t : Strand) : Cur :=
  { sid := 1, core := 0, cl := 0, beat := t.beat, pc := (t.clusterAt 0 0).seq.pc, next := (t.clusterAt 0 0).seq.pc + 4, shadow := false,
    handler := t.status == .handler, moved := false }
theorem witness_AStepRunsTheDecodedBundle_interlocked :
    (sWt tWs).strand? 1 = some tWs ∧ tWs.status ≠ .handler ∧ (tWs.clusterAt 0 0).issues tWs.beat = true ∧ tWs.beat < (tWs.clusterAt 0 0).horizon ∧
    (let s := { sWt tWs with cur := some (curW tWs) }
     ∃ u, runsTo bW.syls (s.withCore cr0 fun co =>
       { (co.settled none).withLanded (s.toCopy tWs 0) with coming := co.tagsMet (co.agenda ++ s.toCopy tWs 0) }) u) ∧
    (sWt tWh).strand? 1 = some tWh ∧ tWh.status = .handler ∧ (tWh.clusterAt 0 0).handlerReady = true ∧
    (tWh.clusterAt 0 0).skip = 0 ∧ (∃ co, tWh.cores[0]? = some co ∧ fetchL0 (co.cluster 0).l0 (co.cluster 0).seq.pc = .bundle bW) ∧
    (let s := { sWt tWh with snap := some tWh, cur := some (curW tWh) }
     ∃ u, runsTo bW.syls (s.withCore cr0 fun co =>
       { (co.settled (some co)).withLanded (s.toCopy tWh 0) with coming := tagsOf (co.agenda ++ s.toCopy tWh 0) }) u) := by
  refine ⟨rfl, by decide, by decide +kernel, by decide, ⟨_, _, rfl, rfl⟩, rfl, rfl, by decide +kernel, rfl, ⟨_, rfl, by decide +kernel⟩,
    ⟨_, _, rfl, rfl⟩⟩

/-- The same bundle where a drain has landed a result that has its beat still to come, and a bundle that TRET.SKIP skips. -/
def tWd : Strand := tW.modCore 0 fun co => { co with agenda := [{ beat := 9, ord := 0, act := .scalar 0 3 7, drained := true }] }
theorem witness_AStepRunsTheDecodedBundle_drained : (∃ co ∈ tWd.cores, ∃ e ∈ co.agenda, e.drained = true) ∧
    (tWd.clusterAt 0 0).horizon ≤ tWd.beat ∧ ((tW.modCl 0 0 fun c => { c with skip := 2 }).clusterAt 0 0).skip ≠ 0 ∧ (tW.clusterAt 0 0).halted = false ∧
    (∃ u, runsTo bW.syls ({ sWt tWd with cur := some (curW tWd) }.modStrand 1 fun t => { t with cores := tWd.cores.map Core.drainedSeen }) u) ∧
    (∃ sid, (Ev.mgoStart { strand := 1, core := 0 }).reader = some sid ∧ (sWt tWd).strand? sid = some tWd) := by
  refine ⟨⟨_, List.mem_singleton.2 rfl, _, List.mem_singleton.2 rfl, rfl⟩, by decide, by decide, rfl, ⟨_, _, rfl, rfl⟩, ⟨1, rfl, rfl⟩⟩

/-- A bundle that begins in one line and ends in the next: 60 bytes into the first, a word in each. -/
theorem witness_AStepRunsTheDecodedBundle_lines :
    (let l (tag : Nat) (bs : List Byte) : Line := { tag, bytes := some bs, pinned := false, used := 0 }
     let a := bytesOf 64 (0x00810000 * 2 ^ 480)
     let b := bytesOf 64 0x9C408040
     let ls := [l 0 a, l 1 b]
     lineBytes ls (60 / 64) = some a ∧ a.length = 64 ∧ lineBytes ls (60 / 64 + 1) = some b ∧ b.length = 64 ∧ ¬ (60 % 64 + 32 ≤ 64) ∧ 32 % 64 + 32 ≤ 64 ∧
     decodeBytes ((bytesOf 64 0x9C408040).take 32) = .ok bW) := by
  decide +kernel

/-- An event of the schedule, an input whose time has come, and a moment with nothing to do. -/
theorem witness_AStepRunsTheDecodedBundle_events :
    (∃ u, { sP with todo := [.ev (.operatingPointChange 3)] }.todo = .ev (.operatingPointChange 3) :: [] ∧
      runEv (.operatingPointChange 3) { sP with todo := [] } = .next u) ∧
    ({ State.reset with inputs := [(5, .linkcmdResume)], wtime := 5 }.inputs = (5, .linkcmdResume) :: [] ∧ (5 : Nat) ≤ 5) ∧
    (∀ e ∈ ({ State.reset with inputs := [(6, .linkcmdResume)], wtime := 5 }.inputs).head?, 5 < e.1) := by
  refine ⟨⟨_, rfl, rfl⟩, ⟨rfl, by decide⟩, by simp⟩

theorem witness_DecodingAndEncodingAgree : (Instr.mts sh 8 0x010).wf = true ∧ encode (.mts sh 8 0x010) = [0x9C408040] ∧
    decodeSyl 0x9C408040 [7] = .ok (.mts sh 8 0x010, [7]) := by decide

theorem witness_EveryStepKeepsMemoryCanonical : State.reset.MemOk ∧ ∃ t, step State.reset = .next t := ⟨rfl, _, rfl⟩

/-! ## Ill-formed terms (R76, R79 to R83, R88) -/

/-- A guard of 12, and a complemented guard of 0. -/
theorem ill_guard : (Instr.nop { sh with g := 12 }).wf = false ∧ (Instr.nop { sh with neg := true }).wf = false ∧
    (Instr.vabs { mh with g := 15 } .last .zero).wf = false ∧ (Instr.relp { mh with neg := true }).wf = false := by decide
/-- A predicate past p11. -/
theorem ill_predicate : (Instr.cmpEq sh 12 0 0).wf = false ∧ (Instr.pand sh 0 12 0).wf = false ∧ (Instr.pand sh 0 0 13).wf = false ∧
    (Instr.pnot sh 14 0).wf = false ∧ (Instr.pcount sh 31 12).wf = false ∧ (Instr.vfcmpUn mh 12 .zero .zero).wf = false := by decide
/-- A loop that ends where it begins, a rendezvous of no cluster. -/
theorem ill_loop : (Instr.loop sh 0 1 0).wf = false ∧ (Instr.loopl sh 0 0 5).wf = false ∧ (Instr.cwait sh 0).wf = false := by decide
/-- Special registers that are not there, and one that can only be read. -/
theorem ill_special : (Instr.mfs sh 1 0x03).wf = false ∧ (Instr.mfs sh 1 0x4C).wf = false ∧ (Instr.mts sh 1 0x00).wf = false ∧
    (Instr.mfs sh 1 0x106).wf = false := by decide
/-- Conversion words: a format of 9, VCVT to a scaled format, a rounding between integers, a signedness of a float. -/
theorem ill_conversion :
    let c : Conv := { dst := 0, src := 0, rnd := 0, toS := false, frS := false, half := false }
    (Instr.vcvt mh .last .zero { c with src := 9 }).wf = false ∧ (Instr.vcvt mh .last .zero { c with dst := 3 }).wf = false ∧
    (Instr.vcvt mh .last .zero { c with dst := 8, src := 5, rnd := 1 }).wf = false ∧ (Instr.vcvt mh .last .zero { c with toS := true }).wf = false ∧
    (Instr.vpack mh .last .zero .zero c).wf = false ∧ (Instr.vunpk mh .last .zero c).wf = false ∧ (Instr.acld mh .last 0 0 { c with dst := 6 }).wf = false := by
  decide
/-- A type, a size, a mode, a level and a value out of range. -/
theorem ill_ranges : (Instr.vrsum mh .last .zero 3).wf = false ∧ (Instr.st mh 1 2 3 2).wf = false ∧ (Instr.ecopy mh 1 2 3 3).wf = false ∧
    (Instr.lqwait mh 16).wf = false ∧ (Instr.fence mh 6).wf = false ∧ (Instr.ipref mh 1 2 3).wf = false ∧ (Instr.ipin mh 1 2 3 2).wf = false ∧
    (Instr.acqp mh 16).wf = false ∧ (Instr.tretSkip mh 0).wf = false := by decide
/-- Command words: an offset past the plane, a fourth engine, a sixth base, rows past the bank, a remote code of 3. -/
theorem ill_commands : (Instr.mcfg mh (.rel 0) 1 128 0).wf = false ∧ (Instr.cfgswap mh (.rel 0) 3).wf = false ∧ (Instr.mbase mh (.rel 0) 1 5).wf = false ∧
    (Instr.cfgld mh (.rel 0) 1 false 0 15 1 0).wf = false ∧ (Instr.aczero mh (.rel 0) 1 63 0).wf = false ∧
    (Instr.xcopy mh (.rel 0) 0 3 false 0 false 0 0 0).wf = false ∧ (Instr.xcopy mh (.rel 0) 1 0 false 0 false 0 0 0).wf = false := by decide

/-! ## Decoding -/

/-- A syllable word from the fields of R75: End, kind, opcode, and operands in the format the opcode names. -/
def syl (kind op operands : Nat) : W32 := BitVec.ofNat 32 (2 ^ 31 + kind * 2 ^ 29 + op * 2 ^ 22 + operands)
/-- The operands d, a, b and modifier (R79, R80, R82). -/
def dabm (d a b m : Nat) : Nat := d * 2 ^ 12 + a * 2 ^ 7 + b * 2 ^ 2 + m

/-- The bundle worked out in the manual, byte for byte. -/
theorem test_decode_worked_bundle :
    decodeBytes [0x00, 0x32, 0x06, 0x08, 0x54, 0x20, 0x00, 0x20, 0x45, 0x84, 0x00, 0xC0, 0x64, 0x00, 0x00, 0x00] =
      .ok { syls := [.addl { sh with last := false, g := 3 } 3 4 100, .vadd { mh with last := false } (.o 2) (.o 0) (.pop 1),
                     .drawImmediate mh 1 4 1 5], len := 4 } := by decide +kernel
/-- R84: no operand, registers, a literal, predicates. -/
theorem test_decode_scalar :
    decodeSyl (syl 0 0x01 0) [] = .ok (.halt sh, []) ∧ decodeSyl (syl 0 0x02 (dabm 1 2 31 0)) [] = .ok (.add sh 1 2 31, []) ∧
    decodeSyl (syl 0 0x12 (dabm 4 5 6 3)) [] = .ok (.modN { sh with sync := true, shadow := true } 4 5 6, []) ∧
    decodeSyl (syl 0 0x2F (dabm 7 0 0 0)) [0xFFFFFFFF] = .ok (.movl sh 7 0xFFFFFFFF, []) ∧
    decodeSyl (syl 0 0x3A (dabm 11 2 3 0)) [] = .ok (.cmpLtI sh 11 2 3, []) ∧ decodeSyl (syl 0 0x44 (dabm 1 2 0 0)) [9] = .ok (.cmplLtN sh 1 2 9, []) ∧
    decodeSyl (syl 0 0x65 (dabm 31 11 0 0)) [] = .ok (.pcount sh 31 11, []) := by decide +kernel
/-- R84: an offset of −2 words, a loop of counter 3 that ends 5 words on, a mask of c0 and c3, LC0 read. -/
theorem test_decode_control :
    decodeSyl (syl 0 0x50 (0x7FFE * 4)) [] = .ok (.br sh 0x7FFE, []) ∧ decodeSyl (syl 0 0x52 (9 * 2 ^ 7)) [] = .ok (.jmp sh 9, []) ∧
    decodeSyl (syl 0 0x54 (3 * 2 ^ 15 + 6 * 2 ^ 10 + 5 * 2 ^ 2)) [] = .ok (.loop sh 3 6 5, []) ∧
    decodeSyl (syl 0 0x55 (1 * 2 ^ 15 + 5 * 2 ^ 2)) [100] = .ok (.loopl sh 1 5 100, []) ∧
    decodeSyl (syl 0 0x56 (9 * 2 ^ 2)) [] = .ok (.cwait sh 9, []) ∧ decodeSyl 0x9C00B410 [] = .ok (.mfs sh 11 0x104, []) := by decide +kernel
/-- R85: every source code, and both destinations. -/
theorem test_decode_vector :
    decodeSyl (syl 1 0x01 (dabm 16 19 23 0)) [] = .ok (.vsub mh .last (.l 3) (.pop 3), []) ∧
    decodeSyl (syl 1 0x1B (dabm 15 27 28 2)) [] = .ok (.vfma mh (.o 15) (.keep 3) .zero 2, []) ∧
    decodeSyl (syl 1 0x28 (dabm 11 29 30 0)) [0xABCD] = .ok (.vcmpEq mh 11 .lane (.imm 0xABCD), []) ∧
    decodeSyl (syl 1 0x52 (dabm 0 31 30 0)) [7, 8] = .ok (.vbcast mh (.o 0) (.sreg 7) (.imm 8), []) ∧
    decodeSyl (syl 1 0x4C (dabm 1 2 3 1)) [] = .ok (.vsort mh (.o 1) (.o 2) (.o 3) 1, []) ∧
    decodeSyl (syl 1 0x51 (dabm 1 2 3 1)) [] = .ok (.vrotZf mh (.o 1) (.o 2) (.o 3), []) ∧
    decodeSyl (syl 1 0x59 (dabm 1 2 0 3)) [] = .ok (.teval mh (.o 1) (.o 2) 3, []) := by decide +kernel
/-- R81, R82, R86: register-file operands, the scratchpad, elastic memory. -/
theorem test_decode_memory :
    decodeSyl (syl 2 0x01 (2 * 2 ^ 15 + 31 * 2 ^ 8 + 2 * 2 ^ 6 + 17)) [] = .ok (.drawRegister mh 2 31 2 17, []) ∧
    decodeSyl (syl 2 0x04 (3 * 2 ^ 13 + 1 * 2 ^ 8 + 3 * 2 ^ 6 + 63)) [] = .ok (.putLastResultImmediate mh 3 1 3 63, []) ∧
    decodeSyl (syl 2 0x0B (19 * 2 ^ 12 + 4 * 2 ^ 7 + 127)) [0xEE] = .ok (.sstTagged mh (.l 3) 4 127 0xEE, []) ∧
    decodeSyl (syl 2 0x10 (dabm 1 2 3 1)) [] = .ok (.ld mh 1 2 3 1, []) ∧ decodeSyl (syl 2 0x1B 5) [] = .ok (.fence mh 5, []) ∧
    decodeSyl (syl 2 0x29 (dabm 1 2 3 3)) [] = .ok (.acas mh 1 2 3 3, []) ∧ decodeSyl (syl 2 0x3A (dabm 1 2 3 1)) [] = .ok (.ipin mh 1 2 3 1, []) := by
  decide +kernel
/-- R83, R87: both forms of a stamp, accumulators, waiting, traps. -/
theorem test_decode_commands :
    decodeSyl (syl 3 0x02 (511 * 2 ^ 7)) [0] = .ok (.mstop mh (.rel 511), []) ∧ decodeSyl (syl 3 0x02 (2 ^ 16 + 31 * 2 ^ 7)) [0] = .ok (.mstop mh (.abs 31), []) ∧
    decodeSyl (syl 3 0x0B (dabm 1 2 0 0)) [0] = .ok (.acld mh (.o 1) 2 0 { dst := 0, src := 0, rnd := 0, toS := false, frS := false, half := false }, []) ∧
    decodeSyl (syl 3 0x20 (dabm 0 6 0 0)) [] = .ok (.waitb mh 6, []) ∧ decodeSyl (syl 3 0x25 (dabm 1 2 3 0)) [] = .ok (.enq mh 1 2 3, []) ∧
    decodeSyl (syl 3 0x31 0) [] = .ok (.tret mh, []) := by decide +kernel
/-- What a bundle may not hold: an unlisted opcode, a reserved bit, a kind out of order, no End in four syllables, a literal past word 8. -/
theorem test_decode_refuses :
    decodeSyl (syl 0 0x7F 0) [] = .error .opcode ∧ decodeSyl (syl 0 0x01 4) [] = .error .reserved ∧ decodeSyl (syl 0 0x2F (dabm 7 0 0 0)) [] = .error .literal ∧
    (decodeSyl (syl 1 0x00 (dabm 17 0 0 0)) []).toOption = none ∧ (decodeSyl (syl 0 0x00 (12 * 2 ^ 17)) []).toOption = none ∧
    (decodeBundle [0x20000000, 0x80000000]).toOption = none ∧ (decodeBundle (List.replicate 8 0)).toOption = none := by decide +kernel

/-! ## Numbers worked out in the manual -/

/-- R130: the state after one round, two rounds and eight, for key 0 and counter 0. -/
theorem test_kcg :
    let z : Kcg := { c0 := 0, c1 := 0, c2 := 0, c3 := 0, k0 := 0, k1 := 0 }
    kcgRounds 1 z = { z with k0 := 0x3C6EF372, k1 := 0x779B91E3 } ∧
    kcgRounds 2 z = { c0 := 0x19540A22, c1 := 0xD086C5A6, c2 := 0x91441B3B, c3 := 0x26364CEA, k0 := 0x78DDE6E4, k1 := 0x98ACB225 } ∧
    (List.range 4).map (kcg 0 0 0 0 0) = [0x40D11084, 0xAA1D17EF, 0xBDDF5E8B, 0x4CC759B7] := by decide +kernel
/-- R131 and the draw of the sampling program: u and its product with 4.5. -/
theorem test_uniform : u24 0x40D11084 = 0x3E81A220 ∧ fmul 0 0x3E81A220 0x40900000 = 0x3F91D664 := by decide +kernel
/-- R116: infinities of opposite sign make the canonical NaN, and a zero of either sign is equal to the other. -/
theorem test_floats : fadd 0 0x7F800000 0xFF800000 = 0x7FC00000 ∧ fmin 0x00000000 0x80000000 = 0x80000000 ∧ feq 0x00000000 0x80000000 = true ∧
    fneg 0xFFC00001 = 0x7FC00000 := by decide +kernel

end Sys2Proof.Tests
end

section
/-! Writes at device scope (R1, R257, R269): what every place reads after one. -/

namespace Sys2Proof.Machine

/-! ## Writes in flight over a byte of memory (R257) -/

/-- A write in flight has no byte for an address exactly where none of its cells lies there. -/
theorem Flight.byte?_eq_none_iff (f : Flight) (x : Nat) : f.byte? x = none ↔ ∀ c ∈ f.cells, c.1 ≠ x := by
  simp [Flight.byte?]

/-- Where no visible flight writes an address, what stands beneath is read. -/
theorem flightByte_of_unwritten {p : Place} {x : Nat} (y : Byte) {fs : List Flight}
    (h : ∀ f ∈ fs, f.seenBy p = true → ∀ c ∈ f.cells, c.1 ≠ x) : flightByte p x y fs = y := by
  induction fs with
  | nil => rfl
  | cons f fs ih =>
    obtain ⟨hf, hfs⟩ := List.forall_mem_cons.1 h
    have hbyte : (if f.seenBy p then (f.byte? x).getD y else y) = y := by
      split
      · next hp => rw [(f.byte?_eq_none_iff x).2 (hf hp), Option.getD_none]
      · rfl
    rw [flightByte, hbyte, ih hfs]

/-- Where a visible flight writes an address, what stands beneath does not matter. -/
theorem flightByte_of_written {p : Place} {x : Nat} (y z : Byte) {fs : List Flight}
    (h : ∃ f ∈ fs, f.seenBy p = true ∧ ∃ c ∈ f.cells, c.1 = x) : flightByte p x y fs = flightByte p x z fs := by
  induction fs generalizing y z with
  | nil => simp at h
  | cons f fs ih =>
    obtain ⟨g, hg, hp, c, hc, hx⟩ := h
    rcases List.mem_cons.1 hg with rfl | hg
    · obtain ⟨v, hv⟩ : ∃ v, g.byte? x = some v :=
        Option.ne_none_iff_exists'.1 fun hn => (g.byte?_eq_none_iff x).1 hn c hc hx
      simp [flightByte, hp, hv]
    · exact ih _ _ ⟨g, hg, hp, c, hc, hx⟩

/-- A place that sees no write in flight over a byte reads what memory holds. -/
theorem State.busByte_of_not_covered {s : State} {p : Place} {x : Nat} (h : ¬ s.covered p x) :
    s.busByte p x = Sparse.get s.mem x :=
  flightByte_of_unwritten _ fun f hf hp c hc hx => h ⟨f, hf, hp, c, hc, hx⟩

/-- A place that sees a write in flight over a byte reads it whatever memory holds. -/
theorem State.busByte_of_covered {s t : State} {p : Place} {x : Nat} (hfl : t.flight = s.flight) (h : s.covered p x) :
    t.busByte p x = s.busByte p x := by
  unfold State.busByte
  rw [hfl]
  exact flightByte_of_written _ _ h

/-- With the same writes in flight, a byte that memory holds unchanged reads as before. -/
theorem State.busByte_congr {s t : State} {x : Nat} (p : Place) (hfl : t.flight = s.flight)
    (hmem : Sparse.get t.mem x = Sparse.get s.mem x) : t.busByte p x = s.busByte p x := by
  unfold State.busByte
  rw [hfl, hmem]

/-! ## Consecutive bytes written to memory -/

/-- After consecutive values are written from `b` on, those filtered out by address left aside: the kept keys hold their
values, and every other key what it held. -/
theorem Sparse.get_setAll_cellsAt {w : Nat} (keep : Nat → Bool) (x : Nat) (vs : List (BitVec w)) (m : Sparse w) (b : Nat) :
    Sparse.get (Sparse.setAll m ((cellsAt b vs).filter fun c => keep c.1)) x =
      if b ≤ x ∧ x < b + vs.length ∧ keep x = true then vs.getD (x - b) 0 else Sparse.get m x := by
  induction vs generalizing m b with
  | nil =>
    rw [List.length_nil, if_neg (by omega)]
    rfl
  | cons v vs ih =>
    have hhead : Sparse.setAll m ((cellsAt b (v :: vs)).filter fun c => keep c.1) =
        Sparse.setAll (if keep b = true then Sparse.set m b v else m) ((cellsAt (b + 1) vs).filter fun c => keep c.1) := by
      cases hb : keep b <;> simp [cellsAt, hb, Sparse.setAll]
    have hother (hx : x ≠ b) : Sparse.get (if keep b = true then Sparse.set m b v else m) x = Sparse.get m x := by
      split <;> simp [hx]
    rw [hhead, ih, List.length_cons]
    rcases Nat.lt_trichotomy x b with hlt | rfl | hgt
    · rw [hother (Nat.ne_of_lt hlt), if_neg (by omega), if_neg (by omega)]
    · rw [if_neg (by omega)]
      cases hx : keep x <;> simp
    · have hidx : x - b = x - (b + 1) + 1 := by omega
      have hrange : (b + 1 ≤ x ∧ x < b + 1 + vs.length ∧ keep x = true) ↔ (b ≤ x ∧ x < b + (vs.length + 1) ∧ keep x = true) :=
        and_congr (by omega) (and_congr_left fun _ => by omega)
      rw [hother (Nat.ne_of_gt hgt), hidx, List.getD_cons_succ]
      simp only [hrange]

/-! ## Bytes of a number -/

/-- R1: byte `i` of a number, low byte first. -/
theorem getD_bytesOf {n i : Nat} (v : Nat) (hi : i < n) : (bytesOf n v).getD i 0 = BitVec.ofNat 8 (v / 2 ^ (8 * i)) := by
  simp [bytesOf, hi]

/-- R1: byte `i` of a register is the one of the number in it. -/
theorem extractLsb'_eq_byte (v : W64) (i : Nat) : v.extractLsb' (8 * i) 8 = BitVec.ofNat 8 (v.toNat / 2 ^ (8 * i)) := by
  rw [BitVec.extractLsb', Nat.shiftRight_eq_div_pow]

/-! ## Writes at device scope (R257, R269; log 80) -/

/-- Bytes written from `b` on at device scope are written as `State.WritesDevice` says. -/
theorem State.busWrite_cellsAt_writesDevice (s : State) (b : Nat) (bs : List Byte) :
    s.WritesDevice (s.busWrite (cellsAt b bs)) b bs.length fun i => bs.getD i 0 := by
  intro p x
  have hget := Sparse.get_setAll_cellsAt (fun a => !s.drops a) x bs s.mem b
  constructor
  · intro hb hx hdrop hcov
    rw [State.busByte_of_not_covered (s := s.busWrite _) hcov, State.busWrite_mem, hget, if_pos]
    exact ⟨hb, hx, by simp [hdrop]⟩
  · intro h
    by_cases hcov : s.covered p x
    · exact State.busByte_of_covered (State.busWrite_flight _ _) hcov
    · refine State.busByte_congr p (State.busWrite_flight _ _) ?_
      rw [State.busWrite_mem, hget, if_neg]
      rintro ⟨hb, hx, hkeep⟩
      rcases h with h | h | h | h
      · omega
      · omega
      · simp [h] at hkeep
      · exact hcov h

/-- What is written may be named by any function that gives the same bytes. -/
theorem State.WritesDevice.congr {s t : State} {b n : Nat} {f g : Nat → Byte} (h : s.WritesDevice t b n f)
    (hfg : ∀ i < n, f i = g i) : s.WritesDevice t b n g := by
  intro p x
  refine ⟨fun hb hx hdrop hcov => ?_, (h p x).2⟩
  rw [(h p x).1 hb hx hdrop hcov, hfg _ (by omega)]

/-- A number of `n` bytes written at device scope: its bytes, low byte first (R1). -/
theorem State.busPut_writesDevice (s : State) (b n v : Nat) :
    s.WritesDevice (s.busPut b n v) b n fun i => BitVec.ofNat 8 (v / 2 ^ (8 * i)) := by
  have h := s.busWrite_cellsAt_writesDevice b (bytesOf n v)
  rw [show (bytesOf n v).length = n by simp [bytesOf]] at h
  exact h.congr fun i hi => getD_bytesOf v hi

/-- Settles O35: a word written at device scope goes beneath the writes in flight, and memory and its poison marks alone change. -/
theorem deviceWritesAreReadEverywhere : Obligations.DeviceWritesAreReadEverywhere := by
  intro s b v
  exact ⟨(s.busPut_writesDevice b 8 v.toNat).congr fun i _ => (extractLsb'_eq_byte v i).symm, rfl⟩

end Sys2Proof.Machine
end

section
/-! Words of the manual (R75 to R88). -/

namespace Sys2Proof.Machine

/-- Settles O56: each word is closed, and the decoder computes its instruction. -/
theorem wordsOfTheManual : Obligations.WordsOfTheManual :=
  ⟨rfl, rfl, rfl, rfl, rfl, rfl, rfl, rfl, rfl, rfl⟩

end Sys2Proof.Machine
end

section
/-! What the events that end a freeze, a walk, a declaration, a request or a region do (R21, R68 to R70, R92, R245 to R247, R276). -/

namespace Sys2Proof.Machine

/-! ## Accesses that are made (R147, R302, R313) -/

/-- An access that is made changes nothing but the TLBs, what its task has used and what has been sent. -/
theorem State.touch_spec (s : State) (st : Strand) (c : Nat) (a : W64) (w : Bool) : ∃ ks ts es,
    s.touch st c a w = { s with stks := ks, tasks := ts, sent := es } := by
  simp only [State.touch]
  split
  · split
    · exact ⟨_, _, _, rfl⟩
    · unfold State.send
      split <;> exact ⟨_, _, _, rfl⟩
  · split
    · exact ⟨_, _, _, rfl⟩
    · split <;> exact ⟨_, _, _, rfl⟩

/-- So do the accesses of a list, made in turn. -/
theorem State.touchAll_spec (st : Strand) (c : Nat) (w : Bool) (as : List W64) : ∀ s : State, ∃ ks ts es,
    s.touchAll st c w as = { s with stks := ks, tasks := ts, sent := es } := by
  induction as with
  | nil => exact fun s => ⟨_, _, _, rfl⟩
  | cons a as ih =>
    intro s
    obtain ⟨ks, ts, es, h⟩ := s.touch_spec st c a w
    obtain ⟨ks', ts', es', h'⟩ := ih (s.touch st c a w)
    exact ⟨ks', ts', es', by rw [State.touchAll, List.foldl_cons, ← State.touchAll, h', h]⟩

/-! ## What ends a freeze (R21, R68, R69, R92) -/

/-- A strand whose freeze may end goes on. -/
theorem execElasticWaitResume_eq {s : State} {sid : Nat} {t : Strand} (ht : s.strand? sid = some t) (hrun : t.status = .run)
    (hthaw : t.thaws (s.stack t.stack).cyc = true) :
    execElasticWaitResume sid s = .next (s.modStrand sid fun t => { t with freeze := none }) := by
  simp [execElasticWaitResume, ht, hrun, hthaw]

/-- The fillings whose lines have come end. -/
theorem execFetchLineFill_eq {s : State} {sid : Nat} {t : Strand} (ht : s.strand? sid = some t)
    (hdue : ∃ f ∈ t.fills, f.ended = none ∧ f.ready ≤ (s.stack t.stack).cyc) :
    execFetchLineFill sid s = .next (s.modStrand sid fun u => { u with fills := u.fills.map fun f =>
      if f.ended = none ∧ f.ready ≤ (s.stack t.stack).cyc then { f with ended := some ((s.stack t.stack).cyc, u.beat) } else f }) := by
  have hany : (t.fills.any fun f => f.ended.isNone && decide (f.ready ≤ (s.stack t.stack).cyc)) = true := by
    simpa using hdue
  simp [execFetchLineFill, ht, hany]

/-- The walk that is due first ends, and its accesses are made. -/
theorem execTranslationWalk_eq {s : State} {sid : Nat} {t : Strand} {w : PageWalk} (ht : s.strand? sid = some t)
    (hw : t.walks.find? (fun w => w.ended.isNone && decide (w.ready ≤ (s.stack t.stack).cyc)) = some w) :
    execTranslationWalk sid s = .next ((s.touchAll t w.phys true w.vas).modStrand sid fun u =>
      { u with walks := u.walks.map fun v => if v = w then { w with ended := some ((s.stack t.stack).cyc, u.beat) } else v }) := by
  simp [execTranslationWalk, ht, hw, State.touchAll]

/-! ## The watchdog (R70) -/

/-- The hold of a context at a rendezvous has run out: its taker gets the cause, and its clock starts again. -/
def State.outwaited (s : State) (sid cyc : Nat) (r : CRef) : State :=
  (s.raiseA sid cStall r.core r.cl (hold := true)).modStrand sid fun t =>
    t.modCl r.core r.cl fun c => { c with rdv := c.rdv.map fun d => { d with since := some cyc } }

/-- A strand has the asynchronous cause of the watchdog for a context that holds. -/
def Strand.watched (t : Strand) (r : CRef) : Prop :=
  ∃ c ∈ t.raised, c.code = 0x10 ∧ c.kind = .a ∧ c.core = r.core ∧ c.cl = r.cl ∧ c.hold = true

/-- A strand after one such hold: it has the cause, and those it had. -/
theorem State.outwaited_strand {s : State} {sid cyc : Nat} {r : CRef} {y : Strand} (hy : (s.outwaited sid cyc r).strand? sid = some y) :
    ∃ t, s.strand? sid = some t ∧ t.raised ⊆ y.raised ∧ y.watched r := by
  rw [State.outwaited, State.strand_modStrand _ _ _ (by intro t h; exact h), State.raiseA, State.strand_modStrand _ _ _ (by intro t h; exact h)] at hy
  simp only [Option.map_map, Option.map_eq_some_iff] at hy
  obtain ⟨t, ht, rfl⟩ := hy
  exact ⟨t, ht, List.subset_append_left _ _, _, List.mem_append_right _ (List.mem_singleton_self _), rfl, rfl, rfl, rfl, rfl⟩

/-- A strand after several: it has the cause of each, and those it had. -/
theorem State.outwaitedAll_strand {sid cyc : Nat} (rs : List CRef) : ∀ {s : State} {y : Strand},
    (rs.foldl (fun s r => s.outwaited sid cyc r) s).strand? sid = some y →
    ∃ t, s.strand? sid = some t ∧ t.raised ⊆ y.raised ∧ ∀ r ∈ rs, y.watched r := by
  induction rs with
  | nil => exact fun hy => ⟨_, hy, List.Subset.refl _, fun _ h => nomatch h⟩
  | cons r rs ih =>
    intro s y hy
    obtain ⟨u, hu, hsub, hall⟩ := ih hy
    obtain ⟨t, ht, hsub', c, hc, hkind⟩ := State.outwaited_strand hu
    exact ⟨t, ht, List.Subset.trans hsub' hsub, List.forall_mem_cons.2 ⟨⟨c, hsub hc, hkind⟩, hall⟩⟩

/-- Nothing but the strands changes. -/
theorem State.outwaitedAll_frame {sid cyc : Nat} (rs : List CRef) : ∀ s : State, ∃ ts,
    rs.foldl (fun s r => s.outwaited sid cyc r) s = { s with strands := ts } := by
  induction rs with
  | nil => exact fun s => ⟨_, rfl⟩
  | cons r rs ih =>
    intro s
    obtain ⟨ts, h⟩ := ih (s.outwaited sid cyc r)
    exact ⟨ts, h⟩

/-- A freeze that has lasted too long raises the precise cause of the lowest cluster. -/
theorem execStallWatchdog_freeze {s : State} {sid : Nat} {t : Strand} (ht : s.strand? sid = some t) (hrun : t.status = .run)
    (hlate : t.freezeLate (s.stack t.stack).cyc = true) : ∃ u c, execStallWatchdog sid s = .next u ∧ u = { s with strands := u.strands } ∧
      (u.strand? sid).map (·.raised) = some (t.raised ++ [c]) ∧ c.code = 0x10 ∧ c.kind = .p ∧ c.core = 0 ∧ c.cl = t.lowest := by
  have hnext : execStallWatchdog sid s = .next ((s.raiseP t cStall 0 t.lowest false 0).modStrand sid fun u =>
      { u with freeze := u.freeze.map fun f => { f with since := (s.stack t.stack).cyc } }) := by
    simp [execStallWatchdog, ht, hrun, hlate]
  have hraised : ∃ c, (((s.raiseP t cStall 0 t.lowest false 0).modStrand sid fun u =>
      { u with freeze := u.freeze.map fun f => { f with since := (s.stack t.stack).cyc } }).strand? sid).map (·.raised) =
        some (t.raised ++ [c]) ∧ c.code = 0x10 ∧ c.kind = .p ∧ c.core = 0 ∧ c.cl = t.lowest := by
    rw [State.strand_modStrand _ _ _ (by intro t h; exact h), State.raiseP, State.strand_sid ht,
      State.strand_modStrand _ _ _ (by intro t h; exact h), ht]
    exact ⟨_, rfl, rfl, rfl, rfl, rfl⟩
  obtain ⟨c, hc⟩ := hraised
  exact ⟨_, c, hnext, rfl, hc⟩

/-- Holds that have lasted too long raise the asynchronous cause of each context. -/
theorem execStallWatchdog_holds {s : State} {sid : Nat} {t : Strand} (ht : s.strand? sid = some t) (hrun : t.status = .run)
    (hnot : t.freezeLate (s.stack t.stack).cyc = false) (hlate : t.rdvLate (s.stack t.stack).cyc ≠ []) :
    execStallWatchdog sid s =
      .next ((t.rdvLate (s.stack t.stack).cyc).foldl (fun s' r => s'.outwaited sid (s.stack t.stack).cyc r) s) := by
  obtain ⟨r, rs, hrs⟩ := List.exists_cons_of_ne_nil hlate
  simp [execStallWatchdog, ht, hrun, hnot, hrs, State.outwaited]

/-! ## Declarations, regions and grants (R245 to R247, R276) -/

/-- A declaration whose beats have run out is over. -/
theorem execDeadlineLapse_eq {s : State} {sid : Nat} {t : Strand} {d : Declaration} (ht : s.strand? sid = some t) (hd : t.decl = some d)
    (hleft : d.left = 0) : execDeadlineLapse sid s = .next (s.modStrand sid fun t => { t with decl := none }) := by
  simp [execDeadlineLapse, ht, hd, hleft]

/-- The fall of a level that is due takes place. -/
theorem execRegionLevelFall_eq {s : State} {sid : Nat} {t : Strand} {b lvl : Nat} {ends : Bool} (ht : s.strand? sid = some t)
    (hf : t.fallNow = some (b, lvl, ends)) : execRegionLevelFall sid s = .next (s.modStrand sid fun u => { u with region := { u.region with
      on := !ends, level := if ends then 0 else lvl, grant := if ends then 0 else lvl,
      falls := if ends then [] else u.region.falls.filter fun f => f != (b, lvl, ends) } }) := by
  simp [execRegionLevelFall, ht, hf]

/-- Adding up loads from a first one on. -/
theorem foldl_add_eq_sum_add (xs : List Nat) (a : Nat) : xs.foldl (· + ·) a = xs.sum + a := by
  rw [Nat.add_comm, List.sum_eq_foldl, ← List.foldl_assoc (op := HAdd.hAdd), Nat.add_zero]

/-- R276: a request that can be granted needs no budget, or fits in what every other strand's level leaves of it. -/
theorem State.grantable_spec {s : State} {k sid b lvl : Nat} (h : s.grantable k = some (sid, b, lvl)) :
    ∃ t, s.strand? sid = some t ∧ (s.freeGrant t lvl = true ∨ s.withheld t lvl = false ∧
      ((s.strands.filter fun u => u.admittedOn k && u.sid != sid).map fun u => u.load16 u.level).sum + t.load16 lvl ≤
        16 * (s.stack k).budget) := by
  unfold State.grantable at h
  dsimp only at h
  split at h
  · next g hg =>
    obtain rfl : g = (sid, b, lvl) := Option.some.inj h
    have hfree := List.find?_some hg
    dsimp only at hfree
    split at hfree
    · next t ht => exact ⟨t, ht, .inl hfree⟩
    · cases hfree
  · split at h
    · cases h
    · obtain ⟨hfit, hg⟩ := Option.ite_none_right_eq_some.1 h
      obtain rfl := Option.some.inj hg
      cases ht : s.strand? sid with
      | none => simp [ht] at hfit
      | some t =>
        simp only [ht, foldl_add_eq_sum_add, Bool.and_eq_true, Bool.not_eq_true', decide_eq_true_eq] at hfit
        exact ⟨t, rfl, .inr hfit⟩

/-- The governor grants it. -/
theorem execPowerGrant_eq {s : State} {k sid b lvl : Nat} (h : s.grantable k = some (sid, b, lvl)) :
    execPowerGrant k s = .next (s.modStrand sid fun t => { t with region := { t.region with
      grant := max t.region.grant lvl, reqs := t.region.reqs.map fun q =>
        if q.1 = b ∧ q.2.1 = lvl ∧ q.2.2.2 = none then (q.1, q.2.1, q.2.2.1, some (s.stack k).cyc) else q } }) := by
  simp [execPowerGrant, h, and_assoc]

/-- Settles O43: one lemma per event, from what is said of its occasion. -/
theorem freezesAndRegionsEnd : Obligations.FreezesAndRegionsEnd := by
  refine ⟨fun s sid t ht => ⟨?resume, ?fill, ?walk, ?freeze, ?holds, ?lapse, ?fall⟩, ?grant⟩
  case resume => exact execElasticWaitResume_eq ht
  case fill =>
    exact execFetchLineFill_eq ht
  case walk =>
    intro w hw
    obtain ⟨ks, ts, es, htouch⟩ := State.touchAll_spec t w.phys true w.vas s
    refine ⟨_, execTranslationWalk_eq ht hw, ?_, ?_⟩
    · rw [htouch]; rfl
    · rw [htouch, State.strand_modStrand _ _ _ (by intro t h; exact h)]
      exact congrArg (Option.map _) ht
  case freeze => exact execStallWatchdog_freeze ht
  case holds =>
    intro hrun hnot hlate
    obtain ⟨ts, hframe⟩ := State.outwaitedAll_frame (sid := sid) (cyc := (s.stack t.stack).cyc) (t.rdvLate (s.stack t.stack).cyc) s
    refine ⟨_, execStallWatchdog_holds ht hrun hnot hlate, by rw [hframe], fun r hr y hy => ?_⟩
    obtain ⟨_, _, _, hall⟩ := State.outwaitedAll_strand _ hy
    exact hall r hr
  case lapse => exact fun d => execDeadlineLapse_eq ht
  case fall =>
    exact fun b lvl ends => execRegionLevelFall_eq ht
  case grant => exact fun s k sid b lvl h => ⟨execPowerGrant_eq h, State.grantable_spec h⟩

end Sys2Proof.Machine
end

section
/-! What a commit window leaves as it was (R56, R58, R92): memory, the windows and departures of the stacks, and which strands have ended. -/

namespace Sys2Proof.Machine

/-! ## Sorted lists -/

/-- An inserted list has the new element and the old ones. -/
theorem mem_insertBy {α : Type} {le : α → α → Bool} {x y : α} {xs : List α} : y ∈ insertBy le x xs ↔ y = x ∨ y ∈ xs := by
  induction xs with
  | nil => simp [insertBy]
  | cons z zs ih =>
    unfold insertBy
    split
    · simp only [List.mem_cons, ih, or_left_comm]
    · simp only [List.mem_cons]

/-- A sorted list has the elements of the list. -/
@[simp] theorem mem_sortBy {α : Type} {le : α → α → Bool} {y : α} {xs : List α} : y ∈ sortBy le xs ↔ y ∈ xs := by
  have hfold (acc : List α) : y ∈ xs.foldl (fun acc x => insertBy le x acc) acc ↔ y ∈ xs ∨ y ∈ acc := by
    induction xs generalizing acc with
    | nil => simp
    | cons x xs ih => simp only [List.foldl_cons, ih, mem_insertBy, List.mem_cons, or_assoc, or_left_comm]
  simpa [sortBy] using hfold []

/-! ## The frame -/

/-- What the decisions of a window and the lookups they begin leave as it was: memory, the windows and departures of the stacks, and
the strands that have ended, of which none is new. -/
structure State.WindowFrame (s t : State) : Prop where
  mem : t.mem = s.mem
  flight : t.flight = s.flight
  poison : t.poison = s.poison
  window : ∀ k, (t.stack k).window = (s.stack k).window
  departed : ∀ k, (t.stack k).departed = (s.stack k).departed
  ended : ∀ x ∈ t.strands, x.status = .ended → ∃ y ∈ s.strands, y.status = .ended ∧ y.stack = x.stack

namespace State.WindowFrame

variable {s t u : State}

theorem refl (s : State) : s.WindowFrame s := ⟨rfl, rfl, rfl, fun _ => rfl, fun _ => rfl, fun x hx he => ⟨x, hx, he, rfl⟩⟩

theorem trans (h : s.WindowFrame t) (h' : t.WindowFrame u) : s.WindowFrame u where
  mem := h'.mem.trans h.mem
  flight := h'.flight.trans h.flight
  poison := h'.poison.trans h.poison
  window k := (h'.window k).trans (h.window k)
  departed k := (h'.departed k).trans (h.departed k)
  ended x hx he := by
    obtain ⟨y, hy, hye, hyx⟩ := h'.ended x hx he
    obtain ⟨z, hz, hze, hzy⟩ := h.ended y hy hye
    exact ⟨z, hz, hze, hzy.trans hyx⟩

/-- Steps that each keep the frame keep it in turn; `p` reads the state out of what the steps carry. -/
theorem foldl {α β : Type} (p : β → State) {f : β → α → β} (hf : ∀ b a, (p b).WindowFrame (p (f b a))) (xs : List α) :
    ∀ b, (p b).WindowFrame (p (xs.foldl f b)) := by
  induction xs with
  | nil => exact fun b => refl (p b)
  | cons x xs ih => exact fun b => (hf b x).trans (ih (f b x))

/-- Changes of anything else keep it. -/
theorem of_others (hmem : t.mem = s.mem) (hflight : t.flight = s.flight) (hpoison : t.poison = s.poison) (hstks : t.stks = s.stks)
    (hstrands : t.strands = s.strands) : s.WindowFrame t where
  mem := hmem
  flight := hflight
  poison := hpoison
  window k := by rw [State.stack, hstks, State.stack]
  departed k := by rw [State.stack, hstks, State.stack]
  ended x hx he := ⟨x, hstrands ▸ hx, he, rfl⟩

/-- So does a change of a stack that keeps its window and its departures. -/
theorem modStack (s : State) (j : Nat) {f : Stack → Stack} (hw : (f (s.stack j)).window = (s.stack j).window)
    (hd : (f (s.stack j)).departed = (s.stack j).departed) : s.WindowFrame (s.modStack j f) := by
  have hstack (k : Nat) : ((s.modStack j f).stack k).window = (s.stack k).window ∧
      ((s.modStack j f).stack k).departed = (s.stack k).departed := by
    by_cases hjk : j = k
    · subst hjk
      by_cases hj : j < 4
      · rw [State.stack_modStack s f hj]
        exact ⟨hw, hd⟩
      · simp [State.stack, vget_vset, hj]
    · rw [State.stack_modStack_ne s f hjk]
      exact ⟨rfl, rfl⟩
  exact ⟨rfl, rfl, rfl, fun k => (hstack k).1, fun k => (hstack k).2, fun x hx he => ⟨x, hx, he, rfl⟩⟩

/-- So does a change of the strands that leaves each where it stands, and as it stands. -/
theorem mapStrands (s : State) {g : Strand → Strand} (hg : ∀ t, (g t).status = t.status ∧ (g t).stack = t.stack) :
    s.WindowFrame { s with strands := s.strands.map g } := by
  refine ⟨rfl, rfl, rfl, fun _ => rfl, fun _ => rfl, fun x hx he => ?_⟩
  obtain ⟨y, hy, rfl⟩ := List.mem_map.1 hx
  exact ⟨y, hy, (hg y).1.symm.trans he, (hg y).2.symm⟩

theorem modStrand (s : State) (sid : Nat) {f : Strand → Strand} (hf : ∀ t, (f t).status = t.status ∧ (f t).stack = t.stack) :
    s.WindowFrame (s.modStrand sid f) := by
  refine mapStrands s fun t => ?_
  split
  · exact hf t
  · exact ⟨rfl, rfl⟩

/-- So does one that takes strands off. -/
theorem filterStrands (s : State) (p : Strand → Bool) : s.WindowFrame { s with strands := s.strands.filter p } :=
  ⟨rfl, rfl, rfl, fun _ => rfl, fun _ => rfl, fun x hx he => ⟨x, (List.mem_filter.1 hx).1, he, rfl⟩⟩

/-- So does one that adds a strand that has not ended. -/
theorem addStrand (s : State) {x : Strand} (hx : x.status ≠ .ended) : s.WindowFrame { s with strands := s.strands ++ [x] } := by
  refine ⟨rfl, rfl, rfl, fun _ => rfl, fun _ => rfl, fun y hy he => ?_⟩
  rcases List.mem_append.1 hy with hy | hy
  · exact ⟨y, hy, he, rfl⟩
  · exact absurd he (List.mem_singleton.1 hy ▸ hx)

end State.WindowFrame

/-! ## Where a strand stands -/

/-- A change of cluster contexts leaves a strand where and as it stands. -/
theorem Strand.mapCl_stands (t : Strand) (f : Cluster → Cluster) : (t.mapCl f).status = t.status ∧ (t.mapCl f).stack = t.stack := by
  have hfold (rs : List CRef) : ∀ u : Strand, (rs.foldl (fun t r => t.modCl r.core r.cl f) u).status = u.status ∧
      (rs.foldl (fun t r => t.modCl r.core r.cl f) u).stack = u.stack := by
    induction rs with
    | nil => exact fun _ => ⟨rfl, rfl⟩
    | cons r rs ih => exact fun u => ih (u.modCl r.core r.cl f)
  exact hfold t.contexts t

/-- So does giving up the lines on their way. -/
theorem Strand.dropFills_stands (t : Strand) : t.dropFills.status = t.status ∧ t.dropFills.stack = t.stack := by
  unfold Strand.dropFills
  generalize (t.fills.filter fun f => f.ended.isNone).flatMap (·.lines) = ls
  induction ls generalizing t with
  | nil => exact ⟨rfl, rfl⟩
  | cons l ls ih =>
    rw [List.foldl_cons]
    split
    · exact ih _
    · exact ih _

/-- So does a new lattice. -/
theorem Strand.setFlip_stands (t : Strand) (c : Nat) (l : Nat × Nat) (always : Bool) :
    (t.setFlip c l always).status = t.status ∧ (t.setFlip c l always).stack = t.stack := by
  unfold Strand.setFlip
  split
  · exact ⟨rfl, rfl⟩
  · split <;> exact ⟨rfl, rfl⟩

/-! ## Lookups (R91, R92) -/

namespace State.WindowFrame

theorem tlbFill (s : State) (k c ctx : Nat) (p : Page) : s.WindowFrame (s.tlbFill k c ctx p) := by
  unfold State.tlbFill
  exact modStack s k rfl rfl

theorem cacheLine (s : State) (k c b : Nat) : s.WindowFrame (s.cacheLine k c b) := by
  unfold State.cacheLine
  split
  · exact refl s
  · exact modStack s k rfl rfl

theorem noteUse (s : State) (task : Nat) (us : List HwUnit) : s.WindowFrame (s.noteUse task us) := of_others rfl rfl rfl rfl rfl

theorem fetchL1 {s t : State} {r : CoreRef} {n : Nat} {bs : List Byte} (h : s.fetchL1 r n = some (t, bs)) : s.WindowFrame t := by
  unfold State.fetchL1 at h
  split at h
  · cases h
  · split at h
    · cases h
    · split at h
      · cases h
      · split at h
        · obtain rfl := congrArg Prod.fst (Option.some.inj h)
          exact refl s
        · obtain rfl := congrArg Prod.fst (Option.some.inj h)
          refine trans ?_ (modStrand _ r.strand fun t => ⟨rfl, rfl⟩)
          split
          · exact ((tlbFill ..).trans (cacheLine ..)).trans (noteUse ..)
          · exact refl s

theorem fetchInL0 {s t : State} {r : CRef} {n : Nat} (h : s.fetchInL0 r n = some t) : s.WindowFrame t := by
  unfold State.fetchInL0 at h
  split at h
  · cases h
  · next hl1 =>
    obtain rfl := Option.some.inj h
    exact (fetchL1 hl1).trans (modStrand _ r.strand fun t => ⟨rfl, rfl⟩)

theorem lookUp (r : CRef) (pc : Nat) (ls : Cluster → List Line) (n : Nat) :
    ∀ (s : State) (missed : Bool), s.WindowFrame (s.lookUp r pc ls n missed).1 := by
  induction n with
  | zero => exact fun s _ => refl s
  | succ n ih =>
    intro s missed
    unfold State.lookUp
    split
    · exact refl s
    · split
      · split
        · next hl0 => exact (fetchInL0 hl0).trans (ih ..)
        · exact refl s
      · exact refl s

theorem beginFill (s : State) (sid beat : Nat) (lines : List (Nat × Option Nat × Nat)) : s.WindowFrame (s.beginFill sid beat lines) :=
  (of_others rfl rfl rfl rfl rfl : s.WindowFrame s.fresh.2).trans (modStrand _ sid fun _ => ⟨rfl, rfl⟩)

theorem lookWalk (r : CRef) (from_ : Nat) (free : Option Nat) (n : Nat) : ∀ (s : State) (k : Nat) (qs : List (Seq × Bool)) (y : Nat),
    s.WindowFrame (s.lookWalk r from_ free k qs y n) := by
  induction n with
  | zero => exact fun s _ _ _ => refl s
  | succ n ih =>
    intro s k qs y
    unfold State.lookWalk
    split
    · exact refl s
    · split
      · exact ih ..
      · extract_lets u s1 c
        have hu : s.WindowFrame u.1 := by
          unfold u
          split
          · exact foldl Prod.fst (fun _ _ => lookUp ..) qs (s, false)
          · split
            · exact foldl id (fun _ _ => lookUp ..) qs s
            · exact refl s
        refine trans ?_ (ih ..)
        unfold s1
        split
        · exact hu.trans (beginFill ..)
        · exact hu

theorem lookAhead (s : State) (sid from_ : Nat) : s.WindowFrame (s.lookAhead sid from_) := by
  unfold State.lookAhead
  split
  · exact refl s
  · exact foldl id (fun _ _ => lookWalk ..) _ s

theorem lookStart (s : State) (sid : Nat) : s.WindowFrame (s.lookStart sid) := by
  unfold State.lookStart
  split
  · exact refl s
  · refine trans (modStrand s sid fun t => ?_) (lookAhead ..)
    exact t.mapCl_stands _

theorem rewalk (t : Strand) (ws : List PageWalk) : ∀ s : State, s.WindowFrame (s.rewalk t ws) := by
  induction ws with
  | nil => exact refl
  | cons w ws ih =>
    intro s
    unfold State.rewalk
    split
    · exact ih s
    · refine trans (trans (of_others rfl rfl rfl rfl rfl : s.WindowFrame s.fresh.2) ?_) (ih _)
      exact modStrand _ t.sid fun _ => ⟨rfl, rfl⟩

theorem afresh (s : State) (sid : Nat) : s.WindowFrame (s.afresh sid) := by
  unfold State.afresh
  split
  · exact refl s
  · refine trans (trans (modStrand s sid fun t => ?_) (lookStart ..)) (rewalk ..)
    exact t.dropFills_stands

/-! ## Admissions (R22, R27, R58, R61, R64) -/

theorem refuseLaunch (s : State) (l : Launch) (num status : Nat) : s.WindowFrame (s.refuseLaunch l num status) := by
  unfold State.refuseLaunch
  split
  · exact refl s
  · exact of_others rfl rfl rfl rfl rfl

theorem nodeEnded (s : State) (l : Launch) (status : Nat) : s.WindowFrame (s.nodeEnded l status) := by
  unfold State.nodeEnded
  split
  · exact of_others rfl rfl rfl rfl rfl
  · exact refl s

theorem commitTrial (s : State) (k c : Nat) (w : List Strand) : s.WindowFrame (s.commitTrial k c w) := by
  refine foldl id (fun s t => ?_) w s
  dsimp only [id]
  split
  · exact refl s
  · split
    · exact refl s
    · refine modStrand s t.sid fun u => ?_
      split
      · exact u.setFlip_stands c t.lattice false
      · exact ⟨rfl, rfl⟩

theorem admitStrand (s : State) (l : Launch) (h : Header) (task logidx : Nat) (f : Flip) (p : Placed) :
    s.WindowFrame (s.admitStrand l h task logidx f p) :=
  trans (u := s.admitStrand l h task logidx f p) (addStrand s (show Status.placed ≠ .ended by decide)) (of_others rfl rfl rfl rfl rfl)

theorem admitTask (s : State) (k c : Nat) (w : Waiting) (ps : List Placed) : s.WindowFrame (s.admitTask k c w ps) := by
  unfold State.admitTask
  extract_lets l r0 r fs first s1 task redo s2 s3
  have h1 : s.WindowFrame s1 := foldl id (fun _ _ => admitStrand ..) _ s
  have h2 : s1.WindowFrame s2 := of_others rfl rfl rfl rfl rfl
  have h3 : s2.WindowFrame s3 := foldl id (fun _ _ => lookStart ..) _ s2
  refine (h1.trans (h2.trans h3)).trans ?_
  split
  · exact refl s3
  · exact of_others rfl rfl rfl rfl rfl

theorem admitImage (s : State) (k c : Nat) (w : Waiting) (t : Strand) (p : Placed) : s.WindowFrame (s.admitImage k c w t p) := by
  unfold State.admitImage
  extract_lets f t' ran
  refine trans (trans (addStrand s (x := t') (show Status.placed ≠ .ended by decide)) ?_) (afresh ..)
  exact of_others rfl rfl rfl rfl rfl

theorem admitFrom (k c part : Nat) (ws : List Waiting) : ∀ (s : State) (first closed : Bool),
    s.WindowFrame (s.admitFrom k c part first closed ws) := by
  induction ws with
  | nil => exact fun s _ _ => refl s
  | cons w ws ih =>
    intro s first closed
    unfold State.admitFrom
    split
    · next r _ =>
      refine trans (trans (commitTrial s k c r.2) ?_) (ih ..)
      split
      · split
        · exact admitImage ..
        · exact refl _
      · exact admitTask ..
    · split
      · refine trans (trans (trans ?_ (refuseLaunch ..)) (nodeEnded ..)) (ih ..)
        exact of_others rfl rfl rfl rfl rfl
      · split
        · exact ih ..
        · split
          · exact (of_others rfl rfl rfl rfl rfl : s.WindowFrame (s.reserveFor w.num)).trans (ih ..)
          · exact ih ..

/-! ## Departures, speed-ups, molts and flips (R56, R58, R65, R66) -/

theorem releaseStrand (s : State) (t : Strand) (cyc : Nat) : s.WindowFrame (s.releaseStrand t cyc) := by
  unfold State.releaseStrand
  refine trans ?_ (modStack _ t.stack rfl rfl)
  exact filterStrands s _

theorem departures (s : State) (k c : Nat) : s.WindowFrame (s.departures k c) := foldl id (fun _ _ => releaseStrand ..) _ s

theorem setFlip (s : State) (sid c : Nat) (l : Nat × Nat) : s.WindowFrame (s.setFlip sid c l) :=
  modStrand s sid fun t => t.setFlip_stands c l false

theorem speedUps (s : State) (k c : Nat) : s.WindowFrame (s.speedUps k c) := by
  refine foldl id (fun s t => ?_) _ s
  dsimp only [id]
  split
  · exact setFlip ..
  · exact refl s

theorem moltRequests (s : State) (k c : Nat) (ts : List Strand) : s.WindowFrame (s.moltRequests k c ts) := by
  refine foldl id (fun s t => ?_) _ s
  dsimp only [id]
  split
  · exact refl s
  · split
    · exact modStrand s t.sid fun _ => ⟨rfl, rfl⟩
    · split
      · exact modStrand s t.sid fun _ => ⟨rfl, rfl⟩
      · refine trans ?_ (modStrand _ t.sid fun _ => ⟨rfl, rfl⟩)
        exact modStrand s t.sid fun u => u.setFlip_stands ..

theorem takeDecided (s : State) (k c : Nat) : s.WindowFrame (s.takeDecided k c) := by
  refine mapStrands s fun t => ?_
  split
  · exact ⟨rfl, rfl⟩
  · split
    · exact t.setFlip_stands ..
    · exact ⟨rfl, rfl⟩

theorem flipTogether (s : State) (k c : Nat) : s.WindowFrame (s.flipTogether k c) := by
  refine mapStrands s fun t => ?_
  split <;> exact ⟨rfl, rfl⟩

end State.WindowFrame

/-! ## The commit window (R58) -/

/-- A strand that is released leaves the device. -/
@[simp] theorem State.releaseStrand_strands (s : State) (t : Strand) (c : Nat) :
    (s.releaseStrand t c).strands = s.strands.filter fun u => u.sid != t.sid := rfl

/-- The strands left after some have been released are those of other identifiers. -/
theorem State.mem_releaseAll {c : Nat} {x : Strand} (ts : List Strand) : ∀ s : State,
    x ∈ (ts.foldl (fun s t => s.releaseStrand t c) s).strands ↔ x ∈ s.strands ∧ ∀ t ∈ ts, x.sid ≠ t.sid := by
  induction ts with
  | nil => simp
  | cons t ts ih =>
    intro s
    rw [List.foldl_cons, ih, State.releaseStrand_strands]
    simp [and_assoc]

/-- After the departures of a stack none of its strands has ended. -/
theorem State.departures_ended {s : State} {k c : Nat} {x : Strand} (hx : x ∈ (s.departures k c).strands) (hk : x.stack = k) :
    x.status ≠ .ended := by
  intro he
  obtain ⟨hs, hgone⟩ := (State.mem_releaseAll _ s).1 hx
  exact hgone x (mem_sortBy.2 (List.mem_filter.2 ⟨hs, by simp [hk, he]⟩)) rfl

/-- A window that is due commits: what it decides after the departures keeps the frame. -/
theorem execCommitWindow_spec {s : State} {k : Nat} (hk : k < 4) (hcyc : (s.stack k).cyc % 16 = 0)
    (hdue : (s.stack k).window < (s.stack k).cyc / 16) : ∃ u, execCommitWindow k s = .next u ∧
      ((s.modStack k fun t => { t with window := (s.stack k).cyc / 16, departed := [] }).departures k (s.stack k).cyc).WindowFrame u := by
  unfold execCommitWindow
  extract_lets t c gone s1 s2 stood s3 s4 go
  rw [if_neg (by simp [t, hk, hcyc, hdue])]
  refine ⟨_, rfl, ?_⟩
  have h3 : s2.WindowFrame s3 := by
    unfold s3
    split
    · exact .speedUps ..
    · exact .refl s2
  have h4 : s3.WindowFrame s4 := (State.WindowFrame.moltRequests ..).trans (.takeDecided ..)
  have h5 : s4.WindowFrame ((partsLedBy k).foldl go s4) := .foldl id (fun _ _ => .admitFrom ..) _ s4
  exact (h3.trans h4).trans (h5.trans (.flipTogether ..))

end Sys2Proof.Machine
end

section
/-! The events of the weaver, of launches and of tasks that end (R22, R57 to R60, R294, R295, R302). -/

namespace Sys2Proof.Machine

/-! ## Commit windows, flips and scrubs (R57, R58, R60) -/

/-- A commit window takes off the strands that have ended, notes itself, and writes no memory. -/
theorem execCommitWindow_effect {s : State} {k : Nat} (hk : k < 4) (hcyc : (s.stack k).cyc % 16 = 0)
    (hdue : (s.stack k).window < (s.stack k).cyc / 16) :
    ∃ u, execCommitWindow k s = .next u ∧ (u.stack k).window = (s.stack k).cyc / 16 ∧ (u.stack k).departed = [] ∧
      (∀ t ∈ u.strands, t.stack = k → t.status ≠ .ended) ∧ u.mem = s.mem ∧ u.flight = s.flight ∧ u.poison = s.poison := by
  obtain ⟨u, hnext, hframe⟩ := execCommitWindow_spec hk hcyc hdue
  have hwhole := (State.WindowFrame.departures (s.modStack k fun t => { t with window := (s.stack k).cyc / 16, departed := [] }) k
    (s.stack k).cyc).trans hframe
  refine ⟨u, hnext, ?_, ?_, fun t ht hstack hended => ?_, hwhole.mem, hwhole.flight, hwhole.poison⟩
  · rw [hwhole.window, State.stack_modStack s _ hk]
  · rw [hwhole.departed, State.stack_modStack s _ hk]
  · obtain ⟨x, hx, hxe, hxs⟩ := hframe.ended t ht hended
    exact State.departures_ended hx (hxs.trans hstack) hxe

/-- The flip of a strand has come on a stack (R56, R57). -/
def Strand.flipsBy (t : Strand) (k cyc : Nat) : Bool := t.stack == k && t.flip.any fun f => f.cyc ≤ cyc

theorem Strand.flipsBy_iff {t : Strand} {k cyc : Nat} :
    t.flipsBy k cyc = true ↔ ∃ f, t.stack = k ∧ t.flip = some f ∧ f.cyc ≤ cyc := by
  cases hf : t.flip with
  | none => simp [Strand.flipsBy, hf]
  | some f => simp [Strand.flipsBy, hf]

/-- A strand takes the lattice of a flip; a placed one begins. -/
def Strand.takesFlip (t : Strand) (f : Flip) : Strand :=
  { (if t.status = .placed then t.anew (f.cyc + f.phase) else t) with
    stride := f.stride, phase := f.phase, flip := none, nextCyc := f.cyc + f.phase,
    status := if t.status = .placed then .run else t.status, resumed := false }

/-- A strand after the flips of a stack by a cycle. -/
def Strand.flipped (t : Strand) (k cyc : Nat) : Strand := match t.flip with
  | some f => if t.stack = k ∧ f.cyc ≤ cyc then t.takesFlip f else t
  | none => t

theorem Strand.flipped_of_due {t : Strand} {k cyc : Nat} {f : Flip} (h : t.stack = k ∧ t.flip = some f ∧ f.cyc ≤ cyc) :
    t.flipped k cyc = t.takesFlip f := by
  obtain ⟨hk, hf, hc⟩ := h
  simp only [Strand.flipped, hf, hk, hc, and_self, if_true]

theorem Strand.flipped_of_not_due {t : Strand} {k cyc : Nat} (h : ∀ f, ¬ (t.stack = k ∧ t.flip = some f ∧ f.cyc ≤ cyc)) :
    t.flipped k cyc = t := by
  unfold Strand.flipped
  split
  · next f hf => exact if_neg fun hdue => h f ⟨hdue.1, hf, hdue.2⟩
  · rfl

/-- A flip gives the strands whose cycle has come their lattices, and those of them that were placed look at their waits. -/
theorem execWeaveFlip_eq {s : State} {k : Nat} (h : ∃ t ∈ s.strands, t.flipsBy k (s.stack k).cyc = true) :
    execWeaveFlip k s = .next ((s.strands.filter fun t => t.flipsBy k (s.stack k).cyc && t.status == .placed).foldl
      (fun s t => s.lookWaitsAfresh t.sid) { s with strands := s.strands.map (·.flipped k (s.stack k).cyc) }) := by
  unfold execWeaveFlip
  extract_lets cyc due go one back
  have hdue : due = fun t => t.flipsBy k cyc := by
    funext t
    unfold due Strand.flipsBy
    cases t.flip <;> rfl
  have hgo (t : Strand) (f : Flip) : go t f = t.takesFlip f := by
    unfold go Strand.takesFlip
    by_cases hp : t.status = .placed <;> simp [hp]
  have hone : one = (·.flipped k cyc) := by
    funext t
    unfold one Strand.flipped
    rw [hdue]
    cases hf : t.flip with
    | none => simp
    | some f => simp [Strand.flipsBy, hf, hgo]
  have hback : back = s.strands.filter fun t => t.flipsBy k cyc && t.status == .placed := by
    unfold back
    rw [hdue]
  have hany : s.strands.any due = true := by
    rw [hdue]
    exact List.any_eq_true.2 h
  rw [hany, hone, hback]
  rfl

/-- A scrub that has ended is over. -/
theorem execScrubComplete_eq {s : State} {k : Nat} (h : ∃ x ∈ (s.stack k).scrubs, x.stop ≤ (s.stack k).cyc) :
    execScrubComplete k s = .next (s.modStack k fun t => { t with scrubs := t.scrubs.filter fun x => decide (t.cyc < x.stop) }) := by
  have hany : ((s.stack k).scrubs.any fun x => decide (x.stop ≤ (s.stack k).cyc)) = true := by simpa using h
  simp only [execScrubComplete, hany, if_true, ← decide_not, Nat.not_le]

/-! ## Retirement (R294, R295) -/

/-- A strand that retires has no elastic store or atomic left. -/
theorem Strand.retires_sq {t : Strand} (h : t.retires = true) : ∀ r ∈ t.contexts, (t.clusterAt r.core r.cl).sq.entries = [] := by
  intro r hr
  simp only [Strand.retires, Bool.and_eq_true, List.all_eq_true, List.isEmpty_iff] at h
  obtain ⟨-, hctx⟩ := h
  obtain ⟨⟨⟨⟨-, -⟩, hsq⟩, -⟩, -⟩ := hctx r hr
  exact hsq

/-- Where no entry of a store queue is left, nothing has still to complete. -/
theorem State.finishElastic_of_empty {s : State} {t : Strand} (h : ∀ r ∈ t.contexts, (t.clusterAt r.core r.cl).sq.entries = []) :
    s.finishElastic t = s := by
  unfold State.finishElastic
  generalize t.contexts = rs at h
  induction rs with
  | nil => rfl
  | cons r rs ih =>
    obtain ⟨hr, hrs⟩ := List.forall_mem_cons.1 h
    rw [List.foldl_cons, hr, List.foldl_nil]
    exact ih hrs

/-- A strand with nothing left to complete ends: its task notes it, and it departs. -/
theorem State.endStrand_of_finished {s : State} {sid : Nat} {t : Strand} {fault : Option (Nat × Nat × Nat × Nat)}
    (ht : s.strand? sid = some t) (hdone : s.finishElastic t = s) : s.endStrand sid fault =
      ((s.noteEnd t fault).modStrand sid fun t => { t with status := .ended, freeze := none, raised := [], taking := [] }).modStack t.stack
        fun k => { k with departed := k.departed ++ [sid] } := by
  simp only [State.endStrand, ht, hdone]

/-- A strand retires. -/
theorem execStrandRetire_effect {s : State} {sid : Nat} {t : Strand} (ht : s.strand? sid = some t) (hret : t.retires = true) :
    ∃ u, execStrandRetire sid s = .next u ∧
      (u.strand? sid).map (fun y => (y.status, y.digest)) = some (.ended, t.digest) ∧ u.mem = s.mem ∧ u.flight = s.flight ∧
      u.tasks = s.tasks.map (fun k => if k.num = t.task then
        { k with strands := k.strands.filter (fun x => decide (x ≠ sid)), digests := k.digests ++ [(t.logidx, t.digest)],
                 faults := k.faults ++ t.haltFault.toList, record := { k.record with stop := BitVec.ofNat 64 s.wtime } } else k) ∧
      (t.stack < 4 → sid ∈ (u.stack t.stack).departed) := by
  have hend := State.endStrand_of_finished (fault := t.haltFault) ht (State.finishElastic_of_empty (Strand.retires_sq hret))
  have hnext : execStrandRetire sid s = .next (s.endStrand sid t.haltFault) := by
    simp only [execStrandRetire, ht, hret, if_true]
  refine ⟨_, hnext, ?_, ?_, ?_, ?_, fun hstack => ?_⟩ <;> rw [hend]
  · have hnote : (s.noteEnd t t.haltFault).strand? sid = some t := ht
    change (State.strand? (State.modStrand _ sid _) sid).map _ = _
    rw [State.strand_modStrand _ _ _ (by intro t h; exact h), hnote]
    rfl
  · rfl
  · rfl
  · simp [State.noteEnd, State.strand_sid ht, bne, Bool.beq_eq_decide_eq]
  · rw [State.stack_modStack _ _ hstack]
    exact List.mem_append_right _ (List.mem_singleton_self sid)

/-! ## Ageing and reservation (R22) -/

/-- A launch that has waited long enough rises a class. -/
theorem execLaunchAgeing_eq {s : State} {n : Nat} (h : ∃ w ∈ s.waiting, w.num = n ∧ 0 < w.cls ∧ w.raisedAt + 1000000 ≤ s.wtime) :
    execLaunchAgeing n s = .next { s with waiting := s.waiting.map fun w =>
      if w.num = n then { w with cls := w.cls - 1, raisedAt := w.raisedAt + 1000000 } else w } := by
  have hany : (s.waiting.any fun w => w.num == n && decide (0 < w.cls) && decide (w.raisedAt + 1000000 ≤ s.wtime)) = true := by
    simpa [and_assoc] using h
  simp only [execLaunchAgeing, hany, if_true, beq_iff_eq]

/-- The first launch of a partition that may take the reservation takes it. -/
theorem execLaunchReservation_eq {s : State} {part : Nat} {w : Waiting} {ws : List Waiting} (hw : s.waitingOn part = w :: ws)
    (hnone : ∀ x ∈ w :: ws, x.reserve = false) (hmay : w.launch.serial = true ∨ w.accepted + 4000000 ≤ s.wtime) :
    execLaunchReservation part s = .next { s with waiting := s.waiting.map fun x =>
      if x.num = w.num then { x with reserve := true } else x } := by
  have hany : (w :: ws).any (·.reserve) = false := by simpa using hnone
  have hres : s.reservable part = some w := by simp [State.reservable, hw, hany, hmay]
  simp only [execLaunchReservation, hres, State.reserveFor, beq_iff_eq]

/-! ## Digest checks (R302) -/

/-- The mismatching task with a number, of which no run waits or is open. -/
def State.mismatched (s : State) (n : Nat) (t : Task) : Prop :=
  s.tasks.find? (fun t => t.num == n && t.expected.isSome && !s.redoing n) = some t

/-- A mismatching task that has not run twice more, and that its partition cannot hold serialised, is refused. -/
theorem execDigestReexecution_refused {s : State} {n : Nat} {t : Task} (ht : s.mismatched n t) (hruns : t.runs.length < 2)
    (hfit : s.noFootprint (s.partOf t.launch.ctx) t.hdr.fp true t.launch.count = true) :
    execDigestReexecution n s = .next (s.closeTask t { t.record with status := 3, detail := 0 }) := by
  unfold execDigestReexecution
  rw [show s.tasks.find? _ = _ from ht]
  dsimp only
  split
  · next h => simp [h] at hruns
  · rw [if_pos hfit]

/-- One that it can hold waits to run again. -/
theorem execDigestReexecution_again {s : State} {n : Nat} {t : Task} (ht : s.mismatched n t) (hruns : t.runs.length < 2)
    (hfit : s.noFootprint (s.partOf t.launch.ctx) t.hdr.fp true t.launch.count = false) :
    ∃ w : Waiting, execDigestReexecution n s = .next { s with waiting := s.waiting ++ [w], nextNum := s.nextNum + 1 } ∧
      w.launch = { t.launch with from_ := .redo n, serial := true, noWait := false } ∧ w.hdr = t.hdr ∧ w.image = none := by
  unfold execDigestReexecution
  rw [show s.tasks.find? _ = _ from ht]
  dsimp only
  split
  · next h => simp [h] at hruns
  · rw [hfit]
    exact ⟨_, rfl, rfl, rfl, rfl⟩

/-- One that has run twice more is classified. -/
theorem execDigestReexecution_classified {s : State} {n : Nat} {t : Task} {a b want : W64} {rest : List W64} (ht : s.mismatched n t)
    (hruns : t.runs = a :: b :: rest) (hwant : t.expected = some want) :
    let r := classify want a b t.errors (t.errors || t.redoErrors)
    execDigestReexecution n s = .next (s.closeTask t { t.record with status := r.1, detail := r.2 }) := by
  simp only [execDigestReexecution, show s.tasks.find? _ = _ from ht, hruns, hwant, Option.getD_some]

/-- R302: what two more runs say of a mismatch. -/
theorem classify_eq (want a b : W64) (firstErr redoErr : Bool) : classify want a b firstErr (firstErr || redoErr) =
    if a ≠ b then (13, 1) else if a = want then (if firstErr then (15, 2) else (14, 3)) else if firstErr || redoErr then (15, 4) else (13, 5) := by
  simp only [classify, bne_iff_ne, beq_iff_eq]

/-- Settles O46: one lemma per event, from what is said of its occasion. -/
theorem weaverEvents : Obligations.WeaverEvents := by
  refine ⟨?window, ?flip, ?scrub, ?retire, ?ageing, ?reservation, ?again⟩
  case window => exact fun s k hk hcyc hdue => execCommitWindow_effect hk hcyc hdue
  case flip =>
    intro s k due hdue
    have hby (t : Strand) : t.flipsBy k (s.stack k).cyc = true ↔ ∃ f, due t f := Strand.flipsBy_iff
    refine ⟨(·.flipped k (s.stack k).cyc), _, execWeaveFlip_eq ?_, fun t => ?_, fun t => ⟨fun f hf => ?_, fun hnot => ?_⟩⟩
    · simpa only [hby] using hdue
    · rw [List.mem_filter, Bool.and_eq_true, hby, beq_iff_eq, and_comm (a := ∃ f, due t f)]
    · exact Strand.flipped_of_due hf
    · exact Strand.flipped_of_not_due hnot
  case scrub => exact fun s k => execScrubComplete_eq
  case retire => exact fun s sid t => execStrandRetire_effect
  case ageing => exact fun s n => execLaunchAgeing_eq
  case reservation => exact fun s part w ws => execLaunchReservation_eq
  case again =>
    intro s n t want ht hwant fits
    refine ⟨fun hruns hfit => execDigestReexecution_refused ht hruns (by simpa [fits] using hfit),
      fun hruns hfit => execDigestReexecution_again ht hruns hfit, fun a b rest hruns => ?_⟩
    have h := execDigestReexecution_classified ht hruns hwant
    rw [classify_eq] at h
    exact h

end Sys2Proof.Machine
end

section
/-! What a packet at the head of a queue does (R32 to R38, R40, R44, R49, R277). -/

namespace Sys2Proof.Machine

/-! ## A queue that has passed a packet (R32, R44) -/

/-- The queue belongs to the context it belonged to. -/
@[simp] theorem State.qctx_pass (s : State) (q : QRef) (n : Nat) : (s.pass q n).qctx q = s.qctx q := by
  cases q with
  | device c => rfl
  | host k =>
    by_cases hk : k < 64
    · simp [State.qctx, State.pass, hk]
    · simp [State.qctx, State.pass, State.queue, vget_vset, hk]

@[simp] theorem State.wtime_pass (s : State) (q : QRef) (n : Nat) : (s.pass q n).wtime = s.wtime := by cases q <;> rfl
@[simp] theorem State.after_pass (s : State) (q : QRef) (n : Nat) : (s.pass q n).after = s.after := by cases q <;> rfl

/-- Of its context at most the device queue's Head has moved. -/
theorem State.ctx_pass {s : State} {q : QRef} {c : Context} (n : Nat) (hc : s.ctx? (s.qctx q) = some c) :
    ∃ head, (s.pass q n).ctx? (s.qctx q) = some { c with dqHead := head } := by
  cases q with
  | host k => exact ⟨c.dqHead, hc⟩
  | device k =>
    rw [State.qctx] at hc
    refine ⟨c.dqHead + BitVec.ofNat 32 n, (State.ctx_modCtx s k _ ?_).trans (by rw [hc]; rfl)⟩
    exact fun _ h => h

/-- A halted host queue, and every other. -/
theorem State.queue_haltQueue (s : State) (n cause : Nat) (at_ : W32) (acc : Bool) (m : Nat) :
    (s.haltQueue n cause at_ acc).queue m = if n = m ∧ n < 64 then
      { s.queue m with halted := true, cause, where_ := at_, accepted := acc, wait := none, read := none } else s.queue m := by
  change vget (vset s.queues n _) m HostQueue.reset = _
  rw [vget_vset]
  split
  · next h => rw [h.1]; rfl
  · rfl

/-! ## Packets (R33 to R38) -/

/-- Where a task fits on an empty partition depends on the state by where one strand does. -/
theorem State.placeTask_congr {s t : State} (h : t.placeStrand = s.placeStrand) (test : Bool) (stks : List Nat) (a : Ask) (n : Nat) :
    ∀ w, t.placeTask test stks a w n = s.placeTask test stks a w n := by
  induction n with
  | zero => exact fun _ => rfl
  | succ n ih =>
    intro w
    simp only [State.placeTask, h, ih]

/-- The number of the next launch does not matter to it. -/
theorem State.noFootprint_nextNum (s : State) (num part : Nat) (fp : Footprint) (serial : Bool) (count : Nat) :
    ({ s with nextNum := num } : State).noFootprint part fp serial count = s.noFootprint part fp serial count :=
  congrArg Option.isNone (State.placeTask_congr (s := s) (t := { s with nextNum := num }) rfl ..)

/-- A launch whose image can be read and whose footprint its partition holds enters the waiting set. -/
theorem State.enterLaunch_of_fits {s : State} {l : Launch} {h : Header} {c : Context} (hh : s.readHeader l.ctx l.image l.param = some h)
    (hfit : s.noFootprint (s.partOf l.ctx) h.fp l.serial l.count = false) (hc : s.ctx? l.ctx = some c) :
    s.enterLaunch l = { s with
      nextNum := s.nextNum + 1
      waiting := s.waiting ++ [{ num := s.nextNum, launch := l, cls := max l.cls c.floor, accepted := s.wtime, raisedAt := s.wtime,
                                 hdr := h, image := none, reserve := false }] } := by
  have hh' : ({ s with nextNum := s.nextNum + 1 } : State).readHeader l.ctx l.image l.param = some h := hh
  have hfit' : ({ s with nextNum := s.nextNum + 1 } : State).noFootprint
    (({ s with nextNum := s.nextNum + 1 } : State).partOf l.ctx) h.fp l.serial l.count = false :=
    (s.noFootprint_nextNum ..).trans hfit
  have hc' : ({ s with nextNum := s.nextNum + 1 } : State).ctx? l.ctx = some c := hc
  simp only [State.enterLaunch, hh', hfit', hc', Bool.false_eq_true, if_false]

/-- LAUNCH (R22, R33, R35, R38). -/
theorem execLaunch_of_fits {s : State} {q : QRef} {p : LaunchPkt} {h : Header} {c : Context} (ha : s.canAccept q = true)
    (hc : (s.pass q 2).ctx? (s.qctx q) = some c) (hh : (s.pass q 2).readHeader (s.qctx q) p.image p.param = some h)
    (hfit : (s.pass q 2).noFootprint ((s.pass q 2).partOf (s.qctx q)) h.fp p.serial p.count = false) :
    execLaunch q p s = .next { s.pass q 2 with
      nextNum := (s.pass q 2).nextNum + 1
      waiting := (s.pass q 2).waiting ++ [{
        num := (s.pass q 2).nextNum, cls := max p.cls c.floor, accepted := s.wtime, raisedAt := s.wtime, hdr := h, image := none,
        reserve := false
        launch := { ctx := s.qctx q, from_ := .packet q p.seq p.cookie, image := p.image, param := p.param, ctrbase := p.ctrbase,
                    count := p.count, det := p.det, tagck := p.tagck, serial := p.serial, noWait := p.noWait, cls := p.cls, mbx := p.mbx,
                    seed := c.topSeed } }] } := by
  rw [execLaunch, onPacket_ok _ _ ha]
  simp only [State.qctx_pass, hc]
  rw [State.enterLaunch_of_fits hh hfit hc, State.wtime_pass]

/-- QUOTA (R36, R277). -/
theorem execQuota_eq {s : State} {q : QRef} {c : Context} (p : QuotaPkt) (ha : s.canAccept q = true)
    (hc : s.ctx? (s.qctx q) = some c) :
    let out : Prop := p.energy ≠ 0 ∧ p.energy.toNat ≤ c.enused.toNat
    let u := (s.pass q 1).modCtx c.num fun c => { c with
      quota := p.energy, limit := if p.limit = 0 then 64 else p.limit, floor := p.floor, exhausted := decide out }
    execQuota q p s = .next (if out ∧ c.exhausted = false then u.raiseCtx c.num 1 else u) := by
  obtain ⟨head, hpass⟩ := State.ctx_pass 1 hc
  intro out u
  rw [execQuota, onPacket_ok _ _ ha]
  simp only [State.qctx_pass, hpass]
  have hout : (p.energy != 0 && decide (p.energy.toNat ≤ c.enused.toNat)) = decide out := by
    simp [out, bne, Bool.beq_eq_decide_eq]
  simp only [hout, beq_iff_eq, Bool.and_eq_true, decide_eq_true_eq, Bool.not_eq_true']
  rfl

/-- GRAPH (R40, R41, R49). -/
theorem execGraph_of_ok {s : State} {q : QRef} {c : Context} {p : GraphPkt} {ps : List (Nat × W64)} (ha : s.canAccept q = true)
    (hc : s.ctx? (s.qctx q) = some c) (hfree : s.ringFree c = true) (hbase : (s.pass q 1).addrOk c.num p.base false = true)
    (hpatch : p.patchCount ≠ 0 → p.patchAt.toNat % 8 = 0) (hdone : p.done ≠ 0 → (s.pass q 1).addrOk c.num p.done true = true)
    (hps : (s.pass q 1).readPatches c.num p.patchAt p.patchCount = some ps) :
    execGraph q p s = .next ({ s.pass q 1 with
      nextNum := (s.pass q 1).nextNum + 1
      replays := (s.pass q 1).replays ++ [({
        num := (s.pass q 1).nextNum, ctx := c.num, queue := q, pkt := p, patches := ps, seed := c.topSeed, started := false,
        pend := [{ node := p.entry, seed := c.topSeed, pred := 0xFFFF }], loops := [], joins := [], running := 0, ending := false,
        status := 0 } : Replay)] }.modCtx c.num fun c => { c with reserved := c.reserved + 1 }) := by
  have hgood : (!(s.pass q 1).addrOk c.num p.base false || (p.patchCount != 0 && p.patchAt.toNat % 8 != 0) ||
      (p.done != 0 && !(s.pass q 1).addrOk c.num p.done true)) = false := by
    simpa [hbase] using And.intro hpatch hdone
  simp only [execGraph, hc, hfree, onPacket_ok _ _ ha, hgood, hps, Bool.not_true, Bool.false_eq_true, if_false]

/-- R37: the two halves of a child seed. -/
theorem childSeed_halves (x : W64) (i : W32) :
    (childSeed x i).truncate 32 = kcg x i 0 0 0 0 ∧ (childSeed x i >>> 32).truncate 32 = kcg x i 0 0 0 1 := by
  unfold childSeed
  constructor <;> ext k hk <;> rw [BitVec.truncate_eq_setWidth, BitVec.getElem_setWidth]
  · rw [BitVec.getLsbD_append, if_pos hk, BitVec.getLsbD_eq_getElem]
  · rw [BitVec.getLsbD_ushiftRight, BitVec.getLsbD_append, if_neg (by omega), Nat.add_sub_cancel_left, BitVec.getLsbD_eq_getElem]

section
variable {s : State} {q : QRef} {c : Context} (ha : s.canAccept q = true) (hc : s.ctx? (s.qctx q) = some c)
include ha hc

/-! What the seed packets do with the stack, and where they fail (R37). -/

theorem execSeedpush_of_room (v : W64) (h : c.seeds.length < 16) :
    execSeedpush q v s = .next ((s.pass q 1).modCtx c.num fun c' => { c' with seeds := v :: c.seeds }) :=
  onSeeds_ok hc ha (if_neg (Nat.not_le.2 h))

theorem execSeedpush_of_full (v : W64) (h : 16 ≤ c.seeds.length) : execSeedpush q v s = .next (s.failBefore q 1 5 16) :=
  onSeeds_full hc ha (if_pos h)

theorem execSeedpop_of_cons {x : W64} {xs : List W64} (h : c.seeds = x :: xs) :
    execSeedpop q s = .next ((s.pass q 1).modCtx c.num fun c' => { c' with seeds := xs }) :=
  onSeeds_ok hc ha (by rw [h])

theorem execSeedpop_of_nil (h : c.seeds = []) : execSeedpop q s = .next (s.failBefore q 1 6 17) :=
  onSeeds_empty hc ha (by rw [h])

theorem execSeedfork_of_cons {x : W64} {xs : List W64} (i : W32) (h : c.seeds = x :: xs) (hroom : c.seeds.length < 16) :
    execSeedfork q i s = .next ((s.pass q 1).modCtx c.num fun c' => { c' with seeds := childSeed x i :: c.seeds }) :=
  onSeeds_ok hc ha (by rw [h] at hroom ⊢; exact if_neg (Nat.not_le.2 hroom))

theorem execSeedfork_of_nil (i : W32) (h : c.seeds = []) : execSeedfork q i s = .next (s.failBefore q 1 6 17) :=
  onSeeds_empty hc ha (by rw [h])

theorem execSeedfork_of_full (i : W32) (h : 16 ≤ c.seeds.length) : execSeedfork q i s = .next (s.failBefore q 1 5 16) := by
  obtain ⟨x, xs, hxs⟩ : ∃ x xs, c.seeds = x :: xs := List.exists_cons_of_length_pos (by omega)
  exact onSeeds_full hc ha (by rw [hxs] at h ⊢; exact if_pos h)

end

/-- Settles O47: one lemma per packet that reaches the state, and those of the seed stack. -/
theorem packetsTakeEffect : Obligations.PacketsTakeEffect := by
  refine ⟨fun s q ha => ⟨onPacket_ok 1 id ha, ?launch, fun c hc => ⟨fun p => execQuota_eq p ha hc, execSeedpush_of_room ha hc,
    execSeedpush_of_full ha hc, fun _ _ => execSeedpop_of_cons ha hc, fun hnil => ⟨execSeedpop_of_nil ha hc hnil,
    fun i => execSeedfork_of_nil ha hc i hnil⟩, execSeedfork_of_full ha hc, ?fork, ?graph⟩⟩, fun s n m hn => ⟨?pass, ?fail⟩⟩
  case launch =>
    intro p h c s' hctx hh hfit
    rw [State.qctx_pass] at hctx hh hfit
    exact ⟨_, execLaunch_of_fits ha hctx hh hfit, rfl, rfl, rfl, rfl, rfl, rfl, rfl, rfl, rfl, rfl, rfl, rfl, rfl, rfl, rfl, rfl, rfl⟩
  case fork =>
    intro i x xs hxs hroom
    exact ⟨childSeed x i, execSeedfork_of_cons ha hc i hxs hroom, childSeed_halves x i⟩
  case graph =>
    intro p ps hfree s' hbase hpatch hdone hps
    exact ⟨_, execGraph_of_ok ha hc hfree hbase hpatch hdone hps, rfl, rfl, rfl, rfl, rfl, rfl, rfl, rfl⟩
  case pass => exact State.queue_modQueue s _ hn
  case fail => exact (State.queue_haltQueue s n 5 _ false n).trans (if_pos ⟨rfl, hn⟩)

end Sys2Proof.Machine
end

section
/-! What a TEARDOWN ends (R45, R46). -/

namespace Sys2Proof.Machine

/-! ## What ending a strand leaves as it was (R45, R285) -/

/-- The host queues and the SETWORDs that wait are as they were; no strand is new, and none that had ended goes on. -/
structure State.EndFrame (s t : State) : Prop where
  queues : t.queues = s.queues
  after : t.after = s.after
  strands : ∀ y ∈ t.strands, ∃ x ∈ s.strands, y.sid = x.sid ∧ y.ctx = x.ctx ∧ (x.status = .ended → y.status = .ended)

/-- A write that folds changes the digest alone. -/
theorem Strand.fold_spec (t : Strand) (a : W64) (n : Nat) (v : W64) : ∃ d, t.fold a n v = { t with digest := d } := ⟨_, rfl⟩

/-- So does an entry that has performed at its last scope. -/
theorem Entry.folds_spec (e : Entry) (t : Strand) : ∃ d, e.folds t = { t with digest := d } := by
  have hfold (b : W64) (ws : List (Nat × W64)) : ∀ t : Strand, ∃ d,
      ws.foldl (fun t w => t.fold (b + BitVec.ofNat 64 (8 * w.1)) 8 w.2) t = { t with digest := d } := by
    induction ws with
    | nil => exact fun t => ⟨t.digest, rfl⟩
    | cons w ws ih =>
      intro t
      obtain ⟨d, hd⟩ := t.fold_spec (b + BitVec.ofNat 64 (8 * w.1)) 8 w.2
      rw [List.foldl_cons, hd]
      exact ih _
  unfold Entry.folds
  split
  · exact t.fold_spec ..
  · exact hfold _ _ t
  · exact t.fold_spec ..
  · exact t.fold_spec ..
  · split
    · exact ⟨t.digest, rfl⟩
    · exact t.fold_spec ..
  · exact ⟨t.digest, rfl⟩

namespace State.EndFrame

variable {s t u : State}

theorem of_strands (hqueues : t.queues = s.queues) (hafter : t.after = s.after) (hstrands : t.strands = s.strands) : s.EndFrame t :=
  ⟨hqueues, hafter, fun y hy => ⟨y, hstrands ▸ hy, rfl, rfl, id⟩⟩

theorem refl (s : State) : s.EndFrame s := of_strands rfl rfl rfl

theorem trans (h : s.EndFrame t) (h' : t.EndFrame u) : s.EndFrame u where
  queues := h'.queues.trans h.queues
  after := h'.after.trans h.after
  strands z hz := by
    obtain ⟨y, hy, hsid, hctx, hend⟩ := h'.strands z hz
    obtain ⟨x, hx, hsid', hctx', hend'⟩ := h.strands y hy
    exact ⟨x, hx, hsid.trans hsid', hctx.trans hctx', hend ∘ hend'⟩

/-- Steps that each keep the frame keep it in turn. -/
theorem foldl {α : Type} {f : State → α → State} (hf : ∀ (s : State) a, s.EndFrame (f s a)) (xs : List α) :
    ∀ s : State, s.EndFrame (xs.foldl f s) := by
  induction xs with
  | nil => exact refl
  | cons x xs ih => exact fun s => (hf s x).trans (ih (f s x))

theorem modStrand (s : State) (sid : Nat) {f : Strand → Strand}
    (hf : ∀ t, (f t).sid = t.sid ∧ (f t).ctx = t.ctx ∧ (t.status = .ended → (f t).status = .ended)) : s.EndFrame (s.modStrand sid f) := by
  refine ⟨rfl, rfl, fun y hy => ?_⟩
  obtain ⟨x, hx, rfl⟩ := List.mem_map.1 hy
  refine ⟨x, hx, ?_⟩
  split
  · exact hf x
  · exact ⟨rfl, rfl, id⟩

theorem settleAll (s : State) (want : Flight → Bool) : s.EndFrame (s.settleAll want) := by
  obtain ⟨m, g, p, h⟩ := State.settles_spec (withElders want s.flight) s
  rw [State.settleAll, h]
  exact of_strands rfl rfl rfl

theorem ring (s : State) (b n : Nat) (v : W64) : s.EndFrame (s.ring b n v) := by
  unfold State.ring
  split
  · exact of_strands rfl rfl rfl
  · exact refl s

theorem finishEntry (s : State) (t : Strand) (core : Nat) (e : Entry) : s.EndFrame (s.finishEntry t core e) := by
  unfold State.finishEntry
  split
  · exact of_strands rfl rfl rfl
  · have hsettled : s.EndFrame (if e.fid == 0 then s else s.settleAll fun f => f.id == e.fid) := by
      split
      · exact refl s
      · exact settleAll s _
    have hfolded := hsettled.trans (modStrand _ t.sid (f := ({ e with level := e.op.final } : Entry).folds) fun t => by
      obtain ⟨d, hd⟩ := Entry.folds_spec { e with level := e.op.final } t
      rw [hd]
      exact ⟨rfl, rfl, id⟩)
    dsimp only
    split
    · split
      · exact hfolded.trans (ring ..)
      · exact hfolded
    · exact hfolded

theorem finishElastic (s : State) (t : Strand) : s.EndFrame (s.finishElastic t) := by
  refine foldl (fun s r => foldl (fun s e => ?_) _ s) _ s
  split
  · exact refl s
  · exact finishEntry ..

theorem noteEnd (s : State) (t : Strand) (fault : Option (Nat × Nat × Nat × Nat)) : s.EndFrame (s.noteEnd t fault) :=
  of_strands rfl rfl rfl

/-- A strand that ends: the frame is kept, and every strand of its identifier has ended. -/
theorem endStrand (s : State) (sid : Nat) (fault : Option (Nat × Nat × Nat × Nat)) : s.EndFrame (s.endStrand sid fault) ∧
    ∀ y ∈ (s.endStrand sid fault).strands, y.sid = sid → y.status = .ended := by
  have hnone {t : State} (h : t.strand? sid = none) : ∀ y ∈ t.strands, y.sid = sid → y.status = .ended :=
    fun y hy hsid => absurd hsid (by simpa using List.find?_eq_none.1 h y hy)
  unfold State.endStrand
  split
  · next h => exact ⟨refl s, hnone h⟩
  · next t _ =>
    have hfinished := finishElastic s t
    dsimp only
    split
    · next h => exact ⟨hfinished, hnone h⟩
    · next t' _ =>
      have hended := (hfinished.trans (noteEnd _ t' fault)).trans (modStrand _ sid
        (f := fun t => { t with status := .ended, freeze := none, raised := [], taking := [] }) fun t => ⟨rfl, rfl, fun _ => rfl⟩)
      refine ⟨hended.trans (of_strands rfl rfl rfl), fun y hy hsid => ?_⟩
      obtain ⟨x, -, rfl⟩ := List.mem_map.1 hy
      by_cases hx : (x.sid == sid) = true
      · rw [if_pos hx]
      · rw [if_neg hx] at hsid
        exact absurd hsid (by simpa using hx)

/-- Strands that end one after another: each that is named has ended. -/
theorem endStrands (fault : Option (Nat × Nat × Nat × Nat)) (ts : List Strand) : ∀ s : State,
    let u := ts.foldl (fun s t => s.endStrand t.sid fault) s
    s.EndFrame u ∧ ∀ y ∈ u.strands, (∃ t ∈ ts, t.sid = y.sid) → y.status = .ended := by
  induction ts with
  | nil => exact fun s => ⟨refl s, fun y _ h => by simp at h⟩
  | cons t ts ih =>
    intro s u
    obtain ⟨hframe, hended⟩ := endStrand s t.sid fault
    obtain ⟨hrest, hothers⟩ := ih (s.endStrand t.sid fault)
    refine ⟨hframe.trans hrest, fun y hy h => ?_⟩
    obtain ⟨x, hx, hsid, -, hend⟩ := hrest.strands y hy
    obtain ⟨z, hz, hzy⟩ := h
    rcases List.mem_cons.1 hz with rfl | hz
    · exact hend (hended x hx (hsid ▸ hzy).symm)
    · exact hothers y hy ⟨z, hz, hzy⟩

end State.EndFrame

/-- The strands of a context end. -/
def State.endContext (s : State) (n : Nat) : State :=
  (s.strands.filter fun t => t.ctx == n && t.status != .ended).foldl (fun s t => s.endStrand t.sid none) s

theorem State.endContext_spec (s : State) (n : Nat) :
    s.EndFrame (s.endContext n) ∧ ∀ y ∈ (s.endContext n).strands, y.ctx = n → y.status = .ended := by
  obtain ⟨hframe, hended⟩ := State.EndFrame.endStrands none (s.strands.filter fun t => t.ctx == n && t.status != .ended) s
  refine ⟨hframe, fun y hy hctx => ?_⟩
  obtain ⟨x, hx, hsid, hxctx, hend⟩ := hframe.strands y hy
  by_cases hx' : x.status = .ended
  · exact hend hx'
  · exact hended y hy ⟨x, List.mem_filter.2 ⟨hx, by simp [← hxctx, hctx, hx']⟩, hsid.symm⟩

/-! ## Queues that halt (R32, R45) -/

/-- The host queues of a context halt with TORN-DOWN. -/
def State.tearQueues (s : State) (n : Nat) (seq : W32) : State := (s.queuesOf n).foldl (fun s k => s.haltQueue k 8 seq true) s

/-- Queues that halt one after another: every other field of the state that a TEARDOWN keeps is as it was. -/
theorem State.haltQueues_spec (cause : Nat) (seq : W32) (ks : List Nat) : ∀ s : State,
    let u := ks.foldl (fun s k => s.haltQueue k cause seq true) s
    u.after = s.after ∧ ∀ n < 64, (n ∈ ks ∨ (s.queue n).halted = true ∧ (s.queue n).cause = cause) →
      (u.queue n).halted = true ∧ (u.queue n).cause = cause := by
  induction ks with
  | nil => exact fun s => ⟨rfl, fun n _ h => by simpa using h⟩
  | cons k ks ih =>
    intro s u
    obtain ⟨hafter, hhalted⟩ := ih (s.haltQueue k cause seq true)
    refine ⟨hafter, fun n hn h => hhalted n hn ?_⟩
    rw [State.queue_haltQueue]
    by_cases hk : k = n
    · exact .inr (by rw [if_pos ⟨hk, hk ▸ hn⟩]; exact ⟨rfl, rfl⟩)
    · rw [if_neg (by tauto)]
      exact h.imp_left fun h => (List.mem_cons.1 h).resolve_left fun h => hk h.symm

theorem State.tearQueues_spec (s : State) (n : Nat) (seq : W32) : (s.tearQueues n seq).after = s.after ∧
    ∀ k < 64, (s.queue k).enable = true → (s.queue k).ctx = n →
      ((s.tearQueues n seq).queue k).halted = true ∧ ((s.tearQueues n seq).queue k).cause = 8 := by
  obtain ⟨hafter, hhalted⟩ := State.haltQueues_spec 8 seq (s.queuesOf n) s
  refine ⟨hafter, fun k hk hen hctx => hhalted k hk (.inl ?_)⟩
  simp [State.queuesOf, hk, hen, hctx]

/-- A queue that has passed a packet is enabled, or not, for the context it was. -/
theorem State.queue_pass (s : State) (q : QRef) (n k : Nat) :
    ((s.pass q n).queue k).enable = (s.queue k).enable ∧ ((s.pass q n).queue k).ctx = (s.queue k).ctx := by
  cases q with
  | device c => exact ⟨rfl, rfl⟩
  | host m =>
    change (vget (vset s.queues m _) k HostQueue.reset).enable = _ ∧ (vget (vset s.queues m _) k HostQueue.reset).ctx = _
    rw [vget_vset]
    split
    · next h => rw [← h.1]; exact ⟨rfl, rfl⟩
    · exact ⟨rfl, rfl⟩

/-! ## The teardown (R45) -/

/-- A context that is torn down: its device queue holds nothing, and the teardown's record follows those of what it cancels. -/
def Context.tornDown (teardown : Record) (cancelled ended : List Record) (c : Context) : Context :=
  { c with torn := true, teardown := some teardown, dqHead := c.dqTail, dqWait := none, dqDiscards := c.dqDiscards.map fun d => (d.1, 0),
           records := c.records ++ cancelled ++ ended }

/-- A device on which nothing of a context waits, is saved or replays. -/
def State.clearContext (s : State) (n : Nat) : State :=
  { s with saved := s.saved.filter (fun t => !(t.ctx == n)), waiting := s.waiting.filter (fun w => !(w.launch.ctx == n)),
           replays := s.replays.filter (fun r => !(r.ctx == n)) }

/-- A TEARDOWN halts the queues, ends the strands, clears the device of the context and tears it down. -/
theorem execTeardown_spec {s : State} {q : QRef} {c : Context} (ha : s.canAccept q = true) (hc : s.ctx? (s.qctx q) = some c) :
    ∃ (v : State) (gone : List Strand) (r : Record) (rs rs' : List Record),
      execTeardown q s = .next (State.holdTeardown ((State.clearContext (gone.foldl (fun s t => s.noteEnd t none) (v.endContext c.num))
        c.num).modCtx c.num (Context.tornDown r rs rs')) c.num) ∧
      v.after = ((s.pass q 1).tearQueues c.num (s.qhead q)).after ∧ v.queues = ((s.pass q 1).tearQueues c.num (s.qhead q)).queues := by
  simp only [execTeardown, hc, onPacket_ok _ _ ha]
  exact ⟨_, _, _, _, _, rfl, rfl, rfl⟩

/-- The slot of a teardown's record is reserved, if one is free: of the context nothing else changes that it tears down. -/
theorem State.holdTeardown_spec (s : State) (n : Nat) : ∃ f : Context → Context, s.holdTeardown n = s.modCtx n f ∧
    ∀ c, (f c).num = c.num ∧ (f c).torn = c.torn ∧ (f c).dqHead = c.dqHead ∧ (f c).dqTail = c.dqTail ∧ (f c).dqWait = c.dqWait ∧
      (c.teardown.isSome = true → (f c).teardown.isSome = true) := by
  have hsame : s = s.modCtx n id := by simp [State.modCtx]
  have hid : ∃ f : Context → Context, s = s.modCtx n f ∧ ∀ c, (f c).num = c.num ∧ (f c).torn = c.torn ∧ (f c).dqHead = c.dqHead ∧
      (f c).dqTail = c.dqTail ∧ (f c).dqWait = c.dqWait ∧ (c.teardown.isSome = true → (f c).teardown.isSome = true) :=
    ⟨id, hsame, fun c => ⟨rfl, rfl, rfl, rfl, rfl, id⟩⟩
  unfold State.holdTeardown
  split
  · exact hid
  · split
    · exact hid
    · split
      · exact hid
      · exact ⟨_, rfl, fun c => ⟨rfl, rfl, rfl, rfl, rfl, fun _ => rfl⟩⟩

/-- R45: what is left after a TEARDOWN. -/
theorem execTeardown_tears {s : State} {q : QRef} {c : Context} (ha : s.canAccept q = true) (hc : s.ctx? (s.qctx q) = some c) :
    ∃ u, execTeardown q s = .next u ∧
      (∀ x, u.ctx? c.num = some x → x.torn = true ∧ x.dqHead = x.dqTail ∧ x.dqWait = none ∧ x.teardown.isSome = true) ∧
      (∀ n < 64, (s.queue n).enable = true → (s.queue n).ctx = c.num → (u.queue n).halted = true ∧ (u.queue n).cause = 8) ∧
      (∀ t ∈ u.strands, t.ctx = c.num → t.status = .ended) ∧ (∀ w ∈ u.waiting, w.launch.ctx ≠ c.num) ∧
      (∀ r ∈ u.replays, r.ctx ≠ c.num) ∧ u.after = s.after ∧ ∀ t ∈ u.saved, t.ctx ≠ c.num := by
  obtain ⟨v, gone, r, rs, rs', hexec, hafter, hqueues⟩ := execTeardown_spec ha hc
  obtain ⟨hframe, hended⟩ := v.endContext_spec c.num
  have hgone := State.EndFrame.foldl (fun s t => State.EndFrame.noteEnd s t none) gone (v.endContext c.num)
  generalize gone.foldl (fun s t => s.noteEnd t none) (v.endContext c.num) = w at hexec hgone
  obtain ⟨f, hhold, hf⟩ := State.holdTeardown_spec ((w.clearContext c.num).modCtx c.num (Context.tornDown r rs rs')) c.num
  rw [hhold] at hexec
  obtain ⟨hafter', hhalted⟩ := (s.pass q 1).tearQueues_spec c.num (s.qhead q)
  refine ⟨_, hexec, fun x hx => ?context, fun n hn hen hctx => ?queues, fun y hy hctx => ?strands, fun z hz => ?waiting,
    fun z hz => ?replays, ?after, fun z hz => ?saved⟩
  case context =>
    rw [State.ctx_modCtx _ _ _ fun y hy => (hf y).1.trans hy, State.ctx_modCtx _ _ _ (by exact fun _ h => h), Option.map_map,
      Option.map_eq_some_iff] at hx
    obtain ⟨y, -, rfl⟩ := hx
    obtain ⟨-, htorn, hhead, htail, hwait, htear⟩ := hf (y.tornDown r rs rs')
    exact ⟨htorn, hhead.trans htail.symm, hwait, htear rfl⟩
  case queues =>
    obtain ⟨hen', hctx'⟩ := s.queue_pass q 1 n
    have hqueue : w.queue n = ((s.pass q 1).tearQueues c.num (s.qhead q)).queue n := by
      rw [State.queue, hgone.queues, hframe.queues, hqueues, State.queue]
    have h := hhalted n hn (hen'.trans hen) (hctx'.trans hctx)
    rw [← hqueue] at h
    exact h
  case strands =>
    obtain ⟨x, hx, -, hxctx, hend⟩ := hgone.strands y hy
    exact hend (hended x hx (hxctx ▸ hctx))
  case waiting =>
    obtain ⟨-, h⟩ := List.mem_filter.1 hz
    simpa using h
  case replays =>
    obtain ⟨-, h⟩ := List.mem_filter.1 hz
    simpa using h
  case after => exact hgone.after.trans (hframe.after.trans (hafter.trans (hafter'.trans (s.after_pass q 1))))
  case saved =>
    obtain ⟨-, h⟩ := List.mem_filter.1 hz
    simpa using h

end Sys2Proof.Machine
end

section
/-! What the dispatcher does over time: waits, stores, packets that are read again and ring records (R32, R35, R49). -/

namespace Sys2Proof.Machine

/-! ## Words that are stored and waited for (R35) -/

/-- An access of the dispatcher to a byte whose store is not dropped reaches it. -/
theorem State.dispAt_of_kept {s : State} {ctx b : Nat} {va : W64} {w : Bool} (hx : s.dispXlat ctx va w = some b)
    (hkept : s.drops b = false) : s.dispAt ctx va w = some b := by
  simp only [State.drops, Bool.or_eq_false_iff] at hkept
  obtain ⟨⟨-, hsilent⟩, hhost⟩ := hkept
  simp only [State.dispAt, hx, hsilent, hhost, Bool.or_self, Bool.false_eq_true, if_false]

/-- So a word is stored there. -/
theorem State.dispStore_of_kept {s : State} {ctx b : Nat} {va : W64} (v : W64) (hx : s.dispXlat ctx va true = some b)
    (hkept : s.drops b = false) : s.dispStore ctx va v = some (s.busPut b 8 v.toNat) := by
  rw [State.dispStore, State.dispAt_of_kept hx hkept, Option.map_some]

/-- Passing a packet changes nothing of memory. -/
theorem State.WritesDevice.of_pass {s t : State} {q : QRef} {k b n : Nat} {f : Nat → Byte} (h : (s.pass q k).WritesDevice t b n f) :
    s.WritesDevice t b n f := by
  cases q <;> exact h

/-- R35: the four conditions of a WAITWORD. -/
theorem flagCond_iff (cond : Nat) (w v : W64) : flagCond cond w v = true ↔ match cond with
    | 0 => w = v
    | 1 => w ≠ v
    | 2 => v.toNat ≤ w.toNat
    | _ => w.toNat < v.toNat := by
  rcases cond with _ | _ | _ | cond <;> simp [flagCond]

section
variable {s : State} {q : QRef} (ha : s.canAccept q = true)
include ha

theorem execWaitword_waits {p : WaitPkt} (hok : (s.pass q 1).addrOk ((s.pass q 1).qctx q) p.addr false = true) :
    execWaitword q p s = .next ((s.pass q 1).setWait q (some (p, s.wtime, s.wtime))) := by
  rw [execWaitword, onPacket_ok _ _ ha, if_pos hok, State.wtime_pass]

section
variable {p : SetPkt} (hok : (s.pass q 1).addrOk ((s.pass q 1).qctx q) p.addr true = true)
include hok

theorem execSetword_after (hafter : p.after = true) : execSetword q p s = .next { s.pass q 1 with
    after := (s.pass q 1).after ++ [{ num := (s.pass q 1).nextNum, ctx := (s.pass q 1).qctx q, queue := q, pkt := p }]
    nextNum := (s.pass q 1).nextNum + 1 } := by
  rw [execSetword, onPacket_ok _ _ ha]
  simp only [hok, hafter, Bool.not_true, Bool.false_eq_true, if_false, if_true]

theorem execSetword_now {b : Nat} (hafter : p.after = false) (hx : (s.pass q 1).dispXlat ((s.pass q 1).qctx q) p.addr true = some b)
    (hkept : (s.pass q 1).drops b = false) : execSetword q p s = .next ((s.pass q 1).busPut b 8 p.value.toNat) := by
  rw [execSetword, onPacket_ok _ _ ha]
  simp only [hok, hafter, State.dispStore_of_kept p.value hx hkept, Option.getD_some, Bool.not_true, Bool.false_eq_true, if_false]

end
end

section
variable {s : State} {q : QRef} {p : WaitPkt} {t0 next : Nat} (hw : s.waitOf q = some (p, t0, next))
include hw

section
variable {w : W64} (hnext : next ≤ s.wtime) (hword : s.dispWord (s.qctx q) p.addr = some w)
include hnext hword

/-- A WAITWORD whose word meets its condition is over. -/
theorem execWaitwordPoll_met (hcond : flagCond p.cond.toNat (w &&& p.mask) p.value = true) :
    execWaitwordPoll q s = .next (s.setWait q none) := by
  simp only [execWaitwordPoll, hw, Nat.not_lt.2 hnext, if_false, hword, hcond, if_true]

/-- One whose word does not looks again within 1,000 ns. -/
theorem execWaitwordPoll_unmet (hcond : ¬ flagCond p.cond.toNat (w &&& p.mask) p.value = true) : ∃ x,
    execWaitwordPoll q s = .next ({ s with freeCtr := s.freeCtr + 1 }.setWait q (some (p, t0, x))) ∧ s.wtime < x ∧ x ≤ s.wtime + 1000 := by
  refine ⟨s.wtime + 1 + Config.hostDelay s.freeCtr % 1000, ?_, by omega, by omega⟩
  simp only [execWaitwordPoll, hw, Nat.not_lt.2 hnext, if_false, hword, hcond, Bool.false_eq_true]

end

theorem execWaitTimeout_passed (hset : p.timeout ≠ 0) (hpast : t0 + p.timeout.toNat ≤ s.wtime) :
    execWaitTimeout q s = .next ((s.setWait q none).failAfter q p.seq 4 18) := by
  simp only [execWaitTimeout, hw, beq_eq_false_iff_ne.2 hset, Nat.not_lt.2 hpast, decide_false, Bool.or_self, Bool.false_eq_true, if_false]

end

/-- An after-prior SETWORD stores once what it waits for is recorded. -/
theorem execAfterPriorStore_stores {s : State} {n b : Nat} {a : AfterPrior} (hf : s.after.find? (fun x => x.num == n) = some a)
    (hdone : s.priorDone a = true) (hx : s.dispXlat a.ctx a.pkt.addr true = some b) (hkept : s.drops b = false) :
    execAfterPriorStore n s = .next (State.busPut { s with after := s.after.filter fun x => x.num != n } b 8 a.pkt.value.toNat) := by
  have hstore := State.dispStore_of_kept (s := { s with after := s.after.filter fun x => x.num != n }) a.pkt.value hx hkept
  simp only [execAfterPriorStore, hf, hdone, Bool.not_true, Bool.false_eq_true, if_false, hstore, Option.getD_some]

/-! ## Packets that are read again (R32) -/

/-- A host queue that can accept is one of the 64. -/
theorem State.lt_of_canAccept {s : State} {n : Nat} (h : s.canAccept (.host n) = true) : n < 64 := by
  simp only [State.canAccept, State.served, Bool.and_eq_true, decide_eq_true_eq] at h
  obtain ⟨⟨⟨⟨⟨hn, -⟩, -⟩, -⟩, -⟩, -⟩ := h
  exact hn

section
variable {s : State} {n t0 next gap : Nat} (hread : (s.queue n).read = some (t0, next, gap)) (ha : s.canAccept (.host n) = true)
include hread ha

theorem execPacketReread_matches {bs : List Byte} (hnext : next ≤ s.wtime) (hbs : s.readPacket (.host n) = .ok bs)
    (hm : packetMatches bs (s.queue n).head = true) :
    execPacketReread (.host n) s = .next ((s.modQueue n fun h => { h with read := none }).takePacket (.host n) bs) := by
  simp only [execPacketReread, hread, ha, hbs, hm, Nat.not_lt.2 hnext, decide_false, Bool.not_true, Bool.or_self, Bool.false_eq_true,
    if_false, if_true]

theorem execPacketReread_waits {bs : List Byte} (hnext : next ≤ s.wtime) (hbs : s.readPacket (.host n) = .ok bs)
    (hm : packetMatches bs (s.queue n).head = false) : execPacketReread (.host n) s =
      .next (s.modQueue n fun h => { h with read := some (t0, s.wtime + min 8000 (2 * gap), min 8000 (2 * gap)) }) := by
  simp only [execPacketReread, hread, ha, hbs, hm, Nat.not_lt.2 hnext, decide_false, Bool.not_true, Bool.or_self, Bool.false_eq_true,
    if_false]

theorem execTornPacket_halts (hpast : t0 + 64000 ≤ s.wtime) :
    execTornPacket (.host n) s = .next (s.haltQueue n 1 (s.queue n).head false) := by
  simp only [execTornPacket, hread, ha, Nat.not_lt.2 hpast, decide_false, Bool.not_true, Bool.or_self, Bool.false_eq_true, if_false]

end

/-! ## Ring records (R47, R49) -/

@[simp] theorem Record.length_bytes (r : Record) : r.bytes.length = 64 := by simp [Record.bytes, bytesOf]

/-- A context after a record of it has been written. -/
def Context.recorded (c : Context) (r : Record) : Context :=
  { c with records := c.records.filter (fun x => x != r), produced := c.produced + 1,
           reserved := if r.held then c.reserved - 1 else c.reserved }

/-- The device after a record has been written at `b`, its context noted, and Produced stored. -/
def State.recordWritten (s : State) (ctx b : Nat) (c : Context) (r : Record) : State :=
  ((s.busWrite (cellsAt b r.bytes)).modCtx ctx (·.recorded r)).busPut (s.ctxtab.toNat + 64 * ctx + 0x20) 8 (c.produced + 1).toNat

/-- Then the done word of a replay is stored, where it can be. -/
def State.doneWritten (s : State) (ctx : Nat) (r : Record) : State :=
  if r.doneAt == 0 then s else (s.dispStore ctx r.doneAt (BitVec.ofNat 64 r.status)).getD s

/-- What a record's writing does: a teardown's raises an event too. -/
theorem execRingRecordWrite_eq {s : State} {ctx b : Nat} {c : Context} {r : Record} (hc : s.ctx? ctx = some c)
    (hdue : s.recordDue c = true) (hr : s.nextRecord c = some r) (hb : s.dispAt ctx c.ringSlot true = some b) :
    execRingRecordWrite ctx s = .next (
      let u := (s.recordWritten ctx b c r).doneWritten ctx r
      if r.kind == 3 then u.raiseCtx ctx evTorn else u) := by
  simp only [execRingRecordWrite, hc, hdue, hr, hb, Bool.not_true, Bool.false_eq_true, if_false]
  rfl

/-- A write at device scope changes no context. -/
@[simp] theorem State.ctx_busWrite (s : State) (cells : List (Nat × Byte)) (n : Nat) : (s.busWrite cells).ctx? n = s.ctx? n := by
  rw [State.ctx?, State.busWrite_contexts, State.ctx?]

/-- Nor does the done word. -/
theorem State.ctx_doneWritten (s : State) (ctx : Nat) (r : Record) (n : Nat) : (s.doneWritten ctx r).ctx? n = s.ctx? n := by
  unfold State.doneWritten
  split
  · rfl
  · cases hb : s.dispAt ctx r.doneAt true with
    | none => rw [State.dispStore, hb, Option.map_none, Option.getD_none]
    | some b => rw [State.dispStore, hb, Option.map_some, Option.getD_some, State.busPut, State.ctx_busWrite]

/-- The context of the record. -/
theorem State.ctx_recordWritten {s : State} {ctx : Nat} {c : Context} (b : Nat) (r : Record) (hc : s.ctx? ctx = some c) :
    (s.recordWritten ctx b c r).ctx? ctx = some (c.recorded r) := by
  rw [State.recordWritten, State.busPut, State.ctx_busWrite, State.ctx_modCtx _ _ _ (by exact fun _ h => h), State.ctx_busWrite, hc,
    Option.map_some]

/-- What memory reads once a record has been written, but for Produced. -/
theorem State.busByte_recordWritten {s : State} {ctx b a : Nat} (c : Context) (r : Record) (p : Place)
    (ha : a < s.ctxtab.toNat + 64 * ctx + 0x20 ∨ s.ctxtab.toNat + 64 * ctx + 0x20 + 8 ≤ a) :
    (s.recordWritten ctx b c r).busByte p a = (s.busWrite (cellsAt b r.bytes)).busByte p a :=
  (State.busPut_writesDevice _ _ 8 _ p a).2 (by omega)

/-- R49: the next record of a context goes into its slot, and Produced moves. -/
theorem execRingRecordWrite_records {s : State} {ctx b : Nat} {c : Context} {r : Record} (hc : s.ctx? ctx = some c)
    (hdue : s.recordDue c = true) (hr : s.nextRecord c = some r) (hb : s.dispAt ctx c.ringSlot true = some b) :
    ∃ u, execRingRecordWrite ctx s = .next u ∧ u.ctx? ctx = some (c.recorded r) ∧
      (r.doneAt = 0 → ∀ p a, u.busByte p a = (s.recordWritten ctx b c r).busByte p a) := by
  refine ⟨_, execRingRecordWrite_eq hc hdue hr hb, ?_, fun hdone p a => ?_⟩
  · refine Eq.trans ?_ ((State.ctx_doneWritten _ ctx r ctx).trans (State.ctx_recordWritten b r hc))
    dsimp only
    split
    · rw [State.ctx?, State.raiseCtx_contexts, State.ctx?]
    · rfl
  · rw [State.doneWritten, if_pos (beq_iff_eq.2 hdone)]
    dsimp only
    split
    · rw [State.busByte, State.raiseCtx_flight, State.raiseCtx_mem, State.busByte]
    · rfl

/-- Settles O48: one lemma per event and way it goes, and the writes at device scope. -/
theorem waitsStoresAndRecords : Obligations.WaitsStoresAndRecords := by
  refine ⟨fun s q ha => ⟨fun p => execWaitword_waits ha, fun p hok => ⟨execSetword_after ha hok, ?now⟩, fun c => execTeardown_tears ha⟩,
    fun s q p t0 next hw => ?wait, fun s n a b hf hdone hx hkept => ?after,
    fun s n t0 next gap hread ha => ⟨fun bs => execPacketReread_matches hread ha, fun bs => execPacketReread_waits hread ha, ?torn⟩,
    fun s ctx b c r hc hdue hr hb => ?record⟩
  case now =>
    intro b hafter hx hkept
    exact ⟨_, execSetword_now ha hok hafter hx (hkept 0 (by decide)), (deviceWritesAreReadEverywhere (s.pass q 1) b p.value).1.of_pass⟩
  case wait =>
    intro cond
    have hcond (w : W64) : cond w ↔ flagCond p.cond.toNat w p.value = true := (flagCond_iff ..).symm
    refine ⟨fun w hnext hword hmet => execWaitwordPoll_met hw hnext hword ((hcond _).1 hmet),
      fun w hnext hword hunmet => execWaitwordPoll_unmet hw hnext hword fun h => hunmet ((hcond _).2 h), execWaitTimeout_passed hw⟩
  case after =>
    refine ⟨_, execAfterPriorStore_stores hf hdone hx (hkept 0 (by decide)), ?_, ?_⟩
    · exact (deviceWritesAreReadEverywhere { s with after := s.after.filter fun x => x.num != n } b a.pkt.value).1
    · simp only [State.busPut, State.busWrite_after, bne, Bool.beq_eq_decide_eq, decide_not]
  case torn =>
    intro hpast
    refine ⟨_, execTornPacket_halts hread ha hpast, ?_⟩
    rw [State.queue_haltQueue, if_pos ⟨rfl, State.lt_of_canAccept ha⟩]
    exact ⟨rfl, rfl, rfl, rfl⟩
  case record =>
    intro counter
    obtain ⟨u, hu, hx, hbyte⟩ := execRingRecordWrite_records hc hdue hr hb
    refine ⟨u, c.recorded r, hu, hx, rfl, by simp [Context.recorded], rfl, fun hdone p a ha => ?_⟩
    have hwrite := s.busWrite_cellsAt_writesDevice b r.bytes p a
    rw [Record.length_bytes] at hwrite
    rw [hbyte hdone, State.busByte_recordWritten c r p ha]
    exact ⟨fun hout => hwrite.2 (by omega), fun hlo hhi hdrop hcov => hwrite.1 hlo hhi hdrop hcov⟩

end Sys2Proof.Machine
end

section
/-! What the activation of a node does to its replay (R36, R41, R43). -/

namespace Sys2Proof.Machine

/-! ## Sorted lists -/

/-- Inserted by a key, an element of least key stands first if one stood first before. -/
theorem insertBy_head_le {α : Type} {key : α → Nat} (x : α) {xs : List α} (h : ∀ y ∈ xs.head?, ∀ z ∈ xs, key y ≤ key z) :
    ∀ y ∈ (insertBy (fun u v => decide (key u ≤ key v)) x xs).head?,
      ∀ z ∈ insertBy (fun u v => decide (key u ≤ key v)) x xs, key y ≤ key z := by
  intro y hy z hz
  rw [mem_insertBy] at hz
  cases xs with
  | nil =>
    obtain rfl : x = y := by simpa [insertBy] using hy
    simp_all
  | cons w ws =>
    have hw : ∀ z ∈ w :: ws, key w ≤ key z := h w rfl
    simp only [insertBy, decide_eq_true_eq] at hy
    split at hy
    · next hle =>
      obtain rfl : w = y := by simpa using hy
      rcases hz with rfl | hz
      · exact hle
      · exact hw z hz
    · next hlt =>
      obtain rfl : x = y := by simpa using hy
      rcases hz with rfl | hz
      · exact Nat.le_refl _
      · exact Nat.le_trans (by omega) (hw z hz)

/-- The first of a list sorted by a key has the least key. -/
theorem sortBy_head_le {α : Type} (key : α → Nat) (xs : List α) :
    ∀ y ∈ (sortBy (fun u v => decide (key u ≤ key v)) xs).head?, ∀ z ∈ xs, key y ≤ key z := by
  have hfold (acc : List α) (h : ∀ y ∈ acc.head?, ∀ z ∈ acc, key y ≤ key z) :
      let out := xs.foldl (fun acc x => insertBy (fun u v => decide (key u ≤ key v)) x acc) acc
      ∀ y ∈ out.head?, ∀ z ∈ out, key y ≤ key z := by
    induction xs generalizing acc with
    | nil => exact h
    | cons x xs ih => exact ih _ (insertBy_head_le x h)
  exact fun y hy z hz => hfold [] (by simp) y hy z (mem_sortBy.2 hz)

/-! ## Replays and control words (R41, R43) -/

/-- What an early end does. -/
theorem Replay.endEarly_eq (status : Nat) :
    Replay.endEarly status = fun r => { r with status := if r.status = 0 then status else r.status, pend := [] } := by
  funext r
  simp only [Replay.endEarly, beq_iff_eq]

/-- A word that the dispatcher can read has an address that translates. -/
theorem State.dispXlat_isSome_of_dispWord {s : State} {ctx : Nat} {a v : W64} (h : s.dispWord ctx a = some v) :
    (s.dispXlat ctx a false).isSome = true := by
  cases hx : s.dispXlat ctx a false with
  | some b => rfl
  | none => simp [State.dispWord, State.dispAt, hx] at h

/-- A node's control word reads `v`. -/
def State.controlReads (s : State) (r : Replay) (w : NodeWords) (v : W64) : Prop :=
  (vget w 1 0).toNat % 8 = 0 ∧ s.dispWord r.ctx (vget w 1 0) = some v

/-- A control word that can be read goes on. -/
theorem State.control_of_reads {s : State} {r : Replay} {w : NodeWords} {v : W64} (f : W64 → State → State)
    (h : s.controlReads r w v) : s.control r w f = f v s := by
  obtain ⟨halign, hword⟩ := h
  have hok : s.addrOk r.ctx (vget w 1 0) false = true := by
    rw [State.addrOk, halign, State.dispXlat_isSome_of_dispWord hword]
    rfl
  simp only [State.control, hok, if_true, hword]

/-- One that cannot ends the replay. -/
theorem State.control_of_unreadable {s : State} {r : Replay} {w : NodeWords} (f : W64 → State → State)
    (h : ∀ v, ¬ s.controlReads r w v) : s.control r w f = s.modReplay r.num (Replay.endEarly 12) := by
  have hnone : (if s.addrOk r.ctx (vget w 1 0) false then s.dispWord r.ctx (vget w 1 0) else none) = none := by
    split
    · next hok =>
      have halign : (vget w 1 0).toNat % 8 = 0 := by
        simp only [State.addrOk, Bool.and_eq_true, beq_iff_eq] at hok
        exact hok.1
      exact Option.eq_none_iff_forall_ne_some.2 fun v hv => h v ⟨halign, hv⟩
    · rfl
  simp only [State.control, hnone]

/-- The arrivals at a JOIN that a replay holds (R41). -/
def Replay.joined (r : Replay) (node : Nat) : List (Nat × W64) := match r.joins.find? fun j => j.1 == node with
  | some j => j.2
  | none => []

/-- The seed with which a JOIN goes on: that of the lowest-numbered predecessor (R41). -/
def joinSeed (arrived : List (Nat × W64)) (none_ : W64) : W64 :=
  match (sortBy (fun x y => decide (x.1 ≤ y.1)) arrived).head? with
  | some x => x.2
  | none => none_

theorem joinSeed_spec {arrived : List (Nat × W64)} (none_ : W64) (hne : arrived ≠ []) :
    ∃ x ∈ arrived, (∀ y ∈ arrived, x.1 ≤ y.1) ∧ joinSeed arrived none_ = x.2 := by
  have hmin := sortBy_head_le Prod.fst arrived
  unfold joinSeed
  cases hs : sortBy (fun x y : Nat × W64 => decide (x.1 ≤ y.1)) arrived with
  | nil =>
    obtain ⟨x, hx⟩ := List.exists_mem_of_ne_nil arrived hne
    have hmem := mem_sortBy (le := fun x y : Nat × W64 => decide (x.1 ≤ y.1)).2 hx
    simp [hs] at hmem
  | cons x xs => exact ⟨x, mem_sortBy.1 (hs ▸ List.mem_cons_self), hmin x (by rw [hs]; rfl), rfl⟩

/-- The seed and the count of a LOOP, which begin with the seed that activates it and 0 (R41). -/
def Replay.looped (r : Replay) (node : Nat) (seed : W64) : W64 × Nat := match r.loops.find? fun l => l.1 == node with
  | some l => l.2
  | none => (seed, 0)

/-- A replay with the state of a LOOP. -/
def Replay.keepLoop (node : Nat) (seed : W64) (count : Nat) (r : Replay) : Replay :=
  { r with loops := (node, seed, count) :: r.loops.filter fun l => l.1 != node }

/-! ## Nodes (R36, R39, R41) -/

/-- A word of a node is its own field of 64 bits. -/
theorem fld_nodeWord (w : NodeWords) (i : Nat) : fld (nodeWord w i) 0 64 = nodeWord w i := by
  rw [fld, Nat.pow_zero, Nat.div_one]
  exact Nat.mod_eq_of_lt (vget w i 0).isLt

/-- The edges of a TASK. -/
theorem nodeEdges_task {w : NodeWords} (h : nodeType w = 1) : nodeEdges w = [fld (nodeWord w 6) 0 16, fld (nodeWord w 6) 16 16] := by
  simp only [nodeEdges, h]

section
variable {s : State} {rep : Nat} {a : Activation} {w : NodeWords} {r : Replay}

/-- The state in which a replay has taken its next activation. -/
def State.taken (s : State) (rep : Nat) : State := s.modReplay rep fun r => { r with pend := r.pend.tail }

variable (h : s.atNode rep a r) (hok : nodeOk r.pkt.nodes w = true)
include h

/-- A node that breaks the conditions of R43 ends its replay, whatever its type. -/
theorem onNode_ends {ty : Nat} {f : Replay → State → State} (ht : nodeType w = ty) (hbad : nodeOk r.pkt.nodes w = false) :
    onNode rep a w ty s f = .next ((s.taken rep).modReplay rep fun r =>
      { r with status := if r.status = 0 then 9 else r.status, pend := [] }) := by
  rw [onNode_bad h ht hbad, Replay.endEarly_eq, State.taken]

include hok

theorem execTaskNode_launches (ht : nodeType w = 1) : ∃ l : Launch, execTaskNode rep a w s =
      .next (((s.taken rep).modReplay rep fun r => { r with running := r.running + 1 }).enterLaunch l) ∧
    l.ctx = r.ctx ∧ l.seed = a.seed ∧ l.image = vget w 1 0 ∧ l.param = vget w 2 0 ∧ l.ctrbase = vget w 3 0 ∧
    l.count = fld (nodeWord w 0) 32 7 ∧ l.cls = fld (nodeWord w 0) 44 3 ∧
    l.from_ = .node rep a.node [fld (nodeWord w 6) 0 16, fld (nodeWord w 6) 16 16] r.queue r.pkt.seq := by
  rw [← nodeEdges_task ht]
  exact ⟨_, onNode_ok h ht hok, rfl, rfl, rfl, rfl, rfl, rfl, rfl, rfl⟩

theorem execCond_reads {v : W64} (ht : nodeType w = 2) (hv : (s.taken rep).controlReads r w v) : execCond rep a w s =
    .next ((s.taken rep).activateEdge rep a.node (if v ≠ 0 then fld (nodeWord w 2) 0 16 else fld (nodeWord w 2) 16 16) a.seed) := by
  rw [execCond, onNode_ok h ht hok]
  refine congrArg Host.Outcome.next ((State.control_of_reads _ hv).trans ?_)
  by_cases hz : v = 0
  · subst hz
    rfl
  · rw [if_pos hz, if_pos (bne_iff_ne.2 hz)]

theorem execCond_unreadable (ht : nodeType w = 2) (hv : ∀ v, ¬ (s.taken rep).controlReads r w v) : execCond rep a w s =
    .next ((s.taken rep).modReplay r.num fun r => { r with status := if r.status = 0 then 12 else r.status, pend := [] }) := by
  rw [execCond, onNode_ok h ht hok, ← Replay.endEarly_eq]
  exact congrArg Host.Outcome.next (State.control_of_unreadable _ hv)

theorem execSwitch_reads {v : W64} (ht : nodeType w = 4) (hv : (s.taken rep).controlReads r w v) : execSwitch rep a w s =
    .next ((s.taken rep).activateEdge rep a.node
      (if v.toNat < fld (nodeWord w 2) 0 5 then switchEdge w v.toNat else fld (nodeWord w 2) 16 16) a.seed) := by
  rw [execSwitch, onNode_ok h ht hok]
  exact congrArg Host.Outcome.next (State.control_of_reads _ hv)

section
variable {v : W64} (ht : nodeType w = 3) (hv : (s.taken rep).controlReads r w v)
include ht hv

/-- A LOOP goes on with its control word. -/
theorem execLoopNode_reads : execLoopNode rep a w s = .next (
    let st := r.looped a.node a.seed
    let limit := fld (nodeWord w 2) 32 32
    if v ≠ 0 then
      if limit ≠ 0 ∧ limit < st.2 + 1 then (s.taken rep).modReplay rep (Replay.endEarly 10)
      else ((s.taken rep).modReplay rep (Replay.keepLoop a.node st.1 (st.2 + 1))).activateEdge rep a.node (fld (nodeWord w 2) 0 16)
        (childSeed st.1 (BitVec.ofNat 32 st.2))
    else ((s.taken rep).modReplay rep (Replay.keepLoop a.node st.1 0)).activateEdge rep a.node (fld (nodeWord w 2) 16 16) st.1) := by
  rw [execLoopNode, onNode_ok h ht hok]
  refine congrArg Host.Outcome.next ((State.control_of_reads _ hv).trans ?_)
  simp only [bne_iff_ne, Bool.and_eq_true, decide_eq_true_eq]
  rfl

theorem execLoopNode_leaves (hz : v = 0) : execLoopNode rep a w s =
    .next (((s.taken rep).modReplay rep (Replay.keepLoop a.node (r.looped a.node a.seed).1 0)).activateEdge rep a.node
      (fld (nodeWord w 2) 16 16) (r.looped a.node a.seed).1) := by
  rw [execLoopNode_reads h hok ht hv]
  exact congrArg Host.Outcome.next (if_neg (not_not.2 hz))

theorem execLoopNode_exceeds (hz : v ≠ 0) (hlim : fld (nodeWord w 2) 32 32 ≠ 0)
    (hlt : fld (nodeWord w 2) 32 32 < (r.looped a.node a.seed).2 + 1) : execLoopNode rep a w s =
    .next ((s.taken rep).modReplay rep fun r => { r with status := if r.status = 0 then 10 else r.status, pend := [] }) := by
  rw [execLoopNode_reads h hok ht hv, ← Replay.endEarly_eq]
  exact congrArg Host.Outcome.next ((if_pos hz).trans (if_pos ⟨hlim, hlt⟩))

theorem execLoopNode_repeats (hz : v ≠ 0)
    (hlim : fld (nodeWord w 2) 32 32 = 0 ∨ (r.looped a.node a.seed).2 + 1 ≤ fld (nodeWord w 2) 32 32) : execLoopNode rep a w s =
    .next (((s.taken rep).modReplay rep (Replay.keepLoop a.node (r.looped a.node a.seed).1 ((r.looped a.node a.seed).2 + 1))).activateEdge
      rep a.node (fld (nodeWord w 2) 0 16)
      (childSeed (r.looped a.node a.seed).1 (BitVec.ofNat 32 (r.looped a.node a.seed).2))) := by
  rw [execLoopNode_reads h hok ht hv]
  exact congrArg Host.Outcome.next ((if_pos hz).trans (if_neg (by omega)))

end

section
variable (ht : nodeType w = 5)
include ht

/-- A JOIN counts this arrival with those before. -/
theorem execJoin_eq : execJoin rep a w s = .next (
    let arrived := r.joined a.node ++ [(a.pred, a.seed)]
    let others := r.joins.filter fun j => j.1 != a.node
    if arrived.length < nodeWord w 1 then (s.taken rep).modReplay rep fun r => { r with joins := (a.node, arrived) :: others }
    else ((s.taken rep).modReplay rep fun r => { r with joins := others }).activateEdge rep a.node (fld (nodeWord w 2) 0 16)
      (joinSeed arrived a.seed)) := by
  rw [execJoin, onNode_ok h ht hok]
  rfl

/-- It awaits more arrivals. -/
theorem execJoin_waits (hlt : (r.joined a.node ++ [(a.pred, a.seed)]).length < nodeWord w 1) : execJoin rep a w s =
    .next ((s.taken rep).modReplay rep fun r' =>
      { r' with joins := (a.node, r.joined a.node ++ [(a.pred, a.seed)]) :: r.joins.filter fun j => j.1 != a.node }) := by
  rw [execJoin_eq h hok ht]
  exact congrArg Host.Outcome.next (if_pos hlt)

/-- At the last arrival it goes on. -/
theorem execJoin_goes (hle : nodeWord w 1 ≤ (r.joined a.node ++ [(a.pred, a.seed)]).length) :
    ∃ x ∈ r.joined a.node ++ [(a.pred, a.seed)], (∀ y ∈ r.joined a.node ++ [(a.pred, a.seed)], x.1 ≤ y.1) ∧ execJoin rep a w s =
      .next (((s.taken rep).modReplay rep fun r' => { r' with joins := r.joins.filter fun j => j.1 != a.node }).activateEdge rep a.node
        (fld (nodeWord w 2) 0 16) x.2) := by
  obtain ⟨x, hx, hmin, hseed⟩ := joinSeed_spec (arrived := r.joined a.node ++ [(a.pred, a.seed)]) a.seed (by simp)
  refine ⟨x, hx, hmin, ?_⟩
  rw [execJoin_eq h hok ht, ← hseed]
  exact congrArg Host.Outcome.next (if_neg (Nat.not_lt.2 hle))

end

theorem execSeedNode_goes (ht : nodeType w = 6) : execSeedNode rep a w s =
    .next ((s.taken rep).activateEdge rep a.node (fld (nodeWord w 3) 0 16)
      (if fld (nodeWord w 1) 0 64 = 0 then childSeed a.seed ((vget w 2 0).truncate 32) else vget w 2 0)) := by
  rw [execSeedNode, onNode_ok h ht hok, fld_nodeWord]
  simp only [beq_iff_eq]
  rfl

theorem execEndNode_ends (ht : nodeType w = 7) :
    execEndNode rep a w s = .next ((s.taken rep).modReplay rep fun r => { r with ending := true, pend := [] }) :=
  onNode_ok h ht hok

end

/-- Settles O49: one lemma per type of node and way it goes on. -/
theorem graphNodes : Obligations.GraphNodes := by
  intro s rep a w r h word t goes reads
  refine ⟨?bad, fun hok => ⟨execTaskNode_launches h hok, fun ht => ⟨fun v hv => ?cond, execCond_unreadable h hok ht⟩, ?loop,
    fun ht v hv => execSwitch_reads h hok ht hv, ?join, execSeedNode_goes h hok, execEndNode_ends h hok⟩⟩
  case bad =>
    intro p hp ht hbad
    simp only [List.mem_cons, List.not_mem_nil, or_false] at hp
    rcases hp with rfl | rfl | rfl | rfl | rfl | rfl | rfl
    · exact (onNode_ends h ht hbad : execTaskNode rep a w s = _)
    · exact (onNode_ends h ht hbad : execCond rep a w s = _)
    · exact (onNode_ends h ht hbad : execLoopNode rep a w s = _)
    · exact (onNode_ends h ht hbad : execSwitch rep a w s = _)
    · exact (onNode_ends h ht hbad : execJoin rep a w s = _)
    · exact (onNode_ends h ht hbad : execSeedNode rep a w s = _)
    · exact (onNode_ends h ht hbad : execEndNode rep a w s = _)
  case cond => exact execCond_reads h hok ht hv
  case loop =>
    intro ht v hv st limit keep
    exact ⟨execLoopNode_leaves h hok ht hv, execLoopNode_exceeds h hok ht hv, execLoopNode_repeats h hok ht hv⟩
  case join =>
    intro ht had all others
    have hcount : word 1 0 64 = nodeWord w 1 := fld_nodeWord w 1
    rw [hcount]
    exact ⟨execJoin_waits h hok ht, execJoin_goes h hok ht⟩

end Sys2Proof.Machine
end

section
/-! What the host does with contexts and its queues (R29 to R32, R49, R307). -/

namespace Sys2Proof.Machine

/-! ## Contexts (R29) -/

/-- CTXCMD after a command on one of the 64 contexts. -/
theorem ctxcmdWord_eq {n : Nat} (op result : Nat) (hn : n < 64) :
    ctxcmdWord n op result = BitVec.ofNat 64 (result * 2 ^ 17 + op * 2 ^ 8 + n) := by
  rw [ctxcmdWord, Nat.mod_eq_of_lt hn]

section
variable {s : State} {n : Nat} (hn : n < 64) (hr : s.wholeReset = false)
include hn hr

theorem execActivate_of_active (hc : (s.ctx? n).isSome = true) :
    execActivate n s = .next { s with ctxcmd := BitVec.ofNat 64 (2 * 2 ^ 17 + 1 * 2 ^ 8 + n) } := by
  rw [execActivate, accepted_ok _ hr, Nat.mod_eq_of_lt hn]
  simp only [hc, if_true, ctxcmdWord_eq _ _ hn]

theorem execActivate_of_bad (hc : s.ctx? n = none) (hbad : s.descOk n = false) :
    execActivate n s = .next { s with ctxcmd := BitVec.ofNat 64 (1 * 2 ^ 17 + 1 * 2 ^ 8 + n) } := by
  rw [execActivate, accepted_ok _ hr, Nat.mod_eq_of_lt hn]
  simp only [hc, hbad, Option.isSome_none, Bool.not_false, Bool.false_eq_true, if_false, if_true, ctxcmdWord_eq _ _ hn]

theorem execActivate_of_ok (hc : s.ctx? n = none) (hok : s.descOk n = true) : execActivate n s = .next { s with
    ctxcmd := BitVec.ofNat 64 (0 * 2 ^ 17 + 1 * 2 ^ 8 + n)
    contexts := s.contexts ++ [({
      num := n, part := s.descWord n 0, root := s.descWord n 1, ring := BitVec.ofNat 64 (s.descWord n 2), ringLog := s.descWord n 3,
      produced := BitVec.ofNat 64 (s.descWord n 4), dqBase := BitVec.ofNat 64 (s.descWord n 6), dqHead := 0, dqTail := 0,
      dqWait := none, dqDiscards := [], seeds := [], quota := 0, limit := 64, floor := 0, records := [], reserved := 0,
      blocked := false, torn := false, teardown := none, enused := 0, enover := 0, exhausted := false } : Context)] } := by
  rw [execActivate, accepted_ok _ hr, Nat.mod_eq_of_lt hn]
  simp only [hc, hok, Option.isSome_none, Bool.not_true, Bool.false_eq_true, if_false, ctxcmdWord_eq _ _ hn]

theorem execRelease_of_none (hc : s.ctx? n = none) :
    execRelease n s = .next { s with ctxcmd := BitVec.ofNat 64 (1 * 2 ^ 17 + 2 * 2 ^ 8 + n) } := by
  rw [execRelease, accepted_ok _ hr, Nat.mod_eq_of_lt hn]
  simp only [hc, ctxcmdWord_eq _ _ hn]

theorem execRelease_of_busy {c : Context} (hc : s.ctx? n = some c) (hidle : s.idle c = false) :
    execRelease n s = .next { s with ctxcmd := BitVec.ofNat 64 (2 * 2 ^ 17 + 2 * 2 ^ 8 + n) } := by
  rw [execRelease, accepted_ok _ hr, Nat.mod_eq_of_lt hn]
  simp only [hc, hidle, Bool.not_false, if_true, ctxcmdWord_eq _ _ hn]

theorem execRelease_of_idle {c : Context} (hc : s.ctx? n = some c) (hidle : s.idle c = true) : execRelease n s = .next { s with
    contexts := s.contexts.filter fun c => decide (c.num ≠ n)
    ctxcmd := BitVec.ofNat 64 (0 * 2 ^ 17 + 2 * 2 ^ 8 + n) } := by
  rw [execRelease, accepted_ok _ hr, Nat.mod_eq_of_lt hn]
  simp only [hc, hidle, Bool.not_true, Bool.false_eq_true, if_false, ctxcmdWord_eq _ _ hn, bne, Bool.beq_eq_decide_eq, decide_not]

end

/-! ## Host queues (R30, R32, R49) -/

@[simp] theorem State.queue_retryRecords (s : State) (ctx q : Nat) : (s.retryRecords ctx).queue q = s.queue q := rfl

/-- A context is active whether or not its records are tried again. -/
theorem State.ctx_retryRecords_isSome (s : State) (n : Nat) : ((s.retryRecords n).ctx? n).isSome = (s.ctx? n).isSome := by
  rw [State.retryRecords, State.ctx_modCtx _ _ _ (by exact fun _ h => h), Option.isSome_map]

/-- A host queue as it begins for a context: its ring alone is kept (R30). -/
def HostQueue.begun (ctx : Nat) (h : HostQueue) : HostQueue :=
  { HostQueue.reset with base := h.base, size := h.size, enable := true, ctx }

section
variable {s : State} {q : Nat} (hr : s.wholeReset = false)
include hr

/-- A QCTL word with a reserved bit set changes nothing. -/
theorem execQueueEnable_of_reserved {v : W64} (hv : v &&& qctlReserved ≠ 0) : execQueueEnable q v s = .next s := by
  rw [execQueueEnable, accepted_ok _ hr]
  exact if_pos (bne_iff_ne.2 hv)

/-- Enabling an enabled queue changes nothing. -/
theorem execQueueEnable_again {v : W64} (hen : (s.queue q).enable = true) (hon : v.getLsbD 0 = true) :
    execQueueEnable q v s = .next s := by
  rw [execQueueEnable, accepted_ok _ hr]
  simp only [hen, if_true, bitAt, hon, ite_self]

theorem execQueueEnable_off {v : W64} (hv : v &&& qctlReserved = 0) (hen : (s.queue q).enable = true) (hon : v.getLsbD 0 = false) :
    execQueueEnable q v s = .next (s.modQueue q fun h => { h with enable := false, wait := none, read := none }) := by
  rw [execQueueEnable, accepted_ok _ hr]
  simp only [hv, bne_self_eq_false, Bool.false_eq_true, if_false, hen, if_true, bitAt, hon]

theorem execQueueEnable_context {v : W64} (hv : v &&& qctlReserved = 0) (hen : (s.queue q).enable = false)
    (hon : v.getLsbD 0 = false) :
    execQueueEnable q v s = .next (s.modQueue q fun h => { h with ctx := v.toNat / 2 ^ 8 % 2 ^ 6 }) := by
  rw [execQueueEnable, accepted_ok _ hr]
  simp only [hv, bne_self_eq_false, Bool.false_eq_true, if_false, hen, bitAt, hon, Bool.not_false, if_true]
  rfl

/-- A queue that is enabled begins afresh, and halts with BAD-CONFIG where its context is not active or its size out of range. -/
theorem execQueueEnable_on {v : W64} (hv : v &&& qctlReserved = 0) (hen : (s.queue q).enable = false) (hon : v.getLsbD 0 = true) :
    let ctx := v.toNat / 2 ^ 8 % 2 ^ 6
    let t := (s.modQueue q (HostQueue.begun ctx)).retryRecords ctx
    execQueueEnable q v s = .next (if (s.ctx? ctx).isSome = true ∧ 6 ≤ (s.queue q).size ∧ (s.queue q).size ≤ 16 then t
      else t.haltQueue q 7 0 false) := by
  intro ctx t
  have hctx : (t.ctx? ctx).isSome = (s.ctx? ctx).isSome := State.ctx_retryRecords_isSome ..
  have hcond : (((t.ctx? ctx).isSome && decide (6 ≤ (s.queue q).size) && decide ((s.queue q).size ≤ 16)) = true) =
      ((s.ctx? ctx).isSome = true ∧ 6 ≤ (s.queue q).size ∧ (s.queue q).size ≤ 16) := by
    simp only [hctx, Bool.and_eq_true, decide_eq_true_eq, and_assoc]
  rw [execQueueEnable, accepted_ok _ hr]
  simp only [hv, bne_self_eq_false, Bool.false_eq_true, if_false, hen, bitAt, hon, Bool.not_true, ← hcond]
  rfl

theorem execQkick_eq {tail : W32} (hq : q < 64) : ∃ u, execQkick q tail s = .next u ∧
    u.queue q = { s.queue q with tail, ready := s.wtime + Config.hostDelay s.freeCtr } := by
  rw [execQkick, accepted_ok _ hr]
  exact ⟨_, rfl, State.queue_modQueue _ _ hq⟩

/-- A queue that is not halted, or halted for good, neither resumes nor skips. -/
theorem execQcmd_stays (h : (s.queue q).halted = false ∨ haltStays (s.queue q).cause = true) :
    execQcmdResume q s = .next s ∧ execQcmdSkip q s = .next s := by
  have hstay : (!(s.queue q).halted || haltStays (s.queue q).cause) = true := by simpa using h
  rw [execQcmdResume, execQcmdSkip, accepted_ok _ hr, accepted_ok _ hr]
  exact ⟨if_pos hstay, if_pos hstay⟩

section
variable (hq : q < 64) (hhalt : (s.queue q).halted = true) (hstays : haltStays (s.queue q).cause = false)
include hq hhalt hstays

theorem execQcmdResume_goes : ∃ u, execQcmdResume q s = .next u ∧ u.queue q = { s.queue q with halted := false } := by
  have hgo : ¬ (!(s.queue q).halted || haltStays (s.queue q).cause) = true := by simp [hhalt, hstays]
  rw [execQcmdResume, accepted_ok _ hr]
  exact ⟨_, if_neg hgo, (State.queue_retryRecords ..).trans (State.queue_modQueue s _ hq)⟩

theorem execQcmdSkip_goes : ∃ u, execQcmdSkip q s = .next u ∧ u.queue q = { s.queue q with
    halted := false
    head := (s.queue q).head + BitVec.ofNat 32
      (if ((s.queue q).accepted || (s.queue q).head == (s.queue q).tail) = true then 0 else s.skipSlots q) } := by
  have hgo : ¬ (!(s.queue q).halted || haltStays (s.queue q).cause) = true := by simp [hhalt, hstays]
  rw [execQcmdSkip, accepted_ok _ hr]
  exact ⟨_, if_neg hgo, (State.queue_retryRecords ..).trans (State.queue_modQueue s _ hq)⟩

end
end

/-- SKIP passes the slots of a packet whose sequence matches. -/
theorem State.skipSlots_of_match {s : State} {q : Nat} {bs : List Byte}
    (hbs : s.dispBytes (s.queue q).ctx (s.slotVa (.host q) (s.queue q).head) 64 = some bs)
    (hm : pktFld bs 4 4 = (s.queue q).head.toNat) : s.skipSlots q = fld (pktFld bs 0 8) 8 4 + 1 := by
  simp only [State.skipSlots, hbs, hm, BEq.rfl, if_true]

/-- It passes one slot where it does not. -/
theorem State.skipSlots_of_mismatch {s : State} {q : Nat} {bs : List Byte}
    (hbs : s.dispBytes (s.queue q).ctx (s.slotVa (.host q) (s.queue q).head) 64 = some bs)
    (hm : pktFld bs 4 4 ≠ (s.queue q).head.toNat) : s.skipSlots q = 1 := by
  simp only [State.skipSlots, hbs, beq_eq_false_iff_ne.2 hm, Bool.false_eq_true, if_false]

/-- The causes of a halt that stays. -/
theorem haltStays_iff (cause : Nat) : haltStays cause = true ↔ cause = 7 ∨ cause = 8 ∨ cause = 9 := by
  simp [haltStays, or_assoc]

/-- Settles O50: one lemma per command and result. -/
theorem contextsAndQueues : Obligations.ContextsAndQueues := by
  refine ⟨?reset, fun s n hn hr => ?contexts, fun s q v tail hq hr => ?queues⟩
  case reset =>
    intro s n v tail hr i hi
    simp only [List.mem_cons, List.not_mem_nil, or_false] at hi
    rcases hi with rfl | rfl | rfl | rfl | rfl | rfl
    · exact (accepted_reset _ hr : execActivate n s = _)
    · exact (accepted_reset _ hr : execRelease n s = _)
    · exact (accepted_reset _ hr : execQueueEnable n v s = _)
    · exact (accepted_reset _ hr : execQkick n tail s = _)
    · exact (accepted_reset _ hr : execQcmdResume n s = _)
    · exact (accepted_reset _ hr : execQcmdSkip n s = _)
  case contexts =>
    refine ⟨execActivate_of_active hn hr, execActivate_of_bad hn hr, fun hc hok => ⟨_, execActivate_of_ok hn hr hc hok, ?_⟩,
      execRelease_of_none hn hr, fun c hc => ⟨execRelease_of_busy hn hr hc, execRelease_of_idle hn hr hc⟩⟩
    exact ⟨rfl, rfl, rfl, rfl, rfl, rfl, rfl, rfl, rfl, rfl, rfl, rfl, rfl, rfl, rfl, rfl⟩
  case queues =>
    refine ⟨execQueueEnable_of_reserved hr, execQueueEnable_again hr, execQueueEnable_off hr, execQueueEnable_context hr, ?on, ?kick,
      ?stays, ?goes⟩
    case on =>
      intro hv hen hon
      refine ⟨_, execQueueEnable_on hr hv hen hon, ?_⟩
      have hbegun (c : Nat) : ((s.modQueue q (HostQueue.begun c)).retryRecords c).queue q = (s.queue q).begun c :=
        (State.queue_retryRecords ..).trans (State.queue_modQueue s _ hq)
      split
      · dsimp only
        rw [hbegun]
        exact ⟨rfl, rfl, rfl, rfl, rfl, rfl, rfl, rfl⟩
      · dsimp only
        rw [State.queue_haltQueue, if_pos ⟨rfl, hq⟩, hbegun]
        exact ⟨rfl, rfl, rfl, rfl, rfl, rfl, rfl, rfl⟩
    case kick =>
      obtain ⟨u, hu, hqueue⟩ := execQkick_eq (tail := tail) hr hq
      refine ⟨u, hu, ?_⟩
      rw [hqueue]
      exact ⟨rfl, Nat.le_add_right ..⟩
    case stays =>
      intro h
      rw [← haltStays_iff] at h
      exact execQcmd_stays hr h
    case goes =>
      intro hhalt h7 h8 h9
      have hstays : haltStays (s.queue q).cause = false := by
        rw [← Bool.not_eq_true, haltStays_iff]
        omega
      obtain ⟨u, hu, hqueue⟩ := execQcmdSkip_goes hr hq hhalt hstays
      refine ⟨execQcmdResume_goes hr hq hhalt hstays, u, _, hu, hqueue, fun hacc => by rw [hacc]; rfl, fun hacc hne => ?_⟩
      have hslots : ¬ ((s.queue q).accepted || (s.queue q).head == (s.queue q).tail) = true := by simpa [hacc] using hne
      rw [if_neg hslots]
      exact ⟨fun bs => State.skipSlots_of_match, fun bs => State.skipSlots_of_mismatch⟩

end Sys2Proof.Machine
end

section
/-! What the decoder draws and keeps: the literals that follow a word, and an S syllable's flags (R75 to R80, R84 to R87). -/

namespace Sys2Proof

/-- What a decoder answers leaves no more literals than it was given, and satisfies `P`. -/
def Dec.Yields {α : Type} (x : Dec (α × List W32)) (ls : List W32) (P : α → Prop) : Prop :=
  ∀ a rest, x = .ok (a, rest) → rest.length ≤ ls.length ∧ P a

namespace Dec.Yields

variable {α β : Type} {ls : List W32} {P : α → Prop}

theorem error (e : DecodeErr) : Dec.Yields (.error e) ls P := fun _ _ h => nomatch h

theorem ok_iff {p : α × List W32} : Dec.Yields (.ok p) ls P ↔ p.2.length ≤ ls.length ∧ P p.1 := by
  constructor
  · exact fun h => h _ _ rfl
  · rintro h _ _ ⟨⟩
    exact h

theorem pure_iff {p : α × List W32} : Dec.Yields (pure p) ls P ↔ p.2.length ≤ ls.length ∧ P p.1 := ok_iff

theorem bind_iff {x : Dec β} {f : β → Dec (α × List W32)} :
    Dec.Yields (x >>= f) ls P ↔ ∀ b, x = .ok b → Dec.Yields (f b) ls P := by
  cases x with
  | error e => exact ⟨fun _ _ h => (nomatch h), fun _ => error e⟩
  | ok b =>
    constructor
    · rintro h _ ⟨⟩
      exact h
    · exact fun h => h b rfl

theorem imp {x : Dec (α × List W32)} {Q : α → Prop} (hx : Dec.Yields x ls P) (h : ∀ a, P a → Q a) : Dec.Yields x ls Q :=
  fun a rest ha => (hx a rest ha).imp_right (h a)

/-- A check of what was decoded refuses it or leaves it as it is. -/
theorem checked {x : Dec (α × List W32)} (hx : Dec.Yields x ls P) (e : DecodeErr) (c : α × List W32 → Bool) :
    Dec.Yields (x >>= fun r => need e (c r) >>= fun _ => pure r) ls P :=
  bind_iff.2 fun p hp => bind_iff.2 fun _ _ => pure_iff.2 (hx p.1 p.2 hp)

end Dec.Yields

/-! ## The four opcode maps (R84 to R87) -/

/-- A literal is drawn from those that follow (R77). -/
theorem takeLit_length {ls rest : List W32} {w : W32} (h : takeLit ls = .ok (w, rest)) : rest.length ≤ ls.length := by
  cases ls with
  | nil => cases h
  | cons v vs =>
    cases h
    exact Nat.le_succ _

/-- A source draws at most its literal (R80). -/
theorem vsrcOf_yields (c : Nat) (ls : List W32) : (vsrcOf c ls).Yields ls fun _ => True := by
  unfold vsrcOf
  repeat' split
  all_goals simp only [Dec.Yields.ok_iff, Dec.Yields.pure_iff, Dec.Yields.bind_iff]
  all_goals grind [→ takeLit_length]

theorem vsrcOf_length {c : Nat} {ls rest : List W32} {a : VSrc} (h : vsrcOf c ls = .ok (a, rest)) : rest.length ≤ ls.length :=
  (vsrcOf_yields c ls a rest h).1

theorem decV_yields (op n : Nat) (ls : List W32) : (decV op n ls).Yields ls fun _ => True := by
  unfold decV
  repeat' split
  all_goals simp only [decV3, decV3R, decV2, decVC, decV3S, decV2C, decV3C, decV2T, decV3T, decV3m0, decV3m1, decVRAND, decV2K,
    Dec.Yields.pure_iff, Dec.Yields.error, Dec.Yields.bind_iff]
  all_goals grind [→ takeLit_length, → vsrcOf_length]

theorem decM_yields (op n : Nat) (ls : List W32) : (decM op n ls).Yields ls fun _ => True := by
  unfold decM
  split
  all_goals simp only [decMQI, decMQR, decMPI, decMPR, decMLI, decMLR, decMSD, decMSDT, decMSS, decMSST, decMSX, decMSXT, decMR, decM0,
    decMN, decMRda, decMRab, decMFW, decMIp, decMIl, decMId, decMIu, decMIc, decMPK, decMUP,
    Dec.Yields.pure_iff, Dec.Yields.error, Dec.Yields.bind_iff]
  all_goals grind [→ takeLit_length]

theorem decX_yields (op n : Nat) (ls : List W32) : (decX op n ls).Yields ls fun _ => True := by
  unfold decX
  repeat' split
  all_goals simp only [decXMCFG, decXMGO, decXT0, decXMBASE, decXCFGLD, decXCFGSWAP, decXMFMT, decXACZERO, decXACALLOC, decXA, decXAB, decXACLD,
    decXXCOPY, decXTSLD, decXTSEV, decXTLOAD, decXRLOAD, decXRSTEP, decXAm0, decXAm1, decXABm0, decX0m1, decXNa, decX0, decXDA, decXDAB,
    decXTRAP, decXNs, Dec.Yields.pure_iff, Dec.Yields.error, Dec.Yields.bind_iff]
  all_goals grind [→ takeLit_length]

theorem bnat_beq_one (b : Bool) : (bnat b == 1) = b := by cases b <;> rfl

theorem bnat_le_one (b : Bool) : bnat b ≤ 1 := by cases b <;> decide

/-- An S syllable shows the flags of its head (R75, R79). -/
theorem wordFlags_encS {op x : Nat} (h : SHead) (hop : op < 2 ^ 7) (hx : x < 2 ^ 15) :
    wordFlags (encS op h x) = (h.shadow, h.sync) := by
  have hlast := bnat_le_one h.last
  have hneg := bnat_le_one h.neg
  have hsync := bnat_le_one h.sync
  have hshadow := bnat_le_one h.shadow
  have hword : (encS op h x).toNat =
      bnat h.last * 2 ^ 31 + op * 2 ^ 22 + bnat h.neg * 2 ^ 21 + h.g.toNat * 2 ^ 17 + x * 4 + bnat h.sync * 2 + bnat h.shadow := by
    simp only [encS, headBits, BitVec.toNat_ofNat]
    omega
  have hkind : fld (encS op h x).toNat 29 2 = 0 := by
    rw [fld, hword]
    omega
  have hbit0 : fld (encS op h x).toNat 0 1 = bnat h.shadow := by
    rw [fld, hword]
    omega
  have hbit1 : fld (encS op h x).toNat 1 1 = bnat h.sync := by
    rw [fld, hword]
    omega
  simp [wordFlags, boolf, hkind, hbit0, hbit1, bnat_beq_one]

/-- An instruction whose first word is an S syllable's carries the flags of its head (R79). -/
theorem sylFlags_of_encS {i : Instr} {op x : Nat} {h : SHead} {ls : List W32} (hi : encode i = encS op h x :: ls)
    (hop : op < 2 ^ 7) (hx : x < 2 ^ 15) : Machine.sylFlags i = (h.shadow, h.sync) := by
  rw [Machine.sylFlags, hi, ← wordFlags_encS h hop hx]

/-- Every S instruction is decoded with the Shadow and Sync bits of its word (R79, R84). -/
theorem decS_yields (op n : Nat) (ls : List W32) : (decS op n ls).Yields ls fun i => Machine.sylFlags i = (boolf n 0, boolf n 1) := by
  unfold decS
  split
  all_goals simp only [decS0, decSR, decSR1, decSL, decSLM, decSC, decSCL, decSB, decSJ, decSLP, decSLPL, decSW, decSP3, decSP2, decSPC,
    decSM, Dec.Yields.pure_iff, Dec.Yields.error, Dec.Yields.bind_iff]
  all_goals
    intros
    refine ⟨?_, sylFlags_of_encS (h := sheadOf n) rfl (by omega) (by omega)⟩
    grind [→ takeLit_length]

/-! ## Syllables and bundles (R75 to R77) -/

/-- What a word decodes to draws its literals from those that follow, and in kind S has the word's flags (R75, R77, R79). -/
theorem decodeSyl_yields (w : W32) (ls : List W32) :
    (decodeSyl w ls).Yields ls fun i => fld w.toNat 29 2 = 0 → Machine.sylFlags i = wordFlags w := by
  unfold decodeSyl
  dsimp only
  split
  all_goals refine Dec.Yields.checked ?_ _ _
  next hkind => exact (decS_yields _ _ _).imp fun i hi _ => by rw [hi, wordFlags, hkind]; rfl
  next hkind => exact (decV_yields _ _ _).imp fun _ _ h0 => absurd (h0.symm.trans hkind) (by decide)
  next hkind => exact (decM_yields _ _ _).imp fun _ _ h0 => absurd (h0.symm.trans hkind) (by decide)
  next hkind _ _ => exact (decX_yields _ _ _).imp fun _ _ h0 => absurd h0 hkind

/-- Syllables draw their literals in turn (R77). -/
theorem decodeAll_yields (ws : List W32) : ∀ ls, (decodeAll ws ls).Yields ls fun _ => True := by
  induction ws with
  | nil => exact fun ls => Dec.Yields.ok_iff.2 ⟨Nat.le_refl _, trivial⟩
  | cons w ws ih =>
    intro ls
    simp only [decodeAll, Dec.Yields.bind_iff, Dec.Yields.pure_iff]
    rintro ⟨i, mid⟩ hi ⟨is, rest⟩ his
    exact ⟨(ih _ _ _ his).1.trans (decodeSyl_yields _ _ _ _ hi).1, trivial⟩

/-- A bundle's syllable words begin with its first word, and what follows them is shorter than the bundle. -/
theorem splitSyl_eq {fuel k : Nat} {ws ss lits : List W32} (h : splitSyl fuel k ws = .ok (ss, lits)) :
    ∃ w vs ss', ws = w :: vs ∧ ss = w :: ss' ∧ lits.length ≤ vs.length := by
  induction fuel generalizing k ws ss with
  | zero => cases h
  | succ fuel ih =>
    cases ws with
    | nil => cases h
    | cons w ws =>
      simp only [splitSyl] at h
      split at h
      · cases h
      · split at h
        · cases h
          exact ⟨w, _, [], rfl, rfl, Nat.le_refl _⟩
        · cases hrec : splitSyl fuel (fld w.toNat 29 2 + 1) ws with
          | error e => simp [hrec, bind, Except.bind] at h
          | ok p =>
            obtain ⟨ss', lits'⟩ := p
            simp only [hrec, bind, Except.bind, pure, Except.pure, Except.ok.injEq, Prod.mk.injEq] at h
            obtain ⟨rfl, rfl⟩ := h
            obtain ⟨v, vs, _, rfl, -, hle⟩ := ih hrec
            exact ⟨w, v :: vs, ss', rfl, rfl, hle.trans (Nat.le_succ _)⟩

/-- A bundle holds a word at least, and its first syllable is what its first word decodes to (R75, R76). -/
theorem decodeBundle_eq {ws : List W32} {b : Bundle} (h : decodeBundle ws = .ok b) :
    ∃ w vs i is ls rest, ws = w :: vs ∧ b.syls = i :: is ∧ decodeSyl w ls = .ok (i, rest) ∧ 0 < b.len := by
  cases hsplit : splitSyl 4 0 (ws.take 8) with
  | error e => simp [decodeBundle, hsplit, bind, Except.bind] at h
  | ok p =>
    obtain ⟨ss, lits⟩ := p
    obtain ⟨w, vs, ss, htake, rfl, hlits⟩ := splitSyl_eq hsplit
    cases hsyl : decodeSyl w lits with
    | error e => simp [decodeBundle, hsplit, decodeAll, hsyl, bind, Except.bind] at h
    | ok p =>
      obtain ⟨i, mid⟩ := p
      cases hall : decodeAll ss mid with
      | error e => simp [decodeBundle, hsplit, decodeAll, hsyl, hall, bind, Except.bind] at h
      | ok p =>
        obtain ⟨is, rest⟩ := p
        simp only [decodeBundle, hsplit, decodeAll, hsyl, hall, bind, Except.bind, pure, Except.pure, Except.ok.injEq] at h
        subst h
        have hmid := (decodeSyl_yields _ _ _ _ hsyl).1
        have hrest := (decodeAll_yields _ _ _ _ hall).1
        obtain ⟨v, us, rfl⟩ : ∃ v us, ws = v :: us := by
          cases ws with
          | nil => cases htake
          | cons v us => exact ⟨v, us, rfl⟩
        obtain ⟨rfl, -⟩ := List.cons_eq_cons.1 htake
        refine ⟨v, us, i, is, lits, mid, rfl, rfl, hsyl, ?_⟩
        simp only [htake, List.length_cons]
        omega

end Sys2Proof
end

section
/-! The bundle that the instruction lines hold: its flags, the struck lines it touches and its bytes (R76, R91, R92, R290). -/

namespace Sys2Proof.Machine

/-- A bundle that the lines hold is what their words from its address decode to (R76). -/
theorem fetchL0_eq_bundle_iff {ls : List Line} {pc : Nat} {b : Bundle} :
    fetchL0 ls pc = .bundle b ↔ pc % 4 = 0 ∧ decodeBundle (l0Words ls 8 pc) = .ok b := by
  unfold fetchL0
  split
  next h => simp_all
  next h =>
    have hpc : pc % 4 = 0 := by simpa using h
    dsimp only
    split
    next hb => simp [hb, hpc]
    next hb =>
      rw [hb]
      split <;> simp

/-- How many words are asked for does not change the first. -/
theorem l0Words_head {ls : List Line} {n m a : Nat} {w : W32} {ws : List W32} (h : l0Words ls (n + 1) a = w :: ws) :
    l0Words ls (m + 1) a = w :: l0Words ls m (a + 4) := by
  simp only [l0Words] at h ⊢
  cases hl : lineBytes ls (a / 64) with
  | none => simp [hl] at h
  | some bs =>
    simp only [hl, List.cons.injEq] at h ⊢
    exact ⟨h.1, trivial⟩

/-- A Shadow flag that a bundle's first word shows is the bundle's (R75, R79). -/
theorem shadow_of_flagsAt {ls : List Line} {pc : Nat} {b : Bundle} (hb : fetchL0 ls pc = .bundle b)
    (hflags : (flagsAt ls pc).1 = true) : (bundleFlags b).1 = true := by
  obtain ⟨hpc, hdec⟩ := fetchL0_eq_bundle_iff.1 hb
  obtain ⟨w, vs, i, is, lits, rest, hws, hsyls, hsyl, -⟩ := decodeBundle_eq hdec
  have hshow : (wordFlags w).1 = true := by simpa [flagsAt, hpc, l0Words_head (m := 0) hws] using hflags
  have hkind : fld w.toNat 29 2 = 0 := by
    by_contra hne
    simp [wordFlags, hne] at hshow
  rw [bundleFlags, hsyls, ← hshow, ← (decodeSyl_yields _ _ _ _ hsyl).2 hkind]

/-! ## The lines that a bundle touches (R290) -/

/-- An error has struck line `n`, in which some of the bundle at `pc` lies (R290). -/
def BadLine (ls : List Line) (pc : Nat) (b : Bundle) (n : Nat) : Prop :=
  pc < 64 * n + 64 ∧ 64 * n < pc + 4 * b.len ∧ lineBad ls n = true

theorem struckLine_eq {ls : List Line} {pc : Nat} {b : Bundle} (hb : fetchL0 ls pc = .bundle b) :
    struckLine ls pc = (linesOf pc (4 * b.len)).find? (lineBad ls) := by
  simp [struckLine, (fetchL0_eq_bundle_iff.1 hb).1, hb]

theorem fetchL0_len_pos {ls : List Line} {pc : Nat} {b : Bundle} (hb : fetchL0 ls pc = .bundle b) : 0 < b.len := by
  obtain ⟨_, _, _, _, _, _, -, -, -, hpos⟩ := decodeBundle_eq (fetchL0_eq_bundle_iff.1 hb).2
  exact hpos

/-- The lines that a range overlaps. -/
theorem mem_linesOf {a len n : Nat} (hlen : 0 < len) : n ∈ linesOf a len ↔ a < 64 * n + 64 ∧ 64 * n < a + len := by
  have hne : ¬ (len == 0) = true := by simpa using Nat.ne_of_gt hlen
  simp only [linesOf, if_neg hne, List.mem_map, List.mem_range]
  constructor
  · rintro ⟨i, hi, rfl⟩
    omega
  · intro h
    exact ⟨n - a / 64, by omega, by omega⟩

theorem linesOf_pairwise (a len : Nat) : (linesOf a len).Pairwise (· < ·) := by
  unfold linesOf
  split
  · exact .nil
  · exact List.pairwise_map.2 (List.pairwise_lt_range.imp fun h => Nat.add_lt_add_left h _)

/-- The first struck line that a bundle touches. -/
theorem struckLine_eq_some {ls : List Line} {pc n : Nat} {b : Bundle} (hb : fetchL0 ls pc = .bundle b)
    (hn : BadLine ls pc b n) (hfirst : ∀ m < n, ¬ BadLine ls pc b m) : struckLine ls pc = some n := by
  have hlen : 0 < 4 * b.len := by have := fetchL0_len_pos hb; omega
  obtain ⟨hlo, hhi, hbad⟩ := hn
  rw [struckLine_eq hb]
  obtain ⟨xs, ys, hsplit⟩ := List.append_of_mem ((mem_linesOf hlen).2 ⟨hlo, hhi⟩)
  refine List.find?_eq_some_iff_append.2 ⟨hbad, xs, ys, hsplit, fun m hm => ?_⟩
  have hmem : m ∈ linesOf pc (4 * b.len) := by rw [hsplit]; exact List.mem_append_left _ hm
  have hlt : m < n := by
    have hp := linesOf_pairwise pc (4 * b.len)
    rw [hsplit] at hp
    exact (List.pairwise_append.1 hp).2.2 m hm n List.mem_cons_self
  obtain ⟨hmlo, hmhi⟩ := (mem_linesOf hlen).1 hmem
  simpa using fun hm => hfirst m hlt ⟨hmlo, hmhi, hm⟩

theorem struckLine_eq_none {ls : List Line} {pc : Nat} {b : Bundle} (hb : fetchL0 ls pc = .bundle b)
    (hnone : ∀ n, ¬ BadLine ls pc b n) : struckLine ls pc = none := by
  have hlen : 0 < 4 * b.len := by have := fetchL0_len_pos hb; omega
  rw [struckLine_eq hb]
  refine List.find?_eq_none.2 fun n hn hbad => ?_
  obtain ⟨hlo, hhi⟩ := (mem_linesOf hlen).1 hn
  exact hnone n ⟨hlo, hhi, hbad⟩

/-! ## The bytes of a bundle (R76, R92) -/

theorem wordsOf_cons {bs : List Byte} (h : 4 ≤ bs.length) :
    wordsOf bs = BitVec.ofNat 32 (natOfBytes (bs.take 4)) :: wordsOf (bs.drop 4) := by
  match bs, h with
  | a :: b :: c :: d :: rest, _ => rfl

/-- The words from an address on are those of any bytes that the lines hold there. -/
theorem l0Words_eq_wordsOf {ls : List Line} (n : Nat) : ∀ {a : Nat} {bs : List Byte}, bs.length = 4 * n →
    (∀ k < n, ∃ l, lineBytes ls ((a + 4 * k) / 64) = some l ∧ (l.drop ((a + 4 * k) % 64)).take 4 = (bs.drop (4 * k)).take 4) →
    l0Words ls n a = wordsOf bs := by
  induction n with
  | zero =>
    intro a bs hlen _
    rw [List.length_eq_zero_iff.1 hlen]
    rfl
  | succ n ih =>
    intro a bs hlen hlines
    obtain ⟨l, hl, hbytes⟩ := hlines 0 (Nat.succ_pos n)
    have hrest : l0Words ls n (a + 4) = wordsOf (bs.drop 4) := by
      refine ih (by rw [List.length_drop]; omega) fun k hk => ?_
      obtain ⟨l', hl', hbytes'⟩ := hlines (k + 1) (by omega)
      have haddr : a + 4 + 4 * k = a + 4 * (k + 1) := by omega
      rw [haddr, List.drop_drop, show 4 + 4 * k = 4 * (k + 1) by omega]
      exact ⟨l', hl', hbytes'⟩
    simp only [Nat.mul_zero, Nat.add_zero, List.drop_zero] at hl hbytes
    rw [l0Words, hl, wordsOf_cons (by omega)]
    dsimp only
    rw [hbytes, hrest]

/-- The bundle at an address is what the bytes that the lines hold there decode to. -/
theorem fetchL0_of_decodeBytes {ls : List Line} {pc : Nat} {bs : List Byte} {b : Bundle} (hpc : pc % 4 = 0) (hlen : bs.length = 32)
    (hlines : ∀ k < 8, ∃ l, lineBytes ls ((pc + 4 * k) / 64) = some l ∧
      (l.drop ((pc + 4 * k) % 64)).take 4 = (bs.drop (4 * k)).take 4)
    (hdec : decodeBytes bs = .ok b) : fetchL0 ls pc = .bundle b :=
  fetchL0_eq_bundle_iff.2 ⟨hpc, by rw [l0Words_eq_wordsOf 8 hlen hlines]; exact hdec⟩

theorem fetchL0_within_line {ls : List Line} {pc : Nat} {a : List Byte} {b : Bundle} (hpc : pc % 4 = 0)
    (ha : lineBytes ls (pc / 64) = some a) (hlen : a.length = 64) (hfits : pc % 64 + 32 ≤ 64)
    (hdec : decodeBytes ((a.drop (pc % 64)).take 32) = .ok b) : fetchL0 ls pc = .bundle b := by
  refine fetchL0_of_decodeBytes hpc (by simp; omega) (fun k hk => ⟨a, ?_, ?_⟩) hdec
  · rw [show (pc + 4 * k) / 64 = pc / 64 by omega, ha]
  · rw [show (pc + 4 * k) % 64 = pc % 64 + 4 * k by omega, List.drop_take, List.take_take, List.drop_drop,
      show min 4 (32 - 4 * k) = 4 by omega]

theorem fetchL0_across_lines {ls : List Line} {pc : Nat} {a a' : List Byte} {b : Bundle} (hpc : pc % 4 = 0)
    (ha : lineBytes ls (pc / 64) = some a) (hlen : a.length = 64) (ha' : lineBytes ls (pc / 64 + 1) = some a')
    (hlen' : a'.length = 64) (hdec : decodeBytes (((a ++ a').drop (pc % 64)).take 32) = .ok b) : fetchL0 ls pc = .bundle b := by
  refine fetchL0_of_decodeBytes hpc (by simp; omega) (fun k hk => ?_) hdec
  rw [List.drop_take, List.take_take, List.drop_drop, show min 4 (32 - 4 * k) = 4 by omega]
  by_cases hin : pc % 64 + 4 * k < 64
  · refine ⟨a, by rw [show (pc + 4 * k) / 64 = pc / 64 by omega, ha], ?_⟩
    rw [show (pc + 4 * k) % 64 = pc % 64 + 4 * k by omega, List.drop_append_of_le_length (by omega),
      List.take_append_of_le_length (by rw [List.length_drop]; omega)]
  · refine ⟨a', by rw [show (pc + 4 * k) / 64 = pc / 64 + 1 by omega, ha'], ?_⟩
    rw [show (pc + 4 * k) % 64 = pc % 64 + 4 * k - 64 by omega, List.drop_append,
      List.drop_eq_nil_of_le (show a.length ≤ pc % 64 + 4 * k by omega), List.nil_append, hlen]

end Sys2Proof.Machine
end

section
/-! Where an error has struck nothing, results that land strike nothing (R290). -/

namespace Sys2Proof.Machine

/-- No error has struck a context of the core, the format table or a plane. -/
def Core.Unstruck (c : Core) (k : Nat) : Prop := (c.cluster k).struck = [] ∧ c.marks = []

/-- A bundle reads nothing struck where nothing is. -/
theorem Core.Unstruck.strikes_eq_none {c : Core} {k : Nat} (h : c.Unstruck k) (i : Instr) : c.strikes k i = none := by
  obtain ⟨hcl, hmarks⟩ := h
  have hreads : ((c.cluster k).readsOf i).find? (c.cluster k).struck.contains = none := by
    rw [hcl]
    exact List.find?_eq_none.2 fun _ _ h => nomatch h
  unfold Core.strikes
  simp only [hreads]
  split <;> simp [hmarks, Core.planeBad]

theorem Core.Unstruck.findSome?_eq_none {c : Core} {k : Nat} (h : c.Unstruck k) (is : List Instr) :
    is.findSome? (c.strikes k) = none := by
  simp [h.strikes_eq_none]

theorem Cluster.landVec_struck_nil {c : Cluster} (h : c.struck = []) (d : VDst) (act : W64) (v : Lanes) :
    (c.landVec d act v).struck = [] := by
  cases d <;> simp [Cluster.landVec, Cluster.pushL, downMarks, heal, h]

theorem Cluster.ws_struck_nil {c : Cluster} (h : c.struck = []) (x : Nat) (d : Reg) (v : W64) : (c.ws x d v).struck = [] := by
  unfold Cluster.ws
  split <;> simp [heal, h]

theorem Cluster.wp_struck_nil {c : Cluster} (h : c.struck = []) (p : Nat) (v m : W64) : (c.wp p v m).struck = [] := by
  unfold Cluster.wp
  split <;> simp [heal, h]

theorem Cluster.writeSpecial_struck_nil {c : Cluster} (h : c.struck = []) (code : Nat) (v : W64) : (c.writeSpecial code v).struck = [] := by
  unfold Cluster.writeSpecial
  repeat' split
  all_goals simp only [h, Cluster.wp_struck_nil]

/-- A change of one context that strikes nothing. -/
theorem Core.Unstruck.modCl {c : Core} {k : Nat} (h : c.Unstruck k) (j : Nat) {f : Cluster → Cluster}
    (hf : ∀ x : Cluster, x.struck = [] → (f x).struck = []) : (c.modCl j f).Unstruck k := by
  refine ⟨?_, h.2⟩
  rw [Core.cluster, Core.modCl, vget_vset]
  split
  next hj => exact hf _ (by rw [hj.1]; exact h.1)
  next => exact h.1

/-- A result that lands strikes nothing. -/
theorem Core.Unstruck.apply {c : Core} {k : Nat} (h : c.Unstruck k) (beat : Nat) (a : Act) : (c.apply beat a).Unstruck k := by
  cases a with
  | scalar => exact h.modCl _ fun _ hx => Cluster.ws_struck_nil hx ..
  | rgc => exact h.modCl _ fun _ hx => Cluster.ws_struck_nil hx ..
  | pred => exact h.modCl _ fun _ hx => Cluster.wp_struck_nil hx ..
  | vec => exact h.modCl _ fun _ hx => Cluster.landVec_struck_nil hx ..
  | teval => exact h.modCl _ fun _ hx => Cluster.landVec_struck_nil hx ..
  | append => exact h.modCl _ fun _ hx => hx
  | special => exact h.modCl _ fun _ hx => Cluster.writeSpecial_struck_nil hx ..
  | fmtEntry e v => exact ⟨h.1, by simp [Core.apply, heal, h.2]⟩
  | accAdd _ zero => cases zero <;> simpa [Core.Unstruck, Core.apply, Core.cluster, Core.setBank] using h
  | plane | ruled | spad | tag | accRow | accZero | accPoison | dram => exact h

theorem Core.Unstruck.withLanded {k : Nat} (es : List Timed) : ∀ {c : Core}, c.Unstruck k → (c.withLanded es).Unstruck k := by
  induction es with
  | nil => exact fun h => h
  | cons e es ih => exact fun h => ih (h.apply e.beat e.act)

theorem Core.Unstruck.settled {c : Core} {k : Nat} (h : c.Unstruck k) (before : Option Core) : (c.settled before).Unstruck k :=
  h.withLanded _

theorem Core.Unstruck.drainedSeen {c : Core} {k : Nat} (h : c.Unstruck k) : c.drainedSeen.Unstruck k := h.withLanded _

end Sys2Proof.Machine
end

section
/-! One step of the device: a bundle of the program or of a handler, an event, an input or a nanosecond (R77, R89, R239, R244, R255, R282,
R286; log 4). -/

namespace Sys2Proof.Machine

/-! ## The step and the schedule (R255; log 4) -/

theorem step_of_todo {s : State} {j : Job} {js : List Job} (h : s.todo = j :: js) : step s = .next ({ s with todo := js }.runJob j) := by
  rw [step, h]

theorem step_input {s : State} {n : Nat} {i : Instr} {is : List (Nat × Instr)} (h : s.todo = []) (hin : s.inputs = (n, i) :: is)
    (hdue : n ≤ s.wtime) : step s = exec i { s with inputs := is } := by
  simp only [step, h, hin, if_pos hdue]

theorem step_tick {s : State} (h : s.todo = []) (hin : ∀ e ∈ s.inputs.head?, s.wtime < e.1) : step s = .next s.tick := by
  cases hs : s.inputs with
  | nil => simp only [step, h, hs]
  | cons e is =>
    have hwait : ¬ e.1 ≤ s.wtime := Nat.not_le.2 (hin e (by rw [hs]; rfl))
    simp only [step, h, hs, if_neg hwait]

/-! ## Strands, cores and clusters found -/

theorem Strand.clusterAt_eq {t : Strand} {n : Nat} {co : Core} (h : t.cores[n]? = some co) (k : Nat) : t.clusterAt n k = co.cluster k := by
  simp only [Strand.clusterAt, h]

theorem State.eview_of {s : State} {r : CoreRef} {t : Strand} {co : Core} (ht : s.strand? r.strand = some t) (hco : t.cores[r.core]? = some co) :
    s.eview r = some { ref := r, st := t, co } := by
  simp only [State.eview, ht, hco]

/-- A strand that is found, after a change of it that keeps its identifier. -/
theorem State.strand_modStrand_found {s : State} {n : Nat} {t : Strand} {f : Strand → Strand} (hf : ∀ x, (f x).sid = x.sid)
    (ht : s.strand? n = some t) : (s.modStrand n f).strand? n = some (f t) := by
  rw [State.strand_modStrand s n f fun x hx => (hf x).trans hx, ht]
  rfl

/-- What a drain has landed on some core of the strand and has its beat still to come (R282). -/
def Strand.Drained (t : Strand) : Prop := ∃ co ∈ t.cores, ∃ e ∈ co.agenda, e.drained = true

theorem Strand.drained_iff {t : Strand} : t.Drained ↔ (t.cores.all fun c => c.agenda.all fun e => !e.drained) = false := by
  simp [Strand.Drained]

/-- The strand as it stands where a drain's results are seen. -/
def Strand.seen (t : Strand) : State → State := fun s => s.modStrand t.sid fun y => { y with cores := t.cores.map Core.drainedSeen }

/-- The strand's stores as they were, once what saw a drain's results is over. -/
def Strand.unseen (t : Strand) : State → State := fun u => u.modStrand t.sid fun y =>
  { y with cores := List.zipWith (fun c o => c.unsettled o.1 o.2) y.cores ((t.cores.map Core.drainedSeen).zip t.cores) }

theorem State.seeing_of_not_drained {s : State} {sid : Nat} {t : Strand} (f : State → State) (ht : s.strand? sid = some t) (h : ¬ t.Drained) :
    s.seeing sid f = f s :=
  State.seeing_eq ht (by rwa [Strand.drained_iff, Bool.not_eq_false] at h)

theorem State.seeing_of_drained {s : State} {sid : Nat} {t : Strand} (f : State → State) (ht : s.strand? sid = some t) (h : t.Drained) :
    s.seeing sid f = t.unseen (f (t.seen s)) := by
  obtain rfl := State.strand_sid ht
  simp only [State.seeing, ht, Strand.drained_iff.1 h, Bool.false_eq_true, if_false]
  rfl

/-! ## Syllables in turn (R77, R290) -/

theorem State.runSyllables_eq {is : List Instr} : ∀ {s u : State}, runsTo is s u → s.runSyllables is = u := by
  induction is with
  | nil => exact fun h => h
  | cons i is ih =>
    rintro s u ⟨v, hi, his⟩
    rw [State.runSyllables, hi]
    exact ih his

/-- After a bundle's syllables: POISON is raised beside what they did where one of them reads what an error has struck (R290). -/
def View.afterReads (v : View) (is : List Instr) (u : State) : State := match is.findSome? (v.co.strikes v.cur.cl) with
  | some e => v.raise u cPoison (BitVec.ofNat 64 e)
  | none => u

theorem State.runReads_eq {s u : State} {v : View} {is : List Instr} (hv : s.view = some v) (h : runsTo is s u) :
    s.runReads is = v.afterReads is u := by
  simp only [State.runReads, hv, State.runSyllables_eq h]
  rfl

theorem State.runReads_of_unstruck {s u : State} {v : View} {is : List Instr} (hv : s.view = some v) (hu : v.co.Unstruck v.cur.cl)
    (h : runsTo is s u) : s.runReads is = u := by
  rw [State.runReads_eq hv h, View.afterReads, hu.findSome?_eq_none]

/-! ## One bundle (R75 to R114, R239, R244) -/

/-- The issuing context of a cluster's bundle (R78). -/
def Strand.issuing (t : Strand) (r : CRef) (c : Cluster) (b : Bundle) (handler : Bool) : Cur :=
  { sid := t.sid, core := r.core, cl := r.cl, beat := t.beat, pc := c.seq.pc, next := c.seq.pc + 4 * b.len,
    shadow := (bundleFlags b).1, handler, moved := false }

theorem State.issueBundle_handler (s : State) (r : CRef) (t : Strand) : s.issueBundle r t true = s.runAt r t true := rfl

section
variable {s : State} {r : CRef} {t : Strand} {c : Cluster} {b : Bundle} (hc : t.clusterAt r.core r.cl = c)
include hc

/-- A bundle of the program whose Shadow run is within R109 raises no SHADOW. -/
theorem State.issueBundle_eq (hb : fetchL0 (c.issueLines t.beat) c.seq.pc = .bundle b)
    (hrun : (bundleFlags b).1 = true → c.shadowRun < 64) : s.issueBundle r t false = s.runAt r t false := by
  subst hc
  have hshort : ¬ (!false && decide (64 ≤ (t.clusterAt r.core r.cl).shadowRun) &&
      (flagsAt ((t.clusterAt r.core r.cl).issueLines t.beat) (t.clusterAt r.core r.cl).seq.pc).1) = true := by
    simp only [Bool.not_false, Bool.true_and, Bool.and_eq_true, decide_eq_true_eq]
    rintro ⟨hlong, hshadow⟩
    exact absurd (hrun (shadow_of_flagsAt hb hshadow)) (Nat.not_lt.2 hlong)
  exact if_neg hshort

variable {handler : Bool} {ls : List Line} (hls : (if handler = true then c.l0 else c.issueLines t.beat) = ls)
  (hb : fetchL0 ls c.seq.pc = .bundle b)
include hls hb

/-- A bundle that no struck line holds and no loop's End cuts runs, and its cluster's sequence goes on (R89, R112). -/
theorem State.runAt_bundle (hwhole : ∀ n, ¬ BadLine ls c.seq.pc b n) (hcross : c.seq.crosses (4 * b.len) = false) :
    s.runAt r t handler = ({ s with cur := some (t.issuing r c b handler) }.runBundle r
      (handler || (!(bundleFlags b).1 && decide (t.beat < c.horizon))) (bundleFlags b).1 b.syls).bundleEnds r c.seq.pc (4 * b.len) t.beat
      ((bundleFlags b).2 && !handler) ((bundleFlags b).1 && !handler) := by
  simp only [State.runAt, hc, hls, struckLine_eq_none hb hwhole, hb, hcross, Bool.false_eq_true, if_false]
  rfl

/-- A bundle whose first struck line is `n` raises POISON at its first byte there (R290). -/
theorem State.runAt_struck {n : Nat} (hn : BadLine ls c.seq.pc b n) (hfirst : ∀ m < n, ¬ BadLine ls c.seq.pc b m) :
    s.runAt r t handler = s.issueFault r t handler c.seq.pc cPoison (BitVec.ofNat 64 (max c.seq.pc (64 * n))) := by
  have haddr : (if n == c.seq.pc / 64 then c.seq.pc else 64 * n) = max c.seq.pc (64 * n) := by
    have hlo := hn.1
    split
    next h =>
      have hline := eq_of_beq h
      omega
    next h =>
      have hline : n ≠ c.seq.pc / 64 := by simpa using h
      omega
  simp only [State.runAt, hc, hls, struckLine_eq_some hb hn hfirst, haddr]

end

section
variable {r : CRef} {t : Strand} {handler : Bool}

/-- A fault at a bundle that does not run adds one cause to its strand's, and leaves memory alone. -/
theorem State.issueFault_spec {co : Core} (s : State) (next code : Nat) (addr : W64) (ht : s.strand? t.sid = some t)
    (hco : t.cores[r.core]? = some co) : ∃ y x, (s.issueFault r t handler next code addr).strand? t.sid = some y ∧
      y.raised = t.raised ++ [x] ∧ x.code = code ∧ x.kind = .p ∧ x.core = r.core ∧ x.cl = r.cl ∧ x.addr = addr ∧
      (s.issueFault r t handler next code addr).mem = s.mem := by
  have hview (c : Cur) (hsid : c.sid = t.sid) (hcore : c.core = r.core) :
      { s with cur := some c }.view = some ⟨c, t, co, co.cluster c.cl⟩ :=
    State.view_of rfl (by rw [hsid]; exact ht) (by rw [hcore]; exact hco)
  simp only [State.issueFault]
  rw [hview _ rfl rfl]
  exact ⟨_, _, State.strand_modStrand_found (fun _ => rfl) (State.strand_modStrand_found (fun _ => rfl) ht), rfl, rfl, rfl, rfl, rfl,
    rfl, rfl⟩
end

section
variable {s u : State} {r : CRef} {t : Strand} {co : Core} {is : List Instr}

/-! ## What a bundle sees (R239, R282, R286) -/

theorem State.runBundle_now {shadow : Bool} (ht : s.strand? r.strand = some t) (h : shadow = true ∨ ¬ t.Drained) :
    s.runBundle r false shadow is = s.runReads is := by
  cases shadow with
  | true => rfl
  | false =>
    exact State.seeing_of_not_drained (fun s => s.runReads is) ht (h.resolve_left Bool.false_ne_true)

theorem State.runBundle_drained (ht : s.strand? r.strand = some t) (h : t.Drained) :
    s.runBundle r false false is = t.unseen ((t.seen s).runReads is) :=
  State.seeing_of_drained (fun s => s.runReads is) ht h

theorem State.strand_withCore (f : Core → Core) (ht : s.strand? r.strand = some t) :
    (s.withCore r f).strand? r.strand = some (t.modCore r.core f) :=
  State.strand_modStrand_found (fun _ => rfl) ht

theorem Strand.modCore_core (f : Core → Core) (hco : t.cores[r.core]? = some co) : (t.modCore r.core f).cores[r.core]? = some (f co) := by
  simp [hco]

theorem State.strand_seen (ht : s.strand? t.sid = some t) :
    (t.seen s).strand? t.sid = some { t with cores := t.cores.map Core.drainedSeen } :=
  State.strand_modStrand_found (fun _ => rfl) ht

/-- A core as a bundle sees it that waits for what was issued before: `more` is what block transfers have still to write (R239, R286). -/
def Core.interlocked (co : Core) (handler : Bool) (before : Option Core) (more : List Timed) : Core :=
  { (co.settled before).withLanded more with coming := if handler then tagsOf (co.agenda ++ more) else co.tagsMet (co.agenda ++ more) }

theorem Core.Unstruck.interlocked {k : Nat} (h : co.Unstruck k) (handler : Bool) (before : Option Core) (more : List Timed) :
    (co.interlocked handler before more).Unstruck k :=
  (h.settled before).withLanded more

/-- A bundle that waits for what was issued before: what it issues itself is left to come. -/
theorem State.runSettled_eq {c : Cur} (ht : s.strand? r.strand = some t) (hco : t.cores[r.core]? = some co) (hcur : s.cur = some c)
    (hsid : c.sid = r.strand) (hcore : c.core = r.core) (hu : co.Unstruck c.cl) {before : Option Core}
    (hbefore : (s.snap.map fun o => o.cores[r.core]?).join = before) {seen : Core}
    (hseen : seen = co.interlocked (t.status == .handler) before (s.toCopy t r.core))
    (h : runsTo is (s.withCore r fun _ => seen) u) : s.runSettled r is = u.withCore r fun c => c.unsettled seen co := by
  have hview : (s.withCore r fun _ => seen).view = some ⟨c, t.modCore r.core fun _ => seen, seen, seen.cluster c.cl⟩ := by
    refine State.view_of hcur ?_ ?_
    · rw [hsid]
      exact State.strand_withCore _ ht
    · rw [hcore]
      exact Strand.modCore_core _ hco
  have hreads := State.runReads_of_unstruck hview (by rw [hseen]; exact hu.interlocked ..) h
  have hmatch : (match s.snap with | some o => o.cores[r.core]? | none => none) = before := by
    rw [← hbefore]
    cases s.snap <;> rfl
  rw [← hreads, hseen, ← hmatch]
  simp only [State.runSettled, State.eview_of (r := ⟨r.strand, r.core⟩) ht hco]
  rfl

/-! ## A bundle of the program (R89, R92, R244) -/

theorem State.issueAt_skip (ht : s.strand? r.strand = some t) (hrun : t.status ≠ .handler) (hskip : (t.clusterAt r.core r.cl).skip ≠ 0)
    (hhalt : (t.clusterAt r.core r.cl).halted = false) :
    s.issueAt r = s.modStrand t.sid fun t => t.modCl r.core r.cl fun c => c.skipOne t.beat := by
  simp [State.issueAt, ht, hrun, hskip, hhalt]

theorem State.issueAt_run (ht : s.strand? r.strand = some t) (hrun : t.status ≠ .handler) (hskip : (t.clusterAt r.core r.cl).skip = 0)
    (hissues : (t.clusterAt r.core r.cl).issues t.beat = true) : s.issueAt r = s.issueBundle r t false := by
  simp [State.issueAt, ht, hrun, hskip, hissues]

theorem State.issueAt_handler (ht : s.strand? r.strand = some t) (hrun : t.status = .handler) : s.issueAt r = s.handlerBundle r t := by
  simp [State.issueAt, ht, hrun]

/-! ## A bundle of a handler (R239) -/

/-- A bundle whose lines are present needs no look-up. -/
theorem State.lookUp_of_bundle {pc n : Nat} {ls : Cluster → List Line} {missed : Bool} {b : Bundle} (ht : s.strand? r.strand = some t)
    (hb : fetchL0 (ls (t.clusterAt r.core r.cl)) pc = .bundle b) : s.lookUp r pc ls (n + 1) missed = (s, missed) := by
  simp only [State.lookUp, ht, hb]

/-- A core whose cluster's running handler has seen what it waits for. -/
def Core.waitsOver (co : Core) (k : Nat) : Core := co.modCl k fun c => { c with waits := c.waits.filter fun w => w.handler != c.depth }

theorem Core.Unstruck.waitsOver {k : Nat} (h : co.Unstruck k) : (co.waitsOver k).Unstruck k := h.modCl _ fun _ hx => hx

theorem State.landNew_of_none {x : State} (h : x.strand? r.strand = none) : x.landNew r t = x := by
  simp only [State.landNew, State.eview, h]

/-- The state in which a handler's bundle begins: it has the strand as it stood to go back to, should the bundle fault. -/
def State.handlerBegun (s : State) (r : CRef) (t : Strand) (cur : Cur) : State :=
  { s with snap := some t, cur := some cur }.withCore r fun co => co.waitsOver r.cl

/-- The core as that bundle sees it. -/
def State.handlerSeen (s : State) (r : CRef) (t : Strand) (co : Core) (cur : Cur) : Core :=
  (co.waitsOver r.cl).interlocked true (some co) ((s.handlerBegun r t cur).toCopy (t.modCore r.core fun co => co.waitsOver r.cl) r.core)

/-- A handler's bundle that raises no fault has its results landed at once. -/
theorem State.handlerBundle_eq {b : Bundle} (ht : s.strand? r.strand = some t) (hready : (t.clusterAt r.core r.cl).handlerReady = true)
    (hskip : (t.clusterAt r.core r.cl).skip = 0) (hb : fetchL0 (t.clusterAt r.core r.cl).l0 (t.clusterAt r.core r.cl).seq.pc = .bundle b)
    {x : State} (hx : { s.withCore r fun co => co.waitsOver r.cl with snap := some t }.runAt r t true = x)
    (hclean : ∀ y, x.strand? t.sid = some y → y.faulted r = false) : s.handlerBundle r t = x.landNew r t := by
  have hsid := State.strand_sid ht
  have hfound : s.strand? t.sid = some t := by rw [hsid]; exact ht
  have hx' : { (s.modStrand t.sid fun t => t.modCl r.core r.cl fun c => { c with waits := c.waits.filter fun w => w.handler != c.depth }) with
      snap := some t }.issueBundle r t true = x := by
    rw [State.issueBundle_handler, hsid]
    exact hx
  simp only [State.handlerBundle, hready, Bool.not_true, Bool.false_eq_true, if_false, State.lookUp_of_bundle ht hb, hfound, hskip,
    bne_self_eq_false, hx']
  cases hy : x.strand? t.sid with
  | none => exact (State.landNew_of_none (by rw [← hsid]; exact hy)).symm
  | some y => simp only [hclean y hy, Bool.false_eq_true, if_false]

/-! ## A step that issues a bundle (R255) -/

/-- What the syllables of a bundle see that runs on the stores as they are. -/
theorem view_issuing {js : List Job} {cur : Cur} (ht : s.strand? r.strand = some t) (hco : t.cores[r.core]? = some co)
    (hsid : cur.sid = t.sid) (hcore : cur.core = r.core) :
    { s with todo := js, cur := some cur }.view = some ⟨cur, t, co, co.cluster cur.cl⟩ :=
  State.view_of rfl (by rw [hsid, State.strand_sid ht]; exact ht) (by rw [hcore]; exact hco)

section
variable {js : List Job} {b : Bundle} {cur : Cur} (htodo : s.todo = .issue r :: js) (ht : s.strand? r.strand = some t)
  (hco : t.cores[r.core]? = some co)
include htodo ht hco

/-- A bundle that TRET.SKIP skips only passes (R244). -/
theorem step_skips (hrun : t.status ≠ .handler) (hskip : (co.cluster r.cl).skip ≠ 0) (hhalt : (co.cluster r.cl).halted = false) :
    step s = .next ({ s with todo := js }.modStrand t.sid fun t => t.modCl r.core r.cl fun c => c.skipOne t.beat) := by
  rw [← Strand.clusterAt_eq hco] at hskip hhalt
  rw [step_of_todo htodo]
  exact congrArg _ (State.issueAt_skip (s := { s with todo := js }) ht hrun hskip hhalt)

section
variable (hrun : t.status ≠ .handler) (hb : fetchL0 ((co.cluster r.cl).issueLines t.beat) (co.cluster r.cl).seq.pc = .bundle b)
  (hissues : (co.cluster r.cl).issues t.beat = true) (hskip : (co.cluster r.cl).skip = 0)
  (hshadow : (bundleFlags b).1 = true → (co.cluster r.cl).shadowRun < 64)
include hrun hb hissues hskip hshadow

theorem step_issues : step s = .next ({ s with todo := js }.runAt r t false) := by
  have hc := Strand.clusterAt_eq hco r.cl
  rw [← hc] at hissues hskip
  rw [step_of_todo htodo, ← State.issueBundle_eq hc hb hshadow]
  exact congrArg _ (State.issueAt_run (s := { s with todo := js }) ht hrun hskip hissues)

/-- A bundle in a line that an error has struck raises POISON alone (R290). -/
theorem step_struck {n : Nat} (hn : BadLine ((co.cluster r.cl).issueLines t.beat) (co.cluster r.cl).seq.pc b n)
    (hfirst : ∀ m < n, ¬ BadLine ((co.cluster r.cl).issueLines t.beat) (co.cluster r.cl).seq.pc b m) :
    ∃ v y x, step s = .next v ∧ v.strand? t.sid = some y ∧ y.raised = t.raised ++ [x] ∧ x.code = cPoison ∧ x.kind = .p ∧
      x.core = r.core ∧ x.cl = r.cl ∧ x.addr = BitVec.ofNat 64 (max (co.cluster r.cl).seq.pc (64 * n)) ∧ v.mem = s.mem := by
  have hstep := step_issues htodo ht hco hrun hb hissues hskip hshadow
  rw [State.runAt_struck (handler := false) (Strand.clusterAt_eq hco r.cl) rfl hb hn hfirst] at hstep
  have hfound : { s with todo := js }.strand? t.sid = some t := by rw [State.strand_sid ht]; exact ht
  obtain ⟨y, x, hspec⟩ := State.issueFault_spec { s with todo := js } _ _ _ hfound hco
  exact ⟨_, y, x, hstep, hspec⟩

section
variable (hwhole : ∀ n, ¬ BadLine ((co.cluster r.cl).issueLines t.beat) (co.cluster r.cl).seq.pc b n)
  (hcross : (co.cluster r.cl).seq.crosses (4 * b.len) = false) (hcur : cur = t.issuing r (co.cluster r.cl) b false)
include hwhole hcross hcur

/-- A bundle that runs, in its own context; then its cluster's sequence goes on. -/
theorem step_bundle : step s = .next (({ s with todo := js, cur := some cur }.runBundle r
      (!(bundleFlags b).1 && decide (t.beat < (co.cluster r.cl).horizon)) (bundleFlags b).1 b.syls).bundleEnds r cur.pc (4 * b.len) t.beat
      (bundleFlags b).2 (bundleFlags b).1) := by
  rw [step_issues htodo ht hco hrun hb hissues hskip hshadow,
    State.runAt_bundle (handler := false) (Strand.clusterAt_eq hco r.cl) rfl hb hwhole hcross, hcur]
  simp only [Bool.false_or, Bool.not_false, Bool.and_true]
  rfl

/-- A bundle with Shadow, and one that nothing before it holds up, runs on the stores as they are (R286). -/
theorem step_bundle_now (hnow : (bundleFlags b).1 = true ∨ (co.cluster r.cl).horizon ≤ t.beat ∧ ¬ t.Drained)
    (h : runsTo b.syls { s with todo := js, cur := some cur } u) :
    step s = .next ((View.afterReads ⟨cur, t, co, co.cluster r.cl⟩ b.syls u).bundleEnds r cur.pc (4 * b.len) t.beat
      (bundleFlags b).2 (bundleFlags b).1) := by
  have hfree : (!(bundleFlags b).1 && decide (t.beat < (co.cluster r.cl).horizon)) = false := by
    rcases hnow with hflag | ⟨hlate, -⟩
    · simp [hflag]
    · simp [Nat.not_lt.2 hlate]
  have hsees : (bundleFlags b).1 = true ∨ ¬ t.Drained := hnow.imp_right And.right
  rw [step_bundle htodo ht hco hrun hb hissues hskip hshadow hwhole hcross hcur, hfree,
    State.runBundle_now (s := { s with todo := js, cur := some cur }) ht hsees,
    State.runReads_eq (view_issuing ht hco (by rw [hcur]; rfl) (by rw [hcur]; rfl)) h, hcur]
  rfl

/-- One without Shadow past its horizon sees what a drain has landed (R282). -/
theorem step_bundle_drained (hflag : (bundleFlags b).1 = false) (hlate : (co.cluster r.cl).horizon ≤ t.beat) (hd : t.Drained)
    (hu : co.Unstruck r.cl) (h : runsTo b.syls (t.seen { s with todo := js, cur := some cur }) u) :
    step s = .next ((t.unseen u).bundleEnds r cur.pc (4 * b.len) t.beat (bundleFlags b).2 (bundleFlags b).1) := by
  have hfree : (!(bundleFlags b).1 && decide (t.beat < (co.cluster r.cl).horizon)) = false := by simp [Nat.not_lt.2 hlate]
  have hview : (t.seen { s with todo := js, cur := some cur }).view =
      some ⟨cur, { t with cores := t.cores.map Core.drainedSeen }, co.drainedSeen, co.drainedSeen.cluster cur.cl⟩ := by
    subst hcur
    refine State.view_of rfl (State.strand_seen ?_) ?_
    · rw [State.strand_sid ht]
      exact ht
    · simp [Strand.issuing, hco]
  have hreads := State.runReads_of_unstruck hview (by rw [hcur]; exact hu.drainedSeen) h
  rw [step_bundle htodo ht hco hrun hb hissues hskip hshadow hwhole hcross hcur, hfree, hflag,
    State.runBundle_drained (s := { s with todo := js, cur := some cur }) ht hd, hreads]

/-- One without Shadow before its horizon runs once what was issued before has landed (R286). -/
theorem step_bundle_interlocked (hflag : (bundleFlags b).1 = false) (hearly : t.beat < (co.cluster r.cl).horizon) (hu : co.Unstruck r.cl)
    {seen : Core} (hseen : seen = co.interlocked false (s.snap.map fun o => o.cores[r.core]?).join
      ({ s with todo := js, cur := some cur }.toCopy t r.core))
    (h : runsTo b.syls ({ s with todo := js, cur := some cur }.withCore r fun _ => seen) u) :
    step s = .next ((u.withCore r fun c => c.unsettled seen co).bundleEnds r cur.pc (4 * b.len) t.beat (bundleFlags b).2 (bundleFlags b).1) := by
  have hwaits : (!(bundleFlags b).1 && decide (t.beat < (co.cluster r.cl).horizon)) = true := by simp [hflag, hearly]
  have hmode : (t.status == .handler) = false := by simpa using hrun
  have hsettled := State.runSettled_eq (s := { s with todo := js, cur := some cur }) ht hco rfl
    (by rw [hcur]; exact State.strand_sid ht) (by rw [hcur]; rfl) (by rw [hcur]; exact hu) rfl (by rw [hmode]; exact hseen) h
  rw [step_bundle htodo ht hco hrun hb hissues hskip hshadow hwhole hcross hcur, hwaits, ← hsettled]
  rfl

end
end

/-- A handler's bundle runs once what was issued before has landed, and what it issues lands at once (R239). -/
theorem step_handler (hrun : t.status = .handler) (hb : fetchL0 (co.cluster r.cl).l0 (co.cluster r.cl).seq.pc = .bundle b)
    (hwhole : ∀ n, ¬ BadLine (co.cluster r.cl).l0 (co.cluster r.cl).seq.pc b n) (hcross : (co.cluster r.cl).seq.crosses (4 * b.len) = false)
    (hskip : (co.cluster r.cl).skip = 0) (hready : (co.cluster r.cl).handlerReady = true) (hu : co.Unstruck r.cl)
    (hcur : cur = t.issuing r (co.cluster r.cl) b true)
    (h : runsTo b.syls (({ s with todo := js }.handlerBegun r t cur).withCore r fun _ => { s with todo := js }.handlerSeen r t co cur) u)
    {v : State} (hv : v = (u.withCore r fun c => c.unsettled ({ s with todo := js }.handlerSeen r t co cur) (co.waitsOver r.cl)).bundleEnds
      r cur.pc (4 * b.len) t.beat false false)
    (hclean : ∀ y, v.strand? t.sid = some y → y.faulted r = false) : step s = .next (v.landNew r t) := by
  have hc := Strand.clusterAt_eq hco r.cl
  have hstrand : ({ s with todo := js }.handlerBegun r t cur).strand? r.strand = some (t.modCore r.core fun co => co.waitsOver r.cl) :=
    State.strand_withCore (s := { s with todo := js, snap := some t, cur := some cur }) _ ht
  have hcore : (t.modCore r.core fun co => co.waitsOver r.cl).cores[r.core]? = some (co.waitsOver r.cl) := Strand.modCore_core _ hco
  have hmode : ((t.modCore r.core fun co => co.waitsOver r.cl).status == .handler) = true := by simp [hrun]
  have hsettled := State.runSettled_eq hstrand hcore rfl (by rw [hcur]; exact State.strand_sid ht) (by rw [hcur]; rfl)
    (by rw [hcur]; exact hu.waitsOver) (before := some co) hco (by rw [hmode]; rfl) h
  have hruns : { { s with todo := js }.withCore r fun co => co.waitsOver r.cl with snap := some t }.runAt r t true = v := by
    rw [State.runAt_bundle (handler := true) hc rfl hb hwhole hcross, hv, ← hsettled, hcur]
    simp only [Bool.true_or, Bool.not_true, Bool.and_false]
    rfl
  rw [step_of_todo htodo]
  rw [← hc] at hready hskip hb
  refine congrArg _ ((State.issueAt_handler (s := { s with todo := js }) ht hrun).trans ?_)
  exact State.handlerBundle_eq (s := { s with todo := js }) ht hready hskip hb hruns hclean
end

/-! ## Events (R255, R282) -/

theorem State.runEvent_eq {e : Ev} (hnone : ∀ sid t, e.reader = some sid → s.strand? sid = some t → ¬ t.Drained)
    (h : runEv e s = .next u) : s.runEvent e = u := by
  unfold State.runEvent
  split
  next sid hr =>
    cases ht : s.strand? sid with
    | none => simp only [State.seeing_none ht, h]
    | some t => simp only [State.seeing_of_not_drained _ ht (hnone sid t hr ht), h]
  next => simp only [h]

theorem State.runEvent_drained {e : Ev} {sid : Nat} (hr : e.reader = some sid) (ht : s.strand? sid = some t) (hd : t.Drained)
    (h : runEv e (t.seen s) = .next u) : s.runEvent e = t.unseen u := by
  simp only [State.runEvent, hr, State.seeing_of_drained _ ht hd, h]

end

/-- Settles O58: one lemma per way that a step goes. -/
theorem aStepRunsTheDecodedBundle : Obligations.AStepRunsTheDecodedBundle := by
  refine ⟨?bundle, ?moves, ?lines, ?events, ?input, ?tick⟩
  case bundle =>
    intro s u r js t co b htodo ht hco
    refine ⟨step_skips htodo ht hco, ?struck, ?program, ?handler⟩
    case struck =>
      intro hrun hb hissues hskip hshadow n hn hfirst
      exact step_struck htodo ht hco hrun hb hissues hskip hshadow hn hfirst
    case program =>
      intro hrun hb hwhole hcross hissues hskip hshadow
      have hmode : (t.status == .handler) = false := by simpa using hrun
      rw [hmode]
      refine ⟨?now, ?drained, ?interlocked⟩
      case now =>
        intro hnow h
        have hstep := step_bundle_now htodo ht hco hrun hb hissues hskip hshadow hwhole hcross rfl hnow h
        cases hstruck : b.syls.findSome? (co.strikes r.cl) with
        | none => simpa only [View.afterReads, Strand.issuing, hstruck] using hstep
        | some e => simpa only [View.afterReads, Strand.issuing, hstruck] using hstep
      case drained =>
        intro hflag hlate hd hu h
        exact step_bundle_drained htodo ht hco hrun hb hissues hskip hshadow hwhole hcross rfl hflag hlate hd hu h
      case interlocked =>
        intro hearly hflag hu more seen h
        exact step_bundle_interlocked htodo ht hco hrun hb hissues hskip hshadow hwhole hcross rfl hflag hearly hu rfl h
    case handler =>
      intro hrun hb hwhole hcross hskip hready hu
      have hmode : (t.status == .handler) = true := by simpa using hrun
      rw [hmode]
      intro free begin_ more seen h v hclean
      exact step_handler htodo ht hco hrun hb hwhole hcross hskip hready hu rfl h rfl hclean
  case moves =>
    intro c x len moved sync shadow
    cases moved with
    | false => rfl
    | true => rfl
  case lines =>
    intro ls pc a a' b hpc ha hlen
    exact ⟨fetchL0_within_line hpc ha hlen, fetchL0_across_lines hpc ha hlen⟩
  case events =>
    intro s u e js htodo
    rw [step_of_todo htodo]
    refine ⟨fun hd h => ?_, fun sid t hr ht hd h => ?_⟩
    · exact congrArg _ (State.runEvent_eq hd h)
    · exact congrArg _ (State.runEvent_drained hr ht hd h)
  case input => exact fun s n i is htodo hin hdue => step_input htodo hin hdue
  case tick => exact fun s htodo hin => ⟨_, step_tick htodo hin, rfl, rfl, rfl⟩

end Sys2Proof.Machine
end

section
/-! The fields of a syllable's word and what each reader of a field accepts (R75 to R83, R173). -/

namespace Sys2Proof

/-! ## Fields as bit vectors and flags -/

theorem fld_lt (n lo len : Nat) : fld n lo len < 2 ^ len := Nat.mod_lt _ (Nat.two_pow_pos len)

theorem bvf_toNat (n lo len : Nat) : (bvf n lo len).toNat = fld n lo len := by
  simp [bvf, fld]

theorem bvf_eq_iff {n lo len : Nat} {x : BitVec len} : bvf n lo len = x ↔ fld n lo len = x.toNat := by
  rw [← BitVec.toNat_inj, bvf_toNat]

theorem boolf_eq_iff {n lo : Nat} {b : Bool} : boolf n lo = b ↔ fld n lo 1 = bnat b := by
  have hlt := fld_lt n lo 1
  cases b with
  | true => simp [boolf, bnat]
  | false =>
    simp only [boolf, bnat, beq_eq_false_iff_ne, Bool.false_eq_true, if_false]
    omega

theorem bnat_boolf (n lo : Nat) : bnat (boolf n lo) = fld n lo 1 := (boolf_eq_iff.1 rfl).symm

/-! ## Operand codes as fields (R79, R80, R82) -/

theorem VDst.code_lt (d : VDst) : d.code < 2 ^ 5 := by
  cases d with
  | o k => exact k.isLt.trans (by decide)
  | last => decide

theorem OSrc.code_lt (o : OSrc) : o.code < 2 ^ 5 := by
  cases o with
  | o k => exact k.isLt.trans (by decide)
  | l k => exact (Nat.add_lt_add_left k.isLt 16).trans (by decide)

theorem VSrc.code_lt (a : VSrc) : a.code < 2 ^ 5 := by
  cases a <;> simp only [VSrc.code] <;> omega

/-- A destination's code as the field that holds it. -/
def VDst.bv (d : VDst) : BitVec 5 := BitVec.ofNatLT d.code d.code_lt
/-- A stored source's code as the field that holds it. -/
def OSrc.bv (o : OSrc) : BitVec 5 := BitVec.ofNatLT o.code o.code_lt
/-- A source's code as the field that holds it. -/
def VSrc.bv (a : VSrc) : BitVec 5 := BitVec.ofNatLT a.code a.code_lt
/-- A predicate's number as the field of 5 bits that holds it. -/
def PReg.bv (p : PReg) : BitVec 5 := p.setWidth' (by decide)
/-- A register's number as the field of 6 bits that may hold an element's number. -/
def Reg.wide (r : Reg) : BitVec 6 := r.setWidth' (by decide)

theorem VDst.bv_toNat (d : VDst) : d.bv.toNat = d.code := rfl
theorem OSrc.bv_toNat (o : OSrc) : o.bv.toNat = o.code := rfl
theorem VSrc.bv_toNat (a : VSrc) : a.bv.toNat = a.code := rfl
theorem PReg.bv_toNat (p : PReg) : (PReg.bv p).toNat = p.toNat := rfl
theorem Reg.wide_toNat (r : Reg) : (Reg.wide r).toNat = r.toNat := rfl

/-! ## Checks and literals (R76, R77) -/

section
variable {n lo len : Nat} {ls : List W32}

@[simp] theorem Dec.bind_eq_ok {α β : Type} {x : Dec β} {f : β → Dec α} {a : α} :
    (x >>= f) = .ok a ↔ ∃ b, x = .ok b ∧ f b = .ok a := by
  cases x <;> simp [bind, Except.bind]

@[simp] theorem Dec.map_eq_ok {α β : Type} {x : Dec β} {f : β → α} {a : α} :
    (f <$> x) = .ok a ↔ ∃ b, x = .ok b ∧ f b = a := by
  cases x <;> simp [Functor.map, Except.map]

@[simp] theorem Dec.pure_eq_ok {α : Type} {a b : α} : (pure a : Dec α) = .ok b ↔ a = b := by
  simp [pure, Except.pure]

@[simp] theorem need_eq_ok {e : DecodeErr} {b : Bool} {u : Unit} : need e b = .ok u ↔ b = true := by
  cases b <;> simp [need]

@[simp] theorem zeroF_eq_ok {u : Unit} : zeroF n lo len = .ok u ↔ bvf n lo len = 0 := by
  simp [zeroF, bvf_eq_iff]

@[simp] theorem takeLit_eq_ok {r : W32 × List W32} : takeLit ls = .ok r ↔ ls = r.1 :: r.2 := by
  obtain ⟨w, rest⟩ := r
  cases ls <;> simp [takeLit]

@[simp] theorem predf_eq_ok {p : PReg} : predf n lo = .ok p ↔ bvf n lo 5 = PReg.bv p := by
  simp only [predf, Dec.bind_eq_ok, need_eq_ok, Dec.pure_eq_ok, exists_const, decide_eq_true_eq, bvf_eq_iff, PReg.bv_toNat]
  constructor
  · rintro ⟨h, rfl⟩
    rw [BitVec.toNat_ofNat]
    omega
  · intro h
    rw [h]
    exact ⟨p.isLt, by simp⟩

theorem vdstOf_code (d : VDst) : vdstOf d.code = .ok d := by
  cases d with
  | o k =>
    have hk : k.toNat < 16 := k.isLt
    simp [vdstOf, VDst.code, hk]
  | last => rfl

theorem code_of_vdstOf {d : VDst} (h : vdstOf c = .ok d) : c = d.code := by
  unfold vdstOf at h
  split at h
  next hc =>
    cases h
    exact (Nat.mod_eq_of_lt hc).symm
  next =>
    split at h
    next hc =>
      cases h
      exact eq_of_beq hc
    next => cases h

theorem osrcOf_code (o : OSrc) : osrcOf o.code = .ok o := by
  cases o with
  | o k =>
    have hk : k.toNat < 16 := k.isLt
    simp [osrcOf, OSrc.code, hk]
  | l k =>
    have hk : 16 + k.toNat < 20 := Nat.add_lt_add_left k.isLt 16
    simp [osrcOf, OSrc.code, hk]

theorem code_of_osrcOf {o : OSrc} (h : osrcOf c = .ok o) : c = o.code := by
  unfold osrcOf at h
  split at h
  next hc =>
    cases h
    exact (Nat.mod_eq_of_lt hc).symm
  next =>
    split at h
    next hc =>
      cases h
      simp only [OSrc.code, BitVec.toNat_ofNat]
      omega
    next => cases h

theorem toNat_regLit (r : Reg) : (BitVec.ofNat 32 r.toNat).toNat = r.toNat := by
  rw [BitVec.toNat_ofNat]
  omega

theorem vsrcOf_code (a : VSrc) (rest : List W32) : vsrcOf a.code (a.lits ++ rest) = .ok (a, rest) := by
  cases a with
  | o k =>
    have hk : k.toNat < 16 := k.isLt
    simp [vsrcOf, VSrc.code, VSrc.lits, hk]
  | l k =>
    have hk : 16 + k.toNat < 20 := Nat.add_lt_add_left k.isLt 16
    simp [vsrcOf, VSrc.code, VSrc.lits, hk]
  | pop k =>
    have hk : 20 + k.toNat < 24 := Nat.add_lt_add_left k.isLt 20
    have hge : 16 ≤ 20 + k.toNat := by omega
    simp [vsrcOf, VSrc.code, VSrc.lits, hk, hge]
  | keep k =>
    have hk : 24 + k.toNat < 28 := Nat.add_lt_add_left k.isLt 24
    have hge₁ : ¬ 24 + k.toNat < 16 := by omega
    have hge₂ : ¬ 24 + k.toNat < 20 := by omega
    simp [vsrcOf, VSrc.code, VSrc.lits, hk, hge₁, hge₂]
  | zero | lane | imm w => rfl
  | sreg r =>
    have hlit : vsrcOf (VSrc.sreg r).code ((VSrc.sreg r).lits ++ rest) =
        (need .reserved (decide ((BitVec.ofNat 32 r.toNat).toNat < 32)) >>= fun _ =>
          pure (.sreg (BitVec.ofNat 5 (BitVec.ofNat 32 r.toNat).toNat), rest)) := rfl
    rw [hlit, toNat_regLit]
    simp [need, r.isLt]

theorem code_of_vsrcOf {a : VSrc} {rest : List W32} (hc : c < 32) (h : vsrcOf c ls = .ok (a, rest)) :
    c = a.code ∧ ls = a.lits ++ rest := by
  unfold vsrcOf at h
  repeat' split at h
  all_goals simp only [Except.ok.injEq, Prod.mk.injEq, Dec.bind_eq_ok, need_eq_ok, takeLit_eq_ok, Dec.pure_eq_ok, decide_eq_true_eq,
    exists_const, Prod.exists, beq_iff_eq] at *
  case isTrue | isFalse.isTrue | isFalse.isFalse.isTrue | isFalse.isFalse.isFalse.isTrue =>
    obtain ⟨rfl, rfl⟩ := h
    simp only [VSrc.code, VSrc.lits, BitVec.toNat_ofNat, List.nil_append, and_true]
    omega
  next hcode =>
    obtain ⟨rfl, rfl⟩ := h
    exact ⟨hcode, rfl⟩
  next hcode =>
    obtain ⟨rfl, rfl⟩ := h
    exact ⟨hcode, rfl⟩
  next hcode =>
    obtain ⟨w, _, rfl, rfl, rfl⟩ := h
    exact ⟨hcode, rfl⟩
  next =>
    obtain ⟨w, _, rfl, hw, rfl, rfl⟩ := h
    have hlit : BitVec.ofNat 32 (BitVec.ofNat 5 w.toNat).toNat = w := by
      rw [BitVec.toNat_ofNat, Nat.mod_eq_of_lt hw, BitVec.ofNat_toNat, BitVec.setWidth_eq]
    exact ⟨by simp only [VSrc.code]; omega, by rw [VSrc.lits, hlit]; rfl⟩

@[simp] theorem vdstOf_eq_ok {d : VDst} : vdstOf (fld n lo 5) = .ok d ↔ bvf n lo 5 = d.bv := by
  rw [bvf_eq_iff, VDst.bv_toNat]
  exact ⟨code_of_vdstOf, fun h => h ▸ vdstOf_code d⟩

@[simp] theorem osrcOf_eq_ok {o : OSrc} : osrcOf (fld n lo 5) = .ok o ↔ bvf n lo 5 = o.bv := by
  rw [bvf_eq_iff, OSrc.bv_toNat]
  exact ⟨code_of_osrcOf, fun h => h ▸ osrcOf_code o⟩

@[simp] theorem vsrcOf_eq_ok {r : VSrc × List W32} :
    vsrcOf (fld n lo 5) ls = .ok r ↔ bvf n lo 5 = r.1.bv ∧ ls = r.1.lits ++ r.2 := by
  rw [bvf_eq_iff, VSrc.bv_toNat]
  exact ⟨code_of_vsrcOf (fld_lt n lo 5), fun ⟨hcode, hls⟩ => by rw [hcode, hls, vsrcOf_code]⟩

end

/-! ## Literal words that stand for one operand (R82, R173) -/

theorem tagWord_toNat (t : Byte) : (tagWord t).toNat = t.toNat := by
  simp only [tagWord, BitVec.toNat_ofNat]
  omega

@[simp] theorem tagOf_eq_ok {w : W32} {t : Byte} : tagOf w = .ok t ↔ w = tagWord t := by
  simp only [tagOf, Dec.bind_eq_ok, need_eq_ok, Dec.pure_eq_ok, exists_const, decide_eq_true_eq]
  constructor
  · rintro ⟨h, rfl⟩
    rw [← BitVec.toNat_inj, tagWord_toNat, BitVec.toNat_ofNat]
    omega
  · rintro rfl
    rw [tagWord_toNat]
    exact ⟨t.isLt, by simp⟩

theorem Conv.word_toNat (c : Conv) : c.word.toNat =
    bnat c.half * 8192 + c.rnd.toNat * 1024 + bnat c.toS * 512 + bnat c.frS * 256 + c.dst.toNat * 16 + c.src.toNat := by
  have hhalf := bnat_le_one c.half
  have htoS := bnat_le_one c.toS
  have hfrS := bnat_le_one c.frS
  simp only [Conv.word, BitVec.toNat_ofNat]
  omega

@[simp] theorem convOf_eq_ok {w : W32} {c : Conv} : convOf w = .ok c ↔ w = c.word := by
  obtain ⟨half, rnd, toS, frS, dst, src⟩ := c
  have hhalf := bnat_le_one half
  have htoS := bnat_le_one toS
  have hfrS := bnat_le_one frS
  rw [← BitVec.toNat_inj, Conv.word_toNat]
  simp only [convOf, Dec.bind_eq_ok, zeroF_eq_ok, Dec.pure_eq_ok, exists_const, Conv.mk.injEq, boolf_eq_iff, bvf_eq_iff, fld,
    BitVec.ofNat_eq_ofNat, BitVec.toNat_ofNat]
  omega

end Sys2Proof
end

section
/-! How operands are laid out in the operand bits of a syllable and in its literal (R79 to R83, R84 to R87). -/

namespace Sys2Proof

/-! ## The operand bits -/

/-- The operand bits 16:2 of the S formats with three registers or predicates (R79). -/
def opsS (d a b : BitVec 5) : Nat := d.toNat * 1024 + a.toNat * 32 + b.toNat
/-- Those of the S formats with two (R79). -/
def opsS₂ (d a : BitVec 5) : Nat := d.toNat * 1024 + a.toNat * 32
/-- Those of LOOP (R79). -/
def opsLoop (c : BitVec 2) (k : BitVec 5) (t : BitVec 8) : Nat := c.toNat * 8192 + k.toNat * 256 + t.toNat
/-- Those of LOOPL (R79). -/
def opsLoopl (c : BitVec 2) (t : BitVec 8) : Nat := c.toNat * 8192 + t.toNat
/-- Those of MFS and MTS (R79). -/
def opsSpecial (d : BitVec 5) (code : BitVec 10) : Nat := d.toNat * 1024 + code.toNat
/-- The operand bits 16:0 of a V, M or X syllable with fields from bits 12, 7, 2 and 0 on (R80, R82, R83). -/
def opsDABM (d a b : BitVec 5) (m : BitVec 2) : Nat := d.toNat * 4096 + a.toNat * 128 + b.toNat * 4 + m.toNat
/-- Those with fields from bits 12, 7 and 2 on alone. -/
def opsDAB (d a b : BitVec 5) : Nat := d.toNat * 4096 + a.toNat * 128 + b.toNat * 4
/-- Those with fields from bits 12, 7 and 0 on alone. -/
def opsDAM (d a : BitVec 5) (m : BitVec 2) : Nat := d.toNat * 4096 + a.toNat * 128 + m.toNat
/-- Those with fields from bits 12 and 7 on alone. -/
def opsDA (d a : BitVec 5) : Nat := d.toNat * 4096 + a.toNat * 128
/-- Those with fields from bits 7, 2 and 0 on alone. -/
def opsABM (a b : BitVec 5) (m : BitVec 2) : Nat := a.toNat * 128 + b.toNat * 4 + m.toNat
/-- Those with fields from bits 7 and 2 on alone. -/
def opsAB (a b : BitVec 5) : Nat := a.toNat * 128 + b.toNat * 4
/-- Those of DRAW (R81). -/
def opsDraw (q : BitVec 2) (p : BitVec 5) (r : BitVec 2) (i : BitVec 6) : Nat := q.toNat * 32768 + p.toNat * 256 + r.toNat * 64 + i.toNat
/-- Those of PUT from the operand file (R81). -/
def opsPut (o : BitVec 4) (p : BitVec 5) (r : BitVec 2) (i : BitVec 6) : Nat := o.toNat * 8192 + p.toNat * 256 + r.toNat * 64 + i.toNat
/-- Those of PUT from the last-result file (R81). -/
def opsPutLast (l : BitVec 2) (p : BitVec 5) (r : BitVec 2) (i : BitVec 6) : Nat := l.toNat * 8192 + p.toNat * 256 + r.toNat * 64 +
  i.toNat
/-- Those of a scratchpad access (R82). -/
def opsSpad (d k : BitVec 5) (f : BitVec 7) : Nat := d.toNat * 4096 + k.toNat * 128 + f.toNat
/-- Those of a command with a stamp and a scalar (R83). -/
def opsTimed (st : Stamp) (g : BitVec 5) : Nat := st.bits + g.toNat * 4
/-- Those of ACALLOC (R83). -/
def opsAlloc (d a : BitVec 5) (zero park : Bool) : Nat := d.toNat * 4096 + a.toNat * 128 + bnat zero * 2 + bnat park

/-! ## The fields that hold them -/

section
variable {n : Nat}

theorem fld_eq_toNat {len lo : Nat} {x : BitVec len} : fld n lo len = x.toNat ↔ bvf n lo len = x := bvf_eq_iff.symm

theorem fld_eq_zero {lo len : Nat} : fld n lo len = 0 ↔ bvf n lo len = 0 := by
  simp only [bvf_eq_iff, BitVec.ofNat_eq_ofNat, BitVec.toNat_ofNat, Nat.zero_mod]

theorem bvf_eq_wide {r : Reg} : bvf n 0 6 = Reg.wide r ↔ bvf n 5 1 = 0 ∧ bvf n 0 5 = r := by
  simp only [bvf_eq_iff, Reg.wide_toNat, fld, BitVec.ofNat_eq_ofNat, BitVec.toNat_ofNat]
  omega

theorem fld_eq_opsS {d a b} : fld n 2 15 = opsS d a b ↔
    bvf n 12 5 = d ∧ bvf n 7 5 = a ∧ bvf n 2 5 = b := by
  simp only [bvf_eq_iff, fld, opsS]
  omega

theorem fld_eq_opsS₂ {d a} : fld n 2 15 = opsS₂ d a ↔
    bvf n 12 5 = d ∧ bvf n 7 5 = a ∧ bvf n 2 5 = 0#5 := by
  simp only [bvf_eq_iff, fld, opsS₂, BitVec.toNat_ofNat]
  omega

theorem fld_eq_move {d : BitVec 5} : fld n 2 15 = d.toNat * 1024 ↔
    bvf n 12 5 = d ∧ bvf n 2 10 = 0#10 := by
  simp only [bvf_eq_iff, fld, BitVec.toNat_ofNat]
  omega

theorem fld_eq_jump {a : BitVec 5} : fld n 2 15 = a.toNat * 32 ↔
    bvf n 12 5 = 0#5 ∧ bvf n 7 5 = a ∧ bvf n 2 5 = 0#5 := by
  simp only [bvf_eq_iff, fld, BitVec.toNat_ofNat]
  omega

theorem fld_eq_opsLoop {c k t} : fld n 2 15 = opsLoop c k t ↔
    bvf n 15 2 = c ∧ bvf n 10 5 = k ∧ bvf n 2 8 = t := by
  simp only [bvf_eq_iff, fld, opsLoop]
  omega

theorem fld_eq_opsLoopl {c t} : fld n 2 15 = opsLoopl c t ↔
    bvf n 15 2 = c ∧ bvf n 10 5 = 0#5 ∧ bvf n 2 8 = t := by
  simp only [bvf_eq_iff, fld, opsLoopl, BitVec.toNat_ofNat]
  omega

theorem fld_eq_mask {m : BitVec 4} : fld n 2 15 = m.toNat ↔
    bvf n 6 11 = 0#11 ∧ bvf n 2 4 = m := by
  simp only [bvf_eq_iff, fld, BitVec.toNat_ofNat]
  omega

theorem fld_eq_opsSpecial {d code} : fld n 2 15 = opsSpecial d code ↔
    bvf n 12 5 = d ∧ bvf n 2 10 = code := by
  simp only [bvf_eq_iff, fld, opsSpecial]
  omega

theorem fld_eq_opsDABM {d a b m} : fld n 0 17 = opsDABM d a b m ↔
    bvf n 12 5 = d ∧ bvf n 7 5 = a ∧ bvf n 2 5 = b ∧ bvf n 0 2 = m := by
  simp only [bvf_eq_iff, fld, opsDABM]
  omega

theorem fld_eq_opsDAB {d a b} : fld n 0 17 = opsDAB d a b ↔
    bvf n 12 5 = d ∧ bvf n 7 5 = a ∧ bvf n 2 5 = b ∧ bvf n 0 2 = 0#2 := by
  simp only [bvf_eq_iff, fld, opsDAB, BitVec.toNat_ofNat]
  omega

theorem fld_eq_opsDAM {d a m} : fld n 0 17 = opsDAM d a m ↔
    bvf n 12 5 = d ∧ bvf n 7 5 = a ∧ bvf n 2 5 = 0#5 ∧ bvf n 0 2 = m := by
  simp only [bvf_eq_iff, fld, opsDAM, BitVec.toNat_ofNat]
  omega

theorem fld_eq_opsDA {d a} : fld n 0 17 = opsDA d a ↔
    bvf n 12 5 = d ∧ bvf n 7 5 = a ∧ bvf n 2 5 = 0#5 ∧ bvf n 0 2 = 0#2 := by
  simp only [bvf_eq_iff, fld, opsDA, BitVec.toNat_ofNat]
  omega

theorem bvf_zero_seven : bvf n 0 7 = 0#7 ↔
    bvf n 2 5 = 0#5 ∧ bvf n 0 2 = 0#2 := by
  simp only [bvf_eq_iff, fld, BitVec.toNat_ofNat]
  omega

theorem fld_eq_opsABM {a b m} : fld n 0 17 = opsABM a b m ↔
    bvf n 12 5 = 0#5 ∧ bvf n 7 5 = a ∧ bvf n 2 5 = b ∧ bvf n 0 2 = m := by
  simp only [bvf_eq_iff, fld, opsABM, BitVec.toNat_ofNat]
  omega

theorem fld_eq_opsAB {a b} : fld n 0 17 = opsAB a b ↔
    bvf n 12 5 = 0#5 ∧ bvf n 7 5 = a ∧ bvf n 2 5 = b ∧ bvf n 0 2 = 0#2 := by
  simp only [bvf_eq_iff, fld, opsAB, BitVec.toNat_ofNat]
  omega

theorem fld_eq_opsA {a : BitVec 5} : fld n 0 17 = a.toNat * 128 ↔
    bvf n 12 5 = 0#5 ∧ bvf n 7 5 = a ∧ bvf n 2 5 = 0#5 ∧ bvf n 0 2 = 0#2 := by
  simp only [bvf_eq_iff, fld, BitVec.toNat_ofNat]
  omega

theorem fld_eq_opsA_one {a : BitVec 5} : fld n 0 17 = a.toNat * 128 + 1 ↔
    bvf n 12 5 = 0#5 ∧ bvf n 7 5 = a ∧ bvf n 2 5 = 0#5 ∧ bvf n 0 2 = 1#2 := by
  simp only [bvf_eq_iff, fld, BitVec.toNat_ofNat]
  omega

theorem fld_eq_opsN {k : BitVec 5} : fld n 0 17 = k.toNat * 4 ↔
    bvf n 7 10 = 0#10 ∧ bvf n 2 5 = k ∧ bvf n 0 2 = 0#2 := by
  simp only [bvf_eq_iff, fld, BitVec.toNat_ofNat]
  omega

theorem fld_eq_one : fld n 0 17 = 1 ↔
    bvf n 2 15 = 0#15 ∧ bvf n 0 2 = 1#2 := by
  simp only [bvf_eq_iff, fld, BitVec.toNat_ofNat]
  omega

theorem fld_eq_count {v : BitVec 5} : fld n 0 17 = v.toNat ↔
    bvf n 5 12 = 0#12 ∧ bvf n 0 5 = v := by
  simp only [bvf_eq_iff, fld, BitVec.toNat_ofNat]
  omega

theorem fld_eq_opsDraw {q p r i} : fld n 0 17 = opsDraw q p r i ↔
    bvf n 15 2 = q ∧ bvf n 13 2 = 0#2 ∧ bvf n 8 5 = p ∧ bvf n 6 2 = r ∧ bvf n 0 6 = i := by
  simp only [bvf_eq_iff, fld, opsDraw, BitVec.toNat_ofNat]
  omega

theorem fld_eq_opsPut {o p r i} : fld n 0 17 = opsPut o p r i ↔
    bvf n 13 4 = o ∧ bvf n 8 5 = p ∧ bvf n 6 2 = r ∧ bvf n 0 6 = i := by
  simp only [bvf_eq_iff, fld, opsPut]
  omega

theorem fld_eq_opsPutLast {l p r i} : fld n 0 17 = opsPutLast l p r i ↔
    bvf n 15 2 = 0#2 ∧ bvf n 13 2 = l ∧ bvf n 8 5 = p ∧ bvf n 6 2 = r ∧ bvf n 0 6 = i := by
  simp only [bvf_eq_iff, fld, opsPutLast, BitVec.toNat_ofNat]
  omega

theorem fld_eq_opsSpad {d k f} : fld n 0 17 = opsSpad d k f ↔
    bvf n 12 5 = d ∧ bvf n 7 5 = k ∧ bvf n 0 7 = f := by
  simp only [bvf_eq_iff, fld, opsSpad]
  omega
/-- The stamp bits 16:7 of a command (R83). -/
theorem stampOf_eq_ok {st : Stamp} : stampOf n = .ok st ↔ fld n 7 10 * 128 = st.bits := by
  unfold stampOf
  split
  next habs =>
    rw [boolf_eq_iff, bnat, if_pos rfl, fld] at habs
    cases st <;>
      simp only [Dec.bind_eq_ok, zeroF_eq_ok, Dec.pure_eq_ok, exists_const, Stamp.abs.injEq, reduceCtorEq, and_false, false_iff,
        bvf_eq_iff, Stamp.bits, fld,
        BitVec.ofNat_eq_ofNat, BitVec.toNat_ofNat] <;>
      omega
  next hrel =>
    rw [Bool.not_eq_true, boolf_eq_iff, bnat, if_neg Bool.false_ne_true, fld] at hrel
    cases st <;> simp only [Except.ok.injEq, Stamp.rel.injEq, reduceCtorEq, false_iff, bvf_eq_iff, Stamp.bits, fld] <;> omega

theorem Stamp.bits_lt (st : Stamp) : st.bits < 2 ^ 17 := by
  cases st <;> simp only [Stamp.bits] <;> omega

theorem fld_eq_bits {st : Stamp} : fld n 0 17 = st.bits ↔ stampOf n = .ok st ∧ bvf n 2 5 = 0#5 ∧ bvf n 0 2 = 0#2 := by
  have hdvd : 128 ∣ st.bits := by cases st <;> simp only [Stamp.bits] <;> omega
  simp only [stampOf_eq_ok, bvf_eq_iff, fld, BitVec.toNat_ofNat]
  omega

theorem fld_eq_opsTimed {st : Stamp} {g : BitVec 5} :
    fld n 0 17 = opsTimed st g ↔ stampOf n = .ok st ∧ bvf n 2 5 = g ∧ bvf n 0 2 = 0 := by
  have hdvd : 128 ∣ st.bits := by cases st <;> simp only [Stamp.bits] <;> omega
  simp only [stampOf_eq_ok, bvf_eq_iff, fld, opsTimed, BitVec.ofNat_eq_ofNat, BitVec.toNat_ofNat]
  omega

theorem fld_eq_opsAlloc {d a zero park} : fld n 0 17 = opsAlloc d a zero park ↔
    bvf n 12 5 = d ∧ bvf n 7 5 = a ∧ bvf n 2 5 = 0 ∧ boolf n 1 = zero ∧ boolf n 0 = park := by
  have hz := bnat_le_one zero
  have hp := bnat_le_one park
  simp only [bvf_eq_iff, boolf_eq_iff, fld, opsAlloc, BitVec.ofNat_eq_ofNat, BitVec.toNat_ofNat]
  omega

/-- The mode bits of operands whose every other field is at bit 2 or above. -/
theorem fld_low {x : Nat} (hx : fld n 0 17 = x) : fld n 0 2 = x % 4 := by
  subst hx
  simp only [fld]
  omega

end

/-! ## Operand bits have 17 bits -/

theorem opsDABM_lt (d a b : BitVec 5) (m : BitVec 2) : opsDABM d a b m < 2 ^ 17 := by
  unfold opsDABM
  omega

theorem opsDAB_lt (d a b : BitVec 5) : opsDAB d a b < 2 ^ 17 := by
  unfold opsDAB
  omega

theorem opsDAM_lt (d a : BitVec 5) (m : BitVec 2) : opsDAM d a m < 2 ^ 17 := by
  unfold opsDAM
  omega

theorem opsDA_lt (d a : BitVec 5) : opsDA d a < 2 ^ 17 := by
  unfold opsDA
  omega

theorem opsSpad_lt (d k : BitVec 5) (f : BitVec 7) : opsSpad d k f < 2 ^ 17 := by
  unfold opsSpad
  omega

theorem opsTimed_lt (st : Stamp) (g : BitVec 5) : opsTimed st g < 2 ^ 17 := by
  cases st <;> simp only [opsTimed, Stamp.bits] <;> omega
theorem opsAlloc_lt (d a : BitVec 5) (zero park : Bool) : opsAlloc d a zero park < 2 ^ 17 := by
  have hz := bnat_le_one zero
  have hp := bnat_le_one park
  unfold opsAlloc
  omega

/-! ## Literal words -/

/-- The literal of VRAND. -/
def randWord (u : Bool) (word : BitVec 2) (layer : BitVec 24) : W32 := BitVec.ofNat 32 (bnat u * 67108864 + word.toNat * 16777216 +
  layer.toNat)
theorem eq_randWord_iff {w : W32} {u : Bool} {word : BitVec 2} {layer : BitVec 24} : w = randWord u word layer ↔
    bvf w.toNat 27 5 = 0 ∧ boolf w.toNat 26 = u ∧ bvf w.toNat 24 2 = word ∧ bvf w.toNat 0 24 = layer := by
  have hu := bnat_le_one u
  simp only [← BitVec.toNat_inj (x := w), boolf_eq_iff, bvf_eq_iff, fld, randWord, BitVec.ofNat_eq_ofNat, BitVec.toNat_ofNat]
  omega

/-- The literal of FLAGW. -/
def flagWord (sc : BitVec 2) (cc : BitVec 2) : W32 := BitVec.ofNat 32 (sc.toNat * 4 + cc.toNat)

theorem eq_flagWord_iff {w : W32} {sc : BitVec 2} {cc : BitVec 2} : w = flagWord sc cc ↔
    bvf w.toNat 4 28 = 0 ∧ bvf w.toNat 2 2 = sc ∧ bvf w.toNat 0 2 = cc := by
  simp only [← BitVec.toNat_inj (x := w), bvf_eq_iff, fld, flagWord, BitVec.ofNat_eq_ofNat, BitVec.toNat_ofNat]
  omega

/-- The literal of MCFG. -/
def mcfgWord (ofs : BitVec 11) (e : BitVec 2) : W32 := BitVec.ofNat 32 (ofs.toNat * 4 + e.toNat)

theorem eq_mcfgWord_iff {w : W32} {ofs : BitVec 11} {e : BitVec 2} : w = mcfgWord ofs e ↔
    bvf w.toNat 13 19 = 0 ∧ bvf w.toNat 2 11 = ofs ∧ bvf w.toNat 0 2 = e := by
  simp only [← BitVec.toNat_inj (x := w), bvf_eq_iff, fld, mcfgWord, BitVec.ofNat_eq_ofNat, BitVec.toNat_ofNat]
  omega

/-- The literal of MGO. -/
def mgoWord (cb : Bool) (ca : Bool) (bt : BitVec 8) (t : BitVec 8) : W32 := BitVec.ofNat 32 (bnat cb * 131072 + bnat ca * 65536 +
  bt.toNat * 256 + t.toNat)
theorem eq_mgoWord_iff {w : W32} {cb : Bool} {ca : Bool} {bt : BitVec 8} {t : BitVec 8} : w = mgoWord cb ca bt t ↔
    bvf w.toNat 18 14 = 0 ∧ boolf w.toNat 17 = cb ∧ boolf w.toNat 16 = ca ∧ bvf w.toNat 8 8 = bt ∧ bvf w.toNat 0 8 = t := by
  have hcb := bnat_le_one cb
  have hca := bnat_le_one ca
  simp only [← BitVec.toNat_inj (x := w), boolf_eq_iff, bvf_eq_iff, fld, mgoWord, BitVec.ofNat_eq_ofNat, BitVec.toNat_ofNat]
  omega

/-- The literal of CFGLD. -/
def cfgldWord (ck : Bool) (t : BitVec 8) (ofs : BitVec 8) (len : BitVec 8) (e : BitVec 2) : W32 := BitVec.ofNat 32 (bnat ck * 67108864 +
  t.toNat * 262144 + ofs.toNat * 1024 + len.toNat * 4 + e.toNat)
theorem eq_cfgldWord_iff {w : W32} {ck : Bool} {t : BitVec 8} {ofs : BitVec 8} {len : BitVec 8} {e : BitVec 2} : w = cfgldWord ck t ofs
  len e ↔
    bvf w.toNat 27 5 = 0 ∧ boolf w.toNat 26 = ck ∧ bvf w.toNat 18 8 = t ∧ bvf w.toNat 10 8 = ofs ∧ bvf w.toNat 2 8 = len ∧ bvf w.toNat 0
      2 = e := by
  have hck := bnat_le_one ck
  simp only [← BitVec.toNat_inj (x := w), boolf_eq_iff, bvf_eq_iff, fld, cfgldWord, BitVec.ofNat_eq_ofNat, BitVec.toNat_ofNat]
  omega

/-- The literal of ACZERO. -/
def aczeroWord (rows : BitVec 6) (row : BitVec 6) (bank : BitVec 5) : W32 := BitVec.ofNat 32 (rows.toNat * 2048 + row.toNat * 32 +
  bank.toNat)
theorem eq_aczeroWord_iff {w : W32} {rows : BitVec 6} {row : BitVec 6} {bank : BitVec 5} : w = aczeroWord rows row bank ↔
    bvf w.toNat 17 15 = 0 ∧ bvf w.toNat 11 6 = rows ∧ bvf w.toNat 5 6 = row ∧ bvf w.toNat 0 5 = bank := by
  simp only [← BitVec.toNat_inj (x := w), bvf_eq_iff, fld, aczeroWord, BitVec.ofNat_eq_ofNat, BitVec.toNat_ofNat]
  omega

/-- The literal of XCOPY. -/
def xcopyWord (rem : BitVec 2) (ck : Bool) (ex : BitVec 8) (stg : Bool) (t : BitVec 8) (dst : BitVec 5) (frm : BitVec 5) : W32 :=
  BitVec.ofNat 32 (rem.toNat * 1073741824 + bnat ck * 536870912 + ex.toNat * 2097152 + bnat stg * 1048576 + t.toNat * 4096 + dst.toNat *
    32 + frm.toNat)
theorem eq_xcopyWord_iff {w : W32} {rem : BitVec 2} {ck : Bool} {ex : BitVec 8} {stg : Bool} {t : BitVec 8} {dst : BitVec 5} {frm :
  BitVec 5} : w = xcopyWord rem ck ex stg t dst frm ↔
    bvf w.toNat 10 2 = 0 ∧ bvf w.toNat 30 2 = rem ∧ boolf w.toNat 29 = ck ∧ bvf w.toNat 21 8 = ex ∧ boolf w.toNat 20 = stg ∧ bvf w.toNat
      12 8 = t ∧ bvf w.toNat 5 5 = dst ∧ bvf w.toNat 0 5 = frm := by
  have hck := bnat_le_one ck
  have hstg := bnat_le_one stg
  simp only [← BitVec.toNat_inj (x := w), boolf_eq_iff, bvf_eq_iff, fld, xcopyWord, BitVec.ofNat_eq_ofNat, BitVec.toNat_ofNat]
  omega

/-- The literal of TLOAD. -/
def tloadWord (ck : Bool) (t : BitVec 8) (k : BitVec 2) : W32 := BitVec.ofNat 32 (bnat ck * 1024 + t.toNat * 4 + k.toNat)

theorem eq_tloadWord_iff {w : W32} {ck : Bool} {t : BitVec 8} {k : BitVec 2} : w = tloadWord ck t k ↔
    bvf w.toNat 11 21 = 0 ∧ boolf w.toNat 10 = ck ∧ bvf w.toNat 2 8 = t ∧ bvf w.toNat 0 2 = k := by
  have hck := bnat_le_one ck
  simp only [← BitVec.toNat_inj (x := w), boolf_eq_iff, bvf_eq_iff, fld, tloadWord, BitVec.ofNat_eq_ofNat, BitVec.toNat_ofNat]
  omega

/-- The literal of RLOAD. -/
def rloadWord (ck : Bool) (t : BitVec 8) : W32 := BitVec.ofNat 32 (bnat ck * 256 + t.toNat)

theorem eq_rloadWord_iff {w : W32} {ck : Bool} {t : BitVec 8} : w = rloadWord ck t ↔
    bvf w.toNat 9 23 = 0 ∧ boolf w.toNat 8 = ck ∧ bvf w.toNat 0 8 = t := by
  have hck := bnat_le_one ck
  simp only [← BitVec.toNat_inj (x := w), boolf_eq_iff, bvf_eq_iff, fld, rloadWord, BitVec.ofNat_eq_ofNat, BitVec.toNat_ofNat]
  omega

/-- The literal of RSTEP. -/
def rstepWord (gens : BitVec 6) (cheq : Bool) (nb : BitVec 2) (alt : BitVec 5) (pl : BitVec 5) : W32 := BitVec.ofNat 32 (gens.toNat *
  8192 + bnat cheq * 4096 + nb.toNat * 1024 + alt.toNat * 32 + pl.toNat)
theorem eq_rstepWord_iff {w : W32} {gens : BitVec 6} {cheq : Bool} {nb : BitVec 2} {alt : BitVec 5} {pl : BitVec 5} : w = rstepWord gens
  cheq nb alt pl ↔
    bvf w.toNat 19 13 = 0 ∧ bvf w.toNat 13 6 = gens ∧ boolf w.toNat 12 = cheq ∧ bvf w.toNat 10 2 = nb ∧ bvf w.toNat 5 5 = alt ∧ bvf
      w.toNat 0 5 = pl := by
  have hcheq := bnat_le_one cheq
  simp only [← BitVec.toNat_inj (x := w), boolf_eq_iff, bvf_eq_iff, fld, rstepWord, BitVec.ofNat_eq_ofNat, BitVec.toNat_ofNat]
  omega

/-- A literal that holds one number. -/
def countWord {k : Nat} (x : BitVec k) : W32 := BitVec.ofNat 32 x.toNat

theorem eq_countWord_iff {k m : Nat} (h : k + m = 32) {w : W32} {x : BitVec k} :
    w = countWord x ↔ bvf w.toNat k m = 0 ∧ bvf w.toNat 0 k = x := by
  have hw : w.toNat / 2 ^ k < 2 ^ m := Nat.div_lt_of_lt_mul (by rw [← Nat.pow_add, h]; exact w.isLt)
  have hx : x.toNat < 2 ^ 32 := x.isLt.trans_le (Nat.pow_le_pow_right (by decide) (h ▸ Nat.le_add_right k m))
  have hdm := Nat.div_add_mod w.toNat (2 ^ k)
  simp only [← BitVec.toNat_inj (x := w), countWord, bvf_eq_iff, fld, BitVec.toNat_ofNat, BitVec.ofNat_eq_ofNat, Nat.zero_mod,
    Nat.mod_eq_of_lt hx, Nat.mod_eq_of_lt hw, Nat.pow_zero, Nat.div_one]
  constructor
  · intro hwx
    rw [hwx]
    exact ⟨Nat.div_eq_of_lt x.isLt, Nat.mod_eq_of_lt x.isLt⟩
  · rintro ⟨hd, hm⟩
    rw [← hdm, hd, hm, Nat.mul_zero, Nat.zero_add]

theorem bvf_lit_eq_zero {w : W32} : bvf w.toNat 0 32 = 0#32 ↔ w = 0#32 := by
  rw [bvf_eq_iff, ← BitVec.toNat_inj]
  have hlt := w.isLt
  simp only [fld, BitVec.toNat_ofNat]
  omega

end Sys2Proof
end

section
/-! What each format of a syllable decodes to: exactly the instructions whose operands its word and its literals hold (R79 to R83). -/

namespace Sys2Proof

/-! ## Formats that read the same fields as another -/

theorem decV3S_eq : @decV3S = @decV3R := rfl
theorem decV3T_eq : @decV3T = @decV3R := rfl
theorem decV2K_eq : @decV2K = @decV2T := rfl
theorem decMId_eq : @decMId = @decMR := rfl
theorem decMIl_eq : @decMIl = @decMRab := rfl
theorem decMIu_eq : @decMIu = @decMRab := rfl
theorem decX0_eq : @decX0 = @decM0 := rfl
theorem decXNs_eq : @decXNs = @decXNa := rfl
theorem decXAB_eq : @decXAB = @decMIc := rfl
theorem decXTRAP_eq : @decXTRAP = @decMIc := rfl

section
variable {n : Nat} {ls rest : List W32} {i : Instr}

/-! ## Kind S (R79, R84) -/

theorem decS0_eq_ok {mk} : decS0 mk n ls = .ok (i, rest) ↔
    fld n 2 15 = 0 ∧ ls = rest ∧ mk (sheadOf n) = i := by
  simp [decS0, fld_eq_zero]
  tauto

theorem decSR_eq_ok {mk} : decSR mk n ls = .ok (i, rest) ↔ ∃ d a b,
    fld n 2 15 = opsS d a b ∧ ls = rest ∧ mk (sheadOf n) d a b = i := by
  simp [decSR, fld_eq_opsS]
  grind

theorem decSR1_eq_ok {mk} : decSR1 mk n ls = .ok (i, rest) ↔ ∃ d a,
    fld n 2 15 = opsS₂ d a ∧ ls = rest ∧ mk (sheadOf n) d a = i := by
  simp [decSR1, fld_eq_opsS₂]
  grind

theorem decSL_eq_ok {mk} : decSL mk n ls = .ok (i, rest) ↔ ∃ d a w,
    fld n 2 15 = opsS₂ d a ∧ ls = [w] ++ rest ∧ mk (sheadOf n) d a w = i := by
  simp [decSL, fld_eq_opsS₂]

theorem decSLM_eq_ok {mk} : decSLM mk n ls = .ok (i, rest) ↔ ∃ d w,
    fld n 2 15 = d.toNat * 1024 ∧ ls = [w] ++ rest ∧ mk (sheadOf n) d w = i := by
  simp [decSLM, fld_eq_move]

theorem decSC_eq_ok {mk} : decSC mk n ls = .ok (i, rest) ↔ ∃ d a b,
    fld n 2 15 = opsS d.bv a b ∧ ls = rest ∧ mk (sheadOf n) d a b = i := by
  simp [decSC, fld_eq_opsS]
  grind

theorem decSCL_eq_ok {mk} : decSCL mk n ls = .ok (i, rest) ↔ ∃ d a w,
    fld n 2 15 = opsS₂ d.bv a ∧ ls = [w] ++ rest ∧ mk (sheadOf n) d a w = i := by
  simp [decSCL, fld_eq_opsS₂]
  grind

theorem decSB_eq_ok {mk} : decSB mk n ls = .ok (i, rest) ↔ ∃ ofs,
    fld n 2 15 = ofs.toNat ∧ ls = rest ∧ mk (sheadOf n) ofs = i := by
  simp [decSB, fld_eq_toNat]
  tauto

theorem decSJ_eq_ok {mk} : decSJ mk n ls = .ok (i, rest) ↔ ∃ a,
    fld n 2 15 = a.toNat * 32 ∧ ls = rest ∧ mk (sheadOf n) a = i := by
  simp [decSJ, fld_eq_jump]
  grind

theorem decSLP_eq_ok {mk} : decSLP mk n ls = .ok (i, rest) ↔ ∃ c k t,
    fld n 2 15 = opsLoop c k t ∧ ls = rest ∧ mk (sheadOf n) c k t = i := by
  simp [decSLP, fld_eq_opsLoop]
  grind

theorem decSLPL_eq_ok {mk} : decSLPL mk n ls = .ok (i, rest) ↔ ∃ c t w,
    fld n 2 15 = opsLoopl c t ∧ ls = [w] ++ rest ∧ mk (sheadOf n) c t w = i := by
  simp [decSLPL, fld_eq_opsLoopl]

theorem decSW_eq_ok {mk} : decSW mk n ls = .ok (i, rest) ↔ ∃ m,
    fld n 2 15 = m.toNat ∧ ls = rest ∧ mk (sheadOf n) m = i := by
  simp [decSW, fld_eq_mask]
  grind

theorem decSP3_eq_ok {mk} : decSP3 mk n ls = .ok (i, rest) ↔ ∃ d a b,
    fld n 2 15 = opsS d.bv a.bv b.bv ∧ ls = rest ∧ mk (sheadOf n) d a b = i := by
  simp [decSP3, fld_eq_opsS]
  grind

theorem decSP2_eq_ok {mk} : decSP2 mk n ls = .ok (i, rest) ↔ ∃ d a,
    fld n 2 15 = opsS₂ d.bv a.bv ∧ ls = rest ∧ mk (sheadOf n) d a = i := by
  simp [decSP2, fld_eq_opsS₂]
  grind

theorem decSPC_eq_ok {mk} : decSPC mk n ls = .ok (i, rest) ↔ ∃ d a,
    fld n 2 15 = opsS₂ d a.bv ∧ ls = rest ∧ mk (sheadOf n) d a = i := by
  simp [decSPC, fld_eq_opsS₂]
  grind

theorem decSM_eq_ok {mk} : decSM mk n ls = .ok (i, rest) ↔ ∃ d code,
    fld n 2 15 = opsSpecial d code ∧ ls = rest ∧ mk (sheadOf n) d code = i := by
  simp [decSM, fld_eq_opsSpecial]
  grind

/-! ## Kind V (R80, R85) -/

theorem decV3_eq_ok {mk} : decV3 mk n ls = .ok (i, rest) ↔ ∃ d a b,
    fld n 0 17 = opsDAB d.bv a.bv b.bv ∧ ls = (a.lits ++ b.lits) ++ rest ∧ mk (headOf n) d a b = i := by
  simp [decV3, fld_eq_opsDAB]
  grind

theorem decV2_eq_ok {mk} : decV2 mk n ls = .ok (i, rest) ↔ ∃ d a,
    fld n 0 17 = opsDA d.bv a.bv ∧ ls = a.lits ++ rest ∧ mk (headOf n) d a = i := by
  simp [decV2, fld_eq_opsDA]
  grind

theorem decV3R_eq_ok {mk} : decV3R mk n ls = .ok (i, rest) ↔ ∃ d a b m,
    fld n 0 17 = opsDABM d.bv a.bv b.bv m ∧ ls = (a.lits ++ b.lits) ++ rest ∧ mk (headOf n) d a b m = i := by
  simp [decV3R, fld_eq_opsDABM]
  grind

theorem decVC_eq_ok {mk} : decVC mk n ls = .ok (i, rest) ↔ ∃ d a b,
    fld n 0 17 = opsDAB d.bv a.bv b.bv ∧ ls = (a.lits ++ b.lits) ++ rest ∧ mk (headOf n) d a b = i := by
  simp [decVC, fld_eq_opsDAB]
  grind

theorem decV2C_eq_ok {mk} : decV2C mk n ls = .ok (i, rest) ↔ ∃ d a cv,
    fld n 0 17 = opsDA d.bv a.bv ∧ ls = (a.lits ++ [cv.word]) ++ rest ∧ mk (headOf n) d a cv = i := by
  simp [decV2C, fld_eq_opsDA]
  grind

theorem decV3C_eq_ok {mk} : decV3C mk n ls = .ok (i, rest) ↔ ∃ d a b cv,
    fld n 0 17 = opsDAB d.bv a.bv b.bv ∧ ls = (a.lits ++ b.lits ++ [cv.word]) ++ rest ∧ mk (headOf n) d a b cv = i := by
  simp [decV3C, fld_eq_opsDAB]
  grind

theorem decV2T_eq_ok {mk} : decV2T mk n ls = .ok (i, rest) ↔ ∃ d a m,
    fld n 0 17 = opsDAM d.bv a.bv m ∧ ls = a.lits ++ rest ∧ mk (headOf n) d a m = i := by
  simp [decV2T, fld_eq_opsDAM]
  grind

theorem decV3m0_eq_ok {mk} (h : fld n 0 2 = 0) : decV3m0 mk n ls = .ok (i, rest) ↔ ∃ d a b,
    fld n 0 17 = opsDAB d.bv a.bv b.bv ∧ ls = (a.lits ++ b.lits) ++ rest ∧ mk (headOf n) d a b = i := by
  simp [decV3m0, fld_eq_opsDAB, bvf_eq_iff, h]
  grind

theorem decV3m1_eq_ok {mk} (h : fld n 0 2 = 1) : decV3m1 mk n ls = .ok (i, rest) ↔ ∃ d a b,
    fld n 0 17 = opsDABM d.bv a.bv b.bv 1 ∧ ls = (a.lits ++ b.lits) ++ rest ∧ mk (headOf n) d a b = i := by
  simp [decV3m1, fld_eq_opsDABM, bvf_eq_iff, h]
  grind

theorem decVRAND_eq_ok {mk} : decVRAND mk n ls = .ok (i, rest) ↔ ∃ d a b u word layer l,
    fld n 0 17 = opsDAB d.bv a.bv b.bv ∧ l = randWord u word layer ∧ ls = (a.lits ++ b.lits ++ [l]) ++ rest ∧ mk (headOf n) d a b u word
      layer = i := by
  simp [-existsAndEq, -Bool.exists_bool, decVRAND, fld_eq_opsDAB, eq_randWord_iff]
  grind

/-! ## Kind M (R81, R82, R86) -/

theorem decMQI_eq_ok {mk} : decMQI mk n ls = .ok (i, rest) ↔ ∃ q p r x,
    fld n 0 17 = opsDraw q p r x ∧ ls = rest ∧ mk (headOf n) q p r x = i := by
  simp [decMQI, fld_eq_opsDraw]
  grind

theorem decMQR_eq_ok {mk} : decMQR mk n ls = .ok (i, rest) ↔ ∃ q p r x,
    fld n 0 17 = opsDraw q p r x.wide ∧ ls = rest ∧ mk (headOf n) q p r x = i := by
  simp [decMQR, fld_eq_opsDraw, bvf_eq_wide]
  grind

theorem decMPI_eq_ok {mk} : decMPI mk n ls = .ok (i, rest) ↔ ∃ o p r x,
    fld n 0 17 = opsPut o p r x ∧ ls = rest ∧ mk (headOf n) o p r x = i := by
  simp [decMPI, fld_eq_opsPut]
  grind

theorem decMPR_eq_ok {mk} : decMPR mk n ls = .ok (i, rest) ↔ ∃ o p r x,
    fld n 0 17 = opsPut o p r x.wide ∧ ls = rest ∧ mk (headOf n) o p r x = i := by
  simp [decMPR, fld_eq_opsPut, bvf_eq_wide]
  grind

theorem decMLI_eq_ok {mk} : decMLI mk n ls = .ok (i, rest) ↔ ∃ l p r x,
    fld n 0 17 = opsPutLast l p r x ∧ ls = rest ∧ mk (headOf n) l p r x = i := by
  simp [decMLI, fld_eq_opsPutLast]
  grind

theorem decMLR_eq_ok {mk} : decMLR mk n ls = .ok (i, rest) ↔ ∃ l p r x,
    fld n 0 17 = opsPutLast l p r x.wide ∧ ls = rest ∧ mk (headOf n) l p r x = i := by
  simp [decMLR, fld_eq_opsPutLast, bvf_eq_wide]
  grind

theorem decMSD_eq_ok {mk} : decMSD mk n ls = .ok (i, rest) ↔ ∃ d k f,
    fld n 0 17 = opsSpad d.bv k f ∧ ls = rest ∧ mk (headOf n) d k f = i := by
  simp [decMSD, fld_eq_opsSpad]
  grind

theorem decMSDT_eq_ok {mk} : decMSDT mk n ls = .ok (i, rest) ↔ ∃ d k f t,
    fld n 0 17 = opsSpad d.bv k f ∧ ls = [tagWord t] ++ rest ∧ mk (headOf n) d k f t = i := by
  simp [decMSDT, fld_eq_opsSpad]

theorem decMSS_eq_ok {mk} : decMSS mk n ls = .ok (i, rest) ↔ ∃ o k f,
    fld n 0 17 = opsSpad o.bv k f ∧ ls = rest ∧ mk (headOf n) o k f = i := by
  simp [decMSS, fld_eq_opsSpad]
  grind

theorem decMSST_eq_ok {mk} : decMSST mk n ls = .ok (i, rest) ↔ ∃ o k f t,
    fld n 0 17 = opsSpad o.bv k f ∧ ls = [tagWord t] ++ rest ∧ mk (headOf n) o k f t = i := by
  simp [decMSST, fld_eq_opsSpad]

theorem decMSX_eq_ok {mk} : decMSX mk n ls = .ok (i, rest) ↔ ∃ r k f,
    fld n 0 17 = opsSpad r k f ∧ ls = rest ∧ mk (headOf n) r k f = i := by
  simp [decMSX, fld_eq_opsSpad]
  grind

theorem decMSXT_eq_ok {mk} : decMSXT mk n ls = .ok (i, rest) ↔ ∃ r k f t,
    fld n 0 17 = opsSpad r k f ∧ ls = [tagWord t] ++ rest ∧ mk (headOf n) r k f t = i := by
  simp [decMSXT, fld_eq_opsSpad]

theorem decMR_eq_ok {mk} : decMR mk n ls = .ok (i, rest) ↔ ∃ d a b m,
    fld n 0 17 = opsDABM d a b m ∧ ls = rest ∧ mk (headOf n) d a b m = i := by
  simp [decMR, fld_eq_opsDABM]
  grind

theorem decM0_eq_ok {mk} : decM0 mk n ls = .ok (i, rest) ↔
    fld n 0 17 = 0 ∧ ls = rest ∧ mk (headOf n) = i := by
  simp [decM0, fld_eq_zero]
  tauto

theorem decMN_eq_ok {mk} : decMN mk n ls = .ok (i, rest) ↔ ∃ v,
    fld n 0 17 = v.toNat ∧ ls = rest ∧ mk (headOf n) v = i := by
  simp [decMN, fld_eq_count]
  grind

theorem decMRda_eq_ok {mk} : decMRda mk n ls = .ok (i, rest) ↔ ∃ d a m,
    fld n 0 17 = opsDAM d a m ∧ ls = rest ∧ mk (headOf n) d a m = i := by
  simp [decMRda, fld_eq_opsDAM]
  grind

theorem decMRab_eq_ok {mk} : decMRab mk n ls = .ok (i, rest) ↔ ∃ a b m,
    fld n 0 17 = opsABM a b m ∧ ls = rest ∧ mk (headOf n) a b m = i := by
  simp [decMRab, fld_eq_opsABM]
  grind

theorem decMFW_eq_ok {mk} : decMFW mk n ls = .ok (i, rest) ↔ ∃ d a b sc cc l,
    fld n 0 17 = opsDAB d a b ∧ l = flagWord sc cc ∧ ls = [l] ++ rest ∧ mk (headOf n) d a b sc cc = i := by
  simp [-existsAndEq, -Bool.exists_bool, decMFW, fld_eq_opsDAB, eq_flagWord_iff]
  grind

theorem decMIp_eq_ok {mk} : decMIp mk n ls = .ok (i, rest) ↔ ∃ a b,
    fld n 0 17 = opsABM a b 2 ∧ ls = rest ∧ mk (headOf n) a b = i := by
  simp [decMIp, fld_eq_opsABM, bvf_eq_iff (x := 2#2)]
  grind

theorem decMIc_eq_ok {mk} : decMIc mk n ls = .ok (i, rest) ↔ ∃ a b,
    fld n 0 17 = opsAB a b ∧ ls = rest ∧ mk (headOf n) a b = i := by
  simp [decMIc, fld_eq_opsAB]
  grind

theorem decMPK_eq_ok {mk} : decMPK mk n ls = .ok (i, rest) ↔ ∃ o a b,
    fld n 0 17 = opsDAB o.bv a b ∧ ls = rest ∧ mk (headOf n) o a b = i := by
  simp [decMPK, fld_eq_opsDAB]
  grind

theorem decMUP_eq_ok {mk} : decMUP mk n ls = .ok (i, rest) ↔ ∃ d a b,
    fld n 0 17 = opsDAB d.bv a b ∧ ls = rest ∧ mk (headOf n) d a b = i := by
  simp [decMUP, fld_eq_opsDAB]
  grind

/-! ## Kind X (R83, R87) -/

theorem decXMCFG_eq_ok {mk} : decXMCFG mk n ls = .ok (i, rest) ↔ ∃ st g ofs e l,
    fld n 0 17 = opsTimed st g ∧ l = mcfgWord ofs e ∧ ls = [l] ++ rest ∧ mk (headOf n) st g ofs e = i := by
  simp [-existsAndEq, -Bool.exists_bool, decXMCFG, fld_eq_opsTimed, eq_mcfgWord_iff]
  grind

theorem decXMGO_eq_ok {mk} : decXMGO mk n ls = .ok (i, rest) ↔ ∃ st cb ca bt t l,
    fld n 0 17 = st.bits ∧ l = mgoWord cb ca bt t ∧ ls = [l] ++ rest ∧ mk (headOf n) st cb ca bt t = i := by
  simp [-existsAndEq, -Bool.exists_bool, decXMGO, fld_eq_bits, eq_mgoWord_iff]
  grind

theorem decXT0_eq_ok {mk} : decXT0 mk n ls = .ok (i, rest) ↔ ∃ st,
    fld n 0 17 = st.bits ∧ ls = [0] ++ rest ∧ mk (headOf n) st = i := by
  simp [decXT0, fld_eq_bits, bvf_lit_eq_zero]
  grind

theorem decXMBASE_eq_ok {mk} : decXMBASE mk n ls = .ok (i, rest) ↔ ∃ st g w l,
    fld n 0 17 = opsTimed st g ∧ l = countWord w ∧ ls = [l] ++ rest ∧ mk (headOf n) st g w = i := by
  simp [-existsAndEq, -Bool.exists_bool, decXMBASE, fld_eq_opsTimed, eq_countWord_iff (k := 3) (m := 29) rfl]
  grind

theorem decXCFGLD_eq_ok {mk} : decXCFGLD mk n ls = .ok (i, rest) ↔ ∃ st g ck t ofs len e l,
    fld n 0 17 = opsTimed st g ∧ l = cfgldWord ck t ofs len e ∧ ls = [l] ++ rest ∧ mk (headOf n) st g ck t ofs len e = i := by
  simp [-existsAndEq, -Bool.exists_bool, decXCFGLD, fld_eq_opsTimed, eq_cfgldWord_iff]
  grind

theorem decXCFGSWAP_eq_ok {mk} : decXCFGSWAP mk n ls = .ok (i, rest) ↔ ∃ st e l,
    fld n 0 17 = st.bits ∧ l = countWord e ∧ ls = [l] ++ rest ∧ mk (headOf n) st e = i := by
  simp [-existsAndEq, -Bool.exists_bool, decXCFGSWAP, fld_eq_bits, eq_countWord_iff (k := 2) (m := 30) rfl]
  grind

theorem decXMFMT_eq_ok {mk} : decXMFMT mk n ls = .ok (i, rest) ↔ ∃ st g e l,
    fld n 0 17 = opsTimed st g ∧ l = countWord e ∧ ls = [l] ++ rest ∧ mk (headOf n) st g e = i := by
  simp [-existsAndEq, -Bool.exists_bool, decXMFMT, fld_eq_opsTimed, eq_countWord_iff (k := 4) (m := 28) rfl]
  grind

theorem decXACZERO_eq_ok {mk} : decXACZERO mk n ls = .ok (i, rest) ↔ ∃ st rows row bank l,
    fld n 0 17 = st.bits ∧ l = aczeroWord rows row bank ∧ ls = [l] ++ rest ∧ mk (headOf n) st rows row bank = i := by
  simp [-existsAndEq, -Bool.exists_bool, decXACZERO, fld_eq_bits, eq_aczeroWord_iff]
  grind

theorem decXACALLOC_eq_ok {mk} : decXACALLOC mk n ls = .ok (i, rest) ↔ ∃ d a zero park,
    fld n 0 17 = opsAlloc d a zero park ∧ ls = rest ∧ mk (headOf n) d a zero park = i := by
  simp [decXACALLOC, fld_eq_opsAlloc, -Bool.exists_bool]
  grind

theorem decXA_eq_ok {mk} : decXA mk n ls = .ok (i, rest) ↔ ∃ a,
    fld n 0 17 = a.toNat * 128 ∧ ls = rest ∧ mk (headOf n) a = i := by
  simp [decXA, fld_eq_opsA, bvf_zero_seven]
  grind

theorem decXACLD_eq_ok {mk} : decXACLD mk n ls = .ok (i, rest) ↔ ∃ d a b cv l,
    fld n 0 17 = opsDAB d.bv a b ∧ l = cv.word ∧ ls = [l] ++ rest ∧ mk (headOf n) d a b cv = i := by
  simp [-existsAndEq, -Bool.exists_bool, decXACLD, fld_eq_opsDAB]
  grind

theorem decXXCOPY_eq_ok {mk} : decXXCOPY mk n ls = .ok (i, rest) ↔ ∃ st g rem ck ex stg t dst frm l,
    fld n 0 17 = opsTimed st g ∧ l = xcopyWord rem ck ex stg t dst frm ∧ ls = [l] ++ rest ∧ mk (headOf n) st g rem ck ex stg t dst frm =
      i := by
  simp [-existsAndEq, -Bool.exists_bool, decXXCOPY, fld_eq_opsTimed, eq_xcopyWord_iff]
  grind

theorem decXTSLD_eq_ok {mk} : decXTSLD mk n ls = .ok (i, rest) ↔ ∃ st g k l,
    fld n 0 17 = opsTimed st g ∧ l = countWord k ∧ ls = [l] ++ rest ∧ mk (headOf n) st g k = i := by
  simp [-existsAndEq, -Bool.exists_bool, decXTSLD, fld_eq_opsTimed, eq_countWord_iff (k := 5) (m := 27) rfl]
  grind

theorem decXTSEV_eq_ok {mk} : decXTSEV mk n ls = .ok (i, rest) ↔ ∃ st k l,
    fld n 0 17 = st.bits ∧ l = countWord k ∧ ls = [l] ++ rest ∧ mk (headOf n) st k = i := by
  simp [-existsAndEq, -Bool.exists_bool, decXTSEV, fld_eq_bits, eq_countWord_iff (k := 5) (m := 27) rfl]
  grind

theorem decXTLOAD_eq_ok {mk} : decXTLOAD mk n ls = .ok (i, rest) ↔ ∃ st g ck t k l,
    fld n 0 17 = opsTimed st g ∧ l = tloadWord ck t k ∧ ls = [l] ++ rest ∧ mk (headOf n) st g ck t k = i := by
  simp [-existsAndEq, -Bool.exists_bool, decXTLOAD, fld_eq_opsTimed, eq_tloadWord_iff]
  grind

theorem decXRLOAD_eq_ok {mk} : decXRLOAD mk n ls = .ok (i, rest) ↔ ∃ st g ck t l,
    fld n 0 17 = opsTimed st g ∧ l = rloadWord ck t ∧ ls = [l] ++ rest ∧ mk (headOf n) st g ck t = i := by
  simp [-existsAndEq, -Bool.exists_bool, decXRLOAD, fld_eq_opsTimed, eq_rloadWord_iff]
  grind

theorem decXRSTEP_eq_ok {mk} : decXRSTEP mk n ls = .ok (i, rest) ↔ ∃ st g gens cheq nb alt pl l,
    fld n 0 17 = opsTimed st g ∧ l = rstepWord gens cheq nb alt pl ∧ ls = [l] ++ rest ∧ mk (headOf n) st g gens cheq nb alt pl = i := by
  simp [-existsAndEq, -Bool.exists_bool, decXRSTEP, fld_eq_opsTimed, eq_rstepWord_iff]
  grind

theorem decXAm0_eq_ok {mk} (h : fld n 0 2 = 0) : decXAm0 mk n ls = .ok (i, rest) ↔ ∃ a,
    fld n 0 17 = a.toNat * 128 ∧ ls = rest ∧ mk (headOf n) a = i := by
  simp [decXAm0, fld_eq_opsA, bvf_eq_iff (lo := 0), h]
  grind

theorem decXAm1_eq_ok {mk} (h : fld n 0 2 = 1) : decXAm1 mk n ls = .ok (i, rest) ↔ ∃ a,
    fld n 0 17 = a.toNat * 128 + 1 ∧ ls = rest ∧ mk (headOf n) a = i := by
  simp [decXAm1, fld_eq_opsA_one, bvf_eq_iff (lo := 0), h]
  grind

theorem decXABm0_eq_ok {mk} (h : fld n 0 2 = 0) : decXABm0 mk n ls = .ok (i, rest) ↔ ∃ a b,
    fld n 0 17 = opsAB a b ∧ ls = rest ∧ mk (headOf n) a b = i := by
  simp [decXABm0, fld_eq_opsAB, bvf_eq_iff (lo := 0), h]
  grind

theorem decX0m1_eq_ok {mk} (h : fld n 0 2 = 1) : decX0m1 mk n ls = .ok (i, rest) ↔
    fld n 0 17 = 1 ∧ ls = rest ∧ mk (headOf n) = i := by
  simp [decX0m1, fld_eq_one, bvf_eq_iff (lo := 0), h]
  grind

theorem decXNa_eq_ok {mk} : decXNa mk n ls = .ok (i, rest) ↔ ∃ k,
    fld n 0 17 = k.toNat * 4 ∧ ls = rest ∧ mk (headOf n) k = i := by
  simp [decXNa, fld_eq_opsN]
  grind

theorem decXDA_eq_ok {mk} : decXDA mk n ls = .ok (i, rest) ↔ ∃ d a,
    fld n 0 17 = opsDA d a ∧ ls = rest ∧ mk (headOf n) d a = i := by
  simp [decXDA, fld_eq_opsDA, bvf_zero_seven]
  grind

theorem decXDAB_eq_ok {mk} : decXDAB mk n ls = .ok (i, rest) ↔ ∃ d a b,
    fld n 0 17 = opsDAB d a b ∧ ls = rest ∧ mk (headOf n) d a b = i := by
  simp [decXDAB, fld_eq_opsDAB]
  grind

end

end Sys2Proof
end

section
/-! Decoding and encoding agree (R75 to R88). -/

namespace Sys2Proof

/-! ## A syllable's word and its fields (R75) -/

/-- A V, M or X word is made of its kind, its opcode, its head and its operand bits. -/
theorem encK_eq {kind op x : Nat} {w : W32} (hk : fld w.toNat 29 2 = kind) (hop : fld w.toNat 22 7 = op) (hx : fld w.toNat 0 17 = x) :
    encK kind op (headOf w.toNat) x = w := by
  simp only [encK, headBits, headOf, bnat_boolf, bvf_toNat, ← BitVec.toNat_inj, BitVec.toNat_ofNat]
  have hlt := w.isLt
  simp only [fld] at *
  omega

/-- So is an S word, whose operand bits are 16:2. -/
theorem encS_eq {op x : Nat} {w : W32} (hk : fld w.toNat 29 2 = 0) (hop : fld w.toNat 22 7 = op) (hx : fld w.toNat 2 15 = x) :
    encS op (sheadOf w.toNat) x = w := by
  simp only [encS, headBits, sheadOf, bnat_boolf, bvf_toNat, ← BitVec.toNat_inj, BitVec.toNat_ofNat]
  have hlt := w.isLt
  simp only [fld] at *
  omega

/-- The fields of a V, M or X word that was put together. -/
theorem encK_fields {kind op x : Nat} (h : Head) (hkind : kind < 4) (hop : op < 128) (hx : x < 2 ^ 17) :
    let n := (encK kind op h x).toNat
    fld n 29 2 = kind ∧ fld n 22 7 = op ∧ headOf n = h ∧ fld n 0 17 = x := by
  obtain ⟨last, neg, g⟩ := h
  have hlast := bnat_le_one last
  have hneg := bnat_le_one neg
  have hword : (encK kind op ⟨last, neg, g⟩ x).toNat =
      bnat last * 2 ^ 31 + kind * 2 ^ 29 + op * 2 ^ 22 + bnat neg * 2 ^ 21 + g.toNat * 2 ^ 17 + x := by
    simp only [encK, headBits, BitVec.toNat_ofNat]
    omega
  simp only [hword, headOf, Head.mk.injEq, boolf_eq_iff, bvf_eq_iff, fld]
  omega

/-- The fields of an S word that was put together. -/
theorem encS_fields {op x : Nat} (h : SHead) (hop : op < 128) (hx : x < 2 ^ 15) :
    let n := (encS op h x).toNat
    fld n 29 2 = 0 ∧ fld n 22 7 = op ∧ sheadOf n = h ∧ fld n 2 15 = x := by
  obtain ⟨last, neg, g, sync, shadow⟩ := h
  have hlast := bnat_le_one last
  have hneg := bnat_le_one neg
  have hsync := bnat_le_one sync
  have hshadow := bnat_le_one shadow
  have hword : (encS op ⟨last, neg, g, sync, shadow⟩ x).toNat = bnat last * 2 ^ 31 + op * 2 ^ 22 + bnat neg * 2 ^ 21 + g.toNat * 2 ^ 17 +
      x * 4 + bnat sync * 2 + bnat shadow := by
    simp only [encS, headBits, BitVec.toNat_ofNat]
    omega
  simp only [hword, sheadOf, SHead.mk.injEq, boolf_eq_iff, bvf_eq_iff, fld]
  omega

/-! ## What decodes encodes to what was read -/

/-- The opcode map of a kind. -/
def decKind (kind op n : Nat) (ls : List W32) : Dec (Instr × List W32) :=
  match kind with
  | 0 => decS op n ls
  | 1 => decV op n ls
  | 2 => decM op n ls
  | _ => decX op n ls

/-- A word decodes to what its kind's map reads, where that is well formed (R75, R88). -/
theorem decodeSyl_eq_ok {w : W32} {ls rest : List W32} {i : Instr} : decodeSyl w ls = .ok (i, rest) ↔
    decKind (fld w.toNat 29 2) (fld w.toNat 22 7) w.toNat ls = .ok (i, rest) ∧ i.wf = true := by
  have h : decodeSyl w ls = (do
      let r ← decKind (fld w.toNat 29 2) (fld w.toNat 22 7) w.toNat ls
      need .range r.1.wf
      return r) := by
    unfold decodeSyl decKind
    dsimp only
    split <;> simp only [*]
  simp only [h, Dec.bind_eq_ok, need_eq_ok, Dec.pure_eq_ok, exists_const]
  constructor
  · rintro ⟨r, hr, hwf, rfl⟩
    exact ⟨hr, hwf⟩
  · rintro ⟨hr, hwf⟩
    exact ⟨_, hr, hwf, rfl⟩

theorem encK_words {w : W32} {kind op x : Nat} {lits rest : List W32} (hk : fld w.toNat 29 2 = kind) (hop : fld w.toNat 22 7 = op) (hx :
  fld w.toNat 0 17 = x) :
    encK kind op (headOf w.toNat) x :: (lits ++ rest) = w :: (lits ++ rest) := by rw [encK_eq hk hop hx]
theorem encS_words {w : W32} {op x : Nat} {lits rest : List W32} (hk : fld w.toNat 29 2 = 0) (hop : fld w.toNat 22 7 = op) (hx : fld
  w.toNat 2 15 = x) :
    encS op (sheadOf w.toNat) x :: (lits ++ rest) = w :: (lits ++ rest) := by rw [encS_eq hk hop hx]

theorem decS_encode {w : W32} {op : Nat} {ls rest : List W32} {i : Instr} (hk : fld w.toNat 29 2 = 0) (hop : fld w.toNat 22 7 = op)
    (h : decS op w.toNat ls = .ok (i, rest)) : encode i ++ rest = w :: ls := by
  revert h
  unfold decS
  repeat' split
  all_goals simp (disch := assumption) only [decS0_eq_ok, decSR_eq_ok, decSR1_eq_ok, decSL_eq_ok, decSLM_eq_ok, decSC_eq_ok,
    decSCL_eq_ok, decSB_eq_ok, decSJ_eq_ok, decSLP_eq_ok, decSLPL_eq_ok, decSW_eq_ok, decSP3_eq_ok, decSP2_eq_ok, decSPC_eq_ok,
      decSM_eq_ok, reduceCtorEq, false_implies, forall_exists_index, and_imp]
  all_goals
    intros
    subst_vars
    exact encS_words hk hop ‹fld _ 2 15 = _›

theorem decV_encode {w : W32} {op : Nat} {ls rest : List W32} {i : Instr} (hk : fld w.toNat 29 2 = 1) (hop : fld w.toNat 22 7 = op)
    (h : decV op w.toNat ls = .ok (i, rest)) : encode i ++ rest = w :: ls := by
  revert h
  unfold decV
  repeat' split
  all_goals simp (disch := assumption) only [decV3_eq_ok, decV2_eq_ok, decV3R_eq_ok, decVC_eq_ok, decV3S_eq, decV2C_eq_ok, decV3C_eq_ok,
    decV2T_eq_ok, decV3T_eq, decV3m0_eq_ok, decV3m1_eq_ok, decVRAND_eq_ok, decV2K_eq, reduceCtorEq, false_implies, forall_exists_index,
      and_imp]
  all_goals
    intros
    subst_vars
    exact encK_words hk hop ‹fld _ 0 17 = _›

theorem decM_encode {w : W32} {op : Nat} {ls rest : List W32} {i : Instr} (hk : fld w.toNat 29 2 = 2) (hop : fld w.toNat 22 7 = op)
    (h : decM op w.toNat ls = .ok (i, rest)) : encode i ++ rest = w :: ls := by
  revert h
  unfold decM
  repeat' split
  all_goals simp (disch := assumption) only [decMQI_eq_ok, decMQR_eq_ok, decMPI_eq_ok, decMPR_eq_ok, decMLI_eq_ok, decMLR_eq_ok,
    decMSD_eq_ok, decMSDT_eq_ok, decMSS_eq_ok, decMSST_eq_ok, decMSX_eq_ok, decMSXT_eq_ok, decMR_eq_ok, decM0_eq_ok, decMN_eq_ok,
      decMRda_eq_ok, decMRab_eq_ok, decMFW_eq_ok, decMIp_eq_ok, decMIl_eq, decMId_eq, decMIu_eq, decMIc_eq_ok, decMPK_eq_ok,
        decMUP_eq_ok, reduceCtorEq, false_implies, forall_exists_index, and_imp]
  all_goals
    intros
    subst_vars
    exact encK_words hk hop ‹fld _ 0 17 = _›

theorem decX_encode {w : W32} {op : Nat} {ls rest : List W32} {i : Instr} (hk : fld w.toNat 29 2 = 3) (hop : fld w.toNat 22 7 = op)
    (h : decX op w.toNat ls = .ok (i, rest)) : encode i ++ rest = w :: ls := by
  revert h
  unfold decX
  repeat' split
  all_goals simp (disch := assumption) only [decM0_eq_ok, decMIc_eq_ok, decXMCFG_eq_ok, decXMGO_eq_ok, decXT0_eq_ok, decXMBASE_eq_ok,
    decXCFGLD_eq_ok, decXCFGSWAP_eq_ok, decXMFMT_eq_ok, decXACZERO_eq_ok, decXACALLOC_eq_ok, decXA_eq_ok, decXAB_eq, decXACLD_eq_ok,
      decXXCOPY_eq_ok, decXTSLD_eq_ok, decXTSEV_eq_ok, decXTLOAD_eq_ok, decXRLOAD_eq_ok, decXRSTEP_eq_ok, decXAm0_eq_ok, decXAm1_eq_ok,
        decXABm0_eq_ok, decX0m1_eq_ok, decXNa_eq_ok, decX0_eq, decXDA_eq_ok, decXDAB_eq_ok, decXTRAP_eq, decXNs_eq, reduceCtorEq,
          false_implies, forall_exists_index, and_imp]
  all_goals
    intros
    subst_vars
    exact encK_words hk hop ‹fld _ 0 17 = _›

/-! ## What is encoded is read back -/

section
variable {n : Nat} (ls : List W32)
theorem decV_vrot (h : fld n 0 2 = 0) : decV 0x51 n ls = decV3m0 .vrot n ls := by simp only [decV, h]
theorem decV_vrotZf (h : fld n 0 2 = 1) : decV 0x51 n ls = decV3m1 .vrotZf n ls := by simp only [decV, h]
theorem decX_waitb (h : fld n 0 2 = 0) : decX 0x20 n ls = decXAm0 .waitb n ls := by simp only [decX, h]
theorem decX_waitbUntil (h : fld n 0 2 = 1) : decX 0x20 n ls = decXAm1 .waitbUntil n ls := by simp only [decX, h]
theorem decX_deadline (h : fld n 0 2 = 0) : decX 0x21 n ls = decXABm0 .deadline n ls := by simp only [decX, h]
theorem decX_deadlineClr (h : fld n 0 2 = 1) : decX 0x21 n ls = decX0m1 .deadlineClr n ls := by simp only [decX, h]
end

section
variable {i : Instr} {w : W32} {ws lits rest : List W32} {op x : Nat}

theorem decodeSyl_of_encK {kind : Nat} {h : Head} (hwf : i.wf = true) (he : encK kind op h x :: lits = w :: ws)
    (hx : x < 2 ^ 17) (hdec : headOf w.toNat = h → fld w.toNat 0 17 = x → decKind kind op w.toNat (lits ++ rest) = .ok (i, rest))
    (hkind : kind < 4 := by decide) (hop : op < 128 := by decide) : decodeSyl w (ws ++ rest) = .ok (i, rest) := by
  obtain ⟨rfl, rfl⟩ := List.cons.inj he
  obtain ⟨hk, ho, hh, hf⟩ := encK_fields h hkind hop hx
  rw [decodeSyl_eq_ok, hk, ho]
  exact ⟨hdec hh hf, hwf⟩

theorem decodeSyl_of_encS {h : SHead} (hwf : i.wf = true) (he : encS op h x :: lits = w :: ws)
    (hx : x < 2 ^ 15) (hdec : sheadOf w.toNat = h → fld w.toNat 2 15 = x → decKind 0 op w.toNat (lits ++ rest) = .ok (i, rest))
    (hop : op < 128 := by decide) : decodeSyl w (ws ++ rest) = .ok (i, rest) := by
  obtain ⟨rfl, rfl⟩ := List.cons.inj he
  obtain ⟨hk, ho, hh, hf⟩ := encS_fields h hop hx
  rw [decodeSyl_eq_ok, hk, ho]
  exact ⟨hdec hh hf, hwf⟩
end

/-- The decoder reads back every well-formed instruction, format by format. -/
theorem decodeSyl_encode {i : Instr} {w : W32} {ws rest : List W32} (hwf : i.wf = true) (he : encode i = w :: ws) :
    decodeSyl w (ws ++ rest) = .ok (i, rest) := by
  cases i with
  | nop h | halt h | ret h =>
    exact decodeSyl_of_encS hwf he (by omega) fun hh hx => decS0_eq_ok.2 ⟨hx, rfl, by rw [hh]⟩
  | add h d a b | sub h d a b | and h d a b | or h d a b | xor h d a b | andn h d a b | shl h d a b | shr h d a b | sar h d a b
    | rotl h d a b | mul h d a b | mulhI h d a b | mulhN h d a b | divI h d a b | divN h d a b | modI h d a b | modN h d a b
    | minI h d a b | minN h d a b | maxI h d a b | maxN h d a b | sel h d a b | bfx h d a b | bfi h d a b | lea h d a b =>
    exact decodeSyl_of_encS hwf he (by omega) fun hh hx => decSR_eq_ok.2 ⟨d, a, b, hx, rfl, by rw [hh]⟩
  | clz h d a | popc h d a | mov h d a =>
    exact decodeSyl_of_encS hwf he (by omega) fun hh hx => decSR1_eq_ok.2 ⟨d, a, hx, rfl, by rw [hh]⟩
  | addl h d a w | subl h d a w | andl h d a w | orl h d a w | xorl h d a w | andnl h d a w | shll h d a w | shrl h d a w
    | sarl h d a w | rotll h d a w | mull h d a w | minlI h d a w | minlN h d a w | maxlI h d a w | maxlN h d a w | leal h d a w =>
    exact decodeSyl_of_encS hwf he (by omega) fun hh hx => decSL_eq_ok.2 ⟨d, a, w, hx, rfl, by rw [hh]⟩
  | movl h d w =>
    exact decodeSyl_of_encS hwf he (by omega) fun hh hx => decSLM_eq_ok.2 ⟨d, w, hx, rfl, by rw [hh]⟩
  | cmpEq h d a b | cmpNe h d a b | cmpLtI h d a b | cmpGeI h d a b | cmpLtN h d a b | cmpGeN h d a b =>
    exact decodeSyl_of_encS hwf he (by omega) fun hh hx => decSC_eq_ok.2 ⟨d, a, b, hx, rfl, by rw [hh]⟩
  | cmplEq h d a w | cmplNe h d a w | cmplLtI h d a w | cmplGeI h d a w | cmplLtN h d a w | cmplGeN h d a w =>
    exact decodeSyl_of_encS hwf he (by omega) fun hh hx => decSCL_eq_ok.2 ⟨d, a, w, hx, rfl, by rw [hh]⟩
  | br h ofs | call h ofs =>
    exact decodeSyl_of_encS hwf he (by omega) fun hh hx => decSB_eq_ok.2 ⟨ofs, hx, rfl, by rw [hh]⟩
  | jmp h a =>
    exact decodeSyl_of_encS hwf he (by omega) fun hh hx => decSJ_eq_ok.2 ⟨a, hx, rfl, by rw [hh]⟩
  | loop h c k t =>
    exact decodeSyl_of_encS hwf he (by omega) fun hh hx => decSLP_eq_ok.2 ⟨c, k, t, hx, rfl, by rw [hh]⟩
  | loopl h c t w =>
    exact decodeSyl_of_encS hwf he (by omega) fun hh hx => decSLPL_eq_ok.2 ⟨c, t, w, hx, rfl, by rw [hh]⟩
  | cwait h m =>
    exact decodeSyl_of_encS hwf he (by omega) fun hh hx => decSW_eq_ok.2 ⟨m, hx, rfl, by rw [hh]⟩
  | pand h d a b | por h d a b | pxor h d a b =>
    exact decodeSyl_of_encS hwf he (by omega) fun hh hx => decSP3_eq_ok.2 ⟨d, a, b, hx, rfl, by rw [hh]⟩
  | pnot h d a | pfirst h d a | pany h d a | pall h d a =>
    exact decodeSyl_of_encS hwf he (by omega) fun hh hx => decSP2_eq_ok.2 ⟨d, a, hx, rfl, by rw [hh]⟩
  | pcount h d a =>
    exact decodeSyl_of_encS hwf he (by omega) fun hh hx => decSPC_eq_ok.2 ⟨d, a, hx, rfl, by rw [hh]⟩
  | mfs h r code | mts h r code =>
    exact decodeSyl_of_encS hwf he (by omega) fun hh hx => decSM_eq_ok.2 ⟨r, code, hx, rfl, by rw [hh]⟩
  | vadd h d a b | vsub h d a b | vmul h d a b | vmulhI h d a b | vmulhN h d a b | vminI h d a b | vminN h d a b | vmaxI h d a b
    | vmaxN h d a b | vand h d a b | vor h d a b | vxor h d a b | vshl h d a b | vshr h d a b | vsar h d a b | vaddsI h d a b
    | vaddsN h d a b | vsubsI h d a b | vsubsN h d a b | vfmin h d a b | vfmax h d a b | vsel h d a b | vshuf h d a b
        | vbcast h d a b =>
    exact decodeSyl_of_encK hwf he (opsDAB_lt d.bv a.bv b.bv) fun hh hx => decV3_eq_ok.2 ⟨d, a, b, hx, rfl, by rw [hh]⟩
  | vabs h d a | vfabs h d a | vfneg h d a | vmov h d a | vcvtt h d a =>
    exact decodeSyl_of_encK hwf he (opsDA_lt d.bv a.bv) fun hh hx => decV2_eq_ok.2 ⟨d, a, hx, rfl, by rw [hh]⟩
  | vfadd h d a b rm | vfsub h d a b rm | vfmul h d a b rm | vfma h d a b rm | vscaleb h d a b rm =>
    exact decodeSyl_of_encK hwf he (opsDABM_lt d.bv a.bv b.bv rm) fun hh hx => decV3R_eq_ok.2 ⟨d, a, b, rm, hx, rfl, by rw [hh]⟩
  | vcmpEq h d a b | vcmpNe h d a b | vcmpLtI h d a b | vcmpGeI h d a b | vcmpLtN h d a b | vcmpGeN h d a b | vfcmpEq h d a b
    | vfcmpLt h d a b | vfcmpLe h d a b | vfcmpUn h d a b =>
    exact decodeSyl_of_encK hwf he (opsDAB_lt d.bv a.bv b.bv) fun hh hx => decVC_eq_ok.2 ⟨d, a, b, hx, rfl, by rw [hh]⟩
  | vdot4 h d a b sg =>
    exact decodeSyl_of_encK hwf he (opsDABM_lt d.bv a.bv b.bv sg) fun hh hx => decV3R_eq_ok.2 ⟨d, a, b, sg, hx, rfl, by rw [hh]⟩
  | vcvt h d a cv | vunpk h d a cv =>
    exact decodeSyl_of_encK hwf he (opsDA_lt d.bv a.bv) fun hh hx => decV2C_eq_ok.2 ⟨d, a, cv, hx, rfl, by rw [hh]⟩
  | vpack h d a b cv =>
    exact decodeSyl_of_encK hwf he (opsDAB_lt d.bv a.bv b.bv) fun hh hx => decV3C_eq_ok.2 ⟨d, a, b, cv, hx, rfl, by rw [hh]⟩
  | vrsum h d a ty | vrmax h d a ty | vrmin h d a ty | vscan h d a ty =>
    exact decodeSyl_of_encK hwf he (opsDAM_lt d.bv a.bv ty) fun hh hx => decV2T_eq_ok.2 ⟨d, a, ty, hx, rfl, by rw [hh]⟩
  | vsort h d a b ty =>
    exact decodeSyl_of_encK hwf he (opsDABM_lt d.bv a.bv b.bv ty) fun hh hx => decV3R_eq_ok.2 ⟨d, a, b, ty, hx, rfl, by rw [hh]⟩
  | vrot h d a b =>
    refine decodeSyl_of_encK hwf he (opsDAB_lt d.bv a.bv b.bv) fun hh hx => ?_
    have hlow : fld w.toNat 0 2 = 0 := (fld_low hx).trans (by omega)
    exact (decV_vrot _ hlow).trans ((decV3m0_eq_ok hlow).2 ⟨d, a, b, hx, rfl, by rw [hh]⟩)
  | vrotZf h d a b =>
    refine decodeSyl_of_encK hwf he (opsDABM_lt d.bv a.bv b.bv 1) fun hh hx => ?_
    have hlow : fld w.toNat 0 2 = 1 := (fld_low hx).trans (by omega)
    exact (decV_vrotZf _ hlow).trans ((decV3m1_eq_ok hlow).2 ⟨d, a, b, hx, rfl, by rw [hh]⟩)
  | vrand h d a b u word layer =>
    exact decodeSyl_of_encK hwf he (opsDAB_lt d.bv a.bv b.bv) fun hh hx => decVRAND_eq_ok.2 ⟨d, a, b, u, word, layer, _, hx, rfl, rfl, by
      rw [hh]⟩
  | teval h d a k =>
    exact decodeSyl_of_encK hwf he (opsDAM_lt d.bv a.bv k) fun hh hx => decV2T_eq_ok.2 ⟨d, a, k, hx, rfl, by rw [hh]⟩
  | drawImmediate h q p r i =>
    exact decodeSyl_of_encK hwf he (by omega) fun hh hx => decMQI_eq_ok.2 ⟨q, p, r, i, hx, rfl, by rw [hh]⟩
  | drawRegister h q p r x =>
    exact decodeSyl_of_encK hwf he (by omega) fun hh hx => decMQR_eq_ok.2 ⟨q, p, r, x, hx, rfl, by rw [hh]⟩
  | putOperandImmediate h o p r i =>
    exact decodeSyl_of_encK hwf he (by omega) fun hh hx => decMPI_eq_ok.2 ⟨o, p, r, i, hx, rfl, by rw [hh]⟩
  | putOperandRegister h o p r x =>
    exact decodeSyl_of_encK hwf he (by omega) fun hh hx => decMPR_eq_ok.2 ⟨o, p, r, x, hx, rfl, by rw [hh]⟩
  | putLastResultImmediate h l p r i =>
    exact decodeSyl_of_encK hwf he (by omega) fun hh hx => decMLI_eq_ok.2 ⟨l, p, r, i, hx, rfl, by rw [hh]⟩
  | putLastResultRegister h l p r x =>
    exact decodeSyl_of_encK hwf he (by omega) fun hh hx => decMLR_eq_ok.2 ⟨l, p, r, x, hx, rfl, by rw [hh]⟩
  | sld h d k f =>
    exact decodeSyl_of_encK hwf he (opsSpad_lt d.bv k f) fun hh hx => decMSD_eq_ok.2 ⟨d, k, f, hx, rfl, by rw [hh]⟩
  | sldTagged h d k f tag =>
    exact decodeSyl_of_encK hwf he (opsSpad_lt d.bv k f) fun hh hx => decMSDT_eq_ok.2 ⟨d, k, f, tag, hx, rfl, by rw [hh]⟩
  | sst h o k f =>
    exact decodeSyl_of_encK hwf he (opsSpad_lt o.bv k f) fun hh hx => decMSS_eq_ok.2 ⟨o, k, f, hx, rfl, by rw [hh]⟩
  | sstTagged h o k f tag =>
    exact decodeSyl_of_encK hwf he (opsSpad_lt o.bv k f) fun hh hx => decMSST_eq_ok.2 ⟨o, k, f, tag, hx, rfl, by rw [hh]⟩
  | slds h r k f | ssts h r k f =>
    exact decodeSyl_of_encK hwf he (by omega) fun hh hx => decMSX_eq_ok.2 ⟨r, k, f, hx, rfl, by rw [hh]⟩
  | sldsTagged h r k f tag | sstsTagged h r k f tag =>
    exact decodeSyl_of_encK hwf he (by omega) fun hh hx => decMSXT_eq_ok.2 ⟨r, k, f, tag, hx, rfl, by rw [hh]⟩
  | ld h d a b m | st h d a b m | ecopy h d a b m | aadd h d a b m | aminI h d a b m | aminN h d a b m | amaxI h d a b m
    | amaxN h d a b m | aand h d a b m | aor h d a b m | axor h d a b m | axchg h d a b m | acas h d a b m | afadd h d a b m =>
    exact decodeSyl_of_encK hwf he (by omega) fun hh hx => decMR_eq_ok.2 ⟨d, a, b, m, hx, rfl, by rw [hh]⟩
  | mark h =>
    exact decodeSyl_of_encK hwf he (by omega) fun hh hx => decM0_eq_ok.2 ⟨hx, rfl, by rw [hh]⟩
  | lqwait h v | sqwait h v | fence h v =>
    exact decodeSyl_of_encK hwf he (by omega) fun hh hx => decMN_eq_ok.2 ⟨v, hx, rfl, by rw [hh]⟩
  | bara h d a m =>
    exact decodeSyl_of_encK hwf he (by omega) fun hh hx => decMRda_eq_ok.2 ⟨d, a, m, hx, rfl, by rw [hh]⟩
  | barw h a b m =>
    exact decodeSyl_of_encK hwf he (by omega) fun hh hx => decMRab_eq_ok.2 ⟨a, b, m, hx, rfl, by rw [hh]⟩
  | flagw h d a b sc cc =>
    exact decodeSyl_of_encK hwf he (by omega) fun hh hx => decMFW_eq_ok.2 ⟨d, a, b, sc, cc, _, hx, rfl, rfl, by rw [hh]⟩
  | pref h a b =>
    exact decodeSyl_of_encK hwf he (by omega) fun hh hx => decMIp_eq_ok.2 ⟨a, b, hx, rfl, by rw [hh]⟩
  | ipref h a b l =>
    exact decodeSyl_of_encK hwf he (by omega) fun hh hx => decMRab_eq_ok.2 ⟨a, b, l, hx, rfl, by rw [hh]⟩
  | ipin h d a b l =>
    exact decodeSyl_of_encK hwf he (by omega) fun hh hx => decMR_eq_ok.2 ⟨d, a, b, l, hx, rfl, by rw [hh]⟩
  | iunpin h a b l =>
    exact decodeSyl_of_encK hwf he (by omega) fun hh hx => decMRab_eq_ok.2 ⟨a, b, l, hx, rfl, by rw [hh]⟩
  | icinv h a b =>
    exact decodeSyl_of_encK hwf he (by omega) fun hh hx => decMIc_eq_ok.2 ⟨a, b, hx, rfl, by rw [hh]⟩
  | park h o a b =>
    exact decodeSyl_of_encK hwf he (opsDAB_lt o.bv a b) fun hh hx => decMPK_eq_ok.2 ⟨o, a, b, hx, rfl, by rw [hh]⟩
  | unpark h d a b =>
    exact decodeSyl_of_encK hwf he (opsDAB_lt d.bv a b) fun hh hx => decMUP_eq_ok.2 ⟨d, a, b, hx, rfl, by rw [hh]⟩
  | mcfg h st g ofs eng =>
    exact decodeSyl_of_encK hwf he (opsTimed_lt st g) fun hh hx => decXMCFG_eq_ok.2 ⟨st, g, ofs, eng, _, hx, rfl, rfl, by rw [hh]⟩
  | mgo h st cb ca bt at_ =>
    exact decodeSyl_of_encK hwf he st.bits_lt fun hh hx => decXMGO_eq_ok.2 ⟨st, cb, ca, bt, at_, _, hx, rfl, rfl, by rw [hh]⟩
  | mstop h st =>
    exact decodeSyl_of_encK hwf he st.bits_lt fun hh hx => decXT0_eq_ok.2 ⟨st, hx, rfl, by rw [hh]⟩
  | mbase h st g which =>
    exact decodeSyl_of_encK hwf he (opsTimed_lt st g) fun hh hx => decXMBASE_eq_ok.2 ⟨st, g, which, _, hx, rfl, rfl, by rw [hh]⟩
  | cfgld h st g ck tag ofs len eng =>
    exact decodeSyl_of_encK hwf he (opsTimed_lt st g) fun hh hx => decXCFGLD_eq_ok.2 ⟨st, g, ck, tag, ofs, len, eng, _, hx, rfl, rfl, by
      rw [hh]⟩
  | cfgswap h st eng =>
    exact decodeSyl_of_encK hwf he st.bits_lt fun hh hx => decXCFGSWAP_eq_ok.2 ⟨st, eng, _, hx, rfl, rfl, by rw [hh]⟩
  | mfmt h st g e =>
    exact decodeSyl_of_encK hwf he (opsTimed_lt st g) fun hh hx => decXMFMT_eq_ok.2 ⟨st, g, e, _, hx, rfl, rfl, by rw [hh]⟩
  | aczero h st rows row bank =>
    exact decodeSyl_of_encK hwf he st.bits_lt fun hh hx => decXACZERO_eq_ok.2 ⟨st, rows, row, bank, _, hx, rfl, rfl, by rw [hh]⟩
  | acalloc h d a zero park =>
    exact decodeSyl_of_encK hwf he (opsAlloc_lt d a zero park) fun hh hx => decXACALLOC_eq_ok.2 ⟨d, a, zero, park, hx, rfl, by rw [hh]⟩
  | acfree h a =>
    exact decodeSyl_of_encK hwf he (by omega) fun hh hx => decXA_eq_ok.2 ⟨a, hx, rfl, by rw [hh]⟩
  | acown h a b =>
    exact decodeSyl_of_encK hwf he (by omega) fun hh hx => decMIc_eq_ok.2 ⟨a, b, hx, rfl, by rw [hh]⟩
  | acld h d a b cv =>
    exact decodeSyl_of_encK hwf he (opsDAB_lt d.bv a b) fun hh hx => decXACLD_eq_ok.2 ⟨d, a, b, cv, _, hx, rfl, rfl, by rw [hh]⟩
  | xcopy h st g rem ck ex stg tag dst frm =>
    exact decodeSyl_of_encK hwf he (opsTimed_lt st g) fun hh hx => decXXCOPY_eq_ok.2 ⟨st, g, rem, ck, ex, stg, tag, dst, frm, _, hx, rfl,
      rfl, by rw [hh]⟩
  | tsld h st g slot =>
    exact decodeSyl_of_encK hwf he (opsTimed_lt st g) fun hh hx => decXTSLD_eq_ok.2 ⟨st, g, slot, _, hx, rfl, rfl, by rw [hh]⟩
  | tsev h st slot =>
    exact decodeSyl_of_encK hwf he st.bits_lt fun hh hx => decXTSEV_eq_ok.2 ⟨st, slot, _, hx, rfl, rfl, by rw [hh]⟩
  | tload h st g ck tag tb =>
    exact decodeSyl_of_encK hwf he (opsTimed_lt st g) fun hh hx => decXTLOAD_eq_ok.2 ⟨st, g, ck, tag, tb, _, hx, rfl, rfl, by rw [hh]⟩
  | rload h st g ck tag =>
    exact decodeSyl_of_encK hwf he (opsTimed_lt st g) fun hh hx => decXRLOAD_eq_ok.2 ⟨st, g, ck, tag, _, hx, rfl, rfl, by rw [hh]⟩
  | rstep h st g gens cheq nb alt pl =>
    exact decodeSyl_of_encK hwf he (opsTimed_lt st g) fun hh hx => decXRSTEP_eq_ok.2 ⟨st, g, gens, cheq, nb, alt, pl, _, hx, rfl, rfl, by
      rw [hh]⟩
  | waitb h a =>
    refine decodeSyl_of_encK hwf he (by omega) fun hh hx => ?_
    have hlow : fld w.toNat 0 2 = 0 := (fld_low hx).trans (by omega)
    exact (decX_waitb _ hlow).trans ((decXAm0_eq_ok hlow).2 ⟨a, hx, rfl, by rw [hh]⟩)
  | waitbUntil h a =>
    refine decodeSyl_of_encK hwf he (by omega) fun hh hx => ?_
    have hlow : fld w.toNat 0 2 = 1 := (fld_low hx).trans (by omega)
    exact (decX_waitbUntil _ hlow).trans ((decXAm1_eq_ok hlow).2 ⟨a, hx, rfl, by rw [hh]⟩)
  | deadline h a b =>
    refine decodeSyl_of_encK hwf he (by omega) fun hh hx => ?_
    have hlow : fld w.toNat 0 2 = 0 := (fld_low hx).trans (by omega)
    exact (decX_deadline _ hlow).trans ((decXABm0_eq_ok hlow).2 ⟨a, b, hx, rfl, by rw [hh]⟩)
  | deadlineClr h =>
    refine decodeSyl_of_encK hwf he (by omega) fun hh hx => ?_
    have hlow : fld w.toNat 0 2 = 1 := (fld_low hx).trans (by omega)
    exact (decX_deadlineClr _ hlow).trans ((decX0m1_eq_ok hlow).2 ⟨hx, rfl, by rw [hh]⟩)
  | acqp h n =>
    exact decodeSyl_of_encK hwf he (by omega) fun hh hx => decXNa_eq_ok.2 ⟨n, hx, rfl, by rw [hh]⟩
  | relp h | tret h =>
    exact decodeSyl_of_encK hwf he (by omega) fun hh hx => decM0_eq_ok.2 ⟨hx, rfl, by rw [hh]⟩
  | molt h d a =>
    exact decodeSyl_of_encK hwf he (by omega) fun hh hx => decXDA_eq_ok.2 ⟨d, a, hx, rfl, by rw [hh]⟩
  | enq h d a b =>
    exact decodeSyl_of_encK hwf he (by omega) fun hh hx => decXDAB_eq_ok.2 ⟨d, a, b, hx, rfl, by rw [hh]⟩
  | trap h a n =>
    exact decodeSyl_of_encK hwf he (by omega) fun hh hx => decMIc_eq_ok.2 ⟨a, n, hx, rfl, by rw [hh]⟩
  | tretSkip h n =>
    exact decodeSyl_of_encK hwf he (by omega) fun hh hx => decXNa_eq_ok.2 ⟨n, hx, rfl, by rw [hh]⟩
  | _ => cases he

/-- What a map reads encodes to the word and the literals that it was read from. -/
theorem decKind_encode {w : W32} {ls rest : List W32} {i : Instr}
    (h : decKind (fld w.toNat 29 2) (fld w.toNat 22 7) w.toNat ls = .ok (i, rest)) : encode i ++ rest = w :: ls := by
  unfold decKind at h
  split at h
  next hk => exact decS_encode hk rfl h
  next hk => exact decV_encode hk rfl h
  next hk => exact decM_encode hk rfl h
  next hk0 hk1 hk2 =>
    have hlt := fld_lt w.toNat 29 2
    simp only [imp_false] at hk0 hk1 hk2
    have hk : fld w.toNat 29 2 = 3 := by omega
    exact decX_encode hk rfl h

/-- Settles O57: every format reads exactly the words that hold its operands, both ways. -/
theorem decodingAndEncodingAgree : Obligations.DecodingAndEncodingAgree := by
  refine ⟨fun i w ws rest hwf he => decodeSyl_encode hwf he, fun w ls rest i h => ?_⟩
  obtain ⟨hdec, hwf⟩ := decodeSyl_eq_ok.1 h
  exact ⟨hwf, decKind_encode hdec⟩

end Sys2Proof
end

section
/-! Syllables whose guard is false, NOP and HALT (R78, R113, R150, R161). -/

namespace Sys2Proof.Machine

/-! ## False guards (R78) -/

theorem onPlane_false {s : State} {v : View} {h : Head} {p : BitVec 5} {f : View → State} (hv : s.view = some v)
    (hp : p.toNat < v.st.fp.planes) (hg : v.guard h.neg h.g = false) : onPlane h p s f = .next s := by
  simp [onPlane, withView, hv, hg, Nat.not_le.2 hp]

theorem onEng_false {s : State} {v : View} {h : Head} {u : Unit'} {f : View → State} (hv : s.view = some v)
    (hu : v.st.fp.names u = true) (hg : v.guard h.neg h.g = false) : onEng h u s f = .next s := by
  simp [onEng, withView, hv, hg, hu]

/-- Every instruction of a list runs `run` on the state. -/
def AllRun {α : Type} (is : List Instr) (s : State) (run : α → Host.Outcome State Fault Refusal) : Prop :=
  ∀ i ∈ is, ∃ f, exec i s = run f

theorem AllRun.next {α : Type} {is : List Instr} {s t : State} {run : α → Host.Outcome State Fault Refusal} (h : AllRun is s run)
    (hr : ∀ f, run f = .next t) : ∀ i ∈ is, exec i s = .next t := by
  intro i hi
  obtain ⟨f, hf⟩ := h i hi
  rw [hf, hr]

theorem AllRun.nil {α : Type} {s : State} {run : α → Host.Outcome State Fault Refusal} : AllRun [] s run := by
  simp [AllRun]
theorem AllRun.cons {α : Type} {s : State} {run : α → Host.Outcome State Fault Refusal} {i : Instr} {is : List Instr} (f : α)
   (hf : exec i s = run f) (h : AllRun is s run) : AllRun (i :: is) s run := by
  intro j hj
  rcases List.mem_cons.1 hj with rfl | hj
  exacts [⟨f, hf⟩, h j hj]

/-- An ACLD whose guard is false steps the stochastic-rounding state alone (R126). -/
theorem exec_acld_false {s : State} {v : View} {h : Head} {d : VDst} {a b : Reg} {cv : Conv} (hv : s.view = some v)
    (hg : v.guard h.neg h.g = false) :
    exec (.acld h d a b cv) s = .next (v.modCl s fun c => { c with sr := v.srNext cv.rnd.toNat }) := by
  change execAcld h d a b cv s = _
  rw [execAcld, withView_some _ hv]
  simp only [hg, Bool.false_eq_true, if_false, View.keepSr]

/-! ## HALT (R161) -/

theorem exec_halt_delay {s : State} {v : View} {h : SHead} (hv : s.view = some v) (hq : v.cl.seq.pos ≠ 0) :
    exec (.halt h) s = .next (v.raise s 1) := by
  change execHalt h s = _
  rw [execHalt, withView_some _ hv, if_pos (bne_iff_ne.2 hq)]
  rfl

theorem exec_halt_false {s : State} {v : View} {h : SHead} (hv : s.view = some v) (hq : v.cl.seq.pos = 0)
    (hg : v.guard h.neg h.g = false) : exec (.halt h) s = .next s := by
  change execHalt h s = _
  rw [execHalt, withView_some _ hv]
  simp [hq, hg]

theorem exec_halt_true {s : State} {v : View} {h : SHead} (hv : s.view = some v) (hq : v.cl.seq.pos = 0)
    (hg : v.guard h.neg h.g = true) : exec (.halt h) s = .next (v.modCl s fun c =>
      { c with halted := true, ta := { c.ta with counts := false }, tb := { c.tb with counts := false } }) := by
  change execHalt h s = _
  rw [execHalt, withView_some _ hv]
  simp [hq, hg]

/-- Settles O21: each syllable runs under its guard, or under the check of its plane or engine first. -/
theorem falseGuardsNopAndHalt : Obligations.FalseGuardsNopAndHalt := by
  refine ⟨fun s v h g d a b p q r w m x n f o e t t' z y k k' j c i3 ts cv hv => ⟨fun hg => ?_, fun hg =>
    ⟨?_, fun hp => ?_, fun hu => ?_, fun hu => ?_, fun hu => ?_, fun hu => ?_, fun hu => ?_, ?_⟩⟩, fun s v h hv => ?_⟩
  · refine AllRun.next (run := onS h s) ?_ fun f => onS_false hv hg
    repeat refine .cons _ rfl ?_
    exact .nil
  · refine AllRun.next (run := onMX g s) ?_ fun f => onMX_false hv hg
    repeat refine .cons _ rfl ?_
    exact .nil
  · refine AllRun.next (run := onPlane g x s) ?_ fun f => onPlane_false hv hp hg
    repeat refine .cons _ rfl ?_
    exact .nil
  · refine AllRun.next (run := onEng g (unitOf m) s) ?_ fun f => onEng_false hv hu hg
    repeat refine .cons _ rfl ?_
    exact .nil
  · refine AllRun.next (run := onEng g .me s) ?_ fun f => onEng_false hv hu hg
    repeat refine .cons _ rfl ?_
    exact .nil
  · refine AllRun.next (run := onEng g .bte s) ?_ fun f => onEng_false hv hu hg
    repeat refine .cons _ rfl ?_
    exact .nil
  · exact onEng_false hv hu hg
  · refine AllRun.next (run := onEng g .re s) ?_ fun f => onEng_false hv hu hg
    repeat refine .cons _ rfl ?_
    exact .nil
  · exact exec_acld_false hv hg
  · exact ⟨withView_some _ hv, exec_halt_delay hv, exec_halt_false hv, exec_halt_true hv⟩
end Sys2Proof.Machine
end

section
/-! Commands as they enter their queues (R83, R141, R185, R204). -/

namespace Sys2Proof.Machine

/-! ## The order of a queue (R141) -/

theorem insertCmd_eq_orderedInsert (c : Cmd) (q : List Cmd) : insertCmd c q = q.orderedInsert (fun a b => a.stamp < b.stamp) c := by
  induction q with
  | nil => rfl
  | cons x q ih => simp only [insertCmd, List.orderedInsert, ih]

theorem insertCmd_perm (c : Cmd) (q : List Cmd) : (insertCmd c q).Perm (c :: q) := by
  rw [insertCmd_eq_orderedInsert]
  exact List.perm_orderedInsert _ c q

theorem insertCmd_pairwise {c : Cmd} {q : List Cmd} (h : q.Pairwise fun a b => a.stamp ≤ b.stamp) :
    (insertCmd c q).Pairwise fun a b => a.stamp ≤ b.stamp := by
  induction q with
  | nil => simp [insertCmd]
  | cons x q ih =>
    obtain ⟨hx, hq⟩ := List.pairwise_cons.1 h
    rw [insertCmd]
    split_ifs with hc
    · refine List.pairwise_cons.2 ⟨fun y hy => ?_, h⟩
      rcases List.mem_cons.1 hy with rfl | hy
      · exact hc.le
      · exact hc.le.trans (hx y hy)
    · refine List.pairwise_cons.2 ⟨fun y hy => ?_, ih hq⟩
      rcases List.mem_cons.1 ((insertCmd_perm c q).mem_iff.1 hy) with rfl | hy
      · exact Nat.le_of_not_lt hc
      · exact hx y hy

/-! ## What a command raises (R185) -/

/-- The start beat is late, or before the queue's last where the queue keeps its stamps in order. -/
def View.late (v : View) (u : Unit') (st : Stamp) : Prop := v.stamp st < v.cur.beat ∨ u ≠ .bte ∧ v.stamp st < (v.co.eng u).last

/-- The most commands a queue holds. -/
def Unit'.depth (u : Unit') : Nat := if u = .bte then 32 else 16

theorem View.late_iff {v : View} {u : Unit'} {st : Stamp} :
    (v.stamp st < v.cur.beat || (u != .bte && v.stamp st < (v.co.eng u).last)) = true ↔ v.late u st := by
  simp [View.late]

theorem Unit'.depth_eq (u : Unit') : (if u == .bte then 32 else 16) = u.depth := by
  cases u <;> rfl

theorem enqFault_late {v : View} {u : Unit'} {st : Stamp} (h : v.late u st) : v.enqFault u st = some 4 :=
  if_pos (View.late_iff.2 h)

theorem enqFault_full {v : View} {u : Unit'} {st : Stamp} (h : ¬ v.late u st) (hf : u.depth ≤ (v.co.eng u).q.length) :
    v.enqFault u st = some 5 := by
  rw [← Unit'.depth_eq] at hf
  exact (if_neg (mt View.late_iff.1 h)).trans (if_pos hf)

theorem enqFault_none {v : View} {u : Unit'} {st : Stamp} (h : ¬ v.late u st) (hf : (v.co.eng u).q.length < u.depth) :
    v.enqFault u st = none := by
  rw [← Unit'.depth_eq] at hf
  exact (if_neg (mt View.late_iff.1 h)).trans (if_neg (Nat.not_le.2 hf))

/-! ## A command at its issue -/

theorem onEng_unnamed {s : State} {v : View} {h : Head} {u : Unit'} {f : View → State} (hv : s.view = some v)
    (hu : v.st.fp.names u = false) : onEng h u s f = .next (v.raise s 1) := by
  simp [onEng, withView, hv, hu, cIllegal]

/-- The queue of an engine after a command has entered it. -/
def Engine.enter (t cl : Nat) (i : Instr) (val : W64) (fmt : Nat) (e : Engine) : Engine :=
  { e with q := insertCmd { seq := e.next, stamp := t, cl, ins := i, val, fmt } e.q, next := e.next + 1, last := t }

theorem View.enter_eq (v : View) (s : State) (u : Unit') (i : Instr) (st : Stamp) (val : W64) (fmt : Nat) :
    v.enter s u i st val fmt = v.modCore s fun c => c.modEng u (Engine.enter (v.stamp st) v.cur.cl i val fmt) := rfl

/-- The instruction is a command for the engine: past the footprint and the guard it enters the queue, or is refused there. -/
def Enqueues (s : State) (v : View) (h : Head) (st : Stamp) (i : Instr) (u : Unit') (val : W64) (fmt : Nat) : Prop :=
  ∃ f : View → State, exec i s = onEng h u s f ∧ f v = v.enqueue s u i st val fmt

section
variable {s : State} {v : View} {h : Head} {st : Stamp} {i : Instr} {u : Unit'} {val : W64} {fmt : Nat}

theorem Enqueues.unnamed (hi : Enqueues s v h st i u val fmt) (hv : s.view = some v) (hu : v.st.fp.names u = false) :
    exec i s = .next (v.raise s 1) := by
  obtain ⟨f, hf, -⟩ := hi
  rw [hf, onEng_unnamed hv hu]

theorem Enqueues.unguarded (hi : Enqueues s v h st i u val fmt) (hv : s.view = some v) (hu : v.st.fp.names u = true)
    (hg : v.guard h.neg h.g = false) : exec i s = .next s := by
  obtain ⟨f, hf, -⟩ := hi
  rw [hf, onEng_false hv hu hg]

theorem Enqueues.refused (hi : Enqueues s v h st i u val fmt) (hv : s.view = some v) (hu : v.st.fp.names u = true)
    (hg : v.guard h.neg h.g = true) {c : Nat} (hc : v.enqFault u st = some c) : exec i s = .next (v.raise s c) := by
  obtain ⟨f, hf, he⟩ := hi
  rw [hf, onEng_true hv hu hg, he, View.enqueue, hc]

theorem Enqueues.enters (hi : Enqueues s v h st i u val fmt) (hv : s.view = some v) (hu : v.st.fp.names u = true)
    (hg : v.guard h.neg h.g = true) (hc : v.enqFault u st = none) :
    exec i s = .next (v.modCore s fun c => c.modEng u (Engine.enter (v.stamp st) v.cur.cl i val fmt)) := by
  obtain ⟨f, hf, he⟩ := hi
  rw [hf, onEng_true hv hu hg, he, View.enqueue, hc, View.enter_eq]

end

/-- The engine of a command word's field (R186). -/
theorem eq_unitOf : ∀ e : BitVec 2, (match e.toNat with
    | 0 => Unit'.me
    | 1 => .te
    | _ => .re) = unitOf e := by decide

/-! ## ACZERO (R204) -/

theorem notOwned_eq_none {b : AccBank} {r n cl : Nat} : b.notOwned r n cl = none ↔ ∀ k < n, b.owns (r + k) cl = true := by
  simp [AccBank.notOwned]

section
variable {s : State} {v : View} {h : Head} {st : Stamp} {rows row : BitVec 6} {bank : BitVec 5}

theorem exec_aczero (hv : s.view = some v) (hu : v.st.fp.me = true) (hg : v.guard h.neg h.g = true) :
    exec (.aczero h st rows row bank) s = .next (
      if v.st.fp.acc ≤ bank.toNat then v.raise s cBounds (BitVec.ofNat 64 bank.toNat)
      else match v.enqFault .me st with
        | some c => v.raise s c
        | none => match (v.co.bank bank.toNat).notOwned row.toNat (rows.toNat + 1) v.cur.cl with
          | some r => v.raise s cOwner (BitVec.ofNat 64 bank.toNat) r
          | none => v.enter s .me (.aczero h st rows row bank) st 0 0) :=
  onEng_true (u := .me) hv hu hg

theorem exec_aczero_bounds (hv : s.view = some v) (hu : v.st.fp.me = true) (hg : v.guard h.neg h.g = true)
    (hb : v.st.fp.acc ≤ bank.toNat) : exec (.aczero h st rows row bank) s = .next (v.raise s 2 (bank.setWidth 64)) := by
  rw [exec_aczero hv hu hg, if_pos hb, BitVec.ofNat_toNat]
  rfl

theorem exec_aczero_refused (hv : s.view = some v) (hu : v.st.fp.me = true) (hg : v.guard h.neg h.g = true)
    (hb : bank.toNat < v.st.fp.acc) {c : Nat} (hc : v.enqFault .me st = some c) :
    exec (.aczero h st rows row bank) s = .next (v.raise s c) := by
  rw [exec_aczero hv hu hg, if_neg (Nat.not_le.2 hb), hc]

theorem exec_aczero_notOwned (hv : s.view = some v) (hu : v.st.fp.me = true) (hg : v.guard h.neg h.g = true)
    (hb : bank.toNat < v.st.fp.acc) (hc : v.enqFault .me st = none) {r : Nat}
    (hr : (v.co.bank bank.toNat).notOwned row.toNat (rows.toNat + 1) v.cur.cl = some r) :
    exec (.aczero h st rows row bank) s = .next (v.raise s 7 (bank.setWidth 64) r) := by
  rw [exec_aczero hv hu hg, if_neg (Nat.not_le.2 hb), hc, hr, BitVec.ofNat_toNat]
  rfl

theorem exec_aczero_enters (hv : s.view = some v) (hu : v.st.fp.me = true) (hg : v.guard h.neg h.g = true)
    (hb : bank.toNat < v.st.fp.acc) (hc : v.enqFault .me st = none)
    (hr : (v.co.bank bank.toNat).notOwned row.toNat (rows.toNat + 1) v.cur.cl = none) :
    exec (.aczero h st rows row bank) s = .next (v.modCore s fun c =>
      { c with me := Engine.enter (v.stamp st) v.cur.cl (.aczero h st rows row bank) 0 0 c.me }) := by
  rw [exec_aczero hv hu hg, if_neg (Nat.not_le.2 hb), hc, hr, View.enter_eq]
  rfl

end

theorem View.late_me {v : View} {st : Stamp} :
    v.late .me st ↔ v.stamp st < v.cur.beat ∨ v.stamp st < v.co.me.last := by
  simp [View.late, Core.eng]

/-- Settles O27: a command passes the footprint, the guard and the queue's checks in that order, and is inserted by its stamp. -/
theorem commandsEnterTheirQueues : Obligations.CommandsEnterTheirQueues := by
  constructor
  · intro s v h st g i u val fmt hv x fi unit hi
    have hi : Enqueues s v h st i u val fmt := by
      rcases hi with ⟨ofs, e, rfl, hu, rfl, rfl⟩ | ⟨cb, ca, bt, a, rfl, rfl, rfl, rfl⟩ | ⟨rfl, rfl, rfl, rfl⟩ |
        ⟨w, rfl, rfl, rfl, rfl⟩ | ⟨ck, t, ofs, len, e, rfl, hu, rfl, rfl⟩ | ⟨e, rfl, hu, rfl, rfl⟩ | ⟨e, rfl, rfl, rfl, rfl⟩ |
        ⟨rem, ck, ex, stg, t, dst, frm, rfl, rfl, rfl, rfl⟩ | ⟨k, rfl, rfl, rfl, rfl⟩ | ⟨k, rfl, rfl, rfl, rfl⟩ |
        ⟨ck, t, k, rfl, rfl, rfl, rfl⟩ | ⟨ck, t, rfl, rfl, rfl, rfl⟩ | ⟨n, c, nb, alt, pl, rfl, rfl, rfl, rfl⟩
      case inl | inr.inr.inr.inr.inl | inr.inr.inr.inr.inr.inl =>
        rw [hu.trans (eq_unitOf e)]
        exact ⟨_, rfl, rfl⟩
      all_goals exact ⟨_, rfl, rfl⟩
    intro t e named full late
    have hnamed : named = v.st.fp.names u := by cases u <;> rfl
    rw [hnamed]
    exact ⟨fun hu => hi.unnamed hv hu, fun hu hg => hi.unguarded hv hu hg,
      fun hu hg hl => hi.refused hv hu hg (enqFault_late hl),
      fun hu hg hl hf => hi.refused hv hu hg (enqFault_full hl hf),
      fun hu hg hl hf => ⟨_, hi.enters hv hu hg (enqFault_none hl hf), fun y => ⟨rfl, insertCmd_perm _ _, insertCmd_pairwise⟩⟩⟩
  · intro s v h st rows row bank hv hme hg i t owned late
    have hlate : v.late .me st ↔ late := View.late_me
    have howned : (v.co.bank bank.toNat).notOwned row.toNat (rows.toNat + 1) v.cur.cl = none ↔ owned :=
      notOwned_eq_none.trans (forall_congr' fun k => by rw [Nat.lt_succ_iff]; rfl)
    refine ⟨exec_aczero_bounds hv hme hg, fun hb hl => exec_aczero_refused hv hme hg hb (enqFault_late (hlate.2 hl)),
      fun hb hl hf => exec_aczero_refused hv hme hg hb (enqFault_full (mt hlate.1 hl) hf), fun hb hl hf ho => ?_,
      fun hb hl hf ho => ?_⟩
    · obtain ⟨r, hr⟩ := Option.ne_none_iff_exists'.1 (mt howned.1 ho)
      exact ⟨r, exec_aczero_notOwned hv hme hg hb (enqFault_none (mt hlate.1 hl) hf) hr⟩
    · exact ⟨_, exec_aczero_enters hv hme hg hb (enqFault_none (mt hlate.1 hl) hf) (howned.2 ho),
        fun x => ⟨rfl, insertCmd_perm _ _⟩⟩

end Sys2Proof.Machine
end

section
/-! Sequences: the eight beats that JMP and RET look back (R90), delay bundles (R89) and loop bodies (R111). -/

namespace Sys2Proof.Machine

/-! ## Registers eight beats back (R90) -/

theorem Cluster.ws_of_ne_zero (c : Cluster) (x : Nat) {r : Reg} (v : W64) (h : r ≠ 0) : c.ws x r v =
    { c with s := vset c.s r.toNat v, slog := (x, r.toNat, c.rs r) :: c.slog.filter fun e => x ≤ e.1 + 8,
             struck := heal true (atS r) c.struck } :=
  if_neg (by simpa using h)

theorem Cluster.rs_of_ne_zero (c : Cluster) {r : Reg} (h : r ≠ 0) : c.rs r = vget c.s r.toNat 0 := if_neg (by simpa using h)

theorem Cluster.rs_ws_same (c : Cluster) (x : Nat) {r : Reg} (v : W64) (h : r ≠ 0) : (c.ws x r v).rs r = v := by
  have hr : r.toNat < 32 := r.isLt
  rw [Cluster.rs_of_ne_zero _ h, Cluster.ws_of_ne_zero c x v h, vget_vset]
  simp [hr]

theorem Cluster.slog_ws (c : Cluster) (x : Nat) {r : Reg} (v : W64) (h : r ≠ 0) :
    (c.ws x r v).slog = (x, r.toNat, c.rs r) :: c.slog.filter fun e => x ≤ e.1 + 8 := by
  rw [Cluster.ws_of_ne_zero c x v h]

/-- A register's only logged write is what a bundle eight beats back has not seen if it landed later than that. -/
theorem Cluster.rsBack_ws {c : Cluster} {r : Reg} (x b : Nat) (v : W64) (hl : ∀ e ∈ c.slog, e.2.1 ≠ r.toNat) (h : r ≠ 0) :
    (c.ws x r v).rsBack b r = if x + 8 ≤ b then v else c.rs r := by
  have hold : (c.slog.filter fun e => decide (x ≤ e.1 + 8)).filter (fun e => decide (b < e.1 + 8) && e.2.1 == r.toNat) = [] := by
    simp only [List.filter_eq_nil_iff, List.mem_filter, Bool.and_eq_true, beq_iff_eq, not_and]
    exact fun e he _ => hl e he.1
  simp only [Cluster.rsBack, beq_eq_false_iff_ne.2 h, Bool.false_eq_true, if_false, Cluster.slog_ws c x v h, List.filter_cons, hold,
    beq_self_eq_true, Bool.and_true, decide_eq_true_eq]
  by_cases hb : b < x + 8
  · simp [hb, Nat.not_le.2 hb]
  · simp [hb, Nat.not_lt.1 hb, Cluster.rs_ws_same c x v h]

/-! ## Delay bundles (R89) -/

theorem Seq.advance_first {q : Seq} (n : Nat) (h : q.pos = 1) : q.advance n = { q with pc := q.pc + n, pos := 2 } := by
  simp [Seq.advance, h]

theorem Seq.advance_second {q : Seq} (n : Nat) (h : q.pos = 2) (hs : q.skips = false) :
    (q.advance n).pc = q.tgt.getD (q.pc + n) ∧ (q.advance n).pos = 0 ∧ (q.advance n).tgt = none := by
  cases ht : q.tgt <;> simp [Seq.advance, h, hs, ht]

/-! ## Loop bodies (R111) -/

theorem Seq.advance_goOn {q : Seq} (n : Nat) (h : q.pos = 0) : q.advance n = q.goOn (q.pc + n) := by
  simp [Seq.advance, h]

/-- The last bundle of the innermost body leads back while iterations remain. -/
theorem Seq.goOn_repeats {q : Seq} {l : Loop} {outer : List Loop} {b : Nat} (hq : q.loops = l :: outer) (hh : l.holds q.pc = true)
    (hb : l.start = some b) (hi : l.iter + 1 < l.total) :
    (q.goOn l.stop).pc = b ∧ (q.goOn l.stop).loops = { l with iter := l.iter + 1 } :: outer := by
  simp [Seq.goOn, hq, hh, loopNext, hb, hi, List.takeWhile_append_dropWhile]

/-- The last bundle of the only body leads on after the last iteration. -/
theorem Seq.goOn_ends {q : Seq} {l : Loop} {b : Nat} (hq : q.loops = [l]) (hh : l.holds q.pc = true)
    (hb : l.start = some b) (hi : l.total ≤ l.iter + 1) : (q.goOn l.stop).pc = l.stop ∧ (q.goOn l.stop).loops = [] := by
  simp [Seq.goOn, hq, hh, loopNext, hb, Nat.not_lt.2 hi]

theorem Seq.lc_cons {q : Seq} {l : Loop} {outer : List Loop} (hq : q.loops = l :: outer) : q.lc l.ctr = l.iter := by
  simp [Seq.lc, hq]

theorem Seq.lc_nil {q : Seq} (n : Nat) (hq : q.loops = []) : q.lc n = 0 := by
  simp [Seq.lc, hq]

/-- Settles O23: the log of a register's writes, then the two delay bundles, then the last bundle of a loop's body. -/
theorem sequencesAdvance : Obligations.SequencesAdvance := by
  refine ⟨fun c x b r v hl hr _ => Cluster.rsBack_ws x b v hl hr, fun q len n m tgt => ?_, ?_⟩
  · have h2 : (q.transfer len tgt false).advance n = { q.transfer len tgt false with pc := q.pc + len + n, pos := 2 } :=
      Seq.advance_first n rfl
    intro q1 q2 q3
    have h3 : q3 = Seq.advance { q.transfer len tgt false with pc := q.pc + len + n, pos := 2 } m := congrArg (Seq.advance · m) h2
    rw [h3]
    exact ⟨rfl, congrArg Seq.pc h2, Seq.advance_second m rfl rfl⟩
  · intro pc len b total iter ctr outer l q hb hlen
    have hh : l.holds q.pc = true := by simp [l, q, Loop.holds, hb, hlen]
    rw [show q.advance len = q.goOn l.stop from Seq.advance_goOn len rfl]
    refine ⟨Seq.lc_cons (l := l) rfl, fun hi => ?_, fun hi ho => ?_⟩
    · obtain ⟨hpc, hloops⟩ := Seq.goOn_repeats (q := q) (l := l) rfl hh rfl hi
      exact ⟨hpc, Seq.lc_cons hloops, by rw [hloops, List.length_cons]⟩
    · subst ho
      obtain ⟨hpc, hloops⟩ := Seq.goOn_ends (q := q) (l := l) rfl hh rfl hi
      exact ⟨hpc, hloops, Seq.lc_nil ctr hloops⟩

end Sys2Proof.Machine
end

section
/-! Transfers at their issue (R89, R90, R162). -/

namespace Sys2Proof.Machine

/-! ## Placement and targets (R89) -/

theorem Seq.badTransfer_delay {q : Seq} (len : Nat) (d1 d2 : Option Nat) (h : q.pos ≠ 0) : q.badTransfer len d1 d2 = true := by
  simp [Seq.badTransfer, h]

theorem Seq.endsLoop_nil {q : Seq} (a len : Nat) (h : q.loops = []) : q.endsLoop a len = false := by
  simp [Seq.endsLoop, h]

theorem Seq.badTransfer_straight {q : Seq} (len : Nat) (d1 d2 : Option Nat) (hp : q.pos = 0) (hl : q.loops = []) :
    q.badTransfer len d1 d2 = false := by
  cases d1 <;> cases d2 <;> simp [Seq.badTransfer, Seq.endsLoop_nil, hp, hl]

theorem View.relTarget_eq (v : View) (ofs : BitVec 15) : v.relTarget ofs = (((v.cur.pc : Int) + 4 * ofs.toInt) % 2 ^ 64).toNat := by
  have h : BitVec.ofNat 64 v.cur.pc + ofs.signExtend 64 * 4 = BitVec.ofInt 64 ((v.cur.pc : Int) + 4 * ofs.toInt) := by
    rw [BitVec.ofInt_add, BitVec.ofInt_mul, BitVec.ofInt_natCast, BitVec.mul_comm]
    rfl
  rw [View.relTarget, h, BitVec.toNat_ofInt]
  norm_num

theorem View.afterDelay_eq {v : View} {s : State} {n m : Nat} (hn : v.d1 s = some n) (hm : v.d2 s = some m) :
    v.afterDelay s = v.cur.next + n + m := by
  simp [View.afterDelay, hn, hm]

/-! ## What JMP and RET read (R90) -/

section
variable {v : View}

theorem View.rsJmp_handler (r : Reg) (h : v.cur.handler = true) : v.rsJmp r = v.rs r := by
  simp [View.rsJmp, h]

theorem View.rsJmp_scoreboard (r : Reg) (h : v.cur.beat < v.cl.horizon) : v.rsJmp r = v.rs r := by
  simp [View.rsJmp, h]

theorem View.rsJmp_back (r : Reg) (h : v.cur.handler = false) (hb : v.cl.horizon ≤ v.cur.beat) :
    v.rsJmp r = v.cl.rsBack v.cur.beat r := by
  simp [View.rsJmp, h, Nat.not_lt.2 hb]

theorem View.lookLate_handler (s : State) (h : v.cur.handler = true) : v.lookLate s = s := by
  simp [View.lookLate, h]

theorem View.lookLate_back (s : State) (h : v.cl.horizon ≤ v.cur.beat) : v.lookLate s = s := by
  simp [View.lookLate, h]

theorem View.lookLate_scoreboard (s : State) (h : v.cur.handler = false) (hb : v.cur.beat < v.cl.horizon) :
    v.lookLate s = v.modCl s fun c => { c with gone := c.gone.map fun g => (min g.1 (v.cur.beat + 3), g.2) } := by
  simp [View.lookLate, h, Nat.not_le.2 hb]

/-! ## A transfer under its placement and its guard -/

variable {s : State} {h : SHead} {tgt : Nat} {exits : Bool} {f : State → State}

theorem View.transfer_bad (hb : v.cl.seq.badTransfer v.len (v.d1 s) (v.d2 s) = true) : v.transfer s h tgt exits f = v.raise s 1 :=
  if_pos hb

theorem View.transfer_false (hb : v.cl.seq.badTransfer v.len (v.d1 s) (v.d2 s) = false) (hg : v.guard h.neg h.g = false) :
    v.transfer s h tgt exits f = v.goto s (v.cl.seq.transfer v.len none false) := by
  simp [View.transfer, hb, hg]

theorem View.transfer_true (hb : v.cl.seq.badTransfer v.len (v.d1 s) (v.d2 s) = false) (hg : v.guard h.neg h.g = true) :
    v.transfer s h tgt exits f = f (v.goto s (v.cl.seq.transfer v.len (some tgt) exits)) := by
  simp [View.transfer, hb, hg]

end

/-- BR, CALL, JMP and RET are each a transfer to some target. -/
theorem exec_transfers {s : State} {v : View} (hv : s.view = some v) (h : SHead) (a : Reg) (ofs : BitVec 15) :
    ∀ i ∈ [Instr.br h ofs, .call h ofs, .jmp h a, .ret h], ∃ tgt exits f, exec i s = .next (v.transfer s h tgt exits f) := by
  simp only [List.forall_mem_cons, List.not_mem_nil, false_implies, implies_true, and_true]
  exact ⟨⟨_, _, _, withView_some _ hv⟩, ⟨_, _, _, withView_some _ hv⟩, ⟨_, _, _, withView_some _ hv⟩,
    ⟨_, _, _, withView_some _ hv⟩⟩

section
variable {s : State} {v : View} {h : SHead} (hv : s.view = some v) (hb : v.cl.seq.badTransfer v.len (v.d1 s) (v.d2 s) = false)
  (hg : v.guard h.neg h.g = true)
include hv hb hg

theorem exec_br_true (ofs : BitVec 15) :
    exec (.br h ofs) s = .next (v.goto s (v.cl.seq.transfer v.len (some (v.relTarget ofs)) true)) :=
  (withView_some _ hv).trans (congrArg _ (View.transfer_true hb hg))

theorem exec_call_true (ofs : BitVec 15) :
    exec (.call h ofs) s = .next (v.landS (v.goto s (v.cl.seq.transfer v.len (some (v.relTarget ofs)) false)) 1 31
      (BitVec.ofNat 64 (v.afterDelay s))) :=
  (withView_some _ hv).trans (congrArg _ (View.transfer_true hb hg))

theorem exec_jmp_true (a : Reg) :
    exec (.jmp h a) s = .next (v.lookLate (v.goto s (v.cl.seq.transfer v.len (some (v.rsJmp a).toNat) true))) :=
  (withView_some _ hv).trans (congrArg _ (View.transfer_true hb hg))

theorem exec_ret_true :
    exec (.ret h) s = .next (v.lookLate (v.goto s (v.cl.seq.transfer v.len (some (v.rsJmp 31).toNat) false))) :=
  (withView_some _ hv).trans (congrArg _ (View.transfer_true hb hg))

end

/-- Settles O22: each is `View.transfer` under its placement and its guard, with what it reads and looks up. -/
theorem transfers : Obligations.Transfers := by
  intro s v h a ofs hv q bad seqd rel four
  have hrel : v.relTarget ofs = rel := View.relTarget_eq v ofs
  refine ⟨Seq.badTransfer_delay _ _ _, Seq.badTransfer_straight _ _ _, fun hb i hi => ?_, fun hb hg i hi => ?_, fun hb hg => ?_⟩
  · obtain ⟨tgt, exits, f, hx⟩ := exec_transfers hv h a ofs i hi
    rw [hx, View.transfer_bad hb]
  · obtain ⟨tgt, exits, f, hx⟩ := exec_transfers hv h a ofs i hi
    rw [hx, View.transfer_false hb hg]
    rfl
  · rw [← hrel, exec_jmp_true hv hb hg a, exec_ret_true hv hb hg]
    refine ⟨exec_br_true hv hb hg ofs, ⟨_, exec_call_true hv hb hg ofs, fun n m hn hm => by rw [View.afterDelay_eq hn hm]⟩,
      fun hh => ?_, fun hh hl => ?_, fun hh hl => ?_⟩
    · rw [View.lookLate_handler _ hh, View.lookLate_handler _ hh, View.rsJmp_handler _ hh, View.rsJmp_handler _ hh]
      exact ⟨rfl, rfl⟩
    · rw [View.lookLate_scoreboard _ hh hl, View.lookLate_scoreboard _ hh hl, View.rsJmp_scoreboard _ hl, View.rsJmp_scoreboard _ hl]
      exact ⟨rfl, rfl⟩
    · rw [View.lookLate_back _ hl, View.lookLate_back _ hl, View.rsJmp_back _ hh hl, View.rsJmp_back _ hh hl]
      exact ⟨rfl, rfl⟩

end Sys2Proof.Machine
end

section
/-! DRAW and PUT: the elements an operand selects (R81, R106, R215, R216). -/

namespace Sys2Proof.Machine

/-! ## The elements an operand selects (R81) -/

/-- The key of the element that lane `j` of a plane, direction and index selects. -/
def laneKey (p dir k j : Nat) : Nat := cellKey p (planeAt dir k j).1 (planeAt dir k j).2

theorem planeKeys_eq (p dir k : Nat) : planeKeys p dir k = (List.range 64).map (laneKey p dir k) := rfl

theorem laneKey_row (p k j : Nat) : laneKey p 0 k j = p * 4096 + (64 * k + j) := by
  simp only [laneKey, planeAt, cellKey, beq_self_eq_true, if_true]
  omega

theorem laneKey_column (p k j : Nat) : laneKey p 1 k j = p * 4096 + (64 * j + k) := by
  simp only [laneKey, planeAt, cellKey, beq_self_eq_true, if_true, Nat.reduceBEq, Bool.false_eq_true, if_false]
  omega

theorem laneKey_diagonal (p k j : Nat) : laneKey p 2 k j = p * 4096 + (64 * j + (j + k) % 64) := by
  simp only [laneKey, planeAt, cellKey, beq_self_eq_true, if_true, Nat.reduceBEq, Bool.false_eq_true, if_false]
  omega

theorem laneKey_antidiagonal (p k j : Nat) {dir : Nat} (h : 3 ≤ dir) : laneKey p dir k j = p * 4096 + (64 * j + (k + 64 - j) % 64) := by
  have h0 : (dir == 0) = false := beq_eq_false_iff_ne.2 (by omega)
  have h1 : (dir == 1) = false := beq_eq_false_iff_ne.2 (by omega)
  have h2 : (dir == 2) = false := beq_eq_false_iff_ne.2 (by omega)
  simp only [laneKey, planeAt, cellKey, h0, h1, h2, Bool.false_eq_true, if_false]
  omega

/-! ## DRAW (R106, R215) -/

/-- The entries in flight to a queue of the context. -/
def View.flying (v : View) (q : BitVec 2) : Nat := (v.co.agenda.filter fun t => match t.act with
  | .append c n _ => c == v.cur.cl && n == q.toNat
  | _ => false).length

theorem View.draw_eq (v : View) (s : State) (q : BitVec 2) (p dir k : Nat) : v.draw s q p dir k =
    if 8 ≤ (v.cl.queueOf q).length + v.flying q then v.raise s cQueue
    else match (planeKeys p dir k).find? fun i => v.co.planePoison.contains i with
      | some i => v.raise s cPoison (BitVec.ofNat 64 i)
      | none => v.land s 6 2 (.append v.cur.cl q.toNat (lanesOf ((planeKeys p dir k).map fun i => Sparse.get v.co.planes i))) := rfl

theorem View.draw_full {v : View} {q : BitVec 2} (s : State) (p dir k : Nat) (h : 8 ≤ (v.cl.queueOf q).length + v.flying q) :
    v.draw s q p dir k = v.raise s 5 := by
  rw [View.draw_eq, if_pos h]
  rfl

theorem View.draw_lands {v : View} {q : BitVec 2} {p dir k : Nat} (s : State) (h : (v.cl.queueOf q).length + v.flying q < 8)
    (hp : ∀ j < 64, laneKey p dir k j ∉ v.co.planePoison) : v.draw s q p dir k =
    v.land s 6 2 (.append v.cur.cl q.toNat (lanesOf ((planeKeys p dir k).map fun i => Sparse.get v.co.planes i))) := by
  have hf : ((planeKeys p dir k).find? fun i => v.co.planePoison.contains i) = none := by
    simpa [planeKeys_eq] using hp
  rw [View.draw_eq, if_neg (Nat.not_le.2 h), hf]

theorem lane_lanesOf_planeKeys (f : Nat → W32) (p dir k : Nat) {j : Nat} (h : j < 64) :
    lane (lanesOf ((planeKeys p dir k).map f)) j = f (laneKey p dir k j) := by
  rw [lanesOf, lane_mk _ h, planeKeys_eq]
  simp [h]

/-! ## PUT (R106, R216) -/

theorem View.put_eq (v : View) (s : State) (p dir k : Nat) (x : Lanes) :
    v.put s p dir k x = v.store s 4 (.plane p ((List.range 64).map fun j => (laneKey p dir k j, lane x j))) := by
  rw [View.put, planeKeys_eq, lanesList, List.zip_map']

theorem onPlane_bounds {s : State} {v : View} {h : Head} {p : BitVec 5} (f : View → State) (hv : s.view = some v)
    (hp : v.st.fp.planes ≤ p.toNat) : onPlane h p s f = .next (v.raise s 2 (p.setWidth 64)) := by
  rw [onPlane, withView_some _ hv, if_pos hp, BitVec.ofNat_toNat]
  rfl

theorem toNat_extractLsb'_six (x : W64) : (x.extractLsb' 0 6).toNat = x.toNat % 64 := by
  simp

/-- Settles O15: the operand's check and guard first, then the elements lane by lane. -/
theorem drawAndPut : Obligations.DrawAndPut := by
  intro s v h q o l p r i x hv at_ k k' flying draws puts six
  have hkey : at_ = laneKey p.toNat r.toNat := by
    funext k j
    simp only [at_]
    rcases r.toNat with _ | _ | _ | n
    · exact (laneKey_row _ k j).symm
    · exact (laneKey_column _ k j).symm
    · exact (laneKey_diagonal _ k j).symm
    · exact (laneKey_antidiagonal _ k j (by omega)).symm
  have hk : k' = (v.rs x).toNat % 64 := toNat_extractLsb'_six _
  refine ⟨fun hp => ?_, fun hp hg => ?_⟩
  · refine AllRun.next (run := onPlane h p s) ?_ fun f => onPlane_bounds f hv hp
    repeat refine .cons _ rfl ?_
    exact .nil
  · have hdraw : ∀ ins k, exec ins s = .next (v.draw s q p.toNat r.toNat k) → draws ins k := by
      intro ins k hi hfull hpoison
      rw [hkey] at hpoison
      refine ⟨_, hi.trans (congrArg _ (View.draw_lands s hfull hpoison)), fun j hj => ?_⟩
      rw [hkey]
      exact lane_lanesOf_planeKeys _ _ _ _ hj
    have hput : ∀ ins k z, exec ins s = .next (v.put s p.toNat r.toNat k z) → puts ins k z := by
      intro ins k z hi
      simp only [puts, hkey]
      rw [hi, View.put_eq]
    rw [hk]
    exact ⟨hdraw _ _ (onPlane_true hv hp hg), hdraw _ _ (onPlane_true hv hp hg), hput _ _ _ (onPlane_true hv hp hg),
      hput _ _ _ (onPlane_true hv hp hg), hput _ _ _ (onPlane_true hv hp hg), hput _ _ _ (onPlane_true hv hp hg),
      fun hfull => (onPlane_true hv hp hg).trans (congrArg _ (View.draw_full s _ _ _ hfull))⟩

end Sys2Proof.Machine
end

section
/-! Partitions of the instruction caches: what placing and pinning a line leave (R91, R94). -/

namespace Sys2Proof.Machine

/-! ## A line of a partition -/

/-- A partition holds a line of a number with its pin. -/
def linePinned (ls : List Line) (n : Nat) : Bool := (lineOf ls n).any (·.pinned)

theorem linePinned_iff {ls : List Line} {n : Nat} : linePinned ls n = true ↔ ∃ l, lineOf ls n = some l ∧ l.pinned = true := by
  cases h : lineOf ls n <;> simp [linePinned, h]

theorem lineBytes_eq_bind (ls : List Line) (n : Nat) : lineBytes ls n = (lineOf ls n).bind (·.bytes) := by
  cases h : lineOf ls n <;> simp [lineBytes, h]

theorem lineOf_mem {ls : List Line} {n : Nat} {l : Line} (h : lineOf ls n = some l) : l ∈ ls ∧ l.tag = n :=
  ⟨List.mem_of_find?_eq_some h, by simpa using List.find?_some h⟩

theorem lineOf_cons_same (l : Line) (ls : List Line) : lineOf (l :: ls) l.tag = some l := by
  simp [lineOf]

theorem lineOf_cons_ne {l : Line} {n : Nat} (ls : List Line) (h : l.tag ≠ n) : lineOf (l :: ls) n = lineOf ls n := by
  simp [lineOf, h]

/-- Dropping the lines of another number leaves a line. -/
theorem lineOf_filter_ne {a n : Nat} (ls : List Line) (h : n ≠ a) : lineOf (ls.filter fun m => m.tag != a) n = lineOf ls n := by
  rw [lineOf, List.find?_filter, lineOf]
  refine List.find?_congr fun m _ => ?_
  by_cases hm : m.tag = n
  · simp [hm, h]
  · simp [hm]

/-- A change of lines that keeps their numbers changes the line that is found. -/
theorem lineOf_map {f : Line → Line} (hf : ∀ l, (f l).tag = l.tag) (ls : List Line) (n : Nat) :
    lineOf (ls.map f) n = (lineOf ls n).map f := by
  simp only [lineOf, List.find?_map]
  congr 1
  exact List.find?_congr fun m _ => by simp [hf]

/-! ## The line that makes room (R91) -/

/-- What `victim` keeps of two lines: the one that issued less recently. -/
def olderLine (a : Option Line) (l : Line) : Option Line := match a with
  | none => some l
  | some b => if l.used < b.used then some l else some b

theorem foldl_olderLine (ls : List Line) : ∀ b : Line, ∃ v, ls.foldl olderLine (some b) = some v ∧ v ∈ b :: ls := by
  induction ls with
  | nil => exact fun b => ⟨b, rfl, List.mem_cons_self⟩
  | cons l ls ih =>
    intro b
    by_cases hl : l.used < b.used
    · obtain ⟨v, hv, hm⟩ := ih l
      exact ⟨v, by rw [List.foldl_cons, olderLine, if_pos hl, hv], List.mem_cons_of_mem _ hm⟩
    · obtain ⟨v, hv, hm⟩ := ih b
      refine ⟨v, by rw [List.foldl_cons, olderLine, if_neg hl, hv], ?_⟩
      rcases List.mem_cons.1 hm with rfl | hm
      · exact List.mem_cons_self
      · exact List.mem_cons_of_mem _ (List.mem_cons_of_mem _ hm)

theorem victim_eq (ls : List Line) (sets n : Nat) :
    victim ls sets n = (ls.filter fun l => l.tag % sets == n % sets && !l.pinned).foldl olderLine none := by
  unfold victim
  congr 1

theorem victim_set {ls : List Line} {sets n : Nat} {v : Line} (h : victim ls sets n = some v) : v.tag % sets = n % sets := by
  rw [victim_eq] at h
  cases hc : ls.filter fun l => l.tag % sets == n % sets && !l.pinned with
  | nil => simp [hc] at h
  | cons b bs =>
    obtain ⟨w, hw, hm⟩ := foldl_olderLine bs b
    rw [hc, List.foldl_cons, olderLine, hw] at h
    obtain rfl := Option.some.inj h
    rw [← hc] at hm
    simp only [List.mem_filter, Bool.and_eq_true, beq_iff_eq] at hm
    exact hm.2.1

/-- A set without a victim holds pins alone. -/
theorem victim_none {ls : List Line} {sets n : Nat} (h : victim ls sets n = none) :
    (ls.filter fun m => m.tag % sets == n % sets).length = pinsIn ls sets n := by
  rw [victim_eq] at h
  cases hc : ls.filter fun l => l.tag % sets == n % sets && !l.pinned with
  | nil =>
    refine congrArg List.length (List.filter_congr fun l hl => ?_)
    have := List.filter_eq_nil_iff.1 hc l hl
    cases hp : l.pinned <;> simp_all
  | cons b bs =>
    obtain ⟨w, hw, -⟩ := foldl_olderLine bs b
    rw [hc, List.foldl_cons, olderLine, hw] at h
    cases h

/-! ## Placing a line (R91) -/

section
variable {ls : List Line} {sets : Nat} {l : Line}

theorem placeLine_held {old : Line} (h : lineOf ls l.tag = some old) :
    placeLine ls sets l = { l with pinned := old.pinned || l.pinned } :: ls.filter fun m => m.tag != l.tag := by
  simp [placeLine, h]

theorem placeLine_free (h : lineOf ls l.tag = none) (hf : (ls.filter fun m => m.tag % sets == l.tag % sets).length < 4) :
    placeLine ls sets l = l :: ls := by
  simp only [placeLine, h, if_pos hf]

theorem placeLine_victim {v : Line} (h : lineOf ls l.tag = none) (hf : ¬ (ls.filter fun m => m.tag % sets == l.tag % sets).length < 4)
    (hv : victim ls sets l.tag = some v) : placeLine ls sets l = l :: ls.filter fun m => m.tag != v.tag := by
  simp only [placeLine, h, if_neg hf, hv]

theorem placeLine_pinned (h : lineOf ls l.tag = none) (hf : ¬ (ls.filter fun m => m.tag % sets == l.tag % sets).length < 4)
    (hv : victim ls sets l.tag = none) : placeLine ls sets l = ls := by
  simp only [placeLine, h, if_neg hf, hv]

/-- A line placed over an empty one keeps its pin. -/
theorem lineOf_placeLine_held {old : Line} (h : lineOf ls l.tag = some old) :
    lineOf (placeLine ls sets l) l.tag = some { l with pinned := old.pinned || l.pinned } := by
  rw [placeLine_held h]
  exact lineOf_cons_same { l with pinned := old.pinned || l.pinned } _

/-- A new line stands in its partition, or its set holds four pins and the partition stays. -/
theorem lineOf_placeLine_new (h : lineOf ls l.tag = none) :
    lineOf (placeLine ls sets l) l.tag = some l ∨ 3 < pinsIn ls sets l.tag ∧ placeLine ls sets l = ls := by
  by_cases hf : (ls.filter fun m => m.tag % sets == l.tag % sets).length < 4
  · rw [placeLine_free h hf]
    exact .inl (lineOf_cons_same _ _)
  · cases hv : victim ls sets l.tag with
    | some v =>
      rw [placeLine_victim h hf hv]
      exact .inl (lineOf_cons_same _ _)
    | none => exact .inr ⟨by rw [← victim_none hv]; omega, placeLine_pinned h hf hv⟩

/-- Placing a line leaves the lines of other sets. -/
theorem lineOf_placeLine_other {m : Nat} (hm : m % sets ≠ l.tag % sets) : lineOf (placeLine ls sets l) m = lineOf ls m := by
  have hne : l.tag ≠ m := fun h => hm (h ▸ rfl)
  cases h : lineOf ls l.tag with
  | some old =>
    rw [placeLine_held h]
    exact (lineOf_cons_ne (l := { l with pinned := old.pinned || l.pinned }) _ hne).trans (lineOf_filter_ne _ hne.symm)
  | none =>
    by_cases hf : (ls.filter fun m => m.tag % sets == l.tag % sets).length < 4
    · rw [placeLine_free h hf]
      exact lineOf_cons_ne _ hne
    · cases hv : victim ls sets l.tag with
      | some v =>
        rw [placeLine_victim h hf hv]
        exact (lineOf_cons_ne _ hne).trans (lineOf_filter_ne _ fun hmv => hm (hmv ▸ victim_set hv))
      | none => rw [placeLine_pinned h hf hv]

/-- An unpinned line changes no pin where it is placed. -/
theorem linePinned_placeLine (hl : l.pinned = false) : linePinned (placeLine ls sets l) l.tag = linePinned ls l.tag := by
  cases h : lineOf ls l.tag with
  | some old => simp [linePinned, lineOf_placeLine_held h, h, hl]
  | none =>
    rcases lineOf_placeLine_new (sets := sets) h with hp | ⟨-, hp⟩
    · simp [linePinned, hp, h, hl]
    · rw [hp]

end

/-! ## Pinning a line (R94) -/

/-- A line with its pin, if it is of a number. -/
def pinOf (n : Nat) (l : Line) : Line := if l.tag == n then { l with pinned := true } else l

theorem pinOf_tag (n : Nat) (l : Line) : (pinOf n l).tag = l.tag := by
  unfold pinOf
  split <;> rfl

theorem pinOf_bytes (n : Nat) (l : Line) : (pinOf n l).bytes = l.bytes := by
  unfold pinOf
  split <;> rfl

section
variable {n sets : Nat} {ls : List Line}

theorem pinLine_held (x : Nat) (h : (lineOf ls n).isSome = true) : pinLine n x sets ls = ls.map (pinOf n) := if_pos h

theorem pinLine_new (x : Nat) (h : lineOf ls n = none) :
    pinLine n x sets ls = placeLine ls sets { tag := n, bytes := none, pinned := true, used := x } := by
  simp [pinLine, h]

theorem lineOf_pinLine_other (x : Nat) {m : Nat} (hm : m % sets ≠ n % sets) : lineOf (pinLine n x sets ls) m = lineOf ls m := by
  cases h : lineOf ls n with
  | none =>
    rw [pinLine_new x h]
    exact lineOf_placeLine_other hm
  | some old =>
    rw [pinLine_held x (by simp [h]), lineOf_map (pinOf_tag n)]
    cases hl : lineOf ls m with
    | none => rfl
    | some l =>
      have hne : l.tag ≠ n := fun hn => hm (by rw [← hn, (lineOf_mem hl).2])
      simp [pinOf, hne]

theorem lineBytes_pinLine (x : Nat) (h : (lineOf ls n).isSome = true) : lineBytes (pinLine n x sets ls) n = lineBytes ls n := by
  obtain ⟨old, ho⟩ := Option.isSome_iff_exists.1 h
  rw [pinLine_held x h, lineBytes_eq_bind, lineBytes_eq_bind, lineOf_map (pinOf_tag n), ho]
  exact pinOf_bytes n old

theorem linePinned_pinLine (x : Nat) (hp : lineOf ls n = none → pinsIn ls sets n ≤ 3) :
    linePinned (pinLine n x sets ls) n = true := by
  cases h : lineOf ls n with
  | some old =>
    rw [pinLine_held x (by simp [h]), linePinned, lineOf_map (pinOf_tag n), h]
    simp [pinOf, (lineOf_mem h).2]
  | none =>
    rw [pinLine_new x h]
    let l : Line := { tag := n, bytes := none, pinned := true, used := x }
    rcases lineOf_placeLine_new (l := l) (sets := sets) h with hl | ⟨hl, -⟩
    · exact congrArg (Option.any (·.pinned)) hl
    · exact absurd (hp h) (Nat.not_le.2 hl)

end

/-! ## Fetching one line into a partition (R91) -/

/-- The partition `ls` once a line has been looked for: as it was, or with the line placed without a pin. -/
def LineTried (sets n : Nat) (ls ls' : List Line) : Prop :=
  ls' = ls ∨ ∃ l : Line, l.tag = n ∧ l.pinned = false ∧ ls' = placeLine ls sets l

namespace LineTried

variable {sets n : Nat} {ls ls' : List Line} (h : LineTried sets n ls ls')
include h

theorem other {m : Nat} (hm : m % sets ≠ n % sets) : lineOf ls' m = lineOf ls m := by
  rcases h with rfl | ⟨l, rfl, -, rfl⟩
  · rfl
  · exact lineOf_placeLine_other hm

theorem pinned : linePinned ls' n = linePinned ls n := by
  rcases h with rfl | ⟨l, rfl, hl, rfl⟩
  · rfl
  · exact linePinned_placeLine hl

/-- A line that found no place leaves the partition. -/
theorem eq_of_lineOf_none (hn : lineOf ls' n = none) : ls' = ls := by
  rcases h with rfl | ⟨l, rfl, -, rfl⟩
  · rfl
  · cases ho : lineOf ls l.tag with
    | some old =>
      rw [lineOf_placeLine_held ho] at hn
      cases hn
    | none =>
      rcases lineOf_placeLine_new (sets := sets) ho with hl | ⟨-, hl⟩
      · rw [hl] at hn
        cases hn
      · exact hl

end LineTried

/-- The partition `ls` with a line of some bytes fetched into it: as it was where it held the line, and with the line placed otherwise. -/
def LineFetched (sets n : Nat) (bs : List Byte) (ls ls' : List Line) : Prop :=
  (lineBytes ls n).isSome = true ∧ ls' = ls ∨
    lineBytes ls n = none ∧ ∃ l : Line, l.tag = n ∧ l.bytes = some bs ∧ l.pinned = false ∧ ls' = placeLine ls sets l

theorem LineFetched.tried {sets n : Nat} {bs : List Byte} {ls ls' : List Line} (h : LineFetched sets n bs ls ls') :
    LineTried sets n ls ls' := by
  rcases h with ⟨-, h⟩ | ⟨-, l, ht, -, hp, h⟩
  · exact .inl h
  · exact .inr ⟨l, ht, hp, h⟩

theorem LineFetched.bytes {sets n : Nat} {bs : List Byte} {ls ls' : List Line} (h : LineFetched sets n bs ls ls')
    (hp : pinsIn ls sets n ≤ 3) : lineBytes ls' n = some ((lineBytes ls n).getD bs) := by
  rcases h with ⟨hs, rfl⟩ | ⟨hn, l, rfl, hb, -, rfl⟩
  · obtain ⟨cs, hc⟩ := Option.isSome_iff_exists.1 hs
    rw [hc, Option.getD_some]
  · rw [hn, Option.getD_none, lineBytes_eq_bind]
    cases ho : lineOf ls l.tag with
    | some old => rw [lineOf_placeLine_held ho, Option.bind_some, hb]
    | none =>
      rcases lineOf_placeLine_new (sets := sets) ho with hl | ⟨hl, -⟩
      · rw [hl, Option.bind_some, hb]
      · exact absurd hp (Nat.not_le.2 hl)

/-! ## Fetching and pinning one line (R94) -/

/-- The partition `ls` once a line has been looked for, as `ls'`, and pinned if its set has a free pin. -/
def pinAfter (sets n x : Nat) (ls ls' : List Line) : List Line :=
  if pinsIn ls sets n < 3 && !linePinned ls n then pinLine n x sets ls' else ls'

section
variable {sets n x : Nat} {ls ls' : List Line}

theorem lineOf_pinAfter_other (h : LineTried sets n ls ls') {m : Nat} (hm : m % sets ≠ n % sets) :
    lineOf (pinAfter sets n x ls ls') m = lineOf ls m := by
  unfold pinAfter
  split
  · exact (lineOf_pinLine_other x hm).trans (h.other hm)
  · exact h.other hm

theorem lineBytes_pinAfter {bs : List Byte} (h : LineFetched sets n bs ls ls') (hp : pinsIn ls sets n ≤ 3) :
    lineBytes (pinAfter sets n x ls ls') n = some ((lineBytes ls n).getD bs) := by
  have hb := h.bytes hp
  have hs : (lineOf ls' n).isSome = true := by
    cases ho : lineOf ls' n with
    | some l => rfl
    | none => rw [lineBytes_eq_bind, ho] at hb; cases hb
  unfold pinAfter
  split
  · rw [lineBytes_pinLine x hs, hb]
  · exact hb

theorem linePinned_pinAfter (h : LineTried sets n ls ls') :
    linePinned (pinAfter sets n x ls ls') n = true ↔ pinsIn ls sets n < 3 ∨ linePinned ls n = true := by
  unfold pinAfter
  split
  case isTrue hc =>
    simp only [Bool.and_eq_true, decide_eq_true_eq] at hc
    have hroom : lineOf ls' n = none → pinsIn ls' sets n ≤ 3 := fun hn => by
      rw [h.eq_of_lineOf_none hn]
      exact hc.1.le
    simp only [linePinned_pinLine x hroom, hc.1, true_or]
  case isFalse hc =>
    simp only [Bool.and_eq_true, decide_eq_true_eq, Bool.not_eq_true', not_and, Bool.not_eq_false] at hc
    rw [h.pinned]
    exact ⟨.inr, fun hor => hor.elim hc id⟩

end

end Sys2Proof.Machine
end

section
/-! Fetching and pinning in the state: the partition a syllable's core and cluster then hold (R91 to R94). -/

namespace Sys2Proof.Machine

/-! ## The issuing strand and core -/

/-- A state holds the strand and the core of a view's context, as `t` and `co`. -/
def View.Found (v : View) (s : State) (t : Strand) (co : Core) : Prop :=
  s.strand? v.cur.sid = some t ∧ t.cores[v.cur.core]? = some co

/-- The sets of a level's partition (R91). -/
def setsOf (lvl : Nat) : Nat := if lvl == 0 then l0Sets else l1Sets

/-- A core's partition of a level, L0 that of a cluster. -/
def Core.partition (co : Core) (cl lvl : Nat) : List Line := if lvl == 0 then (co.cluster cl).l0 else co.l1

theorem View.cache_of {v : View} {s : State} {t : Strand} {co : Core} (lvl : Nat) (h : v.Found s t co) :
    v.cache s lvl = co.partition v.cur.cl lvl := by
  obtain ⟨ht, hc⟩ := h
  simp only [View.cache, ht, hc, Core.partition]

theorem Core.cluster_modCl (co : Core) {k : Nat} (f : Cluster → Cluster) (hk : k < 4) : (co.modCl k f).cluster k = f (co.cluster k) := by
  rw [Core.cluster, Core.modCl, vget_vset, if_pos ⟨rfl, hk⟩]
  rfl

theorem Core.cluster_modCl_ne (co : Core) {k j : Nat} (f : Cluster → Cluster) (h : j ≠ k) : (co.modCl j f).cluster k = co.cluster k := by
  rw [Core.cluster, Core.modCl, vget_vset, if_neg fun hj => h hj.1]
  rfl

theorem Strand.cores_modCore {t : Strand} {n : Nat} {co : Core} (f : Core → Core) (h : t.cores[n]? = some co) :
    (t.modCore n f).cores[n]? = some (f co) := by
  simp [Strand.modCore, h]

/-- A core with its partition of a level changed, L0 that of a cluster. -/
def Core.repartition (cl upto lvl : Nat) (f : Nat → List Line → List Line) (co : Core) : Core :=
  if lvl == 0 then co.modCl cl fun c => c.setL0 upto (f l0Sets c.l0) else { co with l1 := f l1Sets co.l1 }

theorem View.modCache_eq (v : View) (s : State) (lvl : Nat) (f : Nat → List Line → List Line) : v.modCache s lvl f =
    s.modStrand v.cur.sid fun t => t.modCore v.cur.core (Core.repartition v.cur.cl (v.cur.beat + 8) lvl f) := by
  unfold View.modCache Core.repartition
  by_cases hl : (lvl == 0) = true
  · simp only [hl, if_true]
    rfl
  · simp only [hl, Bool.false_eq_true, if_false]

theorem Core.partition_repartition (co : Core) {cl : Nat} (upto lvl : Nat) (f : Nat → List Line → List Line) (hcl : cl < 4) :
    (co.repartition cl upto lvl f).partition cl lvl = f (setsOf lvl) (co.partition cl lvl) := by
  unfold Core.repartition Core.partition setsOf
  by_cases hl : (lvl == 0) = true
  · simp only [hl, if_true, Core.cluster_modCl _ _ hcl]
    rfl
  · simp only [hl, Bool.false_eq_true, if_false]

/-- A change of the issuing core is found. -/
theorem View.Found.modCore {v : View} {s : State} {t : Strand} {co : Core} (h : v.Found s t co) (f : Strand → Core → Core) :
    v.Found (s.modStrand v.cur.sid fun t => t.modCore v.cur.core (f t)) (t.modCore v.cur.core (f t)) (f t co) :=
  ⟨State.strand_modStrand_found (fun _ => rfl) h.1, Strand.cores_modCore _ h.2⟩

/-! ## Fetching into L1 and L0 (R91) -/

/-- The state with the translation and the slice cache's copy of a line that a core fetches past its L1. -/
def State.fillFor (s : State) (t : Strand) (co : Core) (n : Nat) : State :=
  match s.lineBus t co n, s.lookup t.stack co.phys t.ctx (64 * n) with
  | .ok b, .ok p => ((s.tlbFill t.stack co.phys t.ctx p).cacheLine t.stack co.phys b).noteUse t.task (busUnit b).toList
  | _, _ => s

theorem State.cacheLine_strands (s : State) (k c b : Nat) : (s.cacheLine k c b).strands = s.strands := by
  unfold State.cacheLine
  split <;> rfl

theorem State.fillFor_strands (s : State) (t : Strand) (co : Core) (n : Nat) : (s.fillFor t co n).strands = s.strands := by
  unfold State.fillFor
  split
  · exact State.cacheLine_strands _ _ _ _
  · rfl

/-- The core with a fetched line placed in its L1. -/
def Core.fetched1 (n : Nat) (bs : List Byte) (beat : Nat) (co : Core) : Core :=
  { co with l1 := placeLine co.l1 l1Sets { tag := n, bytes := some bs, pinned := false, used := beat } }

section
variable {s : State} {r : CoreRef} {t : Strand} {co : Core} {n : Nat} {bs : List Byte}
  (ht : s.strand? r.strand = some t) (hc : t.cores[r.core]? = some co)
include ht hc

theorem State.fetchL1_none (hn : s.lineFor t co n = none) : s.fetchL1 r n = none := by
  simp [State.fetchL1, ht, hc, hn]

theorem State.fetchL1_held (hb : s.lineFor t co n = some bs) (hl : (lineBytes co.l1 n).isSome = true) :
    s.fetchL1 r n = some (s, bs) := by
  simp [State.fetchL1, ht, hc, hb, hl]

theorem State.fetchL1_placed (hb : s.lineFor t co n = some bs) (hl : lineBytes co.l1 n = none) :
    s.fetchL1 r n = some ((s.fillFor t co n).modStrand r.strand fun t => t.modCore r.core (Core.fetched1 n bs t.beat), bs) := by
  simp only [State.fetchL1, ht, hc, hb, hl, Option.isSome_none, Bool.false_eq_true, if_false]
  rfl

end

/-- A cluster with a fetched line placed in its L0, unless it is there. -/
def Cluster.fetched0 (n : Nat) (bs : List Byte) (beat : Nat) (bad : Bool) (c : Cluster) : Cluster :=
  if (lineBytes c.l0 n).isSome then c
  else c.setL0 (beat + 8) (placeLine c.l0 l0Sets { tag := n, bytes := some bs, pinned := false, used := beat, bad })

theorem Cluster.fetched0_l0 (n : Nat) (bs : List Byte) (beat : Nat) (bad : Bool) (c : Cluster) :
    LineFetched l0Sets n bs c.l0 (c.fetched0 n bs beat bad).l0 := by
  unfold Cluster.fetched0
  split
  next hl => exact .inl ⟨hl, rfl⟩
  next hl => exact .inr ⟨Option.not_isSome_iff_eq_none.1 hl, _, rfl, rfl, rfl, rfl⟩

theorem View.pinInto_eq (v : View) (s : State) (lvl n : Nat) : v.pinInto s lvl n =
    if pinsIn (v.cache s lvl) (setsOf lvl) n < 3 && !linePinned (v.cache s lvl) n
    then v.modCache (v.fetchInto s lvl n) lvl (pinLine n v.cur.beat) else v.fetchInto s lvl n := rfl

section
variable {v : View} {s : State} {t : Strand} {co : Core} {n : Nat} (h : v.Found s t co)
include h

theorem View.Found.fetchL1 {bs : List Byte} (hb : s.lineFor t co n = some bs) :
    ∃ s' t' co', s.fetchL1 { strand := v.cur.sid, core := v.cur.core } n = some (s', bs) ∧ v.Found s' t' co' ∧
      LineFetched l1Sets n bs co.l1 co'.l1 ∧ co'.cl = co.cl := by
  cases hl : lineBytes co.l1 n with
  | some cs =>
    have hs : (lineBytes co.l1 n).isSome = true := by rw [hl]; rfl
    exact ⟨s, t, co, State.fetchL1_held (r := ⟨_, _⟩) h.1 h.2 hb hs, h, .inl ⟨hs, rfl⟩, rfl⟩
  | none =>
    have hfill : v.Found (s.fillFor t co n) t co := ⟨by rw [State.strand?, State.fillFor_strands]; exact h.1, h.2⟩
    exact ⟨_, _, _, State.fetchL1_placed (r := ⟨_, _⟩) h.1 h.2 hb hl, hfill.modCore fun t => Core.fetched1 n bs t.beat,
      .inr ⟨hl, _, rfl, rfl, rfl, rfl⟩, rfl⟩

theorem View.Found.fetchInL0 {bs : List Byte} (hcl : v.cur.cl < 4) (hb : s.lineFor t co n = some bs) :
    ∃ s' t' co', s.fetchInL0 v.ref n = some s' ∧ v.Found s' t' co' ∧
      LineFetched l0Sets n bs (co.cluster v.cur.cl).l0 (co'.cluster v.cur.cl).l0 := by
  obtain ⟨s', t', co', hf, h', -, hk⟩ := h.fetchL1 hb
  refine ⟨_, _, _, ?_, h'.modCore fun t c => c.modCl v.cur.cl (Cluster.fetched0 n bs t.beat (t.lineStruck v.cur.core n)), ?_⟩
  · simp only [State.fetchInL0, View.ref, hf]
    rfl
  · rw [Core.cluster_modCl _ _ hcl, show co'.cluster v.cur.cl = co.cluster v.cur.cl by rw [Core.cluster, hk]; rfl]
    exact Cluster.fetched0_l0 ..

theorem View.Found.fetchInL0_none (hn : s.lineFor t co n = none) : s.fetchInL0 v.ref n = none := by
  have h1 : s.fetchL1 { strand := v.cur.sid, core := v.cur.core } n = none := State.fetchL1_none (r := ⟨_, _⟩) h.1 h.2 hn
  simp only [State.fetchInL0, View.ref, h1]

/-! ## Fetching into a level (R93) -/

/-- A line that cannot be fetched changes nothing. -/
theorem View.Found.fetchInto_none {lvl : Nat} (hl : lvl < 2) (hn : s.lineFor t co n = none) : v.fetchInto s lvl n = s := by
  have h1 : s.fetchL1 { strand := v.cur.sid, core := v.cur.core } n = none := State.fetchL1_none (r := ⟨_, _⟩) h.1 h.2 hn
  rcases Nat.lt_succ_iff_lt_or_eq.1 hl with hl | rfl
  · obtain rfl := Nat.lt_one_iff.1 hl
    simp [View.fetchInto, h.fetchInL0_none hn]
  · simp [View.fetchInto, h1]

theorem View.Found.fetchInto_some {lvl : Nat} {bs : List Byte} (hl : lvl < 2) (hcl : v.cur.cl < 4) (hb : s.lineFor t co n = some bs) :
    ∃ t' co', v.Found (v.fetchInto s lvl n) t' co' ∧ LineFetched (setsOf lvl) n bs (v.cache s lvl) (v.cache (v.fetchInto s lvl n) lvl) := by
  rcases Nat.lt_succ_iff_lt_or_eq.1 hl with hl | rfl
  · obtain rfl := Nat.lt_one_iff.1 hl
    obtain ⟨s', t', co', hf, h', hls⟩ := h.fetchInL0 hcl hb
    have hs : v.fetchInto s 0 n = s' := by simp [View.fetchInto, hf]
    rw [hs, View.cache_of 0 h, View.cache_of 0 h']
    exact ⟨t', co', h', hls⟩
  · obtain ⟨s', t', co', hf, h', hls, -⟩ := h.fetchL1 hb
    have hs : v.fetchInto s 1 n = s' := by simp [View.fetchInto, hf]
    rw [hs, View.cache_of 1 h, View.cache_of 1 h']
    exact ⟨t', co', h', hls⟩

/-- Whatever becomes of a fetch, the strand and the core stand, and the line has been looked for. -/
theorem View.Found.fetchInto_tried {lvl : Nat} (n : Nat) (hl : lvl < 2) (hcl : v.cur.cl < 4) :
    ∃ t' co', v.Found (v.fetchInto s lvl n) t' co' ∧ LineTried (setsOf lvl) n (v.cache s lvl) (v.cache (v.fetchInto s lvl n) lvl) := by
  cases hb : s.lineFor t co n with
  | none =>
    rw [h.fetchInto_none hl hb]
    exact ⟨t, co, h, .inl rfl⟩
  | some bs =>
    obtain ⟨t', co', h', hls⟩ := h.fetchInto_some hl hcl hb
    exact ⟨t', co', h', hls.tried⟩

/-! ## Pinning (R94) -/

/-- A change of a level's partition. -/
theorem View.Found.modCache {lvl : Nat} (f : Nat → List Line → List Line) (hcl : v.cur.cl < 4) :
    ∃ t' co', v.Found (v.modCache s lvl f) t' co' ∧ v.cache (v.modCache s lvl f) lvl = f (setsOf lvl) (v.cache s lvl) := by
  have h' := h.modCore fun _ => Core.repartition v.cur.cl (v.cur.beat + 8) lvl f
  rw [View.modCache_eq]
  refine ⟨_, _, h', ?_⟩
  rw [View.cache_of lvl h', View.cache_of lvl h]
  exact Core.partition_repartition co _ lvl f hcl

theorem View.Found.pinInto {lvl : Nat} (n : Nat) (hl : lvl < 2) (hcl : v.cur.cl < 4) :
    ∃ t' co', v.Found (v.pinInto s lvl n) t' co' ∧ v.cache (v.pinInto s lvl n) lvl =
      pinAfter (setsOf lvl) n v.cur.beat (v.cache s lvl) (v.cache (v.fetchInto s lvl n) lvl) := by
  obtain ⟨t', co', h', -⟩ := h.fetchInto_tried n hl hcl
  rw [View.pinInto_eq, pinAfter]
  split
  · exact h'.modCache _ hcl
  · exact ⟨t', co', h', rfl⟩

end

end Sys2Proof.Machine
end

section
/-! The lines of a range one by one (R93, R94). -/

namespace Sys2Proof.Machine

/-! ## The lines of a range (R93) -/

/-- The number of lines that overlap `n` bytes from an address. -/
def lineSpan (a n : Nat) : Nat := if n = 0 then 0 else (a % 64 + n + 63) / 64

theorem linesOf_eq (a n : Nat) : linesOf a n = (List.range (lineSpan a n)).map (a / 64 + ·) := by
  by_cases hn : n = 0
  · simp [linesOf, lineSpan, hn]
  · simp only [linesOf, lineSpan, if_neg hn, beq_iff_eq]
    congr 2
    omega

/-- The states that steps over consecutive lines pass through. -/
def lineStates (f : State → Nat → State) (s : State) (first i : Nat) : State := (List.range i).foldl (fun s j => f s (first + j)) s

theorem lineStates_succ (f : State → Nat → State) (s : State) (first i : Nat) :
    lineStates f s first (i + 1) = f (lineStates f s first i) (first + i) := by
  simp [lineStates, List.range_succ]

theorem foldl_linesOf (f : State → Nat → State) (s : State) (a n : Nat) :
    (linesOf a n).foldl f s = lineStates f s (a / 64) (lineSpan a n) := by
  rw [linesOf_eq, List.foldl_map, lineStates]

theorem setsOf_eq (lvl : Nat) : setsOf lvl = if lvl = 0 then 16 else 256 := by
  simp [setsOf, l0Sets, l1Sets]

/-- Lines nearer to each other than the sets of a partition are of different sets. -/
theorem setsOf_apart (lvl : Nat) {first i j : Nat} (hij : i < j) (hj : j < setsOf lvl) :
    (first + i) % setsOf lvl ≠ (first + j) % setsOf lvl := by
  rw [setsOf_eq] at hj ⊢
  split at hj <;> split <;> omega

/-! ## Steps over lines -/

/-- A step for each line of a range, which leaves the lines of other sets and fetches its own where its set has a way for it. -/
structure View.LineSteps (v : View) (lvl : Nat) (f : State → Nat → State) : Prop where
  found : ∀ {u : State} {t : Strand} {co : Core} (n : Nat), v.Found u t co → ∃ t' co', v.Found (f u n) t' co'
  other : ∀ {u : State} {t : Strand} {co : Core} {n m : Nat}, v.Found u t co → m % setsOf lvl ≠ n % setsOf lvl →
    lineOf (v.cache (f u n) lvl) m = lineOf (v.cache u lvl) m
  bytes : ∀ {u : State} {t : Strand} {co : Core} {n : Nat} {bs : List Byte}, v.Found u t co → u.lineFor t co n = some bs →
    pinsIn (v.cache u lvl) (setsOf lvl) n ≤ 3 → lineBytes (v.cache (f u n) lvl) n = some ((lineBytes (v.cache u lvl) n).getD bs)

theorem View.fetchSteps {v : View} {lvl : Nat} (hl : lvl < 2) (hcl : v.cur.cl < 4) :
    v.LineSteps lvl fun u n => v.fetchInto u lvl n where
  found n h := by
    obtain ⟨t', co', h', -⟩ := h.fetchInto_tried n hl hcl
    exact ⟨t', co', h'⟩
  other {_ _ _ n _} h hm := by
    obtain ⟨-, -, -, hls⟩ := h.fetchInto_tried n hl hcl
    exact hls.other hm
  bytes h hb hp := by
    obtain ⟨-, -, -, hls⟩ := h.fetchInto_some hl hcl hb
    exact hls.bytes hp

theorem View.pinSteps {v : View} {lvl : Nat} (hl : lvl < 2) (hcl : v.cur.cl < 4) :
    v.LineSteps lvl fun u n => v.pinInto u lvl n where
  found n h := by
    obtain ⟨t', co', h', -⟩ := h.pinInto n hl hcl
    exact ⟨t', co', h'⟩
  other {_ _ _ n _} h hm := by
    obtain ⟨-, -, -, hp⟩ := h.pinInto n hl hcl
    obtain ⟨-, -, -, hls⟩ := h.fetchInto_tried n hl hcl
    rw [hp]
    exact lineOf_pinAfter_other hls hm
  bytes {_ _ _ n _} h hb hpins := by
    obtain ⟨-, -, -, hp⟩ := h.pinInto n hl hcl
    obtain ⟨-, -, -, hls⟩ := h.fetchInto_some hl hcl hb
    rw [hp]
    exact lineBytes_pinAfter hls hpins

/-- IPIN pins a line exactly where its set has a free pin or it was pinned before. -/
theorem View.Found.linePinned_pinInto {v : View} {u : State} {t : Strand} {co : Core} {lvl : Nat} (n : Nat) (h : v.Found u t co)
    (hl : lvl < 2) (hcl : v.cur.cl < 4) : linePinned (v.cache (v.pinInto u lvl n) lvl) n = true ↔
      pinsIn (v.cache u lvl) (setsOf lvl) n < 3 ∨ linePinned (v.cache u lvl) n = true := by
  obtain ⟨-, -, -, hp⟩ := h.pinInto n hl hcl
  obtain ⟨-, -, -, hls⟩ := h.fetchInto_tried n hl hcl
  rw [hp]
  exact linePinned_pinAfter hls

namespace View.LineSteps

variable {v : View} {lvl : Nat} {f : State → Nat → State} (hf : v.LineSteps lvl f)
include hf

theorem found_states {s : State} {t : Strand} {co : Core} (h : v.Found s t co) (first : Nat) :
    ∀ i, ∃ t' co', v.Found (lineStates f s first i) t' co' := by
  intro i
  induction i with
  | zero => exact ⟨t, co, h⟩
  | succ i ih =>
    obtain ⟨t', co', h'⟩ := ih
    rw [lineStates_succ]
    exact hf.found _ h'

/-- The steps over later lines of a short range leave a line. -/
theorem lineOf_states {s : State} {t : Strand} {co : Core} (h : v.Found s t co) (first : Nat) {i : Nat} :
    ∀ {j : Nat}, i < j → j ≤ setsOf lvl → lineOf (v.cache (lineStates f s first j) lvl) (first + i) =
      lineOf (v.cache (lineStates f s first (i + 1)) lvl) (first + i) := by
  intro j hij
  induction j, hij using Nat.le_induction with
  | base => exact fun _ => rfl
  | succ j hij ih =>
    intro hj
    obtain ⟨t', co', h'⟩ := hf.found_states h first j
    rw [lineStates_succ, hf.other h' (setsOf_apart lvl hij hj)]
    exact ih (Nat.le_of_succ_le hj)

/-- A line that could be fetched stands in the partition at the end of a short range. -/
theorem bytes_states {s : State} {t : Strand} {co : Core} (h : v.Found s t co) (first : Nat) {i span : Nat} (hi : i < span)
    (hs : span ≤ setsOf lvl) {t' : Strand} {co' : Core} (h' : v.Found (lineStates f s first i) t' co')
    (hb : ((lineStates f s first i).lineFor t' co' (first + i)).isSome = true)
    (hp : pinsIn (v.cache (lineStates f s first i) lvl) (setsOf lvl) (first + i) ≤ 3) :
    (lineBytes (v.cache (lineStates f s first span) lvl) (first + i)).isSome = true := by
  obtain ⟨bs, hbs⟩ := Option.isSome_iff_exists.1 hb
  rw [lineBytes_eq_bind, hf.lineOf_states h first hi hs, ← lineBytes_eq_bind, lineStates_succ, hf.bytes h' hbs hp]
  rfl

end View.LineSteps

end Sys2Proof.Machine
end

section
/-! What fetching and pinning leave as it was: all but TLBs, slice caches, a task's units and the strand's partitions. -/

namespace Sys2Proof.Machine

/-! ## Relations element by element -/

theorem forall₂_trans {α : Type} {R : α → α → Prop} (hR : ∀ {a b c}, R a b → R b c → R a c) {xs ys : List α} (h : List.Forall₂ R xs ys) :
    ∀ {zs : List α}, List.Forall₂ R ys zs → List.Forall₂ R xs zs := by
  induction h with
  | nil => exact id
  | cons hxy _ ih =>
    intro zs hz
    cases hz with
    | cons hyz hrest => exact .cons (hR hxy hyz) (ih hrest)

theorem forall₂_map_self {α : Type} {R : α → α → Prop} {f : α → α} (h : ∀ x, R x (f x)) (xs : List α) : List.Forall₂ R xs (xs.map f) :=
  List.forall₂_map_right_iff.2 (List.forall₂_same.2 fun x _ => h x)

theorem forall₂_modify {α : Type} {R : α → α → Prop} {f : α → α} (hR : ∀ x, R x x) (h : ∀ x, R x (f x)) (xs : List α) :
    ∀ n, List.Forall₂ R xs (xs.modify n f) := by
  induction xs with
  | nil => exact fun n => by simp
  | cons x xs ih =>
    intro n
    cases n with
    | zero => exact .cons (h x) (List.forall₂_same.2 fun y _ => hR y)
    | succ n => exact .cons (hR x) (ih n)

/-! ## The frame of each part -/

/-- A context with other lines in its L0, and after it. -/
def Cluster.Recached (c e : Cluster) : Prop := e = { c with l0 := e.l0, gone := e.gone }

theorem Cluster.Recached.refl (c : Cluster) : c.Recached c := rfl

theorem Cluster.Recached.trans {a b c : Cluster} (h : a.Recached b) (h' : b.Recached c) : a.Recached c :=
  Eq.trans h' (congrArg (fun x : Cluster => { x with l0 := c.l0, gone := c.gone }) h)

/-- A core with other lines in its partitions. -/
def Core.Recached (c e : Core) : Prop := e = { c with l1 := e.l1, cl := e.cl } ∧ ∀ k < 4, (c.cluster k).Recached (e.cluster k)

theorem Core.Recached.refl (c : Core) : c.Recached c := ⟨rfl, fun _ _ => .refl _⟩

theorem Core.Recached.trans {a b c : Core} (h : a.Recached b) (h' : b.Recached c) : a.Recached c :=
  ⟨h'.1.trans (congrArg (fun x : Core => { x with l1 := c.l1, cl := c.cl }) h.1), fun k hk => (h.2 k hk).trans (h'.2 k hk)⟩

theorem Core.recached_l1 (c : Core) (ls : List Line) : c.Recached { c with l1 := ls } := ⟨rfl, fun _ _ => rfl⟩

theorem Core.recached_modCl (c : Core) (j : Nat) {f : Cluster → Cluster} (hf : ∀ x : Cluster, x.Recached (f x)) :
    c.Recached (c.modCl j f) := by
  refine ⟨rfl, fun k hk => ?_⟩
  by_cases hj : j = k
  · subst hj
    rw [Core.cluster_modCl _ _ hk]
    exact hf _
  · rw [Core.cluster_modCl_ne _ _ hj]
    exact .refl _

/-- A strand with other lines in its partitions, if it has an identifier; otherwise as it was. -/
def Strand.RecachedAt (sid : Nat) (p q : Strand) : Prop :=
  if p.sid = sid then q = { p with cores := q.cores } ∧ List.Forall₂ Core.Recached p.cores q.cores else q = p

theorem Strand.RecachedAt.refl (sid : Nat) (p : Strand) : p.RecachedAt sid p := by
  unfold Strand.RecachedAt
  split
  · exact ⟨rfl, List.forall₂_same.2 fun c _ => .refl c⟩
  · rfl

theorem Strand.RecachedAt.trans {sid : Nat} {a b c : Strand} (h : a.RecachedAt sid b) (h' : b.RecachedAt sid c) : a.RecachedAt sid c := by
  unfold Strand.RecachedAt at h h' ⊢
  by_cases ha : a.sid = sid
  · rw [if_pos ha] at h ⊢
    obtain ⟨hb, hcores⟩ := h
    rw [if_pos (show b.sid = sid by rw [hb]; exact ha)] at h'
    obtain ⟨hc, hcores'⟩ := h'
    exact ⟨hc.trans (congrArg (fun x : Strand => { x with cores := c.cores }) hb),
      forall₂_trans (R := Core.Recached) Core.Recached.trans hcores hcores'⟩
  · rw [if_neg ha] at h ⊢
    subst h
    rwa [if_neg ha] at h'

/-- A stack with other translations and slice-cache lines. -/
def Stack.Refilled (k l : Stack) : Prop := l = { k with tlb := l.tlb, sliceTlb := l.sliceTlb, micro := l.micro, cache := l.cache }

theorem Stack.Refilled.trans {a b c : Stack} (h : a.Refilled b) (h' : b.Refilled c) : a.Refilled c :=
  Eq.trans h' (congrArg (fun x : Stack => { x with tlb := c.tlb, sliceTlb := c.sliceTlb, micro := c.micro, cache := c.cache }) h)

/-- A task with other units noted as used. -/
def Task.Noted (p q : Task) : Prop := q = { p with used := q.used }

theorem Task.Noted.trans {a b c : Task} (h : a.Noted b) (h' : b.Noted c) : a.Noted c :=
  Eq.trans h' (congrArg (fun x : Task => { x with used := c.used }) h)

/-! ## The frame of the state -/

/-- What fetching lines for a strand leaves of a state. -/
structure State.Fetched (sid : Nat) (s t : State) : Prop where
  rest : t = { s with strands := t.strands, stks := t.stks, tasks := t.tasks }
  stack : ∀ k < 4, (s.stack k).Refilled (t.stack k)
  tasks : List.Forall₂ Task.Noted s.tasks t.tasks
  strands : List.Forall₂ (Strand.RecachedAt sid) s.strands t.strands

namespace State.Fetched

variable {sid : Nat}

theorem refl (s : State) : s.Fetched sid s :=
  ⟨rfl, fun _ _ => rfl, List.forall₂_same.2 fun _ _ => rfl, List.forall₂_same.2 fun p _ => Strand.RecachedAt.refl sid p⟩

theorem trans {a b c : State} (h : a.Fetched sid b) (h' : b.Fetched sid c) : a.Fetched sid c where
  rest := h'.rest.trans (congrArg (fun x : State => { x with strands := c.strands, stks := c.stks, tasks := c.tasks }) h.rest)
  stack k hk := (h.stack k hk).trans (h'.stack k hk)
  tasks := forall₂_trans (R := Task.Noted) Task.Noted.trans h.tasks h'.tasks
  strands := forall₂_trans (R := Strand.RecachedAt sid) Strand.RecachedAt.trans h.strands h'.strands

theorem foldl {α : Type} {f : State → α → State} (hf : ∀ (s : State) x, s.Fetched sid (f s x)) (xs : List α) (s : State) :
    s.Fetched sid (xs.foldl f s) := by
  induction xs generalizing s with
  | nil => exact refl s
  | cons x xs ih => exact (hf s x).trans (ih _)

theorem modStack (s : State) (j : Nat) {f : Stack → Stack} (hf : (s.stack j).Refilled (f (s.stack j))) : s.Fetched sid (s.modStack j f) := by
  refine ⟨rfl, fun k hk => ?_, List.forall₂_same.2 fun _ _ => rfl, List.forall₂_same.2 fun p _ => Strand.RecachedAt.refl sid p⟩
  by_cases hj : j = k
  · subst hj
    rwa [State.stack_modStack s f hk]
  · rw [State.stack_modStack_ne s f hj]
    rfl

theorem modStrand (s : State) (core : Nat) {f : Strand → Core → Core} (hf : ∀ t (c : Core), c.Recached (f t c)) :
    s.Fetched sid (s.modStrand sid fun t => t.modCore core (f t)) := by
  refine ⟨rfl, fun _ _ => rfl, List.forall₂_same.2 fun _ _ => rfl, forall₂_map_self (fun p => ?_) _⟩
  unfold Strand.RecachedAt
  by_cases hp : p.sid = sid
  · rw [if_pos hp, if_pos (beq_iff_eq.2 hp)]
    exact ⟨rfl, forall₂_modify Core.Recached.refl (hf p) _ _⟩
  · rw [if_neg hp, if_neg (mt beq_iff_eq.1 hp)]

theorem tlbFill (s : State) (k c ctx : Nat) (p : Page) : s.Fetched sid (s.tlbFill k c ctx p) := by
  unfold State.tlbFill
  exact modStack s k rfl

theorem cacheLine (s : State) (k c b : Nat) : s.Fetched sid (s.cacheLine k c b) := by
  unfold State.cacheLine
  split
  · exact refl s
  · exact modStack s k rfl

theorem noteUse (s : State) (task : Nat) (us : List HwUnit) : s.Fetched sid (s.noteUse task us) := by
  refine ⟨rfl, fun _ _ => rfl, forall₂_map_self (fun p => ?_) _, List.forall₂_same.2 fun p _ => Strand.RecachedAt.refl sid p⟩
  split <;> rfl

theorem fillFor (s : State) (t : Strand) (co : Core) (n : Nat) : s.Fetched sid (s.fillFor t co n) := by
  unfold State.fillFor
  split
  · exact ((tlbFill ..).trans (cacheLine ..)).trans (noteUse ..)
  · exact refl s

theorem fetchL1 {s s' : State} {core n : Nat} {bs : List Byte} (h : s.fetchL1 { strand := sid, core } n = some (s', bs)) :
    s.Fetched sid s' := by
  cases ht : s.strand? sid with
  | none => simp [State.fetchL1, ht] at h
  | some t =>
    cases hc : t.cores[core]? with
    | none => simp [State.fetchL1, ht, hc] at h
    | some co =>
      cases hb : s.lineFor t co n with
      | none => simp [State.fetchL1_none (r := ⟨sid, core⟩) ht hc hb] at h
      | some cs =>
        cases hl : lineBytes co.l1 n with
        | some ds =>
          rw [State.fetchL1_held (r := ⟨sid, core⟩) ht hc hb (by rw [hl]; rfl)] at h
          obtain rfl := congrArg Prod.fst (Option.some.inj h)
          exact refl s
        | none =>
          rw [State.fetchL1_placed (r := ⟨sid, core⟩) ht hc hb hl] at h
          obtain rfl := congrArg Prod.fst (Option.some.inj h)
          exact (fillFor s t co n).trans (modStrand _ _ fun _ c => c.recached_l1 _)

theorem fetchInL0 {s s' : State} {r : CRef} {n : Nat} (h : s.fetchInL0 r n = some s') : s.Fetched r.strand s' := by
  unfold State.fetchInL0 at h
  split at h
  · cases h
  · next hl1 =>
    obtain rfl := Option.some.inj h
    refine (fetchL1 hl1).trans (modStrand _ _ fun _ c => c.recached_modCl _ fun x => ?_)
    split <;> rfl

end State.Fetched

/-! ## The frame of a level's steps -/

section
variable (v : View) (s : State) (lvl n : Nat)

theorem View.fetched_fetchInto : s.Fetched v.cur.sid (v.fetchInto s lvl n) := by
  unfold View.fetchInto
  split
  · cases h : s.fetchInL0 v.ref n with
    | none => exact .refl s
    | some s' => exact State.Fetched.fetchInL0 h
  · split
    · cases h : s.fetchL1 { strand := v.cur.sid, core := v.cur.core } n with
      | none => exact .refl s
      | some p => exact State.Fetched.fetchL1 (s' := p.1) (bs := p.2) h
    · split
      · exact .cacheLine ..
      · exact .refl s

theorem View.fetched_modCache (f : Nat → List Line → List Line) : s.Fetched v.cur.sid (v.modCache s lvl f) := by
  rw [View.modCache_eq]
  refine .modStrand _ _ fun _ c => ?_
  unfold Core.repartition
  split
  · exact c.recached_modCl _ fun _ => rfl
  · exact c.recached_l1 _

theorem View.fetched_pinInto : s.Fetched v.cur.sid (v.pinInto s lvl n) := by
  rw [View.pinInto_eq]
  split
  · exact (v.fetched_fetchInto s lvl n).trans (v.fetched_modCache _ lvl _)
  · exact v.fetched_fetchInto s lvl n

end

end Sys2Proof.Machine
end

section
/-! Bringing lines into a slice cache (R8, R91, R148): what it holds then, and that no translation depends on it. -/

namespace Sys2Proof.Machine

/-! ## The frame of a slice cache -/

/-- What bringing lines into a slice cache of a stack leaves of a state: everything else. -/
structure State.Cached (k c : Nat) (s t : State) : Prop where
  rest : t = { s with stks := t.stks }
  stack : ∀ j, t.stack j = { s.stack j with cache := (t.stack j).cache }
  slices : ∀ j m, (j = k ∧ m = c / 4) ∨ vget (t.stack j).cache m [] = vget (s.stack j).cache m []

/-- A bus address that the slice caches take in. -/
def State.takes (s : State) (b : Nat) : Bool := !(!busOk b || s.silent b || s.hostAbsent b || isDoorbell b)

/-- The lines that a slice cache holds, the latest first. -/
def State.sliceLines (s : State) (k c : Nat) : List Nat := vget (s.stack k).cache (c / 4) []

/-- A slice cache's lines with another, the oldest making room. -/
def sliceTake (l : Nat) (ls : List Nat) : List Nat := (l :: ls.filter fun m => m != l).take (2 ^ 18)

theorem State.cacheLine_taken {s : State} (k c : Nat) {b : Nat} (h : s.takes b = true) :
    s.cacheLine k c b = s.modStack k fun t => { t with cache := vset t.cache (c / 4) (sliceTake (b / 64) (vget t.cache (c / 4) [])) } :=
  if_neg (by rw [State.takes, Bool.not_eq_true'] at h; rw [h]; exact Bool.false_ne_true)

theorem State.cacheLine_refused {s : State} (k c : Nat) {b : Nat} (h : s.takes b = false) : s.cacheLine k c b = s :=
  if_pos (by rwa [State.takes, Bool.not_eq_false'] at h)

theorem State.stack_out {s : State} {k : Nat} (h : ¬ k < 4) : s.stack k = Stack.reset := by
  simp [State.stack, vget, h]

namespace State.Cached

variable {k c : Nat} {s t u : State}

theorem refl (s : State) : s.Cached k c s := ⟨rfl, fun _ => rfl, fun _ _ => .inr rfl⟩

theorem trans (h : s.Cached k c t) (h' : t.Cached k c u) : s.Cached k c u where
  rest := h'.rest.trans (congrArg (fun x : State => { x with stks := u.stks }) h.rest)
  stack j := (h'.stack j).trans (congrArg (fun x : Stack => { x with cache := (u.stack j).cache }) (h.stack j))
  slices j m := (h.slices j m).elim .inl fun h1 => (h'.slices j m).imp id fun h2 => h2.trans h1

theorem modCache (s : State) (f : List Nat → List Nat) : s.Cached k c
    (s.modStack k fun t => { t with cache := vset t.cache (c / 4) (f (vget t.cache (c / 4) [])) }) := by
  have hstack (j : Nat) : (s.modStack k fun t => { t with cache := vset t.cache (c / 4) (f (vget t.cache (c / 4) [])) }).stack j =
      if j = k ∧ k < 4 then { s.stack k with cache := vset (s.stack k).cache (c / 4) (f (vget (s.stack k).cache (c / 4) [])) }
      else s.stack j := by
    by_cases hj : k = j
    · subst hj
      by_cases hk : k < 4
      · rw [State.stack_modStack s _ hk, if_pos ⟨rfl, hk⟩]
      · rw [State.stack_out hk, State.stack_out hk, if_neg fun h => hk h.2]
    · rw [State.stack_modStack_ne s _ hj, if_neg fun h => hj h.1.symm]
  refine ⟨rfl, fun j => ?_, fun j m => ?_⟩
  · rw [hstack]
    split
    next h => rw [h.1]
    next => rfl
  · rw [hstack]
    split
    next h =>
      by_cases hm : c / 4 = m
      · exact .inl ⟨h.1, hm.symm⟩
      · exact .inr (by rw [vget_vset, if_neg fun h => hm h.1, h.1])
    next => exact .inr rfl

theorem cacheLine (s : State) (b : Nat) : s.Cached k c (s.cacheLine k c b) := by
  cases h : s.takes b with
  | true =>
    rw [State.cacheLine_taken k c h]
    exact modCache s _
  | false =>
    rw [State.cacheLine_refused k c h]
    exact refl s

variable (h : s.Cached k c t)
include h

/-! ## Nothing that is read depends on it -/

theorem silent (b : Nat) : t.silent b = s.silent b := by
  have hp : t.powerOf = s.powerOf := by rw [h.rest]; rfl
  rw [State.silent, State.silent, hp, h.stack]

theorem hostAbsent (b : Nat) : t.hostAbsent b = s.hostAbsent b := by rw [h.rest]; rfl

theorem takes (b : Nat) : t.takes b = s.takes b := by rw [State.takes, State.takes, h.silent, h.hostAbsent]

theorem tlbHit (j p ctx va : Nat) : t.tlbHit j p ctx va = s.tlbHit j p ctx va := by
  rw [State.tlbHit, State.tlbHit, h.stack]
  rfl

theorem busNat (b n : Nat) : t.busNat b n = s.busNat b n := by rw [h.rest]; rfl

theorem answers (b : Nat) : t.answers b = s.answers b := by rw [State.answers, State.answers, h.hostAbsent, h.silent]

theorem leafPage (level base va e : Nat) : Machine.leafPage t level base va e = Machine.leafPage s level base va e := by
  simp only [Machine.leafPage, h.busNat]

theorem walkFrom (va : Nat) : ∀ level base, Machine.walkFrom t va level base = Machine.walkFrom s va level base := by
  intro level
  induction level with
  | zero => exact fun _ => rfl
  | succ level ih => exact fun base => by simp only [Machine.walkFrom, h.busNat, h.answers, h.leafPage, ih]

theorem lookup (j p ctx va : Nat) : t.lookup j p ctx va = s.lookup j p ctx va := by
  have hc : t.ctx? ctx = s.ctx? ctx := by rw [h.rest]; rfl
  simp only [State.lookup, h.tlbHit, hc, h.walkFrom]

theorem lineBus (st : Strand) (co : Core) (n : Nat) : t.lineBus st co n = s.lineBus st co n := by
  simp only [State.lineBus, State.xlat, h.lookup]

end State.Cached

/-! ## One line (R148, log 19) -/

section
variable {s : State} {k c b l : Nat}

theorem State.sliceLines_cacheLine (hk : k < 4) (hc : c < 64) (h : s.takes b = true) :
    (s.cacheLine k c b).sliceLines k c = sliceTake (b / 64) (s.sliceLines k c) := by
  have hc : c / 4 < 16 := by omega
  rw [State.cacheLine_taken k c h, State.sliceLines, State.stack_modStack s _ hk, vget_vset, if_pos ⟨rfl, hc⟩, State.sliceLines]

theorem mem_sliceTake {ls : List Nat} {m : Nat} (h : m ∈ sliceTake l ls) : m = l ∨ m ∈ ls :=
  (List.mem_cons.1 (List.mem_of_mem_take h)).imp id List.mem_of_mem_filter

/-- A slice cache that has taken a line holds that line, or what it held. -/
theorem State.mem_cacheLine (h : l ∈ (s.cacheLine k c b).sliceLines k c) : l ∈ s.sliceLines k c ∨ s.takes b = true ∧ l = b / 64 := by
  cases ht : s.takes b with
  | false => exact .inl (by rwa [State.cacheLine_refused k c ht] at h)
  | true =>
    rw [State.cacheLine_taken k c ht] at h
    by_cases hk : k < 4
    · rw [State.sliceLines, State.stack_modStack s _ hk, vget_vset] at h
      split at h
      · exact (mem_sliceTake h).symm.imp id fun hl => ⟨rfl, hl⟩
      · exact .inl h
    · rw [State.sliceLines, State.stack_out hk] at h
      exact .inl (by rwa [State.sliceLines, State.stack_out hk])

theorem mem_take_sliceTake {ls : List Nat} {m j : Nat} (h : m ∈ ls.take j) (hj : j < 2 ^ 18) : m ∈ (sliceTake l ls).take (j + 1) := by
  rw [sliceTake, List.take_take, Nat.min_eq_left hj, List.take_succ_cons]
  by_cases hm : m = l
  · exact hm ▸ List.mem_cons_self
  · refine List.mem_cons_of_mem _ ?_
    have hsplit : ls.filter (fun x => x != l) = (ls.take j).filter (fun x => x != l) ++ (ls.drop j).filter fun x => x != l := by
      rw [← List.filter_append, List.take_append_drop]
    have hlen : ((ls.take j).filter fun x => x != l).length ≤ j := (List.length_filter_le _ _).trans (List.length_take_le _ _)
    rw [hsplit, List.take_append, List.take_of_length_le hlen]
    exact List.mem_append_left _ (List.mem_filter.2 ⟨h, bne_iff_ne.2 hm⟩)

/-- The lines that stand among the latest stand among one more of the latest when another has been brought. -/
theorem State.mem_take_cacheLine {j : Nat} (hk : k < 4) (hc : c < 64) (h : l ∈ (s.sliceLines k c).take j) (hj : j < 2 ^ 18) (b : Nat) :
    l ∈ ((s.cacheLine k c b).sliceLines k c).take (j + 1) := by
  cases ht : s.takes b with
  | false =>
    rw [State.cacheLine_refused k c ht]
    exact List.take_subset_take_left _ (Nat.le_succ j) h
  | true =>
    rw [State.sliceLines_cacheLine hk hc ht]
    exact mem_take_sliceTake h hj

theorem State.head_cacheLine (hk : k < 4) (hc : c < 64) (h : s.takes b = true) :
    b / 64 ∈ ((s.cacheLine k c b).sliceLines k c).take 1 := by
  rw [State.sliceLines_cacheLine hk hc h, sliceTake, List.take_take]
  exact List.mem_cons_self

end

/-! ## Several lines -/

/-- A slice cache is brought the lines at some bus addresses. -/
def State.bring (s : State) (k c : Nat) (ys : List Nat) : State := ys.foldl (fun s y => s.cacheLine k c y) s

section
variable {k c : Nat}

theorem State.bring_cached (ys : List Nat) : ∀ s : State, s.Cached k c (s.bring k c ys) := by
  induction ys with
  | nil => exact fun s => .refl s
  | cons y ys ih => exact fun s => (State.Cached.cacheLine s y).trans (ih _)

/-- Steps that each bring the line at an address found in the state bring the lines at the addresses found at first. -/
theorem State.foldl_bring {bus : State → Nat → Option Nat} {f : State → Nat → State}
    (hbus : ∀ {s t : State}, s.Cached k c t → ∀ n, bus t n = bus s n)
    (hsome : ∀ {s n y}, bus s n = some y → f s n = s.cacheLine k c y) (hnone : ∀ {s n}, bus s n = none → f s n = s) (ns : List Nat) :
    ∀ s : State, ns.foldl f s = s.bring k c (ns.filterMap (bus s)) := by
  induction ns with
  | nil => exact fun s => rfl
  | cons n ns ih =>
    intro s
    cases hb : bus s n with
    | none => rw [List.foldl_cons, hnone hb, List.filterMap_cons_none hb, ih]
    | some y =>
      have hsame : bus (s.cacheLine k c y) = bus s := funext (hbus (.cacheLine s y))
      rw [List.foldl_cons, hsome hb, List.filterMap_cons_some hb, ih, hsame]
      rfl

theorem State.mem_bring {l : Nat} (ys : List Nat) : ∀ {s : State}, l ∈ (s.bring k c ys).sliceLines k c →
    l ∈ s.sliceLines k c ∨ ∃ y ∈ ys, s.takes y = true ∧ l = y / 64 := by
  induction ys with
  | nil => exact fun h => .inl h
  | cons y ys ih =>
    intro s h
    rcases ih h with h | ⟨x, hx, ht, hl⟩
    · exact (State.mem_cacheLine h).imp id fun ⟨ht, hl⟩ => ⟨y, List.mem_cons_self, ht, hl⟩
    · exact .inr ⟨x, List.mem_cons_of_mem _ hx, by rwa [(State.Cached.cacheLine s y).takes] at ht, hl⟩

theorem State.mem_take_bring {l : Nat} (hk : k < 4) (hc : c < 64) (ys : List Nat) : ∀ {s : State} {j : Nat},
    l ∈ (s.sliceLines k c).take j → j + ys.length ≤ 2 ^ 18 → l ∈ (s.bring k c ys).sliceLines k c := by
  induction ys with
  | nil => exact fun h _ => List.mem_of_mem_take h
  | cons y ys ih =>
    intro s j h hj
    rw [List.length_cons] at hj
    exact ih (State.mem_take_cacheLine hk hc h (by omega) y) (by omega)

/-- No line of so few is the oldest that makes room. -/
theorem State.bring_holds (hk : k < 4) (hc : c < 64) (ys : List Nat) : ∀ {s : State} {y : Nat}, ys.length ≤ 2 ^ 18 → y ∈ ys →
    s.takes y = true → y / 64 ∈ (s.bring k c ys).sliceLines k c := by
  induction ys with
  | nil => exact fun _ h => absurd h List.not_mem_nil
  | cons x ys ih =>
    intro s y hlen hy ht
    rw [List.length_cons] at hlen
    rcases List.mem_cons.1 hy with rfl | hy
    · exact State.mem_take_bring hk hc ys (State.head_cacheLine hk hc ht) (by omega)
    · exact ih (by omega) hy (by rwa [(State.Cached.cacheLine s x).takes])

end

end Sys2Proof.Machine
end

section
/-! PREF, IPREF, IPIN, IUNPIN and ICINV at their issue (R93 to R95, R148, R235). -/

namespace Sys2Proof.Machine

/-! ## Ranges and slice caches as the instructions name them -/

theorem mem_linesOf_iff {a n m : Nat} : m ∈ linesOf a n ↔ n ≠ 0 ∧ a < 64 * m + 64 ∧ 64 * m < a + n := by
  by_cases hn : n = 0
  · simp [linesOf, hn]
  · rw [mem_linesOf (Nat.pos_of_ne_zero hn)]
    exact ⟨fun h => ⟨hn, h⟩, fun h => h.2⟩

theorem W64.toNat_ne_zero_iff {x : W64} : x.toNat ≠ 0 ↔ x ≠ 0 := by
  rw [ne_eq, ne_eq, ← BitVec.toNat_inj]
  rfl

theorem State.takes_iff {s : State} {b : Nat} :
    s.takes b = true ↔ busOk b = true ∧ s.silent b = false ∧ s.hostAbsent b = false ∧ isDoorbell b = false := by
  simp [State.takes, and_assoc]

/-- A slice cache has been brought the lines at the bus addresses of consecutive lines. -/
structure State.Brought (k c first span : Nat) (bus : Nat → Option Nat) (s t : State) : Prop where
  cached : s.Cached k c t
  source : ∀ l ∈ t.sliceLines k c, l ∈ s.sliceLines k c ∨ ∃ i < span, ∃ y, bus (first + i) = some y ∧ s.takes y = true ∧ l = y / 64
  holds : k < 4 → c < 64 → span ≤ 2 ^ 18 → ∀ i < span, ∀ y, bus (first + i) = some y → s.takes y = true → y / 64 ∈ t.sliceLines k c

theorem State.brought_bring (k c a n : Nat) (bus : Nat → Option Nat) (s : State) :
    State.Brought k c (a / 64) (lineSpan a n) bus s (s.bring k c ((linesOf a n).filterMap bus)) where
  cached := s.bring_cached _
  source l hl := by
    refine (State.mem_bring _ hl).imp id fun ⟨y, hy, ht, hly⟩ => ?_
    obtain ⟨m, hm, hb⟩ := List.mem_filterMap.1 hy
    rw [linesOf_eq] at hm
    obtain ⟨i, hi, rfl⟩ := List.mem_map.1 hm
    exact ⟨i, List.mem_range.1 hi, y, hb, ht, hly⟩
  holds hk hc hs i hi y hb ht := by
    refine State.bring_holds hk hc _ ((List.length_filterMap_le _ _).trans ?_) (List.mem_filterMap.2 ⟨_, ?_, hb⟩) ht
    · rwa [linesOf_eq, List.length_map, List.length_range]
    · rw [linesOf_eq]
      exact List.mem_map_of_mem (List.mem_range.2 hi)

/-! ## PREF (R235) -/

/-- The bus address that a TLB gives a line for PREF. -/
def View.prefBus (v : View) (s : State) (n : Nat) : Option Nat :=
  if 2 ^ 48 ≤ 64 * n then none else (s.tlbHit v.st.stack v.co.phys v.st.ctx (64 * n)).map fun p => p.at (64 * n)

/-- What PREF does for a line. -/
def View.prefStep (v : View) (s : State) (n : Nat) : State :=
  if 2 ^ 48 ≤ 64 * n then s
  else match s.tlbHit v.st.stack v.co.phys v.st.ctx (64 * n) with
    | some p => s.cacheLine v.st.stack v.co.phys (p.at (64 * n))
    | none => s

theorem View.prefStep_eq (v : View) (s : State) (n : Nat) :
    v.prefStep s n = ((v.prefBus s n).map (s.cacheLine v.st.stack v.co.phys)).getD s := by
  unfold View.prefStep View.prefBus
  split
  · rfl
  · cases s.tlbHit v.st.stack v.co.phys v.st.ctx (64 * n) <;> rfl

theorem View.foldl_prefStep (v : View) (s : State) (a n : Nat) : (linesOf a n).foldl v.prefStep s =
    s.bring v.st.stack v.co.phys ((linesOf a n).filterMap (v.prefBus s)) := by
  refine State.foldl_bring (bus := v.prefBus) (fun h n => ?_) (fun h => ?_) (fun h => ?_) _ s
  · simp only [View.prefBus, h.tlbHit]
  · rw [View.prefStep_eq, h]
    rfl
  · rw [View.prefStep_eq, h]
    rfl

theorem exec_pref {s : State} {v : View} {h : Head} {a b : Reg} (hv : s.view = some v) (hg : v.guard h.neg h.g = true) :
    exec (.pref h a b) s = .next ((linesOf (v.rs a).toNat (v.rs b).toNat).foldl v.prefStep s) :=
  onMX_true hv hg

/-! ## IPREF into the slice cache (R93) -/

theorem View.fetchInto_slice (v : View) (s : State) {lvl : Nat} (n : Nat) (h : 2 ≤ lvl) : v.fetchInto s lvl n =
    ((s.lineBus v.st v.co n).toOption.map (s.cacheLine v.st.stack v.co.phys)).getD s := by
  have h0 : (lvl == 0) = false := beq_eq_false_iff_ne.2 (by omega)
  have h1 : (lvl == 1) = false := beq_eq_false_iff_ne.2 (by omega)
  simp only [View.fetchInto, h0, h1, Bool.false_eq_true, if_false]
  cases s.lineBus v.st v.co n <;> rfl

theorem View.foldl_fetchInto_slice (v : View) (s : State) {lvl : Nat} (a n : Nat) (h : 2 ≤ lvl) :
    (linesOf a n).foldl (fun s n => v.fetchInto s lvl n) s =
      s.bring v.st.stack v.co.phys ((linesOf a n).filterMap fun n => (s.lineBus v.st v.co n).toOption) := by
  refine State.foldl_bring (bus := fun s n => (s.lineBus v.st v.co n).toOption) (fun hc n => ?_) (fun hb => ?_) (fun hb => ?_) _ s
  · rw [hc.lineBus]
  · rw [View.fetchInto_slice v _ _ h, hb]
    rfl
  · rw [View.fetchInto_slice v _ _ h, hb]
    rfl

theorem exec_ipref {s : State} {v : View} {h : Head} {a b : Reg} {x : BitVec 2} (hv : s.view = some v)
    (hg : v.guard h.neg h.g = true) : exec (.ipref h a b x) s =
      .next ((linesOf (v.rs a).toNat (v.rs b).toNat).foldl (fun s n => v.fetchInto s x.toNat n) s) :=
  onMX_true hv hg

/-! ## IPIN and IUNPIN (R94) -/

/-- What IPIN answers: that some line was left unpinned. -/
def leftUnpinned (ls : List Line) (ns : List Nat) : Bool := ns.any fun n => !linePinned ls n

theorem leftUnpinned_eq_zero {ls : List Line} {ns : List Nat} :
    BitVec.ofNat 64 (bnat (leftUnpinned ls ns)) = 0 ↔ ∀ n ∈ ns, linePinned ls n = true := by
  have h : leftUnpinned ls ns = false ↔ ∀ n ∈ ns, linePinned ls n = true := by simp [leftUnpinned]
  rw [← h]
  cases leftUnpinned ls ns <;> simp [bnat]

theorem exec_ipin {s : State} {v : View} {h : Head} {d a b : Reg} {x : BitVec 2} (hv : s.view = some v)
    (hg : v.guard h.neg h.g = true) :
    let ns := linesOf (v.rs a).toNat (v.rs b).toNat
    let u := ns.foldl (fun s n => v.pinInto s x.toNat n) s
    exec (.ipin h d a b x) s =
      .next (v.land u 1 2 (.scalar v.cur.cl d (BitVec.ofNat 64 (bnat (leftUnpinned (v.cache u x.toNat) ns))))) :=
  onMX_true hv hg

/-- A line without its pin, if it is among some. -/
def unpinOf (ns : List Nat) (l : Line) : Line := if ns.contains l.tag then { l with pinned := false } else l

/-- A partition without the pins of some lines: the ways that stood empty for them are free. -/
def unpinLines (ns : List Nat) (ls : List Line) : List Line := (ls.map (unpinOf ns)).filter fun l => l.pinned || l.bytes.isSome

section
variable {ns : List Nat} {l : Line} {ls : List Line}

theorem unpinOf_tag : (unpinOf ns l).tag = l.tag := by
  unfold unpinOf
  split <;> rfl

theorem unpinOf_bytes : (unpinOf ns l).bytes = l.bytes := by
  unfold unpinOf
  split <;> rfl

theorem unpinOf_pinned (h : l.tag ∈ ns) : (unpinOf ns l).pinned = false := by
  rw [unpinOf, if_pos (List.contains_iff_mem.2 h)]

theorem unpinOf_other (h : l.tag ∉ ns) : unpinOf ns l = l := if_neg (mt List.contains_iff_mem.1 h)

theorem linePinned_unpinLines {n : Nat} (h : n ∈ ns) : linePinned (unpinLines ns ls) n = false := by
  cases hl : lineOf (unpinLines ns ls) n with
  | none => simp [linePinned, hl]
  | some m =>
    obtain ⟨hm, rfl⟩ := lineOf_mem hl
    obtain ⟨l, -, rfl⟩ := List.mem_map.1 (List.mem_filter.1 hm).1
    rw [unpinOf_tag] at h
    simp [linePinned, hl, unpinOf_pinned h]

theorem unpinLines_bytes (hl : l ∈ ls) (hb : l.bytes.isSome = true) : ∃ m ∈ unpinLines ns ls, m.tag = l.tag ∧ m.bytes = l.bytes := by
  refine ⟨unpinOf ns l, List.mem_filter.2 ⟨List.mem_map_of_mem hl, ?_⟩, unpinOf_tag, unpinOf_bytes⟩
  simp only [unpinOf_bytes, hb, Bool.or_true]

theorem mem_unpinLines (hl : l ∈ ls) (hn : l.tag ∉ ns) (hk : l.pinned = true ∨ l.bytes.isSome = true) : l ∈ unpinLines ns ls := by
  refine List.mem_filter.2 ⟨List.mem_map.2 ⟨l, hl, unpinOf_other hn⟩, ?_⟩
  simpa only [Bool.or_eq_true] using hk

end

theorem exec_iunpin {s : State} {v : View} {h : Head} {a b : Reg} {x : BitVec 2} (hv : s.view = some v)
    (hg : v.guard h.neg h.g = true) : exec (.iunpin h a b x) s =
      .next (v.modCache s x.toNat fun _ => unpinLines (linesOf (v.rs a).toNat (v.rs b).toNat)) :=
  onMX_true hv hg

/-- A change of a level's partition that adds no line, whether or not the view's cluster is one of the four. -/
theorem View.Found.cache_modCache {v : View} {s : State} {t : Strand} {co : Core} (h : v.Found s t co) (lvl : Nat)
    {f : List Line → List Line} (hf : f [] = []) : v.cache (v.modCache s lvl fun _ => f) lvl = f (v.cache s lvl) := by
  by_cases hcl : v.cur.cl < 4
  · obtain ⟨-, -, -, hc⟩ := h.modCache (lvl := lvl) (fun _ => f) hcl
    exact hc
  · have h' := h.modCore fun _ => Core.repartition v.cur.cl (v.cur.beat + 8) lvl fun _ => f
    rw [View.modCache_eq, View.cache_of lvl h', View.cache_of lvl h]
    by_cases hl : (lvl == 0) = true
    · have hout (c : Core) : (c.cluster v.cur.cl).l0 = [] := by
        rw [Core.cluster, vget, dif_neg hcl]
        rfl
      simp only [Core.partition, hl, if_true, hout, hf]
    · simp only [Core.partition, Core.repartition, hl, Bool.false_eq_true, if_false]

/-! ## ICINV (R95) -/

/-- A partition without the lines of a range. -/
def keepLines (a n : Nat) (ls : List Line) : List Line := ls.filter fun l => !(linesOf a n).contains l.tag

theorem mem_keepLines {a n : Nat} {ls : List Line} {l : Line} :
    l ∈ keepLines a n ls ↔ l ∈ ls ∧ ¬ (0 < n ∧ a < 64 * l.tag + 64 ∧ 64 * l.tag < a + n) := by
  rw [keepLines, List.mem_filter, Bool.not_eq_true', ← Bool.not_eq_true, List.contains_iff_mem, mem_linesOf_iff, Nat.pos_iff_ne_zero]

/-- A change of the lowest cluster contexts, one by one. -/
theorem Core.foldl_modCl (f : Cluster → Cluster) (c : Core) : ∀ n ≤ 4,
    ((List.range n).foldl (fun c k => c.modCl k f) c).l1 = c.l1 ∧
    ∀ k < 4, ((List.range n).foldl (fun c k => c.modCl k f) c).cluster k = if k < n then f (c.cluster k) else c.cluster k := by
  intro n
  induction n with
  | zero => exact fun _ => ⟨rfl, fun k _ => rfl⟩
  | succ n ih =>
    intro hn
    obtain ⟨hl1, hcl⟩ := ih (Nat.le_of_succ_le hn)
    rw [List.range_succ, List.foldl_append, List.foldl_cons, List.foldl_nil]
    refine ⟨hl1, fun k hk => ?_⟩
    by_cases hnk : n = k
    · subst hnk
      rw [Core.cluster_modCl _ _ hk, hcl _ hk, if_neg (Nat.lt_irrefl _), if_pos (Nat.lt_succ_self _)]
    · rw [Core.cluster_modCl_ne _ _ hnk, hcl _ hk]
      congr 1
      exact propext (by omega)

/-- A core without the lines of a range in its partitions. -/
def Core.invalidated (upto a n : Nat) (c : Core) : Core :=
  (List.range 4).foldl (fun c k => c.modCl k fun x => x.setL0 upto (keepLines a n x.l0)) { c with l1 := keepLines a n c.l1 }

theorem Strand.invalidate_eq (t : Strand) (upto a n : Nat) :
    t.invalidate upto a n = { t with cores := t.cores.map (Core.invalidated upto a n) } := rfl

theorem Core.invalidated_l1 (upto a n : Nat) (c : Core) : (c.invalidated upto a n).l1 = keepLines a n c.l1 :=
  (Core.foldl_modCl _ _ 4 (Nat.le_refl 4)).1

theorem Core.invalidated_l0 (upto a n : Nat) (c : Core) {k : Nat} (hk : k < 4) :
    ((c.invalidated upto a n).cluster k).l0 = keepLines a n (c.cluster k).l0 := by
  rw [Core.invalidated, (Core.foldl_modCl _ _ 4 (Nat.le_refl 4)).2 k hk, if_pos hk]
  rfl

end Sys2Proof.Machine
end

section
/-! The obligation on prefetch and cache control (R93 to R95, R148, R235). -/

namespace Sys2Proof.Machine

theorem View.found_of {s : State} {v : View} (hv : s.view = some v) : v.Found s v.st v.co := by
  obtain ⟨-, ht, hc, -⟩ := State.view_eq hv
  exact ⟨ht, hc⟩

/-- Settles O20: the slice cache takes lines in turn, a partition is stepped line by line, and the rest is framed. -/
theorem prefetchAndCacheControl : Obligations.PrefetchAndCacheControl := by
  constructor
  · intro s v h d a b x hv hg fetched pinned within first span held takes brought sets lineStep chain
    have hfound := View.found_of hv
    have hspan : span = lineSpan (v.rs a).toNat (v.rs b).toNat := by
      simp only [span, lineSpan, ← BitVec.toNat_inj]
      rfl
    have hsets : sets = setsOf x.toNat := (setsOf_eq _).symm
    have hpinned (t : State) (n : Nat) : linePinned (v.cache t x.toNat) n = true ↔ pinned t n := linePinned_iff
    have hrange (n : Nat) : n ∈ linesOf (v.rs a).toNat (v.rs b).toNat ↔ v.rs b ≠ 0 ∧ within n := by
      rw [mem_linesOf_iff, W64.toNat_ne_zero_iff]
    have hfetched (t : State) (ht : s.Fetched v.cur.sid t) : fetched t := ⟨ht.rest, ht.stack, ht.tasks, ht.strands⟩
    have hbrought (bus : Nat → Option Nat) : brought (s.bring v.st.stack v.co.phys
        ((linesOf (v.rs a).toNat (v.rs b).toNat).filterMap bus)) bus := by
      have hb := State.brought_bring v.st.stack v.co.phys (v.rs a).toNat (v.rs b).toNat bus s
      rw [← hspan] at hb
      refine ⟨hb.cached.rest, fun k _ => ⟨hb.cached.stack k, fun m _ => hb.cached.slices k m⟩, fun l hl => ?_,
        fun hk hc hs i hi y hy ht => hb.holds hk hc hs i hi y hy (State.takes_iff.2 ht)⟩
      exact (hb.source l hl).imp id fun ⟨i, hi, y, hy, ht, hl⟩ => ⟨i, hi, y, hy, State.takes_iff.1 ht, hl⟩
    have hchain (pin : Bool) {f : State → Nat → State} (hf : v.LineSteps x.toNat f)
        (hnone : ∀ u t co n, v.Found u t co → u.lineFor t co n = none → pin = false → f u n = u)
        (hpin : ∀ u t co n, v.Found u t co → pin = true → (linePinned (v.cache (f u n) x.toNat) n = true ↔
          pinsIn (v.cache u x.toNat) (setsOf x.toNat) n < 3 ∨ linePinned (v.cache u x.toNat) n = true)) :
        chain pin (lineStates f s first) := by
      refine ⟨rfl, fun i _ st co ht hc => ?_, fun hs i hi st co ht hc ⟨hb, hp⟩ => ?_⟩
      · have hu : v.Found (lineStates f s first i) st co := ⟨ht, hc⟩
        rw [lineStates_succ, hsets]
        refine ⟨fun m hm => hf.other hu hm, hnone _ _ _ _ hu, fun bs hb hp => hf.bytes hu hb hp, fun hp => ?_⟩
        rw [← hpinned, ← hpinned]
        exact hpin _ _ _ _ hu hp
      · rw [hsets] at hs hp
        exact hf.bytes_states hfound first hi hs ⟨ht, hc⟩ hb hp
    refine ⟨?pref, ?ipref, ?ipin, ?iunpin, onMX_true hv hg⟩
    case pref =>
      refine ⟨_, exec_pref hv hg, ?_⟩
      rw [View.foldl_prefStep]
      exact hbrought _
    case ipref =>
      refine ⟨_, exec_ipref hv hg, hfetched _ (State.Fetched.foldl (fun u n => v.fetched_fetchInto u x.toNat n) _ s), fun hl => ?_,
        fun hl hcl => ⟨_, by rw [foldl_linesOf, hspan], hchain false (View.fetchSteps hl hcl)
          (fun _ _ _ _ hu hn _ => hu.fetchInto_none hl hn) fun _ _ _ _ _ hp => absurd hp Bool.false_ne_true⟩⟩
      rw [View.foldl_fetchInto_slice v s _ _ hl]
      exact hbrought _
    case ipin =>
      refine ⟨_, _, exec_ipin hv hg, hfetched _ (State.Fetched.foldl (fun u n => v.fetched_pinInto u x.toNat n) _ s), ?_, ?_,
        fun hl hcl => ⟨_, by rw [foldl_linesOf, hspan], hchain true (View.pinSteps hl hcl)
          (fun _ _ _ _ _ _ hp => absurd hp.symm Bool.false_ne_true) fun _ _ _ n hu _ => hu.linePinned_pinInto n hl hcl⟩⟩
      · cases leftUnpinned _ _ <;> simp [bnat]
      · rw [leftUnpinned_eq_zero]
        exact forall_congr' fun n => by rw [hrange, hpinned, and_imp]
    case iunpin =>
      have hcache := hfound.cache_modCache x.toNat (f := unpinLines (linesOf (v.rs a).toNat (v.rs b).toNat)) rfl
      refine ⟨_, exec_iunpin hv hg, hfetched _ (v.fetched_modCache s x.toNat _), fun n hb hn => ?_, fun l hl => ?_⟩
      · rw [← hpinned, hcache, linePinned_unpinLines ((hrange n).2 ⟨hb, hn⟩)]
        exact Bool.false_ne_true
      · rw [hcache]
        exact ⟨unpinLines_bytes hl, fun hn => mem_unpinLines hl (mt (hrange l.tag).1 hn)⟩
  · intro t upto a n u within
    have hu : u.cores = t.cores.map (Core.invalidated upto a n) := rfl
    refine ⟨rfl, by rw [hu, List.length_map], fun i c e hc he => ?_⟩
    rw [hu, List.getElem?_map, hc] at he
    obtain rfl := Option.some.inj he
    rw [Core.invalidated_l1]
    refine ⟨fun l => mem_keepLines, fun k hk l => ?_⟩
    rw [Core.invalidated_l0 _ _ _ _ hk]
    exact mem_keepLines

end Sys2Proof.Machine
end

section
/-! Results that are to land: their place in the agenda, and a scalar result as it lands (R107, R150, R151, R255). -/

namespace Sys2Proof.Machine

/-! ## The order of the agenda (R255) -/

/-- The order of the agenda: by beat, then by the order among the effects of one beat. -/
def Timed.lt (a b : Timed) : Prop := a.beat < b.beat ∨ a.beat = b.beat ∧ a.ord < b.ord

theorem Timed.lt_iff {a b : Timed} : a.lt b ↔ (a.beat < b.beat || (a.beat == b.beat && a.ord < b.ord)) = true := by
  simp [Timed.lt]

theorem Timed.beat_le_of_lt {a b : Timed} (h : a.lt b) : a.beat ≤ b.beat := h.elim Nat.le_of_lt fun h => h.1.le

theorem Timed.beat_le_of_not_lt {a b : Timed} (h : ¬ a.lt b) : b.beat ≤ a.beat := Nat.le_of_not_lt fun hb => h (.inl hb)

theorem insertTimed_cons_of_lt {t x : Timed} (xs : List Timed) (h : t.lt x) : insertTimed t (x :: xs) = t :: x :: xs :=
  if_pos (Timed.lt_iff.1 h)

theorem insertTimed_cons_of_not_lt {t x : Timed} (xs : List Timed) (h : ¬ t.lt x) : insertTimed t (x :: xs) = x :: insertTimed t xs :=
  if_neg (mt Timed.lt_iff.2 h)

theorem insertTimed_perm (t : Timed) (xs : List Timed) : (insertTimed t xs).Perm (t :: xs) := by
  induction xs with
  | nil => exact .refl _
  | cons x xs ih =>
    by_cases h : t.lt x
    · rw [insertTimed_cons_of_lt xs h]
    · rw [insertTimed_cons_of_not_lt xs h]
      exact (ih.cons x).trans (.swap t x xs)

theorem sublist_insertTimed (t : Timed) (xs : List Timed) : xs.Sublist (insertTimed t xs) := by
  induction xs with
  | nil => exact List.nil_sublist _
  | cons x xs ih =>
    by_cases h : t.lt x
    · rw [insertTimed_cons_of_lt xs h]
      exact List.sublist_cons_self _ _
    · rw [insertTimed_cons_of_not_lt xs h]
      exact ih.cons_cons x

theorem insertTimed_pairwise {t : Timed} {xs : List Timed} (h : xs.Pairwise fun x y => x.beat ≤ y.beat) :
    (insertTimed t xs).Pairwise fun x y => x.beat ≤ y.beat := by
  induction xs with
  | nil => exact List.pairwise_singleton _ t
  | cons x xs ih =>
    obtain ⟨hx, hxs⟩ := List.pairwise_cons.1 h
    by_cases hlt : t.lt x
    · rw [insertTimed_cons_of_lt xs hlt]
      refine List.pairwise_cons.2 ⟨fun y hy => ?_, h⟩
      obtain rfl | hy := List.mem_cons.1 hy
      · exact Timed.beat_le_of_lt hlt
      · exact (Timed.beat_le_of_lt hlt).trans (hx y hy)
    · rw [insertTimed_cons_of_not_lt xs hlt]
      refine List.pairwise_cons.2 ⟨fun y hy => ?_, ih hxs⟩
      obtain rfl | hy := List.mem_cons.1 ((insertTimed_perm t xs).mem_iff.1 hy)
      · exact Timed.beat_le_of_not_lt hlt
      · exact hx y hy

/-! ## A scalar register after a write (R88, R151) -/

theorem Cluster.rs_ws (c : Cluster) (x : Nat) (d r : Reg) (z : W64) : (c.ws x d z).rs r = if r = d ∧ d ≠ 0 then z else c.rs r := by
  by_cases hd : d = 0
  · subst hd
    rw [if_neg fun h => h.2 rfl]
    rfl
  by_cases hr : r = d
  · subst hr
    rw [if_pos ⟨rfl, hd⟩, Cluster.rs_ws_same c x z hd]
  · rw [if_neg fun h => hr h.1, Cluster.ws_of_ne_zero c x z hd]
    have hne : d.toNat ≠ r.toNat := fun h => hr (BitVec.eq_of_toNat_eq h.symm)
    simp only [Cluster.rs, vget_vset, hne, false_and, if_false]

/-! ## Landing on a core (R107, R255) -/

/-- What is due on a core leaves its agenda and is applied in order. -/
theorem State.landCore_eq {s : State} {r : CoreRef} {t : Strand} {co : Core} (ht : s.strand? r.strand = some t)
    (hco : t.cores[r.core]? = some co) (x : Nat) :
    let due := co.agenda.takeWhile fun e => decide (e.beat ≤ x)
    s.landCore r x = due.foldl (fun s e => s.applyAct r e.beat e.act)
      (s.modCoreRef r fun c => { c with agenda := c.agenda.drop due.length }) := by
  simp only [State.landCore, State.eview_of ht hco]
  rfl

/-- Where nothing else is to land, a scalar result is all that lands, from its beat on. -/
theorem View.found_landCore_scalar {s : State} {v : View} (hv : s.view = some v) (hempty : v.co.agenda = []) (lat slot k : Nat)
    (d : Reg) (z : W64) (x : Nat) : ∃ t co,
      v.Found ((v.land s lat slot (.scalar k d z)).landCore { strand := v.cur.sid, core := v.cur.core } x) t co ∧
      co.cl = if v.cur.beat + lat ≤ x then (v.co.modCl k fun c => c.ws (v.cur.beat + lat) d z).cl else v.co.cl := by
  obtain ⟨-, ht, hco, -⟩ := State.view_eq hv
  have hland : v.Found (v.land s lat slot (.scalar k d z)) _ _ :=
    View.Found.modCore ⟨ht, hco⟩ fun _ c => c.sched (v.cur.beat + lat) (v.ord slot) (.scalar k d z)
  have hdrop (n : Nat) := hland.modCore fun _ c => { c with agenda := c.agenda.drop n }
  obtain ⟨ht', hco'⟩ := hland
  rw [State.landCore_eq (r := ⟨v.cur.sid, v.cur.core⟩) ht' hco' x]
  simp only [Core.sched_agenda, hempty, insertTimed, List.takeWhile_cons, List.takeWhile_nil]
  by_cases hx : v.cur.beat + lat ≤ x
  · simp only [hx, decide_true, if_true, List.foldl_cons, List.foldl_nil]
    exact ⟨_, _, (hdrop _).modCore fun _ c => c.apply (v.cur.beat + lat) (.scalar k d z), rfl⟩
  · simp only [hx, decide_false, Bool.false_eq_true, if_false, List.foldl_nil]
    exact ⟨_, _, hdrop _, rfl⟩

/-- Settles O32: the agenda is kept in the order of its beats, and a result that stands alone in it is applied once its beat is due. -/
theorem resultsLandAtTheirBeat : Obligations.ResultsLandAtTheirBeat := by
  constructor
  · intro c b ord a
    exact ⟨rfl, insertTimed_perm _ _, sublist_insertTimed _ _, insertTimed_pairwise⟩
  · rintro s _ v lat d r z x hv hempty hcl rfl - read
    obtain ⟨t, co, ⟨ht, hco⟩, hclusters⟩ := View.found_landCore_scalar hv hempty lat 0 v.cur.cl d z x
    obtain ⟨-, -, -, hvcl⟩ := State.view_eq hv
    simp only [read, ht, hco, Option.bind_some, Option.map_some]
    rw [Core.cluster, hclusters]
    by_cases hx : v.cur.beat + lat ≤ x
    · rw [if_pos hx, ← Core.cluster, Core.cluster_modCl _ _ hcl, ← hvcl, Cluster.rs_ws]
      simp only [hx, true_and]
    · rw [if_neg hx, if_neg fun h => hx h.1, hvcl]
      rfl

end Sys2Proof.Machine
end

section
/-! Where V forms trap, and what their pops take (R80, R105, R175, R246). -/

namespace Sys2Proof.Machine

/-! ## Pops (R80, R105) -/

/-- A context without the head of a queue. -/
def Cluster.popOne (c : Cluster) (n : BitVec 2) : Cluster := { c with q := vset c.q n.toNat (c.queueOf n).tail }

theorem Cluster.pop_eq (c : Cluster) (as : List VSrc) : c.pop as = (as.filterMap srcPops).eraseDups.foldl Cluster.popOne c := rfl

theorem Cluster.queueOf_popOne (c : Cluster) (m n : BitVec 2) :
    (c.popOne m).queueOf n = if n = m then (c.queueOf n).tail else c.queueOf n := by
  have hm : m.toNat < 4 := m.isLt
  by_cases h : n = m
  · subst h
    simp [Cluster.queueOf, Cluster.popOne, vget_vset, hm]
  · have hne : ¬ m.toNat = n.toNat := fun he => h (BitVec.eq_of_toNat_eq he.symm)
    simp [Cluster.queueOf, Cluster.popOne, vget_vset, h, hne]

theorem Cluster.foldl_popOne (ns : List (BitVec 2)) (c : Cluster) : ns.foldl Cluster.popOne c = { c with q := (ns.foldl Cluster.popOne c).q } := by
  induction ns generalizing c with
  | nil => rfl
  | cons m ns ih =>
    rw [List.foldl_cons, ih]
    rfl

/-- Queues popped once each: each loses its head, and the others none. -/
theorem Cluster.queueOf_foldl_popOne {ns : List (BitVec 2)} (hns : ns.Nodup) (n : BitVec 2) (c : Cluster) :
    (ns.foldl Cluster.popOne c).queueOf n = if n ∈ ns then (c.queueOf n).tail else c.queueOf n := by
  induction ns generalizing c with
  | nil => rfl
  | cons m ns ih =>
    obtain ⟨hm, hns⟩ := List.nodup_cons.1 hns
    rw [List.foldl_cons, ih hns, Cluster.queueOf_popOne]
    by_cases h : n = m
    · subst h
      simp [hm]
    · simp [h]

/-- What `eraseDups` leaves holds no element twice. -/
theorem nodup_eraseDups {α : Type} [BEq α] [LawfulBEq α] : ∀ xs : List α, xs.eraseDups.Nodup
  | [] => List.nodup_nil
  | x :: xs => by
    rw [List.eraseDups_cons, List.nodup_cons]
    exact ⟨by simp [List.mem_eraseDups], nodup_eraseDups _⟩
termination_by xs => xs.length
decreasing_by exact Nat.lt_succ_of_le (List.length_filter_le _ _)

theorem mem_filterMap_srcPops {as : List VSrc} {n : BitVec 2} : n ∈ as.filterMap srcPops ↔ .pop n ∈ as := by
  rw [List.mem_filterMap]
  constructor
  · rintro ⟨a, ha, hn⟩
    cases a with
    | pop m => exact Option.some.inj hn ▸ ha
    | _ => exact nomatch hn
  · exact fun h => ⟨_, h, rfl⟩

theorem Cluster.queueOf_pop (c : Cluster) (as : List VSrc) (n : BitVec 2) :
    (c.pop as).queueOf n = if .pop n ∈ as then (c.queueOf n).tail else c.queueOf n := by
  rw [Cluster.pop_eq, Cluster.queueOf_foldl_popOne (nodup_eraseDups _)]
  simp only [List.mem_eraseDups, mem_filterMap_srcPops]

theorem Cluster.pop_frame (c : Cluster) (as : List VSrc) : c.pop as = { c with q := (c.pop as).q } := Cluster.foldl_popOne _ c

/-! ## Traps of V forms (R105, R246) -/

theorem View.dry_iff {v : View} {a : VSrc} : v.dry a = true ↔ ∃ n, srcQueue a = some n ∧ v.cl.queueOf n = [] := by
  unfold View.dry
  cases srcQueue a <;> simp

theorem View.any_dry_iff {v : View} {as : List VSrc} : as.any v.dry = true ↔ ¬ v.readable as := by
  simp [View.readable, View.dry_iff]

theorem View.dry_eq_true {v : View} {a : VSrc} (h : ¬ v.readable [a]) : v.dry a = true := by
  simpa using View.any_dry_iff.2 h

theorem View.dry_eq_false {v : View} {a : VSrc} (h : v.readable [a]) : v.dry a = false := by
  simpa using readable_dry h

theorem onV_dry {s : State} {v : View} {lvl : Nat} {as : List VSrc} {f : View → State → State} (hv : s.view = some v)
    (h : ¬ v.readable as) : onV lvl as s f = .next (v.raise s cQueue) := by
  rw [onV, withView_some _ hv, if_pos (View.any_dry_iff.2 h)]

theorem onV_exceeds {s : State} {v : View} {lvl : Nat} {as : List VSrc} {f : View → State → State} (hv : s.view = some v)
    (hr : v.readable as) (h : v.st.region.exceeds v.cur.beat lvl = true) : onV lvl as s f = .next (v.raise s cOver 0 lvl) := by
  rw [onV, withView_some _ hv, if_neg (by rw [readable_dry hr]; exact Bool.false_ne_true), if_pos h]

/-- A region is exceeded where its level is lower and no RELP has ended it (R246, R247). -/
theorem Region.exceeds_of {r : Region} {beat lvl : Nat} (hon : r.on = true) (hlevel : r.level < lvl)
    (hfalls : ∀ f ∈ r.falls, f.2.2 = true → beat ≤ f.1) : r.exceeds beat lvl = true := by
  simp only [Region.exceeds, hon, hlevel, decide_true, Bool.and_true, Bool.true_and, List.all_eq_true, Bool.or_eq_true,
    Bool.not_eq_true', decide_eq_true_eq]
  intro f hf
  cases h : f.2.2 with
  | false => exact .inl rfl
  | true => exact .inr (hfalls f hf h)

/-- An instruction is a V syllable that reads `as` and draws at a level. -/
def DrawsAt (lvl : Nat) (as : List VSrc) (i : Instr) (s : State) : Prop := ∃ f, exec i s = onV lvl as s f

theorem DrawsAt.dry {lvl : Nat} {as : List VSrc} {i : Instr} {s : State} {v : View} (hi : DrawsAt lvl as i s) (hv : s.view = some v)
    (h : ¬ v.readable as) : exec i s = .next (v.raise s cQueue) := by
  obtain ⟨f, hf⟩ := hi
  rw [hf, onV_dry hv h]

theorem DrawsAt.exceeds {lvl : Nat} {as : List VSrc} {i : Instr} {s : State} {v : View} (hi : DrawsAt lvl as i s) (hv : s.view = some v)
    (hr : v.readable as) (h : v.st.region.exceeds v.cur.beat lvl = true) : exec i s = .next (v.raise s cOver 0 lvl) := by
  obtain ⟨f, hf⟩ := hi
  rw [hf, onV_exceeds hv hr h]

/-! ### VCVTT and TEVAL (R175, R184) -/

section
variable {s : State} {v : View} {h : Head} {d : VDst} {a : VSrc} {k : BitVec 2} (hv : s.view = some v)
include hv

theorem exec_vcvtt_dry (hr : ¬ v.readable [a]) : exec (.vcvtt h d a) s = .next (v.raise s cQueue) := by
  show execVcvtt h d a s = _
  rw [execVcvtt, withView_some _ hv]
  exact congrArg _ (if_pos (View.dry_eq_true hr))

theorem exec_vcvtt_bad (hr : v.readable [a]) (hbad : cvttBad (vget v.co.fmt v.fmtIndex 0) = true) :
    exec (.vcvtt h d a) s = .next (v.raise s cFormat) := by
  show execVcvtt h d a s = _
  rw [execVcvtt, withView_some _ hv]
  simp only [View.dry_eq_false hr, hbad, Bool.false_eq_true, if_false, if_true]

theorem exec_vcvtt_exceeds (hr : v.readable [a]) (hok : cvttBad (vget v.co.fmt v.fmtIndex 0) = false)
    (hx : v.st.region.exceeds v.cur.beat 3 = true) : exec (.vcvtt h d a) s = .next (v.raise s cOver 0 3) := by
  show execVcvtt h d a s = _
  rw [execVcvtt, withView_some _ hv]
  simp only [View.dry_eq_false hr, hok, hx, Bool.false_eq_true, if_false, if_true]

theorem exec_teval_dry (hte : v.st.fp.te = true) (hr : ¬ v.readable [a]) : exec (.teval h d a k) s = .next (v.raise s cQueue) := by
  show execTeval h d a k s = _
  rw [execTeval, withView_some _ hv]
  simp only [hte, View.dry_eq_true hr, Bool.not_true, Bool.false_eq_true, if_false, if_true]

theorem exec_teval_exceeds (hte : v.st.fp.te = true) (hr : v.readable [a]) (hx : v.st.region.exceeds v.cur.beat 3 = true) :
    exec (.teval h d a k) s = .next (v.raise s cOver 0 3) := by
  show execTeval h d a k s = _
  rw [execTeval, withView_some _ hv]
  simp only [hte, View.dry_eq_false hr, hx, Bool.not_true, Bool.false_eq_true, if_false, if_true]

end

/-- Settles O14: each V form is `onV` at its level, VCVTT and TEVAL with a check of their own, and a pop takes each queue's head once. -/
theorem vectorTrapsAndPops : Obligations.VectorTrapsAndPops := by
  constructor
  · intro s v h d p a b rm cv u l hv int2 float2 int1 float1 entry
    have hint2 : ∀ i ∈ int2, DrawsAt 0 [a, b] i s := by
      simp only [int2, List.forall_mem_cons]
      and_intros
      iterate 27 exact ⟨_, by unfold exec; rfl⟩
      exact List.forall_mem_nil _
    have hfloat2 : ∀ i ∈ float2, DrawsAt 3 [a, b] i s := by
      simp only [float2, List.forall_mem_cons]
      and_intros
      iterate 18 exact ⟨_, by unfold exec; rfl⟩
      exact List.forall_mem_nil _
    have hint1 : ∀ i ∈ int1, DrawsAt 0 [a] i s := by
      simp only [int1, List.forall_mem_cons]
      and_intros
      iterate 2 exact ⟨_, by unfold exec; rfl⟩
      exact List.forall_mem_nil _
    have hfloat1 : ∀ i ∈ float1, DrawsAt 3 [a] i s := by
      simp only [float1, List.forall_mem_cons]
      and_intros
      iterate 8 exact ⟨_, by unfold exec; rfl⟩
      exact List.forall_mem_nil _
    refine ⟨fun hr => ?_, fun hr => ⟨?_, fun hte => exec_teval_dry hv hte hr⟩, exec_vcvtt_bad hv, ?_⟩
    · exact List.forall_mem_append.2 ⟨fun i hi => (hint2 i hi).dry hv hr, fun i hi => (hfloat2 i hi).dry hv hr⟩
    · refine List.forall_mem_append.2 ⟨List.forall_mem_append.2 ⟨fun i hi => (hint1 i hi).dry hv hr, fun i hi => (hfloat1 i hi).dry hv hr⟩, ?_⟩
      exact List.forall_mem_singleton.2 (exec_vcvtt_dry hv hr)
    · intro hon hlevel hfalls tooHigh
      have hx := Region.exceeds_of hon hlevel hfalls
      exact ⟨fun hr i hi => (hfloat2 i hi).exceeds hv hr hx, fun hr => ⟨fun i hi => (hfloat1 i hi).exceeds hv hr hx,
        fun hok => exec_vcvtt_exceeds hv hr hok hx, fun hte => exec_teval_exceeds hv hte hr hx⟩⟩
  · exact fun c as n => ⟨c.queueOf_pop as n, c.pop_frame as⟩

end Sys2Proof.Machine
end

section
/-! CWAIT at its issue: the mask's clusters, arrivals and completion (R114, R164; log 74). -/

namespace Sys2Proof.Machine

/-! ## The masks of a rendezvous (R114) -/

/-- A mask names no cluster outside another. -/
theorem mask_subset_iff (m w : BitVec 4) : m &&& ~~~w = 0 ↔ ∀ k < 4, m.getLsbD k = true → w.getLsbD k = true := by
  rw [BitVec.eq_of_getLsbD_eq_iff]
  refine forall₂_congr fun k hk => ?_
  have hzero : (0 : BitVec 4).getLsbD k = false := BitVec.getLsbD_zero
  rw [BitVec.getLsbD_and, BitVec.getLsbD_not, hzero, decide_eq_true hk, Bool.true_and]
  cases m.getLsbD k <;> simp

/-- A cluster waits at a mask. -/
def Core.WaitsAt (c : Core) (m : BitVec 4) (k : Nat) : Prop := ∃ r, (c.cluster k).rdv = some r ∧ r.mask = m

theorem Core.allArrived_iff {c : Core} {m : BitVec 4} : c.allArrived m = true ↔ ∀ k < 4, m.getLsbD k = true → c.WaitsAt m k := by
  simp only [Core.allArrived, List.all_eq_true, List.mem_range]
  refine forall₂_congr fun k _ => ?_
  unfold bitAt Core.WaitsAt
  cases m.getLsbD k <;> cases (c.cluster k).rdv <;> simp

theorem Core.clashes_eq_false_iff {c : Core} {k : Nat} {m : BitVec 4} :
    c.clashes k m = false ↔ ∀ i < 4, ∀ r, (c.cluster i).rdv = some r → r.mask.getLsbD k = true → r.mask = m := by
  simp only [Core.clashes, List.any_eq_false, List.mem_range]
  refine forall₂_congr fun i _ => ?_
  unfold bitAt
  cases (c.cluster i).rdv <;> simp

theorem Core.someHalted_eq_false_iff {c : Core} {m : BitVec 4} :
    c.someHalted m = false ↔ ∀ k < 4, m.getLsbD k = true → (c.cluster k).halted = false := by
  simp [Core.someHalted, bitAt]

/-! ## Completion (R114) -/

/-- A context goes on from a rendezvous that is complete at beat `x`. -/
def Cluster.goOn (x : Nat) (c : Cluster) : Cluster :=
  { c with rdv := none, gaps := c.gaps ++ (match c.rdv with
    | some r => [(r.beat + 8, x + 8)]
    | none => []) }

/-- A named cluster goes on, one not named stands as it stood. -/
def Core.letGo (m : BitVec 4) (x : Nat) (c : Core) (i : Nat) : Core := if bitAt m i then c.modCl i (Cluster.goOn x) else c

theorem Core.complete_eq (c : Core) (m : BitVec 4) (x : Nat) : c.complete m x = (List.range 4).foldl (Core.letGo m x) c := rfl

theorem Core.cluster_letGo (m : BitVec 4) (x : Nat) (c : Core) (i : Nat) {k : Nat} (hk : k < 4) :
    (c.letGo m x i).cluster k = if i = k ∧ m.getLsbD k = true then (c.cluster k).goOn x else c.cluster k := by
  unfold Core.letGo bitAt
  by_cases hi : i = k
  · subst hi
    by_cases hm : m.getLsbD i = true
    · rw [if_pos hm, if_pos ⟨rfl, hm⟩, Core.cluster_modCl _ _ hk]
    · rw [if_neg hm, if_neg (show ¬ (i = i ∧ m.getLsbD i = true) from fun h => hm h.2)]
  · rw [if_neg (show ¬ (i = k ∧ m.getLsbD k = true) from fun h => hi h.1)]
    split
    · exact Core.cluster_modCl_ne _ _ hi
    · rfl

theorem Core.cluster_foldl_letGo (m : BitVec 4) (x : Nat) (c : Core) {k : Nat} (hk : k < 4) (n : Nat) :
    ((List.range n).foldl (Core.letGo m x) c).cluster k = if k < n ∧ m.getLsbD k = true then (c.cluster k).goOn x else c.cluster k := by
  induction n with
  | zero => rfl
  | succ n ih =>
    rw [List.range_succ, List.foldl_append, List.foldl_cons, List.foldl_nil, Core.cluster_letGo m x _ n hk, ih]
    by_cases hn : n = k
    · subst hn
      simp
    · simp only [hn, false_and, if_false, show k < n + 1 ↔ k < n by omega]

theorem Core.cluster_complete (c : Core) (m : BitVec 4) (x : Nat) {k : Nat} (hk : k < 4) :
    (c.complete m x).cluster k = if m.getLsbD k = true then (c.cluster k).goOn x else c.cluster k := by
  rw [Core.complete_eq, Core.cluster_foldl_letGo m x c hk 4]
  simp only [hk, true_and]

/-! ## Arrival (R114; log 74) -/

/-- The wait of a context that arrives: the one it has begun, or a new one. -/
def Cluster.waitFor (c : Cluster) (m : BitVec 4) (beat : Nat) : Rdv := c.rdv.getD { mask := m, beat, since := none }

/-- A core with one of its contexts arrived. -/
def Core.arrived (c : Core) (k : Nat) (m : BitVec 4) (beat : Nat) : Core := c.modCl k fun x => { x with rdv := some (x.waitFor m beat) }

theorem Core.arriveAt_eq (c : Core) (k : Nat) (m : BitVec 4) (beat : Nat) : c.arriveAt k m beat =
    if (c.arrived k m beat).allArrived m then (c.arrived k m beat).complete m beat else c.arrived k m beat := rfl

theorem Core.cluster_arrived (c : Core) {j : Nat} (m : BitVec 4) (beat : Nat) (hj : j < 4) (k : Nat) :
    (c.arrived j m beat).cluster k = if k = j then { c.cluster j with rdv := some ((c.cluster j).waitFor m beat) } else c.cluster k := by
  unfold Core.arrived
  by_cases hk : k = j
  · subst hk
    rw [if_pos rfl, Core.cluster_modCl _ _ hj]
  · rw [if_neg hk, Core.cluster_modCl_ne _ _ (Ne.symm hk)]

/-- After an arrival a cluster waits at the mask if it did, or if it has just arrived there. -/
theorem Core.waitsAt_arrived (c : Core) {j : Nat} (m : BitVec 4) (beat : Nat) (hj : j < 4) (k : Nat) :
    (c.arrived j m beat).WaitsAt m k ↔ c.WaitsAt m k ∨ (k = j ∧ (c.cluster j).rdv = none) := by
  unfold Core.WaitsAt
  rw [Core.cluster_arrived c m beat hj]
  by_cases hk : k = j
  · subst hk
    rw [if_pos rfl]
    unfold Cluster.waitFor
    cases (c.cluster k).rdv <;> simp
  · simp [hk]

/-! ## The syllable (R164) -/

section
variable {s : State} {v : View} {h : SHead} {m : BitVec 4} (hv : s.view = some v)
include hv

theorem exec_cwait : exec (.cwait h m) s = .next (
    if !bitAt m v.cur.cl || (m &&& ~~~v.st.fp.mask) != 0 then v.raise s cIllegal
    else if !v.guard h.neg h.g || v.cur.handler then s
    else if (v.coBefore s).someHalted m || v.co.clashes v.cur.cl m then v.raise s cRdv 0 m.toNat
    else v.modCore s fun c => c.arriveAt v.cur.cl m v.cur.beat) :=
  withView_some _ hv

theorem exec_cwait_misnamed (hm : ¬ (m.getLsbD v.cur.cl = true ∧ ∀ k < 4, m.getLsbD k = true → v.st.fp.mask.getLsbD k = true)) :
    exec (.cwait h m) s = .next (v.raise s cIllegal) := by
  rw [exec_cwait hv, if_pos]
  rw [← mask_subset_iff] at hm
  simpa [bitAt, imp_iff_not_or] using hm

variable (hm : m.getLsbD v.cur.cl = true ∧ ∀ k < 4, m.getLsbD k = true → v.st.fp.mask.getLsbD k = true)
include hm

theorem exec_cwait_named : exec (.cwait h m) s = .next (
    if !v.guard h.neg h.g || v.cur.handler then s
    else if (v.coBefore s).someHalted m || v.co.clashes v.cur.cl m then v.raise s cRdv 0 m.toNat
    else v.modCore s fun c => c.arriveAt v.cur.cl m v.cur.beat) := by
  rw [exec_cwait hv, if_neg]
  rw [← mask_subset_iff] at hm
  simp [bitAt, hm]

theorem exec_cwait_idle (hg : v.guard h.neg h.g = false ∨ v.cur.handler = true) : exec (.cwait h m) s = .next s := by
  rw [exec_cwait_named hv hm, if_pos]
  simpa using hg

theorem exec_cwait_clash (hg : v.guard h.neg h.g = true) (hh : v.cur.handler = false)
    (hbad : ((v.coBefore s).someHalted m || v.co.clashes v.cur.cl m) = true) :
    exec (.cwait h m) s = .next (v.raise s cRdv 0 m.toNat) := by
  rw [exec_cwait_named hv hm, if_neg (by simp [hg, hh]), if_pos hbad]

theorem exec_cwait_arrives (hg : v.guard h.neg h.g = true) (hh : v.cur.handler = false)
    (hok : ((v.coBefore s).someHalted m || v.co.clashes v.cur.cl m) = false) :
    exec (.cwait h m) s = .next (v.modCore s fun c => c.arriveAt v.cur.cl m v.cur.beat) := by
  rw [exec_cwait_named hv hm, if_neg (by simp [hg, hh]), if_neg (by simp [hok])]

end

/-- Settles O25: the checks in their order, then the arrival, which completes the rendezvous where every cluster of the mask waits at it. -/
theorem rendezvousArrival : Obligations.RendezvousArrival := by
  intro s v h m hv hcl mine named waits others wait here
  obtain ⟨-, -, -, hvcl⟩ := State.view_eq hv
  have hothers : ((v.coBefore s).someHalted m || v.co.clashes v.cur.cl m) = false ↔ others := by
    rw [Bool.or_eq_false_iff, Core.someHalted_eq_false_iff, Core.clashes_eq_false_iff]
    exact ⟨fun hh k hk => ⟨hh.2 k hk, hh.1 k hk⟩, fun ho => ⟨fun k hk => (ho k hk).2, fun k hk => (ho k hk).1⟩⟩
  have hwait : (v.co.cluster v.cur.cl).waitFor m v.cur.beat = wait := by rw [← hvcl]; rfl
  have hhere : (v.co.arrived v.cur.cl m v.cur.beat).allArrived m = true ↔ ∀ k < 4, mine k → here k := by
    rw [Core.allArrived_iff]
    refine forall₂_congr fun k _ => imp_congr_right fun _ => ?_
    rw [Core.waitsAt_arrived _ m _ hcl, ← hvcl]
    rfl
  refine ⟨exec_cwait_misnamed hv, exec_cwait_idle hv, fun hm hg hh ho => ?_, fun hm hg hh ho =>
    ⟨_, exec_cwait_arrives hv hm hg hh (hothers.2 ho), fun hmissing k hk => ?_, fun hall k hk => ?_⟩⟩
  · exact exec_cwait_clash hv hm hg hh (by rwa [← Bool.not_eq_false, hothers])
  · have hnot : ¬ (v.co.arrived v.cur.cl m v.cur.beat).allArrived m = true := by
      rw [hhere]
      obtain ⟨j, hj, hmj, hj'⟩ := hmissing
      exact fun hall => hj' (hall j hj hmj)
    rw [Core.arriveAt_eq, if_neg hnot, Core.cluster_arrived _ m _ hcl, hwait, ← hvcl]
  · rw [Core.arriveAt_eq, if_pos (hhere.2 hall), Core.cluster_complete _ m _ hk, Core.cluster_arrived _ m _ hcl, hwait, ← hvcl]
    by_cases hkcl : k = v.cur.cl
    · subst hkcl
      rw [if_pos hm.1, if_pos rfl]
      intro c
      rw [if_pos rfl]
      rfl
    · simp only [hkcl, if_false]
      rfl

end Sys2Proof.Machine
end

section
/-! The frame of a syllable at its issue: what each kind of syllable may change (R107, R224, R239), part by part of the state. -/

namespace Sys2Proof.Machine

/-! ## What a kind of syllable may change -/

/-- What a syllable may change beyond results to land, entries of queues and causes raised: the sequence, the time for which lines that
have left still serve, trap banks, bank states, caches of instructions, caches of the stack, queues of vectors. -/
structure Grants where
  moves   : Bool
  late    : Bool
  traps   : Bool
  banks   : Bool
  caches  : Bool
  fetches : Bool
  pops    : Bool

/-- What the kind of an instruction may change. -/
def grants (i : Instr) : Grants where
  moves := match i with
    | .br .. | .call .. | .jmp .. | .ret .. | .loop .. | .loopl .. | .tret .. | .tretSkip .. => true
    | _ => false
  late := match i with
    | .jmp .. | .ret .. => true
    | _ => false
  traps := match i with
    | .halt .. | .tret .. | .tretSkip .. => true
    | _ => false
  banks := match i with
    | .acalloc .. | .acfree .. | .acown .. => true
    | _ => false
  caches := match i with
    | .ipref .. | .ipin .. | .iunpin .. | .icinv .. => true
    | _ => false
  fetches := match i with
    | .pref .. | .ipref .. | .ipin .. => true
    | _ => false
  pops := isVectorForm i

variable {g : Grants}

/-! ## Relations on what may be missing -/

theorem optionRel_refl {α : Type} {R : α → α → Prop} (hR : ∀ a, R a a) : ∀ o : Option α, Option.Rel R o o
  | none => .none
  | some a => .some (hR a)

theorem optionRel_trans {α : Type} {R : α → α → Prop} (hR : ∀ {a b c}, R a b → R b c → R a c) {a b c : Option α} (h : Option.Rel R a b)
    (h' : Option.Rel R b c) : Option.Rel R a c := by
  cases h with
  | none => exact h'
  | some hab =>
    cases h' with
    | some hbc => exact .some (hR hab hbc)

theorem optionRel_map {α : Type} {R : α → α → Prop} {f : α → α} (hf : ∀ a, R a (f a)) : ∀ o : Option α, Option.Rel R o (o.map f)
  | none => .none
  | some a => .some (hf a)

theorem optionRel_getElem? {α : Type} {R : α → α → Prop} {xs ys : List α} (h : List.Forall₂ R xs ys) :
    ∀ k : Nat, Option.Rel R xs[k]? ys[k]? := by
  induction h with
  | nil => exact fun _ => .none
  | cons hxy _ ih =>
    intro k
    cases k with
    | zero => exact .some hxy
    | succ k => exact ih k

/-! ## Contexts -/

/-- What a syllable's issue may change of a context. -/
def Cluster.IssueFrame (g : Grants) (a b : Cluster) : Prop :=
  b = { a with q := b.q, seq := b.seq, sr := b.sr, ta := b.ta, tb := b.tb, halted := b.halted, waitb := b.waitb, skip := b.skip,
               rdv := b.rdv, gaps := b.gaps, lq := b.lq, sq := b.sq, issued := b.issued, waits := b.waits, l0 := b.l0,
               gone := b.gone } ∧
  (g.moves = false → b.seq = a.seq) ∧ (g.traps = false → b.ta = a.ta ∧ b.tb = a.tb ∧ b.halted = a.halted) ∧
  (g.pops = false → b.q = a.q) ∧
  (g.caches = false → b.l0 = a.l0 ∧ b.gone.map (·.2) = a.gone.map (·.2) ∧ (g.late = false → b.gone = a.gone))

namespace Cluster.IssueFrame

theorem refl (a : Cluster) : a.IssueFrame g a :=
  ⟨rfl, fun _ => rfl, fun _ => ⟨rfl, rfl, rfl⟩, fun _ => rfl, fun _ => ⟨rfl, rfl, fun _ => rfl⟩⟩

theorem trans {a b c : Cluster} (h : a.IssueFrame g b) (h' : b.IssueFrame g c) : a.IssueFrame g c := by
  obtain ⟨hrest, hseq, hbanks, hq, hlines⟩ := h
  obtain ⟨hrest', hseq', hbanks', hq', hlines'⟩ := h'
  refine ⟨hrest'.trans (congrArg (fun x : Cluster => { x with
      q := c.q, seq := c.seq, sr := c.sr, ta := c.ta, tb := c.tb, halted := c.halted, waitb := c.waitb, skip := c.skip, rdv := c.rdv,
      gaps := c.gaps, lq := c.lq, sq := c.sq, issued := c.issued, waits := c.waits, l0 := c.l0, gone := c.gone }) hrest),
    fun hg => (hseq' hg).trans (hseq hg), fun hg => ?_, fun hg => (hq' hg).trans (hq hg), fun hg => ?_⟩
  · obtain ⟨hta, htb, hhalted⟩ := hbanks hg
    obtain ⟨hta', htb', hhalted'⟩ := hbanks' hg
    exact ⟨hta'.trans hta, htb'.trans htb, hhalted'.trans hhalted⟩
  · obtain ⟨hl0, hlate, hgone⟩ := hlines hg
    obtain ⟨hl0', hlate', hgone'⟩ := hlines' hg
    exact ⟨hl0'.trans hl0, hlate'.trans hlate, fun hn => (hgone' hn).trans (hgone hn)⟩

/-- Fields that any syllable may change. -/
theorem free (a : Cluster) {sr : W32} {waitb skip : Nat} {rdv : Option Rdv} {gaps : List (Nat × Nat)} {lq sq : ElQueue} {issued : Nat}
    {waits : List Wait} : a.IssueFrame g { a with sr, waitb, skip, rdv, gaps, lq, sq, issued, waits } :=
  ⟨rfl, fun _ => rfl, fun _ => ⟨rfl, rfl, rfl⟩, fun _ => rfl, fun _ => ⟨rfl, rfl, fun _ => rfl⟩⟩

theorem seq (hg : g.moves = true) (a : Cluster) {q : Seq} : a.IssueFrame g { a with seq := q } :=
  ⟨rfl, fun h => absurd h (ne_false_of_eq_true hg), fun _ => ⟨rfl, rfl, rfl⟩, fun _ => rfl, fun _ => ⟨rfl, rfl, fun _ => rfl⟩⟩

theorem banks (hg : g.traps = true) (a : Cluster) {ta tb : Bank} {halted : Bool} : a.IssueFrame g { a with ta, tb, halted } :=
  ⟨rfl, fun _ => rfl, fun h => absurd h (ne_false_of_eq_true hg), fun _ => rfl, fun _ => ⟨rfl, rfl, fun _ => rfl⟩⟩

theorem returned (hm : g.moves = true) (ht : g.traps = true) (a : Cluster) {seq : Seq} {ta tb : Bank} {halted : Bool} {skip : Nat} :
    a.IssueFrame g { a with seq, ta, tb, halted, skip } :=
  ⟨rfl, fun h => absurd h (ne_false_of_eq_true hm), fun h => absurd h (ne_false_of_eq_true ht), fun _ => rfl,
    fun _ => ⟨rfl, rfl, fun _ => rfl⟩⟩

theorem queues (hg : g.pops = true) (a : Cluster) {q : Vector (List Lanes) 4} : a.IssueFrame g { a with q } :=
  ⟨rfl, fun _ => rfl, fun _ => ⟨rfl, rfl, rfl⟩, fun h => absurd h (ne_false_of_eq_true hg), fun _ => ⟨rfl, rfl, fun _ => rfl⟩⟩

/-- How long lines that have left still serve. -/
theorem served (hg : g.late = true) (a : Cluster) {f : Nat × Line → Nat} : a.IssueFrame g { a with gone := a.gone.map fun e => (f e, e.2) } :=
  ⟨rfl, fun _ => rfl, fun _ => ⟨rfl, rfl, rfl⟩, fun _ => rfl,
    fun _ => ⟨rfl, by rw [List.map_map]; rfl, fun h => absurd h (ne_false_of_eq_true hg)⟩⟩

theorem recached (hg : g.caches = true) {a b : Cluster} (h : a.Recached b) : a.IssueFrame g b := by
  unfold Cluster.Recached at h
  rw [h]
  exact ⟨rfl, fun _ => rfl, fun _ => ⟨rfl, rfl, rfl⟩, fun _ => rfl, fun h => absurd h (ne_false_of_eq_true hg)⟩

end Cluster.IssueFrame

/-! ## Engines and cores -/

/-- What a syllable's issue may change of an engine: its queue. -/
def Engine.IssueFrame (a b : Engine) : Prop := b = { a with q := b.q, next := b.next, last := b.last }

theorem Engine.IssueFrame.refl (a : Engine) : a.IssueFrame a := rfl

theorem Engine.IssueFrame.trans {a b c : Engine} (h : a.IssueFrame b) (h' : b.IssueFrame c) : a.IssueFrame c :=
  Eq.trans h' (congrArg (fun x : Engine => { x with q := c.q, next := c.next, last := c.last }) h)

/-- Every effect that was to land still is, and each new one is to land later than a beat. -/
def LandsLater (x : Nat) (a b : List Timed) : Prop := ∃ new, List.Perm b (new ++ a) ∧ ∀ e ∈ new, x < e.beat

theorem LandsLater.refl (x : Nat) (a : List Timed) : LandsLater x a a := ⟨[], .refl a, fun _ h => nomatch h⟩

theorem LandsLater.trans {x : Nat} {a b c : List Timed} (h : LandsLater x a b) (h' : LandsLater x b c) : LandsLater x a c := by
  obtain ⟨new, hperm, hnew⟩ := h
  obtain ⟨new', hperm', hnew'⟩ := h'
  refine ⟨new' ++ new, ?_, List.forall_mem_append.2 ⟨hnew', hnew⟩⟩
  rw [List.append_assoc]
  exact hperm'.trans (hperm.append_left new')

theorem landsLater_insertTimed {x : Nat} {e : Timed} (h : x < e.beat) (a : List Timed) : LandsLater x a (insertTimed e a) :=
  ⟨[e], insertTimed_perm e a, List.forall_mem_singleton.2 h⟩

/-- What a syllable's issue at beat `x` may change of a core. -/
def Core.IssueFrame (g : Grants) (x : Nat) (a b : Core) : Prop :=
  b = { a with cl := b.cl, agenda := b.agenda, banks := b.banks, pending := b.pending, l1 := b.l1, me := b.me, te := b.te, re := b.re,
               bte := b.bte } ∧
  (∀ k, (a.cluster k).IssueFrame g (b.cluster k)) ∧ a.me.IssueFrame b.me ∧ a.te.IssueFrame b.te ∧ a.re.IssueFrame b.re ∧
  a.bte.IssueFrame b.bte ∧ (g.banks = false → b.banks = a.banks) ∧ (g.caches = false → b.l1 = a.l1) ∧ LandsLater x a.agenda b.agenda

namespace Core.IssueFrame

variable {x : Nat}

theorem refl (a : Core) : a.IssueFrame g x a :=
  ⟨rfl, fun _ => .refl _, .refl _, .refl _, .refl _, .refl _, fun _ => rfl, fun _ => rfl, .refl _ _⟩

theorem trans {a b c : Core} (h : a.IssueFrame g x b) (h' : b.IssueFrame g x c) : a.IssueFrame g x c := by
  obtain ⟨hrest, hcl, hme, hte, hre, hbte, hbanks, hl1, hagenda⟩ := h
  obtain ⟨hrest', hcl', hme', hte', hre', hbte', hbanks', hl1', hagenda'⟩ := h'
  exact ⟨hrest'.trans (congrArg (fun x : Core => { x with
      cl := c.cl, agenda := c.agenda, banks := c.banks, pending := c.pending, l1 := c.l1, me := c.me, te := c.te, re := c.re,
      bte := c.bte }) hrest),
    fun k => (hcl k).trans (hcl' k), hme.trans hme', hte.trans hte', hre.trans hre', hbte.trans hbte',
    fun hg => (hbanks' hg).trans (hbanks hg), fun hg => (hl1' hg).trans (hl1 hg), hagenda.trans hagenda'⟩

theorem clusters {a : Core} {cl : Vector Cluster 4} (h : ∀ k, (a.cluster k).IssueFrame g (vget cl k Cluster.zero)) :
    a.IssueFrame g x { a with cl } :=
  ⟨rfl, h, .refl _, .refl _, .refl _, .refl _, fun _ => rfl, fun _ => rfl, .refl _ _⟩

theorem modCl (a : Core) (j : Nat) {f : Cluster → Cluster} (hf : ∀ c : Cluster, c.IssueFrame g (f c)) : a.IssueFrame g x (a.modCl j f) := by
  refine clusters fun k => ?_
  rw [vget_vset]
  split
  · next h => exact h.1 ▸ hf _
  · exact .refl _

theorem sched (a : Core) {beat : Nat} (h : x < beat) {ord : Nat} {act : Act} : a.IssueFrame g x (a.sched beat ord act) :=
  ⟨rfl, fun _ => .refl _, .refl _, .refl _, .refl _, .refl _, fun _ => rfl, fun _ => rfl, landsLater_insertTimed h _⟩

theorem pending (a : Core) {ps : List Pending} : a.IssueFrame g x { a with pending := ps } :=
  ⟨rfl, fun _ => .refl _, .refl _, .refl _, .refl _, .refl _, fun _ => rfl, fun _ => rfl, .refl _ _⟩

theorem banks (hg : g.banks = true) (a : Core) {bs : Vector AccBank 32} : a.IssueFrame g x { a with banks := bs } :=
  ⟨rfl, fun _ => .refl _, .refl _, .refl _, .refl _, .refl _, fun h => absurd h (ne_false_of_eq_true hg), fun _ => rfl, .refl _ _⟩

theorem modEng (a : Core) (u : Unit') {f : Engine → Engine} (hf : ∀ e : Engine, e.IssueFrame (f e)) : a.IssueFrame g x (a.modEng u f) := by
  cases u
  · exact ⟨rfl, fun _ => .refl _, hf _, .refl _, .refl _, .refl _, fun _ => rfl, fun _ => rfl, .refl _ _⟩
  · exact ⟨rfl, fun _ => .refl _, .refl _, hf _, .refl _, .refl _, fun _ => rfl, fun _ => rfl, .refl _ _⟩
  · exact ⟨rfl, fun _ => .refl _, .refl _, .refl _, hf _, .refl _, fun _ => rfl, fun _ => rfl, .refl _ _⟩
  · exact ⟨rfl, fun _ => .refl _, .refl _, .refl _, .refl _, hf _, fun _ => rfl, fun _ => rfl, .refl _ _⟩

theorem foldl {α : Type} {f : Core → α → Core} (hf : ∀ (c : Core) i, c.IssueFrame g x (f c i)) (is : List α) (a : Core) :
    a.IssueFrame g x (is.foldl f a) := by
  induction is generalizing a with
  | nil => exact refl a
  | cons i is ih => exact (hf a i).trans (ih _)

theorem recached (hg : g.caches = true) {a b : Core} (h : a.Recached b) : a.IssueFrame g x b := by
  obtain ⟨hrest, hcl⟩ := h
  have hcluster (k : Nat) : (a.cluster k).IssueFrame g (b.cluster k) := by
    by_cases hk : k < 4
    · exact .recached hg (hcl k hk)
    · simp only [Core.cluster, vget, hk, dif_neg, not_false_iff]
      exact .refl _
  rw [hrest] at hcluster ⊢
  exact ⟨rfl, hcluster, .refl _, .refl _, .refl _, .refl _, fun _ => rfl, fun h => absurd h (ne_false_of_eq_true hg), .refl _ _⟩

end Core.IssueFrame

/-! ## Strands -/

/-- What a syllable's issue may change of logical core `k`: the issuing core, or any where it may change caches of instructions. -/
def Core.IssueFrameAt (g : Grants) (c : Cur) (k : Nat) (a b : Core) : Prop :=
  if k = c.core ∨ g.caches = true then a.IssueFrame g c.beat b else b = a

variable {c : Cur}

theorem Core.IssueFrameAt.refl (k : Nat) (a : Core) : a.IssueFrameAt g c k a := by
  unfold Core.IssueFrameAt
  split
  · exact .refl a
  · rfl

theorem Core.IssueFrameAt.trans {k : Nat} {a b d : Core} (h : a.IssueFrameAt g c k b) (h' : b.IssueFrameAt g c k d) :
    a.IssueFrameAt g c k d := by
  unfold Core.IssueFrameAt at *
  split at h
  · next hk =>
    rw [if_pos hk] at h' ⊢
    exact h.trans h'
  · next hk =>
    rw [if_neg hk] at h' ⊢
    exact h'.trans h

/-- What a syllable's issue may change of its strand. -/
def Strand.IssueFrame (g : Grants) (c : Cur) (x y : Strand) : Prop :=
  y = { x with cores := y.cores, raised := y.raised, decl := y.decl, region := y.region, molt := y.molt, icinvs := y.icinvs } ∧
  (g.caches = false → y.icinvs = x.icinvs) ∧ (∃ new, y.raised = x.raised ++ new) ∧
  ∀ k, Option.Rel (Core.IssueFrameAt g c k) x.cores[k]? y.cores[k]?

namespace Strand.IssueFrame

theorem refl (x : Strand) : x.IssueFrame g c x :=
  ⟨rfl, fun _ => rfl, ⟨[], (List.append_nil _).symm⟩, fun k => optionRel_refl (Core.IssueFrameAt.refl k) _⟩

theorem trans {x y z : Strand} (h : x.IssueFrame g c y) (h' : y.IssueFrame g c z) : x.IssueFrame g c z := by
  obtain ⟨hrest, hic, ⟨new, hraised⟩, hcores⟩ := h
  obtain ⟨hrest', hic', ⟨new', hraised'⟩, hcores'⟩ := h'
  refine ⟨hrest'.trans (congrArg (fun x : Strand => { x with
      cores := z.cores, raised := z.raised, decl := z.decl, region := z.region, molt := z.molt, icinvs := z.icinvs }) hrest),
    fun hg => (hic' hg).trans (hic hg), ⟨new ++ new', ?_⟩, fun k =>
      optionRel_trans (R := Core.IssueFrameAt g c k) Core.IssueFrameAt.trans (hcores k) (hcores' k)⟩
  rw [hraised', hraised, List.append_assoc]

theorem sid {x y : Strand} (h : x.IssueFrame g c y) : y.sid = x.sid := by rw [h.1]

/-- Fields that any syllable may change. -/
theorem free (x : Strand) {decl : Option Declaration} {region : Region} {molt : Option MoltReq} :
    x.IssueFrame g c { x with decl, region, molt } :=
  ⟨rfl, fun _ => rfl, ⟨[], (List.append_nil _).symm⟩, fun k => optionRel_refl (Core.IssueFrameAt.refl k) _⟩

theorem raise (x : Strand) {e : Cause} : x.IssueFrame g c (x.raise e) :=
  ⟨rfl, fun _ => rfl, ⟨[_], rfl⟩, fun k => optionRel_refl (Core.IssueFrameAt.refl k) _⟩

theorem cores {x : Strand} {cs : List Core} (h : ∀ k : Nat, Option.Rel (Core.IssueFrameAt g c k) x.cores[k]? cs[k]?) :
    x.IssueFrame g c { x with cores := cs } :=
  ⟨rfl, fun _ => rfl, ⟨[], (List.append_nil _).symm⟩, h⟩

theorem icinvs (hg : g.caches = true) (x : Strand) {is : List (Nat × Nat × Nat)} : x.IssueFrame g c { x with icinvs := is } :=
  ⟨rfl, fun h => absurd h (ne_false_of_eq_true hg), ⟨[], (List.append_nil _).symm⟩, fun k => optionRel_refl (Core.IssueFrameAt.refl k) _⟩

theorem modCore (x : Strand) {f : Core → Core} (hf : ∀ a : Core, a.IssueFrame g c.beat (f a)) : x.IssueFrame g c (x.modCore c.core f) := by
  refine cores fun k => ?_
  rw [List.getElem?_modify]
  refine optionRel_map (fun a => ?_) _
  split
  · next hk =>
    subst hk
    exact (if_pos (.inl rfl)).mpr (hf a)
  · exact .refl k a

theorem recached (hg : g.caches = true) {x : Strand} {cs : List Core} (h : List.Forall₂ Core.Recached x.cores cs) :
    x.IssueFrame g c { x with cores := cs } := by
  refine cores fun k => optionRel_getElem? (h.imp fun a b hab => ?_) k
  exact (if_pos (.inr hg)).mpr (.recached hg hab)

end Strand.IssueFrame

/-- What a syllable's issue may change of a strand: of another strand nothing. -/
def Strand.IssueFrameAt (g : Grants) (c : Cur) (x y : Strand) : Prop := if x.sid = c.sid then x.IssueFrame g c y else y = x

theorem Strand.IssueFrameAt.refl (x : Strand) : x.IssueFrameAt g c x := by
  unfold Strand.IssueFrameAt
  split
  · exact .refl x
  · rfl

theorem Strand.IssueFrameAt.trans {x y z : Strand} (h : x.IssueFrameAt g c y) (h' : y.IssueFrameAt g c z) : x.IssueFrameAt g c z := by
  unfold Strand.IssueFrameAt at *
  split at h
  · next hx =>
    rw [if_pos (h.sid.trans hx)] at h'
    rw [if_pos hx]
    exact h.trans h'
  · next hx =>
    subst h
    exact h'

/-! ## The state -/

/-- What a syllable's issue in a context may change of the state. -/
structure State.IssueFrame (g : Grants) (c : Cur) (s t : State) : Prop where
  bytes : ∀ p b, t.busByte p b = s.busByte p b
  rest : t = { s with strands := t.strands, cur := t.cur, stks := t.stks, tasks := t.tasks }
  fetched : g.fetches = false → t.stks = s.stks ∧ t.tasks = s.tasks
  strands : List.Forall₂ (Strand.IssueFrameAt g c) s.strands t.strands

namespace State.IssueFrame

theorem strands_refl (s : State) : List.Forall₂ (Strand.IssueFrameAt g c) s.strands s.strands :=
  List.forall₂_same.2 fun x _ => .refl x

theorem refl (s : State) : s.IssueFrame g c s := ⟨fun _ _ => rfl, rfl, fun _ => ⟨rfl, rfl⟩, strands_refl s⟩

theorem trans {s t u : State} (h : s.IssueFrame g c t) (h' : t.IssueFrame g c u) : s.IssueFrame g c u where
  bytes p b := (h'.bytes p b).trans (h.bytes p b)
  rest := h'.rest.trans (congrArg (fun x : State => { x with strands := u.strands, cur := u.cur, stks := u.stks, tasks := u.tasks }) h.rest)
  fetched hg := ⟨(h'.fetched hg).1.trans (h.fetched hg).1, (h'.fetched hg).2.trans (h.fetched hg).2⟩
  strands := forall₂_trans (R := Strand.IssueFrameAt g c) Strand.IssueFrameAt.trans h.strands h'.strands

theorem modStrand (s : State) {f : Strand → Strand} (hf : ∀ x : Strand, x.IssueFrame g c (f x)) : s.IssueFrame g c (s.modStrand c.sid f) := by
  refine ⟨fun _ _ => rfl, rfl, fun _ => ⟨rfl, rfl⟩, forall₂_map_self (fun x => ?_) _⟩
  unfold Strand.IssueFrameAt
  by_cases hx : x.sid = c.sid
  · rw [if_pos hx, if_pos (beq_iff_eq.2 hx)]
    exact hf x
  · rw [if_neg hx, if_neg (mt beq_iff_eq.1 hx)]

theorem cur (s : State) {d : Option Cur} : s.IssueFrame g c { s with cur := d } := ⟨fun _ _ => rfl, rfl, fun _ => ⟨rfl, rfl⟩, strands_refl s⟩

theorem cacheLine (hg : g.fetches = true) (s : State) {k p b : Nat} : s.IssueFrame g c (s.cacheLine k p b) := by
  unfold State.cacheLine
  split
  · exact refl s
  · exact ⟨fun _ _ => rfl, rfl, fun h => absurd h (ne_false_of_eq_true hg), strands_refl s⟩

theorem of_fetched (hc : g.caches = true) (hf : g.fetches = true) {s t : State} (h : s.Fetched c.sid t) : s.IssueFrame g c t where
  bytes p b := by rw [h.rest]; rfl
  rest := h.rest.trans (by rw [h.rest])
  fetched h := absurd h (ne_false_of_eq_true hf)
  strands := by
    refine h.strands.imp fun x y hxy => ?_
    unfold Strand.RecachedAt at hxy
    unfold Strand.IssueFrameAt
    split at hxy
    · next hx =>
      rw [if_pos hx, hxy.1]
      exact .recached hc hxy.2
    · next hx => rwa [if_neg hx]

theorem foldl {α : Type} {f : State → α → State} (hf : ∀ (s : State) a, s.IssueFrame g c (f s a)) (as : List α) (s : State) :
    s.IssueFrame g c (as.foldl f s) := by
  induction as generalizing s with
  | nil => exact refl s
  | cons a as ih => exact (hf s a).trans (ih _)

end State.IssueFrame

end Sys2Proof.Machine
end

section
/-! The frame of the operations that syllables are made of (R107, R224, R239). -/

namespace Sys2Proof.Machine

variable {g : Grants}

/-- A context that leaves its innermost trap bank. -/
theorem Cluster.frame_releaseBank (hm : g.moves = true) (ht : g.traps = true) (c : Cluster) {n : Nat} :
    c.IssueFrame g (releaseBank c n) := by
  unfold releaseBank
  split
  · exact .refl c
  · dsimp only
    split
    · exact .returned hm ht c
    · exact .returned hm ht c

theorem Core.recached_repartition (c : Core) (cl upto lvl : Nat) (f : Nat → List Line → List Line) : c.Recached (c.repartition cl upto lvl f) := by
  unfold Core.repartition
  split
  · exact c.recached_modCl _ fun _ => rfl
  · exact c.recached_l1 _

theorem Core.recached_invalidated (c : Core) (upto a n : Nat) : c.Recached (c.invalidated upto a n) := by
  have hsteps (ks : List Nat) (d : Core) : d.Recached (ks.foldl (fun c k => c.modCl k fun x => x.setL0 upto (keepLines a n x.l0)) d) := by
    induction ks generalizing d with
    | nil => exact .refl d
    | cons k ks ih => exact (d.recached_modCl k (f := fun x => x.setL0 upto (keepLines a n x.l0)) fun _ => rfl).trans (ih _)
  exact (c.recached_l1 _).trans (hsteps _ _)

theorem Strand.frame_invalidate {c : Cur} (hg : g.caches = true) (x : Strand) {upto a n : Nat} : x.IssueFrame g c (x.invalidate upto a n) := by
  rw [Strand.invalidate_eq]
  exact .recached hg (forall₂_map_self (fun d => d.recached_invalidated upto a n) _)

/-! ## The issuing strand, core and context -/

namespace View

variable (v : View) (s : State)

theorem frame_raise {code : Nat} {addr : W64} {detail : Nat} : s.IssueFrame g v.cur (v.raise s code addr detail) :=
  .modStrand s fun x => .raise x

theorem frame_modCore {f : Core → Core} (hf : ∀ c : Core, c.IssueFrame g v.cur.beat (f c)) : s.IssueFrame g v.cur (v.modCore s f) :=
  .modStrand s fun x => .modCore x hf

theorem frame_modCl {f : Cluster → Cluster} (hf : ∀ c : Cluster, c.IssueFrame g (f c)) : s.IssueFrame g v.cur (v.modCl s f) :=
  v.frame_modCore s fun c => .modCl c _ hf

theorem frame_land {lat : Nat} (h : 0 < lat) {slot : Nat} {a : Act} : s.IssueFrame g v.cur (v.land s lat slot a) :=
  v.frame_modCore s fun c => .sched c (Nat.lt_add_of_pos_right h)

theorem frame_store {lat : Nat} (h : 0 < lat) {a : Act} : s.IssueFrame g v.cur (v.store s lat a) :=
  v.frame_modCore s fun c => .sched c (Nat.lt_add_of_pos_right h)

/-! ## Scalar and vector results (R150, R165) -/

theorem frame_landS {lat : Nat} (h : 0 < lat) {d : Reg} {x : W64} : s.IssueFrame g v.cur (v.landS s lat d x) := v.frame_land s h

theorem frame_landP {d : PReg} {x : W64} : s.IssueFrame g v.cur (v.landP s d x) := v.frame_land s Nat.one_pos

theorem frame_lea {d : Reg} {x : W64} : s.IssueFrame g v.cur (v.lea s d x) := by
  unfold View.lea
  split
  · exact v.frame_landS s Nat.one_pos
  · exact v.frame_raise s

theorem frame_landV {lat : Nat} (h : 0 < lat) {hd : Head} {d : VDst} {x : Lanes} : s.IssueFrame g v.cur (v.landV s lat hd d x) :=
  v.frame_land s h

theorem frame_landCmp {lat : Nat} (h : 0 < lat) {hd : Head} {d : PReg} {f : W32 → W32 → Bool} {a b : Lanes} :
    s.IssueFrame g v.cur (v.landCmp s lat hd d f a b) :=
  (v.frame_land s Nat.one_pos).trans (v.frame_land _ h)

theorem frame_keepSr {rnd : Nat} : s.IssueFrame g v.cur (v.keepSr s rnd) := v.frame_modCl s fun c => .free c

theorem frame_pop (hg : g.pops = true) {as : List VSrc} : s.IssueFrame g v.cur (v.modCl s fun c => c.pop as) :=
  v.frame_modCl s fun c => c.pop_frame as ▸ .queues hg c

/-! ## Sequences (R89, R111) -/

theorem frame_goto (hg : g.moves = true) {q : Seq} : s.IssueFrame g v.cur (v.goto s q) :=
  (v.frame_modCl s fun c => .seq hg c).trans (.cur _)

theorem frame_transfer (hg : g.moves = true) {h : SHead} {tgt : Nat} {exits : Bool} {f : State → State}
    (hf : ∀ t : State, t.IssueFrame g v.cur (f t)) : s.IssueFrame g v.cur (v.transfer s h tgt exits f) := by
  unfold View.transfer
  split
  · exact v.frame_raise s
  · split
    · exact (v.frame_goto s hg).trans (hf _)
    · exact v.frame_goto s hg

theorem frame_lookLate (hg : g.late = true) : s.IssueFrame g v.cur (v.lookLate s) := by
  unfold View.lookLate
  split
  · exact .refl s
  · exact v.frame_modCl s fun c => .served hg c

theorem frame_loop (hg : g.moves = true) {h : SHead} {ctr count stop : Nat} : s.IssueFrame g v.cur (v.loop s h ctr count stop) := by
  unfold View.loop
  dsimp only
  split
  · exact v.frame_raise s
  · exact v.frame_goto s hg

theorem frame_tret (hm : g.moves = true) (ht : g.traps = true) {h : Head} {n : Nat} : s.IssueFrame g v.cur (v.tret s h n) := by
  unfold View.tret
  split
  · exact v.frame_raise s
  · dsimp only
    split_ifs
    · exact v.frame_raise s
    · exact .refl s
    · exact v.frame_raise s
    · exact (v.frame_modCl s fun c => c.frame_releaseBank hm ht).trans (.cur _)

/-! ## Register file and scratchpad (R106, R132, R217) -/

theorem frame_draw {q : BitVec 2} {p dir k : Nat} : s.IssueFrame g v.cur (v.draw s q p dir k) := by
  unfold View.draw
  dsimp only
  split
  · exact v.frame_raise s
  · split
    · exact v.frame_raise s
    · exact v.frame_land s (Nat.succ_pos _)

theorem frame_put {p dir k : Nat} {x : Lanes} : s.IssueFrame g v.cur (v.put s p dir k x) := v.frame_store s (Nat.succ_pos _)

theorem frame_claim {lat a rd wr : Nat} : s.IssueFrame g v.cur (v.claim s lat a rd wr) := v.frame_modCore s fun c => .pending c

theorem frame_onSpad {a : W64} {n : Nat} {f : Nat → State} (hf : ∀ x, s.IssueFrame g v.cur (f x)) : s.IssueFrame g v.cur (v.onSpad s a n f) := by
  unfold View.onSpad
  split
  · exact v.frame_raise s
  · exact hf _

theorem frame_spadLoad {a : W64} {n : Nat} {tag : Option Byte} {act : List Byte → Act} :
    s.IssueFrame g v.cur (v.spadLoad s a n tag act) := by
  refine v.frame_onSpad s fun x => ?_
  split
  · exact v.frame_raise s
  · split
    · exact (v.frame_claim s).trans (v.frame_raise _)
    · exact (v.frame_claim s).trans (v.frame_land _ (Nat.succ_pos _))

theorem frame_spadStore {a : W64} {bs : List Byte} {tag : Option Byte} : s.IssueFrame g v.cur (v.spadStore s a bs tag) := by
  refine v.frame_onSpad s fun x => ?_
  have hstore := (v.frame_claim (g := g) s (lat := 4) (a := x) (rd := 0) (wr := bs.length)).trans
    (v.frame_store _ (Nat.succ_pos 3) (a := .spad x bs []))
  cases tag with
  | none => exact hstore
  | some t => exact hstore.trans (v.frame_store _ (Nat.succ_pos _))

/-! ## Accumulator rows (R135, R136) -/

theorem frame_onBank {b : W64} {f : Nat → State} (hf : ∀ k, s.IssueFrame g v.cur (f k)) : s.IssueFrame g v.cur (v.onBank s b f) := by
  unfold View.onBank
  split
  · exact v.frame_raise s
  · exact hf _

theorem frame_onRow {mode : BankMode} {b r : W64} {f : Nat → Nat → State} (hf : ∀ k i, s.IssueFrame g v.cur (f k i)) :
    s.IssueFrame g v.cur (v.onRow s mode b r f) := by
  refine v.frame_onBank s fun k => ?_
  split_ifs
  · exact v.frame_raise s
  · exact v.frame_raise s
  · exact v.frame_raise s
  · exact hf _ _

/-! ## Elastic entries and waits (R68, R214, R224) -/

theorem frame_onMem {a : W64} {align : Nat} {t : State} (ht : s.IssueFrame g v.cur t) : s.IssueFrame g v.cur (v.onMem s a align t) := by
  unfold View.onMem
  split
  · exact v.frame_raise s
  · exact ht

theorem frame_elastic {useLq useSq : Bool} {op : ElOp} : s.IssueFrame g v.cur (v.elastic s useLq useSq op) := by
  unfold View.elastic
  split
  · exact v.frame_raise s
  · exact v.frame_modCl s fun c => .free c

theorem frame_atomic {op : AtomicOp} {d a b : Reg} {m : BitVec 2} : s.IssueFrame g v.cur (v.atomic s op d a b m) :=
  v.frame_onMem s (v.frame_elastic s)

theorem frame_wait {k : WaitKind} : s.IssueFrame g v.cur (v.wait s k) := v.frame_modCl s fun c => .free c

/-! ## Commands (R141, R185) -/

theorem frame_enter {u : Unit'} {ins : Instr} {st : Stamp} {val : W64} {fmt : Nat} : s.IssueFrame g v.cur (v.enter s u ins st val fmt) :=
  v.frame_modCore s fun c => .modEng c u fun _ => rfl

theorem frame_enqueue {u : Unit'} {ins : Instr} {st : Stamp} {val : W64} {fmt : Nat} :
    s.IssueFrame g v.cur (v.enqueue s u ins st val fmt) := by
  unfold View.enqueue
  split
  · exact v.frame_raise s
  · exact v.frame_enter s

/-! ## Pacing (R245 to R247) -/

theorem frame_modRegion {f : Region → Region} : s.IssueFrame g v.cur (v.modRegion s f) := .modStrand s fun x => .free x

/-! ## Rendezvous (R114) -/

theorem frame_arriveAt {m : BitVec 4} : s.IssueFrame g v.cur (v.modCore s fun c => c.arriveAt v.cur.cl m v.cur.beat) := by
  refine v.frame_modCore s fun c => ?_
  have harrived : c.IssueFrame g v.cur.beat (c.arrived v.cur.cl m v.cur.beat) := .modCl c _ fun x => .free x
  rw [Core.arriveAt_eq]
  split
  · refine harrived.trans ?_
    rw [Core.complete_eq]
    refine .foldl (fun c i => ?_) _ _
    unfold Core.letGo
    split
    · exact .modCl c _ fun x => .free x
    · exact .refl c
  · exact harrived

/-! ## Caches of instructions (R91 to R95) -/

theorem frame_modCache (hg : g.caches = true) {lvl : Nat} {f : Nat → List Line → List Line} :
    s.IssueFrame g v.cur (v.modCache s lvl f) := by
  rw [View.modCache_eq]
  exact .modStrand s fun x => .modCore x fun c => .recached hg (c.recached_repartition _ _ _ _)

theorem frame_fetchInto (hc : g.caches = true) (hf : g.fetches = true) {lvl n : Nat} : s.IssueFrame g v.cur (v.fetchInto s lvl n) :=
  .of_fetched hc hf (v.fetched_fetchInto s lvl n)

theorem frame_pinInto (hc : g.caches = true) (hf : g.fetches = true) {lvl n : Nat} : s.IssueFrame g v.cur (v.pinInto s lvl n) :=
  .of_fetched hc hf (v.fetched_pinInto s lvl n)

end View
end Sys2Proof.Machine
end

section
/-! The frame of every syllable at its issue (R107, R224, R239). -/

namespace Sys2Proof.Machine

variable {g : Grants} {s : State}

/-- What a syllable answers is framed by what its kind may change. -/
def Issued (g : Grants) (s : State) (o : Host.Outcome State Fault Refusal) : Prop :=
  ∀ v t, s.view = some v → o = .next t → s.IssueFrame g v.cur t

/-! ## Syllables under their guard and checks (R78, R81, R105, R185) -/

namespace Issued

theorem withView {f : View → State} (hf : ∀ v : View, s.IssueFrame g v.cur (f v)) : Issued g s (withView s f) := by
  intro v t hv ht
  obtain ⟨w, hw, rfl⟩ := withView_next ht
  obtain rfl := Option.some.inj (hv.symm.trans hw)
  exact hf v

/-- A syllable whose effect a check of its own may hold off. -/
theorem guarded {v : View} {b : Bool} {t : State} (ht : s.IssueFrame g v.cur t) : s.IssueFrame g v.cur (if b then t else s) := by
  split
  · exact ht
  · exact .refl s

theorem onS {h : SHead} {f : View → State} (hf : ∀ v : View, s.IssueFrame g v.cur (f v)) : Issued g s (onS h s f) :=
  withView fun v => guarded (hf v)

theorem onMX {h : Head} {f : View → State} (hf : ∀ v : View, s.IssueFrame g v.cur (f v)) : Issued g s (onMX h s f) :=
  withView fun v => guarded (hf v)

theorem onPlane {h : Head} {p : BitVec 5} {f : View → State} (hf : ∀ v : View, s.IssueFrame g v.cur (f v)) : Issued g s (onPlane h p s f) := by
  refine withView fun v => ?_
  split
  · exact v.frame_raise s
  · exact guarded (hf v)

theorem onEng {h : Head} {u : Unit'} {f : View → State} (hf : ∀ v : View, s.IssueFrame g v.cur (f v)) : Issued g s (onEng h u s f) := by
  refine withView fun v => ?_
  split
  · exact v.frame_raise s
  · exact guarded (hf v)

theorem onV (hg : g.pops = true) {lvl : Nat} {as : List VSrc} {f : View → State → State} (hf : ∀ (v : View) (t : State), t.IssueFrame g v.cur (f v t)) :
    Issued g s (onV lvl as s f) := by
  refine withView fun v => ?_
  split_ifs
  · exact v.frame_raise s
  · exact v.frame_raise s
  · exact (v.frame_pop s hg).trans (hf v _)

end Issued

/-! ## The syllables with checks of their own -/

theorem issued_halt (hg : g.traps = true) {h : SHead} : Issued g s (execHalt h s) := by
  refine .withView fun v => ?_
  split
  · exact v.frame_raise s
  · exact Issued.guarded (v.frame_modCl s fun c => .banks hg c)

theorem issued_cwait {h : SHead} {m : BitVec 4} : Issued g s (execCwait h m s) := by
  refine .withView fun v => ?_
  split_ifs
  · exact v.frame_raise s
  · exact .refl s
  · exact v.frame_raise s
  · exact v.frame_arriveAt s

theorem issued_mfs {h : SHead} {r : Reg} {code : BitVec 10} : Issued g s (execMfs h r code s) := by
  refine .onS fun v => ?_
  split
  · exact v.frame_land s Nat.one_pos
  · exact v.frame_landS s Nat.one_pos

theorem issued_vcvtt (hg : g.pops = true) {h : Head} {d : VDst} {a : VSrc} : Issued g s (execVcvtt h d a s) := by
  refine .withView fun v => ?_
  dsimp only
  split_ifs
  · exact v.frame_raise s
  · exact v.frame_raise s
  · exact v.frame_raise s
  · exact ((v.frame_pop s hg).trans (v.frame_keepSr _)).trans (v.frame_landV _ (Nat.succ_pos _))

theorem issued_teval (hg : g.pops = true) {h : Head} {d : VDst} {a : VSrc} {k : BitVec 2} : Issued g s (execTeval h d a k s) := by
  refine .withView fun v => ?_
  split_ifs
  · exact v.frame_raise s
  · exact v.frame_raise s
  · exact v.frame_raise s
  · exact (v.frame_pop s hg).trans (v.frame_land _ (Nat.succ_pos _))

theorem issued_ecopy {h : Head} {d a b : Reg} {m : BitVec 2} : Issued g s (execEcopy h d a b m s) := by
  refine .onMX fun v => ?_
  dsimp only
  split_ifs
  iterate 6 exact v.frame_raise s
  exact v.frame_elastic s

/-- LQWAIT and SQWAIT: a wait, unless its condition holds. -/
theorem issued_queueWait {h : Head} (held : View → Nat) {n : Nat} {k : WaitKind} :
    Issued g s (onMX h s fun v => if held v ≤ n then s else v.wait s k) := by
  refine .onMX fun v => ?_
  split
  · exact .refl s
  · exact v.frame_wait s

theorem issued_pref (hg : g.fetches = true) {h : Head} {a b : Reg} : Issued g s (execPref h a b s) := by
  refine .onMX fun v => .foldl (fun u n => ?_) _ s
  split
  · exact .refl u
  · split
    · exact .cacheLine hg u
    · exact .refl u

theorem issued_ipin (hc : g.caches = true) (hf : g.fetches = true) {h : Head} {d a b : Reg} {x : BitVec 2} : Issued g s (execIpin h d a b x s) :=
  .onMX fun v => (State.IssueFrame.foldl (fun u _ => v.frame_pinInto u hc hf) _ s).trans (v.frame_land _ Nat.one_pos)

theorem issued_icinv (hg : g.caches = true) {h : Head} {a b : Reg} : Issued g s (execIcinv h a b s) := by
  refine .onMX fun v => .modStrand s fun x => ?_
  split
  · exact x.frame_invalidate hg
  · exact .icinvs hg x

theorem issued_unpark {h : Head} {d : VDst} {a b : Reg} : Issued g s (execUnpark h d a b s) := by
  refine .onMX fun v => v.frame_onRow s fun k i => ?_
  split
  · exact v.frame_raise s
  · exact v.frame_land s (Nat.succ_pos _)

theorem issued_aczero {h : Head} {st : Stamp} {rows row : BitVec 6} {bank : BitVec 5} : Issued g s (execAczero h st rows row bank s) := by
  refine .onEng fun v => ?_
  split
  · exact v.frame_raise s
  · split
    · exact v.frame_raise s
    · split
      · exact v.frame_raise s
      · exact v.frame_enter s

theorem issued_acalloc (hg : g.banks = true) {h : Head} {d a : Reg} {zero park : Bool} : Issued g s (execAcalloc h d a zero park s) := by
  refine .onMX fun v => v.frame_onBank s fun b => ?_
  split
  · exact v.frame_raise s
  · have halloc (bs : Vector AccBank 32) : s.IssueFrame g v.cur (v.modCore s fun c => { c with banks := bs }) :=
      v.frame_modCore s fun c => .banks hg c
    cases zero with
    | false => exact (halloc _).trans (v.frame_land _ Nat.one_pos)
    | true => exact ((halloc _).trans (v.frame_store _ Nat.one_pos)).trans (v.frame_land _ Nat.one_pos)

theorem issued_acfree (hg : g.banks = true) {h : Head} {a : Reg} : Issued g s (execAcfree h a s) := by
  refine .onMX fun v => v.frame_onBank s fun b => ?_
  split
  · exact v.frame_raise s
  · exact v.frame_modCore s fun c => (Core.IssueFrame.banks hg c).trans (.pending _)

theorem issued_acown (hg : g.banks = true) {h : Head} {a b : Reg} : Issued g s (execAcown h a b s) := by
  refine .onMX fun v => v.frame_onBank s fun k => ?_
  dsimp only
  split
  · exact v.frame_raise s
  · split
    · exact .refl s
    · exact v.frame_modCore s fun c => .banks hg c

theorem issued_acld {h : Head} {d : VDst} {a b : Reg} {cv : Conv} : Issued g s (execAcld h d a b cv s) := by
  refine .withView fun v => (v.frame_keepSr s (rnd := cv.rnd.toNat)).trans ?_
  refine Issued.guarded (v.frame_onRow _ fun k i => ?_)
  split
  · exact v.frame_raise _
  · exact v.frame_land _ (Nat.succ_pos _)

theorem issued_molt {h : Head} {d a : Reg} : Issued g s (execMolt h d a s) := by
  refine .onMX fun v => ?_
  dsimp only
  split
  · exact v.frame_land s Nat.one_pos
  · split
    · exact v.frame_land s Nat.one_pos
    · exact .modStrand s fun x => .free x

theorem issued_enq {h : Head} {d a b : Reg} : Issued g s (execEnq h d a b s) := by
  refine .onMX fun v => v.frame_onMem s ?_
  split
  · exact v.frame_raise s
  · exact v.frame_elastic s

theorem issued_trap {h : Head} {a : Reg} {n : BitVec 5} : Issued g s (execTrap h a n s) :=
  .onMX fun _ => .modStrand s fun x => .raise x

/-! ## Every syllable -/

/-- Each syllable changes what its kind may; steps and events, which have no words, are not syllables. -/
theorem exec_issued (i : Instr) (s : State) (hi : encode i ≠ []) : Issued (grants i) s (exec i s) := by
  cases i <;> unfold exec
  case nop => exact .withView fun _ => .refl s
  case halt => exact issued_halt rfl
  case add | sub | and | or | xor | andn | shl | shr | sar | rotl | mul | mulhI | mulhN | divI | divN | modI | modN | minI | minN | maxI |
      maxN | clz | popc | bfx | bfi | mov | addl | subl | andl | orl | xorl | andnl | shll | shrl | sarl | rotll | mull | minlI | minlN |
      maxlI | maxlN | movl | pcount =>
    exact .onS fun v => v.frame_landS s (Nat.succ_pos _)
  case sel => exact .withView fun v => v.frame_landS s Nat.one_pos
  case lea | leal => exact .onS fun v => v.frame_lea s
  case cmpEq | cmpNe | cmpLtI | cmpGeI | cmpLtN | cmpGeN | cmplEq | cmplNe | cmplLtI | cmplGeI | cmplLtN | cmplGeN | pand | por | pxor |
      pnot | pfirst | pany | pall =>
    exact .onS fun v => v.frame_landP s
  case mfs => exact issued_mfs
  case mts => exact .onS fun v => v.frame_land s Nat.one_pos
  case br => exact .withView fun v => v.frame_transfer s rfl fun t => .refl t
  case call => exact .withView fun v => v.frame_transfer s rfl fun t => v.frame_landS t Nat.one_pos
  case jmp | ret => exact .withView fun v => v.frame_transfer s rfl fun t => v.frame_lookLate t rfl
  case loop | loopl => exact .withView fun v => v.frame_loop s rfl
  case cwait => exact issued_cwait
  case vadd | vsub | vmul | vmulhI | vmulhN | vminI | vminN | vmaxI | vmaxN | vand | vor | vxor | vshl | vshr | vsar | vaddsI | vaddsN |
      vsubsI | vsubsN | vabs | vfadd | vfsub | vfmul | vfma | vfmin | vfmax | vfabs | vfneg | vmov | vdot4 | vscaleb | vunpk | vrsum |
      vrmax | vrmin | vscan | vshuf | vrot | vrotZf | vbcast | vrand =>
    exact .onV rfl fun v t => v.frame_landV t (Nat.succ_pos _)
  case vsel => exact .onV rfl fun v t => v.frame_land t (Nat.succ_pos _)
  case vsort => exact .onV rfl fun v t => (v.frame_landV t (Nat.succ_pos _)).trans (v.frame_landV _ (Nat.succ_pos _))
  case vcvt | vpack => exact .onV rfl fun v t => (v.frame_keepSr t).trans (v.frame_landV _ (Nat.succ_pos _))
  case vcmpEq | vcmpNe | vcmpLtI | vcmpGeI | vcmpLtN | vcmpGeN | vfcmpEq | vfcmpLt | vfcmpLe | vfcmpUn =>
    exact .onV rfl fun v t => v.frame_landCmp t (Nat.succ_pos _)
  case vcvtt => exact issued_vcvtt rfl
  case teval => exact issued_teval rfl
  case drawImmediate | drawRegister => exact .onPlane fun v => v.frame_draw s
  case putOperandImmediate | putOperandRegister | putLastResultImmediate | putLastResultRegister =>
    exact .onPlane fun v => v.frame_put s
  case sld | sldTagged | slds | sldsTagged => exact .onMX fun v => v.frame_spadLoad s
  case sst | sstTagged | ssts | sstsTagged => exact .onMX fun v => v.frame_spadStore s
  case ld | st | bara => exact .onMX fun v => v.frame_onMem s (v.frame_elastic s)
  case ecopy => exact issued_ecopy
  case mark | fence => exact .onMX fun v => v.frame_elastic s
  case lqwait => exact issued_queueWait fun v => v.held v.cl.lq
  case sqwait => exact issued_queueWait fun v => v.held v.cl.sq
  case aadd | aminI | aminN | amaxI | amaxN | aand | aor | axor | axchg | acas | afadd => exact .onMX fun v => v.frame_atomic s
  case barw | flagw => exact .onMX fun v => v.frame_onMem s (v.frame_wait s)
  case pref => exact issued_pref rfl
  case ipref => exact .onMX fun v => .foldl (fun u _ => v.frame_fetchInto u rfl rfl) _ s
  case ipin => exact issued_ipin rfl rfl
  case iunpin => exact .onMX fun v => v.frame_modCache s rfl
  case icinv => exact issued_icinv rfl
  case park => exact .onMX fun v => v.frame_onRow s fun _ _ => v.frame_store s (Nat.succ_pos _)
  case unpark => exact issued_unpark
  case mcfg | mgo | mstop | mbase | cfgld | cfgswap | mfmt | xcopy | tsld | tsev | tload | rload | rstep =>
    exact .onEng fun v => v.frame_enqueue s
  case aczero => exact issued_aczero
  case acalloc => exact issued_acalloc rfl
  case acfree => exact issued_acfree rfl
  case acown => exact issued_acown rfl
  case acld => exact issued_acld
  case waitb | waitbUntil => exact .onMX fun v => v.frame_modCl s fun c => .free c
  case deadline | deadlineClr => exact .onMX fun v => .modStrand s fun x => .free x
  case acqp | relp => exact .onMX fun v => v.frame_modRegion s
  case molt => exact issued_molt
  case enq => exact issued_enq
  case trap => exact issued_trap
  case tret | tretSkip => exact .withView fun v => v.frame_tret s rfl rfl
  all_goals exact absurd rfl hi

/-- The frame as a frame of the issuing strand, but for what a fetch leaves in the stacks and tasks. -/
theorem State.IssueFrame.frameStrand {c : Cur} {t : State} (h : s.IssueFrame g c t) :
    s.FrameStrand (if g.fetches then { t with stks := s.stks, tasks := s.tasks } else t) c.sid (Strand.IssueFrame g c) := by
  obtain ⟨-, hrest, hfetched, hstrands⟩ := h
  cases hf : g.fetches with
  | true => exact ⟨congrArg (fun x : State => { x with stks := s.stks, tasks := s.tasks }) hrest, hstrands⟩
  | false =>
    obtain ⟨hstks, htasks⟩ := hfetched hf
    exact ⟨hrest.trans (by rw [hstks, htasks]; rfl), hstrands⟩

/-- Settles O33: every syllable is made of operations that each keep the frame, and the frame is kept from one to the next. -/
theorem syllablesChangeOnlyTheirOwn : Obligations.SyllablesChangeOnlyTheirOwn := by
  intro i s t v hi hv ht
  have hframe := exec_issued i s hi v t hv ht
  exact ⟨hframe.bytes, hframe.frameStrand⟩

end Sys2Proof.Machine
end

section
/-! Values that FP32 holds exactly: rounding keeps a significand of at most 24 bits in the normal range (R115, R116, R124). -/

namespace Sys2Proof.Machine

/-! ## Significands brought to 24 bits -/

/-- A significand of at most 24 bits, shifted until its leading bit stands in bit 23. -/
def normSig (m : Nat) : Nat := m * 2 ^ (23 - m.log2)

theorem log2_le_of_lt_two_pow_24 {m : Nat} (h : m < 2 ^ 24) : m.log2 ≤ 23 := by
  rcases Nat.eq_zero_or_pos m with rfl | hm
  · decide
  · exact Nat.le_of_lt_succ ((Nat.log2_lt hm.ne').2 h)

theorem normSig_mem {m : Nat} (hm : m ≠ 0) (h : m < 2 ^ 24) : 2 ^ 23 ≤ normSig m ∧ normSig m < 2 ^ 24 := by
  have hlog := log2_le_of_lt_two_pow_24 h
  constructor
  · calc 2 ^ 23 = 2 ^ m.log2 * 2 ^ (23 - m.log2) := by rw [← Nat.pow_add, Nat.add_sub_cancel' hlog]
      _ ≤ normSig m := Nat.mul_le_mul_right _ (Nat.log2_self_le hm)
  · calc normSig m < 2 ^ (m.log2 + 1) * 2 ^ (23 - m.log2) := Nat.mul_lt_mul_of_pos_right Nat.lt_log2_self (Nat.two_pow_pos _)
      _ = 2 ^ 24 := by rw [← Nat.pow_add]; congr 1; omega

/-- The shift and the exponent that goes with it leave the value as it was. -/
theorem normSig_mul_zpow {m : Nat} (h : m < 2 ^ 24) (e : Int) :
    (normSig m : ℚ) * 2 ^ (e + m.log2 - 23) = m * 2 ^ e := by
  have hlog := log2_le_of_lt_two_pow_24 h
  have hexp : ((23 - m.log2 : Nat) : Int) + (e + m.log2 - 23) = e := by omega
  rw [normSig, Nat.cast_mul, Nat.cast_pow, Nat.cast_ofNat, mul_assoc, ← zpow_natCast, ← zpow_add₀ two_ne_zero, hexp]

/-! ## Codes of normal values (R115) -/

theorem fmtInf_zero : fmtInf 0 = 255 * 2 ^ 23 := rfl

/-- The code with significand `m` and biased exponent `k + 1` is a normal value's. -/
theorem fp32_signed {neg : Bool} {k m : Nat} (hk : k < 254) (hm : 2 ^ 23 ≤ m ∧ m < 2 ^ 24) :
    fp32 (BitVec.ofNat 32 (signed 0 neg (k * 2 ^ 23 + m))) = .fin neg m (k - 149) := by
  obtain ⟨hlo, hhi⟩ := hm
  have hmag : k * 2 ^ 23 + m < 2 ^ 31 := by omega
  have hcode : (BitVec.ofNat 32 (signed 0 neg (k * 2 ^ 23 + m))).toNat = bnat neg * 2 ^ 31 + (k * 2 ^ 23 + m) := by
    cases neg <;> simp [signed, fmtBits, bnat] <;> omega
  have hsign : (fld (bnat neg * 2 ^ 31 + (k * 2 ^ 23 + m)) 31 1 == 1) = neg := by
    cases neg <;> simp [fld, bnat] <;> omega
  have hmod : (bnat neg * 2 ^ 31 + (k * 2 ^ 23 + m)) % 2 ^ 31 = k * 2 ^ 23 + m := by omega
  have hex : (k * 2 ^ 23 + m) / 2 ^ 23 = k + 1 := by omega
  have hfrac : (k * 2 ^ 23 + m) % 2 ^ 23 + 2 ^ 23 = m := by omega
  have hinf : k * 2 ^ 23 + m < fmtInf 0 := by rw [fmtInf_zero]; omega
  rw [fp32, hcode, fpOf]
  simp only [fmtBits, fmtPrec, fmtMinLsb, beq_self_eq_true, if_true, Nat.add_one_sub_one, hsign, hmod, hex, hfrac, hinf.not_gt,
    hinf.ne, beq_iff_eq, if_false, Nat.succ_ne_zero]
  rw [neg_add_eq_sub]

/-! ## Rounding -/

/-- A significand of at most 24 bits in the normal range is held under every mode, with no bit lost. -/
theorem roundFp_exact {rm bits : Nat} {neg : Bool} {m : Nat} {e : Int} (hm : m ≠ 0) (h : m < 2 ^ 24) (hlo : -126 ≤ e + m.log2)
    (hhi : e + m.log2 ≤ 127) :
    roundFp 0 rm bits (.fin neg m e) = signed 0 neg ((e + m.log2 + 126).toNat * 2 ^ 23 + normSig m) := by
  have hlog := log2_le_of_lt_two_pow_24 h
  have hnorm := (normSig_mem hm h).2
  have hlsb : max (e + m.log2 - 23) (-149) = e + m.log2 - 23 := max_eq_left (by omega)
  have hmag : roundMag rm bits neg m e (e + m.log2 - 23) = normSig m := by
    rw [roundMag, if_pos (by omega), normSig]
    congr 2
    omega
  have hinf : (e + m.log2 + 126).toNat * 2 ^ 23 + normSig m < fmtInf 0 := by rw [fmtInf_zero]; omega
  have hexp : (e + m.log2 - 23 - -149).toNat = (e + m.log2 + 126).toNat := by omega
  rw [roundFp, if_neg (by simpa using hm)]
  simp only [fmtPrec, fmtMinLsb, beq_self_eq_true, if_true, Nat.add_one_sub_one, Nat.cast_ofNat, hlsb, hmag, hexp, hinf]

theorem fp32_round32_exact {rm : Nat} {neg : Bool} {m : Nat} {e : Int} (hm : m ≠ 0) (h : m < 2 ^ 24) (hlo : -126 ≤ e + m.log2)
    (hhi : e + m.log2 ≤ 127) : fp32 (round32 rm (.fin neg m e)) = .fin neg (normSig m) (e + m.log2 - 23) := by
  rw [round32, roundFp_exact hm h hlo hhi, fp32_signed (by omega) (normSig_mem hm h)]
  congr 1
  omega

/-- A zero is held as such, whatever exponent it came with. -/
theorem fp32_round32_zero {rm : Nat} {e : Int} : fp32 (round32 rm (.fin false 0 e)) = .fin false 0 (-149) := by
  rw [round32, roundFp, if_pos (beq_self_eq_true 0)]
  rfl

end Sys2Proof.Machine
end

section
/-! Counter draws (R130, R131, R183). -/

namespace Sys2Proof.Machine

/-- The word lane `j` of VRAND draws: operand `a` names its element and `b` its step, under the strand's seed (R183). -/
def View.draws (v : View) (a b : VSrc) (word : BitVec 2) (layer : BitVec 24) (j : Nat) : W32 :=
  kcg v.st.seed ((v.st.ctrbase + (lane (v.src b) j).setWidth 64).truncate 32) (layer.setWidth 32) (lane (v.src a) j) 0 word.toNat

theorem exec_vrand_lands {s : State} {v : View} {h : Head} {d : VDst} {a b : VSrc} {u : Bool} {word : BitVec 2} {layer : BitVec 24}
    (hv : s.view = some v) (hr : v.readable [a, b]) (ha : v.affords 3) :
    LandsLanes s v [a, b] 8 h d (.vrand h d a b u word layer)
      fun j => if u then u24 (v.draws a b word layer j) else v.draws a b word layer j :=
  lands_onV (fun v => mkLanes fun j => if u then u24 (v.draws a b word layer j) else v.draws a b word layer j) hv hr ha rfl
    fun _ hj => lane_mk _ hj

/-- R131: `u24` loses nothing of the upper 24 bits, whose value times 2^-24 FP32 holds. -/
theorem fp32_u24 (x : W32) : ∃ (m : Nat) (e : Int),
    fp32 (u24 x) = .fin false m e ∧ (m : ℚ) * 2 ^ e = (x.toNat / 256 : Nat) * (2 : ℚ) ^ (-24 : Int) := by
  have hlt : x.toNat / 256 < 2 ^ 24 := by omega
  have hlog := log2_le_of_lt_two_pow_24 hlt
  rw [u24]
  generalize x.toNat / 256 = m at hlt hlog
  rcases eq_or_ne m 0 with rfl | hm
  · exact ⟨0, -149, fp32_round32_zero, by simp⟩
  · exact ⟨normSig m, -24 + m.log2 - 23, fp32_round32_exact hm hlt (by omega) (by omega), normSig_mul_zpow hlt (-24)⟩

/-- Settles O12: VRAND lands its lanes as any V form does, and rounding an output word's upper 24 bits loses nothing. -/
theorem counterDraws : Obligations.CounterDraws :=
  ⟨fun _ _ _ _ _ _ _ _ hv hr ha => ⟨exec_vrand_lands hv hr ha, exec_vrand_lands hv hr ha⟩, fp32_u24⟩

end Sys2Proof.Machine
end

section
/-! Configuration commands at their stamps (R137, R138, R186 to R188, R193, R198, R199, R204). -/

namespace Sys2Proof.Machine

/-! ## Bytes of a plane (R186, R193) -/

/-- Consecutive values written from key `b` on: those keys hold them, and every other key what it held. -/
theorem Sparse.get_setAll_run {w : Nat} (m : Sparse w) (b : Nat) (vs : List (BitVec w)) (k : Nat) :
    Sparse.get (Sparse.setAll m (cellsAt b vs)) k = if b ≤ k ∧ k < b + vs.length then vs.getD (k - b) 0 else Sparse.get m k := by
  simpa using Sparse.get_setAll_cellsAt (fun _ => true) k vs m b

/-- A plane with the bytes of a number written from an offset on, low byte first (R1). -/
def writeBytes (ofs n x : Nat) (m : Sparse 8) : Sparse 8 := Sparse.setAll m (cellsAt ofs (bytesOf n x))

theorem get_writeBytes (ofs n x : Nat) (m : Sparse 8) (k : Nat) : Sparse.get (writeBytes ofs n x m) k =
    if ofs ≤ k ∧ k < ofs + n then BitVec.ofNat 8 (x / 2 ^ (8 * (k - ofs))) else Sparse.get m k := by
  rw [writeBytes, Sparse.get_setAll_run, show (bytesOf n x).length = n by simp [bytesOf]]
  split
  · exact getD_bytesOf x (by omega)
  · rfl

/-- The low bytes of a word are those of the number it holds. -/
theorem bytesOf_low32 (x : W64) : bytesOf 4 (low32 x).toNat = bytesOf 4 x.toNat := by
  refine List.map_congr_left fun i hi => ?_
  have hi : i < 4 := List.mem_range.1 hi
  have : (low32 x).toNat = x.toNat % 2 ^ 32 := BitVec.toNat_setWidth ..
  rw [this]
  apply BitVec.eq_of_toNat_eq
  simp only [BitVec.toNat_ofNat]
  interval_cases i <;> omega


/-! ## Loads and flips as they begin (R137, R138, R188) -/

/-- A region never forbids a draw at level 0. -/
theorem Region.exceeds_zero (r : Region) (x : Nat) : r.exceeds x 0 = false := by
  simp [Region.exceeds]

/-- The read that `EView.load` enters for a command: its lines one a beat from the next beat on. -/
def EView.reads (v : EView) (cmd : Cmd) (lines : Nat) : List (Nat × Claim) :=
  (List.range lines).map fun j => (v.ref.core, { beat := v.x + 1 + j, group := v.co.group (cmd.val.toNat + 64 * j), rd := 64, wr := 0 })

/-- A load whose range is aligned and in the banks, and whose lines fit beside the claims that stand, begins. -/
theorem EView.load_begins (v : EView) (s : State) (cmd : Cmd) {n lines : Nat} (f : State → State) (hn : 0 < n)
    (halign : cmd.val.toNat % 64 = 0) (hin : cmd.val.toNat + n ≤ v.st.fp.banks * 2 ^ 17) (hfits : v.st.fits (v.reads cmd lines) = true) :
    v.load s cmd n lines 0 none f = f (v.mod (s.commitClaims v.ref.strand (v.reads cmd lines)) fun c =>
      { c with loads := c.loads ++ [{ cmd, start := v.x, addr := cmd.val.toNat, lines, got := [], seen := [] }] }) := by
  have hspad : v.st.fp.spadOk cmd.val.toNat n = true := by
    simp [Footprint.spadOk]; omega
  have hfits' : (!v.st.fits (v.reads cmd lines)) = false := by simp [hfits]
  simp only [EView.reads] at hfits' ⊢
  simp [EView.load, halign, hspad, hfits', EView.draws, Region.exceeds_zero]

/-- The planes of an engine change places (R138, R188). -/
def Core.flipPlanes (u : Unit') (co : Core) : Core :=
  let co := co.modEng u fun g => { g with active := g.shadow, shadow := g.active, flips := g.flips + 1 }
  let co := { co with marks := flipMarks u co.marks }
  if u = .re then { co with rgc := 0, rstopped := none } else co

/-- Nothing forbids an engine's planes to change places: no CFGLD still fills the shadow plane, and the table engine's incoming headers
are good and whole. -/
def EView.MayFlip (v : EView) (u : Unit') : Prop :=
  (v.co.eng u).filling ≤ v.x ∧
    (u = .te → headersOk (v.co.eng u).shadow = true ∧ ∀ k < 4, v.co.planeBad .te true (0x480 * k) 64 = none)

theorem EView.flip_of_mayFlip {v : EView} {u : Unit'} (s : State) (cmd : Cmd) (h : v.MayFlip u) :
    v.flip s u cmd = v.mod s (Core.flipPlanes u) := by
  obtain ⟨hfill, hte⟩ := h
  rw [EView.flip, if_neg (Nat.not_lt.2 hfill)]
  cases u with
  | te =>
    obtain ⟨hhead, hmarks⟩ := hte rfl
    have hfind : ((List.range 4).findSome? fun k => v.co.planeBad .te true (tableAt k) 64) = none := by
      simpa [tableAt] using hmarks
    rw [if_neg (by simp [hhead]), if_pos (beq_self_eq_true _), hfind]
    rfl
  | me => rfl
  | re => rfl
  | bte => rfl

/-- A nest that an MSTOP has ended ends once its step in progress has (R198). -/
theorem Core.settleNest_stopped (co : Core) {n : Nest} (x y : Nat) :
    Core.settleNest { co with nest := some { n with stopped := true, tau := y } } false x 1 =
      if x < y then { co with nest := some { n with stopped := true, tau := y } }
      else { co with nest := none, cbusy := co.cbusy ++ n.banks.map fun b => (b, n.lastLand) } := rfl

/-! ## Each command at its stamp (R186 to R188, R193, R198, R199, R204) -/

section
variable {s : State} {c : CoreRef} {v : EView} {cmd : Cmd} {h : Head} {st : Stamp} {g : Reg} (e : Eng)

theorem execMcfgStart_eq {ofs : BitVec 11} {en : BitVec 2} (hs : s.startsCmd c (engUnit e) v cmd) (hi : cmd.ins = .mcfg h st g ofs en) :
    execMcfgStart c e s = .next (v.mod (v.took s (engUnit e)) fun co =>
      (co.modEng (engUnit e) fun g => { g with shadow := writeBytes (8 * ofs.toNat) 8 cmd.val.toNat g.shadow }).healPlane (engUnit e) true (8 * ofs.toNat) 8) := by
  rw [execMcfgStart, startCmd_eq hs (by rw [hi]; rfl)]
  simp only [hi]
  rfl

theorem execCfgldStart_eq {ck : Bool} {tag ofs len : Byte} {en : BitVec 2} (hs : s.startsCmd c (engUnit e) v cmd)
    (hi : cmd.ins = .cfgld h st g ck tag ofs len en) (halign : cmd.val.toNat % 64 = 0)
    (hin : cmd.val.toNat + 64 * (len.toNat + 1) ≤ v.st.fp.banks * 2 ^ 17) (hfits : v.st.fits (v.reads cmd (len.toNat + 1)) = true) :
    execCfgldStart c e s = .next (v.mod (v.mod ((v.took s (engUnit e)).commitClaims c.strand (v.reads cmd (len.toNat + 1))) fun co =>
      { co with loads := co.loads ++ [{ cmd, start := v.x, addr := cmd.val.toNat, lines := len.toNat + 1, got := [], seen := [] }] }) fun co =>
      co.modEng (engUnit e) fun g => { g with filling := max g.filling (v.x + 16 + (len.toNat + 1)) }) := by
  rw [execCfgldStart, startCmd_eq hs (by rw [hi]; rfl)]
  simp only [hi]
  rw [EView.load_begins v _ cmd _ (by omega) halign hin hfits, eview_ref hs.1]

theorem execCfgswapStart_waits {en : BitVec 2} (hs : s.startsCmd c (engUnit e) v cmd) (hi : cmd.ins = .cfgswap h st en)
    (hw : v.co.working (engUnit e) = true) : execCfgswapStart c e s = .next (v.mod (v.took s (engUnit e)) fun co =>
      co.modEng (engUnit e) fun g => { g with swaps := g.swaps ++ [{ cmd with stamp := v.x }] }) := by
  rw [execCfgswapStart, startCmd_eq hs (by rw [hi]; rfl), if_pos hw]

theorem execCfgswapStart_flips {en : BitVec 2} (hs : s.startsCmd c (engUnit e) v cmd) (hi : cmd.ins = .cfgswap h st en)
    (hw : v.co.working (engUnit e) = false) (hm : v.MayFlip (engUnit e)) :
    execCfgswapStart c e s = .next (v.mod (v.took s (engUnit e)) (Core.flipPlanes (engUnit e))) := by
  rw [execCfgswapStart, startCmd_eq hs (by rw [hi]; rfl), if_neg (by simp [hw]), EView.flip_of_mayFlip _ _ hm]

theorem execCfgswapFlip_eq {k : Cmd} {ks : List Cmd} (hv : s.eview c = some v) (hk : (v.co.eng (engUnit e)).swaps = k :: ks)
    (hw : v.co.working (engUnit e) = false) (hm : v.MayFlip (engUnit e)) :
    execCfgswapFlip c e s = .next (v.mod (v.mod s fun co => co.modEng (engUnit e) fun g => { g with swaps := ks }) (Core.flipPlanes (engUnit e))) := by
  simp [execCfgswapFlip, hv, hk, hw, EView.flip_of_mayFlip _ _ hm]

variable (hs : s.startsCmd c .me v cmd)
include hs

theorem execMfmtStart_eq {en : BitVec 4} (hi : cmd.ins = .mfmt h st g en) (hval : cmd.val.toNat < 2 ^ 17) :
    execMfmtStart c s = .next (v.mod (v.took s .me) fun co => co.sched (v.x + 1) engineRank (.fmtEntry en.toNat (low32 cmd.val))) := by
  rw [execMfmtStart, startCmd_eq hs (by rw [hi]; rfl)]
  simp only [hi]
  rw [if_neg (by omega)]

theorem execAczeroStart_eq {rows row : BitVec 6} {bank : BitVec 5} (hi : cmd.ins = .aczero h st rows row bank)
    (hbusy : v.co.cBusy bank.toNat v.x = false) (hmode : (vget (v.banks s) bank.toNat AccBank.zero).mode = .allocated) :
    execAczeroStart c s = .next (v.mod (v.took s .me) fun co =>
      co.sched (v.x + 1) engineRank (.accZero bank.toNat row.toNat (rows.toNat + 1))) := by
  have hmode' : ((vget (v.banks (v.took s .me)) bank.toNat AccBank.zero).mode != .allocated) = false :=
    bne_eq_false_iff_eq.2 hmode
  rw [execAczeroStart, startCmd_eq hs (by rw [hi]; rfl)]
  simp only [hi, hbusy, hmode', Bool.false_eq_true, if_false]

theorem execMbaseStart_plain {which : BitVec 3} (hi : cmd.ins = .mbase h st g which) (hw : which ≠ 4) :
    execMbaseStart c s = .next (v.mod (v.took s .me) fun co => (co.modEng .me fun g =>
      { g with active := writeBytes (0x10 + 4 * which.toNat) 4 cmd.val.toNat g.active }).healPlane .me false
        (0x10 + 4 * which.toNat) 4) := by
  rw [execMbaseStart, startCmd_eq hs (by rw [hi]; rfl)]
  simp only [hi, beq_iff_eq, hw, if_false, bytesOf_low32]
  rfl

theorem execMbaseStart_bank {which : BitVec 3} (hi : cmd.ins = .mbase h st g which) (hw : which = 4) (hn : v.co.nest = none) :
    execMbaseStart c s = .next (v.mod (v.took s .me) fun co => co.modEng .me fun g =>
      { g with active := writeBytes 0x20 4 (planeNat v.co.me.active 0x20 / 32 * 32 + cmd.val.toNat % 32) g.active }) := by
  rw [execMbaseStart, startCmd_eq hs (by rw [hi]; rfl)]
  simp only [hi, hw, beq_self_eq_true, if_true, hn]
  rfl

theorem execMstopStart_idle (hi : cmd.ins = .mstop h st) (hn : v.co.nest = none) : execMstopStart c s = .next (v.took s .me) := by
  rw [execMstopStart, startCmd_eq hs (by rw [hi]; rfl)]
  simp only [hn]

theorem execMstopStart_nest {n : Nest} (hi : cmd.ins = .mstop h st) (hn : v.co.nest = some n) :
    execMstopStart c s = .next (v.mod (v.took s .me) fun co => if v.x < max v.x (n.lastLand - 8)
      then { co with nest := some { n with stopped := true, tau := max v.x (n.lastLand - 8) } }
      else { co with nest := none, cbusy := co.cbusy ++ n.banks.map fun b => (b, n.lastLand) }) := by
  rw [execMstopStart, startCmd_eq hs (by rw [hi]; rfl)]
  simp only [hn, Core.settleNest_stopped]

end

/-- Settles O36: one lemma per command and way it starts, and the bytes that a write of a plane leaves. -/
theorem configurationCommandsStart : Obligations.ConfigurationCommandsStart := by
  intro s c e v cmd h st g
  refine ⟨fun hs => ⟨?mcfg, ?cfgld, ?cfgswap⟩, ?flip, fun hs => ⟨?mfmt, ?aczero, ?mbase, ?mbaseC, ?mstop⟩⟩
  case mcfg =>
    intro ofs en hi
    exact ⟨writeBytes (8 * ofs.toNat) 8 cmd.val.toNat, get_writeBytes _ _ _, execMcfgStart_eq e hs hi⟩
  case cfgld =>
    intro ck tag ofs len en hi
    obtain rfl := eview_ref hs.1
    exact execCfgldStart_eq e hs hi
  case cfgswap =>
    intro en hi
    exact ⟨execCfgswapStart_waits e hs hi, execCfgswapStart_flips e hs hi⟩
  case flip =>
    intro k ks hv hk hw hm
    exact execCfgswapFlip_eq e hv hk hw hm
  case mfmt =>
    intro en hi hval
    exact execMfmtStart_eq hs hi hval
  case aczero =>
    intro rows row bank hi hbusy hmode
    exact execAczeroStart_eq hs hi hbusy hmode
  case mbase =>
    intro which hi hw
    exact ⟨writeBytes (0x10 + 4 * which.toNat) 4 cmd.val.toNat, get_writeBytes _ _ _, execMbaseStart_plain hs hi hw⟩
  case mbaseC =>
    intro which hi hw hn
    exact ⟨writeBytes 0x20 4 _, get_writeBytes _ _ _, execMbaseStart_bank hs hi hw hn⟩
  case mstop =>
    intro hi
    refine ⟨execMstopStart_idle hs hi, fun n hn => ⟨fun hlt => ?_, fun hle => ?_⟩⟩
    · refine (execMstopStart_nest hs hi hn).trans ?_
      simp only [hlt, if_true]
    · refine (execMstopStart_nest hs hi hn).trans ?_
      simp only [Nat.not_lt.2 hle, if_false]

end Sys2Proof.Machine
end

section
/-! A timed write and the writes in flight that it overtakes (R142, R257, R258, R269; log 80). -/

namespace Sys2Proof.Machine

/-! ## Three writes in flight, two of them with one identifier -/

/-- A write of another agent, still narrower than the stack, with the identifier of the elder of `overrunFlight`. -/
def strayFlight : Flight := { id := 7, stack := 0, core := 0, sid := 5, cl := 0, cells := [(128, 9)], bad := [], level := 1 }

/-- The elder of `overrunFlight`: the same agent's write ahead of it. -/
def elderFlight : Flight := { id := 7, stack := 0, core := 0, sid := 1, cl := 0, cells := [(64, 3)], bad := [], level := 4 }

/-- A write that has performed at stack scope, of the one byte that the timed write covers. -/
def overrunFlight : Flight := { id := 8, stack := 0, core := 0, sid := 1, cl := 0, cells := [(0, 1)], bad := [], level := 4 }

/-- The device with these writes in flight. -/
def strayState : State := { State.reset with flight := [strayFlight, elderFlight, overrunFlight] }

/-- A place of another stack: it sees none of them. -/
def farPlace : Place := { stack := 1, core := 0, sid := 0, cl := 0 }

/-- The timed write of byte 0 overtakes `overrunFlight`, and its elder performs with it. -/
theorem strayState_overrun : strayState.overrun [(0, 2)] = [elderFlight, overrunFlight] := by decide

/-- Byte 128, which neither that write nor those two cover, reads otherwise at the far place afterwards: what enters memory is looked up
by the identifier, and that finds `strayFlight`. -/
theorem strayState_busByte : strayState.busByte farPlace 128 = 0 ∧ (strayState.timedWrite [(0, 2)]).busByte farPlace 128 = 9 := by decide

/-- Refutes O39: the statement is for every state, and where two writes in flight have one identifier, a timed write lets the wrong one
perform, so that a byte which neither it nor those it overtakes cover changes at a place that saw none of them. -/
theorem not_blockTransfers : ¬ Obligations.BlockTransfers := by
  rintro ⟨-, -, hwrite, -⟩
  obtain ⟨hother, -⟩ := hwrite strayState [(0, 2)] farPlace (by decide) (by decide)
  have hsame := hother 128 (by decide) (by rw [strayState_overrun]; decide)
  rw [strayState_busByte.1, strayState_busByte.2] at hsame
  exact absurd hsame (by decide)

end Sys2Proof.Machine
end

section
/-! A held strand goes on (R92, R287): what reading its waits, fetching and translating afresh leave as it was. -/

namespace Sys2Proof.Machine

/-! ## Lists -/

theorem forall₂_comp {α β γ : Type} {R : α → β → Prop} {S : β → γ → Prop} {T : α → γ → Prop} (h : ∀ {a b c}, R a b → S b c → T a c)
    {xs : List α} {ys : List β} (hxy : List.Forall₂ R xs ys) : ∀ {zs : List γ}, List.Forall₂ S ys zs → List.Forall₂ T xs zs := by
  induction hxy with
  | nil =>
    intro zs hz
    cases hz
    exact .nil
  | cons hxy _ ih =>
    intro zs hz
    cases hz with
    | cons hyz hrest => exact .cons (h hxy hyz) (ih hrest)

/-- A list with one element changed, when that change is in a relation which holds of every element with itself. -/
theorem forall₂_modify_at {α : Type} {R : α → α → Prop} {f : α → α} (hR : ∀ x, R x x) (xs : List α) :
    ∀ n, (∀ x, xs[n]? = some x → R x (f x)) → List.Forall₂ R xs (xs.modify n f) := by
  induction xs with
  | nil => exact fun n _ => by simp
  | cons x xs ih =>
    intro n h
    cases n with
    | zero => exact .cons (h x rfl) (List.forall₂_same.2 fun y _ => hR y)
    | succ n => exact .cons (hR x) (ih n h)

/-- Elements related one by one are found at the same places. -/
theorem forall₂_getElem? {α β : Type} {R : α → β → Prop} {xs : List α} {ys : List β} (h : List.Forall₂ R xs ys) :
    ∀ {n : Nat} {y : β}, ys[n]? = some y → ∃ x, xs[n]? = some x ∧ R x y := by
  induction h with
  | nil => exact fun hy => by simp at hy
  | cons hxy _ ih =>
    intro n y hy
    cases n with
    | zero => exact ⟨_, rfl, Option.some.inj hy ▸ hxy⟩
    | succ n => exact ih hy

theorem forall₂_of_mem {α β : Type} {R S : α → β → Prop} {xs : List α} {ys : List β} (h : List.Forall₂ R xs ys)
    (hRS : ∀ x ∈ xs, ∀ y, R x y → S x y) : List.Forall₂ S xs ys := by
  induction h with
  | nil => exact .nil
  | cons hxy _ ih => exact .cons (hRS _ List.mem_cons_self _ hxy) (ih fun x hx => hRS x (List.mem_cons_of_mem _ hx))

/-! ## Waits, contexts and cores -/

/-- A wait that may have been looked at, at a cycle. -/
def Wait.Looked (now : Nat) (w z : Wait) : Prop := z = { w with seenAt := z.seenAt } ∧ (z.seenAt = w.seenAt ∨ z.seenAt = some now)

theorem Wait.Looked.refl (now : Nat) (w : Wait) : w.Looked now w := ⟨rfl, .inl rfl⟩

theorem Wait.Looked.trans {now : Nat} {a b c : Wait} (h : a.Looked now b) (h' : b.Looked now c) : a.Looked now c :=
  ⟨h'.1.trans (congrArg (fun x : Wait => { x with seenAt := c.seenAt }) h.1), h'.2.elim (fun e => e ▸ h.2) .inr⟩

/-- A context outside the mask with other lines in its L0; one in the mask that has fetched, and looked at its waits. -/
def Cluster.Reread (now : Nat) (x y : Cluster) : Prop :=
  (x.inMask = false → y = { x with l0 := y.l0 }) ∧
  (x.inMask = true → y = { x with l0 := y.l0, gone := y.gone, waits := y.waits } ∧ List.Forall₂ (Wait.Looked now) x.waits y.waits)

namespace Cluster.Reread

variable {now : Nat} {x y z : Cluster}

theorem of_l0 (x : Cluster) (ls : List Line) : x.Reread now { x with l0 := ls } :=
  ⟨fun _ => rfl, fun _ => ⟨rfl, List.forall₂_same.2 fun w _ => .refl now w⟩⟩

theorem refl (x : Cluster) : x.Reread now x := of_l0 x x.l0

theorem of_mask (hx : x.inMask = true) (h : y = { x with l0 := y.l0, gone := y.gone, waits := y.waits })
    (hw : List.Forall₂ (Wait.Looked now) x.waits y.waits) : x.Reread now y :=
  ⟨fun hn => absurd hn (by simp [hx]), fun _ => ⟨h, hw⟩⟩

theorem of_lines (hx : x.inMask = true) (ls : List Line) (gone : List (Nat × Line)) : x.Reread now { x with l0 := ls, gone } :=
  of_mask hx rfl (List.forall₂_same.2 fun w _ => .refl now w)

theorem inMask (h : x.Reread now y) : y.inMask = x.inMask := by
  cases hx : x.inMask with
  | false => rw [h.1 hx]; exact hx
  | true => rw [(h.2 hx).1]; exact hx

theorem trans (h : x.Reread now y) (h' : y.Reread now z) : x.Reread now z := by
  refine ⟨fun hx => ?_, fun hx => ?_⟩
  · exact (h'.1 (h.inMask.trans hx)).trans (congrArg (fun c : Cluster => { c with l0 := z.l0 }) (h.1 hx))
  · obtain ⟨hy, hw⟩ := h.2 hx
    obtain ⟨hz, hw'⟩ := h'.2 (h.inMask.trans hx)
    exact ⟨hz.trans (congrArg (fun c : Cluster => { c with l0 := z.l0, gone := z.gone, waits := z.waits }) hy),
      forall₂_trans (R := Wait.Looked now) Wait.Looked.trans hw hw'⟩

end Cluster.Reread

/-- A core that has fetched, and whose contexts have. -/
def Core.Reread (now : Nat) (c e : Core) : Prop := e = { c with l1 := e.l1, cl := e.cl } ∧ ∀ k < 4, (c.cluster k).Reread now (e.cluster k)

namespace Core.Reread

variable {now : Nat} {a b c : Core}

theorem of_l1 (c : Core) (ls : List Line) : c.Reread now { c with l1 := ls } := ⟨rfl, fun _ _ => .refl _⟩

theorem refl (c : Core) : c.Reread now c := of_l1 c c.l1

theorem trans (h : a.Reread now b) (h' : b.Reread now c) : a.Reread now c :=
  ⟨h'.1.trans (congrArg (fun x : Core => { x with l1 := c.l1, cl := c.cl }) h.1), fun k hk => (h.2 k hk).trans (h'.2 k hk)⟩

theorem modCl (c : Core) (j : Nat) {f : Cluster → Cluster} (hf : (c.cluster j).Reread now (f (c.cluster j))) : c.Reread now (c.modCl j f) := by
  refine ⟨rfl, fun k hk => ?_⟩
  by_cases hj : j = k
  · subst hj
    rwa [Core.cluster_modCl _ _ hk]
  · rw [Core.cluster_modCl_ne _ _ hj]
    exact .refl _

theorem inMask (h : a.Reread now b) (k : Nat) : (b.cluster k).inMask = (a.cluster k).inMask := by
  by_cases hk : k < 4
  · exact (h.2 k hk).inMask
  · simp [Core.cluster, vget, hk]

end Core.Reread

/-! ## A strand -/

/-- A strand that has read waits, fetched and translated: the fills that it has now it had, or they have not ended, and the walks that
it has now it had, or they are some of `ws` begun again. -/
structure Strand.Reread (now : Nat) (ws : List PageWalk) (t y : Strand) : Prop where
  rest : y = { t with fills := y.fills, walks := y.walks, cores := y.cores, raised := y.raised, waitSaw := y.waitSaw }
  raised : ∃ new, y.raised = t.raised ++ new ∧ ∀ c ∈ new, c.kind = .q
  fills : ∀ f ∈ y.fills, f ∈ t.fills ∨ f.ended = none
  walks : ∀ w ∈ y.walks, w ∈ t.walks ∨ w.ended = none ∧ ∃ o ∈ ws, w.vas = o.vas ∧ w.beat = o.beat
  cores : List.Forall₂ (Core.Reread now) t.cores y.cores

namespace Strand.Reread

variable {now : Nat} {ws : List PageWalk} {t y z : Strand}

theorem trans (h : t.Reread now ws y) (h' : y.Reread now ws z) : t.Reread now ws z where
  rest := h'.rest.trans (congrArg
    (fun x : Strand => { x with fills := z.fills, walks := z.walks, cores := z.cores, raised := z.raised, waitSaw := z.waitSaw }) h.rest)
  raised := by
    obtain ⟨new, hy, hq⟩ := h.raised
    obtain ⟨more, hz, hq'⟩ := h'.raised
    exact ⟨new ++ more, by rw [hz, hy, List.append_assoc], fun c hc => (List.mem_append.1 hc).elim (hq c) (hq' c)⟩
  fills f hf := (h'.fills f hf).elim (h.fills f) .inr
  walks w hw := (h'.walks w hw).elim (h.walks w) .inr
  cores := forall₂_trans (R := Core.Reread now) Core.Reread.trans h.cores h'.cores

theorem of_cores {cs : List Core} (h : List.Forall₂ (Core.Reread now) t.cores cs) : t.Reread now ws { t with cores := cs } :=
  ⟨rfl, ⟨[], (List.append_nil _).symm, fun _ h => absurd h List.not_mem_nil⟩, fun _ => .inl, fun _ => .inl, h⟩

theorem refl (t : Strand) : t.Reread now ws t := of_cores (List.forall₂_same.2 fun c _ => .refl c)

theorem modCore {n : Nat} {f : Core → Core} (hf : ∀ co, t.cores[n]? = some co → co.Reread now (f co)) : t.Reread now ws (t.modCore n f) :=
  of_cores (forall₂_modify_at Core.Reread.refl t.cores n hf)

theorem modCl {n k : Nat} {f : Cluster → Cluster} (hf : (t.clusterAt n k).Reread now (f (t.clusterAt n k))) :
    t.Reread now ws (t.modCl n k f) :=
  modCore fun co hco => .modCl co k (by rwa [Strand.clusterAt_eq hco] at hf)

/-- Fills begun, and none of the others ended. -/
theorem of_fills {fs : List Fill} (h : ∀ f ∈ fs, f ∈ t.fills ∨ f.ended = none) : t.Reread now ws { t with fills := fs } :=
  ⟨rfl, ⟨[], (List.append_nil _).symm, fun _ h => absurd h List.not_mem_nil⟩, h, fun _ => .inl,
    List.forall₂_same.2 fun c _ => .refl c⟩

theorem of_walks {vs : List PageWalk} (h : ∀ w ∈ vs, w ∈ t.walks ∨ w.ended = none ∧ ∃ o ∈ ws, w.vas = o.vas ∧ w.beat = o.beat) :
    t.Reread now ws { t with walks := vs } :=
  ⟨rfl, ⟨[], (List.append_nil _).symm, fun _ h => absurd h List.not_mem_nil⟩, fun _ => .inl, h,
    List.forall₂_same.2 fun c _ => .refl c⟩

theorem of_waitSaw (ids : List Nat) : t.Reread now ws { t with waitSaw := ids } :=
  ⟨rfl, ⟨[], (List.append_nil _).symm, fun _ h => absurd h List.not_mem_nil⟩, fun _ => .inl, fun _ => .inl,
    List.forall₂_same.2 fun c _ => .refl c⟩

theorem raise (t : Strand) {c : Cause} (hc : c.kind = .q) : t.Reread now ws (t.raise c) :=
  ⟨rfl, ⟨_, rfl, fun _ hx => List.mem_singleton.1 hx ▸ hc⟩, fun _ => .inl, fun _ => .inl, List.forall₂_same.2 fun c _ => .refl c⟩

theorem stack (h : t.Reread now ws y) : y.stack = t.stack := by rw [h.rest]

theorem clusterAt (h : t.Reread now ws y) (n k : Nat) (hm : (t.clusterAt n k).inMask = true) : (y.clusterAt n k).inMask = true := by
  have hlen := h.cores.length_eq
  cases hc : y.cores[n]? with
  | none =>
    have : t.cores[n]? = none := by simp_all
    simp [Strand.clusterAt, this] at hm
    simp [Strand.clusterAt, hc, hm]
  | some e =>
    obtain ⟨c, hco, hce⟩ := forall₂_getElem? h.cores hc
    rw [Strand.clusterAt_eq hc, hce.inMask]
    rwa [Strand.clusterAt_eq hco] at hm

end Strand.Reread

/-- A fold whose steps each leave the strand so. -/
theorem Strand.reread_foldl {now : Nat} {ws : List PageWalk} {α : Type} {f : Strand → α → Strand} (hf : ∀ (t : Strand) x, t.Reread now ws (f t x))
    (xs : List α) (t : Strand) : t.Reread now ws (xs.foldl f t) := by
  induction xs generalizing t with
  | nil => exact .refl t
  | cons x xs ih => exact (hf t x).trans (ih _)

theorem Strand.reread_dropFills {now : Nat} {ws : List PageWalk} (t : Strand) : t.Reread now ws t.dropFills := by
  refine Strand.reread_foldl (fun t l => ?_) _ t
  split
  · exact .modCl (.of_l0 ..)
  · exact .modCore fun co _ => .of_l1 ..

theorem Strand.dropFills_sid (t : Strand) : t.dropFills.sid = t.sid := by
  rw [(t.reread_dropFills (now := 0) (ws := [])).rest]

/-! ## Every context of the mask -/

/-- A core whose contexts in the mask have been changed by `f`. -/
def Core.Masked (f : Cluster → Cluster) (c e : Core) : Prop :=
  e = { c with cl := e.cl } ∧ ∀ k < 4, e.cluster k = if (c.cluster k).inMask = true then f (c.cluster k) else c.cluster k

theorem Strand.mem_contexts {t : Strand} {r : CRef} : r ∈ t.contexts ↔ r.strand = t.sid ∧ r.cl < 4 ∧
    ∃ co, t.cores[r.core]? = some co ∧ (co.cluster r.cl).inMask = true := by
  simp only [Strand.contexts, List.mem_flatMap, List.mem_range]
  constructor
  · rintro ⟨n, hn, hr⟩
    rw [List.getElem?_eq_getElem hn] at hr
    obtain ⟨k, hk, rfl⟩ := List.mem_map.1 hr
    obtain ⟨hk, hm⟩ := List.mem_filter.1 hk
    exact ⟨rfl, List.mem_range.1 hk, _, List.getElem?_eq_getElem hn, hm⟩
  · rintro ⟨hs, hk, co, hco, hm⟩
    obtain ⟨hn, -⟩ := List.getElem?_eq_some_iff.1 hco
    refine ⟨r.core, hn, ?_⟩
    rw [hco]
    exact List.mem_map.2 ⟨r.cl, List.mem_filter.2 ⟨List.mem_range.2 hk, hm⟩, by rw [← hs]⟩

theorem Strand.inMask_of_contexts {t : Strand} {r : CRef} (h : r ∈ t.contexts) : (t.clusterAt r.core r.cl).inMask = true := by
  obtain ⟨-, -, co, hco, hm⟩ := Strand.mem_contexts.1 h
  rwa [Strand.clusterAt_eq hco]

/-- A core some of whose contexts have been changed by `f`. -/
def Core.ChangedAt (f : Cluster → Cluster) (at_ : Nat → Prop) (c e : Core) : Prop :=
  e = { c with cl := e.cl } ∧ ∀ k < 4, (at_ k → e.cluster k = f (c.cluster k)) ∧ (¬ at_ k → e.cluster k = c.cluster k)

/-- One step after another: a change that is the same when it is made twice. -/
theorem Core.ChangedAt.modCl {f : Cluster → Cluster} (hf : ∀ x, f (f x) = f x) {c e : Core} {at_ : Nat → Prop} {j : Nat}
    (h : (c.modCl j f).ChangedAt f at_ e) : c.ChangedAt f (fun k => k = j ∨ at_ k) e := by
  refine ⟨h.1, fun k hk => ?_⟩
  obtain ⟨hin, hout⟩ := h.2 k hk
  by_cases hj : j = k
  · subst hj
    rw [Core.cluster_modCl _ _ hk] at hin hout
    refine ⟨fun _ => ?_, fun hn => absurd (.inl rfl) hn⟩
    by_cases hat : at_ j
    · rw [hin hat, hf]
    · exact hout hat
  · rw [Core.cluster_modCl_ne _ _ hj] at hin hout
    exact ⟨fun h => hin (h.resolve_left (Ne.symm hj)), fun hn => hout fun h => hn (.inr h)⟩

/-- A change of every context leaves all but the cores. -/
theorem Strand.mapCl_rest (t : Strand) (f : Cluster → Cluster) : t.mapCl f = { t with cores := (t.mapCl f).cores } := by
  have hfold (rs : List CRef) : ∀ u : Strand, rs.foldl (fun t r => t.modCl r.core r.cl f) u =
      { u with cores := (rs.foldl (fun t r => t.modCl r.core r.cl f) u).cores } := by
    induction rs with
    | nil => exact fun _ => rfl
    | cons r rs ih => exact fun u => ih (u.modCl r.core r.cl f)
  exact hfold t.contexts t

theorem Strand.foldl_modCl {f : Cluster → Cluster} (hf : ∀ x, f (f x) = f x) (rs : List CRef) : ∀ (t : Strand) (n : Nat) (e : Core),
    (rs.foldl (fun t r => t.modCl r.core r.cl f) t).cores[n]? = some e →
      ∃ c : Core, t.cores[n]? = some c ∧ c.ChangedAt f (fun k => ∃ r ∈ rs, r.core = n ∧ r.cl = k) e := by
  induction rs with
  | nil => exact fun t n e he => ⟨e, he, rfl, fun k _ => ⟨fun ⟨_, h, _⟩ => absurd h List.not_mem_nil, fun _ => rfl⟩⟩
  | cons r rs ih =>
    intro t n e he
    obtain ⟨c', hc', hch⟩ := ih (t.modCl r.core r.cl f) n e he
    have hmod : (t.cores.modify r.core fun c => c.modCl r.cl f)[n]? = some c' := hc'
    rw [List.getElem?_modify] at hmod
    obtain ⟨c, hc, rfl⟩ := Option.map_eq_some_iff.1 hmod
    refine ⟨c, hc, ?_⟩
    by_cases hn : r.core = n
    · rw [if_pos hn] at hch
      obtain ⟨hrest, hcl⟩ := hch.modCl hf
      refine ⟨hrest, fun k hk => ?_⟩
      obtain ⟨hin, hout⟩ := hcl k hk
      simp only [List.mem_cons, exists_eq_or_imp]
      exact ⟨fun h => hin (h.imp (fun h => h.2.symm) id), fun hno => hout fun h => hno (h.imp (fun h => ⟨hn, h.symm⟩) id)⟩
    · rw [if_neg hn] at hch
      refine ⟨hch.1, fun k hk => ?_⟩
      obtain ⟨hin, hout⟩ := hch.2 k hk
      simp only [List.mem_cons, exists_eq_or_imp]
      exact ⟨fun h => hin (h.resolve_left fun h => hn h.1), fun hno => hout fun h => hno (.inr h)⟩

theorem Strand.foldl_modCl_length {f : Cluster → Cluster} (rs : List CRef) (t : Strand) :
    (rs.foldl (fun t r => t.modCl r.core r.cl f) t).cores.length = t.cores.length := by
  induction rs generalizing t with
  | nil => rfl
  | cons r rs ih => exact (ih _).trans (List.length_modify ..)

/-- A change of every context of the mask, the same when it is made twice. -/
theorem Strand.mapCl_masked (t : Strand) {f : Cluster → Cluster} (hf : ∀ x, f (f x) = f x) :
    List.Forall₂ (Core.Masked f) t.cores (t.mapCl f).cores := by
  refine List.forall₂_iff_get.2 ⟨(Strand.foldl_modCl_length _ t).symm, fun n hn hn' => ?_⟩
  obtain ⟨c, hc, hch⟩ := Strand.foldl_modCl hf t.contexts t n _ (List.getElem?_eq_getElem hn')
  obtain rfl : t.cores[n] = c := Option.some.inj ((List.getElem?_eq_getElem hn).symm.trans hc)
  refine ⟨hch.1, fun k hk => ?_⟩
  have hat : (∃ r ∈ t.contexts, r.core = n ∧ r.cl = k) ↔ (t.cores[n].cluster k).inMask = true := by
    constructor
    · rintro ⟨r, hr, rfl, rfl⟩
      obtain ⟨-, -, co, hco, hm⟩ := Strand.mem_contexts.1 hr
      rwa [Option.some.inj (hc.symm.trans hco)]
    · exact fun hm => ⟨⟨t.sid, n, k⟩, Strand.mem_contexts.2 ⟨rfl, hk, _, hc, hm⟩, rfl, rfl⟩
  split
  next h => exact (hch.2 k hk).1 (hat.2 h)
  next h => exact (hch.2 k hk).2 (mt hat.1 h)

end Sys2Proof.Machine
end

section
/-! The state in which a held strand goes on (R92, R287): its waits are read, its bundles looked up and its walks begun afresh. -/

namespace Sys2Proof.Machine

/-! ## The frame -/

/-- What fetching, translating and reading waits leave of a state but for its strands. -/
structure State.Refetched (s u : State) : Prop where
  rest : u = { s with strands := u.strands, stks := u.stks, tasks := u.tasks, freeCtr := u.freeCtr }
  stack : ∀ k < 4, (s.stack k).Refilled (u.stack k)
  tasks : List.Forall₂ Task.Noted s.tasks u.tasks

namespace State.Refetched

variable {s u v : State}

theorem of_strands (h : u = { s with strands := u.strands, freeCtr := u.freeCtr }) : s.Refetched u where
  rest := h.trans (by rw [h])
  stack k _ := by rw [h]; exact Eq.refl (s.stack k)
  tasks := by rw [h]; exact List.forall₂_same.2 fun _ _ => rfl

theorem refl (s : State) : s.Refetched s := of_strands rfl

theorem trans (h : s.Refetched u) (h' : u.Refetched v) : s.Refetched v where
  rest := h'.rest.trans
    (congrArg (fun x : State => { x with strands := v.strands, stks := v.stks, tasks := v.tasks, freeCtr := v.freeCtr }) h.rest)
  stack k hk := (h.stack k hk).trans (h'.stack k hk)
  tasks := forall₂_trans (R := Task.Noted) Task.Noted.trans h.tasks h'.tasks

theorem modStrand (s : State) (sid : Nat) (f : Strand → Strand) : s.Refetched (s.modStrand sid f) := of_strands rfl

theorem of_fetched {sid : Nat} (h : s.Fetched sid u) : s.Refetched u where
  rest := h.rest.trans (by rw [h.rest])
  stack := h.stack
  tasks := h.tasks

theorem cyc (h : s.Refetched u) (k : Nat) : (u.stack k).cyc = (s.stack k).cyc := by
  by_cases hk : k < 4
  · rw [h.stack k hk]
  · rw [State.stack_out hk, State.stack_out hk]

theorem up (h : s.Refetched u) (k : Nat) : (u.stack k).up = (s.stack k).up := by
  by_cases hk : k < 4
  · rw [h.stack k hk]
  · rw [State.stack_out hk, State.stack_out hk]

theorem unitsLive (h : s.Refetched u) (t : Strand) : u.unitsLive t = s.unitsLive t := by
  have hp : u.powerOf = s.powerOf := by rw [h.rest]; rfl
  simp only [State.unitsLive, State.coreLive, State.stackLive, hp, h.up]

end State.Refetched

/-! ## One strand of a state -/

/-- A strand that is as it was, unless it has an identifier; its own stays. -/
def Strand.KeptBut (sid : Nat) (p q : Strand) : Prop := q.sid = p.sid ∧ (p.sid ≠ sid → q = p)

theorem Strand.KeptBut.refl (sid : Nat) (p : Strand) : p.KeptBut sid p := ⟨rfl, fun _ => rfl⟩

theorem Strand.KeptBut.trans {sid : Nat} {p q r : Strand} (h : p.KeptBut sid q) (h' : q.KeptBut sid r) : p.KeptBut sid r :=
  ⟨h'.1.trans h.1, fun hne => (h'.2 (by rwa [h.1])).trans (h.2 hne)⟩

theorem State.keptBut_modStrand (s : State) {sid : Nat} {f : Strand → Strand} (hsid : ∀ p, (f p).sid = p.sid) :
    List.Forall₂ (Strand.KeptBut sid) s.strands (s.modStrand sid f).strands := by
  refine forall₂_map_self (fun p => ?_) _
  split
  next h => exact ⟨hsid p, fun hne => absurd (beq_iff_eq.1 h) hne⟩
  next => exact .refl sid p

/-- A state in which one strand has fetched, translated and read its waits. -/
structure State.Rereads (sid : Nat) (ws : List PageWalk) (s u : State) : Prop where
  frame : s.Refetched u
  others : List.Forall₂ (Strand.KeptBut sid) s.strands u.strands
  found : ∀ t, s.strand? sid = some t → ∃ y, u.strand? sid = some y ∧ t.Reread (s.stack t.stack).cyc ws y

/-- Strands with the same identifiers, one by one, are found together. -/
theorem find_sid_of_forall₂ {sid : Nat} {xs ys : List Strand} (h : List.Forall₂ (Strand.KeptBut sid) xs ys)
    (hn : xs.find? (fun t => t.sid == sid) = none) : ys.find? (fun t => t.sid == sid) = none := by
  induction h with
  | nil => rfl
  | cons hpq _ ih =>
    rw [List.find?_cons] at hn ⊢
    rw [hpq.1]
    split at hn
    · cases hn
    · exact ih hn

namespace State.Rereads

variable {sid : Nat} {ws : List PageWalk} {s u v : State}

theorem of_same (h : s.Refetched u) (hs : u.strands = s.strands) : s.Rereads sid ws u where
  frame := h
  others := hs ▸ List.forall₂_same.2 fun p _ => .refl sid p
  found t ht := ⟨t, by rwa [State.strand?, hs], .refl t⟩

theorem refl (s : State) : s.Rereads sid ws s := of_same (.refl s) rfl

theorem trans (h : s.Rereads sid ws u) (h' : u.Rereads sid ws v) : s.Rereads sid ws v where
  frame := h.frame.trans h'.frame
  others := forall₂_trans (R := Strand.KeptBut sid) Strand.KeptBut.trans h.others h'.others
  found t ht := by
    obtain ⟨y, hy, hty⟩ := h.found t ht
    obtain ⟨z, hz, hyz⟩ := h'.found y hy
    rw [hty.stack, h.frame.cyc] at hyz
    exact ⟨z, hz, hty.trans hyz⟩

theorem back (h : s.Rereads sid ws u) {y : Strand} (hy : u.strand? sid = some y) :
    ∃ t, s.strand? sid = some t ∧ t.Reread (s.stack t.stack).cyc ws y := by
  cases ht : s.strand? sid with
  | none => exact absurd hy (by rw [State.strand?, find_sid_of_forall₂ h.others ht]; simp)
  | some t =>
    obtain ⟨z, hz, htz⟩ := h.found t ht
    exact ⟨t, rfl, Option.some.inj (hy.symm.trans hz) ▸ htz⟩

theorem modStrand {f : Strand → Strand} (hsid : ∀ p, (f p).sid = p.sid)
    (hf : ∀ t, s.strand? sid = some t → t.Reread (s.stack t.stack).cyc ws (f t)) : s.Rereads sid ws (s.modStrand sid f) where
  frame := .modStrand s sid f
  others := s.keptBut_modStrand hsid
  found t ht := ⟨f t, State.strand_modStrand_found hsid ht, hf t ht⟩

end State.Rereads

/-- The context that is named stands in its strand's mask, if there is such a strand. -/
def State.InMask (s : State) (r : CRef) : Prop := ∀ t, s.strand? r.strand = some t → (t.clusterAt r.core r.cl).inMask = true

theorem State.InMask.rereads {s u : State} {r : CRef} {ws : List PageWalk} (hm : s.InMask r) (h : s.Rereads r.strand ws u) : u.InMask r := by
  intro y hy
  obtain ⟨t, ht, hty⟩ := h.back hy
  exact hty.clusterAt _ _ (hm t ht)

theorem State.inMask_of_contexts {s : State} {sid : Nat} {t : Strand} (ht : s.strand? sid = some t) {r : CRef} (hr : r ∈ t.contexts) :
    r.strand = sid ∧ s.InMask r := by
  have hs : r.strand = sid := (Strand.mem_contexts.1 hr).1.trans (State.strand_sid ht)
  refine ⟨hs, fun x hx => ?_⟩
  rw [hs, ht] at hx
  exact Option.some.inj hx ▸ Strand.inMask_of_contexts hr

/-- Steps that each leave a state so, where what they rest on outlasts such steps; `p` reads the state out of what the steps carry. -/
theorem State.Rereads.foldl {sid : Nat} {ws : List PageWalk} {α β : Type} {p : β → State} {f : β → α → β} {I : State → α → Prop}
    (hI : ∀ {s u : State} {x}, I s x → s.Rereads sid ws u → I u x) (hf : ∀ b x, I (p b) x → (p b).Rereads sid ws (p (f b x))) (xs : List α) :
    ∀ b, (∀ x ∈ xs, I (p b) x) → (p b).Rereads sid ws (p (xs.foldl f b)) := by
  induction xs with
  | nil => exact fun b _ => refl (p b)
  | cons x xs ih =>
    intro b hxs
    have h := hf b x (hxs x List.mem_cons_self)
    exact h.trans (ih (f b x) fun y hy => hI (hxs y (List.mem_cons_of_mem _ hy)) h)

/-! ## Lines (R91, R92) -/

namespace State.Rereads

variable {ws : List PageWalk}

theorem fetchL1 {s s' : State} {sid core n : Nat} {bs : List Byte} (h : s.fetchL1 { strand := sid, core } n = some (s', bs)) :
    s.Rereads sid ws s' := by
  cases ht : s.strand? sid with
  | none => simp [State.fetchL1, ht] at h
  | some t =>
    cases hc : t.cores[core]? with
    | none => simp [State.fetchL1, ht, hc] at h
    | some co =>
      cases hb : s.lineFor t co n with
      | none => simp [State.fetchL1_none (r := ⟨sid, core⟩) ht hc hb] at h
      | some cs =>
        cases hl : lineBytes co.l1 n with
        | some ds =>
          rw [State.fetchL1_held (r := ⟨sid, core⟩) ht hc hb (by rw [hl]; rfl)] at h
          obtain rfl := congrArg Prod.fst (Option.some.inj h)
          exact refl s
        | none =>
          rw [State.fetchL1_placed (r := ⟨sid, core⟩) ht hc hb hl] at h
          obtain rfl := congrArg Prod.fst (Option.some.inj h)
          have hfill : s.Rereads sid ws (s.fillFor t co n) := by
            refine of_same (.of_fetched (sid := sid) (.fillFor ..)) ?_
            unfold State.fillFor
            split <;> [unfold State.noteUse State.cacheLine State.tlbFill; skip]
            · split <;> rfl
            · rfl
          exact hfill.trans (modStrand (fun _ => rfl) fun t _ => .modCore fun co _ => .of_l1 ..)

theorem fetchInL0 {s s' : State} {r : CRef} {n : Nat} (hm : s.InMask r) (h : s.fetchInL0 r n = some s') : s.Rereads r.strand ws s' := by
  unfold State.fetchInL0 at h
  split at h
  · cases h
  · next hl1 =>
    obtain rfl := Option.some.inj h
    have hfetch := fetchL1 (ws := ws) hl1
    refine hfetch.trans (modStrand (fun _ => rfl) fun t ht => .modCl ?_)
    have hin := hm.rereads hfetch t ht
    split
    · exact .refl _
    · exact .of_lines hin ..

theorem lookUp (r : CRef) (pc : Nat) (ls : Cluster → List Line) (n : Nat) :
    ∀ (s : State) (missed : Bool), s.InMask r → s.Rereads r.strand ws (s.lookUp r pc ls n missed).1 := by
  induction n with
  | zero => exact fun s _ _ => refl s
  | succ n ih =>
    intro s missed hm
    unfold State.lookUp
    split
    · exact refl s
    · split
      · split
        next hl0 => exact (fetchInL0 hm hl0).trans (ih _ _ (hm.rereads (fetchInL0 (ws := ws) hm hl0)))
        next => exact refl s
      · exact refl s

theorem beginFill (s : State) (sid beat : Nat) (lines : List (Nat × Option Nat × Nat)) : s.Rereads sid ws (s.beginFill sid beat lines) := by
  have hfresh : s.Rereads sid ws s.fresh.2 := of_same (.of_strands rfl) rfl
  refine hfresh.trans (modStrand (fun _ => rfl) fun t _ => .of_fills fun f hf => (List.mem_append.1 hf).imp id fun h => ?_)
  rw [List.mem_singleton.1 h]

theorem lookWalk (r : CRef) (from_ : Nat) (free : Option Nat) (n : Nat) : ∀ (s : State) (k : Nat) (qs : List (Seq × Bool)) (y : Nat),
    s.InMask r → s.Rereads r.strand ws (s.lookWalk r from_ free k qs y n) := by
  induction n with
  | zero => exact fun s _ _ _ _ => refl s
  | succ n ih =>
    intro s k qs y hm
    unfold State.lookWalk
    split
    · exact refl s
    · split
      · exact ih _ _ _ _ hm
      · extract_lets u s1 c
        have hI {s u : State} {q : Seq × Bool} : s.InMask r → s.Rereads r.strand ws u → u.InMask r := State.InMask.rereads
        have hu : s.Rereads r.strand ws u.1 := by
          unfold u
          split
          · exact foldl (p := Prod.fst) (I := fun s _ => s.InMask r) (@hI) (fun _ _ h => lookUp _ _ _ _ _ _ h) qs (s, false) fun _ _ => hm
          · split
            · exact foldl (p := id) (I := fun s _ => s.InMask r) (@hI) (fun _ _ h => lookUp _ _ _ _ _ _ h) qs s fun _ _ => hm
            · exact refl s
        have hs1 : s.Rereads r.strand ws s1 := by
          unfold s1
          split
          · exact hu.trans (beginFill ..)
          · exact hu
        exact hs1.trans (ih _ _ _ _ (hm.rereads hs1))

theorem lookAhead (s : State) (sid from_ : Nat) : s.Rereads sid ws (s.lookAhead sid from_) := by
  unfold State.lookAhead
  split
  · exact refl s
  · next t ht =>
    have hI {s u : State} {r : CRef} (hm : r.strand = sid ∧ s.InMask r) (h : s.Rereads sid ws u) : r.strand = sid ∧ u.InMask r :=
      ⟨hm.1, hm.2.rereads (hm.1.symm ▸ h)⟩
    refine foldl (p := id) (I := fun s r => r.strand = sid ∧ s.InMask r) (@hI) (fun b r hr => ?_) _ s fun r hr =>
      State.inMask_of_contexts ht hr
    obtain ⟨rfl, hm⟩ := hr
    exact lookWalk _ _ _ _ _ _ _ _ hm

/-! ## Walks (R69, R287) -/

theorem rewalk (t : Strand) (os : List PageWalk) (hos : ∀ o ∈ os, ∃ w ∈ ws, o.vas = w.vas ∧ o.beat = w.beat) :
    ∀ s : State, s.Rereads t.sid ws (s.rewalk t os) := by
  induction os with
  | nil => exact refl
  | cons o os ih =>
    intro s
    have hrest := ih fun x hx => hos x (List.mem_cons_of_mem _ hx)
    unfold State.rewalk
    split
    · exact hrest s
    · have hfresh : s.Rereads t.sid ws s.fresh.2 := of_same (.of_strands rfl) rfl
      refine trans (trans hfresh ?_) (hrest _)
      refine modStrand (fun _ => rfl) fun u _ => .of_walks fun w hw => (List.mem_append.1 hw).imp id fun h => ?_
      rw [List.mem_singleton.1 h]
      exact ⟨rfl, hos o List.mem_cons_self⟩

/-! ## Waits (R21, R233, R287) -/

theorem noteUse (s : State) (sid task : Nat) (us : List HwUnit) : s.Rereads sid ws (s.noteUse task us) :=
  of_same (.of_fetched (sid := sid) (.noteUse ..)) rfl

/-- A wait whose condition is seen. -/
theorem seen {s : State} {r : CRef} {q : QView} (hm : s.InMask r) (hq : s.qview r = some q) (w : Wait) :
    s.Rereads r.strand ws (q.mod s fun c => { c with waits := c.waits.map fun x =>
      if x == w then { w with seenAt := some (s.stack q.st.stack).cyc } else x }) := by
  obtain ⟨hst, hco, rfl⟩ : s.strand? r.strand = some q.st ∧ q.st.cores[r.core]? = some q.co ∧ q.ref = r := by
    unfold State.qview at hq
    split at hq
    · cases hq
    · next t ht =>
      split at hq
      · cases hq
      · next co hco =>
        obtain rfl := Option.some.inj hq
        exact ⟨ht, hco, rfl⟩
  refine modStrand (fun _ => rfl) fun t ht => .modCl ?_
  obtain rfl : q.st = t := Option.some.inj (hst.symm.trans ht)
  refine .of_mask (hm q.st ht) rfl (forall₂_map_self (fun x => ?_) _)
  split
  next hx => exact beq_iff_eq.1 hx ▸ ⟨rfl, .inr rfl⟩
  next => exact .refl _ x

end State.Rereads

end Sys2Proof.Machine
end

section
namespace Sys2Proof.Machine
namespace State.Rereads

variable {ws : List PageWalk}


theorem lookWait (s : State) (r : CRef) (w : Wait) (hm : s.InMask r) : s.Rereads r.strand ws (s.lookWait r w) := by
  unfold State.lookWait
  split
  · exact refl s
  · next q hq =>
    extract_lets cyc set u
    obtain ⟨hu, huq, hcyc⟩ : s.Rereads r.strand ws u ∧ u.qview r = some q ∧ cyc = (u.stack q.st.stack).cyc := by
      unfold u
      split
      · exact ⟨noteUse .., hq, rfl⟩
      · exact ⟨noteUse .., hq, rfl⟩
      · exact ⟨refl s, hq, rfl⟩
    have hum := hm.rereads hu
    refine hu.trans ?_
    split
    · refine trans ?_ (modStrand (fun _ => rfl) fun t _ => .of_waitSaw _)
      rw [hcyc]
      exact seen hum huq w
    · split
      · exact refl u
      · exact refl u
      · exact of_same (.of_strands rfl) rfl
    · split
      · exact refl u
      · exact modStrand (fun _ => rfl) fun t _ => .raise t rfl

theorem lookWaitsOf {s : State} {sid : Nat} {t : Strand} (ht : s.strand? sid = some t) : s.Rereads sid ws (s.lookWaitsOf t) := by
  have hI {s u : State} {r : CRef} (hm : r.strand = sid ∧ s.InMask r) (h : s.Rereads sid ws u) : r.strand = sid ∧ u.InMask r :=
    ⟨hm.1, hm.2.rereads (hm.1.symm ▸ h)⟩
  refine foldl (p := id) (I := fun s r => r.strand = sid ∧ s.InMask r) (@hI) (fun b r hr => ?_) _ s fun r hr =>
    State.inMask_of_contexts ht hr
  obtain ⟨rfl, hm⟩ := hr
  exact foldl (p := id) (I := fun s _ => s.InMask r) (fun hm h => hm.rereads h) (fun b w hm => lookWait b r w hm) _ b fun _ _ => hm

theorem lookWaitsAfresh (s : State) (sid : Nat) : s.Rereads sid ws (s.lookWaitsAfresh sid) := by
  unfold State.lookWaitsAfresh
  split
  · exact refl s
  · next t ht => exact lookWaitsOf ht

end State.Rereads

/-! ## Fetching and translating afresh (R92, R287) -/

/-- A strand that has given up the lines and walks on their way. -/
def Strand.cleared (t : Strand) : Strand :=
  let t : Strand := { t.dropFills with walks := [] }
  { t.mapCl (fun c => { c with gone := [] }) with fills := [] }

theorem Core.Masked.reread {now : Nat} {f : Cluster → Cluster} (hf : ∀ x : Cluster, x.inMask = true → x.Reread now (f x)) {c e : Core}
    (h : c.Masked f e) : c.Reread now e := by
  refine ⟨h.1.trans (by rw [h.1]), fun k hk => ?_⟩
  rw [h.2 k hk]
  split
  next hm => exact hf _ hm
  next => exact .refl _

theorem Strand.cleared_sid (t : Strand) : t.cleared.sid = t.sid := by
  rw [Strand.cleared, Strand.mapCl_rest, t.dropFills_sid]

theorem Strand.reread_cleared {now : Nat} {ws : List PageWalk} (t : Strand) : t.Reread now ws t.cleared := by
  have hdrop : t.Reread now ws { t.dropFills with walks := [] } := t.reread_dropFills.trans (.of_walks fun _ h => absurd h List.not_mem_nil)
  refine hdrop.trans ?_
  set u : Strand := { t.dropFills with walks := [] }
  have hcores : u.Reread now ws (u.mapCl fun c => { c with gone := [] }) := by
    rw [u.mapCl_rest]
    exact .of_cores ((u.mapCl_masked (f := fun c => { c with gone := [] }) fun _ => rfl).imp fun _ _ h => h.reread fun x hx => .of_lines hx ..)
  exact hcores.trans (.of_fills fun _ h => absurd h List.not_mem_nil)

theorem Strand.cleared_walks (t : Strand) : t.cleared.walks = [] := by
  rw [Strand.cleared, Strand.mapCl_rest]

theorem State.afresh_of {s : State} {sid : Nat} {t : Strand} (ht : s.strand? sid = some t) :
    s.afresh sid = ((s.modStrand sid Strand.cleared).lookAhead sid t.beat).rewalk t t.walks := by
  have hone := State.strand_modStrand_found (f := fun t : Strand => { t.dropFills with walks := [] }) Strand.dropFills_sid ht
  have hbeat : t.dropFills.beat = t.beat := by rw [(t.reread_dropFills (now := 0) (ws := [])).rest]
  simp only [State.afresh, ht, State.lookStart, hone, hbeat]
  congr 2
  simp only [State.modStrand, List.map_map]
  congr 1
  refine List.map_congr_left fun x _ => ?_
  by_cases hx : x.sid = sid <;> simp [hx, Strand.cleared, Strand.dropFills_sid]

/-! ## Going on (R287, R288) -/

/-- A wait that is read afresh by the strand's next slot. -/
def Wait.GoesOn (now cyc : Nat) (w z : Wait) : Prop :=
  z = { w with cyc0 := cyc, seenAt := z.seenAt } ∧ (z.seenAt = none ∨ z.seenAt = some now)

/-- A context of a strand that goes on. -/
def Cluster.GoesOn (now cyc : Nat) (x y : Cluster) : Prop :=
  (x.inMask = false → y = { x with l0 := y.l0 }) ∧
  (x.inMask = true → y = { x with
    l0 := y.l0, gone := y.gone, waits := y.waits, rdv := x.rdv.map fun d => { d with since := d.since.map fun _ => cyc } } ∧
    List.Forall₂ (Wait.GoesOn now cyc) x.waits y.waits)

/-- A core of a strand that goes on. -/
def Core.GoesOn (now cyc : Nat) (c e : Core) : Prop :=
  e = { c with l1 := e.l1, cl := e.cl } ∧ ∀ k < 4, (c.cluster k).GoesOn now cyc (e.cluster k)

/-- A strand that goes on where its stack's cycle is `now`. -/
def Strand.GoesOn (now : Nat) (t y : Strand) : Prop :=
  y = { t with
    status := .run, linkHeld := false, holdReq := false, holdAt := none, fills := y.fills, walks := y.walks, cores := y.cores,
    raised := y.raised, waitSaw := y.waitSaw, region := { t.region with since := max now t.nextCyc } } ∧
  (∃ new, y.raised = t.raised ++ new ∧ ∀ c ∈ new, c.kind = .q) ∧
  (∀ f ∈ y.fills, f.ended = none) ∧ (∀ w ∈ y.walks, w.ended = none ∧ ∃ o ∈ t.walks, w.vas = o.vas ∧ w.beat = o.beat) ∧
  List.Forall₂ (Core.GoesOn now (max now t.nextCyc)) t.cores y.cores

/-- A context whose watchdogs start again and whose waits are to be read afresh. -/
def Cluster.anew (cyc : Nat) (c : Cluster) : Cluster :=
  { c with rdv := c.rdv.map (fun d => { d with since := d.since.map fun _ => cyc }),
           waits := c.waits.map fun w => { w with cyc0 := cyc, seenAt := none } }

theorem Cluster.anew_twice (cyc : Nat) (c : Cluster) : (c.anew cyc).anew cyc = c.anew cyc := by
  simp only [Cluster.anew, Option.map_map, List.map_map]
  congr 1
  congr 1
  funext d
  simp [Function.comp_def]

theorem Cluster.goesOn_of {now cyc : Nat} {x y : Cluster}
    (h : (if x.inMask = true then x.anew cyc else x).Reread now y) : x.GoesOn now cyc y := by
  refine ⟨fun hx => ?_, fun hx => ?_⟩
  · rw [if_neg (by simp [hx])] at h
    exact h.1 hx
  · rw [if_pos hx] at h
    obtain ⟨hy, hw⟩ := h.2 hx
    refine ⟨hy.trans rfl, forall₂_comp (fun hab hbc => ?_) (forall₂_map_self (R := fun w z : Wait => z = { w with cyc0 := cyc, seenAt := none })
      (fun _ => rfl) x.waits) hw⟩
    exact ⟨hbc.1.trans (by rw [hab]), hbc.2.imp (fun h => h.trans (by rw [hab])) id⟩

theorem Core.goesOn_of {now cyc : Nat} {c d e : Core} (h : c.Masked (Cluster.anew cyc) d) (h' : d.Reread now e) : c.GoesOn now cyc e :=
  ⟨h'.1.trans (by rw [h.1]), fun k hk => Cluster.goesOn_of (h.2 k hk ▸ h'.2 k hk)⟩

theorem Strand.resumeAt_eq (t : Strand) (now : Nat) : t.resumeAt now = { t with
    status := .run, linkHeld := false, holdReq := false, holdAt := none, cores := (t.resumeAt now).cores,
    region := { t.region with since := max now t.nextCyc } } := by
  rw [Strand.resumeAt, Strand.anew, Strand.mapCl_rest]

theorem Strand.resumeAt_cores (t : Strand) (now : Nat) :
    List.Forall₂ (Core.Masked (Cluster.anew (max now t.nextCyc))) t.cores (t.resumeAt now).cores :=
  ({ t with region := { t.region with since := max now t.nextCyc } } : Strand).mapCl_masked (Cluster.anew_twice _)

/-- A strand that has been resumed, and cleared on its way, goes on. -/
theorem Strand.goesOn_of {now : Nat} {ws : List PageWalk} {t x y : Strand} (h : (t.resumeAt now).Reread now [] x)
    (hws : ws = x.walks) (h' : x.cleared.Reread now ws y) : t.GoesOn now y := by
  subst hws
  have hall : (t.resumeAt now).Reread now x.walks y := by
    refine .trans ?_ (x.reread_cleared.trans h')
    exact { h with walks := fun w hw => (h.walks w hw).elim .inl fun ⟨_, _, ho, _⟩ => absurd ho List.not_mem_nil }
  refine ⟨hall.rest.trans (by rw [t.resumeAt_eq]), ?_, fun f hf => ?_, fun w hw => ?_, forall₂_comp (S := Core.Reread now) (T := Core.GoesOn now (max now t.nextCyc)) Core.goesOn_of (t.resumeAt_cores now) hall.cores⟩
  · have hraised : (t.resumeAt now).raised = t.raised := by rw [t.resumeAt_eq]
    exact hraised ▸ hall.raised
  · exact (h'.fills f hf).resolve_left (by simp [Strand.cleared])
  · obtain ⟨hended, o, ho, hvas⟩ := (h'.walks w hw).resolve_left (by simp [x.cleared_walks])
    have hwalks : (t.resumeAt now).walks = t.walks := by rw [t.resumeAt_eq]
    refine ⟨hended, o, ?_, hvas⟩
    exact hwalks ▸ (h.walks o ho).resolve_right fun ⟨_, _, hno, _⟩ => absurd hno List.not_mem_nil

theorem Strand.resumeAt_sid (t : Strand) (now : Nat) : (t.resumeAt now).sid = t.sid := by rw [t.resumeAt_eq]

/-- A strand of a state goes on: everything else is as it was but for what fetching and translating change. -/
theorem State.afresh_rereads {s : State} {sid : Nat} : ∃ ws, s.Rereads sid ws (s.afresh sid) ∧
    ∀ t, s.strand? sid = some t → ws = t.walks ∧ ∃ y, (s.afresh sid).strand? sid = some y ∧ t.cleared.Reread (s.stack t.stack).cyc ws y := by
  cases ht : s.strand? sid with
  | none => exact ⟨[], by rw [State.afresh, ht]; exact .refl s, fun t h => by cases h⟩
  | some t =>
    have hclear : s.Rereads sid t.walks (s.modStrand sid Strand.cleared) := .modStrand Strand.cleared_sid fun t _ => t.reread_cleared
    have hrest : (s.modStrand sid Strand.cleared).Rereads sid t.walks (s.afresh sid) := by
      rw [State.afresh_of ht]
      refine (State.Rereads.lookAhead _ sid t.beat).trans ?_
      rw [← State.strand_sid ht]
      exact State.Rereads.rewalk t t.walks (fun o ho => ⟨o, ho, rfl, rfl⟩) _
    refine ⟨t.walks, hclear.trans hrest, fun x hx => ?_⟩
    obtain rfl := Option.some.inj hx
    obtain ⟨y, hy, hty⟩ := hrest.found _ (State.strand_modStrand_found Strand.cleared_sid ht)
    have hstack : t.cleared.stack = t.stack := (t.reread_cleared (now := 0) (ws := [])).stack
    rw [hstack] at hty
    exact ⟨rfl, y, hy, hty⟩

theorem State.resumeStrand_frame (s : State) (t : Strand) : s.Refetched (s.resumeStrand t) := by
  unfold State.resumeStrand
  split
  · obtain ⟨_, hafresh, -⟩ := State.afresh_rereads (sid := t.sid)
    exact (State.Refetched.modStrand ..).trans ((State.Rereads.lookWaitsAfresh (ws := []) ..).frame.trans hafresh.frame)
  · exact .refl s

/-- A held strand whose units are all ACTIVE goes on, and no other strand changes. -/
theorem State.resumeStrand_found {s : State} {t : Strand} (ht : s.strand? t.sid = some t) (hheld : t.status = .held)
    (hlive : s.unitsLive t = true) : List.Forall₂ (Strand.KeptBut t.sid) s.strands (s.resumeStrand t).strands ∧
    ∃ y, (s.resumeStrand t).strand? t.sid = some y ∧ t.GoesOn (s.stack t.stack).cyc y := by
  have hsid (p : Strand) : (p.resumeAt (s.stack p.stack).cyc).sid = p.sid := p.resumeAt_sid _
  rw [State.resumeStrand, if_pos (by simp [hheld, hlive])]
  set u := s.modStrand t.sid fun t => t.resumeAt (s.stack t.stack).cyc
  have hu : u.strand? t.sid = some (t.resumeAt (s.stack t.stack).cyc) := State.strand_modStrand_found hsid ht
  have hwaits := State.Rereads.lookWaitsAfresh (ws := []) u t.sid
  obtain ⟨ws, hafresh, hfound⟩ := State.afresh_rereads (s := u.lookWaitsAfresh t.sid) (sid := t.sid)
  obtain ⟨x, hx, htx⟩ := hwaits.found _ hu
  obtain ⟨hws, y, hy, hxy⟩ := hfound x hx
  have hstack : (t.resumeAt (s.stack t.stack).cyc).stack = t.stack := by rw [t.resumeAt_eq]
  rw [htx.stack, hwaits.frame.cyc, hstack] at hxy
  rw [hstack] at htx
  have htrans {xs ys zs : List Strand} : List.Forall₂ (Strand.KeptBut t.sid) xs ys → List.Forall₂ (Strand.KeptBut t.sid) ys zs →
    List.Forall₂ (Strand.KeptBut t.sid) xs zs := fun h h' => forall₂_trans (R := Strand.KeptBut t.sid) Strand.KeptBut.trans h h'
  exact ⟨htrans (htrans (s.keptBut_modStrand hsid) hwaits.others) hafresh.others, y, hy, Strand.goesOn_of htx hws hxy⟩

/-! ## Several strands (R288, R309) -/

theorem State.foldl_resumeStrand_frame (ts : List Strand) : ∀ s : State, s.Refetched (ts.foldl (fun s t => s.resumeStrand t) s) := by
  induction ts with
  | nil => exact .refl
  | cons t ts ih => exact fun s => (s.resumeStrand_frame t).trans (ih _)

/-- Where identifiers differ, the one strand that is not kept is the one that is found. -/
theorem forall₂_found {sid : Nat} {y : Strand} {xs ys : List Strand} (h : List.Forall₂ (Strand.KeptBut sid) xs ys)
    (hnd : (xs.map (·.sid)).Nodup) (hy : ys.find? (fun t => t.sid == sid) = some y) :
    List.Forall₂ (fun p q : Strand => (p.sid = sid → q = y) ∧ (p.sid ≠ sid → q = p)) xs ys := by
  induction h with
  | nil => exact .nil
  | @cons p q ps qs hpq hrest ih =>
    obtain ⟨hp, hnd⟩ := List.nodup_cons.1 hnd
    by_cases hs : p.sid = sid
    · obtain rfl : q = y := by simpa [List.find?_cons, hpq.1.trans hs] using hy
      refine .cons ⟨fun _ => rfl, fun hne => absurd hs hne⟩ (forall₂_of_mem hrest fun x hx z hxz => ?_)
      have hne : x.sid ≠ sid := fun hx' => hp (List.mem_map.2 ⟨x, hx, hx'.trans hs.symm⟩)
      exact ⟨fun he => absurd he hne, hxz.2⟩
    · rw [List.find?_cons, show (q.sid == sid) = false from beq_eq_false_iff_ne.2 (hpq.1 ▸ hs)] at hy
      exact .cons ⟨fun he => absurd he hs, hpq.2⟩ (ih hnd hy)

theorem map_sid_of_keptBut {sid : Nat} {xs ys : List Strand} (h : List.Forall₂ (Strand.KeptBut sid) xs ys) :
    ys.map (·.sid) = xs.map (·.sid) := by
  induction h with
  | nil => rfl
  | cons h _ ih => rw [List.map_cons, List.map_cons, h.1, ih]

theorem exists_of_forall₂ {α β : Type} {R : α → β → Prop} {xs : List α} {ys : List β} (h : List.Forall₂ R xs ys) {x : α} (hx : x ∈ xs) :
    ∃ y ∈ ys, R x y := by
  induction h with
  | nil => exact absurd hx List.not_mem_nil
  | cons hxy _ ih =>
    rcases List.mem_cons.1 hx with rfl | hx
    · exact ⟨_, List.mem_cons_self, hxy⟩
    · obtain ⟨y, hy, hxy⟩ := ih hx
      exact ⟨y, List.mem_cons_of_mem _ hy, hxy⟩

theorem strand_of_mem {s : State} (hnd : (s.strands.map (·.sid)).Nodup) {t : Strand} (ht : t ∈ s.strands) : s.strand? t.sid = some t := by
  cases hx : s.strand? t.sid with
  | none => exact absurd (List.find?_eq_none.1 hx t ht) (by simp)
  | some x => exact congrArg some (List.inj_on_of_nodup_map hnd (List.mem_of_find?_eq_some hx) ht (State.strand_sid hx))

/-- A strand that goes on if it can, and otherwise stays as it was. -/
def State.Resumes (s : State) (ts : List Strand) (p q : Strand) : Prop :=
  (p ∈ ts ∧ p.status = .held ∧ s.unitsLive p = true → p.GoesOn (s.stack p.stack).cyc q) ∧
  (¬ (p ∈ ts ∧ p.status = .held ∧ s.unitsLive p = true) → q = p)

theorem State.foldl_resumeStrand (ts : List Strand) : ∀ s : State, (s.strands.map (·.sid)).Nodup → (ts.map (·.sid)).Nodup → ts ⊆ s.strands →
    List.Forall₂ (s.Resumes ts) s.strands (ts.foldl (fun s t => s.resumeStrand t) s).strands := by
  induction ts with
  | nil =>
    exact fun s _ _ _ => List.forall₂_same.2 fun p _ => ⟨fun h => absurd h.1 List.not_mem_nil, fun _ => rfl⟩
  | cons t ts ih =>
    intro s hs hts hsub
    obtain ⟨htn, hts⟩ := List.nodup_cons.1 hts
    have hne {z : Strand} (hz : z ∈ ts) : z.sid ≠ t.sid := fun he => htn (List.mem_map.2 ⟨z, hz, he⟩)
    have ht := hsub List.mem_cons_self
    rw [List.foldl_cons]
    by_cases hgo : t.status = .held ∧ s.unitsLive t = true
    · have hframe := s.resumeStrand_frame t
      obtain ⟨hkept, y, hy, hty⟩ := State.resumeStrand_found (strand_of_mem hs ht) hgo.1 hgo.2
      have hstep := forall₂_found hkept hs hy
      have hsub' : ts ⊆ (s.resumeStrand t).strands := by
        intro z hz
        obtain ⟨w, hw, -, hzw⟩ := exists_of_forall₂ hstep (hsub (List.mem_cons_of_mem _ hz))
        exact hzw (hne hz) ▸ hw
      have hrest := ih (s.resumeStrand t) (by rwa [map_sid_of_keptBut hkept]) hts hsub'
      refine forall₂_of_mem (forall₂_comp (T := fun p r => ∃ q : Strand, ((p.sid = t.sid → q = y) ∧ (p.sid ≠ t.sid → q = p)) ∧
        (s.resumeStrand t).Resumes ts q r) (fun h h' => ⟨_, h, h'⟩) hstep hrest) fun p hp r ⟨q, ⟨hsame, hother⟩, hon, hoff⟩ => ?_
      by_cases hpt : p.sid = t.sid
      · obtain rfl : p = t := List.inj_on_of_nodup_map hs hp ht hpt
        obtain rfl := hsame rfl
        have hq : q.sid = p.sid := by rw [hty.1]
        obtain rfl : r = q := hoff fun h => hne h.1 hq
        exact ⟨fun _ => hty, fun h => absurd ⟨List.mem_cons_self, hgo⟩ h⟩
      · obtain rfl := hother hpt
        have hmem : q ∈ t :: ts ↔ q ∈ ts := by
          rw [List.mem_cons]
          exact or_iff_right fun h => hpt (congrArg Strand.sid h)
        rw [hframe.unitsLive, hframe.cyc] at hon
        rw [hframe.unitsLive] at hoff
        exact ⟨fun h => hon ⟨hmem.1 h.1, h.2⟩, fun h => hoff fun h' => h ⟨hmem.2 h'.1, h'.2⟩⟩
    · have hstay : s.resumeStrand t = s := if_neg (by simpa using hgo)
      rw [hstay]
      refine (ih s hs hts fun z hz => hsub (List.mem_cons_of_mem _ hz)).imp fun p q hpq => ?_
      have hmem : (p ∈ t :: ts ∧ p.status = .held ∧ s.unitsLive p = true) ↔ (p ∈ ts ∧ p.status = .held ∧ s.unitsLive p = true) := by
        rw [List.mem_cons]
        exact and_congr_left fun h => or_iff_right fun hpt => hgo (hpt ▸ h)
      unfold State.Resumes at hpq ⊢
      rwa [hmem]

end Sys2Proof.Machine
end

section
/-! HOLD, SAVE and RESTORE (R287 to R289, log 64). -/

namespace Sys2Proof.Machine

/-! ## PECMD's fields (R288) -/

theorem fld_extract (w : W64) (lo n : Nat) : fld w.toNat lo n = (w.extractLsb' lo n).toNat := by
  rw [BitVec.extractLsb'_toNat, Nat.shiftRight_eq_div_pow, fld]

/-- The strand stands in the context, and is the one named if one is. -/
def Strand.NamedBy (w : W64) (t : Strand) : Prop :=
  t.ctx = (w.extractLsb' 0 6).toNat ∧ (w.getLsbD 11 = true → t.sid = (w.extractLsb' 32 32).toNat)

theorem peNames_iff {w : W64} {t : Strand} : peNames w t = true ↔ t.NamedBy w := by
  simp only [peNames, peFields, fld_extract, bitAt, Strand.NamedBy]
  cases w.getLsbD 11 <;> simp

/-- The strand is named and held. -/
theorem peNames_held_iff {w : W64} {t : Strand} : (peNames w t && t.status == .held) = true ↔ t.NamedBy w ∧ t.status = .held := by
  rw [Bool.and_eq_true, peNames_iff, beq_iff_eq]

/-- PECMD with a result and nothing under way. -/
theorem peWord_false (w : W64) (r : Nat) : peWord w r false = BitVec.ofNat 64 ((w.extractLsb' 32 32).toNat * 2 ^ 32 + r * 2 ^ 17 +
    (w.extractLsb' 8 4).toNat * 2 ^ 8 + (w.extractLsb' 0 6).toNat) := by
  simp only [peWord, fld_extract, bnat, Bool.false_eq_true, if_false, Nat.zero_mul, Nat.add_zero]

/-- A command ends with the fields that it began with. -/
theorem peWord_peWord (w : W64) (r : Nat) : peWord (peWord w 0 true) r false = peWord w r false := by
  have h0 := fld_lt w.toNat 0 6
  have h8 := fld_lt w.toNat 8 4
  have h32 := fld_lt w.toNat 32 32
  have hsid : fld (peWord w 0 true).toNat 32 32 = fld w.toNat 32 32 := by
    simp only [peWord, bnat, if_true, BitVec.toNat_ofNat, fld] at *
    omega
  have hop : fld (peWord w 0 true).toNat 8 4 = fld w.toNat 8 4 := by
    simp only [peWord, bnat, if_true, BitVec.toNat_ofNat, fld] at *
    omega
  have hctx : fld (peWord w 0 true).toNat 0 6 = fld w.toNat 0 6 := by
    simp only [peWord, bnat, if_true, BitVec.toNat_ofNat, fld] at *
    omega
  rw [peWord, hsid, hop, hctx, peWord]

theorem State.peBad_iff {s : State} {w : W64} : s.peBad w = true ↔ s.ctx? (w.extractLsb' 0 6).toNat = none ∨ s.peaddr.toNat % 4096 ≠ 0 ∨
    w.getLsbD 11 = true ∧ (¬ ∃ t ∈ s.strands, t.status ≠ .ended ∧ t.NamedBy w) ∧ ¬ ∃ t ∈ s.saved, t.NamedBy w := by
  simp only [State.peBad, peFields, fld_extract, bitAt, Bool.or_eq_true, Bool.and_eq_true, Option.isNone_iff_eq_none, bne_iff_ne,
    Bool.not_eq_true', Bool.eq_false_iff, ne_eq, List.any_eq_true, peNames_iff, or_assoc, and_assoc]

/-! ## HOLD (R287, R288) -/

/-- What HOLD makes of a strand. -/
def Strand.holdAsked (w : W64) (t : Strand) : Strand :=
  if !peNames w t then t
  else if (peNames w t && t.status != .ended && t.status != .held) && !t.holdReq then { t.askHold with linkHeld := false }
  else { t with linkHeld := false }

theorem Strand.holdAsked_eq (w : W64) (t : Strand) :
    t.holdAsked w = { t with linkHeld := (t.holdAsked w).linkHeld, holdReq := (t.holdAsked w).holdReq, holdAt := (t.holdAsked w).holdAt } := by
  unfold Strand.holdAsked
  split
  · rfl
  · split <;> rfl

theorem Strand.namedBy_holdAsked {w : W64} {t : Strand} : (t.holdAsked w).NamedBy w ↔ t.NamedBy w := by
  rw [Strand.holdAsked_eq]
  exact Iff.rfl

theorem Strand.holdAsked_linkHeld {w : W64} {t : Strand} (h : t.NamedBy w) : (t.holdAsked w).linkHeld = false := by
  rw [Strand.holdAsked, peNames_iff.2 h]
  split
  next hn => cases hn
  next => split <;> rfl

theorem Strand.holdAsked_holdReq {w : W64} {t : Strand} (h : t.NamedBy w) (he : t.status ≠ .ended) (hh : t.status ≠ .held) :
    (t.holdAsked w).holdReq = true := by
  rw [Strand.holdAsked, peNames_iff.2 h]
  cases hr : t.holdReq <;> simp [he, hh, Strand.askHold]

/-- The end of a HOLD leaves strands, memory and flights. -/
theorem State.endHold_frame (s : State) : s.endHold = { s with
    holding := s.endHold.holding, pecmd := s.endHold.pecmd, ctxevt := s.endHold.ctxevt, msix := s.endHold.msix } := by
  unfold State.endHold
  split
  · rfl
  · split <;> rfl

theorem State.endHold_done {s : State} {ctx : Nat} (h : s.holding = some (ctx, [])) :
    s.endHold.holding = none ∧ s.endHold.pecmd = peWord s.pecmd 0 false := by
  simp [State.endHold, h, State.holdDone, State.raiseCtx]

/-- A state in which HOLD has asked the strands. -/
def State.holdAsked (s : State) (w : W64) : State :=
  { s with strands := s.strands.map (·.holdAsked w), pecmd := peWord w 0 true,
           holding := some ((peFields w).1, (s.strands.filter fun t => peNames w t && t.status != .ended && t.status != .held).map (·.sid)) }

theorem execHold_ok {s : State} {w : W64} (hr : s.wholeReset = false) (h : s.holding = none) (hw : w &&& pecmdReserved = 0)
    (hb : s.peBad w = false) : execHold w s = .next (s.holdAsked w).endHold :=
  onPecmd_ok _ hr h hw hb

theorem State.holdAsked_spec (s : State) (w : W64) :
    (∀ t ∈ (s.holdAsked w).endHold.strands, t.NamedBy w → t.status ≠ .ended → t.status ≠ .held → t.holdReq = true) ∧
    (∀ t ∈ (s.holdAsked w).endHold.strands, t.NamedBy w → t.linkHeld = false) ∧
    (s.holdAsked w).endHold.mem = s.mem ∧ (s.holdAsked w).endHold.flight = s.flight ∧
    ((∀ t ∈ s.strands, t.NamedBy w → t.status = .ended ∨ t.status = .held) →
      (s.holdAsked w).endHold.holding = none ∧ (s.holdAsked w).endHold.pecmd = peWord w 0 false) := by
  have hstrands {t : Strand} (ht : t ∈ (s.holdAsked w).endHold.strands) : ∃ x : Strand, x.holdAsked w = t := by
    rw [State.endHold_frame] at ht
    obtain ⟨x, -, hx⟩ := List.mem_map.1 ht
    exact ⟨x, hx⟩
  refine ⟨fun t ht hn he hh => ?_, fun t ht hn => ?_, by rw [State.endHold_frame]; rfl, by rw [State.endHold_frame]; rfl, fun hall => ?_⟩
  · obtain ⟨x, rfl⟩ := hstrands ht
    have hst : (x.holdAsked w).status = x.status := by rw [Strand.holdAsked_eq]
    rw [hst] at he hh
    exact Strand.holdAsked_holdReq (Strand.namedBy_holdAsked.1 hn) he hh
  · obtain ⟨x, rfl⟩ := hstrands ht
    exact Strand.holdAsked_linkHeld (Strand.namedBy_holdAsked.1 hn)
  · have hnone : s.strands.filter (fun t => peNames w t && t.status != .ended && t.status != .held) = [] := by
      refine List.filter_eq_nil_iff.2 fun t ht hc => ?_
      simp only [Bool.and_eq_true, bne_iff_ne, peNames_iff] at hc
      exact (hall t ht hc.1.1).elim hc.1.2 hc.2
    obtain ⟨hh, hp⟩ := State.endHold_done (s := s.holdAsked w) (ctx := (peFields w).1) (by rw [State.holdAsked, hnone]; rfl)
    exact ⟨hh, hp.trans (peWord_peWord w 0)⟩

/-! ## SAVE (R288, R289) -/

/-- Writing images changes memory, the numbers taken and the images known, and no strand, no stack and nothing saved. -/
theorem State.writeImages_frame (ctx : Nat) (ts : List Strand) : ∀ {s s' : State} {va : W64}, s.writeImages ctx va ts = some s' →
    s'.strands = s.strands ∧ s'.saved = s.saved := by
  induction ts with
  | nil =>
    intro s s' va h
    obtain rfl := Option.some.inj h
    exact ⟨rfl, rfl⟩
  | cons t ts ih =>
    intro s s' va h
    unfold State.writeImages at h
    split at h
    · cases h
    · next u hu =>
      obtain ⟨cells, -, rfl⟩ := Option.map_eq_some_iff.1 hu
      obtain ⟨hstrands, hsaved⟩ := ih h
      exact ⟨hstrands, hsaved⟩

/-- Strands that are held after a SAVE were held, and are none of those saved. -/
theorem State.held_of_save (ts : List Strand) : ∀ {s : State} {y : Strand}, y ∈ (ts.foldl (fun s t => s.saveStrand t) s).strands →
    y.status = .held → y ∈ s.strands ∧ ∀ t ∈ ts, y.sid ≠ t.sid := by
  induction ts with
  | nil => exact fun hy _ => ⟨hy, fun t h => absurd h List.not_mem_nil⟩
  | cons t ts ih =>
    intro s y hy hh
    obtain ⟨hmem, hne⟩ := ih hy hh
    obtain ⟨x, hx, hxy⟩ := List.mem_map.1 hmem
    split at hxy
    next => subst hxy; cases hh
    next hs =>
      subst hxy
      exact ⟨hx, List.forall_mem_cons.2 ⟨fun he => hs (beq_iff_eq.2 he), hne⟩⟩

theorem State.saved_of_save (ts : List Strand) : ∀ s : State, (ts.foldl (fun s t => s.saveStrand t) s).saved = s.saved ++ ts.map Strand.imaged := by
  induction ts with
  | nil => exact fun s => (List.append_nil _).symm
  | cons t ts ih => exact fun s => (ih _).trans (List.append_assoc ..)

/-- A SAVE keeps the strands that it does not save. -/
theorem State.mem_save {z : Strand} (ts : List Strand) : ∀ {s : State}, z ∈ s.strands → (∀ t ∈ ts, z.sid ≠ t.sid) →
    z ∈ (ts.foldl (fun s t => s.saveStrand t) s).strands := by
  induction ts with
  | nil => exact fun hz _ => hz
  | cons t ts ih =>
    intro s hz hne
    obtain ⟨hzt, hne⟩ := List.forall_mem_cons.1 hne
    exact ih (List.mem_map.2 ⟨z, hz, if_neg (by simpa using hzt)⟩) hne

/-- What has departed from a stack stays departed. -/
theorem State.departed_save {k n : Nat} (hk : k < 4) (ts : List Strand) : ∀ {s : State}, n ∈ (s.stack k).departed →
    n ∈ ((ts.foldl (fun s t => s.saveStrand t) s).stack k).departed := by
  induction ts with
  | nil => exact fun h => h
  | cons t ts ih =>
    intro s h
    refine ih ?_
    have hstack : (s.saveStrand t).stack k = (s.modStack t.stack fun k => { k with departed := k.departed ++ [2 ^ 32 + s.nextNum] }).stack k := rfl
    rw [hstack]
    by_cases ht : t.stack = k
    · subst ht
      rw [State.stack_modStack s _ hk]
      exact List.mem_append_left _ h
    · rwa [State.stack_modStack_ne s _ ht]

/-- A saved strand leaves its place to one that has ended and departs, of a number that no identifier can be. -/
theorem State.left_of_save (ts : List Strand) : ∀ {s : State} {t : Strand}, (ts.map (·.sid)).Nodup → (∀ x ∈ ts, x.sid < 2 ^ 32) → t ∈ ts →
    t ∈ s.strands → t.stack < 4 → ∃ y ∈ (ts.foldl (fun s t => s.saveStrand t) s).strands, y = { t with sid := y.sid, status := .ended } ∧
      2 ^ 32 ≤ y.sid ∧ y.sid ∈ ((ts.foldl (fun s t => s.saveStrand t) s).stack t.stack).departed := by
  induction ts with
  | nil => exact fun _ _ h => absurd h List.not_mem_nil
  | cons x ts ih =>
    intro s t hnd hlt ht hmem hk
    obtain ⟨hx, hnd⟩ := List.nodup_cons.1 hnd
    have hlt' : ∀ z ∈ ts, z.sid < 2 ^ 32 := fun z hz => hlt z (List.mem_cons_of_mem _ hz)
    rcases List.mem_cons.1 ht with rfl | ht
    · set left : Strand := { t with sid := 2 ^ 32 + s.nextNum, status := .ended }
      have hin : left ∈ (s.saveStrand t).strands := List.mem_map.2 ⟨t, hmem, if_pos (beq_self_eq_true _)⟩
      have hdep : 2 ^ 32 + s.nextNum ∈ ((s.saveStrand t).stack t.stack).departed := by
        have hstack : (s.saveStrand t).stack t.stack =
          (s.modStack t.stack fun k => { k with departed := k.departed ++ [2 ^ 32 + s.nextNum] }).stack t.stack := rfl
        rw [hstack, State.stack_modStack s _ hk]
        exact List.mem_append_right _ (List.mem_singleton.2 rfl)
      exact ⟨left, State.mem_save ts hin fun z hz => (Nat.lt_of_lt_of_le (hlt' z hz) (Nat.le_add_right ..)).ne', rfl, Nat.le_add_right ..,
        State.departed_save hk ts hdep⟩
    · have hne : t.sid ≠ x.sid := fun he => hx (List.mem_map.2 ⟨t, ht, he⟩)
      exact ih hnd hlt' ht (List.mem_map.2 ⟨t, hmem, if_neg (by simpa using hne)⟩) hk

/-! ## RESTORE (R22, R288, R289) -/

/-- A strand of an identifier is on the device. -/
def State.OnDevice (s : State) (sid : Nat) : Prop := ∃ t ∈ s.strands, t.sid = sid ∧ t.status ≠ .ended

/-- One waits with its image. -/
def State.WaitsAs (s : State) (sid : Nat) : Prop := ∃ x ∈ s.waiting, ∃ z, x.image = some z ∧ z.sid = sid

theorem State.enters_iff {s : State} {t : Strand} : ((s.strands.any fun u => u.sid == t.sid && u.status != .ended) ||
    s.waiting.any fun w => w.image.any fun u => u.sid == t.sid) = true ↔ s.OnDevice t.sid ∨ s.WaitsAs t.sid := by
  simp [State.OnDevice, State.WaitsAs, Option.any_eq_true]

theorem State.enterImage_present {s : State} {t : Strand} (h : s.OnDevice t.sid ∨ s.WaitsAs t.sid) : s.enterImage t = s := by
  rw [State.enterImage, if_pos (State.enters_iff.2 h)]

/-- A strand that is not on the device and does not wait waits with its image; with its task's launch, where that is open. -/
theorem State.enterImage_absent {s : State} {t : Strand} (h : ¬ (s.OnDevice t.sid ∨ s.WaitsAs t.sid)) : ∃ w z num sid,
    s.enterImage t = { s with saved := s.saved.filter (fun u => u.sid != t.sid), waiting := s.waiting ++ [w], nextNum := num, nextSid := sid } ∧
    w.image = some z ∧ z.sid = t.sid ∧ ((∃ u ∈ s.saved, u.sid = t.sid) → ∀ k, s.tasks.find? (fun k => k.num == t.task) = some k →
      z = t ∧ w.launch = { k.launch with noWait := false } ∧ w.hdr = k.hdr) := by
  rw [State.enterImage, if_neg (mt State.enters_iff.1 h)]
  refine ⟨_, _, _, _, rfl, rfl, ?_, fun hs k hk => ?_⟩
  · split <;> rfl
  · have hany : (s.saved.any fun u => u.sid == t.sid) = true := by simpa using hs
    rw [hany, if_pos rfl, hk]
    exact ⟨rfl, rfl, rfl⟩

/-- What a RESTORE keeps of a state: its strands and tasks, and the images that wait. -/
structure State.EntersFrom (s u : State) : Prop where
  strands : u.strands = s.strands
  tasks : u.tasks = s.tasks
  waiting : s.waiting ⊆ u.waiting

theorem State.enterImage_enters (s : State) (t : Strand) : s.EntersFrom (s.enterImage t) := by
  by_cases h : s.OnDevice t.sid ∨ s.WaitsAs t.sid
  · rw [State.enterImage_present h]
    exact ⟨rfl, rfl, fun _ h => h⟩
  · obtain ⟨w, z, num, sid, he, -⟩ := State.enterImage_absent h
    rw [he]
    exact ⟨rfl, rfl, List.subset_append_left ..⟩

theorem State.foldl_enterImage (ts : List Strand) : ∀ s : State, s.EntersFrom (ts.foldl (fun s t => s.enterImage t) s) := by
  induction ts with
  | nil => exact fun s => ⟨rfl, rfl, fun _ h => h⟩
  | cons t ts ih =>
    intro s
    have h := s.enterImage_enters t
    have h' := ih (s.enterImage t)
    exact ⟨h'.strands.trans h.strands, h'.tasks.trans h.tasks, fun _ hx => h'.waiting (h.waiting hx)⟩

theorem State.EntersFrom.waitsAs {s u : State} (h : s.EntersFrom u) {sid : Nat} (hw : s.WaitsAs sid) : u.WaitsAs sid :=
  let ⟨x, hx, hz⟩ := hw
  ⟨x, h.waiting hx, hz⟩

theorem State.enterImage_waits (s : State) (t : Strand) : (s.enterImage t).WaitsAs t.sid ∨ s.OnDevice t.sid := by
  by_cases h : s.OnDevice t.sid ∨ s.WaitsAs t.sid
  · rw [State.enterImage_present h]
    exact h.symm
  · obtain ⟨w, z, num, sid, he, hz, hs, -⟩ := State.enterImage_absent h
    rw [he]
    exact .inl ⟨w, List.mem_append_right _ (List.mem_singleton.2 rfl), z, hz, hs⟩

/-- After a RESTORE each of its strands waits or is on the device. -/
theorem State.restored_waits (ts : List Strand) : ∀ {s : State} {y : Strand}, y ∈ ts →
    (ts.foldl (fun s t => s.enterImage t) s).WaitsAs y.sid ∨ s.OnDevice y.sid := by
  induction ts with
  | nil => exact fun h => absurd h List.not_mem_nil
  | cons t ts ih =>
    intro s y hy
    rcases List.mem_cons.1 hy with rfl | hy
    · exact (s.enterImage_waits y).imp (State.foldl_enterImage ts _).waitsAs id
    · have h := ih (s := s.enterImage t) hy
      rwa [State.OnDevice, (s.enterImage_enters t).strands] at h

/-- The entry of one image leaves it open whether another was saved, and whether it waits. -/
theorem State.enterImage_other {s : State} {t : Strand} {sid : Nat} (hne : t.sid ≠ sid) :
    ((∃ u ∈ s.saved, u.sid = sid) → ∃ u ∈ (s.enterImage t).saved, u.sid = sid) ∧ ((s.enterImage t).WaitsAs sid → s.WaitsAs sid) := by
  by_cases h : s.OnDevice t.sid ∨ s.WaitsAs t.sid
  · rw [State.enterImage_present h]
    exact ⟨id, id⟩
  · obtain ⟨w, z, num, n, he, hz, hs, -⟩ := State.enterImage_absent h
    rw [he]
    refine ⟨fun ⟨u, hu, hus⟩ => ⟨u, List.mem_filter.2 ⟨hu, bne_iff_ne.2 (hus ▸ hne.symm)⟩, hus⟩, fun ⟨x, hx, y, hy, hys⟩ => ?_⟩
    rcases List.mem_append.1 hx with hx | hx
    · exact ⟨x, hx, y, hy, hys⟩
    · obtain rfl := List.mem_singleton.1 hx
      obtain rfl := Option.some.inj (hz.symm.trans hy)
      exact absurd (hs.symm.trans hys) hne

/-- A strand that was saved, and whose launch is open, waits with its image under that launch. -/
theorem State.restored_launch (ts : List Strand) : ∀ {s : State} {y : Strand}, (ts.map (·.sid)).Nodup → y ∈ ts →
    (∃ u ∈ s.saved, u.sid = y.sid) → ¬ s.OnDevice y.sid → ¬ s.WaitsAs y.sid → ∀ k, s.tasks.find? (fun k => k.num == y.task) = some k →
      ∃ x ∈ (ts.foldl (fun s t => s.enterImage t) s).waiting, x.image = some y ∧ x.launch = { k.launch with noWait := false } ∧ x.hdr = k.hdr := by
  induction ts with
  | nil => exact fun _ h => absurd h List.not_mem_nil
  | cons t ts ih =>
    intro s y hnd hy hsaved hdev hwait k hk
    obtain ⟨ht, hnd⟩ := List.nodup_cons.1 hnd
    rcases List.mem_cons.1 hy with rfl | hy
    · obtain ⟨w, z, num, sid, he, hz, -, hlaunch⟩ := State.enterImage_absent fun h => h.elim hdev hwait
      obtain ⟨rfl, hl, hh⟩ := hlaunch hsaved k hk
      have hw : w ∈ (s.enterImage z).waiting := by
        rw [he]
        exact List.mem_append_right _ (List.mem_singleton.2 rfl)
      exact ⟨w, (State.foldl_enterImage ts _).waiting hw, hz, hl, hh⟩
    · have hne : t.sid ≠ y.sid := fun he => ht (List.mem_map.2 ⟨y, hy, he.symm⟩)
      have hframe := s.enterImage_enters t
      refine ih hnd hy ((State.enterImage_other hne).1 hsaved) ?_ (mt (State.enterImage_other hne).2 hwait) k (hframe.tasks ▸ hk)
      rwa [State.OnDevice, hframe.strands]

end Sys2Proof.Machine
end

section
/-! The other command windows (R147, R160, R288, R301, R304, R307, R309). -/

namespace Sys2Proof.Machine

/-! ## Reserved bits (R5, log 42) -/

theorem and_eq_zero_iff_bits {w m : W64} : w &&& m = 0 ↔ ∀ i < 64, m.getLsbD i = true → w.getLsbD i = false := by
  constructor
  · intro h i hi hm
    have := congrArg (fun x : W64 => x.getLsbD i) h
    simpa [hm] using this
  · intro h
    refine BitVec.eq_of_getLsbD_eq fun i hi => ?_
    cases hm : m.getLsbD i with
    | false => simp [hm]
    | true => simp [h i hi hm]

theorem extractLsb'_eq_zero_iff_bits {w : W64} {lo n : Nat} : w.extractLsb' lo n = 0 ↔ ∀ i < n, w.getLsbD (lo + i) = false := by
  constructor
  · intro h i hi
    have := congrArg (fun x : BitVec n => x.getLsbD i) h
    simpa [hi] using this
  · intro h
    refine BitVec.eq_of_getLsbD_eq fun i hi => ?_
    simp [hi, h i hi]

/-- A mask of one field finds the field empty. -/
theorem and_mask_eq_zero {m : W64} {lo n : Nat} (hm : ∀ i < 64, m.getLsbD i = decide (lo ≤ i ∧ i < lo + n)) (hn : lo + n ≤ 64) (w : W64) :
    w &&& m = 0 ↔ w.extractLsb' lo n = 0 := by
  rw [and_eq_zero_iff_bits, extractLsb'_eq_zero_iff_bits]
  constructor
  · exact fun h i hi => h (lo + i) (by omega) (by rw [hm _ (by omega)]; simpa using hi)
  · intro h i hi hb
    rw [hm i hi, decide_eq_true_iff] at hb
    have := h (i - lo) (by omega)
    rwa [Nat.add_sub_cancel' hb.1] at this

/-- So does a mask of the bits from one on. -/
theorem and_above_eq_zero {n : Nat} (hn : n ≤ 64) (w : W64) : w &&& above n = 0 ↔ w.extractLsb' n (64 - n) = 0 := by
  refine and_mask_eq_zero (fun i hi => ?_) (by omega) w
  simp only [above, BitVec.getLsbD_shiftLeft, BitVec.getLsbD_allOnes, hi]
  rw [Nat.add_sub_cancel' hn]
  by_cases h : n ≤ i
  · simp [h, hi]
    omega
  · simp [h]

theorem fld_eq_zero_iff {w : W64} {lo n : Nat} : fld w.toNat lo n = 0 ↔ w.extractLsb' lo n = 0 := by
  rw [fld_extract, ← BitVec.toNat_inj]
  rfl

theorem natOfBytes_bytesOf (n : Nat) : ∀ v, natOfBytes (bytesOf n v) = v % 256 ^ n := by
  induction n with
  | zero => exact fun v => (Nat.mod_one v).symm
  | succ n ih =>
    intro v
    have hrest : (bytesOf (n + 1) v) = BitVec.ofNat 8 v :: bytesOf n (v / 256) := by
      have hdiv (i : Nat) : v / 2 ^ (8 * (i + 1)) = v / 256 / 2 ^ (8 * i) := by
        rw [Nat.div_div_eq_div_mul, Nat.mul_succ, Nat.pow_add, Nat.mul_comm]
      simp [bytesOf, List.range_succ_eq_map, hdiv]
    rw [hrest, natOfBytes, ih, Nat.pow_succ', Nat.mod_mul, BitVec.toNat_ofNat]

/-! ## Plain registers (R30, R288, R301, R304) -/

/-- A register whose reserved bits are those of a field, or of several, changes where they are all clear. -/
theorem execRegisterWrite_of {s u : State} {ofs : Nat} {w : W64} {bad : Prop} [Decidable bad] (hbad : w &&& regReserved ofs = 0 ↔ ¬ bad)
    (hr : s.wholeReset = false) (hu : w &&& regReserved ofs = 0 → execRegisterWrite ofs w s = .next u) :
    execRegisterWrite ofs w s = .next (if bad then s else u) := by
  by_cases h : w &&& regReserved ofs = 0
  · rw [hu h, if_neg (hbad.1 h)]
  · rw [if_pos (not_not.1 (mt hbad.2 h))]
    have h : (w &&& regReserved ofs != 0) = true := bne_iff_ne.2 h
    simp only [execRegisterWrite, accepted_ok _ hr, h, if_true, ite_self]

section
variable {s : State} (hr : s.wholeReset = false) (w : W64)
include hr

theorem registerWrite_ctxtab : execRegisterWrite 0x10000 w s = .next (if w.extractLsb' 0 12 ≠ 0 then s else { s with ctxtab := w }) := by
  have hmask : w &&& regReserved 0x10000 = 0 ↔ w.extractLsb' 0 12 = 0 := and_mask_eq_zero (by decide) (by decide) w
  exact execRegisterWrite_of (hmask.trans not_not.symm) hr fun h => by simp [execRegisterWrite, accepted, hr, h]

theorem registerWrite_peaddr : execRegisterWrite 0x1008 w s = .next { s with peaddr := w } := by
  simp [execRegisterWrite, accepted, hr, regReserved]

theorem registerWrite_mbxdata : execRegisterWrite 0x10020 w s = .next { s with mbxdata := w } := by
  simp [execRegisterWrite, accepted, hr, regReserved]

theorem registerWrite_tlbaddr : execRegisterWrite 0x10018 w s =
    .next (if w.extractLsb' 0 12 ≠ 0 ∨ w.extractLsb' 48 16 ≠ 0 then s else { s with tlbaddr := w }) := by
  have hmask : w &&& regReserved 0x10018 = 0 ↔ w.extractLsb' 0 12 = 0 ∧ w.extractLsb' 48 16 = 0 := by
    rw [← and_mask_eq_zero (m := 0xFFF) (by decide) (by decide), ← and_mask_eq_zero (m := 0xFFFF000000000000) (by decide) (by decide)]
    simp only [and_eq_zero_iff_bits, ← forall_and, ← or_imp]
    have hbits : ∀ i < 64, (regReserved 0x10018).getLsbD i = ((0xFFF : W64).getLsbD i || (0xFFFF000000000000 : W64).getLsbD i) := by decide
    exact forall_congr' fun i => imp_congr_right fun hi => by rw [hbits i hi, Bool.or_eq_true]
  exact execRegisterWrite_of (hmask.trans (by rw [not_or, not_not, not_not])) hr fun h => by simp [execRegisterWrite, accepted, hr, h]

theorem registerWrite_linkgrace : execRegisterWrite 0x10040 w s =
    .next (if w.extractLsb' 32 32 ≠ 0 then s else { s with linkgrace := w.truncate 32 }) :=
  execRegisterWrite_of ((and_above_eq_zero (n := 32) (by decide) w).trans not_not.symm) hr fun h => by
    simp [execRegisterWrite, accepted, hr, h, low32]

theorem registerWrite_devevt : execRegisterWrite 0x10048 w s =
    .next (if w.extractLsb' 5 59 ≠ 0 then s else { s with devevt := s.devevt &&& ~~~(w.truncate 5) }) :=
  execRegisterWrite_of ((and_above_eq_zero (n := 5) (by decide) w).trans not_not.symm) hr fun h => by
    simp [execRegisterWrite, accepted, hr, h]

variable {n : Nat} (hn : n < 64)
include hn

theorem registerWrite_ctxevt : execRegisterWrite (0x10100 + 8 * n) w s = .next (if w.extractLsb' 6 58 ≠ 0 then s
    else { s with ctxevt := vset s.ctxevt n (vget s.ctxevt n 0 &&& ~~~(w.truncate 6)) }) := by
  have hreserved : ∀ n < 64, regReserved (0x10100 + 8 * n) = above 6 := by decide
  refine execRegisterWrite_of ((hreserved n hn ▸ and_above_eq_zero (n := 6) (by decide) w).trans not_not.symm) hr fun h => ?_
  have halign : (0x10100 + 8 * n) % 8 = 0 := by omega
  have hin : ¬ 0x10100 + 8 * n < 0x1000 ∧ ¬ 0x10100 + 8 * n < 0x2400 ∧ 0x10100 + 8 * n < 0x10300 := by omega
  have hother : 0x10100 + 8 * n ≠ 0x1008 ∧ 0x10100 + 8 * n ≠ 0x10000 ∧ 0x10100 + 8 * n ≠ 0x10018 ∧ 0x10100 + 8 * n ≠ 0x10020 ∧
    0x10100 + 8 * n ≠ 0x10030 ∧ 0x10100 + 8 * n ≠ 0x10040 ∧ 0x10100 + 8 * n ≠ 0x10048 := by omega
  simp [execRegisterWrite, accepted, hr, h, halign, hin, hother]

theorem registerWrite_drefv : execRegisterWrite (0x2000 + 16 * n) w s = .next { s with drefv := vset s.drefv n w } := by
  have hreserved : ∀ n < 64, regReserved (0x2000 + 16 * n) = 0 := by decide
  have halign : (0x2000 + 16 * n) % 8 = 0 ∧ (0x2000 + 16 * n) % 16 = 0 := by omega
  have hin : ¬ 0x2000 + 16 * n < 0x1000 ∧ 0x2000 + 16 * n ≠ 0x1008 ∧ 0x2000 + 16 * n < 0x2400 := by omega
  simp [execRegisterWrite, accepted, hr, hreserved n hn, halign, hin]

theorem registerWrite_queueBase : execRegisterWrite (64 * n) w s = .next (if w.extractLsb' 0 6 ≠ 0 ∨ (s.queue n).enable = true then s
    else s.modQueue n fun h => { h with base := w }) := by
  have hreserved : ∀ n < 64, regReserved (64 * n) = 63 := by decide
  have hmask : w &&& regReserved (64 * n) = 0 ↔ w.extractLsb' 0 6 = 0 := by
    rw [hreserved n hn]
    exact and_mask_eq_zero (by decide) (by decide) w
  have hindex : 64 * n / 64 = n := by omega
  have halign : 64 * n % 8 = 0 ∧ 64 * n % 64 = 0 := by omega
  have hin : 64 * n < 0x1000 := by omega
  have hwrite := execRegisterWrite_of (u := if (s.queue n).enable = true then s else s.modQueue n fun h => { h with base := w })
    (hmask.trans not_not.symm) hr fun h => by simp [execRegisterWrite, accepted, hr, h, hindex, halign, hin]
  rw [hwrite]
  by_cases h : w.extractLsb' 0 6 = 0
  · simp [h]
  · rw [if_pos h, if_pos (.inl h)]

end

/-! ## Translations (R147) -/

theorem State.stack_dropTlb (s : State) (f : TlbEntry → Bool) {k : Nat} (hk : k < 4) :
    (s.dropTlb f).stack k = (s.stack k).dropTlb f := by
  simp [State.stack, State.dropTlb, vget, hk]

/-! ## Registers with chapters of their own (R292, R301, R303) -/

section
variable {s : State} (hr : s.wholeReset = false) (w : W64)
include hr

theorem execDrefc_ok (n : Nat) :
    execDrefc n w s = .next (if w.extractLsb' 48 15 ≠ 0 then s else { s with drefc := vset s.drefc n w }) := by
  have hif : (fld w.toNat 48 15 != 0) = true ↔ w.extractLsb' 48 15 ≠ 0 := bne_iff_ne.trans (not_congr fld_eq_zero_iff)
  simp only [execDrefc, accepted_ok _ hr, hif]

theorem execErrcfg_ok : execErrcfg w s = .next (if w.extractLsb' 48 16 ≠ 0 ∨ w.extractLsb' 8 24 ≠ 0 ∨ w.extractLsb' 32 16 = 0 ∨
    w.extractLsb' 0 8 = 0 then s else { s with errcfg := w }) := by
  have hif : (fld w.toNat 48 16 != 0 || fld w.toNat 8 24 != 0 || fld w.toNat 32 16 == 0 || fld w.toNat 0 8 == 0) = true ↔
      w.extractLsb' 48 16 ≠ 0 ∨ w.extractLsb' 8 24 ≠ 0 ∨ w.extractLsb' 32 16 = 0 ∨ w.extractLsb' 0 8 = 0 := by
    simp only [Bool.or_eq_true, bne_iff_ne, beq_iff_eq, ne_eq, fld_eq_zero_iff, or_assoc]
  simp only [execErrcfg, accepted_ok _ hr, hif, apply_ite Host.Outcome.next]

theorem execFenceclr_ok : execFenceclr w s = .next (if w = 1 then { s with fenced := [] } else s) := by
  simp only [execFenceclr, accepted_ok _ hr, beq_iff_eq]

/-! ## Translations (R147, R304) -/

theorem execTlbinvOnePage_ok {n : Nat} (hn : n < 64) :
    let keep (es : List TlbEntry) : List TlbEntry := es.filter fun e => decide (¬ (e.ctx = n ∧ s.tlbaddr.toNat / 2 ^ e.log = e.va / 2 ^ e.log))
    ∃ u, execTlbinvOnePage n s = .next u ∧ u = { s with stks := u.stks, tlbinv := BitVec.ofNat 64 (n + 256) } ∧
      ∀ k < 4, u.stack k = { s.stack k with
        tlb := keep (s.stack k).tlb, sliceTlb := (s.stack k).sliceTlb.map keep, micro := (s.stack k).micro.map keep } := by
  intro keep
  rw [execTlbinvOnePage, accepted_ok _ hr, Nat.mod_eq_of_lt hn]
  refine ⟨_, rfl, rfl, fun k hk => (State.stack_dropTlb s _ hk).trans ?_⟩
  simp only [Stack.dropTlb, keep, ← Bool.decide_and, decide_not, beq_eq_decide]

theorem execTlbinvWholeContext_ok {n : Nat} (hn : n < 64) :
    let keep (es : List TlbEntry) : List TlbEntry := es.filter fun e => decide (e.ctx ≠ n)
    ∃ u, execTlbinvWholeContext n s = .next u ∧ u = { s with stks := u.stks, tlbinv := BitVec.ofNat 64 (n + 512) } ∧
      ∀ k < 4, u.stack k = { s.stack k with
        tlb := keep (s.stack k).tlb, sliceTlb := (s.stack k).sliceTlb.map keep, micro := (s.stack k).micro.map keep } := by
  intro keep
  rw [execTlbinvWholeContext, accepted_ok _ hr, Nat.mod_eq_of_lt hn]
  generalize BitVec.ofNat 64 (n + 512) = x
  refine ⟨_, rfl, rfl, fun k hk => (State.stack_dropTlb s _ hk).trans ?_⟩
  simp only [Stack.dropTlb, keep, ne_eq, decide_not, beq_eq_decide]

/-! ## Mailboxes (R160, R304) -/

theorem execMbxctl_ok {x : W32} {i : Nat} {t : Strand} (hi : i < 8) (ht : s.strand? x.toNat = some t) (he : t.status ≠ .ended) :
    execMbxctl x i s = .next ({ s with mbxctl := BitVec.ofNat 64 (x.toNat * 2 ^ 32 + i), freeCtr := s.freeCtr + 1 }.modStrand t.sid fun u =>
      { u with mbxNew := u.mbxNew ++ [(i, s.mbxdata, u.beat + Config.delay s.freeCtr)] }) := by
  simp only [execMbxctl, accepted_ok _ hr, State.fresh, State.strand?, Nat.mod_eq_of_lt hi] at ht ⊢
  rw [ht]
  simp only
  rw [if_neg (by simpa using he)]

/-! ## CTXCMD with a reserved bit set (R5, R29, log 42) -/

theorem execHostMemoryWrite_ctxcmd (hup : s.linkUp = true) (hw : w &&& ~~~0xF033F ≠ 0)
    (hop : w.toNat / 2 ^ 8 % 4 = 1 ∨ w.toNat / 2 ^ 8 % 4 = 2) : execHostMemoryWrite 0 0x10008 (bytesOf 8 w.toNat) s =
      .next { s with ctxcmd := BitVec.ofNat 64 (1 * 2 ^ 17 + w.toNat / 2 ^ 8 % 4 * 2 ^ 8 + w.toNat % 2 ^ 6) } := by
  have hword : BitVec.ofNat 64 (natOfBytes (bytesOf 8 w.toNat)) = w := by
    rw [natOfBytes_bytesOf, Nat.mod_eq_of_lt (show w.toNat < 256 ^ 8 from w.isLt), BitVec.ofNat_toNat, BitVec.setWidth_eq]
  have hlen : (bytesOf 8 w.toNat).length = 8 := by simp [bytesOf]
  have hreserved : (w &&& regReserved 0x10008 != 0) = true := bne_iff_ne.2 hw
  have hwrite : writeReg 0x10008 w s = .next (s.refuseWrite 0x10008 w) := if_pos hreserved
  have hrefuse : s.refuseWrite 0x10008 w = { s with ctxcmd := ctxcmdWord (fld w.toNat 0 6) (fld w.toNat 8 2) 1 } := by
    have : (fld w.toNat 8 2 == 1 || fld w.toNat 8 2 == 2) = true := by simpa [fld] using hop
    simp [State.refuseWrite, this]
  have hctx : fld w.toNat 0 6 % 64 = w.toNat % 2 ^ 6 := by simp [fld]
  simp only [execHostMemoryWrite, hup, hr, hlen, hword, hwrite, hrefuse, ctxcmdWord, hctx]
  simp [fld]

end

end Sys2Proof.Machine
end

section
/-! Pre-emption and the other command windows together (R147, R160, R287 to R289, R301, R304, R307, R309). -/

namespace Sys2Proof.Machine

/-! ## What each instruction does -/

theorem exec_hold (w : W64) (s : State) : exec (.hold w) s = execHold w s := rfl
theorem exec_pecmdResume (w : W64) (s : State) : exec (.pecmdResume w) s = execPecmdResume w s := rfl
theorem exec_save (w : W64) (s : State) : exec (.save w) s = execSave w s := rfl
theorem exec_restore (w : W64) (s : State) : exec (.restore w) s = execRestore w s := rfl
theorem exec_tlbinvOnePage (n : Nat) (s : State) : exec (.tlbinvOnePage n) s = execTlbinvOnePage n s := rfl
theorem exec_tlbinvWholeContext (n : Nat) (s : State) : exec (.tlbinvWholeContext n) s = execTlbinvWholeContext n s := rfl
theorem exec_drefc (n : Nat) (w : W64) (s : State) : exec (.drefc n w) s = execDrefc n w s := rfl
theorem exec_errcfg (w : W64) (s : State) : exec (.errcfg w) s = execErrcfg w s := rfl
theorem exec_fenceclr (w : W64) (s : State) : exec (.fenceclr w) s = execFenceclr w s := rfl
theorem exec_registerWrite (n : Nat) (w : W64) (s : State) : exec (.registerWrite n w) s = execRegisterWrite n w s := rfl
theorem exec_mbxctl (x : W32) (n : Nat) (s : State) : exec (.mbxctl x n) s = execMbxctl x n s := rfl
theorem exec_linkcmdResume (s : State) : exec .linkcmdResume s = execLinkcmdResume s := rfl
theorem exec_hostMemoryWrite (bar ofs : Nat) (bs : List Byte) (s : State) :
    exec (.hostMemoryWrite bar ofs bs) s = execHostMemoryWrite bar ofs bs s := rfl

/-- The four commands of PECMD are answered alike where none of them runs. -/
theorem exec_pecmd {s u : State} {w : W64} (h : ∀ f : State → State, onPecmd w s f = .next u) :
    ∀ i ∈ [Instr.hold w, .pecmdResume w, .save w, .restore w], exec i s = .next u := by
  simp only [List.forall_mem_cons, exec_hold, exec_pecmdResume, exec_save, exec_restore]
  exact ⟨h _, h _, h _, h _, fun _ h => absurd h List.not_mem_nil⟩

/-- During a function-level reset no write is accepted (R307). -/
theorem exec_of_wholeReset {s : State} (h : s.wholeReset = true) (w : W64) (n : Nat) (x : W32) :
    ∀ i ∈ [Instr.hold w, .pecmdResume w, .save w, .restore w, .tlbinvOnePage n, .tlbinvWholeContext n, .drefc n w, .errcfg w, .fenceclr w,
      .registerWrite n w, .mbxctl x n, .linkcmdResume], exec i s = .next s := by
  have hreset := fun f => accepted_reset (s := s) f h
  have hpecmd (f : State → State) : onPecmd w s f = .next s := hreset _
  simp only [List.forall_mem_cons, exec_hold, exec_pecmdResume, exec_save, exec_restore, exec_tlbinvOnePage, exec_tlbinvWholeContext, exec_drefc,
    exec_errcfg, exec_fenceclr, exec_registerWrite, exec_mbxctl, exec_linkcmdResume]
  exact ⟨hpecmd _, hpecmd _, hpecmd _, hpecmd _, hreset _, hreset _, hreset _, hreset _, hreset _, hreset _, hreset _, hreset _,
    fun _ h => absurd h List.not_mem_nil⟩

/-! ## PECMD (R287, R288) -/

/-- A PECMD command that is not refused. -/
structure State.PecmdOk (s : State) (w : W64) : Prop where
  reset : s.wholeReset = false
  holding : s.holding = none
  reserved : w &&& pecmdReserved = 0
  fields : s.peBad w = false

/-- The named strands that are held. -/
def State.namedHeld (s : State) (w : W64) : List Strand := s.strands.filter fun t => peNames w t && t.status == .held

theorem State.mem_namedHeld {s : State} {w : W64} {t : Strand} : t ∈ s.namedHeld w ↔ t ∈ s.strands ∧ t.NamedBy w ∧ t.status = .held := by
  rw [State.namedHeld, List.mem_filter, peNames_held_iff]

theorem State.namedHeld_eq_nil {s : State} {w : W64} : s.namedHeld w = [] ↔ ¬ ∃ t ∈ s.strands, t.NamedBy w ∧ t.status = .held := by
  rw [List.eq_nil_iff_forall_not_mem]
  simp only [State.mem_namedHeld, not_exists]

section
variable {s : State} {w : W64} (h : s.PecmdOk w)
include h

theorem onPecmd_of (f : State → State) : onPecmd w s f = .next (f s) := onPecmd_ok f h.reset h.holding h.reserved h.fields

theorem execPecmdResume_none (hn : s.namedHeld w = []) : execPecmdResume w s = .next { s with pecmd := peWord w 2 false } := by
  refine (onPecmd_of h _).trans (congrArg Host.Outcome.next ?_)
  exact if_pos (List.isEmpty_iff.2 hn)

theorem execSave_none (hn : s.namedHeld w = []) : execSave w s = .next { s with pecmd := peWord w 2 false } := by
  refine (onPecmd_of h _).trans (congrArg Host.Outcome.next ?_)
  exact if_pos (List.isEmpty_iff.2 hn)

theorem execPecmdResume_some (hn : s.namedHeld w ≠ []) : execPecmdResume w s =
    .next { (s.namedHeld w).foldl (fun s t => s.resumeStrand t) s with pecmd := peWord w 0 false } := by
  refine (onPecmd_of h _).trans (congrArg Host.Outcome.next ?_)
  exact if_neg (mt List.isEmpty_iff.1 hn)

theorem execSave_some {s' : State} (hn : s.namedHeld w ≠ []) (hs : s.writeImages (w.extractLsb' 0 6).toNat s.peaddr (s.namedHeld w) = some s') :
    execSave w s = .next { (s.namedHeld w).foldl (fun s t => s.saveStrand t) s' with pecmd := peWord w 0 false } := by
  have hfields : (peFields w).1 = (w.extractLsb' 0 6).toNat := fld_extract w 0 6
  refine (onPecmd_of h _).trans (congrArg Host.Outcome.next ?_)
  refine (if_neg (mt List.isEmpty_iff.1 hn)).trans ?_
  simp only [State.namedHeld] at hs
  rw [hfields, hs]
  rfl

theorem execRestore_none (hn : s.readImages (w.extractLsb' 0 6).toNat s.peaddr 65536 = none) :
    execRestore w s = .next { s with pecmd := peWord w 3 false } := by
  have hfields : (peFields w).1 = (w.extractLsb' 0 6).toNat := fld_extract w 0 6
  refine (onPecmd_of h _).trans (congrArg Host.Outcome.next ?_)
  simp only [hfields, hn, Option.map_none]

/-- The images that RESTORE takes of those it reads. -/
def pickedBy (w : W64) (all : List Strand) : List Strand :=
  if w.getLsbD 11 = true then all.filter fun t => t.sid == (w.extractLsb' 32 32).toNat else all

theorem execRestore_some {all : List Strand} (hn : s.readImages (w.extractLsb' 0 6).toNat s.peaddr 65536 = some all) : execRestore w s = .next
    (if pickedBy w all = [] then { s with pecmd := peWord w 3 false }
     else { (pickedBy w all).foldl (fun s t => s.enterImage t) s with pecmd := peWord w 0 false }) := by
  have hfields : peFields w = ((w.extractLsb' 0 6).toNat, w.getLsbD 11, (w.extractLsb' 32 32).toNat) := by
    simp only [peFields, fld_extract, bitAt]
  refine (onPecmd_of h _).trans (congrArg Host.Outcome.next ?_)
  simp only [hfields, hn, Option.map_some]
  split
  next hp => cases hp
  next hp => exact (if_pos (Option.some.inj hp)).symm
  next ts hne hp =>
    obtain rfl : pickedBy w all = ts := Option.some.inj hp
    exact (if_neg hne).symm

end

/-! ## LINKCMD RESUME (R308, R309, log 47) -/

/-- A strand that no link loss holds. -/
def Strand.linkFreed (t : Strand) : Strand := if t.linkHeld then { t with linkHeld := false, holdReq := false, holdAt := none } else t

theorem Strand.linkFreed_of_true {t : Strand} (h : t.linkHeld = true) : t.linkFreed = { t with linkHeld := false, holdReq := false, holdAt := none } :=
  if_pos h

theorem Strand.linkFreed_of_false {t : Strand} (h : t.linkHeld = false) : t.linkFreed = t := if_neg (by rw [h]; exact Bool.false_ne_true)

theorem Strand.linkFreed_linkHeld (t : Strand) : t.linkFreed.linkHeld = false := by
  cases h : t.linkHeld with
  | true => rw [Strand.linkFreed_of_true h]
  | false => rwa [Strand.linkFreed_of_false h]

/-- The strands that link loss holds go on. -/
def State.linkResumed (s : State) : State := (s.strands.filter (·.linkHeld)).foldl (fun s t => s.resumeStrand t) s

theorem execLinkcmdResume_ok {s : State} (h : s.wholeReset = false) : execLinkcmdResume s =
    .next { s.linkResumed with strands := s.linkResumed.strands.map (·.linkFreed), linkHolding := false, lostAt := none } :=
  accepted_ok _ h

theorem nodup_filter_sid {xs : List Strand} (h : (xs.map (·.sid)).Nodup) (p : Strand → Bool) : ((xs.filter p).map (·.sid)).Nodup :=
  h.sublist (List.filter_sublist.map _)

theorem State.linkResumed_strands {s : State} (hnd : (s.strands.map (·.sid)).Nodup) : List.Forall₂ (fun t y : Strand =>
    (t.linkHeld = false → y = t) ∧ (t.linkHeld = true → t.status = .held ∧ s.unitsLive t = true → t.GoesOn (s.stack t.stack).cyc y) ∧
    (t.linkHeld = true → ¬ (t.status = .held ∧ s.unitsLive t = true) → y = { t with linkHeld := false, holdReq := false, holdAt := none }))
    s.strands (s.linkResumed.strands.map (·.linkFreed)) := by
  rw [List.forall₂_map_right_iff]
  refine forall₂_of_mem (State.foldl_resumeStrand _ s hnd (nodup_filter_sid hnd _) List.filter_sublist.subset) fun t ht y ⟨hon, hoff⟩ => ?_
  refine ⟨fun hl => ?_, fun hl hgo => ?_, fun hl hgo => ?_⟩
  · obtain rfl := hoff fun h => absurd (List.mem_filter.1 h.1).2 (by rw [hl]; exact Bool.false_ne_true)
    exact Strand.linkFreed_of_false hl
  · have hty := hon ⟨List.mem_filter.2 ⟨ht, hl⟩, hgo⟩
    rwa [Strand.linkFreed_of_false (by rw [hty.1])]
  · obtain rfl := hoff fun h => hgo h.2
    exact Strand.linkFreed_of_true hl

/-! ## The statements, part by part -/

theorem State.Refetched.onlyFetches {s u : State} (h : s.Refetched u) :
    (∀ k < 4, u.stack k = { s.stack k with
      tlb := (u.stack k).tlb, sliceTlb := (u.stack k).sliceTlb, micro := (u.stack k).micro, cache := (u.stack k).cache }) ∧
    List.Forall₂ (fun p q : Task => q = { p with used := q.used }) s.tasks u.tasks := ⟨h.stack, h.tasks⟩

/-- An answer in PECMD leaves the stacks. -/
theorem State.stack_answered (s : State) (x : W64) (k : Nat) : ({ s with pecmd := x } : State).stack k = s.stack k := rfl

/-- It leaves what waits. -/
theorem State.WaitsAs.answered {s : State} {n : Nat} (h : s.WaitsAs n) (x : W64) : ({ s with pecmd := x } : State).WaitsAs n := h

/-- RESUME, where named strands are held. -/
theorem pecmdResume_some {s : State} {w : W64} (h : s.PecmdOk w) (hn : s.namedHeld w ≠ []) : ∃ u, execPecmdResume w s = .next u ∧
    u = { s with strands := u.strands, stks := u.stks, tasks := u.tasks, freeCtr := u.freeCtr, pecmd := peWord w 0 false } ∧
    s.Refetched { u with pecmd := s.pecmd } ∧ ((s.strands.map (·.sid)).Nodup → List.Forall₂ (fun t y : Strand =>
      (t.NamedBy w ∧ t.status = .held ∧ s.unitsLive t = true → t.GoesOn (s.stack t.stack).cyc y) ∧
      (¬ (t.NamedBy w ∧ t.status = .held ∧ s.unitsLive t = true) → y = t)) s.strands u.strands) := by
  have hframe := State.foldl_resumeStrand_frame (s.namedHeld w) s
  refine ⟨_, execPecmdResume_some h hn, ?_, ?_, fun hnd => ?_⟩
  · exact congrArg (fun u : State => { u with pecmd := peWord w 0 false }) hframe.rest
  · have hpecmd : ((s.namedHeld w).foldl (fun s t => s.resumeStrand t) s).pecmd = s.pecmd := by rw [hframe.rest]
    rw [← hpecmd]
    exact hframe
  · refine forall₂_of_mem (State.foldl_resumeStrand _ s hnd (nodup_filter_sid hnd _) List.filter_sublist.subset) fun t ht y ⟨hon, hoff⟩ => ?_
    have hmem : t ∈ s.namedHeld w ∧ t.status = .held ∧ s.unitsLive t = true ↔ t.NamedBy w ∧ t.status = .held ∧ s.unitsLive t = true := by
      rw [State.mem_namedHeld]
      exact ⟨fun ⟨⟨_, hname, _⟩, hgo⟩ => ⟨hname, hgo⟩, fun ⟨hname, hgo⟩ => ⟨⟨ht, hname, hgo.1⟩, hgo⟩⟩
    exact ⟨fun h => hon (hmem.2 h), fun h => hoff (mt hmem.1 h)⟩

/-- SAVE, where named strands are held and their images can be written. -/
theorem save_some {s s' : State} {w : W64} (h : s.PecmdOk w) (hn : s.namedHeld w ≠ [])
    (hs : s.writeImages (w.extractLsb' 0 6).toNat s.peaddr (s.namedHeld w) = some s') :
    ∃ u, execSave w s = .next u ∧ u.pecmd = peWord w 0 false ∧ (∀ t ∈ u.strands, ¬ (t.NamedBy w ∧ t.status = .held)) ∧
      ∀ t ∈ s.namedHeld w, t.imaged ∈ u.saved ∧ (t.stack < 4 → (s.strands.map (·.sid)).Nodup → (∀ y ∈ s.strands, y.sid < 2 ^ 32) →
        ∃ y ∈ u.strands, y = { t with sid := y.sid, status := .ended } ∧ 2 ^ 32 ≤ y.sid ∧ y.sid ∈ (u.stack t.stack).departed) := by
  obtain ⟨hstrands, -⟩ := State.writeImages_frame _ _ hs
  refine ⟨_, execSave_some h hn hs, rfl, fun t ht ⟨hname, hheld⟩ => ?_, fun t ht => ⟨?_, fun hk hnd hlt => ?_⟩⟩
  · obtain ⟨hmem, hne⟩ := State.held_of_save _ ht hheld
    exact hne t (State.mem_namedHeld.2 ⟨hstrands ▸ hmem, hname, hheld⟩) rfl
  · exact (State.saved_of_save (s.namedHeld w) s').symm ▸ List.mem_append_right _ (List.mem_map_of_mem ht)
  · have hin := (State.mem_namedHeld.1 ht).1
    rw [State.stack_answered]
    exact State.left_of_save _ (nodup_filter_sid hnd _) (fun x hx => hlt x (State.mem_namedHeld.1 hx).1) ht (hstrands ▸ hin) hk

/-- RESTORE, where it takes some images. -/
theorem restore_some {s : State} {w : W64} (h : s.PecmdOk w) {all : List Strand}
    (hn : s.readImages (w.extractLsb' 0 6).toNat s.peaddr 65536 = some all) (hp : pickedBy w all ≠ []) :
    ∃ u, execRestore w s = .next u ∧ u.pecmd = peWord w 0 false ∧ u.strands = s.strands ∧ ∀ y ∈ pickedBy w all,
      (u.WaitsAs y.sid ∨ s.OnDevice y.sid) ∧ (((pickedBy w all).map (·.sid)).Nodup → (∃ t ∈ s.saved, t.sid = y.sid) → ¬ s.OnDevice y.sid →
        ¬ s.WaitsAs y.sid → ∀ k, s.tasks.find? (fun k => k.num == y.task) = some k →
          ∃ x ∈ u.waiting, x.image = some y ∧ x.launch = { k.launch with noWait := false } ∧ x.hdr = k.hdr) := by
  have hexec := execRestore_some h hn
  rw [if_neg hp] at hexec
  exact ⟨_, hexec, rfl, (State.foldl_enterImage _ s).strands, fun y hy => ⟨(State.restored_waits _ hy).imp (·.answered _) id,
    fun hnd => State.restored_launch _ hnd hy⟩⟩

/-- LINKCMD RESUME. -/
theorem linkcmdResume_spec {s : State} (h : s.wholeReset = false) : ∃ u, execLinkcmdResume s = .next u ∧
    (∀ t ∈ u.strands, t.linkHeld = false) ∧
    u = { s with strands := u.strands, stks := u.stks, tasks := u.tasks, freeCtr := u.freeCtr, linkHolding := false, lostAt := none } ∧
    s.Refetched { u with linkHolding := s.linkHolding, lostAt := s.lostAt } ∧
    u.strands = s.linkResumed.strands.map (·.linkFreed) := by
  have hframe : s.Refetched s.linkResumed := State.foldl_resumeStrand_frame _ s
  have hexec := execLinkcmdResume_ok h
  generalize s.linkResumed = r at hframe hexec ⊢
  refine ⟨_, hexec, fun t ht => ?_, ?_, ?_, rfl⟩
  · obtain ⟨x, -, rfl⟩ := List.mem_map.1 ht
    exact x.linkFreed_linkHeld
  · have hrest := hframe.rest
    exact congrArg (fun u : State => { u with strands := u.strands.map Strand.linkFreed, linkHolding := false, lostAt := none }) hrest
  · exact { hframe with rest := congrArg (fun u : State => { u with
      strands := u.strands.map Strand.linkFreed, linkHolding := s.linkHolding, lostAt := s.lostAt }) hframe.rest }

end Sys2Proof.Machine
end

section
/-! O51 as a whole. -/

namespace Sys2Proof.Machine

/-- Settles O51: one part for each command; RESUME by what each held strand's going on keeps. -/
theorem hostCommands : Obligations.HostCommands := by
  unfold Obligations.HostCommands
  intro goesOn onlyFetches
  refine ⟨fun s w n x h => exec_of_wholeReset h w n x, fun s w hr => ?_, fun s n w hn hr => ?_, fun s w hup hr hw hop => ?_,
    fun s x i t hi hr ht he => ?_, fun s hr => ?_⟩
  · intro ctx one sid named bad result four
    have hbad : (w &&& pecmdReserved ≠ 0 ∨ s.peBad w = true) ↔ bad := or_congr Iff.rfl State.peBad_iff
    have hresult (r : Nat) : peWord w r false = result r := peWord_false w r
    refine ⟨fun hh => exec_pecmd fun f => onPecmd_busy f hh, fun hh hb => ?_, fun hh hb => ?_⟩
    · rw [← hresult]
      exact exec_pecmd fun f => onPecmd_bad f hr hh (hbad.2 hb)
    · obtain ⟨hreserved, hfields⟩ := not_or.1 (mt hbad.1 hb)
      have hok : s.PecmdOk w := ⟨hr, hh, not_not.1 hreserved, Bool.eq_false_iff.2 hfields⟩
      simp only [← hresult]
      refine ⟨?_, fun hn => ?_, fun hn => ?_, fun s' hn hs => ?_, fun all hall => ?_, fun hn => ?_⟩
      · exact ⟨_, execHold_ok hr hh hok.reserved hok.fields, s.holdAsked_spec w⟩
      · have hn := State.namedHeld_eq_nil.2 hn
        exact ⟨execPecmdResume_none hok hn, execSave_none hok hn⟩
      · obtain ⟨u, hu, hrest, hframe, hstrands⟩ := pecmdResume_some hok (mt State.namedHeld_eq_nil.1 (not_not.2 hn))
        refine ⟨u, hu, hrest, hframe.onlyFetches, fun hnd => ?_⟩
        refine (hstrands hnd).imp fun t y ⟨hon, hoff⟩ => ?_
        have hnamed : t.NamedBy w ∧ t.status = .held ∧ s.unitsLive t = true ↔
            t.ctx = ctx ∧ (one = true → t.sid = sid) ∧ t.status = .held ∧ s.unitsLive t = true := and_assoc
        split
        next h => exact hon (hnamed.2 h)
        next h => exact hoff (mt hnamed.1 h)
      · obtain ⟨u, hu, hpecmd, hheld, hsaved⟩ := save_some hok (mt State.namedHeld_eq_nil.1 (not_not.2 hn)) hs
        exact ⟨u, hu, hpecmd, hheld, fun t ht hname hst => hsaved t (State.mem_namedHeld.2 ⟨ht, hname, hst⟩)⟩
      · exact ⟨fun hp => (execRestore_some hok hall).trans (congrArg Host.Outcome.next (if_pos hp)), fun hp => restore_some hok hall hp⟩
      · exact execRestore_none hok hn
  · exact ⟨execTlbinvOnePage_ok hr hn, execTlbinvWholeContext_ok hr hn, execDrefc_ok hr w n, execErrcfg_ok hr w, execFenceclr_ok hr w,
      registerWrite_ctxtab hr w, registerWrite_peaddr hr w, registerWrite_mbxdata hr w, registerWrite_tlbaddr hr w, registerWrite_linkgrace hr w,
      registerWrite_devevt hr w, registerWrite_ctxevt hr w hn, registerWrite_drefv hr w hn, registerWrite_queueBase hr w hn⟩
  · exact execHostMemoryWrite_ctxcmd hr w hup hw hop
  · exact ⟨_, execMbxctl_ok hr hi ht he⟩
  · obtain ⟨u, hu, hheld, hrest, hframe, hstrands⟩ := linkcmdResume_spec hr
    refine ⟨u, hu, hheld, hrest, hframe.onlyFetches, fun hnd => ?_⟩
    rw [hstrands]
    refine (State.linkResumed_strands hnd).imp fun t y ⟨hnot, hgo, hstay⟩ => ?_
    split
    next h => exact hnot h
    next h =>
      have h : t.linkHeld = true := by simpa using h
      split
      next hg => exact hgo h hg
      next hg => exact hstay h hg

end Sys2Proof.Machine
end

section
/-! The functions of scalar forms: shifts, extremes, counts of bits, high halves, quotients and remainders (R151, R152). -/

namespace Sys2Proof.Machine

/-! ## Shifts by the low six bits (R151) -/

theorem rotl64_eq (x y : W64) : rotl64 x y = (x <<< (y.toNat % 64)) ||| (x >>> (64 - y.toNat % 64)) :=
  BitVec.rotateLeft_eq_rotateLeftAux_of_lt (Nat.mod_lt _ (by decide))

/-- Bit 63 comes in from above. -/
theorem getLsbD_sar64 (x y : W64) {i : Nat} (hi : i < 64) :
    (sar64 x y).getLsbD i = if i + y.toNat % 64 < 64 then x.getLsbD (i + y.toNat % 64) else x.msb := by
  rw [sar64, BitVec.getLsbD_sshiftRight, decide_eq_false (Nat.not_le.2 hi), Bool.not_false, Bool.true_and, Nat.add_comm]

/-- A literal's sign extension leaves the low six bits, which count a shift (R155). -/
theorem toNat_sext_mod (w : W32) : (sext w).toNat % 64 = w.toNat % 64 := by
  rw [sext, BitVec.toNat_signExtend, BitVec.toNat_setWidth]
  have hw := w.isLt
  split <;> omega

/-! ## Extremes (R151) -/

theorem minI64_spec (x y : W64) : (minI64 x y = x ∨ minI64 x y = y) ∧ (minI64 x y).toInt = min x.toInt y.toInt := by
  unfold minI64
  split
  next h => exact ⟨.inr rfl, (min_eq_right (BitVec.slt_iff_toInt_lt.1 h).le).symm⟩
  next h => exact ⟨.inl rfl, (min_eq_left (not_lt.1 (mt BitVec.slt_iff_toInt_lt.2 h))).symm⟩

theorem minN64_spec (x y : W64) : (minN64 x y = x ∨ minN64 x y = y) ∧ (minN64 x y).toNat = min x.toNat y.toNat := by
  unfold minN64
  split
  next h => exact ⟨.inr rfl, (min_eq_right (BitVec.ult_iff_toNat_lt.1 h).le).symm⟩
  next h => exact ⟨.inl rfl, (min_eq_left (not_lt.1 (mt BitVec.ult_iff_toNat_lt.2 h))).symm⟩

theorem maxI64_spec (x y : W64) : (maxI64 x y = x ∨ maxI64 x y = y) ∧ (maxI64 x y).toInt = max x.toInt y.toInt := by
  unfold maxI64
  split
  next h => exact ⟨.inr rfl, (max_eq_right (BitVec.slt_iff_toInt_lt.1 h).le).symm⟩
  next h => exact ⟨.inl rfl, (max_eq_left (not_lt.1 (mt BitVec.slt_iff_toInt_lt.2 h))).symm⟩

theorem maxN64_spec (x y : W64) : (maxN64 x y = x ∨ maxN64 x y = y) ∧ (maxN64 x y).toNat = max x.toNat y.toNat := by
  unfold maxN64
  split
  next h => exact ⟨.inr rfl, (max_eq_right (BitVec.ult_iff_toNat_lt.1 h).le).symm⟩
  next h => exact ⟨.inl rfl, (max_eq_left (not_lt.1 (mt BitVec.ult_iff_toNat_lt.2 h))).symm⟩

/-! ## Counts of bits (R151, R157) -/

theorem leadingZeros_zero : leadingZeros 0 = 64 := rfl

theorem leadingZeros_of_ne_zero {x : W64} (hx : x ≠ 0) : leadingZeros x = 63 - x.toNat.log2 := if_neg (by simpa using hx)

/-- The zeros above the highest bit that is set, and no more. -/
theorem leadingZeros_spec (x : W64) : leadingZeros x ≤ 64 ∧ (∀ i < leadingZeros x, x.getLsbD (63 - i) = false) ∧
    (leadingZeros x < 64 → x.getLsbD (63 - leadingZeros x) = true) := by
  by_cases hx : x = 0
  · subst hx
    rw [leadingZeros_zero]
    exact ⟨le_rfl, fun _ _ => BitVec.getLsbD_zero, fun h => absurd h (lt_irrefl _)⟩
  have hne : x.toNat ≠ 0 := W64.toNat_ne_zero_iff.2 hx
  have hlog : x.toNat.log2 < 64 := (Nat.log2_lt hne).2 x.isLt
  rw [leadingZeros_of_ne_zero hx]
  refine ⟨by omega, fun i hi => ?_, fun _ => ?_⟩
  · exact Nat.testBit_lt_two_pow ((Nat.log2_lt hne).1 (by omega))
  · rw [show 63 - (63 - x.toNat.log2) = x.toNat.log2 by omega]
    exact Nat.testBit_log2 hne

/-- `CLZ`'s word holds the count. -/
theorem toNat_ofNat_leadingZeros (x : W64) : (BitVec.ofNat 64 (leadingZeros x)).toNat = leadingZeros x :=
  (BitVec.toNat_ofNat _ _).trans (Nat.mod_eq_of_lt ((leadingZeros_spec x).1.trans_lt (by decide)))

theorem foldl_bnat_eq_length_filter (f : Nat → Bool) (is : List Nat) (n : Nat) :
    is.foldl (fun n i => n + bnat (f i)) n = n + (is.filter f).length := by
  induction is generalizing n with
  | nil => rfl
  | cons i is ih =>
    rw [List.foldl_cons, ih, List.filter_cons]
    cases f i with
    | false => rfl
    | true => exact Nat.add_right_comm n 1 _

theorem popcount_eq (x : W64) : popcount x = ((List.range 64).filter fun i => x.getLsbD i).length :=
  (foldl_bnat_eq_length_filter _ _ 0).trans (Nat.zero_add _)

/-- `POPC`'s and `PCOUNT`'s word holds the count. -/
theorem toNat_ofNat_popcount (x : W64) :
    (BitVec.ofNat 64 (popcount x)).toNat = ((List.range 64).filter fun i => x.getLsbD i).length := by
  rw [popcount_eq]
  have hle : ((List.range 64).filter fun i => x.getLsbD i).length ≤ 64 :=
    (List.length_filter_le _ _).trans List.length_range.le
  exact (BitVec.toNat_ofNat _ _).trans (Nat.mod_eq_of_lt (hle.trans_lt (by decide)))

/-! ## High halves of products (R152) -/

theorem mulhI64_eq (x y : W64) : mulhI64 x y = ((x.signExtend 128 * y.signExtend 128) >>> 64).truncate 64 := by
  have hproduct : x.signExtend 128 * y.signExtend 128 = BitVec.ofInt 128 (x.toInt * y.toInt) := by
    rw [BitVec.ofInt_mul]
    rfl
  apply BitVec.eq_of_toNat_eq
  rw [hproduct, mulhI64, BitVec.toNat_setWidth, BitVec.toNat_ushiftRight, BitVec.toNat_ofInt, BitVec.toNat_ofInt,
    Nat.shiftRight_eq_div_pow]
  push_cast
  omega

theorem mulhN64_eq (x y : W64) : mulhN64 x y = ((x.zeroExtend 128 * y.zeroExtend 128) >>> 64).truncate 64 := by
  have hproduct : (x.zeroExtend 128 * y.zeroExtend 128).toNat = x.toNat * y.toNat := by
    rw [BitVec.toNat_mul, BitVec.toNat_setWidth_of_le (by decide), BitVec.toNat_setWidth_of_le (by decide)]
    exact Nat.mod_eq_of_lt ((Nat.mul_lt_mul'' x.isLt y.isLt).trans_eq (by decide))
  apply BitVec.eq_of_toNat_eq
  rw [mulhN64, BitVec.toNat_setWidth, BitVec.toNat_ushiftRight, hproduct, Nat.shiftRight_eq_div_pow, BitVec.toNat_ofNat]

/-! ## Quotients and remainders (R152) -/

theorem divI64_eq_sdiv (x y : W64) : divI64 x y = x.sdiv y := by
  apply BitVec.eq_of_toInt_eq
  rw [divI64, BitVec.toInt_ofInt, BitVec.toInt_sdiv]

theorem divI64_spec (x y : W64) : if y = 0 then divI64 x y = 0
    else if x = BitVec.intMin 64 ∧ y = BitVec.allOnes 64 then divI64 x y = BitVec.intMin 64
    else (divI64 x y).toInt = Int.tdiv x.toInt y.toInt := by
  rw [divI64_eq_sdiv]
  split_ifs with hzero hover
  · subst hzero
    exact BitVec.sdiv_zero
  · rw [hover.1, hover.2]
    decide
  · refine BitVec.toInt_sdiv_of_ne_or_ne _ _ (by_contra fun h => hover ?_)
    rw [not_or, not_not, not_not] at h
    exact ⟨h.1, h.2.trans BitVec.neg_one_eq_allOnes⟩

theorem divN64_eq (x y : W64) : divN64 x y = x / y := by
  apply BitVec.eq_of_toNat_eq
  rw [divN64, BitVec.toNat_udiv]
  exact (BitVec.toNat_ofNat _ _).trans (Nat.mod_eq_of_lt ((Nat.div_le_self _ _).trans_lt x.isLt))

theorem divN64_spec (x y : W64) : if y = 0 then divN64 x y = 0 else divN64 x y = x / y := by
  rw [divN64_eq]
  split_ifs with hzero
  · subst hzero
    exact BitVec.udiv_zero
  · rfl

theorem modI64_eq_srem (x y : W64) : modI64 x y = x.srem y := by
  apply BitVec.eq_of_toInt_eq
  rw [modI64, ← BitVec.toInt_srem, BitVec.ofInt_toInt]

theorem modI64_spec (x y : W64) : if y = 0 then modI64 x y = x
    else (modI64 x y).toInt = x.toInt - y.toInt * Int.tdiv x.toInt y.toInt := by
  rw [modI64_eq_srem]
  split_ifs with hzero
  · subst hzero
    exact BitVec.srem_zero
  · rw [BitVec.toInt_srem, Int.tmod_def]

theorem modN64_eq (x y : W64) : modN64 x y = x % y := by
  apply BitVec.eq_of_toNat_eq
  rw [modN64, BitVec.toNat_umod]
  exact (BitVec.toNat_ofNat _ _).trans (Nat.mod_eq_of_lt ((Nat.mod_le _ _).trans_lt x.isLt))

theorem modN64_spec (x y : W64) : if y = 0 then modN64 x y = x else modN64 x y = x - y * (x / y) := by
  rw [modN64_eq]
  split_ifs with hzero
  · subst hzero
    exact BitVec.umod_zero
  · rw [eq_comm, sub_eq_iff_eq_add]
    apply BitVec.eq_of_toNat_eq
    rw [BitVec.toNat_add, BitVec.toNat_mul, BitVec.toNat_udiv, BitVec.toNat_umod, Nat.add_mod_mod, Nat.mod_add_div, Nat.mod_eq_of_lt x.isLt]

end Sys2Proof.Machine
end

section
/-! Scalar register forms and literal forms (R151, R152, R154, R155). -/

namespace Sys2Proof.Machine

/-- Settles O1: each form lands its function of the registers through the guard, and the functions are what R151 and R152 say. -/
theorem scalarRegisterForms : Obligations.ScalarRegisterForms := by
  constructor
  · intro s v h d a b hv hg x y k
    exact ⟨lands_onS _ hv hg rfl rfl, lands_onS _ hv hg rfl rfl, lands_onS _ hv hg rfl rfl, lands_onS _ hv hg rfl rfl,
      lands_onS _ hv hg rfl rfl, lands_onS _ hv hg rfl rfl, lands_onS _ hv hg rfl rfl, lands_onS _ hv hg rfl rfl,
      lands_onS _ hv hg rfl fun _ => getLsbD_sar64 x y, lands_onS _ hv hg rfl (rotl64_eq x y),
      lands_onS _ hv hg rfl (minI64_spec x y), lands_onS _ hv hg rfl (minN64_spec x y),
      lands_onS _ hv hg rfl (maxI64_spec x y), lands_onS _ hv hg rfl (maxN64_spec x y),
      lands_onS _ hv hg rfl ((toNat_ofNat_leadingZeros x).symm ▸ leadingZeros_spec x),
      lands_onS _ hv hg rfl (toNat_ofNat_popcount x), lands_onS _ hv hg rfl rfl⟩
  · intro s v h d a b hv hg x y
    exact ⟨lands_onS _ hv hg rfl rfl, lands_onS _ hv hg rfl (mulhI64_eq x y), lands_onS _ hv hg rfl (mulhN64_eq x y),
      lands_onS _ hv hg rfl (divI64_spec x y), lands_onS _ hv hg rfl (divN64_spec x y),
      lands_onS _ hv hg rfl (modI64_spec x y), lands_onS _ hv hg rfl (modN64_spec x y)⟩

/-- Settles O3: each literal form lands its register form's function of the extended literal, whose low six bits are the literal's. -/
theorem scalarLiteralForms : Obligations.ScalarLiteralForms := by
  intro s v h d a w hv hg x y k
  have hk : k = y.toNat % 64 := (toNat_sext_mod w).symm
  rw [hk]
  exact ⟨lands_onS _ hv hg rfl rfl, lands_onS _ hv hg rfl rfl, lands_onS _ hv hg rfl rfl, lands_onS _ hv hg rfl rfl,
    lands_onS _ hv hg rfl rfl, lands_onS _ hv hg rfl rfl, lands_onS _ hv hg rfl rfl, lands_onS _ hv hg rfl rfl,
    lands_onS _ hv hg rfl fun _ => getLsbD_sar64 x y, lands_onS _ hv hg rfl (rotl64_eq x y), lands_onS _ hv hg rfl rfl,
    lands_onS _ hv hg rfl (minI64_spec x y), lands_onS _ hv hg rfl (minN64_spec x y),
    lands_onS _ hv hg rfl (maxI64_spec x y), lands_onS _ hv hg rfl (maxN64_spec x y), lands_onS _ hv hg rfl rfl⟩

end Sys2Proof.Machine
end

section
/-! Bit fields, SEL, LEA and LEAL, compares and predicate logic (R110, R144, R153, R154, R156, R157). -/

namespace Sys2Proof.Machine

/-! ## Opcodes of S syllables (R79) -/

theorem Opcodes.nil {kind : Nat} : Opcodes kind [] := fun _ h => nomatch h

/-- An S syllable's word has kind 0 and its opcode. -/
theorem Opcodes.consS {i : Instr} {op x : Nat} {h : SHead} {lits : List W32} {l : List (Instr × Nat)} (he : encode i = encS op h x :: lits)
    (hx : x < 2 ^ 15) (hl : Opcodes 0 l) (hop : op < 128 := by decide) : Opcodes 0 ((i, op) :: l) := by
  obtain ⟨hkind, hcode, -, -⟩ := encS_fields h hop hx
  refine List.forall_mem_cons.2 ⟨?_, hl⟩
  rw [he]
  exact ⟨hkind, hcode⟩

/-! ## The field of BFX and BFI (R153) -/

theorem bfWidth_eq (y : W64) : bfWidth y = min (y.extractLsb' 8 7).toNat 64 := by rw [bfWidth, fld_extract]

theorem bfPos_eq (y : W64) : bfPos y = (y.extractLsb' 0 6).toNat := by rw [bfPos, fld_extract]

theorem getLsbD_ones64 (w : Nat) {i : Nat} (hi : i < 64) : (ones64 w).getLsbD i = decide (i < w) := by
  rw [ones64, BitVec.getLsbD_ofNat, decide_eq_true hi, Bool.true_and, Nat.testBit_two_pow_sub_one]

theorem getLsbD_bfx64 (x y : W64) {i : Nat} (hi : i < 64) :
    (bfx64 x y).getLsbD i = (decide (i < bfWidth y) && x.getLsbD (bfPos y + i)) := by
  rw [bfx64, BitVec.getLsbD_and, BitVec.getLsbD_ushiftRight, getLsbD_ones64 _ hi, Bool.and_comm]

theorem getLsbD_bfi64 (d x y : W64) {i : Nat} (hi : i < 64) :
    (bfi64 d x y).getLsbD i = if bfPos y ≤ i ∧ i < bfPos y + bfWidth y then x.getLsbD (i - bfPos y) else d.getLsbD i := by
  have hmask : (ones64 (bfWidth y) <<< bfPos y).getLsbD i = decide (bfPos y ≤ i ∧ i < bfPos y + bfWidth y) := by
    rw [BitVec.getLsbD_shiftLeft, getLsbD_ones64 _ (by omega), Bool.eq_iff_iff]
    simp only [Bool.and_eq_true, Bool.not_eq_true', decide_eq_true_eq, decide_eq_false_iff_not]
    omega
  simp only [bfi64, BitVec.getLsbD_or, BitVec.getLsbD_and, BitVec.getLsbD_not, BitVec.getLsbD_shiftLeft x, hmask]
  split_ifs with hfield
  · simp [hfield, hi]
  · simp [hfield, hi]

/-! ## Addresses (R144, R154) -/

/-- An address that LEA refuses: local, with a reserved bit set. -/
theorem canonical_eq_false {x : W64} : canonical x = false ↔ x.msb = false ∧ x.toNat ≥ 2 ^ 48 := by
  simp only [canonical, isDomain, Bool.or_eq_false_iff, decide_eq_false_iff_not, not_lt, ge_iff_le]

theorem View.lea_canonical {v : View} {s : State} {d : Reg} {x : W64} (h : canonical x = true) : v.lea s d x = v.landS s 1 d x := if_pos h

theorem View.lea_reserved {v : View} {s : State} {d : Reg} {x : W64} (h : canonical x = false) : v.lea s d x = v.raise s cAddress x :=
  if_neg (h ▸ Bool.false_ne_true)

section
variable {s : State} {v : View} {h : SHead} {d : Reg} {i : Instr} {x : W64} {f : View → W64} (hv : s.view = some v)
  (hg : v.guard h.neg h.g = true) (hi : exec i s = onS h s fun v => v.lea s d (f v)) (hx : f v = x)
include hv hg hi hx

theorem landsScalar_lea (hok : ¬ (x.msb = false ∧ x.toNat ≥ 2 ^ 48)) : LandsScalar s v 1 d i (· = x) := by
  subst hx
  refine ⟨f v, ?_, rfl⟩
  rw [hi, onS_true hv hg, View.lea_canonical (Bool.eq_true_of_not_eq_false (mt canonical_eq_false.1 hok))]
  rfl

theorem exec_lea_raises (hbad : x.msb = false ∧ x.toNat ≥ 2 ^ 48) : exec i s = .next (v.raise s 3 x) := by
  subst hx
  rw [hi, onS_true hv hg, View.lea_reserved (canonical_eq_false.2 hbad)]
  rfl
end

/-- Settles O2: the fields bit by bit from their masks, and LEA's check as the one of canonical addresses. -/
theorem bitFieldSelectAndAddressForms : Obligations.BitFieldSelectAndAddressForms := by
  refine ⟨⟨fun s v h d a b hv hg => ?_, fun h d a b => ?_⟩, fun s v h d a b w hv => ⟨?_, fun hg => ?_⟩⟩
  · rw [← bfWidth_eq, ← bfPos_eq]
    exact ⟨lands_onS _ hv hg rfl fun _ => getLsbD_bfx64 _ _, lands_onS _ hv hg rfl fun _ => getLsbD_bfi64 _ _ _⟩
  · exact .consS rfl (by omega) (.consS rfl (by omega) .nil)
  · exact ⟨_, withView_some _ hv, rfl⟩
  · have hscaled : v.rs a + (v.rs b <<< 3) = v.rs a + v.rs b * 8 := by
      rw [BitVec.shiftLeft_eq_mul_twoPow]
      rfl
    exact ⟨landsScalar_lea hv hg rfl hscaled, exec_lea_raises hv hg rfl hscaled, landsScalar_lea hv hg rfl rfl,
      exec_lea_raises hv hg rfl rfl⟩

/-! ## Compares and predicate logic (R156, R157) -/

theorem predOf_eq_ite {b : Bool} {p : Prop} [Decidable p] (h : b = true ↔ p) : predOf b = if p then BitVec.allOnes 64 else 0 :=
  if_congr h rfl rfl

/-- A write to p0 is ignored. -/
theorem Cluster.wp_zero (c : Cluster) (z m : W64) : c.wp 0 z m = c := rfl

/-- So is a predicate result that lands in it. -/
theorem Core.cluster_apply_pred_zero (c : Core) (x : Nat) {k : Nat} (z m : W64) (hk : k < 4) :
    (c.apply x (.pred k 0 z m)).cluster k = c.cluster k :=
  (Core.cluster_modCl c _ hk).trans (Cluster.wp_zero _ z m)

section
variable {s : State} {v : View} {h : SHead} {d : PReg} {i : Instr} (hv : s.view = some v) (hg : v.guard h.neg h.g = true)
include hv hg

/-- A compare's mask through the guard. -/
theorem landsPred_predOf {f : View → Bool} {p : Prop} [Decidable p] (hi : exec i s = onS h s fun v => v.landP s d (predOf (f v)))
    (hp : f v = true ↔ p) : LandsPred s v d i (if p then BitVec.allOnes 64 else 0) :=
  landsP_onS (fun v => predOf (f v)) hv hg hi (predOf_eq_ite hp)
end

theorem not_slt_iff {x y : W64} : (!x.slt y) = true ↔ x.toInt ≥ y.toInt := by
  rw [Bool.not_eq_true', ← Bool.not_eq_true, BitVec.slt_iff_toInt_lt, not_lt]

theorem not_ult_iff {x y : W64} : (!x.ult y) = true ↔ x.toNat ≥ y.toNat := by
  rw [Bool.not_eq_true', ← Bool.not_eq_true, BitVec.ult_iff_toNat_lt, not_lt]

/-- Settles O4: each compare lands the mask of its condition, each predicate form its function, and p0 keeps what it holds. -/
theorem scalarComparesAndPredicates : Obligations.ScalarComparesAndPredicates := by
  refine ⟨⟨fun s v h d a b w hv hg => ?_, fun h d a b w => ?_⟩, fun s v h d a b r hv hg => ?_, fun h d a b r => ?_,
    fun c x k z m hk p _ => congrArg (·.rp p) (Core.cluster_apply_pred_zero c x z m hk)⟩
  · exact ⟨landsPred_predOf hv hg rfl beq_iff_eq, landsPred_predOf hv hg rfl bne_iff_ne,
      landsPred_predOf hv hg rfl BitVec.slt_iff_toInt_lt, landsPred_predOf hv hg rfl not_slt_iff,
      landsPred_predOf hv hg rfl BitVec.ult_iff_toNat_lt, landsPred_predOf hv hg rfl not_ult_iff,
      landsPred_predOf hv hg rfl beq_iff_eq, landsPred_predOf hv hg rfl bne_iff_ne,
      landsPred_predOf hv hg rfl BitVec.slt_iff_toInt_lt, landsPred_predOf hv hg rfl not_slt_iff,
      landsPred_predOf hv hg rfl BitVec.ult_iff_toNat_lt, landsPred_predOf hv hg rfl not_ult_iff⟩
  · iterate 12 refine .consS rfl (by omega) ?_
    exact .nil
  · have hany : predOf (v.rp a != 0) = if v.rp a = 0 then 0 else BitVec.allOnes 64 :=
      (predOf_eq_ite bne_iff_ne).trans (ite_not _ _ _)
    exact ⟨landsP_onS _ hv hg rfl rfl, landsP_onS _ hv hg rfl rfl, landsP_onS _ hv hg rfl rfl, landsP_onS _ hv hg rfl rfl,
      landsP_onS _ hv hg rfl rfl, lands_onS _ hv hg rfl (toNat_ofNat_popcount _), landsP_onS _ hv hg rfl hany,
      landsPred_predOf hv hg rfl beq_iff_eq⟩
  · iterate 8 refine .consS rfl (by omega) ?_
    exact .nil

end Sys2Proof.Machine
end

section
/-! Special registers (R110, R158 to R160, R188, R240). -/

namespace Sys2Proof.Machine

/-! ## What a code reads as (R158, R240) -/

/-- What is read of the innermost bank in use. -/
theorem Cluster.inner_map_getD (c : Cluster) (f : Bank → W64) :
    (c.inner.map f).getD 0 = if c.tb.inUse then f c.tb else if c.ta.inUse then f c.ta else 0 := by
  unfold Cluster.inner
  split_ifs <;> rfl

section
variable (v : View) (s : State)

theorem View.special_cause : v.special s 0x11 = (v.cl.inner.map Bank.cause).getD 0 := by
  unfold View.special
  cases v.cl.inner <;> rfl

theorem View.special_addr : v.special s 0x12 = (v.cl.inner.map Bank.addr).getD 0 := by
  unfold View.special
  cases v.cl.inner <;> rfl

/-- The registers that come in rows: the mailbox, the loop counters, the predicates and the two trap banks. -/
theorem View.special_rows :
    (∀ n < 8, v.special s (8 + n) = vget v.st.mbx n 0) ∧ (∀ n < 4, v.special s (0x30 + n) = BitVec.ofNat 64 (v.cl.seq.lc n)) ∧
    (∀ n < 12, v.special s (0x40 + n) = v.cl.rp n) ∧ (∀ n < 32, v.special s (0x100 + n) = v.cl.ta.read n) ∧
    (∀ n < 32, v.special s (0x120 + n) = v.cl.tb.read n) := by
  refine ⟨?_, ?_, ?_, ?_, ?_⟩ <;> intro n hn <;>
    simp (disch := omega) only [View.special, beq_false_of_ne, decide_eq_true, decide_eq_false, Bool.and_true, Bool.and_false,
      Bool.false_eq_true, if_true, if_false, Nat.add_sub_cancel_left]
end

/-! ## MFS and MTS at their issue (R158 to R160, R188) -/

section
variable {s : State} {v : View} {h : SHead} {r : Reg} (hv : s.view = some v) (hg : v.guard h.neg h.g = true)
include hv hg

/-- MFS lands what its code reads as, the generation count apart. -/
theorem landsScalar_mfs {code : Nat} {x : W64} (hx : v.special s code = x) (hcode : code < 2 ^ 10 := by decide)
    (hne : code ≠ 0x1B := by decide) : LandsScalar s v 1 r (.mfs h r (BitVec.ofNat 10 code)) (· = x) := by
  have htoNat : (BitVec.ofNat 10 code).toNat = code := (BitVec.toNat_ofNat _ _).trans (Nat.mod_eq_of_lt hcode)
  have hrgc : ¬ (BitVec.ofNat 10 code == 0x1B) = true := fun h => hne (htoNat.symm.trans (congrArg BitVec.toNat (beq_iff_eq.1 h)))
  refine ⟨v.special s (BitVec.ofNat 10 code).toNat, ?_, by rw [htoNat, hx]⟩
  exact (onS_true hv hg).trans (congrArg Host.Outcome.next (if_neg hrgc))

/-- The generation count is decided at the end of the beat. -/
theorem exec_mfs_rgc : exec (.mfs h r 0x1B) s = .next (v.land s 1 0 (.rgc v.cur.cl r (BitVec.ofNat 64 v.co.rgc))) :=
  onS_true hv hg

theorem exec_mts {code : BitVec 10} : exec (.mts h r code) s = .next (v.land s 1 0 (.special v.cur.cl code.toNat (v.rs r))) :=
  onS_true hv hg
end

/-- The generation count as it stands at the end of the beat: zero where the rule engine's planes have flipped on it (R188). -/
theorem Core.rgc_mem_decideAll {co old : Core} {e : Timed} {cl : Nat} {d : Reg} {z : W64} (he : e ∈ co.agenda) (ha : e.act = .rgc cl d z) :
    { e with act := .scalar cl d (if co.re.flips = old.re.flips then z else 0) } ∈ (co.decideAll old).agenda := by
  refine List.mem_map.2 ⟨e, he, ?_⟩
  simp only [ha, Core.outcome, beq_iff_eq]

/-! ## What a landed MTS writes (R110, R158, R159, R240) -/

/-- Bits 1:0 of an address are not implemented. -/
theorem not_three : ~~~(3 : W64) = 0xFFFFFFFFFFFFFFFC := by decide

/-- A predicate written whole, at an index that it has. -/
theorem Cluster.rp_wp_whole (c : Cluster) (x : W64) {n : Nat} (hn : n < 12) (hpos : 0 < n) (k : Nat) :
    (c.wp n x (BitVec.allOnes 64)).rp k = if k = n then x else c.rp k := by
  have hmerged : (c.rp n &&& ~~~(BitVec.allOnes 64)) ||| (x &&& BitVec.allOnes 64) = x := by
    rw [BitVec.not_allOnes, BitVec.and_zero, BitVec.zero_or, BitVec.and_allOnes]
  have hwp : (c.wp n x (BitVec.allOnes 64)).p = vset c.p n x := by rw [Cluster.wp, if_neg (by simpa using hpos.ne'), hmerged]
  rw [Cluster.rp, hwp, vget_vset, Cluster.rp]
  by_cases hk : k = n
  · subst hk
    rw [if_neg (by simpa using hpos.ne'), if_pos ⟨rfl, hn⟩, if_pos rfl]
  · simp only [Ne.symm hk, hk, false_and, if_false]

theorem Cluster.writeSpecial_predicate (c : Cluster) (x : W64) {n : Nat} (hn : n < 12) :
    c.writeSpecial (0x40 + n) x = c.wp n x (BitVec.allOnes 64) := by
  simp (disch := omega) only [Cluster.writeSpecial, beq_false_of_ne, decide_eq_true, Bool.and_true, Bool.false_eq_true, if_true, if_false,
    Nat.add_sub_cancel_left]

/-- The target of a bank that is in use, and with it the transfer that is pending. -/
theorem Bank.write_tgt (b : Bank) (x : W64) : b.write 3 x = if b.inUse = false then b else
    { b with tgt := x &&& ~~~3, seq := if b.seq.pos = 0 then b.seq
      else { b.seq with tgt := some (x &&& ~~~3).toNat, exits := true, skips := false } } := by
  show (if b.inUse then b.aim (x &&& ~~~3) else b) = _
  cases h : b.inUse with
  | false => rfl
  | true => simp only [Bank.aim, beq_iff_eq, if_true, Bool.true_eq_false, if_false, h]

/-- Settles O26: MFS reads the register that its code selects, and a landed MTS writes the bits that the register has. -/
theorem specialRegisters : Obligations.SpecialRegisters := by
  refine ⟨⟨fun s v h r hv hg => ?_, fun co old e cl d z he ha => Core.rgc_mem_decideAll he ha⟩, fun c x => ?_⟩
  · intro reads nat inner bank
    have hbank {base : Nat} {b : Bank} (hread : ∀ k < 32, v.special s (base + k) = b.read k) (hcode : base + 32 ≤ 2 ^ 10)
        (hne : 0x1B < base) : bank base b := by
      have hfield (k : Nat) (hk : k < 32) : reads (base + k) (b.read k) := landsScalar_mfs hv hg (hread k hk) (by omega) (by omega)
      exact ⟨hfield 0 (by decide), hfield 1 (by decide), hfield 2 (by decide), hfield 3 (by decide), hfield 4 (by decide),
        hfield 5 (by decide), hfield 8 (by decide), hfield 9 (by decide), hfield 10 (by decide), hfield 11 (by decide),
        hfield 12 (by decide), hfield 13 (by decide), hfield 16 (by decide), hfield 17 (by decide), hfield 18 (by decide),
        hfield 19 (by decide)⟩
    have hcause : v.special s 0x11 = inner (·.cause) := (v.special_cause s).trans (v.cl.inner_map_getD _)
    have haddr : v.special s 0x12 = inner (·.addr) := (v.special_addr s).trans (v.cl.inner_map_getD _)
    obtain ⟨hmailbox, hcounter, hpredicate, hta, htb⟩ := v.special_rows s
    exact ⟨landsScalar_mfs hv hg rfl, landsScalar_mfs hv hg rfl, landsScalar_mfs hv hg rfl,
      fun i => landsScalar_mfs hv hg ((hmailbox i i.isLt).trans (dif_pos i.isLt)) (by omega) (by omega), landsScalar_mfs hv hg rfl,
      landsScalar_mfs hv hg hcause, landsScalar_mfs hv hg haddr, landsScalar_mfs hv hg rfl, landsScalar_mfs hv hg rfl,
      landsScalar_mfs hv hg rfl, landsScalar_mfs hv hg rfl, landsScalar_mfs hv hg rfl, landsScalar_mfs hv hg rfl,
      landsScalar_mfs hv hg rfl, landsScalar_mfs hv hg rfl, landsScalar_mfs hv hg rfl, landsScalar_mfs hv hg rfl,
      fun n hn => landsScalar_mfs hv hg (hcounter n hn) (by omega) (by omega),
      fun n hn => landsScalar_mfs hv hg (hpredicate n hn) (by omega) (by omega), hbank hta (by decide) (by decide),
      hbank htb (by decide) (by decide), exec_mfs_rgc hv hg, fun code => exec_mts hv hg⟩
  · intro w aligned aim
    have haligned : x &&& ~~~3 = aligned := congrArg (x &&& ·) not_three
    have haim (b : Bank) : b.write 3 x = aim b := by rw [Bank.write_tgt, haligned]
    refine ⟨?_, rfl, rfl, rfl, fun n hn hpos => ?_, ?_, ?_, ?_, ?_, rfl, rfl, rfl, rfl, rfl, rfl, rfl, rfl⟩
    · rw [← haligned]
      rfl
    · rw [show w (0x40 + n) = _ from c.writeSpecial_predicate x hn]
      exact ⟨(c.rp_wp_whole x hn hpos n).trans (if_pos rfl), fun k _ hk => (c.rp_wp_whole x hn hpos k).trans (if_neg hk)⟩
    · rw [← haligned]
      rfl
    · rw [← haim]
      rfl
    · rw [← haligned]
      rfl
    · rw [← haim]
      rfl

end Sys2Proof.Machine
end

section
/-! The frame of the forms whose only effect is a register (R150, R165): the relation on cores, then on the issuing strand and the state. -/

namespace Sys2Proof.Machine

/-! ## Cores -/

/-- What such a form may change of the issuing core: results to land after its beat, and, of a V form, the queues of the issuing context
and its stochastic-rounding state. -/
structure Core.RegisterFrame (pops : Bool) (c : Cur) (a b : Core) : Prop where
  rest : b = { a with cl := b.cl, agenda := b.agenda }
  scalar : pops = false → b.cl = a.cl
  cluster : ∀ k, b.cluster k = if k = c.cl then { a.cluster k with q := (b.cluster k).q, sr := (b.cluster k).sr } else a.cluster k
  agenda : LandsLater c.beat a.agenda b.agenda

namespace Core.RegisterFrame

variable {pops : Bool} {c : Cur}

theorem cluster_same (a : Core) (k : Nat) :
    a.cluster k = if k = c.cl then { a.cluster k with q := (a.cluster k).q, sr := (a.cluster k).sr } else a.cluster k := (ite_self _).symm

theorem refl (a : Core) : a.RegisterFrame pops c a := ⟨rfl, fun _ => rfl, cluster_same a, .refl _ _⟩

theorem trans {a b d : Core} (h : a.RegisterFrame pops c b) (h' : b.RegisterFrame pops c d) : a.RegisterFrame pops c d where
  rest := h'.rest.trans (congrArg (fun x : Core => { x with cl := d.cl, agenda := d.agenda }) h.rest)
  scalar hp := (h'.scalar hp).trans (h.scalar hp)
  cluster k := by
    refine (h'.cluster k).trans ?_
    have hab := h.cluster k
    split
    · next hk =>
      rw [if_pos hk] at hab
      exact congrArg (fun x : Cluster => { x with q := (d.cluster k).q, sr := (d.cluster k).sr }) hab
    · next hk => rwa [if_neg hk] at hab
  agenda := h.agenda.trans h'.agenda

theorem sched (a : Core) {beat : Nat} (h : c.beat < beat) {ord : Nat} {act : Act} : a.RegisterFrame pops c (a.sched beat ord act) :=
  ⟨rfl, fun _ => rfl, cluster_same a, landsLater_insertTimed h _⟩

/-- A V form's pops and its step of the stochastic-rounding state. -/
theorem modCl (hp : pops = true) (a : Core) {f : Cluster → Cluster} (hf : ∀ x : Cluster, f x = { x with q := (f x).q, sr := (f x).sr }) :
    a.RegisterFrame pops c (a.modCl c.cl f) := by
  refine ⟨rfl, fun h => absurd hp (ne_true_of_eq_false h), fun k => ?_, .refl _ _⟩
  by_cases hk : k = c.cl
  · subst hk
    rw [if_pos rfl]
    by_cases hlt : c.cl < 4
    · rw [Core.cluster_modCl a f hlt]
      exact hf _
    · simp only [Core.cluster, vget, hlt, dif_neg, not_false_iff]
  · rw [if_neg hk, Core.cluster_modCl_ne a f (Ne.symm hk)]

/-- Of a form that pops nothing, only results to land. -/
theorem onlyLands {a b : Core} (h : a.RegisterFrame false c b) : a.OnlyLands c.beat b :=
  ⟨h.rest.trans (by rw [h.scalar rfl]), h.agenda⟩

end Core.RegisterFrame

/-! ## Strands and the state -/

/-- Of the strand only its issuing core, and causes that are raised. -/
def Strand.RegisterFrame (pops : Bool) (c : Cur) (x y : Strand) : Prop :=
  Strand.FrameCore c.core (Core.RegisterFrame pops c) { x with raised := y.raised } y

/-- Of the state only its issuing strand. -/
def State.RegisterFrame (pops : Bool) (c : Cur) (s t : State) : Prop := s.FrameStrand t c.sid (Strand.RegisterFrame pops c)

variable {pops : Bool} {c : Cur}

/-- What may change of logical core `k`. -/
def Core.RegisterFrameAt (pops : Bool) (c : Cur) (k : Nat) (a b : Core) : Prop := if k = c.core then a.RegisterFrame pops c b else b = a

theorem Core.RegisterFrameAt.refl (k : Nat) (a : Core) : a.RegisterFrameAt pops c k a := by
  unfold Core.RegisterFrameAt
  split
  · exact .refl a
  · rfl

theorem Core.RegisterFrameAt.trans {k : Nat} {a b d : Core} (h : a.RegisterFrameAt pops c k b) (h' : b.RegisterFrameAt pops c k d) :
    a.RegisterFrameAt pops c k d := by
  unfold Core.RegisterFrameAt at *
  split at h
  · next hk =>
    rw [if_pos hk] at h' ⊢
    exact h.trans h'
  · next hk =>
    rw [if_neg hk] at h' ⊢
    exact h'.trans h

namespace Strand.RegisterFrame

theorem refl (x : Strand) : x.RegisterFrame pops c x := ⟨rfl, fun k => optionRel_refl (Core.RegisterFrameAt.refl k) _⟩

theorem trans {x y z : Strand} (h : x.RegisterFrame pops c y) (h' : y.RegisterFrame pops c z) : x.RegisterFrame pops c z :=
  ⟨h'.1.trans (congrArg (fun x : Strand => { x with raised := z.raised, cores := z.cores }) h.1),
    fun k => optionRel_trans (R := Core.RegisterFrameAt pops c k) Core.RegisterFrameAt.trans (h.2 k) (h'.2 k)⟩

theorem sid {x y : Strand} (h : x.RegisterFrame pops c y) : y.sid = x.sid := by rw [h.1]

theorem raise (x : Strand) {e : Cause} : x.RegisterFrame pops c (x.raise e) := ⟨rfl, fun k => optionRel_refl (Core.RegisterFrameAt.refl k) _⟩

theorem modCore (x : Strand) {f : Core → Core} (hf : ∀ a : Core, a.RegisterFrame pops c (f a)) :
    x.RegisterFrame pops c (x.modCore c.core f) := by
  refine ⟨rfl, fun k => ?_⟩
  rw [Strand.modCore_cores, List.getElem?_modify]
  refine optionRel_map (R := Core.RegisterFrameAt pops c k) (fun a => ?_) _
  split
  · next hk => exact (if_pos hk.symm).mpr (hf a)
  · exact .refl k a

end Strand.RegisterFrame

namespace State.RegisterFrame

theorem refl (s : State) : s.RegisterFrame pops c s := by
  refine ⟨rfl, List.forall₂_same.2 fun x _ => ?_⟩
  split
  · exact .refl x
  · rfl

theorem trans {s t u : State} (h : s.RegisterFrame pops c t) (h' : t.RegisterFrame pops c u) : s.RegisterFrame pops c u := by
  refine ⟨h'.1.trans (congrArg (fun x : State => { x with strands := u.strands, cur := u.cur }) h.1), ?_⟩
  refine forall₂_trans (R := fun x y : Strand => if x.sid = c.sid then x.RegisterFrame pops c y else y = x) (fun {x y z} hxy hyz => ?_) h.2 h'.2
  split at hxy
  · next hx =>
    rw [if_pos (hxy.sid.trans hx)] at hyz
    exact (if_pos hx).mpr (hxy.trans hyz)
  · next hx =>
    subst hxy
    exact hyz

theorem modStrand (s : State) {f : Strand → Strand} (hf : ∀ x : Strand, x.RegisterFrame pops c (f x)) :
    s.RegisterFrame pops c (s.modStrand c.sid f) := by
  refine ⟨rfl, forall₂_map_self (fun x => ?_) _⟩
  by_cases hx : x.sid = c.sid
  · rw [if_pos hx, if_pos (beq_iff_eq.2 hx)]
    exact hf x
  · rw [if_neg hx, if_neg (mt beq_iff_eq.1 hx)]

end State.RegisterFrame

/-! ## Weaker relations -/

theorem optionRel_imp {α : Type} {R S : α → α → Prop} (hRS : ∀ a b, R a b → S a b) {a b : Option α} (h : Option.Rel R a b) :
    Option.Rel S a b := by
  cases h with
  | none => exact .none
  | some h => exact .some (hRS _ _ h)

/-- A frame of one core says more where its relation does. -/
theorem Strand.FrameCore.imp {n : Nat} {R S : Core → Core → Prop} (hRS : ∀ a b, R a b → S a b) {x y : Strand}
    (h : Strand.FrameCore n R x y) : Strand.FrameCore n S x y := by
  refine ⟨h.1, fun k => optionRel_imp (fun a b hab => ?_) (h.2 k)⟩
  split at hab
  · next hk => exact (if_pos hk).mpr (hRS a b hab)
  · next hk => exact (if_neg hk).mpr hab

/-- So does a frame of one strand. -/
theorem State.FrameStrand.imp {s t : State} {n : Nat} {R S : Strand → Strand → Prop} (hRS : ∀ x y, R x y → S x y)
    (h : s.FrameStrand t n R) : s.FrameStrand t n S := by
  refine ⟨h.1, h.2.imp fun x y hxy => ?_⟩
  split at hxy
  · next hx => exact (if_pos hx).mpr (hRS x y hxy)
  · next hx => exact (if_neg hx).mpr hxy

end Sys2Proof.Machine
end

section
/-! The forms whose only effect is a register, one by one (R150, R165). -/

namespace Sys2Proof.Machine

variable {pops : Bool} {s : State}

/-! ## The operations they are made of -/

namespace View

variable (v : View) (s : State)

theorem registers_raise {code : Nat} {addr : W64} {detail : Nat} : s.RegisterFrame pops v.cur (v.raise s code addr detail) :=
  .modStrand s fun x => .raise x

theorem registers_land {lat : Nat} (h : 0 < lat) {slot : Nat} {a : Act} : s.RegisterFrame pops v.cur (v.land s lat slot a) :=
  .modStrand s fun x => .modCore x fun b => .sched b (Nat.lt_add_of_pos_right h)

theorem registers_lea {d : Reg} {x : W64} : s.RegisterFrame pops v.cur (v.lea s d x) := by
  unfold View.lea
  split
  · exact v.registers_land s Nat.one_pos
  · exact v.registers_raise s

theorem registers_modCl (hp : pops = true) {f : Cluster → Cluster} (hf : ∀ x : Cluster, f x = { x with q := (f x).q, sr := (f x).sr }) :
    s.RegisterFrame pops v.cur (v.modCl s f) :=
  .modStrand s fun x => .modCore x fun a => .modCl hp a hf

theorem registers_pop (hp : pops = true) {as : List VSrc} : s.RegisterFrame pops v.cur (v.modCl s fun c => c.pop as) :=
  v.registers_modCl s hp fun x => by rw [x.pop_frame as]

theorem registers_keepSr (hp : pops = true) {rnd : Nat} : s.RegisterFrame pops v.cur (v.keepSr s rnd) :=
  v.registers_modCl s hp fun _ => rfl

end View

/-- What a syllable answers is framed as such a form's. -/
def OnlyRegisters (pops : Bool) (s : State) (o : Host.Outcome State Fault Refusal) : Prop :=
  ∀ v t, s.view = some v → o = .next t → s.RegisterFrame pops v.cur t

namespace OnlyRegisters

theorem withView {f : View → State} (hf : ∀ v : View, s.RegisterFrame pops v.cur (f v)) : OnlyRegisters pops s (withView s f) := by
  intro v t hv ht
  obtain ⟨w, hw, rfl⟩ := withView_next ht
  obtain rfl := Option.some.inj (hv.symm.trans hw)
  exact hf v

theorem onS {h : SHead} {f : View → State} (hf : ∀ v : View, s.RegisterFrame pops v.cur (f v)) : OnlyRegisters pops s (onS h s f) := by
  refine withView fun v => ?_
  split
  · exact hf v
  · exact .refl s

theorem onV {lvl : Nat} {as : List VSrc} {f : View → State → State} (hf : ∀ (v : View) (t : State), t.RegisterFrame true v.cur (f v t)) :
    OnlyRegisters true s (onV lvl as s f) := by
  refine withView fun v => ?_
  split_ifs
  · exact v.registers_raise s
  · exact v.registers_raise s
  · exact (v.registers_pop s rfl).trans (hf v _)

end OnlyRegisters

/-! ## Scalar forms (R151 to R160) -/

theorem onlyRegisters_mfs {h : SHead} {r : Reg} {code : BitVec 10} : OnlyRegisters false s (execMfs h r code s) := by
  refine .onS fun v => ?_
  split
  · exact v.registers_land s Nat.one_pos
  · exact v.registers_land s Nat.one_pos

theorem exec_scalarForm {i : Instr} (s : State) (hi : isScalarForm i = true) : OnlyRegisters false s (exec i s) := by
  cases i <;> unfold exec
  case add | sub | and | or | xor | andn | shl | shr | sar | rotl | mul | mulhI | mulhN | divI | divN | modI | modN | minI | minN | maxI |
      maxN | clz | popc | bfx | bfi | mov | addl | subl | andl | orl | xorl | andnl | shll | shrl | sarl | rotll | mull | minlI | minlN |
      maxlI | maxlN | movl | pcount | cmpEq | cmpNe | cmpLtI | cmpGeI | cmpLtN | cmpGeN | cmplEq | cmplNe | cmplLtI | cmplGeI | cmplLtN |
      cmplGeN | pand | por | pxor | pnot | pfirst | pany | pall | mts =>
    exact .onS fun v => v.registers_land s (Nat.succ_pos _)
  case sel => exact .withView fun v => v.registers_land s Nat.one_pos
  case lea | leal => exact .onS fun v => v.registers_lea s
  case mfs => exact onlyRegisters_mfs
  all_goals exact nomatch hi

/-! ## V forms (R167 to R184) -/

theorem onlyRegisters_vcvtt {h : Head} {d : VDst} {a : VSrc} : OnlyRegisters true s (execVcvtt h d a s) := by
  refine .withView fun v => ?_
  dsimp only
  split_ifs
  · exact v.registers_raise s
  · exact v.registers_raise s
  · exact v.registers_raise s
  · exact ((v.registers_pop s rfl).trans (v.registers_keepSr _ rfl)).trans (v.registers_land _ (Nat.succ_pos _))

theorem onlyRegisters_teval {h : Head} {d : VDst} {a : VSrc} {k : BitVec 2} : OnlyRegisters true s (execTeval h d a k s) := by
  refine .withView fun v => ?_
  split_ifs
  · exact v.registers_raise s
  · exact v.registers_raise s
  · exact v.registers_raise s
  · exact (v.registers_pop s rfl).trans (v.registers_land _ (Nat.succ_pos _))

theorem exec_vectorForm {i : Instr} (s : State) (hi : isVectorForm i = true) : OnlyRegisters true s (exec i s) := by
  cases i <;> unfold exec
  case vadd | vsub | vmul | vmulhI | vmulhN | vminI | vminN | vmaxI | vmaxN | vand | vor | vxor | vshl | vshr | vsar | vaddsI | vaddsN |
      vsubsI | vsubsN | vabs | vfadd | vfsub | vfmul | vfma | vfmin | vfmax | vfabs | vfneg | vmov | vsel | vdot4 | vscaleb | vunpk |
      vrsum | vrmax | vrmin | vscan | vshuf | vrot | vrotZf | vbcast | vrand =>
    exact .onV fun v t => v.registers_land t (Nat.succ_pos _)
  case vsort | vcmpEq | vcmpNe | vcmpLtI | vcmpGeI | vcmpLtN | vcmpGeN | vfcmpEq | vfcmpLt | vfcmpLe | vfcmpUn =>
    exact .onV fun v t => (v.registers_land t (Nat.succ_pos _)).trans (v.registers_land _ (Nat.succ_pos _))
  case vcvt | vpack => exact .onV fun v t => (v.registers_keepSr t rfl).trans (v.registers_land _ (Nat.succ_pos _))
  case vcvtt => exact onlyRegisters_vcvtt
  case teval => exact onlyRegisters_teval
  all_goals exact nomatch hi

/-- Settles O34: every such form is made of operations that each keep the frame, and the frame is kept from one to the next. -/
theorem registerFormsOnlyLand : Obligations.RegisterFormsOnlyLand := by
  intro i s t v hv ht raises
  refine ⟨fun hi => ?_, fun hi => ?_⟩
  · exact (exec_scalarForm s hi v t hv ht).imp fun _ _ h => h.imp fun _ _ h => h.onlyLands
  · exact (exec_vectorForm s hi v t hv ht).imp fun _ _ h => h.imp fun _ _ h => ⟨⟨h.rest, h.agenda⟩, h.cluster⟩

end Sys2Proof.Machine
end

section
/-! V syllables at their issue: their words, and their lanes from a function of the sources' lanes (R80, R165, R166). -/

namespace Sys2Proof.Machine

/-! ## Opcodes of V syllables (R80) -/

/-- A V syllable's word has kind 1 and its opcode. -/
theorem Opcodes.consV {i : Instr} {op x : Nat} {h : Head} {lits : List W32} {l : List (Instr × Nat)} (he : encode i = encK 1 op h x :: lits)
    (hx : x < 2 ^ 17) (hl : Opcodes 1 l) (hop : op < 128 := by decide) : Opcodes 1 ((i, op) :: l) := by
  obtain ⟨hkind, hcode, -, -⟩ := encK_fields h (by decide : 1 < 4) hop hx
  refine List.forall_mem_cons.2 ⟨?_, hl⟩
  rw [he]
  exact ⟨hkind, hcode⟩

/-- A field of a word as a bit vector. -/
theorem fld_extract32 (w : W32) (lo n : Nat) : fld w.toNat lo n = (w.extractLsb' lo n).toNat := by
  rw [BitVec.extractLsb'_toNat, Nat.shiftRight_eq_div_pow, fld]

/-- The two operand bits below the sources' codes. -/
theorem extractLsb'_encK_low {kind op x : Nat} (h : Head) (hkind : kind < 4) (hop : op < 128) (hx : x < 2 ^ 17) :
    ((encK kind op h x).extractLsb' 0 2).toNat = x % 4 := by
  obtain ⟨-, -, -, hlow⟩ := encK_fields h hkind hop hx
  rw [← fld_extract32, fld_low hlow]

/-! ## Lanes (R103, R165) -/

theorem bitAt_active (v : View) (h : Head) {j : Nat} (hj : j < 64) : bitAt (v.active h) j = (bitAt (v.cl.rp h.g.toNat) j != h.neg) := by
  unfold View.active bitAt
  cases h.neg with
  | false => simp
  | true => simp [hj]

theorem lane_splat (w : W32) {j : Nat} (hj : j < 64) : lane (splat w) j = w := by simp [lane, splat, hj]

theorem lane_map1 (f : W32 → W32) (a : Lanes) {j : Nat} (hj : j < 64) : lane (map1 f a) j = f (lane a j) := lane_mk _ hj

section
variable {s : State} {v : View} {h : Head} {d : VDst} {a b : VSrc} {i : Instr} {lvl lat : Nat} {g : Nat → W32} (hv : s.view = some v)
include hv

/-- A function of two sources, lane by lane. -/
theorem landsLanes_map2 {f : W32 → W32 → W32} (hr : v.readable [a, b]) (ha : v.affords lvl)
    (hi : exec i s = onV lvl [a, b] s fun v s => v.landV s lat h d (map2 f (v.src a) (v.src b)))
    (hf : ∀ j, f (lane (v.src a) j) (lane (v.src b) j) = g j) : LandsLanes s v [a, b] lat h d i g :=
  lands_onV (fun v => map2 f (v.src a) (v.src b)) hv hr ha hi fun j hj => (lane_map2 f _ _ hj).trans (hf j)

/-- A function of one source, lane by lane. -/
theorem landsLanes_map1 {f : W32 → W32} (hr : v.readable [a]) (ha : v.affords lvl)
    (hi : exec i s = onV lvl [a] s fun v s => v.landV s lat h d (map1 f (v.src a)))
    (hf : ∀ j, f (lane (v.src a) j) = g j) : LandsLanes s v [a] lat h d i g :=
  lands_onV (fun v => map1 f (v.src a)) hv hr ha hi fun j hj => (lane_map1 f _ hj).trans (hf j)
end

end Sys2Proof.Machine
end

section
/-! Integer lanes: extremes, saturation, high halves (R118, R125, R167). -/

namespace Sys2Proof.Machine

/-! ## Saturation (R125) -/

theorem clamp32_signed (n : Int) : clamp32 true n = BitVec.ofInt 32 (max (-2 ^ 31) (min (2 ^ 31 - 1) n)) := rfl

theorem clamp32_unsigned (n : Int) : clamp32 false n = BitVec.ofInt 32 (max 0 (min (2 ^ 32 - 1) n)) := rfl

theorem abs32_eq (x : W32) : abs32 x = BitVec.ofInt 32 (max (-2 ^ 31) (min (2 ^ 31 - 1) |x.toInt|)) := by
  rw [abs32, clamp32_signed, Int.abs_eq_natAbs]

/-! ## High halves of products (R167) -/

theorem mulhI32_eq (x y : W32) : mulhI32 x y = ((x.signExtend 64 * y.signExtend 64) >>> 32).truncate 32 := by
  have hproduct : x.signExtend 64 * y.signExtend 64 = BitVec.ofInt 64 (x.toInt * y.toInt) := by
    rw [BitVec.ofInt_mul]
    rfl
  apply BitVec.eq_of_toNat_eq
  rw [hproduct, mulhI32, BitVec.toNat_setWidth, BitVec.toNat_ushiftRight, BitVec.toNat_ofInt, BitVec.toNat_ofInt,
    Nat.shiftRight_eq_div_pow]
  push_cast
  omega

theorem mulhN32_eq (x y : W32) : mulhN32 x y = ((x.zeroExtend 64 * y.zeroExtend 64) >>> 32).truncate 32 := by
  have hproduct : (x.zeroExtend 64 * y.zeroExtend 64).toNat = x.toNat * y.toNat := by
    rw [BitVec.toNat_mul, BitVec.toNat_setWidth_of_le (by decide), BitVec.toNat_setWidth_of_le (by decide)]
    exact Nat.mod_eq_of_lt ((Nat.mul_lt_mul'' x.isLt y.isLt).trans_eq (by decide))
  apply BitVec.eq_of_toNat_eq
  rw [mulhN32, BitVec.toNat_setWidth, BitVec.toNat_ushiftRight, hproduct, Nat.shiftRight_eq_div_pow, BitVec.toNat_ofNat]

/-! ## Extremes (R167, R179) -/

theorem minTy_signed (x y : W32) : minTy 0 x y = if y.toInt < x.toInt then y else x :=
  show (if y.slt x then y else x) = _ from if_congr BitVec.slt_iff_toInt_lt rfl rfl

theorem minTy_unsigned (x y : W32) : minTy 1 x y = if y.toNat < x.toNat then y else x :=
  show (if y.ult x then y else x) = _ from if_congr BitVec.ult_iff_toNat_lt rfl rfl

theorem maxTy_signed (x y : W32) : maxTy 0 x y = if x.toInt < y.toInt then y else x :=
  show (if x.slt y then y else x) = _ from if_congr BitVec.slt_iff_toInt_lt rfl rfl

theorem maxTy_unsigned (x y : W32) : maxTy 1 x y = if x.toNat < y.toNat then y else x :=
  show (if x.ult y then y else x) = _ from if_congr BitVec.ult_iff_toNat_lt rfl rfl

/-- Settles O5: each form lands its function of the sources' lanes, and the functions are what R167 says. -/
theorem vectorIntegerForms : Obligations.VectorIntegerForms := by
  constructor
  · intro s v h d a b hv hr A B k R satI satN
    have ha := affords_zero v
    exact ⟨landsLanes_map2 hv hr ha rfl fun _ => rfl, landsLanes_map2 hv hr ha rfl fun _ => rfl,
      landsLanes_map2 hv hr ha rfl fun _ => rfl, landsLanes_map2 hv hr ha rfl fun _ => mulhI32_eq _ _,
      landsLanes_map2 hv hr ha rfl fun _ => mulhN32_eq _ _, landsLanes_map2 hv hr ha rfl fun _ => minTy_signed _ _,
      landsLanes_map2 hv hr ha rfl fun _ => minTy_unsigned _ _, landsLanes_map2 hv hr ha rfl fun _ => maxTy_signed _ _,
      landsLanes_map2 hv hr ha rfl fun _ => maxTy_unsigned _ _, landsLanes_map2 hv hr ha rfl fun _ => rfl,
      landsLanes_map2 hv hr ha rfl fun _ => rfl, landsLanes_map2 hv hr ha rfl fun _ => rfl,
      landsLanes_map2 hv hr ha rfl fun _ => rfl, landsLanes_map2 hv hr ha rfl fun _ => rfl,
      landsLanes_map2 hv hr ha rfl fun _ => rfl, landsLanes_map2 hv hr ha rfl fun _ => clamp32_signed _,
      landsLanes_map2 hv hr ha rfl fun _ => clamp32_unsigned _, landsLanes_map2 hv hr ha rfl fun _ => clamp32_signed _,
      landsLanes_map2 hv hr ha rfl fun _ => clamp32_unsigned _,
      fun hr => landsLanes_map1 hv hr ha rfl fun _ => abs32_eq _⟩
  · intro h d a b
    iterate 19 refine .consV rfl (opsDAB_lt d.bv a.bv b.bv) ?_
    exact .consV rfl (opsDA_lt d.bv a.bv) .nil

end Sys2Proof.Machine
end

section
/-! FP32 words: their values by fields, NaNs, zeros and their order (R116, R168, R170). -/

namespace Sys2Proof.Machine

/-! ## Fields of an FP32 word (R115) -/

/-- An FP32 word as its sign, exponent and fraction. -/
theorem toNat_eq_fields (w : W32) :
    w.toNat = bnat w.msb * 2 ^ 31 + (w.extractLsb' 23 8).toNat * 2 ^ 23 + (w.extractLsb' 0 23).toNat := by
  simp only [BitVec.extractLsb'_toNat, Nat.shiftRight_eq_div_pow, BitVec.msb_eq_decide, bnat, decide_eq_true_eq]
  have hlt := w.isLt
  split <;> omega

theorem toNat_mod_magnitude (w : W32) : w.toNat % 2 ^ 31 = (w.extractLsb' 23 8).toNat * 2 ^ 23 + (w.extractLsb' 0 23).toNat := by
  have hw := toNat_eq_fields w
  have hex := (w.extractLsb' 23 8).isLt
  have hfrac := (w.extractLsb' 0 23).isLt
  omega

theorem fld_sign (w : W32) : (fld w.toNat 31 1 == 1) = w.msb := by
  have hlt := w.isLt
  rw [Bool.eq_iff_iff, beq_iff_eq, BitVec.msb_eq_decide, decide_eq_true_eq, fld]
  omega

theorem exponent_eq_top_iff {w : W32} : w.extractLsb' 23 8 = 255 ↔ (w.extractLsb' 23 8).toNat = 255 := by
  rw [← BitVec.toNat_inj]
  rfl

theorem exponent_eq_zero_iff {w : W32} : w.extractLsb' 23 8 = 0 ↔ (w.extractLsb' 23 8).toNat = 0 := by
  rw [← BitVec.toNat_inj]
  rfl

theorem fraction_eq_zero_iff {w : W32} : w.extractLsb' 0 23 = 0 ↔ (w.extractLsb' 0 23).toNat = 0 := by
  rw [← BitVec.toNat_inj]
  rfl

/-- An FP32 word's value, by its fields. -/
theorem fp32_eq (w : W32) : fp32 w =
    if w.extractLsb' 23 8 = 255 then if w.extractLsb' 0 23 = 0 then .inf w.msb else .nan
    else if w.extractLsb' 23 8 = 0 then .fin w.msb (w.extractLsb' 0 23).toNat (-149)
    else .fin w.msb (2 ^ 23 + (w.extractLsb' 0 23).toNat) ((w.extractLsb' 23 8).toNat - 150) := by
  have hmag := toNat_mod_magnitude w
  have hexlt := (w.extractLsb' 23 8).isLt
  have hfraclt := (w.extractLsb' 0 23).isLt
  simp only [fp32, fpOf, fmtBits, fmtPrec, fmtMinLsb, fmtInf_zero, beq_self_eq_true, if_true, Nat.add_one_sub_one, fld_sign, hmag,
    beq_iff_eq, exponent_eq_top_iff, exponent_eq_zero_iff, fraction_eq_zero_iff]
  generalize (w.extractLsb' 23 8).toNat = ex at *
  generalize (w.extractLsb' 0 23).toNat = frac at *
  have hex : (ex * 2 ^ 23 + frac) / 2 ^ 23 = ex := by omega
  have hfrac : (ex * 2 ^ 23 + frac) % 2 ^ 23 = frac := by omega
  rw [hex, hfrac]
  by_cases htop : ex = 255
  · subst htop
    by_cases hzero : frac = 0
    · subst hzero
      rw [if_neg (by omega), if_pos (by omega), if_pos rfl, if_pos rfl]
    · rw [if_pos (by omega), if_pos rfl, if_neg hzero]
  · rw [if_neg (by omega), if_neg (by omega), if_neg htop]
    by_cases hlow : ex = 0
    · rw [if_pos hlow, if_pos hlow]
    · rw [if_neg hlow, if_neg hlow, Nat.add_comm]
      congr 1
      omega

theorem fp32_of_finite {w : W32} (h : w.extractLsb' 23 8 ≠ 255) : ∃ m e, fp32 w = .fin w.msb m e ∧ m < 2 ^ 24 ∧ -149 ≤ e ∧ e ≤ 104 := by
  have hexlt := (w.extractLsb' 23 8).isLt
  have hfraclt := (w.extractLsb' 0 23).isLt
  rw [fp32_eq, if_neg h]
  rw [Ne, exponent_eq_top_iff] at h
  split
  · exact ⟨_, _, rfl, by omega, by omega, by omega⟩
  next hne =>
    rw [exponent_eq_zero_iff] at hne
    exact ⟨_, _, rfl, by omega, by omega, by omega⟩

/-! ## NaNs and zeros (R116) -/

theorem isNan32_iff {w : W32} : isNan32 w = true ↔ w.extractLsb' 23 8 = 255 ∧ w.extractLsb' 0 23 ≠ 0 := by
  rw [isNan32, fp32_eq]
  split_ifs <;> simp_all [Fp.isNan]

theorem isNan32_eq_false {w : W32} (h : ¬ (w.extractLsb' 23 8 = 255 ∧ w.extractLsb' 0 23 ≠ 0)) : isNan32 w = false :=
  Bool.eq_false_iff.2 (mt isNan32_iff.1 h)

theorem and_magnitude_eq_zero {w : W32} : w &&& 0x7FFFFFFF = 0 ↔ w.toNat % 2 ^ 31 = 0 := by
  rw [← BitVec.toNat_inj, BitVec.toNat_and]
  exact Eq.congr (Nat.and_two_pow_sub_one_eq_mod w.toNat 31) rfl

/-- A zero of either sign. -/
theorem fp32_of_zero {w : W32} (h : w &&& 0x7FFFFFFF = 0) : fp32 w = .fin w.msb 0 (-149) := by
  have hmag := (toNat_mod_magnitude w).symm.trans (and_magnitude_eq_zero.1 h)
  have hex : w.extractLsb' 23 8 = 0 := (exponent_eq_zero_iff).2 (by omega)
  have hfrac : (w.extractLsb' 0 23).toNat = 0 := by omega
  rw [fp32_eq, if_neg (by rw [hex]; decide), if_pos hex, hfrac]

/-! ## Order (R168, R170) -/

theorem msb_iff (w : W32) : w.msb = true ↔ 2 ^ 31 ≤ w.toNat := by rw [BitVec.msb_eq_decide, decide_eq_true_eq]

theorem fpKey_eq (w : W32) : fpKey w = if w.msb then -1 - ((w.toNat : Int) - 2 ^ 31) else (w.toNat : Int) := by
  have hlt := w.isLt
  rw [fpKey]
  split
  next h =>
    rw [BitVec.msb_eq_decide, decide_eq_true_eq] at h
    omega
  next h => rfl

theorem fpKey_inj {a b : W32} (h : fpKey a = fpKey b) : a = b := by
  rw [fpKey_eq, fpKey_eq] at h
  simp only [BitVec.msb_eq_decide, decide_eq_true_eq] at h
  apply BitVec.eq_of_toNat_eq
  have ha := a.isLt
  have hb := b.isLt
  split_ifs at h <;> omega

theorem fpKeyZ_of_zero {w : W32} (h : w.toNat % 2 ^ 31 = 0) : fpKeyZ w = 0 := if_pos (beq_iff_eq.2 h)

theorem fpKeyZ_of_ne_zero {w : W32} (h : w.toNat % 2 ^ 31 ≠ 0) : fpKeyZ w = fpKey w := if_neg (mt beq_iff_eq.1 h)

/-- The key with both zeros at 0, by sign and magnitude. -/
theorem fpKeyZ_cases (w : W32) : w.toNat % 2 ^ 31 = 0 ∧ fpKeyZ w = 0 ∨ 2 ^ 31 < w.toNat ∧ fpKeyZ w = -1 - ((w.toNat : Int) - 2 ^ 31) ∨
    0 < w.toNat ∧ w.toNat < 2 ^ 31 ∧ fpKeyZ w = w.toNat := by
  by_cases hzero : w.toNat % 2 ^ 31 = 0
  · exact .inl ⟨hzero, fpKeyZ_of_zero hzero⟩
  rw [fpKeyZ_of_ne_zero hzero, fpKey_eq]
  by_cases hsign : w.msb = true
  · have := (msb_iff w).1 hsign
    exact .inr (.inl ⟨by omega, if_pos hsign⟩)
  · have := mt (msb_iff w).2 hsign
    exact .inr (.inr ⟨by omega, by omega, if_neg hsign⟩)

theorem fpKeyZ_eq_iff {a b : W32} : fpKeyZ a = fpKeyZ b ↔ a = b ∨ a &&& 0x7FFFFFFF = 0 ∧ b &&& 0x7FFFFFFF = 0 := by
  rw [and_magnitude_eq_zero, and_magnitude_eq_zero, ← BitVec.toNat_inj]
  have ha := a.isLt
  have hb := b.isLt
  rcases fpKeyZ_cases a with h | h | h <;> rcases fpKeyZ_cases b with h' | h' | h' <;> omega

/-- Same signs compare by magnitude; otherwise the negative one is below, or both are zero. -/
theorem decide_fpKeyZ_le {a b : W32} : decide (fpKeyZ a ≤ fpKeyZ b) = if a.msb = b.msb
    then (if a.msb then decide (b.toNat ≤ a.toNat) else decide (a.toNat ≤ b.toNat))
    else a.msb || decide (a &&& 0x7FFFFFFF = 0 ∧ b &&& 0x7FFFFFFF = 0) := by
  have ha := a.isLt
  have hb := b.isLt
  have hka := fpKeyZ_cases a
  have hkb := fpKeyZ_cases b
  split_ifs with hsame hneg <;> rw [Bool.eq_iff_iff, msb_iff, msb_iff] at hsame
  · rw [msb_iff] at hneg
    rw [decide_eq_decide]
    omega
  · rw [msb_iff] at hneg
    rw [decide_eq_decide]
    omega
  · rw [Bool.eq_iff_iff, Bool.or_eq_true, decide_eq_true_eq, decide_eq_true_eq, msb_iff, and_magnitude_eq_zero, and_magnitude_eq_zero]
    omega

/-- The order of keys is kept when the zeros are made equal. -/
theorem fpKeyZ_mono {a b : W32} (h : fpKey a ≤ fpKey b) : fpKeyZ a ≤ fpKeyZ b := by
  have ha := a.isLt
  have hb := b.isLt
  rw [fpKey_eq, fpKey_eq] at h
  simp only [BitVec.msb_eq_decide, decide_eq_true_eq] at h
  rcases fpKeyZ_cases a with h1 | h1 | h1 <;> rcases fpKeyZ_cases b with h2 | h2 | h2 <;> split_ifs at h <;> omega

end Sys2Proof.Machine
end

section
/-! Float lanes: one rounding, extremes and signs (R166, R168). -/

namespace Sys2Proof.Machine

/-! ## Extremes and signs (R168) -/

theorem fabs_eq (w : W32) : fabs w = if w.extractLsb' 23 8 = 255 ∧ w.extractLsb' 0 23 ≠ 0 then 0x7FC00000 else w &&& 0x7FFFFFFF :=
  if_congr isNan32_iff rfl rfl

theorem fneg_eq (w : W32) : fneg w = if w.extractLsb' 23 8 = 255 ∧ w.extractLsb' 0 23 ≠ 0 then 0x7FC00000 else w ^^^ 0x80000000 :=
  if_congr isNan32_iff rfl rfl

theorem fmin_fmax_nan {a b : W32} (h : isNan32 a = true ∨ isNan32 b = true) : fmin a b = 0x7FC00000 ∧ fmax a b = 0x7FC00000 :=
  ⟨if_pos (Bool.or_eq_true_iff.2 h), if_pos (Bool.or_eq_true_iff.2 h)⟩

section
variable {a b : W32} (ha : isNan32 a = false) (hb : isNan32 b = false)
include ha hb

theorem fmin_eq : fmin a b = if fpKey b < fpKey a then b else a := if_neg (by simp [ha, hb])

theorem fmax_eq : fmax a b = if fpKey a < fpKey b then b else a := if_neg (by simp [ha, hb])

theorem fle_eq : fle a b = decide (fpKeyZ a ≤ fpKeyZ b) := by simp [fle, ha, hb]

/-- The two extremes are the two words, the one that is not above first. -/
theorem fmin_fmax_of_not_nan : (fmin a b = a ∧ fmax a b = b ∨ fmin a b = b ∧ fmax a b = a) ∧ fle (fmin a b) (fmax a b) = true := by
  rw [fmin_eq ha hb, fmax_eq ha hb]
  rcases lt_trichotomy (fpKey a) (fpKey b) with h | h | h
  · rw [if_neg h.asymm, if_pos h, fle_eq ha hb]
    exact ⟨.inl ⟨rfl, rfl⟩, decide_eq_true (fpKeyZ_mono h.le)⟩
  · obtain rfl := fpKey_inj h
    rw [if_neg (lt_irrefl _), fle_eq ha ha]
    exact ⟨.inl ⟨rfl, rfl⟩, decide_eq_true le_rfl⟩
  · rw [if_pos h, if_neg h.asymm, fle_eq hb ha]
    exact ⟨.inr ⟨rfl, rfl⟩, decide_eq_true (fpKeyZ_mono h.le)⟩
end

theorem toNat_beq_two (rm : BitVec 2) : (rm == 2) = (rm.toNat == 2) := by
  rw [Bool.eq_iff_iff, beq_iff_eq, beq_iff_eq, ← BitVec.toNat_inj]
  rfl

/-- -0 is below +0 on either side. -/
theorem fmin_zeros : fmin 0x80000000 0 = 0x80000000 ∧ fmin 0 0x80000000 = 0x80000000 := by decide

/-- Settles O6: each form rounds the exact value once, and the extremes and the sign forms act on the words. -/
theorem vectorFloatForms : Obligations.VectorFloatForms := by
  intro s v h d a b rm hv hr ha A B C rnd R nan
  refine ⟨landsLanes_map2 hv hr ha rfl fun _ => ?_, landsLanes_map2 hv hr ha rfl fun _ => ?_, landsLanes_map2 hv hr ha rfl fun _ => rfl,
    lands_onV (fun v => mkLanes fun i => ffma rm.toNat (lane (v.src a) i) (lane (v.src b) i) (lane (v.addend d) i)) hv hr ha rfl
      fun j hj => ?_,
    ⟨fun j => fmin (A j) (B j), fun j => fmax (A j) (B j), landsLanes_map2 hv hr ha rfl fun _ => rfl,
      landsLanes_map2 hv hr ha rfl fun _ => rfl, fun j => ?_⟩,
    fun hr => ⟨landsLanes_map1 hv hr ha rfl fun _ => fabs_eq _, landsLanes_map1 hv hr ha rfl fun _ => fneg_eq _⟩⟩
  · rw [fadd, toNat_beq_two]
  · rw [fsub, toNat_beq_two]
  · have haddend : lane (v.addend d) j = C j := by cases d <;> rfl
    rw [lane_mk _ hj, ffma, haddend, toNat_beq_two]
  · split
    next hnan => exact fmin_fmax_nan (hnan.imp isNan32_iff.2 isNan32_iff.2)
    next hnan =>
      obtain ⟨hA, hB⟩ := not_or.1 hnan
      obtain ⟨hwords, hle⟩ := fmin_fmax_of_not_nan (isNan32_eq_false hA) (isNan32_eq_false hB)
      refine ⟨hwords, hle, fun h1 h2 => ?_, fun h1 h2 => ?_⟩
      · show fmin (A j) (B j) = _
        rw [h1, h2]
        exact fmin_zeros.1
      · show fmin (A j) (B j) = _
        rw [h1, h2]
        exact fmin_zeros.2

end Sys2Proof.Machine
end

section
/-! Vector compares: conditions on words, and the mask they land (R170). -/

namespace Sys2Proof.Machine

/-! ## Masks (R103) -/

theorem natOfBits_eq (f : Nat → Bool) (n : Nat) :
    maskOf.natOfBits f n < 2 ^ n ∧ ∀ i < n, (maskOf.natOfBits f n).testBit i = f i := by
  induction n with
  | zero => exact ⟨Nat.one_pos, fun _ h => absurd h (Nat.not_lt_zero _)⟩
  | succ n ih =>
    obtain ⟨hlt, hbit⟩ := ih
    have hsum : maskOf.natOfBits f (n + 1) = 2 ^ n * bnat (f n) + maskOf.natOfBits f n := by
      rw [maskOf.natOfBits, Nat.mul_comm, Nat.add_comm]
    refine ⟨?_, fun i hi => ?_⟩
    · rw [hsum, Nat.pow_succ]
      have := Nat.mul_le_mul_left (2 ^ n) (bnat_le_one (f n))
      omega
    · rw [hsum, Nat.testBit_two_pow_mul_add _ hlt]
      rcases Nat.lt_succ_iff_lt_or_eq.1 hi with h | rfl
      · rw [if_pos h, hbit i h]
      · rw [if_neg (lt_irrefl _), Nat.sub_self]
        cases f i <;> rfl

theorem bitAt_maskOf (f : Nat → Bool) {j : Nat} (hj : j < 64) : bitAt (maskOf f) j = f j := by
  rw [bitAt, maskOf, BitVec.getLsbD_ofNat, (natOfBits_eq f 64).2 j hj, decide_eq_true hj, Bool.true_and]

/-! ## Conditions (R170) -/

theorem eq_decide {b : Bool} {p : Prop} [Decidable p] (h : b = true ↔ p) : b = decide p := by rw [Bool.eq_iff_iff, h, decide_eq_true_eq]

theorem bitVec_not_slt_iff {n : Nat} {x y : BitVec n} : (!x.slt y) = true ↔ x.toInt ≥ y.toInt := by
  rw [Bool.not_eq_true', ← Bool.not_eq_true, BitVec.slt_iff_toInt_lt, not_lt]

theorem bitVec_not_ult_iff {n : Nat} {x y : BitVec n} : (!x.ult y) = true ↔ x.toNat ≥ y.toNat := by
  rw [Bool.not_eq_true', ← Bool.not_eq_true, BitVec.ult_iff_toNat_lt, not_lt]

theorem funord_iff {a b : W32} : funord a b = true ↔
    a.extractLsb' 23 8 = 255 ∧ a.extractLsb' 0 23 ≠ 0 ∨ b.extractLsb' 23 8 = 255 ∧ b.extractLsb' 0 23 ≠ 0 := by
  rw [funord, Bool.or_eq_true_iff, isNan32_iff, isNan32_iff]

theorem feq_iff {a b : W32} : feq a b = true ↔ ¬ (a.extractLsb' 23 8 = 255 ∧ a.extractLsb' 0 23 ≠ 0) ∧
    ¬ (b.extractLsb' 23 8 = 255 ∧ b.extractLsb' 0 23 ≠ 0) ∧ (a = b ∨ a &&& 0x7FFFFFFF = 0 ∧ b &&& 0x7FFFFFFF = 0) := by
  rw [feq, Bool.and_eq_true, Bool.and_eq_true, Bool.not_eq_true', Bool.not_eq_true', ← Bool.not_eq_true, ← Bool.not_eq_true, isNan32_iff,
    isNan32_iff, beq_iff_eq, fpKeyZ_eq_iff, and_assoc]

theorem fle_of_nan {a b : W32} (h : a.extractLsb' 23 8 = 255 ∧ a.extractLsb' 0 23 ≠ 0 ∨ b.extractLsb' 23 8 = 255 ∧ b.extractLsb' 0 23 ≠ 0) :
    fle a b = false := by
  rcases h.imp isNan32_iff.2 isNan32_iff.2 with h | h <;> simp [fle, h]

theorem flt_eq (a b : W32) : flt a b = (fle a b && !(decide (a = b ∨ a &&& 0x7FFFFFFF = 0 ∧ b &&& 0x7FFFFFFF = 0))) := by
  rw [flt, fle, Bool.and_assoc _ (decide _), ← decide_eq_decide.2 fpKeyZ_eq_iff]
  congr 1
  rw [← decide_not, ← Bool.decide_and, decide_eq_decide, lt_iff_le_and_ne]

section
variable {s : State} {v : View} {h : Head} {d : PReg} {a b : VSrc} {i : Instr} {lvl lat : Nat} {g : Nat → Bool} (hv : s.view = some v)
include hv

/-- A compare of two sources, lane by lane. -/
theorem landsCompare {f : W32 → W32 → Bool} (hr : v.readable [a, b]) (ha : v.affords lvl)
    (hi : exec i s = onV lvl [a, b] s fun v s => v.landCmp s lat h d f (v.src a) (v.src b))
    (hf : ∀ j, f (lane (v.src a) j) (lane (v.src b) j) = g j) : LandsCompare s v [a, b] lat h d i g := by
  have hmask : ∀ j < 64, bitAt (maskOf fun j => f (lane (v.src a) j) (lane (v.src b) j)) j = g j :=
    fun j hj => (bitAt_maskOf _ hj).trans (hf j)
  refine ⟨_, _, hi.trans (onV_ok hv hr ha), hmask, fun j hj => ?_⟩
  rw [lanesOfMask, lane_mk _ hj, hmask j hj]
end

/-- Settles O8: each compare lands its condition's mask, the conditions are R170's, and p0 keeps what it holds. -/
theorem vectorCompares : Obligations.VectorCompares := by
  refine ⟨fun s v h d a b hv hr => ?_, fun h d a b => ?_⟩
  · intro A B nan zero R F
    have hz := affords_zero v
    refine ⟨landsCompare hv hr hz rfl fun _ => eq_decide beq_iff_eq, landsCompare hv hr hz rfl fun _ => eq_decide bne_iff_ne,
      landsCompare hv hr hz rfl fun _ => eq_decide BitVec.slt_iff_toInt_lt, landsCompare hv hr hz rfl fun _ => eq_decide bitVec_not_slt_iff,
      landsCompare hv hr hz rfl fun _ => eq_decide BitVec.ult_iff_toNat_lt, landsCompare hv hr hz rfl fun _ => eq_decide bitVec_not_ult_iff,
      fun ha => ⟨landsCompare hv hr ha rfl fun _ => eq_decide feq_iff, landsCompare hv hr ha rfl fun _ => eq_decide funord_iff,
        fun j => flt (A j) (B j), fun j => fle (A j) (B j), landsCompare hv hr ha rfl fun _ => rfl,
        landsCompare hv hr ha rfl fun _ => rfl, fun j => ⟨fun hn => ?_, fun _ _ => flt_eq _ _, fun hA hB => ?_⟩⟩,
      fun c x k z m hk p _ => congrArg (·.rp p) (Core.cluster_apply_pred_zero c x z m hk)⟩
    · have hle := fle_of_nan hn
      exact ⟨(flt_eq _ _).trans (by rw [hle, Bool.false_and]), hle⟩
    · exact (fle_eq (isNan32_eq_false hA) (isNan32_eq_false hB)).trans decide_fpKeyZ_le
  · iterate 10 refine .consV rfl (opsDAB_lt (d.setWidth 5) a.bv b.bv) ?_
    exact .nil

end Sys2Proof.Machine
end

section
/-! VMOV, VSEL and VDOT4 (R78, R166, R169, R171). -/

namespace Sys2Proof.Machine

/-! ## Byte products (R118, R171) -/

/-- A byte of a lane, signed or not. -/
theorem byteOf_eq (sg : Bool) (w : W32) (k : Nat) :
    byteOf sg w k = if sg then (w.extractLsb' (8 * k) 8).toInt else ((w.extractLsb' (8 * k) 8).toNat : Int) := by
  have hbyte : (w.extractLsb' (8 * k) 8).toNat = w.toNat / 2 ^ (8 * k) % 2 ^ 8 := by
    rw [BitVec.extractLsb'_toNat, Nat.shiftRight_eq_div_pow]
  simp only [byteOf, intOf, intBits, BitVec.toInt_eq_toNat_cond, hbyte]
  cases sg with
  | false => rfl
  | true =>
    have hlt := Nat.mod_lt (w.toNat / 2 ^ (8 * k)) (by decide : 2 ^ 8 > 0)
    simp
    split_ifs <;> omega

theorem exec_vsel {s : State} {v : View} {h : Head} {d : VDst} {a b : VSrc} (hv : s.view = some v) (hr : v.readable [a, b]) :
    exec (.vsel h d a b) s = .next (v.land (v.modCl s fun c => c.pop [a, b]) 4 1 (.vec v.cur.cl d (BitVec.allOnes 64)
      (mkLanes fun i => if bitAt (v.active h) i then lane (v.src a) i else lane (v.src b) i))) := by
  show execVsel h d a b s = _
  rw [execVsel, onV_ok hv hr (affords_zero v)]

/-- Settles O7: VMOV lands its source, VSEL the lanes its guard chooses, and VDOT4 its addend plus the exact sum of byte products. -/
theorem vectorMovesSelectsAndDotProducts : Obligations.VectorMovesSelectsAndDotProducts := by
  refine ⟨⟨fun s v h d a b hv => ⟨fun hr => ?_, fun hr => ?_⟩, fun h d a b => ?_⟩, fun s v h d a b sg hv hr => ?_, fun h d a b sg => ⟨?_, ?_⟩⟩
  · exact lands_onV (fun v => v.src a) hv hr (affords_zero v) rfl fun _ _ => rfl
  · refine ⟨_, exec_vsel hv hr, fun j hj => ?_⟩
    rw [lane_mk _ hj, bitAt_active v h hj]
  · exact .consV rfl (opsDA_lt d.bv a.bv) (.consV rfl (opsDAB_lt d.bv a.bv b.bv) .nil)
  · intro byte term C
    refine lands_onV (fun v => mkLanes fun i => lane (v.addend d) i +
      BitVec.ofInt 32 (dot4 (bitAt sg 1) (bitAt sg 0) (lane (v.src a) i) (lane (v.src b) i))) hv hr (affords_zero v) rfl fun j hj => ?_
    have haddend : lane (v.addend d) j = C j := by cases d <;> rfl
    have hdot : dot4 (bitAt sg 1) (bitAt sg 0) (lane (v.src a) j) (lane (v.src b) j) = term j 0 + term j 1 + term j 2 + term j 3 := by
      simp only [dot4, byteOf_eq]
      rfl
    rw [lane_mk _ hj, haddend, hdot]
  · exact .consV rfl (opsDABM_lt d.bv a.bv b.bv sg) .nil
  · apply BitVec.eq_of_toNat_eq
    have hlow := extractLsb'_encK_low (kind := 1) (op := 0x38) h (by decide) (by decide) (opsDABM_lt d.bv a.bv b.bv sg)
    refine hlow.trans ?_
    have hsg := sg.isLt
    unfold opsDABM
    omega

end Sys2Proof.Machine
end

section
/-! VSCALEB: one rounding, and scales beyond 1,000 either way (R172; log 62). -/

namespace Sys2Proof.Machine

/-! ## Special values -/

theorem round32_nan (rm : Nat) : round32 rm .nan = 0x7FC00000 := rfl

/-- A word is its sign and its magnitude's code. -/
theorem ofNat_signed (w : W32) (mag : Nat) (h : w.toNat % 2 ^ 31 = mag) : BitVec.ofNat 32 (signed 0 w.msb mag) = w := by
  have hsign := msb_iff w
  have hlt := w.isLt
  apply BitVec.eq_of_toNat_eq
  rw [BitVec.toNat_ofNat, signed]
  cases hs : w.msb
  · simp only [hs, bnat, fmtBits, beq_self_eq_true, if_true, Bool.false_eq_true, if_false, false_iff] at hsign ⊢
    omega
  · simp only [hs, bnat, fmtBits, beq_self_eq_true, if_true, true_iff] at hsign ⊢
    omega

theorem round32_inf {w : W32} {rm : Nat} (hex : w.extractLsb' 23 8 = 255) (hfrac : w.extractLsb' 0 23 = 0) :
    fp32 w = .inf w.msb ∧ round32 rm (.inf w.msb) = w := by
  refine ⟨by rw [fp32_eq, if_pos hex, if_pos hfrac], ofNat_signed w _ ?_⟩
  rw [toNat_mod_magnitude, hex, hfrac]
  rfl

theorem roundFp_zero {f rm bits : Nat} {neg : Bool} {e : Int} : roundFp f rm bits (.fin neg 0 e) = signed f neg 0 := by
  rw [roundFp, if_pos (beq_self_eq_true 0)]

theorem round32_zero {w : W32} {rm : Nat} {e : Int} (h : w &&& 0x7FFFFFFF = 0) : round32 rm (.fin w.msb 0 e) = w :=
  (congrArg (BitVec.ofNat 32) roundFp_zero).trans (ofNat_signed w 0 (and_magnitude_eq_zero.1 h))

/-! ## Scales that only overflow, or fall below every subnormal -/

/-- From 2^129 on a value takes its overflow code. -/
theorem roundFp_overflow {rm bits : Nat} {neg : Bool} {m : Nat} {e : Int} (hm : m ≠ 0) (he : 129 ≤ e) :
    roundFp 0 rm bits (.fin neg m e) = signed 0 neg (overflowCode 0 rm neg) := by
  rw [roundFp, if_neg (by simpa using hm)]
  simp only [fmtPrec, fmtMinLsb, beq_self_eq_true, if_true, Nat.add_one_sub_one, Nat.cast_ofNat, fmtInf_zero]
  rw [max_eq_left (by omega), if_neg (by omega)]

/-- Less than a quarter of a unit is rounded up by its sign and mode alone. -/
theorem roundsUp_small {rm bits : Nat} {neg : Bool} {r d : Nat} (hrm : rm < 4) (hr : r ≠ 0) (hd : 2 * r < 2 ^ d) :
    roundsUp rm bits neg 0 r d = (rm == 2 && neg || rm == 3 && !neg) := by
  have hlt : decide (2 ^ d < 2 * r) = false := decide_eq_false hd.asymm
  have hne : (2 ^ d == 2 * r) = false := beq_eq_false_iff_ne.2 hd.ne'
  have hr : (r == 0) = false := beq_eq_false_iff_ne.2 hr
  unfold roundsUp
  interval_cases rm <;> simp [hlt, hne, hr]

/-- A value below half the least subnormal is rounded by its sign and mode alone. -/
theorem roundFp_underflow {rm bits : Nat} {neg : Bool} {m : Nat} {e : Int} (hrm : rm < 4) (hm : m ≠ 0) (hlt : m < 2 ^ 24) (he : e < -174) :
    roundFp 0 rm bits (.fin neg m e) = signed 0 neg (bnat (rm == 2 && neg || rm == 3 && !neg)) := by
  have hlog := log2_le_of_lt_two_pow_24 hlt
  have hmag : roundMag rm bits neg m e (-149) = bnat (rm == 2 && neg || rm == 3 && !neg) := by
    have hpow : 2 ^ 25 ≤ 2 ^ (-149 - e).toNat := Nat.pow_le_pow_right Nat.two_pos (by omega)
    rw [roundMag, if_neg (by omega)]
    simp only [Nat.div_eq_of_lt (by omega : m < 2 ^ (-149 - e).toNat), Nat.mod_eq_of_lt (by omega : m < 2 ^ (-149 - e).toNat),
      roundsUp_small hrm hm (by omega : 2 * m < 2 ^ (-149 - e).toNat)]
    rfl
  have hbit := bnat_le_one (rm == 2 && neg || rm == 3 && !neg)
  rw [roundFp, if_neg (by simpa using hm)]
  simp only [fmtPrec, fmtMinLsb, beq_self_eq_true, if_true, Nat.add_one_sub_one, Nat.cast_ofNat, fmtInf_zero]
  rw [max_eq_right (by omega), hmag, if_pos (by omega), sub_self, Int.toNat_zero, Nat.zero_mul, Nat.zero_add]

/-- R172; log 62: a scale beyond 1,000 either way rounds as one of 1,000. -/
theorem round32_scale_clamped (w : W32) (rm : BitVec 2) (n : Int) :
    (1000 ≤ n → round32 rm.toNat ((fp32 w).scale n) = round32 rm.toNat ((fp32 w).scale 1000)) ∧
    (n ≤ -1000 → round32 rm.toNat ((fp32 w).scale n) = round32 rm.toNat ((fp32 w).scale (-1000))) := by
  by_cases hfin : w.extractLsb' 23 8 = 255
  · rw [fp32_eq, if_pos hfin]
    split_ifs <;> exact ⟨fun _ => rfl, fun _ => rfl⟩
  obtain ⟨m, e, hw, hm, hlo, hhi⟩ := fp32_of_finite hfin
  rw [hw]
  refine ⟨fun hn => congrArg (BitVec.ofNat 32) ?_, fun hn => congrArg (BitVec.ofNat 32) ?_⟩ <;> rcases eq_or_ne m 0 with rfl | hm0
  · exact roundFp_zero.trans roundFp_zero.symm
  · exact (roundFp_overflow hm0 (by omega)).trans (roundFp_overflow hm0 (by omega)).symm
  · exact roundFp_zero.trans roundFp_zero.symm
  · exact (roundFp_underflow rm.isLt hm0 hm (by omega)).trans (roundFp_underflow rm.isLt hm0 hm (by omega)).symm

/-- Settles O9: the lane is rounded once from its scaled value, and the limit of the scale changes no result. -/
theorem scaleByPowerOfTwo : Obligations.ScaleByPowerOfTwo := by
  refine ⟨fun s v h d a b rm hv hr ha => ?_, fun w rm n => round32_scale_clamped w rm n⟩
  intro A B n
  refine ⟨fun j => fscaleb rm.toNat (A j) (B j), landsLanes_map2 hv hr ha rfl fun _ => rfl, fun j => ⟨fun hex hfrac => ?_, fun hex hfrac => ?_,
    fun hzero => ?_, fun _ => rfl⟩⟩
  · show round32 _ _ = _
    rw [fp32_eq, if_pos hex, if_neg hfrac]
    exact round32_nan _
  · obtain ⟨hinf, hround⟩ := round32_inf (rm := rm.toNat) hex hfrac
    show round32 _ _ = _
    rw [hinf]
    exact hround
  · show round32 _ _ = _
    rw [fp32_of_zero hzero]
    exact round32_zero hzero

end Sys2Proof.Machine
end

section
/-! Reductions and scans: what the pairwise tree and the running sum keep (R128, R129, R178 to R180). -/

namespace Sys2Proof.Machine

/-! ## The pairwise tree (R128) -/

theorem length_pairUp (op : W32 → W32 → W32) (xs : List W32) : (pairUp op xs).length = (xs.length + 1) / 2 := by
  induction xs using pairUp.induct with
  | case1 a b rest ih =>
    rw [pairUp, List.length_cons, ih]
    simp only [List.length_cons]
    omega
  | case2 xs h =>
    rw [pairUp.eq_2 _ _ h]
    match xs, h with
    | [], _ => rfl
    | [a], _ => simp
    | a :: b :: rest, h => exact absurd rfl (h a b rest)

/-- What one level of the tree keeps of a list, all levels keep. -/
theorem treeLevels_keeps {op : W32 → W32 → W32} {P : List W32 → Prop} (hP : ∀ xs, P xs → P (pairUp op xs)) (n : Nat) {xs : List W32}
    (h : P xs) : P (treeLevels op n xs) := by
  induction n generalizing xs with
  | zero => exact h
  | succ n ih => exact ih (hP xs h)

/-- Six levels bring 64 values to one. -/
theorem treeLevels_of_length {op : W32 → W32 → W32} {xs : List W32} (h : xs.length = 64) : treeLevels op 6 xs = [treeSum op xs] := by
  have hlen : (treeLevels op 6 xs).length = 1 := by simp only [treeLevels, length_pairUp, h]
  obtain ⟨y, hy⟩ := List.length_eq_one_iff.1 hlen
  rw [treeSum, hy]
  rfl

theorem sum_pairUp (xs : List W32) : (pairUp (· + ·) xs).sum = xs.sum := by
  induction xs using pairUp.induct with
  | case1 a b rest ih => rw [pairUp, List.sum_cons, ih, List.sum_cons, List.sum_cons, BitVec.add_assoc]
  | case2 xs h => rw [pairUp.eq_2 _ _ h]

/-- Integer addition is associative, so the tree's order does not matter. -/
theorem treeSum_add {xs : List W32} (h : xs.length = 64) : treeSum (· + ·) xs = xs.sum := by
  have hsum := treeLevels_keeps (P := fun ys => ys.sum = xs.sum) (fun ys hy => (sum_pairUp ys).trans hy) 6 rfl
  rw [treeLevels_of_length h] at hsum
  simpa using hsum

/-- An operation that selects one of its operands, and answers what is related to both. -/
structure Selects (op : W32 → W32 → W32) (R : W32 → W32 → Prop) : Prop where
  one : ∀ a b, op a b = a ∨ op a b = b
  left : ∀ a b, R (op a b) a
  right : ∀ a b, R (op a b) b
  refl : ∀ a, R a a
  trans : ∀ a b c, R a b → R b c → R a c

theorem Selects.pairUp {op : W32 → W32 → W32} {R : W32 → W32 → Prop} (h : Selects op R) (xs : List W32) :
    (∀ y ∈ pairUp op xs, y ∈ xs) ∧ ∀ x ∈ xs, ∃ y ∈ pairUp op xs, R y x := by
  induction xs using pairUp.induct with
  | case1 a b rest ih =>
    obtain ⟨hmem, hrel⟩ := ih
    simp only [Machine.pairUp, List.forall_mem_cons, List.exists_mem_cons_iff]
    refine ⟨⟨?_, fun y hy => ?_⟩, .inl (h.left a b), .inl (h.right a b), fun x hx => .inr (hrel x hx)⟩
    · rcases h.one a b with h | h <;> simp [h]
    · simp [hmem y hy]
  | case2 xs hx =>
    rw [pairUp.eq_2 _ _ hx]
    exact ⟨fun _ hy => hy, fun x hx => ⟨x, hx, h.refl x⟩⟩

/-- The tree of such an operation answers one of the values, related to all of them. -/
theorem Selects.treeSum_spec {op : W32 → W32 → W32} {R : W32 → W32 → Prop} (h : Selects op R) {xs : List W32} (hlen : xs.length = 64) :
    treeSum op xs ∈ xs ∧ ∀ x ∈ xs, R (treeSum op xs) x := by
  have hkeeps := treeLevels_keeps (op := op) (P := fun ys => (∀ y ∈ ys, y ∈ xs) ∧ ∀ x ∈ xs, ∃ y ∈ ys, R y x) (fun ys hys => ?_) 6
    ⟨fun _ hy => hy, fun x hx => ⟨x, hx, h.refl x⟩⟩
  · rw [treeLevels_of_length hlen] at hkeeps
    simpa using hkeeps
  · obtain ⟨hmem, hrel⟩ := h.pairUp ys
    refine ⟨fun y hy => hys.1 y (hmem y hy), fun x hx => ?_⟩
    obtain ⟨y, hy, hyx⟩ := hys.2 x hx
    obtain ⟨z, hz, hzy⟩ := hrel y hy
    exact ⟨z, hz, h.trans z y x hzy hyx⟩

theorem selects_minTy_signed : Selects (minTy 0) fun m x => m.toInt ≤ x.toInt where
  one a b := by rw [minTy_signed]; split <;> simp
  left a b := by rw [minTy_signed]; split <;> omega
  right a b := by rw [minTy_signed]; split <;> omega
  refl _ := le_rfl
  trans _ _ _ := le_trans

theorem selects_minTy_unsigned : Selects (minTy 1) fun m x => m.toNat ≤ x.toNat where
  one a b := by rw [minTy_unsigned]; split <;> simp
  left a b := by rw [minTy_unsigned]; split <;> omega
  right a b := by rw [minTy_unsigned]; split <;> omega
  refl _ := le_rfl
  trans _ _ _ := le_trans

theorem selects_maxTy_signed : Selects (maxTy 0) fun m x => x.toInt ≤ m.toInt where
  one a b := by rw [maxTy_signed]; split <;> simp
  left a b := by rw [maxTy_signed]; split <;> omega
  right a b := by rw [maxTy_signed]; split <;> omega
  refl _ := le_rfl
  trans _ _ _ h h' := le_trans h' h

theorem selects_maxTy_unsigned : Selects (maxTy 1) fun m x => x.toNat ≤ m.toNat where
  one a b := by rw [maxTy_unsigned]; split <;> simp
  left a b := by rw [maxTy_unsigned]; split <;> omega
  right a b := by rw [maxTy_unsigned]; split <;> omega
  refl _ := le_rfl
  trans _ _ _ h h' := le_trans h' h

/-! ## The running sum (R129) -/

theorem getD_serialFrom_add (y : W32) (xs : List W32) {j : Nat} (hj : j < xs.length) :
    (serialFrom (· + ·) y xs).getD j 0 = y + (xs.take (j + 1)).sum := by
  induction xs generalizing y j with
  | nil => exact absurd hj (Nat.not_lt_zero _)
  | cons x xs ih =>
    rw [serialFrom, List.take_succ_cons, List.sum_cons]
    cases j with
    | zero => simp
    | succ j =>
      rw [List.getD_cons_succ, ih _ (Nat.lt_of_succ_lt_succ hj), BitVec.add_assoc]

theorem getD_serialSum_add (xs : List W32) {j : Nat} (hj : j < xs.length) :
    (serialSum (· + ·) xs).getD j 0 = (xs.take (j + 1)).sum := by
  cases xs with
  | nil => exact absurd hj (Nat.not_lt_zero _)
  | cons x xs =>
    rw [serialSum, List.take_succ_cons, List.sum_cons]
    cases j with
    | zero => simp
    | succ j => rw [List.getD_cons_succ, getD_serialFrom_add _ _ (Nat.lt_of_succ_lt_succ hj)]

/-! ## Types of a reduction (R178 to R180) -/

theorem addTy_integer {ty : Nat} (h : ty < 2) : addTy ty = (· + ·) :=
  funext fun _ => funext fun _ => if_neg (mt beq_iff_eq.1 (by omega))

theorem sumIdent_integer {ty : Nat} (h : ty < 2) : sumIdent ty = 0 := if_neg (mt beq_iff_eq.1 (by omega))

theorem canonTy_integer {ty : Nat} (h : ty < 2) (w : W32) : canonTy ty w = w := by
  have hty : (ty == 2) = false := beq_eq_false_iff_ne.2 (by omega)
  rw [canonTy, hty, Bool.false_and, if_neg Bool.false_ne_true]

theorem canonTy_float (w : W32) : canonTy 2 w = if w.extractLsb' 23 8 = 255 ∧ w.extractLsb' 0 23 ≠ 0 then 0x7FC00000 else w :=
  show (if isNan32 w then _ else _) = _ from if_congr isNan32_iff rfl rfl

theorem canonTy_zero (ty : Nat) : canonTy ty 0 = 0 :=
  if_neg (by rw [show isNan32 0 = false from rfl, Bool.and_false]; exact Bool.false_ne_true)

theorem lane_lanesOf (xs : List W32) {j : Nat} (hj : j < 64) : lane (lanesOf xs) j = xs.getD j 0 := lane_mk _ hj

theorem lane_lanesOf_map {α : Type} (f : α → W32) (xs : List α) {d : α} (hd : f d = 0) {j : Nat} (hj : j < 64) :
    lane (lanesOf (xs.map f)) j = f (xs.getD j d) := by
  rw [lane_lanesOf _ hj, ← hd, List.getD_map]

/-- The inputs of a reduction by the guard's lanes (R178). -/
theorem redInputs_active (v : View) (h : Head) (ident : W32) (x : Lanes) : redInputs (v.active h) ident x =
    (List.range 64).map fun j => if bitAt (v.cl.rp h.g.toNat) j != h.neg then lane x j else ident := by
  refine List.map_congr_left fun j hj => ?_
  rw [bitAt_active v h (List.mem_range.1 hj)]

theorem length_redInputs (act : W64) (ident : W32) (x : Lanes) : (redInputs act ident x).length = 64 := by simp [redInputs]

end Sys2Proof.Machine
end

section
/-! VSORT: an insertion sort, stable and descending, as a permutation of the lanes (R181). -/

namespace Sys2Proof.Machine

/-! ## Sorted indices -/

/-- Index `i` stands before `j` in a stable descending order of keys. -/
def Precedes (k : Nat → Int) (i j : Nat) : Prop := k j < k i ∨ k i = k j ∧ i < j

/-- Insert an index after every one whose key is not smaller. -/
def insertIndex (k : Nat → Int) (i : Nat) (l : List Nat) : List Nat := l.orderedInsert (fun i j => k j < k i) i

theorem insertIndex_cons (k : Nat → Int) (i j : Nat) (l : List Nat) :
    insertIndex k i (j :: l) = if k j < k i then i :: j :: l else j :: insertIndex k i l := List.orderedInsert_cons ..

theorem mem_insertIndex {k : Nat → Int} {i j : Nat} {l : List Nat} : j ∈ insertIndex k i l ↔ j = i ∨ j ∈ l := List.mem_orderedInsert ..

/-- The indices below `n`, inserted in order. -/
def sortedIndices (k : Nat → Int) (n : Nat) : List Nat := (List.range n).foldl (fun l i => insertIndex k i l) []

theorem sortedIndices_succ (k : Nat → Int) (n : Nat) : sortedIndices k (n + 1) = insertIndex k n (sortedIndices k n) := by
  rw [sortedIndices, List.range_succ, List.foldl_append]
  rfl

theorem sortedIndices_perm (k : Nat → Int) (n : Nat) : (sortedIndices k n).Perm (List.range n) := by
  induction n with
  | zero => exact .refl _
  | succ n ih =>
    rw [sortedIndices_succ, List.range_succ]
    exact (List.perm_orderedInsert _ _ _).trans ((ih.cons n).trans (List.perm_append_singleton n _).symm)

/-- A greater index put after every key that is not smaller keeps the order. -/
theorem pairwise_insertIndex {k : Nat → Int} {i : Nat} {l : List Nat} (hl : l.Pairwise (Precedes k)) (hi : ∀ j ∈ l, j < i) :
    (insertIndex k i l).Pairwise (Precedes k) := by
  induction l with
  | nil => exact List.pairwise_singleton _ _
  | cons j l ih =>
    obtain ⟨hj, hl'⟩ := List.pairwise_cons.1 hl
    obtain ⟨hji, hli⟩ := List.forall_mem_cons.1 hi
    rw [insertIndex_cons]
    split
    next hlt =>
      refine List.pairwise_cons.2 ⟨List.forall_mem_cons.2 ⟨.inl hlt, fun z hz => .inl ?_⟩, hl⟩
      rcases hj z hz with h | ⟨h, -⟩ <;> omega
    next hlt =>
      refine List.pairwise_cons.2 ⟨fun z hz => ?_, ih hl' hli⟩
      rcases mem_insertIndex.1 hz with rfl | hz
      · unfold Precedes
        omega
      · exact hj z hz

theorem pairwise_sortedIndices (k : Nat → Int) (n : Nat) : (sortedIndices k n).Pairwise (Precedes k) := by
  induction n with
  | zero => exact .nil
  | succ n ih =>
    rw [sortedIndices_succ]
    exact pairwise_insertIndex ih fun j hj => List.mem_range.1 ((sortedIndices_perm k n).mem_iff.1 hj)

theorem length_sortedIndices (k : Nat → Int) (n : Nat) : (sortedIndices k n).length = n :=
  (sortedIndices_perm k n).length_eq.trans List.length_range

/-- The sorted indices as a permutation. -/
theorem exists_sorting_perm (k : Nat → Int) (n : Nat) : ∃ p : Equiv.Perm (Fin n),
    (∀ j : Fin n, (sortedIndices k n)[(j : Nat)]? = some (p j : Nat)) ∧ ∀ i j : Fin n, i < j → Precedes k (p i) (p j) := by
  have hlen := length_sortedIndices k n
  have hlt (j : Fin n) : (sortedIndices k n)[j]'(hlen.symm ▸ j.isLt) < n :=
    List.mem_range.1 ((sortedIndices_perm k n).mem_iff.1 (List.getElem_mem _))
  have hinj : Function.Injective fun j : Fin n => (⟨_, hlt j⟩ : Fin n) := fun i j hij => by
    have hnodup : (sortedIndices k n).Nodup := (sortedIndices_perm k n).nodup_iff.2 List.nodup_range
    exact Fin.ext ((List.Nodup.getElem_inj_iff hnodup).1 (Fin.mk.inj hij))
  refine ⟨Equiv.ofBijective _ (Finite.injective_iff_bijective.1 hinj), fun j => ?_, fun i j hij => ?_⟩
  · exact List.getElem?_eq_getElem (hlen.symm ▸ j.isLt)
  · exact List.pairwise_iff_getElem.1 (pairwise_sortedIndices k n) i j (hlen.symm ▸ i.isLt) (hlen.symm ▸ j.isLt) hij

/-! ## VSORT's list (R181) -/

theorem insertKey_map (ty : Nat) (g : Nat → W32 × W32) (i : Nat) (l : List Nat) :
    insertKey ty (g i) (l.map g) = (insertIndex (fun i => sortKey ty (g i).1) i l).map g := by
  induction l with
  | nil => rfl
  | cons j l ih =>
    rw [List.map_cons, insertKey, insertIndex_cons]
    by_cases h : sortKey ty (g j).1 < sortKey ty (g i).1
    · rw [if_neg (not_le.2 h), if_pos h]
      rfl
    · rw [if_pos (not_lt.1 h), if_neg h, List.map_cons, ih]

theorem foldl_insertKey_map (ty : Nat) (g : Nat → W32 × W32) (n : Nat) :
    ((List.range n).map g).foldl (fun l x => insertKey ty x l) [] = (sortedIndices (fun i => sortKey ty (g i).1) n).map g := by
  induction n with
  | zero => rfl
  | succ n ih =>
    rw [List.range_succ, List.map_append, List.foldl_append, ih, sortedIndices_succ]
    exact insertKey_map ty g n _

/-- The keys and payloads in sorted order, every NaN made canonical. -/
theorem vsort_eq (ty : Nat) (a b : Lanes) : vsort ty a b = (sortedIndices (fun i => sortKey ty (lane a i)) 64).map fun i =>
    (if ty == 2 && isNan32 (lane a i) then nan32 else lane a i, lane b i) := by
  rw [vsort, foldl_insertKey_map, List.map_map]
  rfl

/-- A key's order: numerically, -0 below +0, and NaNs below everything. -/
def vsortKey (ty : BitVec 2) (w : W32) : Int :=
  if ty = 0 then w.toInt else if ty = 1 then (w.toNat : Int)
  else if w.extractLsb' 23 8 = 255 ∧ w.extractLsb' 0 23 ≠ 0 then -(2 ^ 32)
  else if w.msb then -1 - (w.extractLsb' 0 31).toNat else (w.toNat : Int)

theorem fpKey_eq_extract (w : W32) : fpKey w = if w.msb then -1 - ((w.extractLsb' 0 31).toNat : Int) else (w.toNat : Int) := by
  rw [fpKey, BitVec.extractLsb'_toNat, Nat.shiftRight_zero]

theorem neg_le_fpKey (w : W32) : -2 ^ 31 ≤ fpKey w := by
  rw [fpKey]
  split <;> omega

theorem type_cases {ty : BitVec 2} (hty : ty.toNat < 3) : ty = 0 ∨ ty = 1 ∨ ty = 2 := by
  revert ty
  decide

/-- It is the model's but for NaNs, which both hold below every other key. -/
theorem sortKey_cases {ty : BitVec 2} (hty : ty.toNat < 3) (w : W32) :
    sortKey ty.toNat w = vsortKey ty w ∧ -2 ^ 31 ≤ vsortKey ty w ∨ sortKey ty.toNat w = -(2 ^ 40) ∧ vsortKey ty w = -(2 ^ 32) := by
  rcases type_cases hty with rfl | rfl | rfl
  · exact .inl ⟨rfl, BitVec.le_toInt w⟩
  · exact .inl ⟨rfl, (by decide : -2 ^ 31 ≤ (0 : Int)).trans (Int.natCast_nonneg _)⟩
  · by_cases hnan : w.extractLsb' 23 8 = 255 ∧ w.extractLsb' 0 23 ≠ 0
    · exact .inr ⟨if_pos (isNan32_iff.2 hnan), if_pos hnan⟩
    · have hkey : vsortKey 2 w = fpKey w := (if_neg hnan).trans (fpKey_eq_extract w).symm
      rw [hkey]
      exact .inl ⟨if_neg (mt isNan32_iff.1 hnan), neg_le_fpKey w⟩

/-- So the two order all keys alike. -/
theorem precedes_sortKey_iff {ty : BitVec 2} (hty : ty.toNat < 3) (f : Nat → W32) (i j : Nat) :
    Precedes (fun i => sortKey ty.toNat (f i)) i j ↔
      vsortKey ty (f j) < vsortKey ty (f i) ∨ vsortKey ty (f j) = vsortKey ty (f i) ∧ i < j := by
  have hi := sortKey_cases hty (f i)
  have hj := sortKey_cases hty (f j)
  simp only [Precedes]
  omega

/-- VSORT's lists hold the keys and the payload by a permutation that sorts the keys, stably and in descending order. -/
theorem vsort_spec {ty : BitVec 2} (hty : ty.toNat < 3) (a b : Lanes) : ∃ p : Equiv.Perm (Fin 64),
    (∀ j : Fin 64, lane (lanesOf ((vsort ty.toNat a b).map (·.2))) j = lane b (p j) ∧
      lane (lanesOf ((vsort ty.toNat a b).map (·.1))) j = if ty = 2 ∧ isNan32 (lane a (p j)) then nan32 else lane a (p j)) ∧
    ∀ i j : Fin 64, i < j → vsortKey ty (lane a (p j)) < vsortKey ty (lane a (p i)) ∨
      vsortKey ty (lane a (p j)) = vsortKey ty (lane a (p i)) ∧ p i < p j := by
  obtain ⟨p, hp, hsorted⟩ := exists_sorting_perm (fun i => sortKey ty.toNat (lane a i)) 64
  refine ⟨p, fun j => ?_, fun i j hij => (precedes_sortKey_iff hty (lane a) _ _).1 (hsorted i j hij)⟩
  have hfloat : (ty.toNat == 2 && isNan32 (lane a (p j))) = true ↔ ty = 2 ∧ isNan32 (lane a (p j)) = true := by
    rw [Bool.and_eq_true, ← toNat_beq_two, beq_iff_eq]
  rw [lane_lanesOf _ j.isLt, lane_lanesOf _ j.isLt, vsort_eq, List.map_map, List.map_map, List.getD_eq_getElem?_getD, List.getD_eq_getElem?_getD,
    List.getElem?_map, List.getElem?_map, hp j]
  exact ⟨rfl, if_congr hfloat rfl rfl⟩

end Sys2Proof.Machine
end

section
/-! Reductions, scan, sort and permutations of lanes (R128, R129, R178 to R182). -/

namespace Sys2Proof.Machine

section
variable {s : State} {v : View} {h : Head} {d : VDst} {a b : VSrc} {ty : BitVec 2} (hv : s.view = some v) (ha : v.affords 3)
include hv ha

/-- A reduction lands one word in every lane (R179). -/
theorem landsLanes_splat {i : Instr} {f : View → W32} {w : W32} (hr : v.readable [a])
    (hi : exec i s = onV 3 [a] s fun v s => v.landV s 10 h d (splat (f v))) (hf : f v = w) : LandsLanes s v [a] 10 h d i fun _ => w :=
  lands_onV (fun v => splat (f v)) hv hr ha hi fun _ hj => (lane_splat _ hj).trans hf

theorem landsLanes_vrsum (hr : v.readable [a]) : LandsLanes s v [a] 10 h d (.vrsum h d a ty) fun _ =>
    treeSum (addTy ty.toNat) (redInputs (v.active h) (sumIdent ty.toNat) (v.src a)) := landsLanes_splat hv ha hr rfl rfl

theorem landsLanes_vrmax (hr : v.readable [a]) : LandsLanes s v [a] 10 h d (.vrmax h d a ty) fun _ =>
    treeSum (maxTy ty.toNat) (redInputs (v.active h) (maxIdent ty.toNat) (v.src a)) := landsLanes_splat hv ha hr rfl rfl

theorem landsLanes_vrmin (hr : v.readable [a]) : LandsLanes s v [a] 10 h d (.vrmin h d a ty) fun _ =>
    treeSum (minTy ty.toNat) (redInputs (v.active h) (minIdent ty.toNat) (v.src a)) := landsLanes_splat hv ha hr rfl rfl

theorem landsLanes_vscan (hr : v.readable [a]) : LandsLanes s v [a] 10 h d (.vscan h d a ty) fun j =>
    canonTy ty.toNat ((serialSum (addTy ty.toNat) (redInputs (v.active h) (sumIdent ty.toNat) (v.src a))).getD j 0) :=
  lands_onV (fun v => lanesOf ((serialSum (addTy ty.toNat) (redInputs (v.active h) (sumIdent ty.toNat) (v.src a))).map (canonTy ty.toNat)))
    hv hr ha rfl fun _ hj => lane_lanesOf_map _ _ (canonTy_zero _) hj

/-- VSORT lands its keys in the destination, and then their payload in last result 0 (R181). -/
theorem exec_vsort (hr : v.readable [a, b]) : exec (.vsort h d a b ty) s =
    .next (v.land (v.land (v.modCl s fun c => c.pop [a, b]) 16 1
      (.vec v.cur.cl d (v.active h) (lanesOf ((vsort ty.toNat (v.src a) (v.src b)).map (·.1))))) 16 1
      (.vec v.cur.cl .last (v.active h) (lanesOf ((vsort ty.toNat (v.src a) (v.src b)).map (·.2))))) := by
  show execVsort h d a b ty s = _
  rw [execVsort, onV_ok hv hr ha]
  rfl
end

theorem LandsLanes.congr {s : State} {v : View} {as : List VSrc} {lat : Nat} {h : Head} {d : VDst} {i : Instr} {f g : Nat → W32}
    (hl : LandsLanes s v as lat h d i f) (hfg : ∀ j < 64, f j = g j) : LandsLanes s v as lat h d i g := by
  obtain ⟨x, hx, hlane⟩ := hl
  exact ⟨x, hx, fun j hj => (hlane j hj).trans (hfg j hj)⟩

/-- The extreme of a reduction is one of its inputs, and bounds the active lanes. -/
theorem Selects.treeSum_redInputs {op : W32 → W32 → W32} {R : W32 → W32 → Prop} (hop : Selects op R) (v : View) (h : Head) (ident : W32)
    (x : Lanes) : treeSum op (redInputs (v.active h) ident x) ∈ redInputs (v.active h) ident x ∧
      ∀ j < 64, (bitAt (v.cl.rp h.g.toNat) j != h.neg) = true → R (treeSum op (redInputs (v.active h) ident x)) (lane x j) := by
  obtain ⟨hmem, hrel⟩ := hop.treeSum_spec (length_redInputs (v.active h) ident x)
  refine ⟨hmem, fun j hj hact => hrel _ ?_⟩
  rw [redInputs_active]
  exact List.mem_map.2 ⟨j, List.mem_range.2 hj, if_pos hact⟩

/-- The six bits that name a lane. -/
theorem toNat_extractLsb'_lane (w : W32) : (w.extractLsb' 0 6).toNat = w.toNat % 64 := by
  rw [BitVec.extractLsb'_toNat, Nat.shiftRight_zero]

/-! ## The modifier bits of a permutation (R182) -/

theorem opsDABM_mod_four (d a b : BitVec 5) (m : BitVec 2) : opsDABM d a b m % 4 = m.toNat := by
  unfold opsDABM
  omega

theorem opsDAB_mod_four (d a b : BitVec 5) : opsDAB d a b % 4 = 0 := by
  unfold opsDAB
  omega

theorem encK_and_three {op x m : Nat} (h : Head) (hx : x < 2 ^ 17) (hm : x % 4 = m) (hop : op < 128 := by decide) :
    encK 1 op h x &&& 3 = BitVec.ofNat 32 m := by
  apply BitVec.eq_of_toNat_eq
  have hlow := fld_low (encK_fields h (by decide : 1 < 4) hop hx).2.2.2
  have hand : (encK 1 op h x &&& 3).toNat = (encK 1 op h x).toNat % 2 ^ 2 := by
    rw [BitVec.toNat_and]
    exact Nat.and_two_pow_sub_one_eq_mod _ 2
  rw [hand, BitVec.toNat_ofNat]
  rw [fld] at hlow
  omega

/-- Settles O11: the tree and the running sum over the active lanes, the sort as a permutation, and the permutations lane by lane. -/
theorem reductionsScanSortAndPermutations : Obligations.ReductionsScanSortAndPermutations := by
  refine ⟨fun s v h d a b ty hv ha => ?_, fun s v h d a b hv hr ha => ?_, fun h d a b => ⟨?_, ?_⟩⟩
  · intro A act inp
    have hinp (ident : W32) : redInputs (v.active h) ident (v.src a) = inp ident := redInputs_active v h ident (v.src a)
    refine ⟨fun hr => ⟨fun hty => ?_, fun hty => ?_, fun hty => ?_, fun hty => ?_⟩, fun hr hty => ?_⟩
    · have hlen : (inp 0).length = 64 := hinp 0 ▸ length_redInputs _ _ _
      refine ⟨(landsLanes_vrsum hv ha hr).congr fun j hj => ?_, (landsLanes_vscan hv ha hr).congr fun j hj => ?_⟩
      · rw [addTy_integer hty, sumIdent_integer hty, hinp, treeSum_add hlen]
      · rw [canonTy_integer hty, addTy_integer hty, sumIdent_integer hty, hinp, getD_serialSum_add _ (hlen.symm ▸ hj)]
    · subst hty
      refine ⟨(landsLanes_vrsum hv ha hr).congr fun j hj => ?_, (landsLanes_vrmax hv ha hr).congr fun j hj => ?_,
        (landsLanes_vrmin hv ha hr).congr fun j hj => ?_, (landsLanes_vscan hv ha hr).congr fun j hj => ?_⟩
      · rw [← hinp]
        rfl
      · rw [← hinp]
        rfl
      · rw [← hinp]
        rfl
      · rw [← hinp]
        exact canonTy_float _
    · subst hty
      obtain ⟨hmin, hminle⟩ := selects_minTy_signed.treeSum_redInputs v h 0x7FFFFFFF (v.src a)
      obtain ⟨hmax, hmaxle⟩ := selects_maxTy_signed.treeSum_redInputs v h 0x80000000 (v.src a)
      exact ⟨_, _, landsLanes_vrmin hv ha hr, landsLanes_vrmax hv ha hr, hinp _ ▸ hmin, hinp _ ▸ hmax,
        fun j hj hj' => ⟨hminle j hj hj', hmaxle j hj hj'⟩⟩
    · subst hty
      obtain ⟨hmin, hminle⟩ := selects_minTy_unsigned.treeSum_redInputs v h 0xFFFFFFFF (v.src a)
      obtain ⟨hmax, hmaxle⟩ := selects_maxTy_unsigned.treeSum_redInputs v h 0 (v.src a)
      exact ⟨_, _, landsLanes_vrmin hv ha hr, landsLanes_vrmax hv ha hr, hinp _ ▸ hmin, hinp _ ▸ hmax,
        fun j hj hj' => ⟨hminle j hj hj', hmaxle j hj hj'⟩⟩
    · obtain ⟨p, hlanes, hsorted⟩ := vsort_spec hty (v.src a) (v.src b)
      refine ⟨_, _, exec_vsort hv ha hr, p, fun j => ?_, hsorted⟩
      obtain ⟨hy, hx⟩ := hlanes j
      exact ⟨hy, hx.trans (if_congr (and_congr_right' isNan32_iff) rfl rfl)⟩
  · intro A B n R
    have hn : n = rotN (v.src b) := toNat_extractLsb'_lane _
    rw [hn]
    refine ⟨lands_onV (fun v => mkLanes fun i => lane (v.src a) ((lane (v.src b) i).toNat % 64)) hv hr ha rfl fun j hj => ?_,
      lands_onV (fun v => mkLanes fun i => lane (v.src a) ((i + rotN (v.src b)) % 64)) hv hr ha rfl fun j hj => lane_mk _ hj,
      lands_onV (fun v => mkLanes fun i => if i + rotN (v.src b) < 64 then lane (v.src a) (i + rotN (v.src b)) else 0) hv hr ha rfl
        fun j hj => lane_mk _ hj,
      lands_onV (fun v => splat (lane (v.src a) (rotN (v.src b)))) hv hr ha rfl fun j hj => lane_splat _ hj⟩
    rw [lane_mk _ hj, toNat_extractLsb'_lane]
  · exact .consV rfl (opsDAB_lt d.bv a.bv b.bv) (.consV rfl (opsDAB_lt d.bv a.bv b.bv)
      (.consV rfl (opsDABM_lt d.bv a.bv b.bv 1) (.consV rfl (opsDAB_lt d.bv a.bv b.bv) .nil)))
  · simp only [List.forall_mem_cons]
    have hplain (op : Nat) (hop : op < 128) := encK_and_three h (opsDAB_lt d.bv a.bv b.bv) (opsDAB_mod_four d.bv a.bv b.bv) hop
    have hzf := encK_and_three (op := 0x51) h (opsDABM_lt d.bv a.bv b.bv 1) (opsDABM_mod_four d.bv a.bv b.bv 1)
    refine ⟨hplain 0x50 (by decide), hplain 0x51 (by decide), hzf, hplain 0x52 (by decide), fun _ hp => nomatch hp⟩

end Sys2Proof.Machine
end

section
/-! The rational value of a finite float, and exact sums, products and scalings of it (R116, R124). -/

namespace Sys2Proof.Machine

/-! ## Values -/

/-- The value of a finite float. -/
def Fp.val : Fp → ℚ
  | .fin neg m e => (if neg then -1 else 1) * m * 2 ^ e
  | _ => 0

theorem Fp.val_false (m : Nat) (e : Int) : (Fp.fin false m e).val = m * 2 ^ e := one_mul (m : ℚ) ▸ rfl

theorem Fp.val_neg (a : Bool) (m : Nat) (e : Int) : (Fp.fin (!a) m e).val = -(Fp.fin a m e).val := by
  cases a <;> simp [Fp.val]

/-- A power of two is brought to a lower exponent by an integer factor. -/
theorem zpow_split {e g : Int} (h : g ≤ e) : (2 : ℚ) ^ e = 2 ^ (e - g).toNat * 2 ^ g := by
  rw [← zpow_natCast, ← zpow_add₀ two_ne_zero, Int.toNat_of_nonneg (by omega), sub_add_cancel]

theorem Fp.val_scale (n : Int) (a : Bool) (m : Nat) (e : Int) : (Fp.fin a m (e + n)).val = (Fp.fin a m e).val * 2 ^ n := by
  rw [Fp.val, Fp.val, zpow_add₀ two_ne_zero, mul_assoc (_ * _)]

/-- The sign of a value that is not zero. -/
theorem Fp.val_neg_iff {a : Bool} {m : Nat} {e : Int} : (Fp.fin a m e).val < 0 ↔ a = true ∧ m ≠ 0 := by
  have hpow : (0 : ℚ) < 2 ^ e := zpow_pos two_pos e
  cases a with
  | false => simpa [Fp.val] using mul_nonneg m.cast_nonneg hpow.le
  | true => simp [Fp.val, hpow, Nat.pos_iff_ne_zero]

theorem fpOfInt_val (zeroNeg : Bool) (z e : Int) : ∃ a m, fpOfInt zeroNeg z e = .fin a m e ∧ (Fp.fin a m e).val = z * 2 ^ e := by
  unfold fpOfInt
  split
  next h =>
    obtain rfl := beq_iff_eq.1 h
    exact ⟨_, _, rfl, by simp [Fp.val]⟩
  next h =>
    refine ⟨_, _, rfl, ?_⟩
    have habs : (if decide (z < 0) then -1 else 1 : ℚ) * (z.natAbs : ℚ) = z := by
      rw [Nat.cast_natAbs, Int.cast_abs]
      split
      next hz => rw [abs_of_neg (by simpa using hz), neg_one_mul, neg_neg]
      next hz => rw [abs_of_nonneg (by simpa using hz), one_mul]
    rw [Fp.val, habs]

/-! ## Exact arithmetic -/

/-- A signed significand in units of a lower exponent. -/
def alignSig (a : Bool) (m : Nat) (e g : Int) : Int := if a then -(m * 2 ^ (e - g).toNat : Int) else (m * 2 ^ (e - g).toNat : Int)

theorem alignSig_val (a : Bool) (m : Nat) {e g : Int} (h : g ≤ e) : (alignSig a m e g : ℚ) * 2 ^ g = (Fp.fin a m e).val := by
  rw [alignSig, Fp.val, zpow_split h]
  cases a <;> push_cast <;> simp [mul_assoc]

theorem Fp.add_fin (rdn a b : Bool) (m n : Nat) (e f : Int) : Fp.add rdn (.fin a m e) (.fin b n f) =
    fpOfInt (if m == 0 && n == 0 && a == b then a else rdn) (alignSig a m e (min e f) + alignSig b n f (min e f)) (min e f) := rfl

theorem Fp.add_val (rdn a b : Bool) (m n : Nat) (e f : Int) : ∃ c k g, Fp.add rdn (.fin a m e) (.fin b n f) = .fin c k g ∧
    (Fp.fin c k g).val = (Fp.fin a m e).val + (Fp.fin b n f).val := by
  obtain ⟨c, k, hadd, hval⟩ := fpOfInt_val (if m == 0 && n == 0 && a == b then a else rdn)
    (alignSig a m e (min e f) + alignSig b n f (min e f)) (min e f)
  refine ⟨c, k, min e f, hadd, hval.trans ?_⟩
  rw [Int.cast_add, add_mul, alignSig_val a m (min_le_left e f), alignSig_val b n (min_le_right e f)]

theorem Fp.mul_val (a b : Bool) (m n : Nat) (e f : Int) : Fp.mul (.fin a m e) (.fin b n f) = .fin (a != b) (m * n) (e + f) ∧
    (Fp.fin (a != b) (m * n) (e + f)).val = (Fp.fin a m e).val * (Fp.fin b n f).val := by
  have hsign : (if a != b then -1 else 1 : ℚ) = (if a then -1 else 1) * (if b then -1 else 1) := by cases a <;> cases b <;> norm_num
  refine ⟨rfl, ?_⟩
  rw [Fp.val, Fp.val, Fp.val, hsign, zpow_add₀ two_ne_zero, Nat.cast_mul]
  ring

/-! ## FP32 words -/

/-- The value of a finite FP32 word (R115). -/
def fpValue (y : W32) : ℚ := (if y.msb then -1 else 1) *
  (if y.extractLsb' 23 8 = 0 then ((y.extractLsb' 0 23).toNat : ℚ) * 2 ^ (-149 : Int)
    else ((2 ^ 23 + (y.extractLsb' 0 23).toNat : Nat) : ℚ) * 2 ^ (((y.extractLsb' 23 8).toNat : Int) - 150))

theorem fp32_val {w : W32} (h : w.extractLsb' 23 8 ≠ 255) : ∃ m e, fp32 w = .fin w.msb m e ∧ (Fp.fin w.msb m e).val = fpValue w := by
  rw [fp32_eq, if_neg h, fpValue]
  split
  next hzero => exact ⟨_, _, rfl, by rw [Fp.val, mul_assoc]⟩
  next hzero => exact ⟨_, _, rfl, by rw [Fp.val, mul_assoc]⟩

theorem fp32_of_nan {w : W32} (h : w.extractLsb' 23 8 = 255 ∧ w.extractLsb' 0 23 ≠ 0) : fp32 w = .nan := by
  rw [fp32_eq, if_pos h.1, if_neg h.2]

/-- What is neither finite nor a NaN is one of the two infinities. -/
theorem infinity_of_not_nan {w : W32} (hnan : ¬ (w.extractLsb' 23 8 = 255 ∧ w.extractLsb' 0 23 ≠ 0)) (hfin : w.extractLsb' 23 8 = 255) :
    w = 0xFF800000 ∨ w = 0x7F800000 := by
  have hfrac : w.extractLsb' 0 23 = 0 := by_contra fun h => hnan ⟨hfin, h⟩
  have hfields := toNat_eq_fields w
  rw [hfin, hfrac] at hfields
  simp only [← BitVec.toNat_inj, hfields]
  cases w.msb
  · exact .inr rfl
  · exact .inl rfl

end Sys2Proof.Machine
end

section
/-! TEVAL: where its input lies among the table's entries, and what it then gives (R184, R206). -/

namespace Sys2Proof.Machine

/-! ## Words of a table -/

/-- A word at an offset of a table. -/
def tableWord (m : Sparse 8) (k o : Nat) : W32 := planeW32 m (tableAt k + o)

/-- Four bytes, low byte first. -/
theorem planeW32_eq (m : Sparse 8) (o : Nat) : planeW32 m o =
    (Sparse.get m (o + 3) ++ Sparse.get m (o + 2) ++ Sparse.get m (o + 1) ++ Sparse.get m o : BitVec 32) := by
  apply BitVec.eq_of_toNat_eq
  have h0 := (Sparse.get m o).isLt
  have h1 := (Sparse.get m (o + 1)).isLt
  have h2 := (Sparse.get m (o + 2)).isLt
  have h3 := (Sparse.get m (o + 3)).isLt
  rw [planeW32, BitVec.toNat_ofNat, BitVec.toNat_append, BitVec.toNat_append, BitVec.toNat_append, ← Nat.shiftLeft_add_eq_or_of_lt h2,
    ← Nat.shiftLeft_add_eq_or_of_lt h1, ← Nat.shiftLeft_add_eq_or_of_lt h0]
  have hbytes : natOfBytes (Sparse.getN m o 4) = (Sparse.get m o).toNat + 256 * ((Sparse.get m (o + 1)).toNat +
      256 * ((Sparse.get m (o + 2)).toNat + 256 * (Sparse.get m (o + 3)).toNat)) := rfl
  simp only [hbytes, Nat.shiftLeft_eq]
  omega

theorem tableWord_eq (m : Sparse 8) (k o : Nat) : tableWord m k o =
    (Sparse.get m (0x480 * k + (o + 3)) ++ Sparse.get m (0x480 * k + (o + 2)) ++ Sparse.get m (0x480 * k + (o + 1)) ++
      Sparse.get m (0x480 * k + o) : BitVec 32) := planeW32_eq m _

theorem tableWord_nil (k o : Nat) : tableWord [] k o = 0 := rfl

/-- Entry `i` of a table. -/
def tableEntry (m : Sparse 8) (k i : Nat) : W32 := tableWord m k (0x40 + 4 * i)

/-- The header's step. -/
def tableStep (m : Sparse 8) (k : Nat) : Int := ((tableWord m k 4).extractLsb' 0 8).toInt

theorem intOf_header (w : W32) : intOf 5 true w.toNat = (w.extractLsb' 0 8).toInt := by
  have h := byteOf_eq true w 0
  rwa [byteOf, Nat.mul_zero, pow_zero, Nat.div_one] at h

/-! ## Where an input lies -/

/-- How far an input lies above the table's first, in steps. -/
def tableOffset (m : Sparse 8) (k : Nat) (x : W32) : Fp :=
  (Fp.add false (fp32 x) (fp32 (tableWord m k 0)).neg).scale (-tableStep m k)

/-- The whole steps of a distance `n * 2^e`. -/
def wholeSteps (n : Nat) (e : Int) : Nat := if 0 ≤ e then n * 2 ^ e.toNat else n / 2 ^ (-e).toNat

/-- What is left of it, in units of `2^e`. -/
def restSteps (n : Nat) (e : Int) : Nat := if 0 ≤ e then 0 else n % 2 ^ (-e).toNat

/-- What an input at an offset gives. -/
def tevalFrom (m : Sparse 8) (k : Nat) (x : W32) : Fp → W32
  | .nan => nan32
  | .inf true => edge (fld (tableWord m k 4).toNat 8 2) x (tableEntry m k 0)
  | .inf false => edge (fld (tableWord m k 4).toNat 10 2) x (tableEntry m k 256)
  | .fin neg n e =>
    if neg && n != 0 then edge (fld (tableWord m k 4).toNat 8 2) x (tableEntry m k 0)
    else if 256 < wholeSteps n e || (wholeSteps n e == 256 && restSteps n e != 0) then
      edge (fld (tableWord m k 4).toNat 10 2) x (tableEntry m k 256)
    else if wholeSteps n e == 256 then (if isNan32 (tableEntry m k 256) then nan32 else tableEntry m k 256)
    else tevalAt (tableEntry m k (wholeSteps n e)) (tableEntry m k (wholeSteps n e + 1)) (.fin false (restSteps n e) e) (restSteps n e == 0)

theorem teval_eq (m : Sparse 8) (k : Nat) (x : W32) : teval m k x = if isNan32 x then nan32 else tevalFrom m k x (tableOffset m k x) := by
  have hentry (i : Nat) : planeW32 m (tableAt k + 0x40 + 4 * i) = tableEntry m k i := by rw [tableEntry, tableWord, Nat.add_assoc]
  have hoffset : (Fp.add false (fp32 x) (fp32 (planeW32 m (tableAt k))).neg).scale (-(intOf 5 true (planeW32 m (tableAt k + 4)).toNat)) =
      tableOffset m k x := by rw [intOf_header]; rfl
  simp only [teval, hentry, hoffset]
  generalize tableOffset m k x = t
  rcases t with _ | ⟨_ | _⟩ | ⟨neg, n, e⟩ <;> rfl

/-! ## Distances in steps -/

/-- A distance is its whole steps and a rest of less than one. -/
theorem wholeSteps_add_rest (n : Nat) (e : Int) :
    (n : ℚ) * 2 ^ e = wholeSteps n e + restSteps n e * 2 ^ e ∧ (restSteps n e : ℚ) * 2 ^ e < 1 := by
  unfold wholeSteps restSteps
  split
  next h =>
    obtain ⟨d, rfl⟩ := Int.eq_ofNat_of_zero_le h
    simp
  next h =>
    obtain ⟨d, hd⟩ := Int.eq_ofNat_of_zero_le (neg_nonneg.2 (not_le.1 h).le)
    obtain rfl : e = -(d : Int) := by omega
    have hpow : (0 : ℚ) < 2 ^ d := pow_pos two_pos d
    have hn : (n : ℚ) = 2 ^ d * (n / 2 ^ d : Nat) + (n % 2 ^ d : Nat) := by exact_mod_cast (Nat.div_add_mod n (2 ^ d)).symm
    have hlt : ((n % 2 ^ d : Nat) : ℚ) < 2 ^ d := by exact_mod_cast Nat.mod_lt n (Nat.two_pow_pos d)
    rw [neg_neg, Int.toNat_natCast, zpow_neg, zpow_natCast]
    constructor
    · conv_lhs => rw [hn]
      field_simp
    · rwa [← div_eq_mul_inv, div_lt_one hpow]

/-- The rest is none where the distance is whole. -/
theorem restSteps_eq_zero_iff {n : Nat} {e : Int} : restSteps n e = 0 ↔ (n : ℚ) * 2 ^ e = wholeSteps n e := by
  rw [(wholeSteps_add_rest n e).1, add_eq_left, mul_eq_zero, Nat.cast_eq_zero]
  simp [zpow_ne_zero]

theorem wholeSteps_eq_floor (n : Nat) (e : Int) : wholeSteps n e = ⌊(n : ℚ) * 2 ^ e⌋₊ := by
  obtain ⟨hsum, hlt⟩ := wholeSteps_add_rest n e
  have hrest : (0 : ℚ) ≤ restSteps n e * 2 ^ e := mul_nonneg (Nat.cast_nonneg _) (zpow_pos two_pos e).le
  have hdist : (0 : ℚ) ≤ n * 2 ^ e := mul_nonneg (Nat.cast_nonneg _) (zpow_pos two_pos e).le
  refine ((Nat.floor_eq_iff hdist).2 ⟨?_, ?_⟩).symm <;> linarith

/-! ## Edges (R184) -/

/-- What an edge's rule says of a result (R184). -/
def EdgeRule (rule : BitVec 2) (x stop y : W32) : Prop :=
  (rule = 0 → y = 0) ∧ (rule = 1 → y = if stop.extractLsb' 23 8 = 255 ∧ stop.extractLsb' 0 23 ≠ 0 then 0x7FC00000 else stop) ∧ (rule = 2 → y = x)

theorem edge_spec (w x stop : W32) (lo : Nat) : EdgeRule (w.extractLsb' lo 2) x stop (edge (fld w.toNat lo 2) x stop) := by
  rw [fld_extract32]
  refine ⟨fun h => ?_, fun h => ?_, fun h => ?_⟩ <;> rw [h]
  · rfl
  · exact (if_congr isNan32_iff rfl rfl : (if isNan32 stop then _ else _) = _)
  · rfl

section
variable {m : Sparse 8} {k : Nat} {x : W32}

theorem teval_of_nan (h : x.extractLsb' 23 8 = 255 ∧ x.extractLsb' 0 23 ≠ 0) : teval m k x = 0x7FC00000 := by
  rw [teval_eq, if_pos (isNan32_iff.2 h)]
  rfl

theorem teval_of_offset (h : ¬ (x.extractLsb' 23 8 = 255 ∧ x.extractLsb' 0 23 ≠ 0)) : teval m k x = tevalFrom m k x (tableOffset m k x) := by
  rw [teval_eq, if_neg (mt isNan32_iff.1 h)]

/-- An offset that is no number gives the canonical NaN. -/
theorem teval_of_offset_nan (h : tableOffset m k x = .nan) : teval m k x = 0x7FC00000 := by
  rw [teval_eq, h]
  exact ite_self _

/-- What a result below the table, or above it, is. -/
def TevalBelow (m : Sparse 8) (k : Nat) (x : W32) : Prop := EdgeRule ((tableWord m k 4).extractLsb' 8 2) x (tableEntry m k 0) (teval m k x)

def TevalAbove (m : Sparse 8) (k : Nat) (x : W32) : Prop := EdgeRule ((tableWord m k 4).extractLsb' 10 2) x (tableEntry m k 256) (teval m k x)

variable (hx : ¬ (x.extractLsb' 23 8 = 255 ∧ x.extractLsb' 0 23 ≠ 0))
include hx

theorem teval_of_offset_neg_inf (h : tableOffset m k x = .inf true) : TevalBelow m k x := by
  rw [TevalBelow, teval_of_offset hx, h]
  exact edge_spec _ _ _ _

theorem teval_of_offset_inf (h : tableOffset m k x = .inf false) : TevalAbove m k x := by
  rw [TevalAbove, teval_of_offset hx, h]
  exact edge_spec _ _ _ _

/-! ## Finite offsets -/

variable {neg : Bool} {n : Nat} {e : Int} (ht : tableOffset m k x = .fin neg n e)
include ht

theorem teval_below (h : (Fp.fin neg n e).val < 0) : TevalBelow m k x := by
  obtain ⟨rfl, hn⟩ := Fp.val_neg_iff.1 h
  rw [TevalBelow, teval_of_offset hx, ht, tevalFrom, if_pos (by simpa using hn)]
  exact edge_spec _ _ _ _

/-- From the first entry on. -/
theorem teval_of_val_nonneg (h : 0 ≤ (Fp.fin neg n e).val) : (Fp.fin neg n e).val = n * 2 ^ e ∧ teval m k x =
    if 256 < wholeSteps n e || (wholeSteps n e == 256 && restSteps n e != 0) then
      edge (fld (tableWord m k 4).toNat 10 2) x (tableEntry m k 256)
    else if wholeSteps n e == 256 then (if isNan32 (tableEntry m k 256) then nan32 else tableEntry m k 256)
    else tevalAt (tableEntry m k (wholeSteps n e)) (tableEntry m k (wholeSteps n e + 1)) (.fin false (restSteps n e) e) (restSteps n e == 0) := by
  have hsign : ¬ (neg && n != 0) = true := by
    simpa using mt Fp.val_neg_iff.2 (not_lt.2 h)
  refine ⟨?_, ?_⟩
  · cases neg with
    | false => exact Fp.val_false n e
    | true =>
      obtain rfl : n = 0 := by simpa using hsign
      simp [Fp.val]
  · rw [teval_of_offset hx, ht, tevalFrom, if_neg hsign]

theorem teval_above (h : 256 < (Fp.fin neg n e).val) : TevalAbove m k x := by
  obtain ⟨hval, heq⟩ := teval_of_val_nonneg hx ht ((by norm_num : (0 : ℚ) ≤ 256).trans h.le)
  rw [hval] at h
  have hwhole : 256 ≤ wholeSteps n e := by
    rw [wholeSteps_eq_floor]
    exact Nat.le_floor (by exact_mod_cast h.le)
  have hrest : wholeSteps n e = 256 → restSteps n e ≠ 0 := fun hw hr => by
    rw [restSteps_eq_zero_iff.1 hr, hw] at h
    exact lt_irrefl _ (by exact_mod_cast h)
  rw [TevalAbove, heq, if_pos]
  · exact edge_spec _ _ _ _
  · simp only [Bool.or_eq_true, Bool.and_eq_true, decide_eq_true_eq, beq_iff_eq, bne_iff_ne]
    rcases hwhole.lt_or_eq with hlt | heq
    · exact .inl hlt
    · exact .inr ⟨heq.symm, hrest heq.symm⟩

/-- At the last entry. -/
theorem teval_last (h : (Fp.fin neg n e).val = 256) : teval m k x =
    if (tableEntry m k 256).extractLsb' 23 8 = 255 ∧ (tableEntry m k 256).extractLsb' 0 23 ≠ 0 then 0x7FC00000 else tableEntry m k 256 := by
  obtain ⟨hval, heq⟩ := teval_of_val_nonneg hx ht (h ▸ by norm_num)
  rw [hval] at h
  have hwhole : wholeSteps n e = 256 := by
    rw [wholeSteps_eq_floor, h]
    exact Nat.floor_natCast 256
  have hrest : restSteps n e = 0 := restSteps_eq_zero_iff.2 (by rw [h, hwhole]; rfl)
  rw [heq, hwhole, hrest, if_neg (by decide), if_pos (beq_self_eq_true _)]
  exact if_congr isNan32_iff rfl rfl

/-- Between two entries. -/
theorem teval_between {i : Nat} (hi : i < 256) (hlo : (i : ℚ) ≤ (Fp.fin neg n e).val) (hhi : (Fp.fin neg n e).val < i + 1) :
    teval m k x = tevalAt (tableEntry m k i) (tableEntry m k (i + 1)) (.fin false (restSteps n e) e) (restSteps n e == 0) ∧
      (Fp.fin false (restSteps n e) e).val = (Fp.fin neg n e).val - i ∧ (restSteps n e = 0 ↔ (Fp.fin neg n e).val = i) := by
  have hnonneg : 0 ≤ (Fp.fin neg n e).val := (Nat.cast_nonneg i).trans hlo
  obtain ⟨hval, heq⟩ := teval_of_val_nonneg hx ht hnonneg
  rw [hval] at hlo hhi hnonneg
  have hwhole : wholeSteps n e = i := by
    rw [wholeSteps_eq_floor]
    exact (Nat.floor_eq_iff hnonneg).2 ⟨hlo, hhi⟩
  rw [heq, hval, hwhole, restSteps_eq_zero_iff, hwhole, Fp.val_false]
  refine ⟨?_, ?_, Iff.rfl⟩
  · have hne : (i == 256) = false := beq_eq_false_iff_ne.2 hi.ne
    rw [hne, decide_eq_false hi.asymm, Bool.false_and, Bool.false_or, if_neg Bool.false_ne_true, if_neg Bool.false_ne_true]
  · rw [(wholeSteps_add_rest n e).1, hwhole, add_sub_cancel_left]

end

/-! ## Interpolation (R184) -/

theorem tevalAt_grid {t0 t1 : W32} {f : Fp} {a : Bool} {n : Nat} {e : Int} (h : fp32 (fsub 0 t1 t0) = .fin a n e) :
    tevalAt t0 t1 f true = t0 := by
  simp [tevalAt, h]

theorem tevalAt_interior (t0 t1 : W32) (f : Fp) :
    tevalAt t0 t1 f false = round32 0 (Fp.add false (fp32 t0) (Fp.mul f (fp32 (fsub 0 t1 t0)))) := rfl

/-- A difference that is not finite times zero is no number. -/
theorem tevalAt_grid_nan {t0 t1 : W32} {e : Int} (h : (fsub 0 t1 t0).extractLsb' 23 8 = 255) :
    tevalAt t0 t1 (.fin false 0 e) true = 0x7FC00000 := by
  have hdt : fp32 (fsub 0 t1 t0) = .nan ∨ ∃ a, fp32 (fsub 0 t1 t0) = .inf a := by
    rw [fp32_eq, if_pos h]
    split
    · exact .inr ⟨_, rfl⟩
    · exact .inl rfl
  have hadd (v : Fp) : Fp.add false v .nan = .nan := by cases v <;> rfl
  rcases hdt with h | ⟨a, h⟩ <;> simp [tevalAt, h, Fp.mul, hadd, round32_nan]

end Sys2Proof.Machine
end

section
/-! TEVAL as a whole: the offset by the kinds of the input and the first entry, and an image of zeros (R184). -/

namespace Sys2Proof.Machine

/-! ## The offset by kinds -/

theorem Fp.add_nan (rdn : Bool) (v : Fp) : Fp.add rdn v .nan = .nan := by cases v <;> rfl

theorem fp32_neg_infinity : fp32 0xFF800000 = .inf true := by decide

theorem fp32_infinity : fp32 0x7F800000 = .inf false := by decide

section
variable {m : Sparse 8} {k : Nat} {x : W32}

theorem tableOffset_first_nan (h : (tableWord m k 0).extractLsb' 23 8 = 255 ∧ (tableWord m k 0).extractLsb' 0 23 ≠ 0) :
    tableOffset m k x = .nan := by
  rw [tableOffset, fp32_of_nan h, Fp.neg, Fp.add_nan]
  rfl

/-- Infinities of one sign cancel to no number. -/
theorem tableOffset_same (hx : x = 0xFF800000 ∨ x = 0x7F800000) (h : x = tableWord m k 0) : tableOffset m k x = .nan := by
  rw [tableOffset, ← h]
  rcases hx with rfl | rfl
  · rw [fp32_neg_infinity]
    rfl
  · rw [fp32_infinity]
    rfl

/-- A first entry that is no NaN and not the infinity `x` leaves `x` as it is. -/
theorem tableOffset_of_infinity {neg : Bool} (hx : fp32 x = .inf neg) (hlo : fp32 (tableWord m k 0) ≠ .nan)
    (hne : fp32 (tableWord m k 0) ≠ .inf neg) : tableOffset m k x = .inf neg := by
  rw [tableOffset, hx]
  cases h : fp32 (tableWord m k 0) with
  | nan => exact absurd h hlo
  | fin a n e => rfl
  | inf a =>
    have ha : (!a) = neg := by
      cases a <;> cases neg <;> simp_all
    rw [Fp.neg, ha, Fp.add, if_pos (beq_self_eq_true neg)]
    rfl

/-- An infinite first entry leaves its opposite. -/
theorem tableOffset_first_infinite {a : Bool} (hx : x.extractLsb' 23 8 ≠ 255) (hlo : fp32 (tableWord m k 0) = .inf a) :
    tableOffset m k x = .inf !a := by
  obtain ⟨n, e, hfin, -⟩ := fp32_val hx
  rw [tableOffset, hfin, hlo]
  rfl

/-- The distance of two numbers, in steps. -/
theorem tableOffset_finite (hx : x.extractLsb' 23 8 ≠ 255) (hlo : (tableWord m k 0).extractLsb' 23 8 ≠ 255) : ∃ neg n e,
    tableOffset m k x = .fin neg n e ∧ (Fp.fin neg n e).val = (fpValue x - fpValue (tableWord m k 0)) * 2 ^ (-tableStep m k) := by
  obtain ⟨n, e, hfin, hval⟩ := fp32_val hx
  obtain ⟨n', e', hfin', hval'⟩ := fp32_val hlo
  obtain ⟨c, i, g, hadd, hsum⟩ := Fp.add_val false x.msb (!(tableWord m k 0).msb) n n' e e'
  refine ⟨c, i, g + -tableStep m k, ?_, ?_⟩
  · rw [tableOffset, hfin, hfin', Fp.neg, hadd]
    rfl
  · rw [Fp.val_scale, hsum, Fp.val_neg, hval, hval', sub_eq_add_neg]

theorem fp32_ne_nan {w : W32} (h : ¬ (w.extractLsb' 23 8 = 255 ∧ w.extractLsb' 0 23 ≠ 0)) : fp32 w ≠ .nan := fun hnan =>
  h (isNan32_iff.1 (by rw [isNan32, hnan]; rfl))

/-- A word is the infinity of its value. -/
theorem eq_of_fp32_inf {w : W32} {neg : Bool} (h : fp32 w = .inf neg) : w = if neg then 0xFF800000 else 0x7F800000 := by
  by_cases hfin : w.extractLsb' 23 8 = 255
  · have hnan : ¬ (w.extractLsb' 23 8 = 255 ∧ w.extractLsb' 0 23 ≠ 0) := fun hn => by
      rw [fp32_of_nan hn] at h
      exact nomatch h
    rcases infinity_of_not_nan hnan hfin with rfl | rfl
    · rw [fp32_neg_infinity] at h
      cases h
      rfl
    · rw [fp32_infinity] at h
      cases h
      rfl
  · obtain ⟨n, e, hfin, -⟩ := fp32_val hfin
    rw [hfin] at h
    exact nomatch h

/-! ## An image of zeros -/

theorem tevalAt_zeros (f : Fp) (hf : ∃ n e, f = .fin false n e) (grid : Bool) : tevalAt 0 0 f grid = 0 := by
  obtain ⟨n, e, rfl⟩ := hf
  have hdt : fsub 0 0 0 = 0 := by decide
  have hzero : fp32 0 = .fin false 0 (-149) := by decide
  cases grid with
  | true => exact tevalAt_grid (a := false) (n := 0) (e := -149) (by rw [hdt, hzero])
  | false =>
    rw [tevalAt_interior, hdt, hzero, Fp.mul, Nat.mul_zero, Bool.bne_false, Fp.add_fin]
    simp [alignSig, fpOfInt, round32, roundFp_zero, signed, bnat]

theorem edge_zeros (x y : W32) (lo : Nat) : edge (fld (0 : W32).toNat lo 2) x y = 0 :=
  (edge_spec 0 x y lo).1 BitVec.extractLsb'_zero

theorem tableOffset_zeros_ne_nan {k : Nat} (hx : ¬ (x.extractLsb' 23 8 = 255 ∧ x.extractLsb' 0 23 ≠ 0)) : tableOffset [] k x ≠ .nan := by
  by_cases hfin : x.extractLsb' 23 8 = 255
  · have hne {v : Fp} (hv : fp32 0 = v → False) : fp32 (tableWord [] k 0) ≠ v := tableWord_nil k 0 ▸ hv
    have hinf : ∃ neg, fp32 x = .inf neg := by
      rcases infinity_of_not_nan hx hfin with rfl | rfl
      · exact ⟨_, fp32_neg_infinity⟩
      · exact ⟨_, fp32_infinity⟩
    obtain ⟨neg, hinf⟩ := hinf
    rw [tableOffset_of_infinity hinf (hne (by decide)) (hne (by cases neg <;> decide))]
    exact nofun
  · obtain ⟨neg, n, e, hoff, -⟩ := tableOffset_finite (m := []) (k := k) hfin (tableWord_nil k 0 ▸ by decide)
    rw [hoff]
    exact nofun

/-- R184: a table whose image is all zero gives +0. -/
theorem teval_zeros (k : Nat) (hx : ¬ (x.extractLsb' 23 8 = 255 ∧ x.extractLsb' 0 23 ≠ 0)) : teval [] k x = 0 := by
  rw [teval_of_offset hx]
  have hoff := tableOffset_zeros_ne_nan (k := k) hx
  generalize tableOffset [] k x = t at hoff
  match t, hoff with
  | .inf true, _ => exact edge_zeros _ _ _
  | .inf false, _ => exact edge_zeros _ _ _
  | .fin neg n e, _ =>
    rw [tevalFrom]
    split_ifs
    · exact edge_zeros _ _ _
    · exact edge_zeros _ _ _
    · next hnan => exact absurd hnan (tableWord_nil k _ ▸ by decide : ¬ isNan32 (tableWord [] k (0x40 + 4 * 256)) = true)
    · rfl
    · exact tevalAt_zeros _ ⟨_, _, rfl⟩ _
end

/-! ## Between two entries -/

/-- The interpolation at a rest `r * 2^e` of the way, `u` in all from `g`. -/
theorem tevalAt_spec {t0 t1 : W32} {r : Nat} {e : Int} {u g : ℚ} (hrest : (Fp.fin false r e).val = u - g) (hgrid : r = 0 ↔ u = g) :
    (t0.extractLsb' 23 8 ≠ 255 → (fsub 0 t1 t0).extractLsb' 23 8 ≠ 255 → u = g → tevalAt t0 t1 (.fin false r e) (r == 0) = t0) ∧
    (¬ (fsub 0 t1 t0).extractLsb' 23 8 ≠ 255 → u = g → tevalAt t0 t1 (.fin false r e) (r == 0) = 0x7FC00000) ∧
    (t0.extractLsb' 23 8 ≠ 255 → (fsub 0 t1 t0).extractLsb' 23 8 ≠ 255 → ∃ (neg : Bool) (n : Nat) (f : Int),
      (if neg then -1 else 1 : ℚ) * n * 2 ^ f = fpValue t0 + (u - g) * fpValue (fsub 0 t1 t0) ∧
      (u ≠ g → tevalAt t0 t1 (.fin false r e) (r == 0) = round32 0 (.fin neg n f))) := by
  refine ⟨fun _ hdt hu => ?_, fun hdt hu => ?_, fun ht0 hdt => ?_⟩
  · obtain ⟨n, f, hfin, -⟩ := fp32_val hdt
    obtain rfl := hgrid.2 hu
    exact tevalAt_grid hfin
  · obtain rfl := hgrid.2 hu
    exact tevalAt_grid_nan (not_not.1 hdt)
  · obtain ⟨n, f, hfin, hval⟩ := fp32_val ht0
    obtain ⟨n', f', hfin', hval'⟩ := fp32_val hdt
    obtain ⟨hmul, hprod⟩ := Fp.mul_val false (fsub 0 t1 t0).msb r n' e f'
    obtain ⟨c, j, q, hadd, hsum⟩ := Fp.add_val false t0.msb (false != (fsub 0 t1 t0).msb) n (r * n') f (e + f')
    refine ⟨c, j, q, ?_, fun hu => ?_⟩
    · rw [hprod, hval, hval', hrest] at hsum
      exact hsum
    · have hr : (r == 0) = false := beq_eq_false_iff_ne.2 (mt hgrid.1 hu)
      rw [hr, tevalAt_interior, hfin, hfin', hmul, hadd]

/-! ## The syllable (R184) -/

section
variable {s : State} {v : View} {h : Head} {d : VDst} {a : VSrc} {k : BitVec 2} (hv : s.view = some v)
include hv

theorem exec_teval_illegal (hte : v.st.fp.te = false) : exec (.teval h d a k) s = .next (v.raise s cIllegal) := by
  show execTeval h d a k s = _
  rw [execTeval, withView_some _ hv]
  simp only [hte, Bool.not_false, if_true]

theorem exec_teval_lands (hte : v.st.fp.te = true) (hr : v.readable [a]) (ha : v.affords 3) : exec (.teval h d a k) s =
    .next (v.land (v.modCl s fun c => c.pop [a]) 10 1 (.teval v.cur.cl d (v.active h) k.toNat (v.src a))) := by
  show execTeval h d a k s = _
  rw [execTeval, withView_some _ hv]
  simp only [hte, View.dry_eq_false hr, affords_exceeds ha, Bool.not_true, Bool.false_eq_true, if_false]
end

/-- The table is read as it stands at the end of the beat (R134, R255). -/
theorem Core.teval_mem_decideAll {co old : Core} {e : Timed} {cl : Nat} {d : VDst} {act : W64} {k : Nat} {z : Lanes} (he : e ∈ co.agenda)
    (ha : e.act = .teval cl d act k z) : { e with act := .vec cl d act (map1 (teval co.te.active k) z) } ∈ (co.decideAll old).agenda := by
  refine List.mem_map.2 ⟨e, he, ?_⟩
  simp only [ha, Core.outcome]

/-- Settles O13: the offset is exact, its whole steps name the entry, and the rest weighs the difference of the next two. -/
theorem tableEvaluation : Obligations.TableEvaluation := by
  refine ⟨fun s v h d a k hv => ⟨exec_teval_illegal hv, exec_teval_lands hv⟩,
    fun co old e cl d act k z he ha => ⟨_, Core.teval_mem_decideAll he ha, fun j hj => lane_map1 _ _ hj⟩, fun m k x => ?_⟩
  intro isNan finite value byte word lo T step edge below above
  have hword : word = tableWord m k := funext fun o => (tableWord_eq m k o).symm
  clear_value word
  subst hword
  have hbelow (h : TevalBelow m k x) : below := h
  have habove (h : TevalAbove m k x) : above := h
  refine ⟨teval_of_nan, teval_zeros k, fun hn => teval_of_offset_nan (tableOffset_first_nan hn), fun hx hfin => ?_, fun hx hn hne => ?_,
    fun hx hn hne => ?_, fun hfin hlo => ?_, fun hfin hlo => ?_, fun hfin hfinlo => ?_⟩
  · by_cases hn : isNan x
    · exact teval_of_nan hn
    · exact teval_of_offset_nan (tableOffset_same (infinity_of_not_nan hn (not_not.1 hfin)) hx)
  · subst hx
    refine hbelow (teval_of_offset_neg_inf (by decide) (tableOffset_of_infinity fp32_neg_infinity (fp32_ne_nan hn) fun h => ?_))
    exact hne (eq_of_fp32_inf h)
  · subst hx
    refine habove (teval_of_offset_inf (by decide) (tableOffset_of_infinity fp32_infinity (fp32_ne_nan hn) fun h => ?_))
    exact hne (eq_of_fp32_inf h)
  · exact hbelow (teval_of_offset_neg_inf (fun h => hfin h.1) (tableOffset_first_infinite hfin (hlo ▸ fp32_infinity)))
  · exact habove (teval_of_offset_inf (fun h => hfin h.1) (tableOffset_first_infinite hfin (hlo ▸ fp32_neg_infinity)))
  · intro t
    have hx : ¬ isNan x := fun h => hfin h.1
    obtain ⟨neg, n, e, hoff, hval⟩ := tableOffset_finite hfin hfinlo
    have ht : t = (Fp.fin neg n e).val := hval.symm
    rw [ht]
    refine ⟨fun h => hbelow (teval_below hx hoff h), fun h => habove (teval_above hx hoff h), teval_last hx hoff, fun i hi hlow hhigh => ?_⟩
    obtain ⟨hteval, hrest, hgrid⟩ := teval_between hx hoff hi hlow hhigh
    rw [hteval]
    exact tevalAt_spec hrest hgrid

end Sys2Proof.Machine
end

section
/-! Images of packed codes: elements, DX blocks with their scales, and the lanes past the end (R120 to R122, R176). -/

namespace Sys2Proof.Machine

/-! ## Codes side by side in a word -/

/-- The sum of the first `k` digits of `w` bits. -/
def packDigits (w : Nat) (f : Nat → Nat) (k : Nat) : Nat := (List.range k).foldl (fun x j => x + f j % 2 ^ w * 2 ^ (w * j)) 0

theorem packDigits_succ (w : Nat) (f : Nat → Nat) (k : Nat) : packDigits w f (k + 1) = 2 ^ (w * k) * (f k % 2 ^ w) + packDigits w f k := by
  rw [packDigits, List.range_succ, List.foldl_append, Nat.add_comm, Nat.mul_comm]
  rfl

theorem packDigits_lt (w : Nat) (f : Nat → Nat) (k : Nat) : packDigits w f k < 2 ^ (w * k) := by
  induction k with
  | zero => exact Nat.one_pos
  | succ k ih =>
    rw [packDigits_succ, Nat.mul_succ, Nat.pow_add]
    calc 2 ^ (w * k) * (f k % 2 ^ w) + packDigits w f k < 2 ^ (w * k) * (f k % 2 ^ w) + 2 ^ (w * k) := Nat.add_lt_add_left ih _
      _ = 2 ^ (w * k) * (f k % 2 ^ w + 1) := by rw [Nat.mul_succ]
      _ ≤ 2 ^ (w * k) * 2 ^ w := Nat.mul_le_mul_left _ (Nat.mod_lt _ (Nat.two_pow_pos w))

/-- Each digit is read back. -/
theorem fld_packDigits (w : Nat) (f : Nat → Nat) {k j : Nat} (hj : j < k) : fld (packDigits w f k) (w * j) w = f j % 2 ^ w := by
  induction k with
  | zero => exact absurd hj (Nat.not_lt_zero _)
  | succ k ih =>
    rw [packDigits_succ, fld]
    rcases Nat.lt_succ_iff_lt_or_eq.1 hj with hlt | rfl
    · obtain ⟨r, rfl⟩ := Nat.exists_eq_add_of_lt hlt
      have hsplit : 2 ^ (w * (j + r + 1)) = 2 ^ (w * j) * (2 ^ w * 2 ^ (w * r)) := by ring
      rw [hsplit, Nat.mul_assoc, Nat.mul_add_div (Nat.two_pow_pos _), Nat.mul_assoc, Nat.mul_add_mod]
      exact ih hlt
    · rw [Nat.mul_add_div (Nat.two_pow_pos _), Nat.div_eq_of_lt (packDigits_lt w f j), Nat.add_zero, Nat.mod_mod]

theorem packDigits_zero {w : Nat} {f : Nat → Nat} {k : Nat} (h : ∀ j < k, f j = 0) : packDigits w f k = 0 := by
  induction k with
  | zero => rfl
  | succ k ih => rw [packDigits_succ, ih fun j hj => h j (hj.trans k.lt_succ_self), h k k.lt_succ_self, Nat.zero_mod, Nat.mul_zero]

section
variable {w per : Nat} (hw : per * w = 32)
include hw

theorem toNat_lane_packCodes (cs : List Nat) {i : Nat} (hi : i < 64) :
    (lane (packCodes w cs) i).toNat = packDigits w (fun j => cs.getD (i * per + j) 0) per := by
  have hpos : 0 < w := Nat.pos_of_ne_zero fun h => by simp [h] at hw
  have hper : 32 / w = per := Nat.div_eq_of_eq_mul_left hpos hw.symm
  have hlt := packDigits_lt w (fun j => cs.getD (i * per + j) 0) per
  rw [Nat.mul_comm w per, hw] at hlt
  rw [packCodes, hper, lane_mk _ hi, BitVec.toNat_ofNat]
  exact Nat.mod_eq_of_lt hlt

/-- An element of a packed list. -/
theorem elemOf_packCodes (cs : List Nat) {n : Nat} (hn : n < 64 * per) : elemOf w (packCodes w cs) n = cs.getD n 0 % 2 ^ w := by
  have hwpos : 0 < w := Nat.pos_of_ne_zero fun h => by simp [h] at hw
  have hper : 0 < per := Nat.pos_of_ne_zero fun h => by simp [h] at hw
  have hlane : n * w / 32 = n / per := by rw [← hw, Nat.mul_div_mul_right _ _ hwpos]
  have hbit : n * w % 32 = w * (n % per) := by rw [← hw, Nat.mul_mod_mul_right, Nat.mul_comm]
  rw [elemOf, hlane, hbit, toNat_lane_packCodes hw cs (Nat.div_lt_of_lt_mul (Nat.mul_comm 64 per ▸ hn)), fld_packDigits _ _ (Nat.mod_lt _ hper),
    Nat.div_add_mod']

/-- Past the last code a lane is zero. -/
theorem lane_packCodes_past (cs : List Nat) {i : Nat} (hi : i < 64) (hend : cs.length ≤ i * per) : lane (packCodes w cs) i = 0 := by
  apply BitVec.eq_of_toNat_eq
  rw [toNat_lane_packCodes hw cs hi]
  exact packDigits_zero fun j _ => List.getD_eq_default _ _ (hend.trans (Nat.le_add_right _ _))
end

/-! ## DX blocks (R120 to R122) -/

theorem length_packDx (f rm : Nat) (xs : List (W32 × Nat)) : (packDx f rm xs).1.length = xs.length := by simp [packDx]

theorem foldl_max_le {α : Type} (g : α → Nat) {b : Nat} (xs : List α) (hg : ∀ x ∈ xs, g x ≤ b) {a : Nat} (ha : a ≤ b) :
    xs.foldl (fun a x => max a (g x)) a ≤ b := by
  induction xs generalizing a with
  | nil => exact ha
  | cons x xs ih =>
    obtain ⟨hx, hxs⟩ := List.forall_mem_cons.1 hg
    exact ih hxs (max_le ha hx)

/-- A scale entry has 16 bits. -/
theorem packDx_scale_lt (f rm : Nat) (xs : List (W32 × Nat)) : (packDx f rm xs).2 < 65536 := by
  have hmag := foldl_max_le (fun x : W32 × Nat => if isNan32 x.1 then 0 else min (x.1.toNat % 2 ^ 31) 0x7F7FFFFF) xs
    (b := 0x7F7FFFFF) (fun x _ => by split <;> omega) (Nat.zero_le _)
  simp only [packDx]
  generalize xs.foldl _ 0 = a at hmag ⊢
  have he : a / 2 ^ 23 ≤ 254 := by omega
  generalize a / 2 ^ 23 = e at he ⊢
  have hbound {c nan : Bool} {e0 : Nat} (h : e0 = if decide (e < 254) && c then e + 1 else e) :
      (if nan then 255 else e0 - dxD f) * 256 + e0 < 65536 := by
    have he0 : e0 ≤ 254 := by
      simp only [h, Bool.and_eq_true, decide_eq_true_eq]
      split <;> omega
    split <;> omega
  exact hbound rfl

/-- Blocks of equal length one after another. -/
theorem getD_flatMap_range {α : Type} (f : Nat → List α) {len : Nat} (hlen : ∀ k, (f k).length = len) (d : α) {k n : Nat} (hn : n < len * k) :
    ((List.range k).flatMap f).getD n d = (f (n / len)).getD (n % len) d := by
  induction k with
  | zero => exact absurd hn (Nat.not_lt_zero _)
  | succ k ih =>
    have hprefix : ((List.range k).flatMap f).length = len * k := by simp [List.length_flatMap, hlen, Nat.mul_comm]
    rw [List.range_succ, List.flatMap_append, List.flatMap_singleton]
    rcases Nat.lt_or_ge n (len * k) with h | h
    · rw [List.getD_append _ _ _ _ (hprefix.symm ▸ h), ih h]
    · rw [List.getD_append_right _ _ _ _ (hprefix.symm ▸ h), hprefix]
      have hrest : n - len * k < len := by
        rw [Nat.mul_succ] at hn
        omega
      obtain ⟨r, rfl⟩ := Nat.exists_eq_add_of_le h
      rw [Nat.add_sub_cancel_left] at hrest ⊢
      rw [Nat.mul_add_div (by omega), Nat.mul_add_mod, Nat.div_eq_of_lt hrest, Nat.mod_eq_of_lt hrest, Nat.add_zero]

end Sys2Proof.Machine
end

section
/-! Values that BF16 and FP16 hold: FP32 holds them too, and rounding back gives their codes (R115, R124, R176, R177). -/

namespace Sys2Proof.Machine

/-! ## Codes of finite values (R115) -/

/-- The code of a finite value of BF16 or FP16, by its sign, significand and exponent. -/
structure HoldsCode (f n : Nat) (neg : Bool) (m : Nat) (e : Int) : Prop where
  value : fpOf f n = .fin neg m e
  sig_lt : m < 2 ^ fmtPrec f
  lsb_le : fmtMinLsb f ≤ e
  norm : 2 ^ (fmtPrec f - 1) ≤ m ∨ e = fmtMinLsb f
  below_inf : (e - fmtMinLsb f).toNat * 2 ^ (fmtPrec f - 1) + m < fmtInf f
  code : n = signed f neg ((e - fmtMinLsb f).toNat * 2 ^ (fmtPrec f - 1) + m)

theorem signed_magnitude {f n : Nat} (hf : fmtBits f = 16) (hn : n < 2 ^ 16) :
    signed f (fld n (fmtBits f - 1) 1 == 1) (n % 2 ^ (fmtBits f - 1)) = n := by
  rw [signed, hf, fld]
  by_cases h : n / 2 ^ 15 % 2 ^ 1 = 1
  · rw [h]
    simp only [beq_self_eq_true, bnat, if_true]
    omega
  · rw [beq_eq_false_iff_ne.2 h]
    simp only [bnat, Bool.false_eq_true, if_false]
    omega

/-- A 16-bit code is a NaN's, an infinity's or a finite value's. -/
theorem fpOf_cases {f n : Nat} (hf : fmtBits f = 16) (hn : n < 2 ^ 16) : fpOf f n = .nan ∨
    (∃ neg, fpOf f n = .inf neg ∧ n = signed f neg (fmtInf f)) ∨ ∃ neg m e, HoldsCode f n neg m e := by
  have hsigned := signed_magnitude hf hn
  generalize hneg : (fld n (fmtBits f - 1) 1 == 1) = neg at hsigned
  generalize hmag : n % 2 ^ (fmtBits f - 1) = mag at hsigned
  have hsplit : mag / 2 ^ (fmtPrec f - 1) * 2 ^ (fmtPrec f - 1) + mag % 2 ^ (fmtPrec f - 1) = mag := Nat.div_add_mod' _ _
  have hfrac : mag % 2 ^ (fmtPrec f - 1) < 2 ^ (fmtPrec f - 1) := Nat.mod_lt _ (Nat.two_pow_pos _)
  have hprec : 2 ^ fmtPrec f = 2 * 2 ^ (fmtPrec f - 1) := by
    rw [← Nat.pow_succ', Nat.succ_eq_add_one, Nat.sub_add_cancel]
    unfold fmtPrec
    split_ifs <;> decide
  have hvalue : fpOf f n = if mag > fmtInf f then .nan else if mag = fmtInf f then .inf neg
      else if mag / 2 ^ (fmtPrec f - 1) = 0 then .fin neg (mag % 2 ^ (fmtPrec f - 1)) (fmtMinLsb f)
      else .fin neg (mag % 2 ^ (fmtPrec f - 1) + 2 ^ (fmtPrec f - 1)) (fmtMinLsb f + (mag / 2 ^ (fmtPrec f - 1) - 1 : Nat)) := by
    simp only [fpOf, hneg, hmag, beq_iff_eq]
  split_ifs at hvalue with hnan hinf hzero
  · exact .inl hvalue
  · exact .inr (.inl ⟨neg, hvalue, hinf ▸ hsigned.symm⟩)
  · rw [hzero, Nat.zero_mul, Nat.zero_add] at hsplit
    refine .inr (.inr ⟨_, _, _, hvalue, by omega, le_rfl, .inr rfl, ?_, ?_⟩) <;> rw [sub_self, Int.toNat_zero, Nat.zero_mul, Nat.zero_add, hsplit]
    · omega
    · exact hsigned.symm
  · have hcode : (fmtMinLsb f + (mag / 2 ^ (fmtPrec f - 1) - 1 : Nat) - fmtMinLsb f).toNat * 2 ^ (fmtPrec f - 1) +
        (mag % 2 ^ (fmtPrec f - 1) + 2 ^ (fmtPrec f - 1)) = mag := by
      rw [add_sub_cancel_left, Int.toNat_natCast, Nat.sub_mul, Nat.one_mul]
      have := Nat.le_mul_of_pos_left (2 ^ (fmtPrec f - 1)) (Nat.pos_of_ne_zero hzero)
      omega
    refine .inr (.inr ⟨_, _, _, hvalue, by omega, by omega, .inl (Nat.le_add_left _ _), ?_, ?_⟩) <;> rw [hcode]
    · omega
    · exact hsigned.symm

/-! ## Rounding what a format holds (R124) -/

/-- A value's leading bit has one place, whatever exponent the value is written with. -/
theorem log2_add_eq {m n : Nat} {e g : Int} (hm : m ≠ 0) (hn : n ≠ 0) (h : (m : ℚ) * 2 ^ e = n * 2 ^ g) : e + m.log2 = g + n.log2 := by
  have hbounds (m : Nat) (hm : m ≠ 0) (e : Int) : (2 : ℚ) ^ (e + m.log2) ≤ m * 2 ^ e ∧ (m : ℚ) * 2 ^ e < 2 ^ (e + m.log2 + 1) := by
    have hpow : (0 : ℚ) < 2 ^ e := zpow_pos two_pos e
    have hlo : (2 ^ m.log2 : ℚ) ≤ m := by exact_mod_cast Nat.log2_self_le hm
    have hhi : (m : ℚ) < 2 ^ (m.log2 + 1) := by exact_mod_cast Nat.lt_log2_self
    rw [add_assoc, zpow_add₀ two_ne_zero, zpow_add₀ two_ne_zero, mul_comm, mul_comm (_ ^ e)]
    exact ⟨mul_le_mul_of_nonneg_right (by exact_mod_cast hlo) hpow.le, mul_lt_mul_of_pos_right (by exact_mod_cast hhi) hpow⟩
  obtain ⟨hmlo, hmhi⟩ := hbounds m hm e
  obtain ⟨hnlo, hnhi⟩ := hbounds n hn g
  rw [h] at hmlo hmhi
  have h1 := (zpow_lt_zpow_iff_right₀ one_lt_two).1 (hmlo.trans_lt hnhi)
  have h2 := (zpow_lt_zpow_iff_right₀ one_lt_two).1 (hnlo.trans_lt hmhi)
  omega

/-- Rounding to the place of a value's last bit loses nothing. -/
theorem roundMag_exact {rm bits : Nat} {neg : Bool} {m n : Nat} {e g : Int} (h : (m : ℚ) * 2 ^ e = n * 2 ^ g) :
    roundMag rm bits neg m e g = n := by
  unfold roundMag
  split
  next hle =>
    rw [zpow_split hle, ← mul_assoc] at h
    exact_mod_cast mul_right_cancel₀ (zpow_pos two_pos g).ne' h
  next hlt =>
    rw [zpow_split (not_le.1 hlt).le, ← mul_assoc] at h
    have hm : m = n * 2 ^ (g - e).toNat := by exact_mod_cast mul_right_cancel₀ (zpow_pos two_pos e).ne' h
    simp [hm, roundsUp]

/-- A value that a code of the format holds rounds to that code, under every mode. -/
theorem HoldsCode.roundFp {f c : Nat} {neg : Bool} {n : Nat} {g : Int} (h : HoldsCode f c neg n g) {rm bits m : Nat} {e : Int}
    (hn : n ≠ 0) (hval : (m : ℚ) * 2 ^ e = n * 2 ^ g) : roundFp f rm bits (.fin neg m e) = c := by
  have hm : m ≠ 0 := by
    rintro rfl
    rw [Nat.cast_zero, zero_mul, eq_comm, mul_eq_zero, Nat.cast_eq_zero] at hval
    exact hval.elim hn (zpow_ne_zero g two_ne_zero)
  have hprec : fmtPrec f ≠ 0 := by
    unfold fmtPrec
    split_ifs <;> decide
  have hlog : n.log2 ≤ fmtPrec f - 1 := by
    have := (Nat.log2_lt hn).2 h.sig_lt
    omega
  have hlsb : max (e + m.log2 - (fmtPrec f - 1 : Nat)) (fmtMinLsb f) = g := by
    have hle := h.lsb_le
    rw [log2_add_eq hm hn hval]
    rcases h.norm with hnorm | hmin
    · have hlog' : fmtPrec f - 1 ≤ n.log2 := (Nat.le_log2 hn).2 hnorm
      rw [max_eq_left] <;> omega
    · rw [max_eq_right] <;> omega
  rw [Machine.roundFp, if_neg (by simpa using hm)]
  simp only [hlsb, roundMag_exact hval, h.below_inf, if_true]
  exact h.code.symm

/-! ## What FP32 holds (R115) -/

/-- The code of a subnormal value is its significand. -/
theorem fp32_signed_subnormal {neg : Bool} {m : Nat} (hm : m < 2 ^ 23) : fp32 (BitVec.ofNat 32 (signed 0 neg m)) = .fin neg m (-149) := by
  have hcode : (BitVec.ofNat 32 (signed 0 neg m)).toNat = bnat neg * 2 ^ 31 + m := by
    cases neg <;> simp [signed, fmtBits, bnat] <;> omega
  have hsign : (fld (bnat neg * 2 ^ 31 + m) 31 1 == 1) = neg := by
    cases neg <;> simp [fld, bnat] <;> omega
  have hmod : (bnat neg * 2 ^ 31 + m) % 2 ^ 31 = m := by omega
  have hinf : m < fmtInf 0 := by rw [fmtInf_zero]; omega
  rw [fp32, hcode, fpOf]
  simp only [fmtBits, fmtPrec, fmtMinLsb, beq_self_eq_true, if_true, Nat.add_one_sub_one, hsign, hmod, Nat.div_eq_of_lt hm,
    Nat.mod_eq_of_lt hm, hinf.not_gt, hinf.ne, beq_iff_eq, if_false]

theorem fp32_round32_subnormal {rm : Nat} {neg : Bool} {m : Nat} {e : Int} (hm : m ≠ 0) (hlo : -149 ≤ e) (hhi : e + m.log2 < -126) :
    fp32 (round32 rm (.fin neg m e)) = .fin neg (m * 2 ^ (e - -149).toNat) (-149) := by
  have hval : (m : ℚ) * 2 ^ e = (m * 2 ^ (e - -149).toNat : Nat) * 2 ^ (-149 : Int) := by
    rw [zpow_split hlo, ← mul_assoc]
    push_cast
    rfl
  have hlt : m * 2 ^ (e - -149).toNat < 2 ^ 23 :=
    calc m * 2 ^ (e - -149).toNat < 2 ^ (m.log2 + 1) * 2 ^ (e - -149).toNat :=
        Nat.mul_lt_mul_of_pos_right Nat.lt_log2_self (Nat.two_pow_pos _)
      _ = 2 ^ (m.log2 + 1 + (e - -149).toNat) := (Nat.pow_add _ _ _).symm
      _ ≤ 2 ^ 23 := Nat.pow_le_pow_right Nat.two_pos (by omega)
  have hlsb : max (e + m.log2 - 23) (-149) = -149 := max_eq_right (by omega)
  have hround : roundFp 0 rm 0 (.fin neg m e) = signed 0 neg (m * 2 ^ (e - -149).toNat) := by
    rw [roundFp, if_neg (by simpa using hm)]
    simp only [fmtPrec, fmtMinLsb, beq_self_eq_true, if_true, Nat.add_one_sub_one, Nat.cast_ofNat, hlsb, roundMag_exact hval, fmtInf_zero]
    rw [sub_self, Int.toNat_zero, Nat.zero_mul, Nat.zero_add, if_pos (by omega)]
  rw [round32, hround, fp32_signed_subnormal hlt]

/-- FP32 holds every value of at most 24 bits in its range. -/
theorem fp32_round32_val {rm : Nat} {neg : Bool} {m : Nat} {e : Int} (hm : m ≠ 0) (h : m < 2 ^ 24) (hlo : -149 ≤ e)
    (hhi : e + m.log2 ≤ 127) : ∃ n g, fp32 (round32 rm (.fin neg m e)) = .fin neg n g ∧ (n : ℚ) * 2 ^ g = m * 2 ^ e := by
  by_cases hnormal : -126 ≤ e + m.log2
  · exact ⟨_, _, fp32_round32_exact hm h hnormal hhi, normSig_mul_zpow h e⟩
  · refine ⟨_, _, fp32_round32_subnormal hm hlo (not_le.1 hnormal), ?_⟩
    rw [zpow_split hlo, ← mul_assoc]
    push_cast
    rfl

/-- In particular those of BF16 and FP16. -/
theorem HoldsCode.fp32_range {f c : Nat} {neg : Bool} {m : Nat} {e : Int} (hf : f = 1 ∨ f = 2) (h : HoldsCode f c neg m e) (hm : m ≠ 0) :
    m < 2 ^ 24 ∧ -149 ≤ e ∧ e + m.log2 ≤ 127 := by
  have hlog := (Nat.log2_lt hm).2 h.sig_lt
  have hsig := h.sig_lt
  have hlsb := h.lsb_le
  have hnorm := h.norm
  have hinf := h.below_inf
  rcases hf with rfl | rfl <;> norm_num [fmtPrec, fmtMinLsb, fmtInf, fmtExpBits] at hlog hsig hlsb hnorm hinf <;> omega

theorem fp32_round32_signed_zero {rm : Nat} {neg : Bool} {e : Int} : ∃ g, fp32 (round32 rm (.fin neg 0 e)) = .fin neg 0 g := by
  refine ⟨-149, ?_⟩
  rw [round32, roundFp_zero, fp32_signed_subnormal (by decide)]

theorem fp32_round32_inf {rm : Nat} {neg : Bool} : fp32 (round32 rm (.inf neg)) = .inf neg := by
  cases neg
  · exact fp32_infinity
  · exact fp32_neg_infinity

/-- What a format's code becomes on the way through FP32: any NaN the canonical one, and every other code itself. -/
theorem fpOf_roundFp_fp32 {f c rm rm' bits : Nat} (hf : f = 1 ∨ f = 2) (hc : c < 2 ^ 16) :
    fpOf f ((BitVec.ofNat 32 (roundFp f rm bits (fp32 (round32 rm' (fpOf f c))))).toNat % 2 ^ 16) = fpOf f c := by
  have hbits : fmtBits f = 16 := by rcases hf with rfl | rfl <;> rfl
  have hmod : (BitVec.ofNat 32 c).toNat % 2 ^ 16 = c := by
    rw [BitVec.toNat_ofNat]
    omega
  rcases fpOf_cases hbits hc with hnan | ⟨neg, hinf, hcode⟩ | ⟨neg, m, e, hholds⟩
  · rw [hnan]
    rcases hf with rfl | rfl <;> rfl
  · have hround : roundFp f rm bits (fp32 (round32 rm' (.inf neg))) = c := by
      rw [fp32_round32_inf, hcode]
      rfl
    rw [hinf, hround, hmod, hinf]
  · rcases eq_or_ne m 0 with rfl | hm
    · obtain ⟨g, hg⟩ := fp32_round32_signed_zero (rm := rm') (neg := neg) (e := e)
      have hround : roundFp f rm bits (fp32 (round32 rm' (fpOf f c))) = c := by
        have he : e = fmtMinLsb f := hholds.norm.resolve_left (Nat.not_le.2 (Nat.two_pow_pos _))
        rw [hholds.value, hg, roundFp_zero, hholds.code, he, sub_self, Int.toNat_zero, Nat.zero_mul]
      rw [hround, hmod]
    · obtain ⟨hlt, hlo, hhi⟩ := hholds.fp32_range hf hm
      obtain ⟨n, g, hg, hval⟩ := fp32_round32_val (rm := rm') (neg := neg) hm hlt hlo hhi
      have hround : roundFp f rm bits (fp32 (round32 rm' (fpOf f c))) = c := by
        rw [hholds.value, hg]
        exact hholds.roundFp hm hval
      rw [hround, hmod]

end Sys2Proof.Machine
end

section
/-! VPACK's image and VUNPK's reading of one, element by element (R176, R177). -/

namespace Sys2Proof.Machine

/-! ## The table of R176 -/

/-- The width of an element of a packed format (R176). -/
def elemWidth (f : Nat) : Nat := if f = 3 ∨ f = 5 then 8 else if f = 4 ∨ f = 6 then 4 else 16

theorem elemWidth_mul (f : Nat) : 32 / elemWidth f * elemWidth f = 32 := by
  unfold elemWidth
  split_ifs <;> rfl

theorem isDxFmt_iff {f : Nat} : isDxFmt f = true ↔ f = 3 ∨ f = 4 := by simp [isDxFmt]

theorem elemWidth_of_dx {f : Nat} (h : f = 3 ∨ f = 4) : (if f == 3 then 8 else 4) = elemWidth f ∧ scaleLane f = 4 * elemWidth f := by
  rcases h with rfl | rfl <;> exact ⟨rfl, rfl⟩

theorem elemWidth_of_not_dx {f : Nat} (h : ¬ (f = 3 ∨ f = 4)) (hlo : 1 ≤ f) (hhi : f ≤ 7) :
    (if isIntFmt f then intBits f else 16) = elemWidth f := by
  have hf : f = 1 ∨ f = 2 ∨ f = 5 ∨ f = 6 ∨ f = 7 := by omega
  rcases hf with rfl | rfl | rfl | rfl | rfl <;> rfl

theorem two_le_elements (f : Nat) : 2 ≤ 32 / elemWidth f := by
  unfold elemWidth
  split_ifs <;> decide

theorem scaleLane_le (f : Nat) : scaleLane f ≤ 32 := by
  unfold scaleLane
  split <;> decide

theorem elemOf_congr {w : Nat} {y z : Lanes} {n : Nat} (h : lane y (n * w / 32) = lane z (n * w / 32)) : elemOf w y n = elemOf w z n := by
  rw [elemOf, elemOf, h]

/-- Value `n` of the 128 that two vectors hold. -/
def pairLane (a b : Lanes) (n : Nat) : W32 := if n < 64 then lane a n else lane b (n - 64)

theorem getD_lanes_append (a b : Lanes) {n : Nat} (hn : n < 128) : (lanesList a ++ lanesList b).getD n 0 = pairLane a b n := by
  have hlen (x : Lanes) : (lanesList x).length = 64 := by simp [lanesList]
  have hget (x : Lanes) {i : Nat} (hi : i < 64) : (lanesList x).getD i 0 = lane x i := by simp [lanesList, hi]
  unfold pairLane
  split
  next h => rw [List.getD_append _ _ _ _ (hlen a ▸ h), hget a h]
  next h => rw [List.getD_append_right _ _ _ _ (hlen a ▸ not_lt.1 h), hlen, hget b (by omega)]

/-! ## Formats that are not DX -/

section
variable {x : W32} {c : Conv} {a b : Lanes} (hdx : ¬ (c.dst.toNat = 3 ∨ c.dst.toNat = 4)) (hlo : 1 ≤ c.dst.toNat) (hhi : c.dst.toNat ≤ 7)
include hdx hlo hhi

theorem vpack_of_not_dx : vpack x c a b = packCodes (elemWidth c.dst.toNat) ((List.range 128).map fun n =>
    (convElem c.src.toNat c.frS c.dst.toNat c.toS c.rnd.toNat (srBits x (n % 64)) (pairLane a b n).toNat).toNat) := by
  rw [vpack, if_neg (mt isDxFmt_iff.1 hdx), elemWidth_of_not_dx hdx hlo hhi]
  refine congrArg (packCodes _) (List.map_congr_left fun n hn => ?_)
  rw [getD_lanes_append a b (List.mem_range.1 hn)]

theorem elemOf_vpack {n : Nat} (hn : n < 128) : elemOf (elemWidth c.dst.toNat) (vpack x c a b) n =
    (convElem c.src.toNat c.frS c.dst.toNat c.toS c.rnd.toNat (srBits x (n % 64)) (pairLane a b n).toNat).toNat % 2 ^ elemWidth c.dst.toNat := by
  have hper := two_le_elements c.dst.toNat
  rw [vpack_of_not_dx hdx hlo hhi, elemOf_packCodes (elemWidth_mul _) _ (by omega)]
  simp [hn]

theorem lane_vpack_past {j : Nat} (hj : j < 64) (hend : 4 * elemWidth c.dst.toNat ≤ j) : lane (vpack x c a b) j = 0 := by
  rw [vpack_of_not_dx hdx hlo hhi]
  refine lane_packCodes_past (elemWidth_mul _) _ hj ?_
  have hmul := elemWidth_mul c.dst.toNat
  rw [List.length_map, List.length_range]
  calc 128 = 4 * elemWidth c.dst.toNat * (32 / elemWidth c.dst.toNat) := by rw [Nat.mul_assoc, Nat.mul_comm (elemWidth _), hmul]
    _ ≤ j * (32 / elemWidth c.dst.toNat) := Nat.mul_le_mul_right _ hend
end

/-! ## DX formats -/

/-- Block `k` of the 128 values. -/
def packedBlock (x : W32) (f rm : Nat) (a b : Lanes) (k : Nat) : List Nat × Nat :=
  packDx f rm ((List.range 32).map fun j => (pairLane a b (32 * k + j), srBits x ((32 * k + j) % 64)))

section
variable {x : W32} {c : Conv} {a b : Lanes} (hdx : c.dst.toNat = 3 ∨ c.dst.toNat = 4)
include hdx

theorem lane_vpack_dx {i : Nat} (hi : i < 64) : lane (vpack x c a b) i =
    if i = scaleLane c.dst.toNat ∨ i = scaleLane c.dst.toNat + 1 then
      BitVec.ofNat 32 ((packedBlock x c.dst.toNat c.rnd.toNat a b (2 * (i - scaleLane c.dst.toNat))).2 +
        65536 * (packedBlock x c.dst.toNat c.rnd.toNat a b (2 * (i - scaleLane c.dst.toNat) + 1)).2)
    else if i < scaleLane c.dst.toNat then lane (packCodes (elemWidth c.dst.toNat)
      ((List.range 4).flatMap fun k => (packedBlock x c.dst.toNat c.rnd.toNat a b k).1)) i
    else 0 := by
  have hblock : ∀ k < 4, packDx c.dst.toNat c.rnd.toNat
      ((List.range 32).map fun j => ((lanesList a ++ lanesList b).getD (32 * k + j) 0, srBits x ((32 * k + j) % 64))) =
        packedBlock x c.dst.toNat c.rnd.toNat a b k := fun k hk => by
    refine congrArg _ (List.map_congr_left fun j hj => ?_)
    have hj := List.mem_range.1 hj
    rw [getD_lanes_append a b (by omega)]
  have hblocks : (List.range 4).map (fun k => packDx c.dst.toNat c.rnd.toNat
      ((List.range 32).map fun j => ((lanesList a ++ lanesList b).getD (32 * k + j) 0, srBits x ((32 * k + j) % 64)))) =
        (List.range 4).map (packedBlock x c.dst.toNat c.rnd.toNat a b) :=
    List.map_congr_left fun k hk => hblock k (List.mem_range.1 hk)
  rw [vpack, if_pos (isDxFmt_iff.2 hdx)]
  simp only [hblocks, (elemWidth_of_dx hdx).1, List.flatMap_map]
  rw [lane_mk _ hi]
  refine if_ctx_congr (by simp) (fun hscale => ?_) fun _ => rfl
  have hget {k : Nat} (hk : k < 4) : ((List.range 4).map (packedBlock x c.dst.toNat c.rnd.toNat a b)).getD k ([], 0) =
      packedBlock x c.dst.toNat c.rnd.toNat a b k := by simp [hk]
  rw [hget (by omega), hget (by omega)]

theorem elemOf_vpack_dx {n : Nat} (hn : n < 128) : elemOf (elemWidth c.dst.toNat) (vpack x c a b) n =
    (packedBlock x c.dst.toNat c.rnd.toNat a b (n / 32)).1.getD (n % 32) 0 % 2 ^ elemWidth c.dst.toNat := by
  have hlane : n * elemWidth c.dst.toNat / 32 < scaleLane c.dst.toNat := by
    rw [(elemWidth_of_dx hdx).2]
    rcases hdx with h | h <;> rw [h] <;> simp [elemWidth] <;> omega
  have hscale := scaleLane_le c.dst.toNat
  have hper := two_le_elements c.dst.toNat
  rw [elemOf_congr ((lane_vpack_dx hdx (by omega)).trans ((if_neg (by omega)).trans (if_pos hlane))),
    elemOf_packCodes (elemWidth_mul _) _ (by omega), getD_flatMap_range _ (len := 32) (fun k => ?_) 0 hn]
  rw [packedBlock, length_packDx, List.length_map, List.length_range]

theorem scale_vpack_dx {k : Nat} (hk : k < 4) :
    fld (lane (vpack x c a b) (scaleLane c.dst.toNat + k / 2)).toNat (16 * (k % 2)) 16 = (packedBlock x c.dst.toNat c.rnd.toNat a b k).2 % 2 ^ 16 := by
  have hscale := scaleLane_le c.dst.toNat
  have hlt (i : Nat) : (packedBlock x c.dst.toNat c.rnd.toNat a b i).2 < 65536 := packDx_scale_lt _ _ _
  have hlow := hlt (2 * (k / 2))
  have hhigh := hlt (2 * (k / 2) + 1)
  rw [lane_vpack_dx hdx (by omega), if_pos (by omega), Nat.add_sub_cancel_left, BitVec.toNat_ofNat, fld]
  rcases Nat.mod_two_eq_zero_or_one k with h | h
  · have hk : 2 * (k / 2) = k := by omega
    rw [h, hk]
    omega
  · have hk : 2 * (k / 2) + 1 = k := by omega
    rw [h, hk]
    omega

theorem lane_vpack_dx_past {j : Nat} (hj : j < 64) (hend : scaleLane c.dst.toNat + 2 ≤ j) : lane (vpack x c a b) j = 0 := by
  rw [lane_vpack_dx hdx hj, if_neg (by omega), if_neg (by omega)]
end

/-! ## VUNPK (R177) -/

section
variable {c : Conv} {a : Lanes} {j : Nat} (hj : j < 64)
include hj

theorem lane_vunpk_dx (hdx : c.src.toNat = 3 ∨ c.src.toNat = 4) : lane (vunpk c a) j =
    round32 0 (decodeDx c.src.toNat (elemOf (elemWidth c.src.toNat) a (j + 64 * bnat c.half))
      (fld (lane a (scaleLane c.src.toNat + (j + 64 * bnat c.half) / 32 / 2)).toNat (16 * ((j + 64 * bnat c.half) / 32 % 2)) 16)) := by
  rw [vunpk, lane_mk _ hj]
  dsimp only
  rw [if_pos (isDxFmt_iff.2 hdx), (elemWidth_of_dx hdx).1]

theorem lane_vunpk_of_not_dx (hdx : ¬ (c.src.toNat = 3 ∨ c.src.toNat = 4)) (hlo : 1 ≤ c.src.toNat) (hhi : c.src.toNat ≤ 7) : lane (vunpk c a) j =
    convElem c.src.toNat c.frS c.dst.toNat true 0 0 (elemOf (elemWidth c.src.toNat) a (j + 64 * bnat c.half)) := by
  rw [vunpk, lane_mk _ hj]
  dsimp only
  rw [if_neg (mt isDxFmt_iff.1 hdx), elemWidth_of_not_dx hdx hlo hhi]
end

end Sys2Proof.Machine
end

section
/-! Conversions as they land, VCVTT's format entries, and VUNPK of a VPACK image (R113, R126, R173 to R177). -/

namespace Sys2Proof.Machine

/-! ## The stochastic-rounding state (R126) -/

theorem View.srNext_eq (v : View) (rnd : Nat) : v.srNext rnd = if rnd = 4 then srStep v.cl.sr else v.cl.sr := if_congr beq_iff_eq rfl rfl

/-- The state in which a conversion's pops are taken, its rounding state kept, and its lanes are to land. -/
def View.converts (v : View) (s : State) (h : Head) (d : VDst) (as : List VSrc) (rnd : Nat) (x : Lanes) : State :=
  v.land (v.modCl (v.modCl s fun c => c.pop as) fun c => { c with sr := if rnd = 4 then srStep v.cl.sr else v.cl.sr }) 6 1
    (.vec v.cur.cl d (v.active h) x)

theorem View.landV_keepSr (v : View) (s : State) (h : Head) (d : VDst) (as : List VSrc) (rnd : Nat) (x : Lanes) :
    v.landV (v.keepSr (v.modCl s fun c => c.pop as) rnd) 6 h d x = v.converts s h d as rnd x := by
  rw [View.landV, View.keepSr, View.srNext_eq]
  rfl

/-! ## The forms -/

/-- A format entry that VCVTT refuses, by its fields (R175, R192, R193). -/
theorem cvttBad_iff (e : W32) : cvttBad e = true ↔ (e.extractLsb' 0 4).toNat = 3 ∨ (e.extractLsb' 0 4).toNat = 4 ∨
    8 < (e.extractLsb' 0 4).toNat ∨ (e.extractLsb' 4 4).toNat = 3 ∨ (e.extractLsb' 4 4).toNat = 4 ∨ 8 < (e.extractLsb' 4 4).toNat ∨
    e.extractLsb' 10 2 = 3 ∨ e.extractLsb' 12 2 = 3 ∨ 4 < (e.extractLsb' 14 3).toNat := by
  have hthree (x : BitVec 2) : x = 3 ↔ x.toNat = 3 := by
    rw [← BitVec.toNat_inj]
    rfl
  simp only [cvttBad, fld_extract32, isDxFmt, Bool.or_eq_true, beq_iff_eq, decide_eq_true_eq, hthree, or_assoc]

theorem fmtA_eq (e : W32) : fmtA e = ((e.extractLsb' 0 4).toNat, e.getLsbD 8, (e.extractLsb' 14 3).toNat) := by
  rw [fmtA, fld_extract32, fld_extract32]
  rfl

/-- The format entry that VCVTT reads (R113). -/
def View.fmtEntry (v : View) : W32 := vget v.co.fmt v.fmtIndex 0

section
variable {s : State} {v : View} {h : Head} {d : VDst} {a b : VSrc} {cv : Conv} (hv : s.view = some v) (ha : v.affords 3)
include hv ha

theorem exec_vcvt (hr : v.readable [a]) : exec (.vcvt h d a cv) s = .next (v.converts s h d [a] cv.rnd.toNat
    (cvtLanes (v.srNext cv.rnd.toNat) cv.src.toNat cv.frS cv.dst.toNat cv.toS cv.rnd.toNat (v.src a))) := by
  show execVcvt h d a cv s = _
  rw [execVcvt, onV_ok hv hr ha, View.landV_keepSr]

theorem exec_vcvtt (hr : v.readable [a]) (hok : cvttBad v.fmtEntry = false) :
    exec (.vcvtt h d a) s = .next (v.converts s h d [a] (v.fmtEntry.extractLsb' 14 3).toNat
      (cvtLanes (v.srNext (v.fmtEntry.extractLsb' 14 3).toNat) 0 false (v.fmtEntry.extractLsb' 0 4).toNat (v.fmtEntry.getLsbD 8)
        (v.fmtEntry.extractLsb' 14 3).toNat (v.src a))) := by
  show execVcvtt h d a s = _
  rw [View.fmtEntry] at hok
  rw [execVcvtt, withView_some _ hv]
  simp only [View.dry_eq_false hr, hok, affords_exceeds ha, Bool.false_eq_true, if_false, View.landV_keepSr, fmtA_eq, View.fmtEntry]

theorem exec_vpack (hr : v.readable [a, b]) : exec (.vpack h d a b cv) s = .next (v.converts s h d [a, b] cv.rnd.toNat
    (vpack (v.srNext cv.rnd.toNat) cv (v.src a) (v.src b))) := by
  show execVpack h d a b cv s = _
  rw [execVpack, onV_ok hv hr ha, View.landV_keepSr]

theorem exec_vunpk (hr : v.readable [a]) : exec (.vunpk h d a cv) s =
    .next (v.land (v.modCl s fun c => c.pop [a]) 6 1 (.vec v.cur.cl d (v.active h) (vunpk cv (v.src a)))) := by
  show execVunpk h d a cv s = _
  rw [execVunpk, onV_ok hv hr ha]
  rfl
end

/-! ## VUNPK of a VPACK image (R176, R177) -/

theorem intOf_word (sg : Bool) (w : W32) : intOf 8 sg w.toNat = if sg then w.toInt else (w.toNat : Int) := by
  have hlt := w.isLt
  cases sg
  · simp [intOf, intBits]
    omega
  · simp only [intOf, intBits, BitVec.toInt_eq_toNat_cond]
    simp
    split_ifs <;> omega

/-- Clamping keeps a value in range. -/
theorem clampInt_of_mem {f : Nat} {sg : Bool} {z : Int} (h : intMin f sg ≤ z ∧ z ≤ intMax f sg) : clampInt f sg z = z := by
  rw [clampInt, min_eq_right h.2, max_eq_right h.1]

/-- A value in range is read back from its low bits. -/
theorem intOf_ofInt {f : Nat} (hf : f = 5 ∨ f = 6 ∨ f = 7) {sg : Bool} {z : Int} (h : intMin f sg ≤ z ∧ z ≤ intMax f sg) :
    intOf f sg ((BitVec.ofInt 32 z).toNat % 2 ^ elemWidth f) = z := by
  rw [BitVec.toNat_ofInt]
  rcases hf with rfl | rfl | rfl <;> cases sg <;> simp [intMin, intMax, intOf, intBits, elemWidth] at h ⊢ <;> omega

/-- INT8, INT4 and INT16 from INT32. -/
theorem convElem_integers {f : Nat} (hf : f = 5 ∨ f = 6 ∨ f = 7) {sg : Bool} {w : W32} {rm bits : Nat}
    (hw : if sg then -(2 ^ (elemWidth f - 1) : Int) ≤ w.toInt ∧ w.toInt < 2 ^ (elemWidth f - 1) else w.toNat < 2 ^ elemWidth f) :
    convElem f sg 8 true 0 0 ((convElem 8 sg f sg rm bits w.toNat).toNat % 2 ^ elemWidth f) = w := by
  have hint : isIntFmt f = true := by rcases hf with rfl | rfl | rfl <;> rfl
  have hz : intMin f sg ≤ intOf 8 sg w.toNat ∧ intOf 8 sg w.toNat ≤ intMax f sg := by
    rw [intOf_word]
    rcases hf with rfl | rfl | rfl <;> cases sg <;> simp [intMin, intMax, intBits, elemWidth] at hw ⊢ <;> omega
  have hword : BitVec.ofInt 32 (intOf 8 sg w.toNat) = w := by
    rw [intOf_word]
    cases sg
    · simp
    · exact BitVec.ofInt_toInt
  have hwide : intMin 8 true ≤ intOf 8 sg w.toNat ∧ intOf 8 sg w.toNat ≤ intMax 8 true := by
    rcases hf with rfl | rfl | rfl <;> cases sg <;> simp [intMin, intMax, intBits] at hz ⊢ <;> omega
  have hpacked : convElem 8 sg f sg rm bits w.toNat = BitVec.ofInt 32 (intOf 8 sg w.toNat) := by
    rw [convElem, if_pos (by decide), if_pos hint, clampInt_of_mem hz]
  rw [hpacked, convElem, if_pos hint, if_pos (by decide), intOf_ofInt hf hz, clampInt_of_mem hwide, hword]

/-- BF16 and FP16 from FP32. -/
theorem convElem_floats {f : Nat} (hf : f = 1 ∨ f = 2) {w : W32} {bits : Nat} (hw : ∃ c < 2 ^ 16, w = round32 0 (fpOf f c)) :
    convElem f false 0 true 0 0 ((convElem 0 false f false 0 bits w.toNat).toNat % 2 ^ elemWidth f) = w := by
  obtain ⟨c, hc, rfl⟩ := hw
  have hfloat : isIntFmt f = false ∧ fmtBits f = 16 ∧ elemWidth f = 16 := by rcases hf with rfl | rfl <;> decide
  obtain ⟨hint, hbits, hwidth⟩ := hfloat
  have hmod (n : Nat) : n % 2 ^ 16 % 2 ^ 16 = n % 2 ^ 16 := Nat.mod_mod _ _
  have hpacked : convElem 0 false f false 0 bits (round32 0 (fpOf f c)).toNat =
      BitVec.ofNat 32 (roundFp f 0 bits (fp32 (round32 0 (fpOf f c)))) := by
    have hword (w : W32) : w.toNat % 2 ^ fmtBits 0 = w.toNat := Nat.mod_eq_of_lt w.isLt
    rw [convElem, if_neg (by decide), hint, if_neg Bool.false_ne_true, hword]
    rfl
  rw [hpacked, convElem, hint, if_neg Bool.false_ne_true, if_neg (by decide), hwidth, hbits, hmod, fpOf_roundFp_fp32 hf hc]
  rfl

/-! ## The obligation -/

theorem lane_cvtLanes (x : W32) (src : Nat) (frS : Bool) (dst : Nat) (toS : Bool) (rnd : Nat) (a : Lanes) {j : Nat} (hj : j < 64) :
    lane (cvtLanes x src frS dst toS rnd a) j = convElem src frS dst toS rnd (srBits x (j % 64)) (lane a j).toNat := by
  rw [cvtLanes, lane_mk _ hj, Nat.mod_eq_of_lt hj]

theorem mul_bnat (b : Bool) : 64 * bnat b = if b then 64 else 0 := by cases b <;> rfl

/-- The lane of either half that VUNPK reads back (R177). -/
theorem pairLane_half (a b : Lanes) (half : Bool) {j : Nat} (hj : j < 64) : pairLane a b (j + 64 * bnat half) = lane (if half then b else a) j := by
  rw [mul_bnat]
  cases half
  · exact if_pos hj
  · simp [pairLane]

/-- VUNPK of a VPACK image, for the formats that are not DX: each value converted there and back. -/
theorem lane_vunpk_vpack {x : W32} {p u : Conv} {a b : Lanes} (hfmt : u.src = p.dst) (hdx : ¬ (p.dst.toNat = 3 ∨ p.dst.toNat = 4))
    (hlo : 1 ≤ p.dst.toNat) (hhi : p.dst.toNat ≤ 7) {j : Nat} (hj : j < 64) : lane (vunpk u (vpack x p a b)) j =
      convElem p.dst.toNat u.frS u.dst.toNat true 0 0 ((convElem p.src.toNat p.frS p.dst.toNat p.toS p.rnd.toNat
        (srBits x ((j + 64 * bnat u.half) % 64)) (lane (if u.half then b else a) j).toNat).toNat % 2 ^ elemWidth p.dst.toNat) := by
  have hn : j + 64 * bnat u.half < 128 := by
    have := bnat_le_one u.half
    omega
  rw [lane_vunpk_of_not_dx hj (hfmt ▸ hdx) (hfmt ▸ hlo) (hfmt ▸ hhi), hfmt, elemOf_vpack hdx hlo hhi hn, pairLane_half a b u.half hj]

/-- The integer formats from INT32. -/
theorem lane_vunpk_vpack_integer {x : W32} {dst : BitVec 4} {sgn half : Bool} {a b : Lanes}
    (hdst : dst.toNat = 5 ∨ dst.toNat = 6 ∨ dst.toNat = 7) {j : Nat} (hj : j < 64)
    (hw : if sgn then -(2 ^ (elemWidth dst.toNat - 1) : Int) ≤ (lane (if half then b else a) j).toInt ∧
      (lane (if half then b else a) j).toInt < 2 ^ (elemWidth dst.toNat - 1) else (lane (if half then b else a) j).toNat < 2 ^ elemWidth dst.toNat) :
    lane (vunpk { half, rnd := 0, toS := false, frS := sgn, dst := 8, src := dst }
      (vpack x { half := false, rnd := 0, toS := sgn, frS := sgn, dst, src := 8 } a b)) j = lane (if half then b else a) j := by
  have hdx : ¬ (dst.toNat = 3 ∨ dst.toNat = 4) := by omega
  have hrange : 1 ≤ dst.toNat ∧ dst.toNat ≤ 7 := by omega
  rw [lane_vunpk_vpack rfl hdx hrange.1 hrange.2 hj]
  exact convElem_integers hdst hw

/-- BF16 and FP16 from FP32. -/
theorem lane_vunpk_vpack_float {x : W32} {dst : BitVec 4} {half : Bool} {a b : Lanes} (hdst : dst.toNat = 1 ∨ dst.toNat = 2) {j : Nat} (hj : j < 64)
    (hw : ∃ c < 2 ^ 16, lane (if half then b else a) j = round32 0 (fpOf dst.toNat c)) :
    lane (vunpk { half, rnd := 0, toS := false, frS := false, dst := 0, src := dst }
      (vpack x { half := false, rnd := 0, toS := false, frS := false, dst, src := 0 } a b)) j = lane (if half then b else a) j := by
  have hdx : ¬ (dst.toNat = 3 ∨ dst.toNat = 4) := by omega
  have hrange : 1 ≤ dst.toNat ∧ dst.toNat ≤ 7 := by omega
  rw [lane_vunpk_vpack rfl hdx hrange.1 hrange.2 hj]
  exact convElem_floats hdst hw

/-- Settles O10: each conversion lands its lanes element by element, and every value that the packed format holds comes back. -/
theorem vectorConversions : Obligations.VectorConversions := by
  refine ⟨fun s v h d a b cv hv ha => ?_, fun x dst sgn half a b hdst => ?_⟩
  · intro f g sr out conv e fmt rnd fmtB refused width scales bits elem scale
    have hrefused : refused ↔ cvttBad e = true := (cvttBad_iff e).symm
    have hsr (rnd : Nat) : v.srNext rnd = sr rnd := v.srNext_eq rnd
    have hscales (n : Nat) : scales n = scaleLane n := if_congr beq_iff_eq.symm rfl rfl
    have hscale (x : Lanes) (n k : Nat) : scale x n k = fld (lane x (scaleLane n + k / 2)).toNat (16 * (k % 2)) 16 :=
      congrArg (fun l => bits x (l + k / 2) (16 * (k % 2)) 16) (hscales n)
    refine ⟨fun hr => ⟨⟨_, exec_vcvt hv ha hr, fun j hj => ?_⟩, fun hok => ⟨_, exec_vcvtt hv ha hr ?_, fun j hj => ?_⟩, fun hbad => ?_,
      fun hlo hhi => ⟨_, exec_vunpk hv ha hr, fun j hj => ?_⟩⟩, fun hr hlo hhi => ⟨_, exec_vpack hv ha hr, ?_⟩⟩
    · rw [lane_cvtLanes _ _ _ _ _ _ _ hj, hsr]
    · exact Bool.eq_false_iff.2 (mt hrefused.2 hok)
    · rw [lane_cvtLanes _ _ _ _ _ _ _ hj, hsr]
      rfl
    · exact exec_vcvtt_bad hv hr (hrefused.1 hbad)
    · intro n
      have hn : n = j + 64 * bnat cv.half := congrArg (j + ·) (mul_bnat cv.half).symm
      rw [hn]
      by_cases hdx : f = 3 ∨ f = 4
      · rw [if_pos hdx, hscale]
        exact lane_vunpk_dx hj hdx
      · rw [if_neg hdx]
        exact lane_vunpk_of_not_dx hj hdx hlo hhi
    · intro val block
      rw [hsr]
      have hblock (k : Nat) : block k = packedBlock (sr cv.rnd.toNat) g cv.rnd.toNat (v.src a) (v.src b) k := rfl
      by_cases hdx : g = 3 ∨ g = 4
      · rw [if_pos hdx]
        refine ⟨fun n hn => elemOf_vpack_dx hdx hn, fun k hk => ?_, fun j hj hend => lane_vpack_dx_past hdx hj (hscales g ▸ hend)⟩
        rw [hscale]
        exact scale_vpack_dx hdx hk
      · rw [if_neg hdx]
        exact ⟨fun n hn => elemOf_vpack hdx hlo hhi hn, fun j hj hend => lane_vpack_past hdx hlo hhi hj hend⟩
  · intro bits whole wide fits hfits p u j hj
    have hfit : fits (lane (if half then b else a) j) := by
      cases half
      · exact (hfits j hj).1
      · exact (hfits j hj).2
    rcases hdst with rfl | rfl | rfl | rfl | rfl
    · cases sgn <;> exact lane_vunpk_vpack_float (.inl rfl) hj hfit
    · cases sgn <;> exact lane_vunpk_vpack_float (.inr rfl) hj hfit
    · cases sgn <;> exact lane_vunpk_vpack_integer (.inl rfl) hj hfit
    · cases sgn <;> exact lane_vunpk_vpack_integer (.inr (.inl rfl)) hj hfit
    · cases sgn <;> exact lane_vunpk_vpack_integer (.inr (.inr rfl)) hj hfit

end Sys2Proof.Machine
end

section
/-! Accumulator rows and bank states: the checks of a row access and of a bank operand, and what ACALLOC, ACFREE and ACOWN change
(R135, R136, R200 to R203, R219). -/

namespace Sys2Proof.Machine

/-! ## The checks of a row access, in the order of their codes (R135, R136, R252) -/

section
variable {v : View} {s : State} {mode : BankMode} {b r : W64} {f : Nat → Nat → State}

theorem View.onBank_outside {g : Nat → State} (hb : v.st.fp.acc ≤ b.toNat) : v.onBank s b g = v.raise s cBounds b := if_pos hb

theorem View.onBank_inside {g : Nat → State} (hb : b.toNat < v.st.fp.acc) : v.onBank s b g = g b.toNat := if_neg (Nat.not_le.2 hb)

theorem View.onRow_outside (hb : v.st.fp.acc ≤ b.toNat) : v.onRow s mode b r f = v.raise s cBounds b := View.onBank_outside hb

variable (hb : b.toNat < v.st.fp.acc)
include hb

theorem View.onRow_beyond (hr : 64 ≤ r.toNat) : v.onRow s mode b r f = v.raise s cBounds r := by
  rw [View.onRow, View.onBank_inside hb, if_pos hr]

variable (hr : r.toNat < 64)
include hr

theorem View.onRow_otherMode (hm : (v.co.bank b.toNat).mode ≠ mode) : v.onRow s mode b r f = v.raise s cAlloc b := by
  rw [View.onRow, View.onBank_inside hb, if_neg (Nat.not_le.2 hr), if_pos (bne_iff_ne.2 hm)]

variable (hm : (v.co.bank b.toNat).mode = mode)
include hm

theorem View.onRow_owned (ho : (v.co.bank b.toNat).owns r.toNat v.cur.cl = true) : v.onRow s mode b r f = f b.toNat r.toNat := by
  rw [View.onRow, View.onBank_inside hb, if_neg (Nat.not_le.2 hr), if_neg (by simp [hm]), if_neg (by simp [ho])]

theorem View.onRow_notOwned (ho : ¬ (v.co.bank b.toNat).owns r.toNat v.cur.cl = true) : v.onRow s mode b r f = v.raise s cOwner b r.toNat := by
  rw [View.onRow, View.onBank_inside hb, if_neg (Nat.not_le.2 hr), if_neg (by simp [hm]), if_pos (by simp [ho])]

end

/-! ## PARK, UNPARK and ACLD under their guard (R203, R219) -/

section
variable {s : State} {v : View} {h : Head} {d : VDst} {a b : Reg} (hv : s.view = some v) (hg : v.guard h.neg h.g = true)
include hv hg

theorem exec_park_eq {o : OSrc} : exec (.park h o a b) s =
    .next (v.onRow s .parked (v.rs a) (v.rs b) fun bk r => v.store s 4 (.accRow bk r (v.osrc o))) := by
  change execPark h o a b s = _
  rw [execPark, onMX_true hv hg]

theorem exec_unpark_eq : exec (.unpark h d a b) s = .next (v.onRow s .parked (v.rs a) (v.rs b) fun bk r =>
    if (v.co.bank bk).poison then v.raise s cPoison (v.rs a)
    else v.land s 6 2 (.vec v.cur.cl d (BitVec.allOnes 64) (v.co.accRow bk r))) := by
  change execUnpark h d a b s = _
  rw [execUnpark, onMX_true hv hg]

theorem exec_acld_eq {cv : Conv} : exec (.acld h d a b cv) s =
    .next (v.onRow (v.keepSr s cv.rnd.toNat) .allocated (v.rs a) (v.rs b) fun bk r =>
      if (v.co.bank bk).poison && !v.cur.handler then v.raise (v.keepSr s cv.rnd.toNat) cPoison (v.rs a)
      else v.land (v.keepSr s cv.rnd.toNat) 6 3 (.vec v.cur.cl d (BitVec.allOnes 64)
        (cvtLanes (v.srNext cv.rnd.toNat) cv.src.toNat cv.frS cv.dst.toNat cv.toS cv.rnd.toNat (v.co.accRow bk r)))) := by
  change execAcld h d a b cv s = _
  rw [execAcld, withView_some _ hv, if_pos hg]

end

theorem Core.lane_accRow (c : Core) (bk r : Nat) {j : Nat} (hj : j < 64) :
    lane (c.accRow bk r) j = Sparse.get c.acc (bk * 4096 + r * 64 + j) := lane_mk _ hj

/-- Settles O17: each access is `View.onRow` in the bank's state that it needs, whose checks are taken one at a time. -/
theorem accumulatorRowAccesses : Obligations.AccumulatorRowAccesses := by
  intro s v h d o a b cv hv hg bk row bank src sr s' owns
  have hsr : v.srNext cv.rnd.toNat = sr := by
    rw [View.srNext_eq]
    exact if_congr (BitVec.toNat_inj (y := 4)) rfl rfl
  have hkeep : v.keepSr s cv.rnd.toNat = s' := by rw [View.keepSr, hsr]
  have hacld := exec_acld_eq (d := d) (a := a) (b := b) (cv := cv) hv hg
  rw [hkeep, hsr] at hacld
  rw [exec_park_eq hv hg, exec_unpark_eq hv hg, hacld]
  refine ⟨fun hb hr hm ho => ⟨?park, fun hp => ?unpark⟩, fun hb hr hm ho hp => ?acld, fun hb => ?outside, fun hb hr hm => ?notParked,
    fun hb hr hm => ?notAllocated, fun hb hr hm ho => ?parkedOwner, fun hb hr hm ho => ?allocatedOwner, fun hb hr => ?beyond⟩
  case park => rw [View.onRow_owned hb hr hm ho]; rfl
  case unpark =>
    refine ⟨v.co.accRow bk row, ?_, fun j hj => Core.lane_accRow _ _ _ hj⟩
    rw [View.onRow_owned hb hr hm ho, if_neg (Bool.eq_false_iff.1 hp)]
  case acld =>
    refine ⟨cvtLanes sr cv.src.toNat cv.frS cv.dst.toNat cv.toS cv.rnd.toNat (v.co.accRow bk row), ?_, fun j hj => ?_⟩
    · rw [View.onRow_owned hb hr hm ho, if_neg fun hbad => Bool.eq_false_iff.1 hp (Bool.and_elim_left hbad)]
    · rw [lane_cvtLanes _ _ _ _ _ _ _ hj, Core.lane_accRow _ _ _ hj, Nat.mod_eq_of_lt hj]
  case outside => simp only [View.onRow_outside hb]; exact ⟨rfl, rfl, rfl⟩
  case notParked => simp only [View.onRow_otherMode hb hr hm]; exact ⟨rfl, rfl⟩
  case notAllocated => rw [View.onRow_otherMode hb hr hm]; rfl
  case parkedOwner => simp only [View.onRow_notOwned hb hr hm ho]; exact ⟨rfl, rfl⟩
  case allocatedOwner => rw [View.onRow_notOwned hb hr hm ho]; rfl
  case beyond => simp only [View.onRow_beyond hb hr]; exact ⟨rfl, rfl, rfl⟩

/-! ## Bank states (R136, R200 to R202) -/

theorem Core.bank_setBank (c : Core) {k : Nat} (x : AccBank) (hk : k < 32) (j : Nat) :
    (c.setBank k x).bank j = if k = j then x else c.bank j := by
  rw [Core.bank, Core.setBank, vget_vset]
  exact if_congr (and_iff_left hk) rfl rfl

/-- A core whose banks are another's with one of them set has that bank so, and every other as it was. -/
theorem Core.bank_of_banks_eq {c co : Core} {k : Nat} {x : AccBank} (h : c.banks = (co.setBank k x).banks) (hk : k < 32) :
    c.bank k = x ∧ ∀ j, j ≠ k → c.bank j = co.bank j := by
  have hbank (j : Nat) : c.bank j = if k = j then x else co.bank j := by
    rw [← Core.bank_setBank co x hk j, Core.bank, Core.bank, h]
  exact ⟨(hbank k).trans (if_pos rfl), fun j hj => (hbank j).trans (if_neg (Ne.symm hj))⟩

theorem Core.cBusy_iff (c : Core) (k beat : Nat) :
    c.cBusy k beat = true ↔ (∃ n, c.nest = some n ∧ k ∈ n.banks) ∨ ∃ e ∈ c.cbusy, e.1 = k ∧ beat < e.2 := by
  cases hn : c.nest <;> simp [Core.cBusy, hn]

theorem maskNat_eq (f : Nat → Bool) (n : Nat) : allocst.maskNat n f = maskOf.natOfBits f n := by
  induction n with
  | zero => rfl
  | succ n ih => rw [allocst.maskNat, maskOf.natOfBits, ih]

/-- R136: bit `j` of `allocst` says that bank `j` is not Unallocated, bit 32 + `j` that it is Parked. -/
theorem getLsbD_allocst (c : Core) {j : Nat} (hj : j < 32) : (allocst c.banks).getLsbD j = ((c.bank j).mode != .unallocated) ∧
    (allocst c.banks).getLsbD (32 + j) = ((c.bank j).mode == .parked) := by
  obtain ⟨hlt, hlow⟩ := natOfBits_eq (fun i => (vget c.banks i AccBank.zero).mode != .unallocated) 32
  obtain ⟨-, hhigh⟩ := natOfBits_eq (fun i => (vget c.banks i AccBank.zero).mode == .parked) 32
  rw [allocst, maskNat_eq, maskNat_eq, Nat.add_comm, BitVec.getLsbD_ofNat, BitVec.getLsbD_ofNat, Nat.testBit_two_pow_mul_add _ hlt,
    Nat.testBit_two_pow_mul_add _ hlt, if_pos hj, if_neg (by omega), Nat.add_sub_cancel_left, hlow j hj, hhigh j hj,
    decide_eq_true (by omega : j < 64), decide_eq_true (by omega : 32 + j < 64)]
  exact ⟨rfl, rfl⟩

/-- The issuing core as it stands in a state. -/
def View.coreIn (v : View) (s : State) : Option Core := (s.strand? v.cur.sid).bind fun t => t.cores[v.cur.core]?

theorem View.coreIn_of_view {v : View} {s : State} (hv : s.view = some v) : v.coreIn s = some v.co := by
  obtain ⟨-, hst, hco, -⟩ := State.view_eq hv
  rw [View.coreIn, hst]
  exact hco

theorem View.coreIn_modCore {v : View} {s : State} {co : Core} (f : Core → Core) (h : v.coreIn s = some co) :
    v.coreIn (v.modCore s f) = some (f co) := by
  obtain ⟨t, ht, hco⟩ := Option.bind_eq_some_iff.1 h
  obtain ⟨ht', hco'⟩ := View.Found.modCore ⟨ht, hco⟩ fun _ => f
  rw [View.coreIn, View.modCore, ht']
  exact hco'

/-! ## ACALLOC, ACFREE and ACOWN under their guard (R200 to R202) -/

/-- The issuing core with bank `k` as an ACALLOC leaves it. -/
def View.allocated (v : View) (k : Nat) (park : Bool) : Core :=
  v.co.setBank k { v.co.bank k with mode := if park then .parked else .allocated, own := allBands v.st.fp.mask }

/-- The issuing core once an ACALLOC has taken bank `k`, its zeroing and the new `allocst` to come. -/
def View.acallocCore (v : View) (d : Reg) (k : Nat) (zero park : Bool) : Core :=
  let c : Core := { v.co with banks := (v.allocated k park).banks }
  (if zero then c.sched (v.cur.beat + 1) v.rank (.accZero k 0 64) else c).sched (v.cur.beat + 1) (v.ord 3)
    (.scalar v.cur.cl d (allocst (v.allocated k park).banks))

theorem View.acallocCore_banks (v : View) (d : Reg) (k : Nat) (zero park : Bool) :
    (v.acallocCore d k zero park).banks = (v.allocated k park).banks := by
  cases zero <;> rfl

theorem Core.mem_sched (c : Core) (beat ord : Nat) (act : Act) : { beat, ord, act } ∈ (c.sched beat ord act).agenda :=
  (insertTimed_perm _ _).mem_iff.2 List.mem_cons_self

theorem Core.mem_sched_of_mem {c : Core} {e : Timed} (h : e ∈ c.agenda) (beat ord : Nat) (act : Act) : e ∈ (c.sched beat ord act).agenda :=
  (insertTimed_perm _ _).mem_iff.2 (List.mem_cons_of_mem _ h)

section
variable {s : State} {v : View} {h : Head} {d a b : Reg} {zero park : Bool} (hv : s.view = some v) (hg : v.guard h.neg h.g = true)
include hv hg

/-- R135: each raises BOUNDS for a bank at or beyond the footprint's count. -/
theorem exec_bank_outside (hk : v.st.fp.acc ≤ (v.rs a).toNat) :
    ∀ i ∈ ([.acalloc h d a zero park, .acfree h a, .acown h a b] : List Instr), exec i s = .next (v.raise s cBounds (v.rs a)) := by
  have hall : AllRun [.acalloc h d a zero park, .acfree h a, .acown h a b] s fun f : View → Nat → State => onMX h s fun v => v.onBank s (v.rs a) (f v) :=
    .cons _ rfl (.cons _ rfl (.cons _ rfl .nil))
  exact hall.next fun f => by rw [onMX_true hv hg, View.onBank_outside hk]

variable (hk : (v.rs a).toNat < v.st.fp.acc)
include hk

theorem exec_acalloc_taken (hm : (v.co.bank (v.rs a).toNat).mode ≠ .unallocated) :
    exec (.acalloc h d a zero park) s = .next (v.raise s cAlloc (v.rs a)) := by
  change execAcalloc h d a zero park s = _
  rw [execAcalloc, onMX_true hv hg, View.onBank_inside hk, if_pos (bne_iff_ne.2 hm)]

theorem exec_acalloc_free (hm : (v.co.bank (v.rs a).toNat).mode = .unallocated) :
    ∃ t, exec (.acalloc h d a zero park) s = .next t ∧ v.coreIn t = some (v.acallocCore d (v.rs a).toNat zero park) := by
  have hmode : ((v.co.bank (v.rs a).toNat).mode != .unallocated) = false := by simp [hm]
  have hbanks := View.coreIn_modCore (fun c => { c with banks := (v.allocated (v.rs a).toNat park).banks }) (View.coreIn_of_view hv)
  change ∃ t, execAcalloc h d a zero park s = .next t ∧ _
  rw [execAcalloc, onMX_true hv hg, View.onBank_inside hk, hmode, if_neg Bool.false_ne_true]
  refine ⟨_, rfl, ?_⟩
  cases zero with
  | false => exact View.coreIn_modCore _ hbanks
  | true => exact View.coreIn_modCore _ (View.coreIn_modCore _ hbanks)

theorem exec_acfree_free (hm : (v.co.bank (v.rs a).toNat).mode = .unallocated) :
    exec (.acfree h a) s = .next (v.raise s cAlloc (v.rs a)) := by
  change execAcfree h a s = _
  rw [execAcfree, onMX_true hv hg, View.onBank_inside hk, if_pos (by simp [hm])]

theorem exec_acfree_busy (hbusy : v.co.cBusy (v.rs a).toNat v.cur.beat = true) :
    exec (.acfree h a) s = .next (v.raise s cAlloc (v.rs a)) := by
  change execAcfree h a s = _
  rw [execAcfree, onMX_true hv hg, View.onBank_inside hk, if_pos (by simp [hbusy])]

theorem exec_acfree_eq (hm : (v.co.bank (v.rs a).toNat).mode ≠ .unallocated) (hbusy : ¬ v.co.cBusy (v.rs a).toNat v.cur.beat = true) :
    exec (.acfree h a) s = .next (v.modCore s fun c =>
      { (c.setBank (v.rs a).toNat { c.bank (v.rs a).toNat with mode := .unallocated }) with
        pending := c.pending ++ [{ cl := v.cur.cl, claim := none, bank := some (v.rs a).toNat, shadow := v.cur.shadow }] }) := by
  change execAcfree h a s = _
  rw [execAcfree, onMX_true hv hg, View.onBank_inside hk, if_neg (by simp [hm, hbusy])]

theorem exec_acown_free (hm : (v.co.bank (v.rs a).toNat).mode = .unallocated) :
    exec (.acown h a b) s = .next (v.raise s cAlloc (v.rs a)) := by
  change execAcown h a b s = _
  rw [execAcown, onMX_true hv hg, View.onBank_inside hk, if_pos (by simp [hm])]

variable (hm : (v.co.bank (v.rs a).toNat).mode ≠ .unallocated)
include hm

/-- R205: of the clusters of a beat the lowest-numbered has set the masks already. -/
theorem exec_acown_later (hbeat : (v.co.bank (v.rs a).toNat).ownBeat = v.cur.beat + 1) (hh : v.cur.handler = false) :
    exec (.acown h a b) s = .next s := by
  change execAcown h a b s = _
  rw [execAcown, onMX_true hv hg, View.onBank_inside hk, if_neg (by simp [hm]), if_pos (by simp [hbeat, hh])]

theorem exec_acown_eq (hfirst : (v.co.bank (v.rs a).toNat).ownBeat ≠ v.cur.beat + 1 ∨ v.cur.handler = true) :
    exec (.acown h a b) s = .next (v.modCore s fun c => c.setBank (v.rs a).toNat
      { v.co.bank (v.rs a).toNat with
        own := (v.rs b).truncate 16 &&& allBands v.st.fp.mask,
        ownBeat := if v.cur.handler then (v.co.bank (v.rs a).toNat).ownBeat else v.cur.beat + 1 }) := by
  change execAcown h a b s = _
  rw [execAcown, onMX_true hv hg, View.onBank_inside hk, if_neg (by simp [hm]), if_neg (by rcases hfirst with h | h <;> simp [h])]

end

/-- Settles O28: the checks in their order, then the issuing core with the one bank set. -/
theorem accumulatorBankStates : Obligations.AccumulatorBankStates := by
  intro s v h d a b zero park hv hg k x m busy after only
  have honly {c : Core} {y : AccBank} (hk : k < 32) (hc : c.banks = (v.co.setBank k y).banks) : only c y := Core.bank_of_banks_eq hc hk
  have hbusy : v.co.cBusy k v.cur.beat = true ↔ busy := v.co.cBusy_iff k v.cur.beat
  refine ⟨exec_bank_outside hv hg, exec_acalloc_taken hv hg, fun hk hm => ⟨exec_acfree_free hv hg hk hm, exec_acown_free hv hg hk hm⟩,
    fun hk hb => exec_acfree_busy hv hg hk (hbusy.2 hb), fun hk hk32 hm => ?acalloc, fun hk hk32 hm hb => ?acfree,
    exec_acown_later hv hg, fun hk hk32 hm hfirst => ?acown⟩
  case acalloc =>
    obtain ⟨t, ht, hc⟩ := exec_acalloc_free (d := d) (zero := zero) (park := park) hv hg hk hm
    have hbanks := v.acallocCore_banks d k zero park
    refine ⟨t, _, allocst (v.allocated k park).banks, ht, hc, honly hk32 hbanks, Core.mem_sched .., ?_, fun j hj => ?_⟩
    · rintro rfl
      exact Core.mem_sched_of_mem (Core.mem_sched ..) ..
    · rw [← hbanks]
      exact getLsbD_allocst _ hj
  case acfree => exact ⟨_, _, exec_acfree_eq hv hg hk hm (mt hbusy.1 hb), View.coreIn_modCore _ (View.coreIn_of_view hv), honly hk32 rfl, rfl⟩
  case acown => exact ⟨_, _, exec_acown_eq hv hg hk hm hfirst, View.coreIn_modCore _ (View.coreIn_of_view hv), honly hk32 rfl⟩

end Sys2Proof.Machine
end

section
/-! The matrix engine: MGO's checks as it begins a nest, a block step, and what its products add to C (R119, R190, R194 to R197). -/

namespace Sys2Proof.Machine

/-! ## Consecutive keys -/

/-- Consecutive keys with their values, by index. -/
theorem cellsAt_eq_map {α : Type} (d : α) (vs : List α) (b : Nat) :
    cellsAt b vs = (List.range vs.length).map fun n => (b + n, vs.getD n d) := by
  induction vs generalizing b with
  | nil => rfl
  | cons v vs ih =>
    rw [List.length_cons, List.range_succ_eq_map, List.map_cons, List.map_map, cellsAt, ih]
    refine congrArg _ (List.map_congr_left fun n _ => ?_)
    simp [Nat.add_assoc, Nat.add_comm 1 n]

theorem cellsAt_map_range {α : Type} (f : Nat → α) (n b : Nat) :
    cellsAt b ((List.range n).map f) = (List.range n).map fun i => (b + i, f i) := by
  rw [cellsAt_eq_map (f 0), List.length_map, List.length_range]
  exact List.map_congr_left fun i hi => by simp [List.mem_range.1 hi]

/-! ## MGO begins its nest (R194, R196) -/

/-- What MGO refuses with FORMAT: the image, the format entry, the block steps of a reduction, the scales or the micro-orders (R194). -/
def mgoRefuses (m : Sparse 8) (w : W32) : Bool :=
  let e := fmtEntry w
  let d := countProd m 0 (nestRed m)
  let orders := (ordersOf m).map orderOf
  imageBad m || entryBad w || 4096 < d || d != stepsOf (nestK m) ||
    nestScales m != (if e.a == 3 || e.a == 4 then stepsOf (nestK m) else 0) || (ordersOf m).any orderBad ||
    (orders.filter fun o => o.1 == 1 || o.1 == 2).foldl (fun a o => a + o.2) 0 != d || retireBad orders

/-- The block steps that micro-orders count. -/
theorem foldl_snd_eq_sum (os : List (Nat × Nat)) : os.foldl (fun a o => a + o.2) 0 = (os.map (·.2)).sum := by
  rw [← List.foldl_map (f := fun o : Nat × Nat => o.2) (g := fun a n => a + n), foldl_add_eq_sum_add, Nat.add_zero]

theorem mgoRefuses_eq_false {m : Sparse 8} {w : W32} (himage : imageBad m = false) (hentry : entryBad w = false)
    (hd : countProd m 0 (nestRed m) ≤ 4096) (hsteps : countProd m 0 (nestRed m) = stepsOf (nestK m))
    (hscales : nestScales m = if (fmtEntry w).a = 3 ∨ (fmtEntry w).a = 4 then countProd m 0 (nestRed m) else 0)
    (horders : ∀ o ∈ ordersOf m, orderBad o = false)
    (hsum : ((((ordersOf m).map orderOf).filter fun o => o.1 == 1 || o.1 == 2).map (·.2)).sum = countProd m 0 (nestRed m))
    (hretire : retireBad ((ordersOf m).map orderOf) = false) : mgoRefuses m w = false := by
  have horders' : (ordersOf m).any orderBad = false := by simpa using horders
  simp [mgoRefuses, himage, hentry, Nat.not_lt.2 hd, hscales, horders', foldl_snd_eq_sum, hsum, hretire, ← hsteps]

section
variable {s : State} {c : CoreRef} {v : EView}

theorem execMgoStart_eq {cmd : Cmd} {h : Head} {st : Stamp} {cb ca : Bool} {bt a : Byte} (hs : s.startsCmd c .me v cmd)
    (hi : cmd.ins = .mgo h st cb ca bt a) (hn : v.co.nest = none) (hok : mgoRefuses v.co.me.active (vget v.co.fmt cmd.fmt 0) = false)
    (hreach : ∀ b ∈ nestReach v.co.me.active (nestC v.co.me.active) v.st.fp.acc,
      0 ≤ b ∧ b < v.st.fp.acc ∧ (vget (v.banks s) b.toNat AccBank.zero).mode = .allocated)
    (hdraw : v.st.region.exceeds v.x (nestDraw (fmtEntry (vget v.co.fmt cmd.fmt 0))) = false) (hmark : 68 + cmd.fmt ∉ v.co.marks)
    (hplane : v.co.planeBad .me false 0 1024 = none) :
    execMgoStart c s = .next (v.mod (v.took s .me) fun co =>
      { co with nest := some (Nest.begin cmd v.x (vget v.co.fmt cmd.fmt 0) ((ordersOf v.co.me.active).map orderOf)
        (countProd v.co.me.active (nestRed v.co.me.active) (nestLevels v.co.me.active))
        ((nestReach v.co.me.active (nestC v.co.me.active) v.st.fp.acc).map (·.toNat))) }) := by
  have hbounds : ((nestReach v.co.me.active (nestC v.co.me.active) v.st.fp.acc).find? fun b => b < 0 || (v.st.fp.acc : Int) ≤ b) = none :=
    List.find?_eq_none.2 fun b hb => by simp [(hreach b hb).1, (hreach b hb).2.1]
  have hmodes : ((nestReach v.co.me.active (nestC v.co.me.active) v.st.fp.acc).find? fun b =>
      (vget (v.banks (v.took s .me)) b.toNat AccBank.zero).mode != .allocated) = none :=
    List.find?_eq_none.2 fun b hb => by
      have hmode : (vget (v.banks (v.took s .me)) b.toNat AccBank.zero).mode = .allocated := (hreach b hb).2.2
      simp [hmode]
  have hmarks : v.co.marks.find? (· == 68 + cmd.fmt) = none :=
    List.find?_eq_none.2 fun k hk => by simpa using fun h : k = 68 + cmd.fmt => hmark (h ▸ hk)
  rw [execMgoStart, startCmd_eq hs (by rw [hi]; rfl)]
  simp only [mgoRefuses] at hok
  simp only [hn, hok, hbounds, hmodes, EView.draws, hdraw, hmarks, hplane, Option.isSome_none, Option.or_none, Bool.false_eq_true, if_false]

/-! ## A block step (R195 to R197) -/

/-- What a block step's beats read of A and of B (R133, R196). -/
def EView.stepReads (v : EView) (n : Nest) (p : StepPlan) : List (Nat × Claim) :=
  (List.range (stepBeats (fmtEntry n.fmt))).flatMap fun j => [p.a, p.b].map fun k =>
    (v.ref.core, { beat := v.x + j, group := v.co.group k, rd := 256, wr := 0 })

/-- The step's SET order zeroes the C bank as it adds to it (R191). -/
def Nest.zeroes (n : Nest) : Bool := (n.items.headD (1, 0)).1 == 2 && n.fresh

/-- The write of a step that is to come: its products, of the tiles and scales as its first beat reads them (log 22). -/
def EView.stepAdd (v : EView) (n : Nest) (p : StepPlan) (ls : Nat) : Act :=
  .accAdd p.c.toNat n.zeroes n.fmt p.kk (v.co.spadBytes p.a (256 * fmtWidth (fmtEntry n.fmt).a))
    (v.co.spadBytes p.b (256 * fmtWidth (fmtEntry n.fmt).b)) (v.co.spadBytes p.sa ls) (v.co.spadBytes p.sb ls)

theorem execMatrixBlockStep_eq {n : Nest} {p : StepPlan} (hp : p = stepPlan v.co.me.active n) (hv : s.eview c = some v)
    (hn : v.co.nest = some n) (hdue : v.co.stepDue v.x = true) (hfault : v.stepFault s n p (v.stepReads n p) = none)
    (hpoison : v.stepPoison n p n.zeroes = none) : ∃ (items : List (Nat × Nat)) (fresh : Bool) (ls : Nat),
    execMatrixBlockStep c s = .next (v.mod ((s.modStack v.st.stack fun k => { k with steps := k.steps + 1 }).commitClaims c.strand
      (v.stepReads n p)) fun co =>
        { (co.sched (v.x + stepBeats (fmtEntry n.fmt) + 8) engineRank (v.stepAdd n p ls)) with
          nest := some (n.stepped items fresh v.x (v.x + stepBeats (fmtEntry n.fmt)) p) }) := by
  obtain rfl := eview_ref hv
  subst hp
  simp only [EView.stepReads, Nest.zeroes] at hfault hpoison
  simp only [execMatrixBlockStep, hv, hn, hdue, hfault, hpoison, Bool.not_true, Bool.false_eq_true, if_false]
  exact ⟨_, _, _, rfl⟩

end

/-! ## The products of an INT8 step (R119, R195) -/

/-- R115, R195: an 8-bit element is a byte of its block. -/
theorem blockElem_byte (bs : List Byte) (r k : Nat) : blockElem 5 bs r k = (bs.getD (32 * r + k) 0).toNat := by
  have hbyte (l : List Byte) : natOfBytes (l.take 2) % 256 = (l.getD 0 0).toNat := by
    cases l with
    | nil => rfl
    | cons b l => rw [List.take_succ_cons, natOfBytes, Nat.add_mul_mod_self_left, Nat.mod_eq_of_lt b.isLt, List.getD_cons_zero]
  have hdrop : bs.getD (32 * r + k) 0 = (bs.drop (32 * r + k)).getD 0 0 := by simp [List.getD_eq_getElem?_getD]
  have hfld : blockElem 5 bs r k = fld (natOfBytes ((bs.drop ((32 * r + k) * 8 / 8)).take 2)) ((32 * r + k) * 8 % 8) 8 := rfl
  rw [hfld, Nat.mul_div_cancel _ (by decide), Nat.mul_mod_left, fld, pow_zero, Nat.div_one, hdrop, ← hbyte]
  rfl

/-- The value of a byte, signed or not. -/
theorem intOf_byte (sg : Bool) (b : Byte) : intOf 5 sg b.toNat = if sg then b.toInt else (b.toNat : Int) := by
  have hlt := b.isLt
  cases sg
  · simp [intOf, intBits]
    omega
  · simp only [intOf, intBits, BitVec.toInt_eq_toNat_cond]
    simp
    split_ifs <;> omega

theorem foldl_add_eq_sum_int (xs : List Nat) (f : Nat → Int) : xs.foldl (fun z k => z + f k) 0 = (xs.map f).sum := by
  rw [List.sum_eq_foldl, List.foldl_map]

/-- R119: an element of an INT8 step takes the exact sum of its products, wrapping. -/
theorem stepElem_int8 {e : FmtEntry} (ha : e.a = 5) (hb : e.b = 5) (hacc : e.acc = 1) (kk : Nat) (A B sa sb : List Byte) (c : W32) (m col : Nat) :
    stepElem e kk A B sa sb c m col = c + BitVec.ofInt 32 ((List.range kk).map fun k =>
      intOf 5 e.sa (A.getD (32 * m + k) 0).toNat * intOf 5 e.sb (B.getD (32 * col + k) 0).toNat).sum := by
  simp only [stepElem, ha, hb, hacc, blockElem_byte, ← foldl_add_eq_sum_int]
  rfl

/-- A step writes the elements of its bank, and no other key. -/
theorem get_stepBank (acc : Sparse 32) (bank : Nat) (zero : Bool) (w : W32) (kk : Nat) (A B sa sb : List Byte) (i : Nat) :
    Sparse.get (stepBank acc bank zero w kk A B sa sb) i = if bank * 4096 ≤ i ∧ i < bank * 4096 + 4096 then
      stepElem (fmtEntry w) kk A B sa sb (if zero then 0 else Sparse.get acc i) ((i - bank * 4096) / 64) ((i - bank * 4096) % 64)
    else Sparse.get acc i := by
  rw [stepBank, ← cellsAt_map_range (fun i => stepElem (fmtEntry w) kk A B sa sb (if zero then 0 else Sparse.get acc (bank * 4096 + i)) (i / 64) (i % 64)),
    Sparse.get_setAll_run, List.length_map, List.length_range]
  refine ite_congr rfl (fun hi => ?_) fun _ => rfl
  have hlt : i - bank * 4096 < 4096 := by omega
  have hkey : bank * 4096 + (i - bank * 4096) = i := by omega
  simp [hlt, hkey]

theorem Core.acc_apply_accAdd (c : Core) (beat bank : Nat) (zero : Bool) (w : W32) (kk : Nat) (A B sa sb : List Byte) :
    (c.apply beat (.accAdd bank zero w kk A B sa sb)).acc = stepBank c.acc bank zero w kk A B sa sb := by
  rw [Core.apply]

/-- R119, R195: the INT8 products of two blocks added to a bank, its elements zeroed first where the step says so. -/
theorem get_stepBank_int8 (acc : Sparse 32) (bank : Nat) (zero : Bool) {w : W32} (ha : w.extractLsb' 0 4 = 5) (hb : w.extractLsb' 4 4 = 5)
    (hacc : w.extractLsb' 10 2 = 1) (kk : Nat) (A B : List Byte) {m col : Nat} (hm : m < 64) (hcol : col < 64) :
    Sparse.get (stepBank acc bank zero w kk A B [] []) (bank * 4096 + 64 * m + col) =
      (if zero then 0 else Sparse.get acc (bank * 4096 + 64 * m + col)) + BitVec.ofInt 32 ((List.range kk).map fun k =>
        intOf 5 (w.getLsbD 8) (A.getD (32 * m + k) 0).toNat * intOf 5 (w.getLsbD 9) (B.getD (32 * col + k) 0).toNat).sum := by
  have ha' : (fmtEntry w).a = 5 := (fld_extract32 w 0 4).trans (congrArg BitVec.toNat ha)
  have hb' : (fmtEntry w).b = 5 := (fld_extract32 w 4 4).trans (congrArg BitVec.toNat hb)
  have hacc' : (fmtEntry w).acc = 1 := (fld_extract32 w 10 2).trans (congrArg BitVec.toNat hacc)
  have hrow : (bank * 4096 + 64 * m + col - bank * 4096) / 64 = m := by omega
  have hcol' : (bank * 4096 + 64 * m + col - bank * 4096) % 64 = col := by omega
  rw [get_stepBank, if_pos (by omega), hrow, hcol', stepElem_int8 ha' hb' hacc']
  rfl

/-! ## The obligation -/

/-- Settles O37: the nest that MGO's checks let begin, the step that nothing forbids, and the products element by element. -/
theorem matrixNestsAndSteps : Obligations.MatrixNestsAndSteps := by
  refine ⟨fun s c v cmd h st cb ca bt a hs hi => ?mgo, fun s c v n hv hn hdue => ?step, fun co beat bank kk zero w A B _ _ _ ha hb hacc => ?product⟩
  case mgo =>
    intro m w d orders dx hn himage hentry hd hsteps hdx hndx horders hsum hretire hreach hdraw hmark hplane
    have hscales : nestScales m = if dx then d else 0 := by
      by_cases h : dx
      · rw [if_pos h, hdx h]
      · rw [if_neg h, hndx h]
    exact ⟨_, execMgoStart_eq hs hi hn (mgoRefuses_eq_false himage hentry hd hsteps hscales horders hsum hretire) hreach hdraw hmark hplane,
      rfl, rfl, rfl, rfl, rfl, rfl, rfl, rfl, rfl⟩
  case step =>
    intro e d p zero new hfault hpoison
    obtain rfl := eview_ref hv
    obtain ⟨items, fresh, ls, hstep⟩ := execMatrixBlockStep_eq rfl hv hn hdue hfault hpoison
    exact ⟨_, _, _, hstep, rfl, rfl, rfl, rfl, rfl⟩
  case product =>
    intro byte t
    have ht : t.acc = stepBank co.acc bank zero w kk A B [] [] := co.acc_apply_accAdd ..
    have hbyte (sg : Bool) (bs : List Byte) (i : Nat) : byte sg bs i = intOf 5 sg (bs.getD i 0).toNat := (intOf_byte sg _).symm
    refine ⟨fun m hm col hcol => ?_, fun i hi => ?_⟩
    · simp only [ht, hbyte]
      exact get_stepBank_int8 co.acc bank zero ha hb hacc kk A B hm hcol
    · rw [ht, get_stepBank, if_neg (by omega)]

end Sys2Proof.Machine
end

section
/-! The table and rule engines: loads and their replacement, RSTEP, its snapshot and the cells of a generation (R207 to R213). -/

namespace Sys2Proof.Machine

/-! ## Loads as they begin and end (R207, R209) -/

/-- A read whose range is aligned and in the banks, whose lines fit beside the claims that stand, and whose draw the region allows,
begins. -/
theorem EView.load_draws {v : EView} {cmd : Cmd} {n lines lvl : Nat} (s : State) (hn : 0 < n) (halign : cmd.val.toNat % 64 = 0)
    (hin : cmd.val.toNat + n ≤ v.st.fp.banks * 2 ^ 17) (hfits : v.st.fits (v.reads cmd lines) = true) (hdraw : v.st.region.exceeds v.x lvl = false) :
    v.load s cmd n lines lvl none id = v.mod (s.commitClaims v.ref.strand (v.reads cmd lines)) fun c =>
      { c with loads := c.loads ++ [{ cmd, start := v.x, addr := cmd.val.toNat, lines, got := [], seen := [] }] } := by
  have hspad : v.st.fp.spadOk cmd.val.toNat n = true := by
    simp [Footprint.spadOk]; omega
  have hfits' : (!v.st.fits (v.reads cmd lines)) = false := by simp [hfits]
  simp only [EView.reads] at hfits' ⊢
  simp [EView.load, halign, hspad, hfits', EView.draws, hdraw]

section
variable {s : State} {c : CoreRef} {v : EView} {cmd : Cmd} {h : Head} {st : Stamp} {g : Reg} {ck : Bool} {tag : Byte} {tb : BitVec 2}

theorem execTloadStart_eq (hs : s.startsCmd c .te v cmd) (hi : cmd.ins = .tload h st g ck tag tb) (halign : cmd.val.toNat % 64 = 0)
    (hin : cmd.val.toNat + 1152 ≤ v.st.fp.banks * 2 ^ 17) (hfits : v.st.fits (v.reads cmd 18) = true)
    (hdraw : v.st.region.exceeds v.x 6 = false) :
    execTloadStart c s = .next (v.mod ((v.took s .te).commitClaims v.ref.strand (v.reads cmd 18)) fun co =>
      { co with loads := co.loads ++ [{ cmd, start := v.x, addr := cmd.val.toNat, lines := 18, got := [], seen := [] }] }) := by
  rw [execTloadStart, startCmd_eq hs (by rw [hi]; rfl), EView.load_draws _ (by decide) halign hin hfits hdraw]

theorem execRloadStart_eq (hs : s.startsCmd c .re v cmd) (hi : cmd.ins = .rload h st g ck tag) (halign : cmd.val.toNat % 64 = 0)
    (hin : cmd.val.toNat + 4096 ≤ v.st.fp.banks * 2 ^ 17) (hfits : v.st.fits (v.reads cmd 64) = true)
    (hdraw : v.st.region.exceeds v.x 6 = false) (hidle : v.co.rstep = none) :
    execRloadStart c s = .next (v.mod ((v.took s .re).commitClaims v.ref.strand (v.reads cmd 64)) fun co =>
      { co with loads := co.loads ++ [{ cmd, start := v.x, addr := cmd.val.toNat, lines := 64, got := [], seen := [] }] }) := by
  have hpre : (if v.co.rstep.isSome then some cSchedule else none) = none := by rw [hidle]; rfl
  rw [execRloadStart, startCmd_eq hs (by rw [hi]; rfl), hpre, EView.load_draws _ (by decide) halign hin hfits hdraw]

/-- An active plane with values written from an offset on. -/
def replaceRun (ofs : Nat) (bs : List Byte) (m : Sparse 8) : Sparse 8 := Sparse.setAll m (cellsAt ofs bs)

theorem execTloadReplace_eq {l : Load} (hv : s.eview c = some v) (hl : v.co.endedLoad isTload v.x = some l)
    (hi : l.cmd.ins = .tload h st g ck tag tb) (hhead : headerOk (Sparse.setAll [] (cellsAt 0 (l.got.take 1092))) 0 = true) :
    execTloadReplace c s = .next (v.mod (v.mod s fun co => { co with loads := co.loads.filter fun m => m != l }) fun co =>
      (co.modEng .te fun g => { g with active := replaceRun (0x480 * tb.toNat) (l.got.take 1092) g.active }).healPlane .te false
        (0x480 * tb.toNat) 1092) := by
  simp only [execTloadReplace, hv, hl, hi, hhead, if_true]
  rfl

theorem execRloadReplace_eq {l : Load} (hv : s.eview c = some v) (hl : v.co.endedLoad isRload v.x = some l) :
    execRloadReplace c s = .next (v.mod (v.mod s fun co => { co with loads := co.loads.filter fun m => m != l }) fun co =>
      { ((co.modEng .re fun g => { g with active := replaceRun 0 l.got g.active }).healPlane .re false 0 l.got.length) with
        rgc := 0, rstopped := none }) := by
  simp only [execRloadReplace, hv, hl]
  rfl

/-! ## RSTEP begins or goes on (R211, R213) -/

theorem execRstepStart_eq {w : RWord} (hs : s.startsCmd c .re v cmd) (hw : rword cmd.ins = some w) (hplane : w.plane < v.st.fp.planes)
    (hcheq : w.cheq = true → w.alt = 0) (hsync : w.cheq = false → w.alt < v.st.fp.planes ∧ w.alt ≠ w.plane)
    (hidle : v.co.working .re = false) (hbound : boundaryBad cmd.val w.nb w.gens = false) (hdraw : v.st.region.exceeds v.x 9 = false)
    (hgo : 0 < v.co.rgc → ∃ r, v.co.rstopped = some r ∧ rword r.cmd.ins = some w ∧ r.cmd.val = cmd.val ∧ v.co.rgc < w.gens) :
    execRstepStart c s = .next (v.mod (v.took s .re) fun co =>
      { co with rstep := some { cmd, start := v.x, from_ := v.co.rgc, gen := v.co.rgc, snap := none, copyAt := none }, rstopped := none }) := by
  have halt : (decide (v.st.fp.planes ≤ w.alt) && !w.cheq) = false := by
    cases hc : w.cheq with
    | true => simp
    | false => simpa using (hsync hc).1
  have hsame : (if w.cheq then w.alt != 0 else w.alt == w.plane) = false := by
    cases hc : w.cheq with
    | true => simpa using hcheq hc
    | false => simpa using (hsync hc).2
  rw [execRstepStart, startCmd_eq hs (by simp [hw])]
  simp only [hw, Nat.not_le.2 hplane, halt, hidle, hsame, hbound, EView.draws, hdraw, Bool.false_or, Bool.false_eq_true, if_false]
  rcases Nat.eq_zero_or_pos v.co.rgc with hzero | hpos
  · simp [hzero]
  · obtain ⟨r, hr, hword, hval, hlt⟩ := hgo hpos
    simp [hr, hword, hval, Nat.not_le.2 hlt]

end

/-! ## Cells of a word of a plane (R208) -/

/-- A cell's bits of the words of a plane. -/
def wordCell (bits : Nat) (m : Nat → W32) (i c : Nat) : Nat := fld (m (64 * i + c * bits / 32)).toNat (c * bits % 32) bits

theorem tileCell_eq (rows : List W32) (bits i c : Nat) : tileCell rows bits i c = wordCell bits (fun n => rows.getD n 0) i c := rfl

/-- The cells in a word. -/
def rulePer (nb : Nat) : Nat := 32 / ruleBits nb

theorem ruleBits_cases (nb : Nat) : ruleBits nb = 1 ∨ ruleBits nb = 2 ∨ ruleBits nb = 4 := by
  unfold ruleBits
  split
  · exact .inl rfl
  · split
    · exact .inr (.inl rfl)
    · exact .inr (.inr rfl)

theorem ruleBits_pos (nb : Nat) : 0 < ruleBits nb := by
  rcases ruleBits_cases nb with h | h | h <;> omega

theorem rulePer_mul_bits (nb : Nat) : rulePer nb * ruleBits nb = 32 := by
  rcases ruleBits_cases nb with h | h | h <;> simp [rulePer, h]

theorem rulePer_pos (nb : Nat) : 0 < rulePer nb := by
  rcases ruleBits_cases nb with h | h | h <;> simp [rulePer, h]

theorem ruleCols_eq (nb : Nat) : 2048 / ruleBits nb = 64 * rulePer nb := by
  rcases ruleBits_cases nb with h | h | h <;> simp [rulePer, h]

/-- A cell lies whole in one word of its row. -/
theorem wordCell_ruleBits (nb : Nat) (m : Nat → W32) (i c : Nat) : wordCell (ruleBits nb) m i c =
    fld (m (64 * i + c / rulePer nb)).toNat (ruleBits nb * (c % rulePer nb)) (ruleBits nb) := by
  have hword : c * ruleBits nb / 32 = c / rulePer nb := by rw [← rulePer_mul_bits nb, Nat.mul_div_mul_right _ _ (ruleBits_pos nb)]
  have hbit : c * ruleBits nb % 32 = ruleBits nb * (c % rulePer nb) := by rw [← rulePer_mul_bits nb, Nat.mul_mod_mul_right, Nat.mul_comm]
  rw [wordCell, hword, hbit]

theorem ruleBits_mul_add_le {nb c : Nat} : ruleBits nb * (c % rulePer nb) + ruleBits nb ≤ 32 := by
  have hlt : c % rulePer nb < rulePer nb := Nat.mod_lt _ (rulePer_pos nb)
  calc ruleBits nb * (c % rulePer nb) + ruleBits nb = ruleBits nb * (c % rulePer nb + 1) := (Nat.mul_succ ..).symm
    _ ≤ ruleBits nb * rulePer nb := Nat.mul_le_mul_left _ hlt
    _ = 32 := by rw [Nat.mul_comm, rulePer_mul_bits]

/-! ## Words made of digits -/

/-- A word of digits that are in range. -/
def digitWord (w : Nat) (f : Nat → Nat) (per : Nat) : W32 := BitVec.ofNat 32 (((List.range per).map fun j => f j * 2 ^ (w * j)).foldl (· + ·) 0)

theorem fld_digitWord {w per : Nat} (hw : per * w = 32) {f : Nat → Nat} (hf : ∀ j, f j < 2 ^ w) {j : Nat} (hj : j < per) :
    fld (digitWord w f per).toNat (w * j) w = f j := by
  have hsum : ((List.range per).map fun j => f j * 2 ^ (w * j)).foldl (· + ·) 0 = packDigits w f per := by
    rw [List.foldl_map, packDigits]
    simp only [Nat.mod_eq_of_lt (hf _)]
  have hlt := packDigits_lt w f per
  rw [Nat.mul_comm, hw] at hlt
  rw [digitWord, hsum, BitVec.toNat_ofNat, Nat.mod_eq_of_lt hlt, fld_packDigits w f hj, Nat.mod_eq_of_lt (hf j)]

/-! ## The cells of a generation (R208, R212) -/

/-- A cell after a generation: in CHEQ one of the other parity keeps its code, and every other takes its table's entry. -/
def generationCell (rows : List W32) (tbl : Sparse 8) (nb : Nat) (w : W64) (cheq : Bool) (j i c : Nat) : Nat :=
  if cheq && (i + c) % 2 != j % 2 then tileCell rows (ruleBits nb) i c else (Sparse.get tbl (ruleIndex rows nb w i c)).toNat % 2 ^ ruleBits nb

section
variable {rows : List W32} {tbl : Sparse 8} {nb : Nat} {w : W64} {cheq : Bool} {j i c : Nat}

theorem generationCell_lt : generationCell rows tbl nb w cheq j i c < 2 ^ ruleBits nb := by
  unfold generationCell
  split
  · exact fld_lt ..
  · exact Nat.mod_lt _ (Nat.two_pow_pos _)

theorem generation_eq : generation rows tbl nb w cheq j = (List.range 4096).map fun n =>
    digitWord (ruleBits nb) (fun b => generationCell rows tbl nb w cheq j (n / 64) (n % 64 * rulePer nb + b)) (rulePer nb) := rfl

theorem length_generation : (generation rows tbl nb w cheq j).length = 4096 := by
  rw [generation_eq, List.length_map, List.length_range]

theorem getD_generation {n : Nat} (hn : n < 4096) : (generation rows tbl nb w cheq j).getD n 0 =
    digitWord (ruleBits nb) (fun b => generationCell rows tbl nb w cheq j (n / 64) (n % 64 * rulePer nb + b)) (rulePer nb) := by
  rw [generation_eq]
  simp [hn]

/-- The word of row `i` that holds cell `c`, and the cell's place in it. -/
theorem word_of_cell (hi : i < 64) (hc : c < 2048 / ruleBits nb) : 64 * i + c / rulePer nb < 4096 ∧ (64 * i + c / rulePer nb) / 64 = i ∧
    (64 * i + c / rulePer nb) % 64 * rulePer nb + c % rulePer nb = c := by
  rw [ruleCols_eq] at hc
  have hword : c / rulePer nb < 64 := Nat.div_lt_of_lt_mul (by rwa [Nat.mul_comm])
  refine ⟨by omega, ?_, ?_⟩
  · rw [Nat.mul_add_div (by decide), Nat.div_eq_of_lt hword, Nat.add_zero]
  · rw [Nat.mul_add_mod, Nat.mod_eq_of_lt hword, Nat.div_add_mod']

theorem wordCell_generation (hi : i < 64) (hc : c < 2048 / ruleBits nb) :
    wordCell (ruleBits nb) (fun n => (generation rows tbl nb w cheq j).getD n 0) i c = generationCell rows tbl nb w cheq j i c := by
  obtain ⟨hn, hrow, hcol⟩ := word_of_cell hi hc
  rw [wordCell_ruleBits, getD_generation hn, fld_digitWord (rulePer_mul_bits nb) (fun _ => generationCell_lt) (Nat.mod_lt _ (rulePer_pos nb)), hrow, hcol]

end

/-! ## A binary Moore neighbourhood away from the edges (R208) -/

theorem ruleCell_inside (rows : List W32) (nb : Nat) (w : W64) {i c : Nat} (hi : i < 64) (hc : c < 2048 / ruleBits nb) :
    ruleCell rows (ruleBits nb) w i c = tileCell rows (ruleBits nb) i c := by
  have hcols : (2048 : Int) / (ruleBits nb : Int) = ((2048 / ruleBits nb : Nat) : Int) := by norm_cast
  have hrow : ((i : Int).emod 64).toNat = i := by
    rw [show (i : Int).emod 64 = ((i % 64 : Nat) : Int) from rfl, Int.toNat_natCast, Nat.mod_eq_of_lt hi]
  have hcol : ((c : Int).emod ((2048 / ruleBits nb : Nat) : Int)).toNat = c := by
    rw [show (c : Int).emod _ = ((c % (2048 / ruleBits nb) : Nat) : Int) from rfl, Int.toNat_natCast, Nat.mod_eq_of_lt hc]
  have hnorth : ¬ (i : Int) < 0 := by omega
  have hsouth : ¬ (64 : Int) ≤ i := by omega
  have hwest : ¬ (c : Int) < 0 := by omega
  have heast : ¬ ((2048 / ruleBits nb : Nat) : Int) ≤ c := by exact_mod_cast Nat.not_le.2 hc
  simp only [ruleCell, hcols, hrow, hcol, hnorth, hsouth, hwest, heast, if_false]

theorem toNat_getLsbD (x : W32) (n : Nat) : (x.getLsbD n).toNat = fld x.toNat n 1 := Nat.toNat_testBit ..

/-- A cell of one bit. -/
theorem wordCell_one (m : Nat → W32) (i c : Nat) : wordCell 1 m i c = ((m (64 * i + c / 32)).getLsbD (c % 32)).toNat := by
  rw [toNat_getLsbD, wordCell, Nat.mul_one]

/-- The nine cells about a cell, row by row, the first of them the highest bit. -/
theorem ruleIndex_moore (rows : List W32) (w : W64) {i c : Nat} (hi : 1 ≤ i) (hi' : i < 63) (hc : 1 ≤ c) (hc' : c < 2047) :
    let cell (i c : Nat) : Nat := wordCell 1 (fun n => rows.getD n 0) i c
    ruleIndex rows 0 w i c = [cell (i - 1) (c - 1), cell (i - 1) c, cell (i - 1) (c + 1), cell i (c - 1), cell i c, cell i (c + 1),
      cell (i + 1) (c - 1), cell (i + 1) c, cell (i + 1) (c + 1)].foldl (fun a x => 2 * a + x) 0 := by
  intro cell
  have hcell (y x : Nat) (hy : y < 64) (hx : x < 2048) : ruleCell rows (ruleBits 0) w y x = cell y x := ruleCell_inside rows 0 w hy hx
  have hup : (i : Int) + -1 = ((i - 1 : Nat) : Int) := by omega
  have hleft : (c : Int) + -1 = ((c - 1 : Nat) : Int) := by omega
  have hdown : (i : Int) + 1 = ((i + 1 : Nat) : Int) := rfl
  have hright : (c : Int) + 1 = ((c + 1 : Nat) : Int) := rfl
  simp only [ruleIndex, beq_self_eq_true, if_true, hup, hleft, hdown, hright, Int.add_zero, pow_one, Nat.mul_comm _ 2]
  rw [hcell (i - 1) (c - 1) (by omega) (by omega), hcell (i - 1) c (by omega) (by omega), hcell (i - 1) (c + 1) (by omega) (by omega),
    hcell i (c - 1) (by omega) (by omega), hcell i c (by omega) (by omega), hcell i (c + 1) (by omega) (by omega),
    hcell (i + 1) (c - 1) (by omega) (by omega), hcell (i + 1) c (by omega) (by omega), hcell (i + 1) (c + 1) (by omega) (by omega)]

/-! ## What a generation writes (R212) -/

/-- The bits that a mask names, of the words that follow from a key on, written over what stands there. -/
def Sparse.setMasked (m : Sparse 32) (cells : List (Nat × W32 × W32)) : Sparse 32 :=
  cells.foldl (fun m e => Sparse.set m e.1 ((Sparse.get m e.1 &&& ~~~e.2.1) ||| (e.2.2 &&& e.2.1))) m

theorem Sparse.get_setMasked (mask : Nat → W32) (k : Nat) (vs : List W32) (m : Sparse 32) (b : Nat) :
    Sparse.get (Sparse.setMasked m ((cellsAt b vs).map fun e => (e.1, mask e.1, e.2))) k =
      if b ≤ k ∧ k < b + vs.length then (Sparse.get m k &&& ~~~mask k) ||| (vs.getD (k - b) 0 &&& mask k) else Sparse.get m k := by
  induction vs generalizing m b with
  | nil =>
    rw [List.length_nil, if_neg (by omega)]
    rfl
  | cons v vs ih =>
    rw [cellsAt, List.map_cons, Sparse.setMasked, List.foldl_cons, ← Sparse.setMasked, ih, Sparse.get_set, List.length_cons]
    rcases Nat.lt_trichotomy k b with hlt | rfl | hgt
    · rw [if_neg (by omega), if_neg (by omega), if_neg (by omega)]
    · rw [if_neg (by omega), if_pos rfl, if_pos (by omega), Nat.sub_self, List.getD_cons_zero]
    · rw [if_neg (Nat.ne_of_gt hgt), show k - b = k - (b + 1) + 1 by omega, List.getD_cons_succ]
      exact if_congr (by omega) rfl rfl

/-- The bits of word `n` that hold cells of a generation's parity. -/
def parityMask (nb j n : Nat) : W32 := digitWord (ruleBits nb)
  (fun b => if (n / 64 + n % 64 * rulePer nb + b) % 2 == j % 2 then 2 ^ ruleBits nb - 1 else 0) (rulePer nb)

theorem ruleAct_cheq {w : RWord} (hw : w.cheq = true) (j : Nat) (new : List W32) : ruleAct w j new =
    .ruled (w.target j) ((cellsAt (w.target j * 4096) new).map fun e => (e.1, parityMask w.nb j (e.1 % 4096), e.2)) := by
  simp only [ruleAct, hw, if_true, parityMask, digitWord, ite_mul, Nat.zero_mul]
  rfl

theorem ruleAct_sync {w : RWord} (hw : w.cheq = false) (j : Nat) (new : List W32) :
    ruleAct w j new = .plane (w.target j) (cellsAt (w.target j * 4096) new) := by
  simp only [ruleAct, hw, Bool.false_eq_true, if_false]

/-- The planes once a generation's result is written. -/
def ruledPlanes (w : RWord) (j : Nat) (new : List W32) (m : Sparse 32) : Sparse 32 :=
  if w.cheq then Sparse.setMasked m ((cellsAt (w.target j * 4096) new).map fun e => (e.1, parityMask w.nb j (e.1 % 4096), e.2))
  else Sparse.setAll m (cellsAt (w.target j * 4096) new)

theorem Core.apply_ruleAct (co : Core) (x : Nat) (w : RWord) (j : Nat) (new : List W32) :
    co.apply x (ruleAct w j new) = { co with
      planes := ruledPlanes w j new co.planes, planePoison := (co.apply x (ruleAct w j new)).planePoison } := by
  cases hw : w.cheq with
  | true => rw [ruleAct_cheq hw, ruledPlanes, if_pos hw, Core.apply, Sparse.setMasked]
  | false => rw [ruleAct_sync hw, ruledPlanes, if_neg (by simp [hw]), Core.apply]

section
variable {w : RWord} {j : Nat} {new : List W32} (m : Sparse 32) (hlen : new.length = 4096)
include hlen

theorem get_ruledPlanes_sync (hw : w.cheq = false) {i : Nat} (hi : i < 4096) :
    Sparse.get (ruledPlanes w j new m) (w.target j * 4096 + i) = new.getD i 0 := by
  rw [ruledPlanes, if_neg (by simp [hw]), Sparse.get_setAll_run, if_pos (by omega), Nat.add_sub_cancel_left]

/-- No other plane is written. -/
theorem get_ruledPlanes_ne {k : Nat} (hk : k / 4096 ≠ w.target j) : Sparse.get (ruledPlanes w j new m) k = Sparse.get m k := by
  rw [ruledPlanes]
  split
  · rw [Sparse.get_setMasked fun n => parityMask w.nb j (n % 4096), if_neg (by omega)]
  · rw [Sparse.get_setAll_run, if_neg (by omega)]

theorem get_ruledPlanes_cheq (hw : w.cheq = true) {i : Nat} (hi : i < 4096) : Sparse.get (ruledPlanes w j new m) (w.plane * 4096 + i) =
    (Sparse.get m (w.plane * 4096 + i) &&& ~~~parityMask w.nb j i) ||| (new.getD i 0 &&& parityMask w.nb j i) := by
  have hplane : w.target j = w.plane := by simp [RWord.target, hw]
  rw [ruledPlanes, if_pos hw, hplane, Sparse.get_setMasked fun n => parityMask w.nb j (n % 4096), if_pos (by omega), Nat.add_sub_cancel_left,
    Nat.mul_add_mod_self_right, Nat.mod_eq_of_lt hi]

end

/-- A field that a mask covers whole, or not at all. -/
theorem fld_merge {x y mask : W32} {lo n : Nat} {b : Bool} (hmask : fld mask.toNat lo n = if b then 2 ^ n - 1 else 0) :
    fld ((x &&& ~~~mask) ||| (y &&& mask)).toNat lo n = if b then fld y.toNat lo n else fld x.toNat lo n := by
  have hbit (i : Nat) (hi : i < n) : mask.getLsbD (lo + i) = b := by
    have htest : (fld mask.toNat lo n).testBit i = mask.getLsbD (lo + i) := by
      rw [fld_extract32, BitVec.testBit_toNat, BitVec.getLsbD_extractLsb', decide_eq_true hi, Bool.true_and]
    rw [← htest, hmask]
    cases b
    · simp
    · simp [Nat.testBit_two_pow_sub_one, hi]
  have hfield : (((x &&& ~~~mask) ||| (y &&& mask)).extractLsb' lo n) = if b then y.extractLsb' lo n else x.extractLsb' lo n := by
    refine BitVec.eq_of_getLsbD_eq fun i hi => ?_
    cases b with
    | false => simpa [hi, hbit i hi] using BitVec.lt_of_getLsbD
    | true => simp [hi, hbit i hi]
  rw [fld_extract32, hfield, fld_extract32, fld_extract32]
  cases b <;> rfl

theorem fld_parityMask (nb j : Nat) {i c : Nat} (hi : i < 64) (hc : c < 2048 / ruleBits nb) :
    fld (parityMask nb j (64 * i + c / rulePer nb)).toNat (ruleBits nb * (c % rulePer nb)) (ruleBits nb) =
      if (i + c) % 2 == j % 2 then 2 ^ ruleBits nb - 1 else 0 := by
  obtain ⟨-, hrow, hcol⟩ := word_of_cell hi hc
  have hlt := Nat.two_pow_pos (ruleBits nb)
  rw [parityMask, fld_digitWord (rulePer_mul_bits nb) (fun b => by split <;> omega) (Nat.mod_lt _ (rulePer_pos nb)), hrow, Nat.add_assoc, hcol]

/-- R212: in CHEQ the cells of the generation's parity are written, and the others keep their codes. -/
theorem wordCell_ruledPlanes {w : RWord} (hw : w.cheq = true) {new : List W32} (hlen : new.length = 4096) (m : Sparse 32) (j : Nat) {i c : Nat}
    (hi : i < 64) (hc : c < 2048 / ruleBits w.nb) :
    wordCell (ruleBits w.nb) (fun n => Sparse.get (ruledPlanes w j new m) (w.plane * 4096 + n)) i c =
      if (i + c) % 2 = j % 2 then wordCell (ruleBits w.nb) (fun n => new.getD n 0) i c
      else wordCell (ruleBits w.nb) (fun n => Sparse.get m (w.plane * 4096 + n)) i c := by
  obtain ⟨hn, -, -⟩ := word_of_cell hi hc
  rw [wordCell_ruleBits, wordCell_ruleBits, wordCell_ruleBits, get_ruledPlanes_cheq m hlen hw hn, fld_merge (fld_parityMask w.nb j hi hc)]
  exact if_congr beq_iff_eq rfl rfl

/-! ## A generation completes (R212) -/

/-- The core once a generation of an RSTEP has completed: its result written, and then the next generation, the end, or the copy of the
last result into the primary plane. -/
def RStep.completes (r : RStep) (w : RWord) (x : Nat) (new : List W32) (co : Core) : Core :=
  let co := co.apply x (ruleAct w r.gen new)
  if r.gen + 1 < w.gens then { co with rgc := r.gen + 1, rstep := some { r with gen := r.gen + 1, snap := none } }
  else if w.cheq || w.gens % 2 == 0 then { co with rgc := 0, rstep := none }
  else { (co.sched (r.snapAt + 80) engineRank (.plane w.plane (cellsAt (w.plane * 4096) new))) with
    rgc := r.gen + 1, rstep := some { r with gen := r.gen + 1, snap := none, copyAt := some (r.snapAt + 80) } }

section
variable {r : RStep} {w : RWord} (x : Nat) (new : List W32) (co : Core)

theorem RStep.planes_completes : (r.completes w x new co).planes = ruledPlanes w r.gen new co.planes := by
  rw [RStep.completes, Core.apply_ruleAct]
  split
  · rfl
  · split <;> rfl

theorem RStep.completes_goesOn (h : r.gen + 1 < w.gens) : (r.completes w x new co).rgc = r.gen + 1 ∧
    (r.completes w x new co).rstep = some { r with gen := r.gen + 1, snap := none } := by
  rw [RStep.completes, if_pos h]
  exact ⟨rfl, rfl⟩

variable (h : w.gens ≤ r.gen + 1)
include h

theorem RStep.completes_ends (hw : w.cheq = true ∨ w.gens % 2 = 0) : (r.completes w x new co).rgc = 0 ∧ (r.completes w x new co).rstep = none := by
  rw [RStep.completes, if_neg (Nat.not_lt.2 h), if_pos (by simpa using hw)]
  exact ⟨rfl, rfl⟩

variable (hw : w.cheq = false) (hodd : w.gens % 2 = 1)
include hw hodd

theorem RStep.completes_copies : (r.completes w x new co).rgc = r.gen + 1 ∧
    (r.completes w x new co).rstep = some { r with gen := r.gen + 1, snap := none, copyAt := some (r.snapAt + 80) } := by
  rw [RStep.completes, if_neg (Nat.not_lt.2 h), if_neg (by simp [hw, hodd])]
  exact ⟨rfl, rfl⟩

theorem RStep.agenda_completes_copies : (r.completes w x new co).agenda.Perm
    ({ beat := r.snapAt + 80, ord := engineRank, act := .plane w.plane (cellsAt (w.plane * 4096) new) } :: co.agenda) := by
  rw [RStep.completes, if_neg (Nat.not_lt.2 h), if_neg (by simp [hw, hodd]), Core.apply_ruleAct]
  exact insertTimed_perm ..

end

/-- Two changes of the engine's core, one after the other. -/
theorem EView.mod_mod (v : EView) (s : State) (f g : Core → Core) : v.mod (v.mod s f) g = v.mod s fun co => g (f co) := by
  simp only [EView.mod, State.modCoreRef, State.modStrand, List.map_map]
  congr 2
  funext t
  by_cases h : t.sid = v.ref.strand
  · simp [h, Strand.modCore, List.modify_modify_eq, Function.comp_def]
  · simp [h]

section
variable {s : State} {c : CoreRef} {v : EView} {r : RStep} {w : RWord}

theorem execRstepGeneration_ends (hv : s.eview c = some v) (hr : v.co.rstep = some r) (hw : rword r.cmd.ins = some w) {y : Nat}
    (hcopy : r.copyAt = some y) (hy : y ≤ v.x) :
    execRstepGeneration c s = .next (v.mod s fun co => { co with rstep := none, rgc := 0 }) := by
  simp only [execRstepGeneration, hv, hr, hw, hcopy, hy, if_true]

theorem execRstepGeneration_completes (hv : s.eview c = some v) (hr : v.co.rstep = some r) (hw : rword r.cmd.ins = some w) {new : List W32}
    (hcopy : r.copyAt = none) (hsnap : r.snap = some new) (hx : r.snapAt + 64 ≤ v.x) :
    execRstepGeneration c s = .next (v.mod s fun co => r.completes w v.x new co) := by
  simp only [execRstepGeneration, RStep.completes, hv, hr, hw, hcopy, hsnap, Nat.not_lt.2 hx, if_false, EView.mod_mod, Nat.add_assoc, Nat.reduceAdd]

/-! ## The snapshot (R212) -/

theorem EView.snapshot_waits (hr : v.co.rstep = some r) (hw : rword r.cmd.ins = some w)
    (h : r.snap ≠ none ∨ r.copyAt ≠ none ∨ v.x < r.snapAt) : v.snapshot s = s := by
  have hwaits : (r.snap.isSome || r.copyAt.isSome || decide (v.x < r.snapAt)) = true := by
    simpa [Option.isSome_iff_ne_none, or_assoc] using h
  simp only [EView.snapshot, hr, hw, hwaits, if_true]

theorem EView.snapshot_takes (hr : v.co.rstep = some r) (hw : rword r.cmd.ins = some w) (hsnap : r.snap = none) (hcopy : r.copyAt = none)
    (hx : r.snapAt ≤ v.x) (hcells : ∀ i ∈ v.co.planePoison, i / 4096 ≠ w.source r.gen) (htable : v.co.planeBad .re false 0 4096 = none) :
    v.snapshot s = v.mod s fun co => { co with rstep := some { r with
      snap := some (generation (Sparse.getN v.co.planes (w.source r.gen * 4096) 4096) co.re.active w.nb r.cmd.val w.cheq r.gen) } } := by
  have hfind : v.co.planePoison.find? (fun i => i / 4096 == w.source r.gen) = none := by simpa using hcells
  simp only [EView.snapshot, hr, hw, hsnap, hcopy, Option.isSome_none, Bool.false_or, decide_eq_true_eq, Nat.not_lt.2 hx, if_false, hfind, htable,
    Option.or_none]

end

theorem RWord.source_eq (w : RWord) (j : Nat) : w.source j = if w.cheq ∨ j % 2 = 0 then w.plane else w.alt := by
  rw [RWord.source]
  exact if_congr (by simp) rfl rfl

/-- Values read back from a run written over a plane. -/
theorem get_replaceRun (ofs : Nat) (bs : List Byte) (m : Sparse 8) (k : Nat) : Sparse.get (replaceRun ofs bs m) k =
    if ofs ≤ k ∧ k < ofs + bs.length then bs.getD (k - ofs) 0 else Sparse.get m k := Sparse.get_setAll_run m ofs bs k

/-- The image that a TLOAD has read, written whole (R207). -/
theorem get_replaceRun_table {bs : List Byte} (hlen : 1092 ≤ bs.length) (ofs : Nat) (m : Sparse 8) (k : Nat) :
    Sparse.get (replaceRun ofs (bs.take 1092) m) k = if ofs ≤ k ∧ k < ofs + 1092 then bs.getD (k - ofs) 0 else Sparse.get m k := by
  rw [get_replaceRun, List.length_take, Nat.min_eq_left hlen]
  refine ite_congr rfl (fun hk => ?_) fun _ => rfl
  rw [List.getD_eq_getElem?_getD, List.getD_eq_getElem?_getD, List.getElem?_take_of_lt (by omega)]

theorem length_getN (m : Sparse 32) (k n : Nat) : (Sparse.getN m k n).length = n := by simp [Sparse.getN]

theorem getD_getN (m : Sparse 32) (k : Nat) {n i : Nat} (hi : i < n) : (Sparse.getN m k n).getD i 0 = Sparse.get m (k + i) := by
  simp [Sparse.getN, hi]

/-- R208, R212: the cells of a generation, each whole in its code. -/
theorem wordCell_generation_eq_ite {rows : List W32} {tbl : Sparse 8} {nb : Nat} {w : W64} {cheq : Bool} {j i c : Nat} (hi : i < 64)
    (hc : c < 2048 / ruleBits nb) : wordCell (ruleBits nb) (fun n => (generation rows tbl nb w cheq j).getD n 0) i c =
      if cheq = true ∧ (i + c) % 2 ≠ j % 2 then wordCell (ruleBits nb) (fun n => rows.getD n 0) i c
      else (Sparse.get tbl (ruleIndex rows nb w i c)).toNat % 2 ^ ruleBits nb := by
  rw [wordCell_generation hi hc, generationCell, tileCell_eq]
  exact if_congr (by simp) rfl rfl

/-- R208: a binary cell away from the edges, by its nine cells. -/
theorem getLsbD_generation_moore (rows : List W32) (tbl : Sparse 8) (w : W64) (j : Nat) {i c : Nat} (hi : 1 ≤ i) (hi' : i < 63) (hc : 1 ≤ c)
    (hc' : c < 2047) : ((generation rows tbl 0 w false j).getD (64 * i + c / 32) 0).getLsbD (c % 32) =
      (Sparse.get tbl (ruleIndex rows 0 w i c)).getLsbD 0 := by
  have hcell : wordCell 1 (fun n => (generation rows tbl 0 w false j).getD n 0) i c = (Sparse.get tbl (ruleIndex rows 0 w i c)).toNat % 2 ^ 1 :=
    wordCell_generation (nb := 0) (by omega) (show c < 2048 by omega)
  rw [wordCell_one] at hcell
  have hbit : ((Sparse.get tbl (ruleIndex rows 0 w i c)).getLsbD 0).toNat = (Sparse.get tbl (ruleIndex rows 0 w i c)).toNat % 2 ^ 1 := by
    rw [BitVec.getLsbD, Nat.toNat_testBit, pow_zero, Nat.div_one, pow_one]
  have hinj : Function.Injective Bool.toNat := by decide
  exact hinj (hcell.trans hbit.symm)

/-! ## The obligation -/

/-- Settles O38: the loads and RSTEP as they begin, the tables they leave, what a completed generation writes, and a snapshot's cells. -/
theorem tableAndRuleEngines : Obligations.TableAndRuleEngines := by
  unfold Obligations.TableAndRuleEngines
  intro cell
  refine ⟨?begin, ?replace, ?rstep, ?complete, ?snapshot, ?cells, ?moore⟩
  case begin =>
    intro s c v cmd h st g ck tag tb a reads begins halign hdraw
    refine ⟨fun hs hi hin hfits => ?_, fun hs hi hin hfits hidle => ?_⟩
    · obtain rfl := eview_ref hs.1
      exact execTloadStart_eq hs hi halign hin hfits hdraw
    · obtain rfl := eview_ref hs.1
      exact execRloadStart_eq hs hi halign hin hfits hdraw hidle
  case replace =>
    intro s c v l h st g ck tag tb hv s'
    refine ⟨fun hl hi hlen hhead => ?_, fun hl => ?_⟩
    · exact ⟨replaceRun (0x480 * tb.toNat) (l.got.take 1092), execTloadReplace_eq hv hl hi hhead, get_replaceRun_table hlen _⟩
    · refine ⟨replaceRun 0 l.got, execRloadReplace_eq hv hl, fun m k => ?_⟩
      rw [get_replaceRun]
      simp
  case rstep =>
    intro s c v cmd w hs hw hplane hcheq hsync hidle hbound hdraw hgo
    exact execRstepStart_eq hs hw hplane hcheq hsync hidle hbound hdraw hgo
  case complete =>
    intro s c v r w hv hr hw
    refine ⟨fun y hcopy hy => execRstepGeneration_ends hv hr hw hcopy hy, fun new hcopy hsnap hx =>
      ⟨_, execRstepGeneration_completes hv hr hw hcopy hsnap hx, fun co => ⟨?_, ?_, ?_, ?_, ?_⟩⟩⟩
    · intro hlen
      rw [RStep.planes_completes]
      exact ⟨fun hc i hi => get_ruledPlanes_sync _ hlen hc hi, fun k hk => get_ruledPlanes_ne _ hlen hk⟩
    · intro hlen hc i c hi hcol at_
      rw [RStep.planes_completes]
      exact wordCell_ruledPlanes hc hlen co.planes r.gen hi hcol
    · exact RStep.completes_goesOn v.x new co
    · exact RStep.completes_ends v.x new co
    · intro hlast hc hodd
      obtain ⟨hrgc, hrstep⟩ := RStep.completes_copies v.x new co hlast hc hodd
      have hagenda := RStep.agenda_completes_copies v.x new co hlast hc hodd
      refine ⟨hrgc, hrstep, ⟨_, hagenda.mem_iff.2 List.mem_cons_self, rfl, ?_⟩, fun e he => ?_⟩
      · rw [cellsAt_eq_map 0]
      · rcases List.mem_cons.1 (hagenda.mem_iff.1 he) with rfl | he
        · exact .inr rfl
        · exact .inl he
  case snapshot =>
    intro s v r w hr hw
    refine ⟨EView.snapshot_waits hr hw, ?_⟩
    intro hsnap hcopy hx p hcells htable
    have hp : w.source r.gen = p := w.source_eq r.gen
    rw [← hp] at hcells ⊢
    exact ⟨Sparse.getN v.co.planes (w.source r.gen * 4096) 4096, length_getN _ _ _, fun i hi => getD_getN _ _ hi,
      EView.snapshot_takes hr hw hsnap hcopy hx hcells htable⟩
  case cells =>
    intro rows tbl nb w cheq j i c hi hc
    exact ⟨length_generation, wordCell_generation_eq_ite hi hc⟩
  case moore =>
    intro rows tbl w j i c hi hi' hc hc' cell idx
    have hcell (y x : Nat) : wordCell 1 (fun n => rows.getD n 0) y x = cell y x := wordCell_one _ y x
    have hidx : ruleIndex rows 0 w i c = idx := by
      rw [ruleIndex_moore rows w hi hi' hc hc']
      simp only [hcell]
      rfl
    rw [← hidx]
    exact getLsbD_generation_moore rows tbl w j hi hi' hc hc'

end Sys2Proof.Machine
end

section
/-! Every step keeps memory in canonical form (R257, R261, R305): the ways to compose steps that do, and the operations of the engines and
of the elastic queues. -/

namespace Sys2Proof.Machine

/-! ## Steps that keep the form of memory -/

/-- A state with the memory of one in canonical form is in canonical form. -/
theorem State.MemOk.of_mem {s t : State} (h : s.MemOk) (hm : t.mem = s.mem) : t.MemOk := by
  rw [State.MemOk, hm]
  exact h

/-- Either branch of a choice keeps the form. -/
theorem State.MemOk.ite {p : Prop} [Decidable p] {s t : State} (hs : s.MemOk) (ht : t.MemOk) : (if p then s else t).MemOk := by
  split
  · exact hs
  · exact ht

/-- Steps that each keep the form keep it in turn. -/
theorem State.MemOk.foldl {α : Type} {f : State → α → State} (hf : ∀ s x, s.MemOk → (f s x).MemOk) (xs : List α) :
    ∀ {s : State}, s.MemOk → (xs.foldl f s).MemOk := by
  induction xs with
  | nil => exact id
  | cons x xs ih => exact fun h => ih (hf _ x h)

/-- Whatever state an outcome answers, its memory is in canonical form. -/
def AnswersMemOk (o : Host.Outcome State Fault Refusal) : Prop := ∀ t, o = .next t → t.MemOk

namespace AnswersMemOk

variable {s t : State}

theorem next (h : t.MemOk) : AnswersMemOk (.next t) := by
  rintro _ ⟨⟩
  exact h

theorem fault {f : Fault} : AnswersMemOk (.fault f) := by
  intro t ht
  cases ht

theorem ite {p : Prop} [Decidable p] {a b : Host.Outcome State Fault Refusal} (ha : AnswersMemOk a) (hb : AnswersMemOk b) :
    AnswersMemOk (if p then a else b) := by
  split
  · exact ha
  · exact hb

theorem onEntry {r : CRef} {n : QName} {ok : Entry → Bool} {f : QView → Entry → State} (hf : ∀ q e, (f q e).MemOk) :
    AnswersMemOk (onEntry r n ok s f) := by
  intro t ht
  obtain ⟨q, e, -, -, rfl⟩ := onEntry_next ht
  exact hf q e

theorem startCmd {c : CoreRef} {u : Unit'} {ok : Instr → Bool} {f : EView → Cmd → State → State} (h : s.MemOk)
    (hf : ∀ v cmd s, s.MemOk → (f v cmd s).MemOk) : AnswersMemOk (startCmd c u ok s f) := by
  intro t ht
  obtain ⟨v, cmd, -, -, -, rfl | rfl⟩ := startCmd_next ht
  · exact h.of_mem rfl
  · exact hf v cmd _ (h.of_mem rfl)

theorem onPacket {q : QRef} {n : Nat} {f : State → State} (hf : (f (s.pass q n)).MemOk) : AnswersMemOk (onPacket q n s f) := by
  intro t ht
  obtain ⟨-, rfl⟩ := onPacket_next ht
  exact hf

theorem accepted {f : State → Host.Outcome State Fault Refusal} (h : s.MemOk) (hf : AnswersMemOk (f s)) :
    AnswersMemOk (accepted s f) := by
  unfold Machine.accepted
  split
  · exact next h
  · exact hf

end AnswersMemOk

namespace State.MemOk

variable {s : State}

theorem engine {v : EView} {f : Core → Core} (h : s.MemOk) : (v.mod s f).MemOk := h.of_mem rfl

theorem modStrand {sid : Nat} {f : Strand → Strand} (h : s.MemOk) : (s.modStrand sid f).MemOk := h.of_mem rfl

/-- An event that is tried keeps the form if its answer does. -/
theorem tryRun {f : State → Host.Outcome State Fault Refusal} (h : s.MemOk) (hf : AnswersMemOk (f s)) : (s.tryRun f).MemOk := by
  unfold State.tryRun
  split
  · next ht => exact hf _ ht
  · exact h

/-! ## Engines (R137, R138, R185 to R223) -/

theorem draws {v : EView} {cmd : Cmd} {lvl : Nat} {f : State → State} (h : s.MemOk) (hf : (f s).MemOk) : (v.draws s cmd lvl f).MemOk := by
  unfold EView.draws
  split
  · exact h.of_mem rfl
  · exact hf

theorem load {v : EView} {cmd : Cmd} {n lines lvl : Nat} {pre : Option Nat} {f : State → State} (h : s.MemOk)
    (hf : ∀ s : State, s.MemOk → (f s).MemOk) : (v.load s cmd n lines lvl pre f).MemOk := by
  unfold EView.load
  extract_lets a new
  split
  · exact h.of_mem rfl
  · split
    · exact h.of_mem rfl
    · split
      · exact h.of_mem rfl
      · exact h.draws (hf _ (h.of_mem rfl))

theorem endLoad (v : EView) (l : Load) (h : s.MemOk) : (v.endLoad s l).MemOk := by
  unfold EView.endLoad
  extract_lets s
  split
  · exact h.of_mem rfl
  · split <;> exact h.of_mem rfl
  · exact h.of_mem rfl

theorem loadBeat (c : CoreRef) (l : Load) (h : s.MemOk) : (s.loadBeat c l).MemOk := by
  unfold State.loadBeat
  split
  · exact h
  · next v _ =>
    split
    · split
      · exact h.of_mem rfl
      · split
        · exact endLoad v _ (h.of_mem rfl)
        · exact h.of_mem rfl
    · split
      · exact h.endLoad v l
      · exact h

theorem loadsBeat (t : Strand) (h : s.MemOk) : (s.loadsBeat t).MemOk := by
  refine foldl (fun s c h => ?_) _ h
  split
  · exact h
  · exact foldl (fun _ l h => h.loadBeat c l) _ h

theorem execMcfgStart (c : CoreRef) (e : Eng) (h : s.MemOk) : AnswersMemOk (execMcfgStart c e s) := by
  refine .startCmd h fun v cmd s h => ?_
  split <;> exact h.of_mem rfl

theorem execCfgldStart (c : CoreRef) (e : Eng) (h : s.MemOk) : AnswersMemOk (execCfgldStart c e s) := by
  refine .startCmd h fun v cmd s h => ?_
  split
  · exact h.load fun s h => h.of_mem rfl
  · exact h

theorem flip (v : EView) (u : Unit') (cmd : Cmd) (h : s.MemOk) : (v.flip s u cmd).MemOk := by
  unfold EView.flip
  extract_lets g
  split
  · exact h.of_mem rfl
  · split
    · exact h.of_mem rfl
    · split <;> exact h.of_mem rfl

theorem execCfgswapStart (c : CoreRef) (e : Eng) (h : s.MemOk) : AnswersMemOk (execCfgswapStart c e s) := by
  refine .startCmd h fun v cmd s h => ?_
  split
  · exact h.of_mem rfl
  · exact h.flip v _ cmd

theorem execCfgswapFlip (c : CoreRef) (e : Eng) (h : s.MemOk) : AnswersMemOk (execCfgswapFlip c e s) := by
  unfold Machine.execCfgswapFlip
  split
  · exact .fault
  · next v _ =>
    split
    · split
      · exact .fault
      · exact .next (flip v _ _ (h.of_mem rfl))
    · exact .fault

theorem execMfmtStart (c : CoreRef) (h : s.MemOk) : AnswersMemOk (execMfmtStart c s) := by
  refine .startCmd h fun v cmd s h => ?_
  split
  · split <;> exact h.of_mem rfl
  · exact h

theorem execAczeroStart (c : CoreRef) (h : s.MemOk) : AnswersMemOk (execAczeroStart c s) := by
  refine .startCmd h fun v cmd s h => ?_
  split
  · extract_lets b
    split
    · exact h.of_mem rfl
    · split <;> exact h.of_mem rfl
  · exact h

theorem execTloadStart (c : CoreRef) (h : s.MemOk) : AnswersMemOk (execTloadStart c s) :=
  .startCmd h fun _ _ _ h => h.load fun _ h => h

theorem execTloadReplace (c : CoreRef) (h : s.MemOk) : AnswersMemOk (execTloadReplace c s) := by
  unfold Machine.execTloadReplace
  split
  · exact .fault
  · split
    · exact .fault
    · dsimp only
      split
      · refine .next ?_
        split <;> exact h.of_mem rfl
      · exact .fault

theorem execRloadStart (c : CoreRef) (h : s.MemOk) : AnswersMemOk (execRloadStart c s) :=
  .startCmd h fun _ _ _ h => h.load fun _ h => h

theorem execRloadReplace (c : CoreRef) (h : s.MemOk) : AnswersMemOk (execRloadReplace c s) := by
  unfold Machine.execRloadReplace
  split
  · exact .fault
  · split
    · exact .fault
    · exact .next (h.of_mem rfl)

theorem execRstepStart (c : CoreRef) (h : s.MemOk) : AnswersMemOk (execRstepStart c s) := by
  refine .startCmd h fun v cmd s h => ?_
  split
  · exact h
  · refine .ite (h.of_mem rfl) (.ite (h.of_mem rfl) (.ite (h.of_mem rfl) (.ite (h.of_mem rfl) ?_)))
    exact h.draws (h.of_mem rfl)

theorem snapshot (v : EView) (h : s.MemOk) : (v.snapshot s).MemOk := by
  unfold EView.snapshot
  split
  · exact h
  · split
    · exact h
    · split
      · exact h
      · extract_lets p
        split <;> exact h.of_mem rfl

theorem execRstepGeneration (c : CoreRef) (h : s.MemOk) : AnswersMemOk (execRstepGeneration c s) := by
  unfold Machine.execRstepGeneration
  split
  · exact .fault
  · split
    · exact .fault
    · split
      · exact .fault
      · split
        · split
          · exact .next (h.of_mem rfl)
          · exact .fault
        · split
          · exact .fault
          · split
            · exact .fault
            · exact .next (h.of_mem rfl)

theorem execMgoStart (c : CoreRef) (h : s.MemOk) : AnswersMemOk (execMgoStart c s) := by
  refine .startCmd h fun v cmd s h => ?_
  extract_lets m w e d orders steps reach banks
  refine .ite (h.of_mem rfl) (.ite (h.of_mem rfl) ?_)
  split
  · exact h.of_mem rfl
  · split
    · exact h.of_mem rfl
    · refine h.draws ?_
      split <;> exact h.of_mem rfl

theorem execMstopStart (c : CoreRef) (h : s.MemOk) : AnswersMemOk (execMstopStart c s) := by
  refine .startCmd h fun v cmd s h => ?_
  split <;> exact h.of_mem rfl

theorem execMbaseStart (c : CoreRef) (h : s.MemOk) : AnswersMemOk (execMbaseStart c s) := by
  refine .startCmd h fun v cmd s h => ?_
  split
  · extract_lets put base word reach bad
    split
    · split
      · exact h.of_mem rfl
      · split
        · exact h.of_mem rfl
        · split <;> exact h.of_mem rfl
    · exact h.of_mem rfl
  · exact h

theorem readBlocks (c : CoreRef) (n : Nat) : ∀ {s : State}, s.MemOk → (s.readBlocks c n).MemOk := by
  induction n with
  | zero => exact id
  | succ n ih =>
    intro s h
    unfold State.readBlocks
    split
    · exact h
    · split
      · exact h
      · split
        · exact h
        · split
          · exact h
          · split
            · exact h.of_mem rfl
            · exact ih (h.of_mem rfl)

theorem execMatrixBlockStep (c : CoreRef) (h : s.MemOk) : AnswersMemOk (execMatrixBlockStep c s) := by
  unfold Machine.execMatrixBlockStep
  split
  · exact .fault
  · split
    · exact .fault
    · split
      · exact .fault
      · extract_lets e d p head zero new
        split
        · exact .next (h.of_mem rfl)
        · split <;> exact .next (h.of_mem rfl)

theorem walkPages (t : Strand) (c : Nat) (k : Copy) (ms : List (Nat × W64)) : ∀ {s : State}, s.MemOk → (s.walkPages t c k ms).MemOk := by
  induction ms with
  | nil => exact id
  | cons m ms ih => exact fun h => ih (h.of_mem rfl)

theorem execXcopyStart (c : CoreRef) (h : s.MemOk) : AnswersMemOk (execXcopyStart c s) := by
  refine .startCmd h fun v cmd s h => ?_
  split
  · exact h
  · split
    · exact h.of_mem rfl
    · split
      · exact h.of_mem rfl
      · split
        · exact h.of_mem rfl
        · split
          · exact h.of_mem rfl
          · extract_lets lc srcCore dstCore path k
            split
            · exact h.of_mem rfl
            · split
              · exact h.of_mem rfl
              · refine h.draws ?_
                dsimp only
                split
                · exact h.of_mem rfl
                · exact walkPages _ _ _ _ (h.of_mem rfl)

theorem chunkWrite (c : CoreRef) (t : Strand) (k : Copy) (w : XWord) (j : Nat) (data : List (Byte × Bool)) (h : s.MemOk) :
    (s.chunkWrite c t k w j data).MemOk := by
  unfold State.chunkWrite
  extract_lets vb addrs
  split <;> exact h.of_mem rfl

theorem execXcopyChunk (c : CoreRef) (id j : Nat) (h : s.MemOk) : AnswersMemOk (execXcopyChunk c id j s) := by
  unfold Machine.execXcopyChunk
  split
  · exact .fault
  · split
    · exact .fault
    · split
      · exact .fault
      · split
        · exact .fault
        · extract_lets addrs
          split
          · exact .next (h.of_mem rfl)
          · exact .next (engine (chunkWrite _ _ _ _ _ _ (h.of_mem rfl)))

theorem execTsldStart (c : CoreRef) (h : s.MemOk) : AnswersMemOk (execTsldStart c s) := by
  refine .startCmd h fun v cmd s h => ?_
  split
  · split
    · exact h.of_mem rfl
    · exact h.load fun s h => h.of_mem rfl
  · exact h

theorem execTsevStart (c : CoreRef) (h : s.MemOk) : AnswersMemOk (execTsevStart c s) := by
  refine .startCmd h fun v cmd s h => ?_
  split
  · split
    · exact h.of_mem rfl
    · split <;> exact h.of_mem rfl
  · exact h

/-! ## Landings (R255, R259) -/

/-- A timed effect keeps the form: only a DRAM write changes memory. -/
theorem applyAct (c : CoreRef) (beat : Nat) (a : Act) (h : s.MemOk) : (s.applyAct c beat a).MemOk := by
  unfold State.applyAct
  split
  · next cells _ _ => exact (State.timedWrite_memOk cells h).of_mem rfl
  · exact h.of_mem rfl

theorem landCore (c : CoreRef) (beat : Nat) (h : s.MemOk) : (s.landCore c beat).MemOk := by
  unfold State.landCore
  split
  · exact h
  · extract_lets due s1
    exact foldl (fun _ t h => h.applyAct c t.beat t.act) due (s := s1) (h.of_mem rfl)

theorem landAll (t : Strand) (beat : Nat) (h : s.MemOk) : (s.landAll t beat).MemOk :=
  foldl (fun _ c h => h.landCore c beat) _ h

/-- What is seen for a while is put back without a write. -/
theorem seeing {sid : Nat} {f : State → State} (h : s.MemOk) (hf : ∀ s : State, s.MemOk → (f s).MemOk) : (s.seeing sid f).MemOk := by
  unfold State.seeing
  split
  · exact hf s h
  · next t _ =>
    split
    · exact hf s h
    · extract_lets seen
      exact (hf _ h.modStrand).modStrand

end State.MemOk

end Sys2Proof.Machine
end

section
/-! Memory keeps its form: the elastic queues, and the stop of a strand with its drain, its traps and its end (R224 to R232, R239, R251,
R281 to R287, R295). -/

namespace Sys2Proof.Machine

theorem State.touch_mem (s : State) (st : Strand) (c : Nat) (a : W64) (w : Bool) : (s.touch st c a w).mem = s.mem := by
  obtain ⟨ks, ts, es, h⟩ := s.touch_spec st c a w
  rw [h]

theorem State.touchAll_mem (s : State) (st : Strand) (c : Nat) (w : Bool) (as : List W64) : (s.touchAll st c w as).mem = s.mem := by
  obtain ⟨ks, ts, es, h⟩ := State.touchAll_spec st c w as s
  rw [h]

theorem State.ring_mem (s : State) (b n : Nat) (v : W64) : (s.ring b n v).mem = s.mem := by
  unfold State.ring
  split <;> rfl

namespace State.MemOk

variable {s : State}

/-! ## Elastic entries (R224 to R232, R249) -/

theorem write {q : QView} {cells : List (Nat × Byte)} {bad : List Nat} {l : Nat} (h : s.MemOk) : (q.write s cells bad l).2.MemOk := by
  unfold QView.write
  split
  · exact (State.busWrite_memOk cells h).of_mem rfl
  · exact h.of_mem rfl

theorem widen (fid l : Nat) (h : s.MemOk) : (s.widen fid l).MemOk := by
  unfold State.widen
  exact .ite (State.settle_memOk fid h) (h.of_mem rfl)

theorem fail {q : QView} {n : QName} {e : Entry} {f : Nat × Nat} {a : W64} (h : s.MemOk) : (q.fail s n e f a).MemOk := h.of_mem rfl

theorem await {q : QView} {e : Entry} (h : s.MemOk) : (q.await s e).MemOk := h.of_mem rfl

theorem performed (q : QView) (e : Entry) (l : Nat) (h : s.MemOk) : (q.performed s e l).MemOk := by
  unfold QView.performed
  extract_lets e' last u
  have hu : u.MemOk := .ite h.modStrand h
  exact .ite (hu.of_mem rfl) (hu.of_mem rfl)

theorem widenEntry (q : QView) (e : Entry) (h : s.MemOk) : (q.widenEntry s e).MemOk := by
  unfold QView.widenEntry
  split
  · exact h.of_mem rfl
  · exact .ite h.await (performed q e _ (.ite h (h.widen _ _)))

theorem execLoadPerform (r : CRef) (h : s.MemOk) : AnswersMemOk (execLoadPerform r s) := by
  refine .onEntry fun q e => ?_
  split
  · split
    · exact h.of_mem rfl
    · exact .ite (h.of_mem (s.touch_mem ..)) (h.of_mem (s.touch_mem ..))
  · exact h

theorem execLoadDataArrival (r : CRef) (h : s.MemOk) : AnswersMemOk (execLoadDataArrival r s) := by
  refine .onEntry fun q e => ?_
  split <;> exact h.of_mem rfl

theorem execStorePerform (r : CRef) (h : s.MemOk) : AnswersMemOk (execStorePerform r s) := by
  refine .onEntry fun q e => ?_
  split
  · next a n v =>
    extract_lets l u s1
    have hu : u.MemOk := h.widenEntry q e
    have h1 : s1.MemOk := h.of_mem (s.touch_mem ..)
    refine .ite (.ite ?_ hu) ?_
    · split
      · exact hu.of_mem (u.ring_mem ..)
      · exact hu
    · split
      · exact h.of_mem rfl
      · exact performed q e l (h.of_mem (s.touch_mem ..))
      · exact .ite (performed q e l (.ite (h1.of_mem (s1.ring_mem ..)) h1)) (.ite h1.await (performed q _ l h1.write))
  · exact h

theorem execEcopyPerform (r : CRef) (h : s.MemOk) : AnswersMemOk (execEcopyPerform r s) := by
  refine .onEntry fun q e => ?_
  split
  · next mode d a n _ =>
    extract_lets l s1
    refine .ite (h.widenEntry q e) ?_
    split
    · exact h.of_mem rfl
    · next ws _ =>
      extract_lets bs bad act under
      have hs1 : s1.MemOk := .ite h (h.of_mem (s.touchAll_mem ..))
      refine .ite (performed q e l (hs1.of_mem rfl)) ?_
      split
      · exact hs1.of_mem rfl
      · extract_lets out w
        have hw : (s1.touchAll q.st q.co.phys true (wordAddrs d n)).MemOk := hs1.of_mem (s1.touchAll_mem ..)
        exact .ite h.await (performed q _ l (write (hw.of_mem rfl)))
  · exact h

theorem modify (q : QView) (e : Entry) (a : W64) (n : Nat) (f : W64 → W64 × Option W64) (h : s.MemOk) : (q.modify s e a n f).MemOk := by
  unfold QView.modify
  extract_lets l s1
  split
  · exact h.of_mem rfl
  · extract_lets r
    have hs1 : s1.MemOk := h.of_mem (s.touch_mem ..)
    refine .ite hs1.fail ?_
    split
    · exact performed q _ l hs1
    · exact .ite h.await (performed q _ l hs1.write)

theorem execAtomicPerform (r : CRef) (h : s.MemOk) : AnswersMemOk (execAtomicPerform r s) := by
  refine .onEntry fun q e => ?_
  split
  · exact .ite (h.widenEntry q e) (h.modify q e _ _ _)
  · exact h

theorem execBaraPerform (r : CRef) (h : s.MemOk) : AnswersMemOk (execBaraPerform r s) := by
  refine .onEntry fun q e => ?_
  split
  · exact .ite (h.widenEntry q e) (h.modify q e _ _ _)
  · exact h

theorem putSlot (ctx : Nat) (base : W64) (pos : Nat) (bs : List Byte) (h : s.MemOk) : (s.putSlot ctx base pos bs).MemOk := by
  unfold State.putSlot
  split
  · exact State.busWrite_memOk _ h
  · exact h

theorem execEnqPerform (r : CRef) (h : s.MemOk) : AnswersMemOk (execEnqPerform r s) := by
  refine .onEntry fun q e => ?_
  split
  · next a _ _ _ =>
    extract_lets n
    split
    · exact performed q _ 6 h
    · refine .ite (performed q _ 6 h) ?_
      split
      · exact h.of_mem rfl
      · split
        · exact h.of_mem rfl
        · extract_lets bs s1 s2 s3
          have hs1 : s1.MemOk := (h.of_mem (s.touchAll_mem q.st q.co.phys false (wordAddrs a (64 * n))) : State.MemOk _).of_mem rfl
          have hs2 : s2.MemOk := foldl (fun _ _ h => h.putSlot _ _ _ _) _ hs1
          exact performed q _ 6 (hs2.of_mem rfl)
  · exact h

theorem execMarkerRetire (r : CRef) (h : s.MemOk) : AnswersMemOk (execMarkerRetire r s) := by
  unfold Machine.execMarkerRetire
  split
  · exact .fault
  · split
    · exact .fault
    · exact .next (h.of_mem rfl)

theorem lookWait (r : CRef) (w : Wait) (h : s.MemOk) : (s.lookWait r w).MemOk := by
  unfold State.lookWait
  split
  · exact h
  · extract_lets cyc set u
    have hu : u.MemOk := by
      unfold u
      split
      · exact h.of_mem rfl
      · exact h.of_mem rfl
      · exact h
    split
    · exact hu.of_mem rfl
    · split
      · exact hu
      · exact hu
      · exact hu.of_mem rfl
    · exact .ite hu hu.modStrand

theorem lookWaitsOf (t : Strand) (h : s.MemOk) : (s.lookWaitsOf t).MemOk :=
  foldl (fun _ r h => foldl (fun _ w h => h.lookWait r w) _ h) _ h

theorem lookWaitsAfresh (sid : Nat) (h : s.MemOk) : (s.lookWaitsAfresh sid).MemOk := by
  unfold State.lookWaitsAfresh
  split
  · exact h
  · exact h.lookWaitsOf _

/-! ## The end of a strand (R45, R285, R294, R295) -/

theorem finishEntry (t : Strand) (core : Nat) (e : Entry) (h : s.MemOk) : (s.finishEntry t core e).MemOk := by
  unfold State.finishEntry
  split
  · exact h.of_mem rfl
  · extract_lets u
    have hu : u.MemOk := modStrand (.ite h (State.settleAll_memOk _ h))
    split
    · split
      · exact hu.of_mem (u.ring_mem ..)
      · exact hu
    · exact hu

theorem finishElastic (t : Strand) (h : s.MemOk) : (s.finishElastic t).MemOk :=
  foldl (fun _ _ h => foldl (fun _ e h => .ite h (h.finishEntry t _ e)) _ h) _ h

theorem noteEnd (t : Strand) (fault : Option (Nat × Nat × Nat × Nat)) (h : s.MemOk) : (s.noteEnd t fault).MemOk := h.of_mem rfl

theorem endStrand (sid : Nat) (fault : Option (Nat × Nat × Nat × Nat)) (h : s.MemOk) : (s.endStrand sid fault).MemOk := by
  unfold State.endStrand
  split
  · exact h
  · next t _ =>
    extract_lets u
    have hu : u.MemOk := h.finishElastic t
    split
    · exact hu
    · exact hu.of_mem rfl

theorem crashStrand (t : Strand) (c : Cause) (h : s.MemOk) : (s.crashStrand t c).MemOk :=
  endStrand t.sid _ (h.of_mem rfl)

theorem endAway (task : Nat) (h : s.MemOk) : (s.endAway task).MemOk := by
  unfold State.endAway
  extract_lets away u
  have hu : u.MemOk := foldl (fun s t h => h.noteEnd t none) away h
  exact hu.of_mem rfl

theorem endStrandsOf (k : Task) (h : s.MemOk) : (s.endStrandsOf k).MemOk :=
  endAway k.num (foldl (fun _ sid h => h.endStrand sid none) _ h)

theorem endFallen (h : s.MemOk) : s.endFallen.MemOk := foldl (fun _ k h => h.endStrandsOf k) _ h

/-! ## The drain (R282) -/

theorem engineEvs (r : CoreRef) (n : Nat) : ∀ {s : State}, s.MemOk → (s.engineEvs r n).MemOk := by
  induction n with
  | zero => exact id
  | succ n ih =>
    intro s h
    unfold State.engineEvs
    split
    · exact h
    · split
      · exact ih (h.tryRun (h.execXcopyChunk _ _ _))
      · exact ih (h.tryRun (h.execTloadReplace _))
      · exact ih (h.tryRun (h.execRloadReplace _))
      · exact ih (h.tryRun (h.execRstepGeneration _))
      · exact h

theorem flipIdle (r : CoreRef) (e : Eng) (h : s.MemOk) : (s.flipIdle r e).MemOk := by
  unfold State.flipIdle
  split
  · exact h
  · exact .ite (h.tryRun (h.execCfgswapFlip r e)) h

theorem drainCore (r : CoreRef) (h : s.MemOk) : (s.drainCore r).MemOk := by
  unfold State.drainCore
  extract_lets s1 s2 s3
  have h1 : s1.MemOk := engineEvs r 65536 h
  have h2 : s2.MemOk := by
    unfold s2
    split
    · exact h1
    · split
      · exact .ite (h1.snapshot _) h1
      · exact h1
  have h3 : s3.MemOk := by
    unfold s3
    split
    · exact h2
    · extract_lets u
      have hu : u.MemOk := h2.of_mem rfl
      split
      · exact hu
      · exact .ite (hu.tryRun (hu.execMatrixBlockStep r)) hu
  exact ((h3.flipIdle r .me).flipIdle r .te).flipIdle r .re

theorem drainFrom (sid n : Nat) : ∀ {s : State} (last : Nat) (landed : List (List Timed)) (steps : List (Nat × Nat)), s.MemOk →
    (s.drainFrom sid last landed steps n).1.MemOk := by
  induction n with
  | zero => exact fun _ _ _ => id
  | succ n ih =>
    intro s last landed steps h
    unfold State.drainFrom
    split
    · exact h
    · next t _ =>
      split
      · exact h
      · extract_lets x s1 s2 s3 s4 written s5
        have h3 : s3.MemOk := ((h.modStrand).landAll t x).loadsBeat _
        have h4 : s4.MemOk := foldl (fun _ r h => readBlocks r 16 h) _ h3
        exact ih _ _ _ (foldl (fun _ r h => h.drainCore r) _ h4)

theorem drainStrand (t : Strand) (h : s.MemOk) : (s.drainStrand t).1.MemOk := by
  unfold State.drainStrand
  extract_lets u
  have hu : u.MemOk := h.landAll t t.beat
  split
  · exact hu
  · exact modStrand (of_mem (drainFrom _ _ _ _ _ hu) rfl)

theorem execStrandStop (sid : Nat) (h : s.MemOk) : AnswersMemOk (execStrandStop sid s) := by
  unfold Machine.execStrandStop
  split
  · exact .fault
  · next t _ =>
    refine .ite .fault ?_
    extract_lets t'
    split
    · exact .next (h.crashStrand t _)
    · exact .next (.ite h.modStrand (h.of_mem rfl))

theorem trapOne (sid : Nat) (c : Cause) (e : Nat) (h : s.MemOk) : (s.trapOne sid c e).MemOk := by
  unfold State.trapOne
  split
  · exact h
  · split
    · exact h
    · exact h.modStrand

theorem takeCauses (t : Strand) (e : Nat) (h : s.MemOk) : (s.takeCauses t e).MemOk := by
  unfold State.takeCauses
  split
  · exact h.crashStrand t _
  · exact modStrand (foldl (fun _ c h => h.trapOne t.sid c e) _ h)

theorem execDrainEnd (sid : Nat) (h : s.MemOk) : AnswersMemOk (execDrainEnd sid s) := by
  unfold Machine.execDrainEnd
  split
  · exact .fault
  · next t _ =>
    extract_lets cyc r s1
    split
    · refine .ite .fault ?_
      have h1 : s1.MemOk := (h.drainStrand t).modStrand
      split
      · exact .next h1
      · extract_lets t' u
        refine .ite (.next (.ite h1.modStrand ?_)) (.next (takeCauses t' _ h1.modStrand))
        exact lookWaitsAfresh sid h1.modStrand
    · exact .fault

theorem execPreemptionHold (sid : Nat) (h : s.MemOk) : AnswersMemOk (execPreemptionHold sid s) := by
  unfold Machine.execPreemptionHold
  split
  · exact .fault
  · exact .ite .fault (.next (h.of_mem rfl))

theorem execStallWatchdog (sid : Nat) (h : s.MemOk) : AnswersMemOk (execStallWatchdog sid s) := by
  unfold Machine.execStallWatchdog
  split
  · exact .fault
  · extract_lets cyc
    refine .ite .fault (.ite (.next (h.of_mem rfl)) ?_)
    split
    · exact .fault
    · refine .next (foldl (fun s r h => ?_) _ h)
      exact h.of_mem rfl

theorem execElasticWaitResume (sid : Nat) (h : s.MemOk) : AnswersMemOk (execElasticWaitResume sid s) := by
  unfold Machine.execElasticWaitResume
  split
  · exact .fault
  · exact .ite (.next h.modStrand) .fault

theorem execFetchLineFill (sid : Nat) (h : s.MemOk) : AnswersMemOk (execFetchLineFill sid s) := by
  unfold Machine.execFetchLineFill
  split
  · exact .fault
  · exact .ite .fault (.next h.modStrand)

theorem execTranslationWalk (sid : Nat) (h : s.MemOk) : AnswersMemOk (execTranslationWalk sid s) := by
  unfold Machine.execTranslationWalk
  split
  · exact .fault
  · extract_lets cyc
    split
    · exact .fault
    · exact .next (modStrand (foldl (fun s _ h => h.of_mem (s.touch_mem ..)) _ h))

theorem execDeadlineLapse (sid : Nat) (h : s.MemOk) : AnswersMemOk (execDeadlineLapse sid s) := by
  unfold Machine.execDeadlineLapse
  split
  · exact .fault
  · split
    · exact .ite (.next h.modStrand) .fault
    · exact .fault

theorem execRegionLevelFall (sid : Nat) (h : s.MemOk) : AnswersMemOk (execRegionLevelFall sid s) := by
  unfold Machine.execRegionLevelFall
  split
  · exact .fault
  · split
    · exact .fault
    · exact .next h.modStrand

theorem execPowerGrant (k : Nat) (h : s.MemOk) : AnswersMemOk (execPowerGrant k s) := by
  unfold Machine.execPowerGrant
  split
  · exact .fault
  · exact .next h.modStrand

end State.MemOk

end Sys2Proof.Machine
end

section
/-! Memory keeps its form: the weaver, records, packets, graphs, the host's commands, resets, power, errors and the island (R22, R32 to R49,
R58, R287 to R322). -/

namespace Sys2Proof.Machine

namespace AnswersMemOk

variable {s : State}

theorem onNode {rep : Nat} {a : Activation} {w : NodeWords} {ty : Nat} {f : Replay → State → State} (h : s.MemOk)
    (hf : ∀ r (s : State), s.MemOk → (f r s).MemOk) : AnswersMemOk (onNode rep a w ty s f) := by
  unfold Machine.onNode
  split
  · exact fault
  · refine ite fault ?_
    exact ite (next (hf _ _ (h.of_mem rfl))) (next (h.of_mem rfl))

theorem onPecmd {w : W64} {f : State → State} (h : s.MemOk) (hf : (f s).MemOk) : AnswersMemOk (onPecmd w s f) :=
  accepted h (ite (next h) (ite (next (h.of_mem rfl)) (next hf)))

end AnswersMemOk

theorem State.pass_mem (s : State) (q : QRef) (n : Nat) : (s.pass q n).mem = s.mem := by cases q <;> rfl

theorem State.failQueue_mem (s : State) (n cause : Nat) (at_ : W32) (accepted : Bool) : (s.failQueue n cause at_ accepted).mem = s.mem := by
  unfold State.failQueue
  split <;> rfl

theorem State.failAfter_mem (s : State) (q : QRef) (seq : W32) (cause status : Nat) : (s.failAfter q seq cause status).mem = s.mem := by
  cases q with
  | host k => exact s.failQueue_mem ..
  | device c => rfl

theorem State.failBefore_mem (s : State) (q : QRef) (n cause status : Nat) : (s.failBefore q n cause status).mem = s.mem := by
  cases q <;> rfl

theorem State.setWait_mem (s : State) (q : QRef) (w : Option (WaitPkt × Nat × Nat)) : (s.setWait q w).mem = s.mem := by cases q <;> rfl

theorem State.holdTeardown_mem (s : State) (n : Nat) : (s.holdTeardown n).mem = s.mem := by
  unfold State.holdTeardown
  split
  · rfl
  · split
    · rfl
    · split <;> rfl

namespace State.MemOk

variable {s : State}

/-- What keeps the frame of a window keeps memory. -/
theorem window {t : State} (h : s.MemOk) (hw : s.WindowFrame t) : t.MemOk := h.of_mem hw.mem

/-- A store at a virtual address keeps the form, whatever follows where the address does not translate. -/
theorem dispStore {ctx : Nat} {va v : W64} {t : State} (h : s.MemOk) (ht : t.MemOk) : ((s.dispStore ctx va v).getD t).MemOk := by
  cases hs : s.dispStore ctx va v with
  | none => exact ht
  | some u => exact State.dispStore_memOk h hs

/-! ## The weaver (R56 to R66, R294) -/

theorem execCommitWindow (k : Nat) (h : s.MemOk) : AnswersMemOk (execCommitWindow k s) := by
  unfold Machine.execCommitWindow
  extract_lets t c gone s1 s2 stood s3 s4 go
  refine .ite .fault (.next ?_)
  have h1 : s1.MemOk := h.of_mem rfl
  have h2 : s2.MemOk := h1.window (.departures ..)
  have h3 : s3.MemOk := .ite (h2.window (.speedUps ..)) h2
  have h4 : s4.MemOk := (h3.window (.moltRequests ..)).window (.takeDecided ..)
  exact window (foldl (fun _ _ h => h.window (.admitFrom ..)) _ h4) (.flipTogether ..)

theorem execWeaveFlip (k : Nat) (h : s.MemOk) : AnswersMemOk (execWeaveFlip k s) := by
  unfold Machine.execWeaveFlip
  extract_lets cyc due go one back
  exact .ite .fault (.next (foldl (fun _ t h => h.lookWaitsAfresh t.sid) _ (h.of_mem rfl)))

theorem execScrubComplete (k : Nat) (h : s.MemOk) : AnswersMemOk (execScrubComplete k s) := .ite (.next (h.of_mem rfl)) .fault

theorem execStrandRetire (sid : Nat) (h : s.MemOk) : AnswersMemOk (execStrandRetire sid s) := by
  unfold Machine.execStrandRetire
  split
  · exact .fault
  · exact .ite (.next (h.endStrand sid _)) .fault

theorem execLaunchAgeing (n : Nat) (h : s.MemOk) : AnswersMemOk (execLaunchAgeing n s) := .ite (.next (h.of_mem rfl)) .fault

theorem execLaunchReservation (part : Nat) (h : s.MemOk) : AnswersMemOk (execLaunchReservation part s) := by
  unfold Machine.execLaunchReservation
  split
  · exact .fault
  · exact .next (h.of_mem rfl)

/-! ## Records and tasks (R47 to R49, R295 to R302) -/

theorem addRecord (ctx : Nat) (r : Record) (h : s.MemOk) : (s.addRecord ctx r).MemOk := h.of_mem rfl

theorem closeTask (t : Task) (r : Record) (h : s.MemOk) : (s.closeTask t r).MemOk := by
  have hs : ({ s with tasks := s.tasks.filter fun k => k.num != t.num } : State).MemOk := h.of_mem rfl
  exact (hs.addRecord _ r).window (.nodeEnded ..)

theorem execDigestReexecution (n : Nat) (h : s.MemOk) : AnswersMemOk (execDigestReexecution n s) := by
  unfold Machine.execDigestReexecution
  split
  · exact .fault
  · next t _ =>
    split
    · exact .next (h.closeTask t _)
    · exact .ite (.next (h.closeTask t _)) (.next (h.of_mem rfl))

theorem raiseCtx {ctx bit : Nat} (h : s.MemOk) : (s.raiseCtx ctx bit).MemOk := h.of_mem rfl

theorem failQueue (n cause : Nat) (at_ : W32) (accepted : Bool) (h : s.MemOk) : (s.failQueue n cause at_ accepted).MemOk :=
  h.of_mem (s.failQueue_mem ..)

theorem haltQueue (n cause : Nat) (at_ : W32) (accepted : Bool) (h : s.MemOk) : (s.haltQueue n cause at_ accepted).MemOk := h.of_mem rfl

theorem haltUnnamed (n cause : Nat) (h : s.MemOk) : (s.haltUnnamed n cause).MemOk := h.of_mem rfl

theorem execRingRecordWrite (ctx : Nat) (h : s.MemOk) : AnswersMemOk (execRingRecordWrite ctx s) := by
  unfold Machine.execRingRecordWrite
  split
  · exact .fault
  · refine .ite .fault ?_
    split
    · exact .fault
    · split
      · extract_lets s1
        have h1 : s1.MemOk := h.of_mem rfl
        exact .next (raiseCtx (foldl (fun _ n h => h.failQueue n _ _ _) _ h1))
      · extract_lets s1 s2 s3 s4
        have h2 : s2.MemOk := (State.busWrite_memOk _ h).of_mem rfl
        have h3 : s3.MemOk := State.busPut_memOk _ _ _ h2
        have h4 : s4.MemOk := .ite h3 (h3.dispStore h3)
        exact .next (.ite (h4.of_mem rfl) h4)

theorem enterLaunch (l : Launch) (h : s.MemOk) : (s.enterLaunch l).MemOk := by
  unfold State.enterLaunch
  extract_lets num s1 refuse
  have h1 : s1.MemOk := h.of_mem rfl
  have hrefuse (status : Nat) : (refuse status).MemOk := (h1.window (.refuseLaunch ..)).window (.nodeEnded ..)
  split
  · exact hrefuse 7
  · exact .ite (hrefuse 3) (h1.of_mem rfl)

theorem endTask (t : Task) (h : s.MemOk) : (s.endTask t).MemOk := by
  unfold State.endTask
  extract_lets status detail want r c s1
  split
  · exact h.of_mem rfl
  · have h1 : s1.MemOk := h.of_mem rfl
    exact .ite (.ite (h1.closeTask t r) (h1.of_mem rfl)) (h.closeTask t r)

/-! ## Packets and queues (R32 to R38, R44, R45) -/

theorem pass (q : QRef) (n : Nat) (h : s.MemOk) : (s.pass q n).MemOk := h.of_mem (s.pass_mem q n)

theorem execNopPacket (q : QRef) (h : s.MemOk) : AnswersMemOk (execNopPacket q s) := .onPacket (h.pass q 1)

theorem execLaunch (q : QRef) (p : LaunchPkt) (h : s.MemOk) : AnswersMemOk (execLaunch q p s) := .onPacket (enterLaunch _ (h.pass q 2))

theorem execGraph (q : QRef) (p : GraphPkt) (h : s.MemOk) : AnswersMemOk (execGraph q p s) := by
  unfold Machine.execGraph
  split
  · exact .fault
  · refine .ite .fault (.onPacket ?_)
    have hp : (s.pass q 1).MemOk := h.pass q 1
    extract_lets bad
    split
    · exact hp.of_mem (State.failAfter_mem ..)
    · exact hp.of_mem rfl

theorem onSeeds (q : QRef) {f : List W64 → Except Bool (List W64)} (h : s.MemOk) : AnswersMemOk (onSeeds q s f) := by
  unfold Machine.onSeeds
  split
  · exact .fault
  · refine .ite .fault ?_
    split
    · exact .next (.ite (h.of_mem (s.failBefore_mem ..)) (h.of_mem (s.failBefore_mem ..)))
    · exact .next ((h.pass q 1).of_mem rfl)

theorem execSeedpush (q : QRef) (v : W64) (h : s.MemOk) : AnswersMemOk (execSeedpush q v s) := h.onSeeds q

theorem execSeedpop (q : QRef) (h : s.MemOk) : AnswersMemOk (execSeedpop q s) := h.onSeeds q

theorem execSeedfork (q : QRef) (i : W32) (h : s.MemOk) : AnswersMemOk (execSeedfork q i s) := h.onSeeds q

theorem execWaitword (q : QRef) (p : WaitPkt) (h : s.MemOk) : AnswersMemOk (execWaitword q p s) :=
  .onPacket (.ite ((h.pass q 1).of_mem (State.setWait_mem ..)) ((h.pass q 1).of_mem (State.failAfter_mem ..)))

theorem execWaitwordPoll (q : QRef) (h : s.MemOk) : AnswersMemOk (execWaitwordPoll q s) := by
  unfold Machine.execWaitwordPoll
  split
  · exact .fault
  · have hw : (s.setWait q none).MemOk := h.of_mem (s.setWait_mem ..)
    refine .ite .fault ?_
    split
    · exact .next (hw.of_mem (State.failAfter_mem ..))
    · exact .ite (.next hw) (.next (of_mem (h.of_mem rfl) (State.setWait_mem ..)))

theorem execWaitTimeout (q : QRef) (h : s.MemOk) : AnswersMemOk (execWaitTimeout q s) := by
  unfold Machine.execWaitTimeout
  split
  · exact .fault
  · have hw : (s.setWait q none).MemOk := h.of_mem (s.setWait_mem ..)
    exact .ite .fault (.next (hw.of_mem (State.failAfter_mem ..)))

theorem execSetword (q : QRef) (p : SetPkt) (h : s.MemOk) : AnswersMemOk (execSetword q p s) := by
  have hp : (s.pass q 1).MemOk := h.pass q 1
  have hfail : ((s.pass q 1).failAfter q p.seq 10 12).MemOk := hp.of_mem (State.failAfter_mem ..)
  exact .onPacket (.ite hfail (.ite (hp.of_mem rfl) (hp.dispStore hfail)))

theorem execAfterPriorStore (n : Nat) (h : s.MemOk) : AnswersMemOk (execAfterPriorStore n s) := by
  unfold Machine.execAfterPriorStore
  split
  · exact .fault
  · refine .ite .fault ?_
    extract_lets s1
    have h1 : s1.MemOk := h.of_mem rfl
    exact .next (h1.dispStore (h1.of_mem (State.failAfter_mem ..)))

theorem execQuota (q : QRef) (p : QuotaPkt) (h : s.MemOk) : AnswersMemOk (execQuota q p s) := by
  have hp : (s.pass q 1).MemOk := h.pass q 1
  refine .onPacket ?_
  dsimp only
  split
  · exact hp
  · exact .ite (hp.of_mem rfl) (hp.of_mem rfl)

theorem execTeardown (q : QRef) (h : s.MemOk) : AnswersMemOk (execTeardown q s) := by
  unfold Machine.execTeardown
  split
  · exact .fault
  · next c _ =>
    refine .onPacket ?_
    extract_lets n s1 just s2 mine waits passing queued reps cancelled shut s3 s4 gone s5 s6 rec'
    have h1 : s1.MemOk := foldl (fun _ k h => h.haltQueue k 8 _ true) _ (h.pass q 1)
    have h4 : s4.MemOk := foldl (fun _ _ h => h.endStrand _ none) _ (of_mem h1 rfl)
    have h5 : s5.MemOk := foldl (fun _ t h => h.noteEnd t none) gone h4
    exact of_mem (of_mem h5 rfl) (State.holdTeardown_mem ..)

theorem takePacket (q : QRef) (bs : List Byte) (h : s.MemOk) : (s.takePacket q bs).MemOk := by
  unfold State.takePacket
  split
  · exact h.of_mem (s.failBefore_mem ..)
  · exact .ite h (h.of_mem rfl)

theorem serveHost (n : Nat) (h : s.MemOk) : (s.serveHost n).MemOk := by
  unfold State.serveHost
  extract_lets q
  refine .ite (h.of_mem rfl) ?_
  split
  · exact h.of_mem rfl
  · exact .ite (h.takePacket ..) (h.of_mem rfl)

theorem serveDevice (c : Nat) (h : s.MemOk) : (s.serveDevice c).MemOk := by
  unfold State.serveDevice
  split
  · exact h.of_mem rfl
  · exact h.takePacket ..

theorem execPacketReread (q : QRef) (h : s.MemOk) : AnswersMemOk (execPacketReread q s) := by
  cases q with
  | device c => exact .fault
  | host n =>
    unfold Machine.execPacketReread
    dsimp only
    split
    · exact .fault
    · refine .ite .fault ?_
      split
      · exact .next (h.of_mem rfl)
      · exact .ite (.next (takePacket _ _ (h.of_mem rfl))) (.next (h.of_mem rfl))

theorem execTornPacket (q : QRef) (h : s.MemOk) : AnswersMemOk (execTornPacket q s) := by
  cases q with
  | device c => exact .fault
  | host n =>
    unfold Machine.execTornPacket
    dsimp only
    split
    · exact .fault
    · exact .ite .fault (.next (h.of_mem rfl))

theorem serveNext (h : s.MemOk) : s.serveNext.MemOk := by
  unfold State.serveNext
  split
  · exact h
  · extract_lets k u
    have hu : u.MemOk := h.of_mem rfl
    split
    · exact hu.serveHost _
    · exact hu.serveDevice _

/-! ## Graphs (R39 to R43) -/

theorem activateEdge (rep from_ edge : Nat) (seed : W64) (h : s.MemOk) : (s.activateEdge rep from_ edge seed).MemOk := h.of_mem rfl

theorem control (r : Replay) (w : NodeWords) {f : W64 → State → State} (h : s.MemOk) (hf : ∀ v, (f v s).MemOk) :
    (s.control r w f).MemOk := by
  unfold State.control
  extract_lets a
  split
  · exact h.of_mem rfl
  · exact hf _

theorem execTaskNode (rep : Nat) (a : Activation) (w : NodeWords) (h : s.MemOk) : AnswersMemOk (execTaskNode rep a w s) :=
  .onNode h fun _ _ h => enterLaunch _ (h.of_mem rfl)

theorem execCond (rep : Nat) (a : Activation) (w : NodeWords) (h : s.MemOk) : AnswersMemOk (execCond rep a w s) :=
  .onNode h fun r _ h => h.control r w fun _ => h.activateEdge ..

theorem execLoopNode (rep : Nat) (a : Activation) (w : NodeWords) (h : s.MemOk) : AnswersMemOk (execLoopNode rep a w s) :=
  .onNode h fun r _ h => h.control r w fun _ => .ite (.ite (h.of_mem rfl) (h.of_mem rfl)) (h.of_mem rfl)

theorem execSwitch (rep : Nat) (a : Activation) (w : NodeWords) (h : s.MemOk) : AnswersMemOk (execSwitch rep a w s) :=
  .onNode h fun r _ h => h.control r w fun _ => h.activateEdge ..

theorem execJoin (rep : Nat) (a : Activation) (w : NodeWords) (h : s.MemOk) : AnswersMemOk (execJoin rep a w s) :=
  .onNode h fun _ _ h => .ite (h.of_mem rfl) (h.of_mem rfl)

theorem execSeedNode (rep : Nat) (a : Activation) (w : NodeWords) (h : s.MemOk) : AnswersMemOk (execSeedNode rep a w s) :=
  .onNode h fun _ _ h => h.activateEdge ..

theorem execEndNode (rep : Nat) (a : Activation) (w : NodeWords) (h : s.MemOk) : AnswersMemOk (execEndNode rep a w s) :=
  .onNode h fun _ _ h => h.of_mem rfl

theorem serveReplays (h : s.MemOk) : s.serveReplays.MemOk := by
  unfold State.serveReplays
  extract_lets ended s1 s2
  have h1 : s1.MemOk := by
    refine foldl (fun s r h => ?_) ended h
    exact h.addRecord ..
  have h2 : s2.MemOk := h1.of_mem rfl
  refine foldl (fun s r h => ?_) _ h2
  refine .ite h ?_
  split
  · exact h
  · split
    · exact h.of_mem rfl
    · split
      · exact h.of_mem rfl
      · exact h.of_mem rfl

/-! ## The host (R28 to R32, R147, R160, R287 to R289, R304) -/

theorem execActivate (ctx : Nat) (h : s.MemOk) : AnswersMemOk (execActivate ctx s) :=
  .accepted h (.ite (.next (h.of_mem rfl)) (.ite (.next (h.of_mem rfl)) (.next (h.of_mem rfl))))

theorem execRelease (ctx : Nat) (h : s.MemOk) : AnswersMemOk (execRelease ctx s) := by
  refine .accepted h ?_
  extract_lets n
  split
  · exact .next (h.of_mem rfl)
  · exact .ite (.next (h.of_mem rfl)) (.next (h.of_mem rfl))

theorem execQueueEnable (q : Nat) (v : W64) (h : s.MemOk) : AnswersMemOk (execQueueEnable q v s) :=
  .accepted h (.ite (.next h) (.ite (.next (.ite h (h.of_mem rfl)))
    (.ite (.next (h.of_mem rfl)) (.next (.ite (h.of_mem rfl) (h.of_mem rfl))))))

theorem execQkick (q : Nat) (tail : W32) (h : s.MemOk) : AnswersMemOk (execQkick q tail s) := .accepted h (.next (h.of_mem rfl))

theorem execQcmdResume (q : Nat) (h : s.MemOk) : AnswersMemOk (execQcmdResume q s) :=
  .accepted h (.ite (.next h) (.next (h.of_mem rfl)))

theorem execQcmdSkip (q : Nat) (h : s.MemOk) : AnswersMemOk (execQcmdSkip q s) := .accepted h (.ite (.next h) (.next (h.of_mem rfl)))

theorem tlbinv (f : TlbEntry → Bool) (w : W64) (h : s.MemOk) : ({ s.dropTlb f with tlbinv := w } : State).MemOk := h.of_mem rfl

theorem execTlbinvOnePage (ctx : Nat) (h : s.MemOk) : AnswersMemOk (execTlbinvOnePage ctx s) := .accepted h (.next (h.tlbinv _ _))

theorem execTlbinvWholeContext (ctx : Nat) (h : s.MemOk) : AnswersMemOk (execTlbinvWholeContext ctx s) := .accepted h (.next (h.tlbinv _ _))

theorem fresh (h : s.MemOk) : s.fresh.2.MemOk := h.of_mem rfl

theorem mbxctl (w : W64) (h : s.MemOk) : ({ s with mbxctl := w } : State).MemOk := h.of_mem rfl

theorem execMbxctl (strand : W32) (i : Nat) (h : s.MemOk) : AnswersMemOk (execMbxctl strand i s) := by
  refine .accepted h ?_
  extract_lets n r
  have hr : r.2.MemOk := (h.mbxctl n).fresh
  split
  · exact .next (.ite (h.mbxctl n) hr.modStrand)
  · exact .next (h.mbxctl n)

theorem holdEnds (w : W64) (h : s.MemOk) : ({ s with holding := none, pecmd := w } : State).MemOk := h.of_mem rfl

theorem endHold (h : s.MemOk) : s.endHold.MemOk := by
  unfold State.endHold
  split
  · exact h
  · exact .ite (raiseCtx (h.holdEnds _)) h

theorem execHold (w : W64) (h : s.MemOk) : AnswersMemOk (execHold w s) := .onPecmd h (endHold (h.of_mem rfl))

theorem resumeStrand (t : Strand) (h : s.MemOk) : (s.resumeStrand t).MemOk :=
  .ite (window (lookWaitsAfresh t.sid h.modStrand) (.afresh ..)) h

theorem execPecmdResume (w : W64) (h : s.MemOk) : AnswersMemOk (execPecmdResume w s) := by
  refine .onPecmd h (.ite (h.of_mem rfl) ?_)
  exact of_mem (foldl (fun _ t h => h.resumeStrand t) _ h) rfl

theorem writeImages (ctx : Nat) (ts : List Strand) : ∀ {s t : State} {va : W64}, s.MemOk → s.writeImages ctx va ts = some t → t.MemOk := by
  induction ts with
  | nil =>
    intro s t va h ht
    rwa [← Option.some.inj ht]
  | cons x xs ih =>
    intro s t va h ht
    unfold State.writeImages at ht
    split at ht
    · cases ht
    · next u hu =>
      obtain ⟨cells, -, rfl⟩ := Option.map_eq_some_iff.1 hu
      have hwritten : (s.busWrite cells).MemOk := State.busWrite_memOk cells h
      refine ih ?_ ht
      exact hwritten.of_mem rfl

theorem saveStrand (t : Strand) (h : s.MemOk) : (s.saveStrand t).MemOk := h.of_mem rfl

theorem execSave (w : W64) (h : s.MemOk) : AnswersMemOk (execSave w s) := by
  refine .onPecmd h (.ite (h.of_mem rfl) ?_)
  split
  · exact h.of_mem rfl
  · next u hu =>
    have hu : u.MemOk := writeImages _ _ h hu
    exact of_mem (foldl (fun _ t h => h.saveStrand t) _ hu) rfl

theorem enterImage (t : Strand) (h : s.MemOk) : (s.enterImage t).MemOk := .ite h (h.of_mem rfl)

theorem execRestore (w : W64) (h : s.MemOk) : AnswersMemOk (execRestore w s) := by
  refine .onPecmd h ?_
  dsimp only
  split
  · exact h.of_mem rfl
  · exact h.of_mem rfl
  · exact of_mem (foldl (fun _ t h => h.enterImage t) _ h) rfl

theorem modStack {k : Nat} {f : Stack → Stack} (h : s.MemOk) : (s.modStack k f).MemOk := h.of_mem rfl

/-! ## Resets and the link (R306 to R309, R319, R322) -/

theorem resetStrand (t : Strand) (h : s.MemOk) : (s.resetStrand t).MemOk := h.of_mem rfl

theorem resetStack (k : Nat) (h : s.MemOk) : (s.resetStack k).MemOk := by
  unfold State.resetStack
  extract_lets u
  have hu : u.MemOk := foldl (fun _ t h => h.resetStrand t) _ h
  exact hu.of_mem rfl

theorem resetCompute (h : s.MemOk) : s.resetCompute.MemOk := foldl (fun _ k h => h.resetStack k) _ h

theorem beginReset (ks : List Nat) (whole : Bool) (h : s.MemOk) : (s.beginReset ks whole).MemOk := by
  refine .ite h ?_
  have h1 : (ks.foldl State.resetStack s).MemOk := foldl (fun _ k h => h.resetStack k) ks h
  exact of_mem (foldl (fun _ _ h => h.modStack) ks h1) rfl

theorem partsUp (parts : List Nat) (h : s.MemOk) : (parts.foldl (fun s k => s.modStack k fun t => { t with up := true }) s).MemOk :=
  foldl (fun _ _ h => h.modStack) parts h

theorem endReset (h : s.MemOk) : s.endReset.MemOk := by
  unfold State.endReset
  split
  · exact h
  · exact .ite (of_mem (h.partsUp _) rfl) (of_mem (h.partsUp _) rfl)

theorem execStackReset (k : Nat) (h : s.MemOk) : AnswersMemOk (execStackReset k s) := .next (.ite (h.beginReset _ _) h)

theorem execComputeReset (h : s.MemOk) : AnswersMemOk (execComputeReset s) := .next (h.beginReset _ _)

theorem execFunctionLevelReset (h : s.MemOk) : AnswersMemOk (execFunctionLevelReset s) := .next (h.beginReset _ _)

theorem execColdReset (h : s.MemOk) : AnswersMemOk (execColdReset s) := .next (State.cold_memOk h)

theorem execPowerLoss (h : s.MemOk) : AnswersMemOk (execPowerLoss s) := .next (of_mem (State.cold_memOk h) rfl)

theorem execIslandReset (h : s.MemOk) : AnswersMemOk (execIslandReset s) := by
  have hs : s.superseded.MemOk := by
    unfold State.superseded
    split
    · exact h
    · exact .ite (of_mem (h.partsUp _) rfl) h
  exact .next (hs.of_mem rfl)

theorem failHostEntries (h : s.MemOk) : s.failHostEntries.MemOk := by
  unfold State.failHostEntries
  extract_lets one all
  have hone (u : State) (r : CRef) (n : QName) (e : Entry) (h : u.MemOk) : (one u r n e).MemOk := by
    unfold one
    split
    · split
      · exact h.fail
      · exact h
    · exact h
  have hall (u : State) (r : CRef) (h : u.MemOk) : (all u r).MemOk := by
    unfold all
    split
    · exact h
    · exact foldl (fun _ n h => foldl (fun _ e h => hone _ r n e h) _ h) _ h
  exact foldl (fun _ _ h => foldl hall _ h) _ (h.of_mem rfl)

theorem execSurpriseLinkLoss (h : s.MemOk) : AnswersMemOk (execSurpriseLinkLoss s) := by
  refine .ite .fault (.next ?_)
  exact foldl (fun _ n h => h.haltUnnamed n 9) _ (of_mem h.failHostEntries rfl)

theorem execLinkgraceExpiry (h : s.MemOk) : AnswersMemOk (execLinkgraceExpiry s) := by
  unfold Machine.execLinkgraceExpiry
  split
  · exact .fault
  · exact .ite .fault (.next (h.of_mem rfl))

theorem execLinkRetrain (h : s.MemOk) : AnswersMemOk (execLinkRetrain s) := .ite .fault (.next (h.of_mem rfl))

theorem execLinkcmdResume (h : s.MemOk) : AnswersMemOk (execLinkcmdResume s) :=
  .accepted h (.next (of_mem (foldl (fun _ t h => h.resumeStrand t) _ h) rfl))

theorem execThermalSafetyTrip (h : s.MemOk) : AnswersMemOk (execThermalSafetyTrip s) := .next (of_mem h.resetCompute rfl)

/-! ## Power and errors (R272 to R279, R290, R292, R321) -/

theorem execPwrenv (k : Nat) (w : W64) (h : s.MemOk) : AnswersMemOk (execPwrenv k w s) := .accepted h (.next (h.of_mem rfl))

theorem execGovernorEvaluation (k : Nat) (h : s.MemOk) : AnswersMemOk (execGovernorEvaluation k s) := by
  unfold Machine.execGovernorEvaluation
  extract_lets t env thermal ceiling top ds needs want point s1 r
  have h1 : s1.MemOk := by
    refine foldl (fun s x h => .ite (modStrand ?_) h) ds h
    exact h.of_mem rfl
  exact .ite .fault (.next (h1.of_mem rfl))

theorem execOperatingPointChange (k : Nat) (h : s.MemOk) : AnswersMemOk (execOperatingPointChange k s) := by
  unfold Machine.execOperatingPointChange
  split
  · exact .ite .fault (.next (h.of_mem rfl))
  · exact .fault

theorem charge (ctx n : Nat) (h : s.MemOk) : (s.charge ctx n).MemOk := by
  unfold State.charge
  split
  · exact h
  · exact .ite (h.of_mem rfl) (h.of_mem rfl)

theorem meter (k mj : Nat) (h : s.MemOk) : (s.meter k mj).MemOk := by
  refine .ite h (foldl (fun s t h => ?_) _ h)
  exact charge _ _ (h.of_mem rfl)

theorem execEnergyMetering (mj : List (Nat × Nat)) (h : s.MemOk) : AnswersMemOk (execEnergyMetering mj s) :=
  .next (foldl (fun _ e h => h.meter e.1 e.2) mj (h.of_mem rfl))

theorem execDroopDetectorTrip (k : Nat) (h : s.MemOk) : AnswersMemOk (execDroopDetectorTrip k s) := .next (h.of_mem rfl)

theorem execDroopSignatureMatch (k : Nat) (h : s.MemOk) : AnswersMemOk (execDroopSignatureMatch k s) := .ite .fault (.next (h.of_mem rfl))

theorem execDroopStretchEnd (k : Nat) (h : s.MemOk) : AnswersMemOk (execDroopStretchEnd k s) := .ite (.next (h.of_mem rfl)) .fault

theorem execDroopclr (m : BitVec 4) (h : s.MemOk) : AnswersMemOk (execDroopclr m s) :=
  .accepted h (.next (foldl (fun _ _ h => .ite h.modStack h) _ h))

theorem retentionLoss (unit : Nat) (h : s.MemOk) : (s.retentionLoss unit).MemOk := by
  refine foldl (fun s t h => ?_) _ (h.of_mem rfl)
  split
  · exact h.of_mem rfl
  · exact h

theorem parityCheck (unit : Nat) (h : s.MemOk) : (s.parityCheck unit).MemOk := .ite (retentionLoss unit (h.of_mem rfl)) (h.of_mem rfl)

theorem pwrMove (kind unit : Nat) (p : Power) (h : s.MemOk) : (s.pwrMove kind unit p).MemOk :=
  .ite (h.of_mem rfl) (foldl (fun _ c h => h.parityCheck c) _ (h.of_mem rfl))

theorem execActive (kind unit : Nat) (h : s.MemOk) : AnswersMemOk (execActive kind unit s) := .accepted h (.next (h.pwrMove ..))

theorem execGated (kind unit : Nat) (h : s.MemOk) : AnswersMemOk (execGated kind unit s) := .accepted h (.next (h.pwrMove ..))

theorem execRetain (kind unit : Nat) (h : s.MemOk) : AnswersMemOk (execRetain kind unit s) := .accepted h (.next (h.pwrMove ..))

theorem execOff (kind unit : Nat) (h : s.MemOk) : AnswersMemOk (execOff kind unit s) := .accepted h (.next (h.pwrMove ..))

theorem execErrcfg (w : W64) (h : s.MemOk) : AnswersMemOk (execErrcfg w s) := .accepted h (.ite (.next h) (.next (h.of_mem rfl)))

theorem execFenceclr (w : W64) (h : s.MemOk) : AnswersMemOk (execFenceclr w s) := .accepted h (.next (.ite (h.of_mem rfl) h))

theorem retest (h : s.MemOk) : s.retest.MemOk := by
  refine foldl (fun s w h => .ite h ?_) _ h
  have hw : ({ s with waiting := s.waiting.filter fun x => x.num != w.num } : State).MemOk := h.of_mem rfl
  exact (hw.window (.refuseLaunch ..)).window (.nodeEnded ..)

theorem fence (u : HwUnit) (h : s.MemOk) : (s.fence u).MemOk := by
  refine .ite h (retest ?_)
  split
  · exact h.of_mem rfl
  · exact foldl (fun _ _ h => h.raiseCtx) _ (h.of_mem rfl)

theorem countError (u : HwUnit) (h : s.MemOk) : (s.countError u).MemOk := .ite (fence u (h.of_mem rfl)) (h.of_mem rfl)

theorem strike (u : HwUnit) (at_ : Nat) (h : s.MemOk) : (s.strike u at_).MemOk := by
  cases u with
  | dram g => exact h.of_mem rfl
  | cxl p => exact .ite (h.of_mem rfl) h
  | bank n b => exact h.of_mem rfl
  | plane n b => exact h.of_mem rfl
  | accBank n b => exact h.of_mem rfl
  | core n => exact h.of_mem rfl
  | port p => exact h

theorem execCorrectedError (u : HwUnit) (h : s.MemOk) : AnswersMemOk (execCorrectedError u s) := .next (h.countError u)

theorem execUncorrectableError (u : HwUnit) (at_ : Nat) (h : s.MemOk) : AnswersMemOk (execUncorrectableError u at_ s) :=
  .next (fence u (h.strike u at_))

/-! ## The island (R303, R310 to R319) -/

theorem refuseWrite (ofs : Nat) (w : W64) (h : s.MemOk) : (s.refuseWrite ofs w).MemOk :=
  .ite (.ite (h.of_mem rfl) h) (.ite (.ite (h.of_mem rfl) h) (.ite (h.of_mem rfl) h))

theorem execRegisterWrite (ofs : Nat) (w : W64) (h : s.MemOk) : AnswersMemOk (execRegisterWrite ofs w s) := by
  refine .accepted h (.next ?_)
  refine .ite h (.ite h (.ite (.ite h (.ite (h.of_mem rfl) (.ite (h.of_mem rfl) h))) ?_))
  refine .ite (h.of_mem rfl) (.ite (h.of_mem rfl) (.ite (h.of_mem rfl) (.ite (h.of_mem rfl) (.ite (h.of_mem rfl) ?_))))
  refine .ite (h.of_mem rfl) (.ite (h.of_mem rfl) (.ite (h.of_mem rfl) (.ite (h.of_mem rfl) (.ite (h.of_mem rfl) ?_))))
  exact .ite (.ite h (h.of_mem rfl)) h

theorem execDrefc (ctx : Nat) (w : W64) (h : s.MemOk) : AnswersMemOk (execDrefc ctx w s) := .accepted h (.next (.ite h (h.of_mem rfl)))

theorem writePecmd (w : W64) (h : s.MemOk) : AnswersMemOk (writePecmd w s) := by
  unfold Machine.writePecmd
  split
  · exact h.execHold w
  · exact h.execPecmdResume w
  · exact h.execSave w
  · exact h.execRestore w
  · exact .next h

theorem writeResetcmd (w : W64) (h : s.MemOk) : AnswersMemOk (writeResetcmd w s) := by
  refine .ite (.next h) ?_
  extract_lets u ks
  have hu : u.MemOk := h.of_mem rfl
  exact .ite hu.execComputeReset (.next (.ite hu (hu.beginReset ..)))

theorem writePwrcmd (w : W64) (h : s.MemOk) : AnswersMemOk (writePwrcmd w s) := by
  unfold Machine.writePwrcmd
  extract_lets kind unit
  split
  · exact h.execActive _ _
  · exact h.execGated _ _
  · exact h.execRetain _ _
  · exact h.execOff _ _

theorem writeReg (ofs : Nat) (w : W64) (h : s.MemOk) : AnswersMemOk (writeReg ofs w s) := by
  have hnext : AnswersMemOk (.next s) := .next h
  refine .ite (.next (h.refuseWrite ofs w)) (.ite (h.execQueueEnable _ _) (.ite (h.execQkick _ _) ?_))
  refine .ite (.ite (h.execQcmdResume _) (.ite (h.execQcmdSkip _) hnext)) (.ite (h.writePecmd w) (.ite (h.execDrefc _ _) ?_))
  refine .ite (.ite (h.execActivate _) (.ite (h.execRelease _) hnext)) ?_
  refine .ite (.ite (h.execTlbinvOnePage _) (.ite (h.execTlbinvWholeContext _) hnext)) (.ite (h.execMbxctl _ _) ?_)
  refine .ite (.ite h.execLinkcmdResume hnext) (.ite (h.writeResetcmd w) (.ite (h.execPwrenv _ _) (.ite (h.execDroopclr _) ?_)))
  exact .ite (h.writePwrcmd w) (.ite (h.execErrcfg w) (.ite (h.execFenceclr w) (h.execRegisterWrite ofs w)))

theorem execHostMemoryRead (bar ofs n : Nat) (h : s.MemOk) : AnswersMemOk (execHostMemoryRead bar ofs n s) := by
  refine .ite .fault (.ite (.next h) (.ite (.next (h.of_mem rfl)) ?_))
  split
  · exact .next (.ite (h.of_mem rfl) (h.of_mem rfl))
  · exact .next (h.of_mem rfl)

theorem execHostMemoryWrite (bar ofs : Nat) (bytes : List Byte) (h : s.MemOk) : AnswersMemOk (execHostMemoryWrite bar ofs bytes s) := by
  refine .ite .fault (.ite (.next h) (.ite (.ite ?_ (.ite (h.writeReg _ _) (.next h))) ?_))
  · split
    · next u hu => exact writeReg _ _ (h.writeReg _ _ u hu)
    · exact h.writeReg _ _
  · split
    · exact .next (State.busWrite_memOk _ h)
    · exact .next h

theorem execDomainAccess (from_ : Nat) (write : Bool) (ofs size : Nat) (v : W64) (h : s.MemOk) :
    AnswersMemOk (execDomainAccess from_ write ofs size v s) := by
  refine .next (.ite (.ite ?_ (h.of_mem rfl)) ?_)
  · unfold State.send
    split
    · exact h.of_mem rfl
    · exact h
  · split
    · exact h.of_mem rfl
    · have hanswer : (s.answerEmpty true).MemOk := h.of_mem rfl
      refine .ite (.ite (hanswer.of_mem (State.ring_mem ..)) (State.busWrite_memOk _ hanswer)) ?_
      exact .ite (h.of_mem rfl) (h.of_mem rfl)

theorem execFlitReplay (port : Nat) (h : s.MemOk) : AnswersMemOk (execFlitReplay port s) := .next (countError _ (h.of_mem rfl))

theorem execStop (port vc : Nat) (h : s.MemOk) : AnswersMemOk (execStop port vc s) := .next (h.of_mem rfl)

theorem execGo (port vc : Nat) (h : s.MemOk) : AnswersMemOk (execGo port vc s) := .next (h.of_mem rfl)

theorem execDoorbell (ctx : Nat) (v : W64) (h : s.MemOk) : AnswersMemOk (execDoorbell ctx v s) := .next (h.of_mem rfl)

theorem execCompletionEntryWrite (ctx : Nat) (va v : W64) (h : s.MemOk) : AnswersMemOk (execCompletionEntryWrite ctx va v s) :=
  .next (h.dispStore h)

theorem execFirmwareUpdate (target version image : Nat) (h : s.MemOk) : AnswersMemOk (execFirmwareUpdate target version image s) :=
  .next (.ite (h.of_mem rfl) (h.of_mem rfl))

theorem execAttestation (h : s.MemOk) : AnswersMemOk (execAttestation s) := .next (.ite (h.of_mem rfl) h)

end State.MemOk

end Sys2Proof.Machine
end

section
/-! Memory keeps its form: a strand's slots, the clocks, every event and every input (R7, R18 to R21, R89 to R114, R255). -/

namespace Sys2Proof.Machine

/-- An event runs the instruction of its name. -/
theorem exists_runEv_eq_exec (s : State) : ∀ e : Ev, ∃ i, runEv e s = exec i s
  | .mcfgStart c e => ⟨.mcfgStart c e, rfl⟩
  | .cfgldStart c e => ⟨.cfgldStart c e, rfl⟩
  | .cfgswapStart c e => ⟨.cfgswapStart c e, rfl⟩
  | .cfgswapFlip c e => ⟨.cfgswapFlip c e, rfl⟩
  | .mgoStart c => ⟨.mgoStart c, rfl⟩
  | .matrixBlockStep c => ⟨.matrixBlockStep c, rfl⟩
  | .mstopStart c => ⟨.mstopStart c, rfl⟩
  | .mbaseStart c => ⟨.mbaseStart c, rfl⟩
  | .mfmtStart c => ⟨.mfmtStart c, rfl⟩
  | .aczeroStart c => ⟨.aczeroStart c, rfl⟩
  | .xcopyStart c => ⟨.xcopyStart c, rfl⟩
  | .xcopyChunk c id j => ⟨.xcopyChunk c id j, rfl⟩
  | .tsldStart c => ⟨.tsldStart c, rfl⟩
  | .tsevStart c => ⟨.tsevStart c, rfl⟩
  | .tloadStart c => ⟨.tloadStart c, rfl⟩
  | .tloadReplace c => ⟨.tloadReplace c, rfl⟩
  | .rloadStart c => ⟨.rloadStart c, rfl⟩
  | .rloadReplace c => ⟨.rloadReplace c, rfl⟩
  | .rstepStart c => ⟨.rstepStart c, rfl⟩
  | .rstepGeneration c => ⟨.rstepGeneration c, rfl⟩
  | .loadPerform r => ⟨.loadPerform r, rfl⟩
  | .loadDataArrival r => ⟨.loadDataArrival r, rfl⟩
  | .storePerform r => ⟨.storePerform r, rfl⟩
  | .ecopyPerform r => ⟨.ecopyPerform r, rfl⟩
  | .atomicPerform r => ⟨.atomicPerform r, rfl⟩
  | .baraPerform r => ⟨.baraPerform r, rfl⟩
  | .enqPerform r => ⟨.enqPerform r, rfl⟩
  | .markerRetire r => ⟨.markerRetire r, rfl⟩
  | .elasticWaitResume sid => ⟨.elasticWaitResume sid, rfl⟩
  | .fetchLineFill sid => ⟨.fetchLineFill sid, rfl⟩
  | .translationWalk sid => ⟨.translationWalk sid, rfl⟩
  | .powerGrant k => ⟨.powerGrant k, rfl⟩
  | .regionLevelFall sid => ⟨.regionLevelFall sid, rfl⟩
  | .stallWatchdog sid => ⟨.stallWatchdog sid, rfl⟩
  | .deadlineLapse sid => ⟨.deadlineLapse sid, rfl⟩
  | .strandStop sid => ⟨.strandStop sid, rfl⟩
  | .drainEnd sid => ⟨.drainEnd sid, rfl⟩
  | .preemptionHold sid => ⟨.preemptionHold sid, rfl⟩
  | .commitWindow k => ⟨.commitWindow k, rfl⟩
  | .weaveFlip k => ⟨.weaveFlip k, rfl⟩
  | .scrubComplete k => ⟨.scrubComplete k, rfl⟩
  | .strandRetire sid => ⟨.strandRetire sid, rfl⟩
  | .digestReexecution task => ⟨.digestReexecution task, rfl⟩
  | .ringRecordWrite ctx => ⟨.ringRecordWrite ctx, rfl⟩
  | .nopPacket q => ⟨.nopPacket q, rfl⟩
  | .launch q p => ⟨.launch q p, rfl⟩
  | .graph q p => ⟨.graph q p, rfl⟩
  | .seedpush q v => ⟨.seedpush q v, rfl⟩
  | .seedpop q => ⟨.seedpop q, rfl⟩
  | .seedfork q i => ⟨.seedfork q i, rfl⟩
  | .waitword q p => ⟨.waitword q p, rfl⟩
  | .waitwordPoll q => ⟨.waitwordPoll q, rfl⟩
  | .waitTimeout q => ⟨.waitTimeout q, rfl⟩
  | .setword q p => ⟨.setword q p, rfl⟩
  | .afterPriorStore n => ⟨.afterPriorStore n, rfl⟩
  | .teardown q => ⟨.teardown q, rfl⟩
  | .quota q p => ⟨.quota q p, rfl⟩
  | .packetReread q => ⟨.packetReread q, rfl⟩
  | .tornPacket q => ⟨.tornPacket q, rfl⟩
  | .launchAgeing n => ⟨.launchAgeing n, rfl⟩
  | .launchReservation part => ⟨.launchReservation part, rfl⟩
  | .taskNode rep a w => ⟨.taskNode rep a w, rfl⟩
  | .cond rep a w => ⟨.cond rep a w, rfl⟩
  | .loopNode rep a w => ⟨.loopNode rep a w, rfl⟩
  | .switch rep a w => ⟨.switch rep a w, rfl⟩
  | .join rep a w => ⟨.join rep a w, rfl⟩
  | .seedNode rep a w => ⟨.seedNode rep a w, rfl⟩
  | .endNode rep a w => ⟨.endNode rep a w, rfl⟩
  | .linkgraceExpiry => ⟨.linkgraceExpiry, rfl⟩
  | .governorEvaluation k => ⟨.governorEvaluation k, rfl⟩
  | .operatingPointChange k => ⟨.operatingPointChange k, rfl⟩
  | .droopSignatureMatch k => ⟨.droopSignatureMatch k, rfl⟩
  | .doorbell ctx v => ⟨.doorbell ctx v, rfl⟩
  | .droopStretchEnd k => ⟨.droopStretchEnd k, rfl⟩
  | .thermalSafetyTrip => ⟨.thermalSafetyTrip, rfl⟩

namespace State.MemOk

variable {s : State}

/-- A syllable keeps the form: it changes no memory (O33's frame), and answers only where it issues. -/
theorem syllable {i : Instr} {f : View → State} (h : s.MemOk) (hi : encode i ≠ []) (hf : exec i s = withView s f) :
    AnswersMemOk (exec i s) := by
  intro t ht
  obtain ⟨v, hv, -⟩ := withView_next (hf ▸ ht)
  have hframe := exec_issued i s hi v t hv ht
  exact h.of_mem (by rw [hframe.rest])

/-- Every instruction, step and event keeps the form. -/
theorem exec (i : Instr) (h : s.MemOk) : AnswersMemOk (exec i s) := by
  cases i
  case mcfgStart c e => exact h.execMcfgStart c e
  case cfgldStart c e => exact h.execCfgldStart c e
  case cfgswapStart c e => exact h.execCfgswapStart c e
  case cfgswapFlip c e => exact h.execCfgswapFlip c e
  case mgoStart c => exact h.execMgoStart c
  case matrixBlockStep c => exact h.execMatrixBlockStep c
  case mstopStart c => exact h.execMstopStart c
  case mbaseStart c => exact h.execMbaseStart c
  case mfmtStart c => exact h.execMfmtStart c
  case aczeroStart c => exact h.execAczeroStart c
  case xcopyStart c => exact h.execXcopyStart c
  case xcopyChunk c id j => exact h.execXcopyChunk c id j
  case tsldStart c => exact h.execTsldStart c
  case tsevStart c => exact h.execTsevStart c
  case tloadStart c => exact h.execTloadStart c
  case tloadReplace c => exact h.execTloadReplace c
  case rloadStart c => exact h.execRloadStart c
  case rloadReplace c => exact h.execRloadReplace c
  case rstepStart c => exact h.execRstepStart c
  case rstepGeneration c => exact h.execRstepGeneration c
  case loadPerform r => exact h.execLoadPerform r
  case loadDataArrival r => exact h.execLoadDataArrival r
  case storePerform r => exact h.execStorePerform r
  case ecopyPerform r => exact h.execEcopyPerform r
  case atomicPerform r => exact h.execAtomicPerform r
  case baraPerform r => exact h.execBaraPerform r
  case enqPerform r => exact h.execEnqPerform r
  case markerRetire r => exact h.execMarkerRetire r
  case elasticWaitResume sid => exact h.execElasticWaitResume sid
  case fetchLineFill sid => exact h.execFetchLineFill sid
  case translationWalk sid => exact h.execTranslationWalk sid
  case powerGrant k => exact h.execPowerGrant k
  case regionLevelFall sid => exact h.execRegionLevelFall sid
  case stallWatchdog sid => exact h.execStallWatchdog sid
  case deadlineLapse sid => exact h.execDeadlineLapse sid
  case strandStop sid => exact h.execStrandStop sid
  case drainEnd sid => exact h.execDrainEnd sid
  case preemptionHold sid => exact h.execPreemptionHold sid
  case commitWindow k => exact h.execCommitWindow k
  case weaveFlip k => exact h.execWeaveFlip k
  case scrubComplete k => exact h.execScrubComplete k
  case strandRetire sid => exact h.execStrandRetire sid
  case digestReexecution task => exact h.execDigestReexecution task
  case ringRecordWrite ctx => exact h.execRingRecordWrite ctx
  case nopPacket q => exact h.execNopPacket q
  case launch q p => exact h.execLaunch q p
  case graph q p => exact h.execGraph q p
  case seedpush q v => exact h.execSeedpush q v
  case seedpop q => exact h.execSeedpop q
  case seedfork q x => exact h.execSeedfork q x
  case waitword q p => exact h.execWaitword q p
  case waitwordPoll q => exact h.execWaitwordPoll q
  case waitTimeout q => exact h.execWaitTimeout q
  case setword q p => exact h.execSetword q p
  case afterPriorStore n => exact h.execAfterPriorStore n
  case teardown q => exact h.execTeardown q
  case quota q p => exact h.execQuota q p
  case packetReread q => exact h.execPacketReread q
  case tornPacket q => exact h.execTornPacket q
  case launchAgeing n => exact h.execLaunchAgeing n
  case launchReservation part => exact h.execLaunchReservation part
  case taskNode rep a w => exact h.execTaskNode rep a w
  case cond rep a w => exact h.execCond rep a w
  case loopNode rep a w => exact h.execLoopNode rep a w
  case switch rep a w => exact h.execSwitch rep a w
  case join rep a w => exact h.execJoin rep a w
  case seedNode rep a w => exact h.execSeedNode rep a w
  case endNode rep a w => exact h.execEndNode rep a w
  case activate ctx => exact h.execActivate ctx
  case release ctx => exact h.execRelease ctx
  case queueEnable q v => exact h.execQueueEnable q v
  case qkick q tail => exact h.execQkick q tail
  case qcmdResume q => exact h.execQcmdResume q
  case qcmdSkip q => exact h.execQcmdSkip q
  case hold w => exact h.execHold w
  case pecmdResume w => exact h.execPecmdResume w
  case save w => exact h.execSave w
  case restore w => exact h.execRestore w
  case tlbinvOnePage ctx => exact h.execTlbinvOnePage ctx
  case tlbinvWholeContext ctx => exact h.execTlbinvWholeContext ctx
  case mbxctl strand x => exact h.execMbxctl strand x
  case linkcmdResume => exact h.execLinkcmdResume
  case stackReset k => exact h.execStackReset k
  case computeReset => exact h.execComputeReset
  case functionLevelReset => exact h.execFunctionLevelReset
  case coldReset => exact h.execColdReset
  case islandReset => exact h.execIslandReset
  case pwrenv k w => exact h.execPwrenv k w
  case active kind unit => exact h.execActive kind unit
  case gated kind unit => exact h.execGated kind unit
  case retain kind unit => exact h.execRetain kind unit
  case off kind unit => exact h.execOff kind unit
  case droopclr m => exact h.execDroopclr m
  case errcfg w => exact h.execErrcfg w
  case fenceclr w => exact h.execFenceclr w
  case drefc ctx w => exact h.execDrefc ctx w
  case registerWrite ofs w => exact h.execRegisterWrite ofs w
  case surpriseLinkLoss => exact h.execSurpriseLinkLoss
  case linkgraceExpiry => exact h.execLinkgraceExpiry
  case governorEvaluation k => exact h.execGovernorEvaluation k
  case operatingPointChange k => exact h.execOperatingPointChange k
  case energyMetering mj => exact h.execEnergyMetering mj
  case droopDetectorTrip k => exact h.execDroopDetectorTrip k
  case droopSignatureMatch k => exact h.execDroopSignatureMatch k
  case thermalSafetyTrip => exact h.execThermalSafetyTrip
  case correctedError u => exact h.execCorrectedError u
  case uncorrectableError u at_ => exact h.execUncorrectableError u at_
  case hostMemoryRead bar ofs n => exact h.execHostMemoryRead bar ofs n
  case hostMemoryWrite bar ofs bytes => exact h.execHostMemoryWrite bar ofs bytes
  case domainAccess from_ write ofs size v => exact h.execDomainAccess from_ write ofs size v
  case flitReplay port => exact h.execFlitReplay port
  case stop port vc => exact h.execStop port vc
  case go port vc => exact h.execGo port vc
  case doorbell ctx v => exact h.execDoorbell ctx v
  case firmwareUpdate target version image => exact h.execFirmwareUpdate target version image
  case attestation => exact h.execAttestation
  case linkRetrain => exact h.execLinkRetrain
  case droopStretchEnd k => exact h.execDroopStretchEnd k
  case completionEntryWrite ctx va v => exact h.execCompletionEntryWrite ctx va v
  case powerLoss => exact h.execPowerLoss
  all_goals exact h.syllable (List.cons_ne_nil _ _) rfl

theorem runEv (e : Ev) (h : s.MemOk) : AnswersMemOk (runEv e s) := by
  obtain ⟨i, hi⟩ := exists_runEv_eq_exec s e
  exact hi ▸ h.exec i

theorem runEvent (e : Ev) (h : s.MemOk) : (s.runEvent e).MemOk := by
  unfold State.runEvent
  extract_lets go
  have hgo (s : State) (h : s.MemOk) : (go s).MemOk := by
    unfold go
    split
    · next t ht => exact h.runEv e t ht
    · exact h
  split
  · exact h.seeing hgo
  · exact hgo s h

/-! ## The boundary and the beat (R21, R68 to R70, R255) -/

theorem first (js : List Job) (h : s.MemOk) : (s.first js).MemOk := h.of_mem rfl

theorem noteStart (t : Strand) (h : s.MemOk) : (s.noteStart t).MemOk := .ite (h.of_mem rfl) h

theorem executeBeat (t : Strand) (h : s.MemOk) : (s.executeBeat t).MemOk := by
  unfold State.executeBeat
  extract_lets s1 s2 s3 s4
  have h3 : s3.MemOk := landAll t t.beat (h.noteStart t).modStrand
  have h4 : s4.MemOk := by
    refine h3.seeing fun s h => ?_
    extract_lets u
    have hu : u.MemOk := by
      unfold u
      split
      · exact h.loadsBeat _
      · exact h
    exact foldl (fun _ r h => readBlocks r 16 h) _ hu
  exact h4.first _

theorem boundary (sid : Nat) (h : s.MemOk) : (s.boundary sid).MemOk := by
  unfold State.boundary
  extract_lets u
  have hu : u.MemOk := h.modStrand
  split
  · exact hu
  · next t _ =>
    extract_lets cyc
    refine .ite (hu.first _) (.ite (hu.first _) (.ite (hu.first _) (.ite (.ite (hu.first _) (.ite (hu.first _) hu)) ?_)))
    refine .ite (hu.first _) (.ite hu.modStrand (.ite hu.modStrand (.ite hu.modStrand (.ite hu.modStrand ?_))))
    exact executeBeat t hu.modStrand

theorem settleNests (t : Strand) (h : s.MemOk) : (s.settleNests t).MemOk := by
  refine foldl (fun s r h => ?_) _ h
  split
  · exact h.engine
  · exact h

theorem evs (sid : Nat) (h : s.MemOk) : (s.evs sid).MemOk := by
  unfold State.evs
  split
  · exact h
  · next t _ =>
    extract_lets u
    have hu : u.MemOk := h.settleNests t
    split
    · exact hu.first _
    · exact hu
    · refine .ite (hu.first _) ?_
      refine seeing (hu.of_mem rfl) fun s h => foldl (fun s r h => ?_) _ h
      split
      · exact .ite (h.snapshot _) h
      · exact h

/-! ## A bundle (R75 to R114, R239, R244) -/

theorem runSyllables (is : List Instr) : ∀ {s : State}, s.MemOk → (s.runSyllables is).MemOk := by
  induction is with
  | nil => exact id
  | cons i is ih =>
    intro s h
    refine ih ?_
    split
    · next t ht => exact h.exec i t ht
    · exact h

theorem runReads (is : List Instr) (h : s.MemOk) : (s.runReads is).MemOk := by
  unfold State.runReads
  extract_lets t
  have ht : t.MemOk := runSyllables is h
  split
  · exact ht
  · split
    · exact ht.modStrand
    · exact ht

theorem runSettled (r : CRef) (is : List Instr) (h : s.MemOk) : (s.runSettled r is).MemOk := by
  unfold State.runSettled
  split
  · exact h
  · exact modStrand (runReads is h.engine)

theorem runBundle (r : CRef) (settled shadow : Bool) (is : List Instr) (h : s.MemOk) : (s.runBundle r settled shadow is).MemOk :=
  .ite (h.runSettled r is) (.ite (h.runReads is) (h.seeing fun _ h => h.runReads is))

theorem issueFault (r : CRef) (t : Strand) (handler : Bool) (next code : Nat) (addr : W64) (h : s.MemOk) :
    (s.issueFault r t handler next code addr).MemOk := by
  unfold State.issueFault
  extract_lets c f cur s1 s2 issued
  have h1 : s1.MemOk := h.of_mem rfl
  have h2 : s2.MemOk := by
    unfold s2
    split
    · exact h1.modStrand
    · exact h1
  exact h2.of_mem rfl

theorem runAt (r : CRef) (t : Strand) (handler : Bool) (h : s.MemOk) : (s.runAt r t handler).MemOk := by
  unfold State.runAt
  extract_lets c pc poisoned ls fault
  split
  · exact h.issueFault ..
  · split
    · exact h.issueFault ..
    · exact h.issueFault ..
    · refine .ite (h.issueFault ..) ?_
      extract_lets cur s1
      have h1 : s1.MemOk := runBundle _ _ _ _ (h.of_mem rfl)
      exact h1.of_mem rfl

theorem issueBundle (r : CRef) (t : Strand) (handler : Bool) (h : s.MemOk) : (s.issueBundle r t handler).MemOk :=
  .ite (h.runAt r t handler).modStrand (h.runAt r t handler)

theorem landNew (r : CRef) (before : Strand) (h : s.MemOk) : (s.landNew r before).MemOk := by
  unfold State.landNew
  extract_lets old
  split
  · exact h
  · extract_lets new u
    exact foldl (fun _ e h => h.applyAct _ e.beat e.act) new h.engine

theorem handlerBundle (r : CRef) (t : Strand) (h : s.MemOk) : (s.handlerBundle r t).MemOk := by
  unfold State.handlerBundle
  extract_lets c s1
  refine .ite h ?_
  have h1 : s1.MemOk := h.window (.lookUp ..)
  split
  · exact h1
  · next t _ =>
    extract_lets s2 s3
    have h2 : s2.MemOk := h1.modStrand
    have h3 : s3.MemOk := issueBundle r t true (h2.of_mem rfl)
    refine .ite h2.modStrand ?_
    split
    · exact h3
    · exact .ite h3.modStrand (h3.landNew r t)

theorem issueAt (r : CRef) (h : s.MemOk) : (s.issueAt r).MemOk := by
  unfold State.issueAt
  split
  · exact h
  · next t _ => exact .ite (h.handlerBundle r t) (.ite h.modStrand (.ite (h.issueBundle r t false) h))

/-! ## Starts, claims and the end of a beat (R101, R114, R134, R185, R239, R245) -/

theorem starts (sid : Nat) (h : s.MemOk) : (s.starts sid).MemOk := by
  unfold State.starts
  split
  · exact h
  · next t _ =>
    extract_lets u
    have hu : u.MemOk := h.settleNests t
    split
    · exact hu.first _
    · exact hu

theorem claimOne (sid n : Nat) (p : Pending) (h : s.MemOk) : (s.claimOne sid n p).MemOk := by
  unfold State.claimOne
  split
  · exact h
  · extract_lets u
    have hu : u.MemOk := by
      unfold u
      split
      · exact h
      · exact .ite h.modStrand h.modStrand
    split
    · exact .ite hu.modStrand hu
    · exact hu

theorem claimAll (sid : Nat) (h : s.MemOk) : (s.claimAll sid).MemOk := by
  unfold State.claimAll
  split
  · exact h
  · refine foldl (fun s r h => ?_) _ h
    split
    · exact h
    · exact foldl (fun _ p h => h.claimOne sid r.core p) _ h

theorem syncBreaks (t : Strand) (h : s.MemOk) : (s.syncBreaks t).MemOk := by
  refine foldl (fun s r h => ?_) _ h
  exact .ite h.modStrand h

theorem undoBeat (t : Strand) (h : s.MemOk) : (s.undoBeat t).MemOk := by
  unfold State.undoBeat
  split <;> exact h.of_mem rfl

theorem rendezvousFaults (t : Strand) (h : s.MemOk) : (s.rendezvousFaults t).MemOk := by
  refine foldl (fun s r h => ?_) _ h
  split
  · exact .ite h.modStrand h
  · exact h

theorem lookAhead (sid from_ : Nat) (h : s.MemOk) : (s.lookAhead sid from_).MemOk := h.window (.lookAhead ..)

theorem lookNext (sid : Nat) (h : s.MemOk) : (s.lookNext sid).MemOk := by
  unfold State.lookNext
  split
  · exact h
  · exact h.lookAhead ..

theorem endBeat (sid : Nat) (h : s.MemOk) : (s.endBeat sid).MemOk := by
  unfold State.endBeat
  split
  · exact h.of_mem rfl
  · next t0 _ =>
    extract_lets s1
    have h1 : s1.MemOk := h.syncBreaks t0
    split
    · exact h1
    · next t _ =>
      refine .ite (h1.undoBeat t) ?_
      extract_lets before s2 lapse fall
      have h2 : s2.MemOk := lookNext sid (h1.rendezvousFaults t).modStrand
      exact h2.of_mem rfl

theorem handlerEnd (t : Strand) (h : s.MemOk) : (s.handlerEnd t).MemOk := by
  unfold State.handlerEnd
  extract_lets u cyc
  have hu : u.MemOk := h.of_mem rfl
  exact .ite (hu.first _) (.ite hu (hu.modStrand.window (.lookStart ..)))

theorem beatAt (sid : Nat) (h : s.MemOk) : (s.beatAt sid).MemOk := by
  unfold State.beatAt
  split
  · exact h
  · split
    · exact h.boundary sid
    · exact h.of_mem rfl
    · exact h

theorem endAt (sid : Nat) (h : s.MemOk) : (s.endAt sid).MemOk := by
  unfold State.endAt
  split
  · exact h
  · next t _ => exact .ite (h.handlerEnd t) (h.endBeat sid)

/-! ## The clocks (R7, R22, R32, R40 to R49, R224) -/

theorem drawDelays (k : Nat) (h : s.MemOk) : (s.drawDelays k).MemOk := by
  refine foldl (fun s r h => foldl (fun s n h => ?_) _ h) _ h
  split
  · exact h
  · refine foldl (fun s e h => ?_) _ h
    exact .ite (h.of_mem rfl) h

theorem elastic (k : Nat) (h : s.MemOk) : (s.elastic k).MemOk := by
  unfold State.elastic
  split
  · exact h.first _
  · exact h.drawDelays k

theorem waitsAt (k : Nat) (h : s.MemOk) : (s.waitsAt k).MemOk := by
  have hlook : (s.lookWaits k).MemOk := foldl (fun _ t h => h.lookWaitsOf t) _ h
  exact hlook.first _

theorem endTeardowns (h : s.MemOk) : s.endTeardowns.MemOk := by
  refine foldl (fun s c h => ?_) _ h
  exact .ite (h.of_mem rfl) h

theorem holdTeardowns (h : s.MemOk) : s.holdTeardowns.MemOk := by
  refine foldl (fun s c h => ?_) _ h
  exact h.of_mem (s.holdTeardown_mem c.num)

theorem endDiscards (h : s.MemOk) : s.endDiscards.MemOk := by
  refine foldl (fun s c h => ?_) _ h
  split
  · exact h
  · exact .ite (h.of_mem rfl) h

theorem endTasks (n : Nat) : ∀ {s : State}, s.MemOk → (s.endTasks n).MemOk := by
  induction n with
  | zero => exact id
  | succ n ih =>
    intro s h
    unfold State.endTasks
    split
    · exact h
    · exact ih (h.endTask _)

theorem dispatch (h : s.MemOk) : s.dispatch.MemOk := by
  unfold State.dispatch
  extract_lets s1 s2 evs s3
  have h1 : s1.MemOk := .ite h.endReset h
  have h2 : s2.MemOk := serveReplays (endTasks _ h1.endHold.endTeardowns.holdTeardowns.endDiscards)
  exact .ite h1 (h2.serveNext.of_mem rfl)

theorem clock (k : Nat) (h : s.MemOk) : (s.clock k).MemOk := .ite (h.of_mem rfl) h

/-- Every task of the schedule keeps the form. -/
theorem runJob (j : Job) (h : s.MemOk) : (s.runJob j).MemOk := by
  cases j with
  | ev e => exact h.runEvent e
  | clock k => exact h.clock k
  | cycle k => exact h.of_mem rfl
  | slots k => exact h.of_mem rfl
  | slot sid => exact h.of_mem rfl
  | beat sid => exact h.beatAt sid
  | evs sid => exact h.evs sid
  | issue r => exact h.issueAt r
  | starts sid => exact h.starts sid
  | claims sid => exact h.claimAll sid
  | endBeat sid => exact h.endAt sid
  | elastic k => exact h.elastic k
  | waits k => exact h.waitsAt k
  | fallen => exact h.endFallen
  | dispatch => exact h.dispatch
  | govern => exact h.of_mem rfl

end State.MemOk

/-- Settles O59: a step is a task of the schedule, an input, or the next nanosecond, and each operation that these are made of keeps
the form. -/
theorem everyStepKeepsMemoryCanonical : Obligations.EveryStepKeepsMemoryCanonical := by
  intro s t h
  unfold step
  split
  · rintro ⟨⟩
    exact State.MemOk.runJob _ (h.of_mem rfl)
  · split
    · rintro ⟨⟩
      exact h.of_mem rfl
    · split
      · next i is _ _ =>
        have hinput : ({ s with inputs := is } : State).MemOk := h.of_mem rfl
        exact hinput.exec i t
      · rintro ⟨⟩
        exact h.of_mem rfl

end Sys2Proof.Machine
end

section
/-! Taking a trap: the bank, the handler and the third level (R239 to R241). -/

namespace Sys2Proof.Machine

/-! ## The cause word (R241) -/

/-- A cause word as a number: its fields do not overlap. -/
theorem toNat_causeWord {c : Cause} {pos : Nat} (hcode : c.code < 2 ^ 16) (hqueue : c.queue < 2 ^ 4) (hpos : pos < 4) :
    (causeWord c pos).toNat = c.detail % 256 * 2 ^ 24 + c.queue * 2 ^ 20 + pos * 2 ^ 18 + bnat c.shadow * 2 ^ 16 + c.code := by
  have hshadow : bnat c.shadow ≤ 1 := by cases c.shadow <;> decide
  rw [causeWord, BitVec.toNat_ofNat, Nat.mod_eq_of_lt]
  omega

/-- Bits of a word that hold a number. -/
theorem extractLsb'_eq_ofNat {x : W64} {lo len n : Nat} (h : x.toNat / 2 ^ lo % 2 ^ len = n % 2 ^ len) :
    x.extractLsb' lo len = BitVec.ofNat len n := by
  rw [← BitVec.toNat_inj, BitVec.extractLsb'_toNat, BitVec.toNat_ofNat, Nat.shiftRight_eq_div_pow, h]

/-- The fields of a cause word, each where R241 puts it. -/
theorem causeWord_fields {c : Cause} {pos : Nat} (hcode : c.code < 2 ^ 16) (hqueue : c.queue < 2 ^ 4) (hpos : pos < 4) :
    (causeWord c pos).extractLsb' 0 16 = BitVec.ofNat 16 c.code ∧ (causeWord c pos).getLsbD 16 = c.shadow ∧
      (causeWord c pos).extractLsb' 18 2 = BitVec.ofNat 2 pos ∧ (causeWord c pos).extractLsb' 20 4 = BitVec.ofNat 4 c.queue ∧
      (causeWord c pos).extractLsb' 24 8 = BitVec.ofNat 8 c.detail ∧ (causeWord c pos).extractLsb' 32 32 = 0 := by
  have hw := toNat_causeWord (c := c) hcode hqueue hpos
  have hshadow : bnat c.shadow ≤ 1 := by cases c.shadow <;> decide
  refine ⟨extractLsb'_eq_ofNat ?_, ?_, extractLsb'_eq_ofNat ?_, extractLsb'_eq_ofNat ?_, extractLsb'_eq_ofNat ?_,
    extractLsb'_eq_ofNat (n := 0) ?_⟩
  · omega
  · rw [BitVec.getLsbD, Nat.testBit_eq_decide_div_mod_eq, hw]
    have hbit : (c.detail % 256 * 2 ^ 24 + c.queue * 2 ^ 20 + pos * 2 ^ 18 + bnat c.shadow * 2 ^ 16 + c.code) / 2 ^ 16 % 2 = bnat c.shadow := by
      omega
    rw [hbit]
    cases c.shadow <;> rfl
  · omega
  · omega
  · omega
  · omega

/-! ## Where a queue is cut (R240) -/

theorem cutFor_eq (c : Cause) (q : Nat) (cut : W32) : cutFor c q cut = if c.queue = q then c.fseq + 1 else cut := by
  simp [cutFor]

/-! ## The trap (R239) -/

/-- Settles O45: a trap writes the bank of its level by `trapBank`, whose fields are those of R240 and R241. -/
theorem takingATrap : Obligations.TakingATrap := by
  intro co cl c beat fall t b cut cutEl
  have hbank : b = trapBank co cl c beat fall (if cl.ta.inUse then cl.tb else cl.ta) := by
    cases hta : cl.ta.inUse <;> simp [b, t, takeTrap, hta]
  have hcut (e : Engine) (n : Nat) : cutFor c n e.cut = cut e n := cutFor_eq c n e.cut
  have hcutEl (q : ElQueue) (n : Nat) : cutFor c n q.cut = cutEl q n := by
    rw [cutFor_eq, ElQueue.cut, ← List.head?_filter]
    unfold cutEl
    cases q.entries.filter fun e => e.level == 0 <;> rfl
  have hthird : thirdLevel cl c = true ↔ cl.ta.inUse = true ∧ cl.tb.inUse = true ∨ cl.tvec = 0 ∧ c.code ≠ 0x19 := by
    simp [thirdLevel, cRisk]
  rw [hbank]
  refine ⟨?seq, ?halted, ?skip, rfl, rfl, rfl, rfl, rfl, ?k0, ?old, ?tgt, fun hcode hqueue hpos => causeWord_fields hcode hqueue hpos,
    hcut _ _, hcut _ _, hcut _ _, hcut _ _, hcutEl _ _, hcutEl _ _, rfl, rfl, ?loops, ?ta, ?tb, ?frame, hthird⟩
  case seq | halted | skip => cases hta : cl.ta.inUse <;> simp [t, takeTrap, hta, Seq.at]
  case k0 =>
    intro x hx
    simp [trapBank, hx]
  case old =>
    intro hnone
    simp only [trapBank, hnone, Option.getD_none]
    split <;> rfl
  case tgt => simp [trapBank]
  case loops => simp [trapBank]
  case ta =>
    intro hta
    simp [t, takeTrap, hta]
  case tb =>
    intro hta
    simp [t, takeTrap, hta]
  case frame => cases hta : cl.ta.inUse <;> simp [t, takeTrap, hta]

end Sys2Proof.Machine
end

section
/-! Declarations, regions, molts and WAITB as they issue (R237, R245 to R248). -/

namespace Sys2Proof.Machine

/-! ## Regions (R246, R247) -/

/-- Another ACQP or RELP of the same beat, of a later place, has acted already: it stands (R246). -/
def View.overtaken (v : View) (r : Region) : Prop :=
  v.cur.handler = false ∧ ∃ p, r.last = some (v.cur.beat, p) ∧ v.cur.place < p

/-- A region with the present place noted as the last that acted on its beat, which a handler's is not (R239, R246). -/
def View.noteLast (v : View) (r : Region) : Region :=
  if v.cur.handler then r else { r with last := some (v.cur.beat, v.cur.place) }

theorem View.onRegion_overtaken {v : View} {r : Region} (f : Region → Region) (h : v.overtaken r) : v.onRegion r f = r := by
  obtain ⟨hhandler, p, hlast, hp⟩ := h
  simp [View.onRegion, hhandler, hlast, hp]

theorem View.onRegion_acts {v : View} {r : Region} (f : Region → Region) (h : ¬ v.overtaken r) :
    v.onRegion r f = v.noteLast (f (r.undoBeat v.cur.beat)) := by
  unfold View.onRegion View.noteLast
  split
  · rfl
  · next hhandler =>
    rw [if_neg]
    intro hany
    obtain ⟨⟨b, p⟩, hlast, hbp⟩ := (Option.any_eq_true ..).1 hany
    obtain ⟨hb, hp⟩ : b = v.cur.beat ∧ v.cur.place < p := by simpa using hbp
    exact h ⟨by simpa using hhandler, p, hb ▸ hlast, hp⟩

/-- A region stands open at an ACQP or RELP: no RELP but one of its own beat, which it undoes, has closed it. -/
theorem Region.inside_undoBeat {r : Region} {b : Nat} :
    (r.undoBeat b).inside = true ↔ r.on = true ∧ ∀ f ∈ (r.undoBeat b).falls, f.2.2 = false := by
  simp [Region.inside, Region.undoBeat]

/-- What ACQP does to its core's region (R246). -/
def View.acqpRegion (v : View) (s : State) (n : BitVec 5) (r : Region) : Region :=
  v.onRegion r fun r =>
    if r.inside && n.toNat < r.level then { r with falls := r.falls ++ [(v.cur.beat, n.toNat, false)] }
    else { r with reqs := r.reqs ++ [(v.cur.beat, n.toNat, (s.stack v.st.stack).cyc, none)] }

/-- What RELP does to its core's region (R247). -/
def View.relpRegion (v : View) (r : Region) : Region :=
  v.onRegion r fun r => if r.inside then { r with falls := r.falls ++ [(v.cur.beat, 0, true)] } else r

/-! ## Molts (R248) -/

theorem moltBad_iff {w : Nat} : moltBad w = true ↔ 256 ≤ w ∨ 4 < w % 8 ∨ 2 ^ (w % 8) ≤ w / 16 ∨ (w / 8 % 2 = 1 ∧ w / 16 ≠ 0) := by
  have hhigh : w / 256 ≠ 0 ↔ 256 ≤ w := by omega
  by_cases hw : 256 ≤ w
  · simp [moltBad, hhigh, hw]
  · have hpin : w / 16 % 16 = w / 16 := by omega
    simp [moltBad, fld, hw, hhigh, hpin, or_assoc]

theorem moltPin_eq (w : Nat) (h : w < 256) : (if fld w 3 1 == 1 then none else some (fld w 4 4)) = if w / 8 % 2 = 1 then none else some (w / 16) := by
  have hpin : w / 16 % 16 = w / 16 := by omega
  simp [fld, hpin]

/-! ## The syllables -/

/-- Settles O29: ACQP and RELP act as the last of their beat or are overtaken; the rest is each syllable under its guard. -/
theorem pacingInstructions : Obligations.PacingInstructions := by
  unfold Obligations.PacingInstructions
  refine ⟨?_, ?_⟩
  · intro s v h d a b n hv hg beats due ofStrand w bad
    have hbeats : fld (v.rs a).toNat 0 48 = beats := by simp [fld, beats]
    have hdue : fld (v.rs b).toNat 0 48 = ((v.rs b).extractLsb' 0 48).toNat := by simp [fld]
    have hbad : moltBad w = true ↔ bad := moltBad_iff
    refine ⟨?_, ?_, onMX_true hv hg, ⟨?_, ?_⟩, ?_, ?_, ?_⟩
    · intro hne
      refine (onMX_true hv hg).trans ?_
      simp [hbeats, hdue, hne, ofStrand, due]
    · intro hzero
      refine (onMX_true hv hg).trans ?_
      simp [hbeats, hzero, ofStrand]
    · refine ⟨v.acqpRegion s n, onMX_true hv hg, fun r => ⟨View.onRegion_overtaken _, fun hlater hin hlow => ?_, fun hlater hout => ?_⟩⟩
      · rw [View.acqpRegion, View.onRegion_acts _ hlater, Region.inside_undoBeat.2 hin, Bool.true_and,
          if_pos (decide_eq_true (show n.toNat < (r.undoBeat v.cur.beat).level from hlow))]
        rfl
      · rw [View.acqpRegion, View.onRegion_acts _ hlater, if_neg]
        · rfl
        · rw [Bool.and_eq_true, Region.inside_undoBeat, decide_eq_true_iff]
          exact hout
    · refine ⟨v.relpRegion, onMX_true hv hg, fun r => ⟨View.onRegion_overtaken _, fun hlater hin => ?_, fun hlater hout => ?_⟩⟩
      · rw [View.relpRegion, View.onRegion_acts _ hlater, if_pos (Region.inside_undoBeat.2 hin)]
        rfl
      · rw [View.relpRegion, View.onRegion_acts _ hlater, if_neg (mt Region.inside_undoBeat.1 hout)]
        rfl
    · intro hb
      refine (onMX_true hv hg).trans ?_
      rw [if_pos (hbad.2 hb)]
    · intro hb hbusy
      refine (onMX_true hv hg).trans ?_
      rw [if_neg (mt hbad.1 hb), if_pos hbusy]
    · intro req hb hfree
      refine (onMX_true hv hg).trans ?_
      have hw : w < 256 := by
        by_contra hw
        exact hb (.inl (by omega))
      rw [if_neg (mt hbad.1 hb), if_neg (by simp [hfree]), moltPin_eq _ hw]
      simp [fld, ofStrand, req, w]
  · intro s v h a hv hg
    refine ⟨?_, onMX_true hv hg, fun c x hx => ?_⟩
    · refine (onMX_true hv hg).trans ?_
      simp [low32]
    · simp only [Cluster.issues, Bool.and_eq_true, decide_eq_true_iff] at hx
      exact hx.1.1.2

end Sys2Proof.Machine
end

section
/-! TRAP and the returns from a trap (R242 to R244). -/

namespace Sys2Proof.Machine

/-! ## The bank that a return leaves (R243) -/

theorem Cluster.inner_of_none {c : Cluster} (ha : c.ta.inUse = false) (hb : c.tb.inUse = false) : c.inner = none := by
  simp [Cluster.inner, ha, hb]

/-- The innermost bank in use is `tb` where it is in use, and else `ta`. -/
theorem Cluster.inner_eq_some {c : Cluster} {b : Bank} (hb : b = if c.tb.inUse then c.tb else c.ta) (huse : b.inUse = true) :
    c.inner = some b := by
  unfold Cluster.inner
  split at hb
  · next htb => rw [if_pos htb, hb]
  · next htb => rw [if_neg htb, if_pos (hb ▸ huse), hb]

/-- Leaving a bank takes that bank out of use and nothing of the other: the context resumes by the bank's registers. -/
theorem releaseBank_spec {c : Cluster} {b : Bank} (n : Nat) (hinner : c.inner = some b) :
    (releaseBank c n).seq = { b.seq with pc := b.pc.toNat } ∧ (releaseBank c n).skip = b.skip + n ∧
      (releaseBank c n).tb.inUse = false ∧ (releaseBank c n).ta.inUse = (c.tb.inUse && c.ta.inUse) ∧
      releaseBank c n = { c with
        seq := (releaseBank c n).seq, skip := (releaseBank c n).skip, halted := b.wasHalted,
        ta := (releaseBank c n).ta, tb := (releaseBank c n).tb } := by
  by_cases htb : c.tb.inUse = true <;> simp [releaseBank, hinner, htb, Bank.resume]

/-! ## A return by its cases (R243) -/

theorem View.tret_noBank {v : View} (s : State) (h : Head) (n : Nat) (hinner : v.cl.inner = none) : v.tret s h n = v.raise s 1 := by
  simp [View.tret, hinner, cIllegal]

theorem View.tret_inDelay {v : View} (s : State) (h : Head) (n : Nat) (hpos : v.cl.seq.pos ≠ 0) (hmoved : v.cur.moved = false) :
    v.tret s h n = v.raise s 1 := by
  unfold View.tret
  split
  · rfl
  · rw [if_pos (by simp [hpos, hmoved])]
    rfl

/-- A return that no delay bundle makes illegal is suppressed by its guard, and else leaves a bank whose cause has no Shadow. -/
theorem View.tret_allowed {v : View} {b : Bank} (s : State) (h : Head) (n : Nat) (hinner : v.cl.inner = some b)
    (hplace : v.cl.seq.pos = 0 ∨ v.cur.moved = true) :
    v.tret s h n =
      if !v.guard h.neg h.g then s
      else if bitAt b.cause 16 then v.raise s 0x14
      else { v.modCl s (fun c => releaseBank c n) with cur := some { v.cur with moved := true } } := by
  simp only [View.tret, hinner]
  rw [if_neg]
  · rfl
  · rcases hplace with hpos | hmoved
    · simp [hpos]
    · simp [hmoved]

/-- Settles O30: both returns are one function of the bundles to skip, read off the bank they leave. -/
theorem softwareTrapsAndReturns : Obligations.SoftwareTrapsAndReturns := by
  unfold Obligations.SoftwareTrapsAndReturns
  refine ⟨fun s v h a n hv hg => ⟨_, onMX_true hv hg, rfl, rfl, rfl, rfl, rfl, rfl, rfl, rfl, rfl⟩, ?_⟩
  intro s v h n hv two
  have hexec : ∀ i ∈ two, exec i.1 s = .next (v.tret s h i.2) := by
    intro i hi
    obtain rfl | rfl : i = (.tret h, 0) ∨ i = (.tretSkip h n, n.toNat) := by simpa [two] using hi
    · exact withView_some _ hv
    · exact withView_some _ hv
  refine ⟨fun ha hb i hi => ?_, fun hpos hmoved i hi => ?_, fun b hb huse hplace => ?_⟩
  · rw [hexec i hi, View.tret_noBank _ _ _ (Cluster.inner_of_none ha hb)]
  · rw [hexec i hi, View.tret_inDelay _ _ _ hpos hmoved]
  · have hinner := Cluster.inner_eq_some hb huse
    refine ⟨fun hg i hi => ?_, fun hg hshadow i hi => ?_, fun hg hshadow i hi => ⟨(releaseBank · i.2), ?_, releaseBank_spec i.2 hinner⟩⟩
    · rw [hexec i hi, View.tret_allowed _ _ _ hinner hplace]
      simp [hg]
    · rw [hexec i hi, View.tret_allowed _ _ _ hinner hplace]
      rw [if_neg (by simp [hg]), if_pos (by simpa only [bitAt] using hshadow)]
    · rw [hexec i hi, View.tret_allowed _ _ _ hinner hplace]
      rw [if_neg (by simp [hg]), if_neg (by simp only [bitAt, hshadow, Bool.false_eq_true, not_false_eq_true])]

end Sys2Proof.Machine
end

section
/-! What cold reset leaves (R273, R292, R304, R306). -/

namespace Sys2Proof.Machine

theorem vget_replicate_self {α : Type} (n k : Nat) (x : α) : vget (Vector.replicate n x) k x = x := by
  by_cases hk : k < n <;> simp [vget, hk]

theorem State.reset_stack (k : Nat) : State.reset.stack k = Stack.reset := vget_replicate_self 4 k _

theorem State.reset_queue (n : Nat) : State.reset.queue n = HostQueue.reset := vget_replicate_self 64 n _

/-- Settles O55: every queue and every stack of the reset state is the same one, and the rest are its fields. -/
theorem resetValues : Obligations.ResetValues := by
  unfold Obligations.ResetValues
  refine ⟨State.reset_memOk, rfl, rfl, rfl, rfl, rfl, rfl, rfl, rfl, rfl,
    fun n _ => ?_, fun k _ => ?_, by decide, by decide, rfl⟩
  · rw [State.reset_queue]
    rfl
  · rw [State.reset_stack]
    decide

end Sys2Proof.Machine
end

section
/-! The elastic instructions: the entries they take at the tails of their queues and the causes they raise (R224 to R234, R249). -/

namespace Sys2Proof.Machine

/-! ## Addresses and scopes (R214) -/

/-- An address an elastic access accepts: canonical, and a multiple of `n` (R214). -/
def Accepts (a : W64) (n : Nat) : Prop := (a.msb = true ∨ a.toNat < 2 ^ 48) ∧ a.toNat % n = 0

theorem canonical_eq_true {a : W64} : canonical a = true ↔ a.msb = true ∨ a.toNat < 2 ^ 48 := by
  simp only [canonical, isDomain, Bool.or_eq_true, decide_eq_true_iff]

theorem View.onMem_of_accepts {v : View} {s f : State} {a : W64} {n : Nat} (h : Accepts a n) : v.onMem s a n f = f := by
  obtain ⟨hcanon, halign⟩ := h
  exact if_neg (by simp [canonical_eq_true.2 hcanon, halign])

theorem View.onMem_of_not_accepts {v : View} {s f : State} {a : W64} {n : Nat} (h : ¬ Accepts a n) : v.onMem s a n f = v.raise s 3 a := by
  refine if_pos ?_
  by_cases hcanon : canonical a = true
  · have halign : a.toNat % n ≠ 0 := fun halign => h ⟨canonical_eq_true.1 hcanon, halign⟩
    simp [halign]
  · simp [hcanon]

theorem scopeLevel_eq (k : Nat) (a : W64) :
    scopeLevel k a = if a.msb then 6 else match k with
      | 0 => 2
      | 1 => 4
      | 2 => 5
      | _ => 6 := by
  unfold scopeLevel isDomain
  split
  · rfl
  · rcases k with _ | _ | _ | k <;> rfl

theorem ldKind_eq (m : BitVec 2) :
    ldKind m = match m.toNat with
      | 0 => .d
      | 1 => .w
      | 2 => .ws
      | _ => .b := by
  revert m
  decide

theorem ldKind_size (m : BitVec 2) :
    (ldKind m).size = match m.toNat with
      | 0 => 8
      | 1 => 4
      | 2 => 4
      | _ => 1 := by
  revert m
  decide

/-! ## Entries taken (R224) -/

section
variable {s : State} {v : View} {i : Instr} {op : ElOp}

/-- An instruction of the load queue alone takes its entry there where it has room, and else raises QUEUE. -/
theorem exec_takes_loadEntry (hi : exec i s = .next (v.elastic s true false op)) :
    (v.cl.lq.entries.length < 16 →
      exec i s = .next (v.modCl s fun c => { c with lq := c.lq.push c.issued op v.cl.depth, issued := c.issued + 1 })) ∧
    (¬ v.cl.lq.entries.length < 16 → exec i s = .next (v.raise s 5)) := by
  refine ⟨fun hroom => hi.trans ?_, fun hfull => hi.trans ?_⟩
  · rw [View.elastic, if_neg (by simpa using hroom)]
    rfl
  · rw [View.elastic, if_pos (by simpa using hfull)]
    rfl

/-- An instruction of the store queue alone takes its entry there where it has room, and else raises QUEUE. -/
theorem exec_takes_storeEntry (hi : exec i s = .next (v.elastic s false true op)) :
    (v.cl.sq.entries.length < 16 →
      exec i s = .next (v.modCl s fun c => { c with sq := c.sq.push c.issued op v.cl.depth, issued := c.issued + 1 })) ∧
    (¬ v.cl.sq.entries.length < 16 → exec i s = .next (v.raise s 5)) := by
  refine ⟨fun hroom => hi.trans ?_, fun hfull => hi.trans ?_⟩
  · rw [View.elastic, if_neg (by simpa using hroom)]
    rfl
  · rw [View.elastic, if_pos (by simpa using hfull)]
    rfl

/-- A marker takes an entry of each queue where both have room, and else raises QUEUE and takes none. -/
theorem exec_takes_bothEntries (hi : exec i s = .next (v.elastic s true true op)) :
    (v.cl.lq.entries.length < 16 → v.cl.sq.entries.length < 16 → exec i s = .next (v.modCl s fun c => { c with
      lq := c.lq.push c.issued op v.cl.depth, sq := c.sq.push c.issued op v.cl.depth, issued := c.issued + 1 })) ∧
    (¬ (v.cl.lq.entries.length < 16 ∧ v.cl.sq.entries.length < 16) → exec i s = .next (v.raise s 5)) := by
  refine ⟨fun hlq hsq => hi.trans ?_, fun hfull => hi.trans ?_⟩
  · rw [View.elastic, if_neg (by simp [hlq, hsq])]
    rfl
  · rw [View.elastic, if_pos (by simp; omega)]
    rfl

/-- An access whose address is accepted goes on to its queue. -/
theorem exec_of_accepts {f : State} {a : W64} {n : Nat} (hi : exec i s = .next (v.onMem s a n f)) (h : Accepts a n) : exec i s = .next f := by
  rw [hi, View.onMem_of_accepts h]

/-- An access whose address is not accepted raises ADDRESS and nothing more. -/
theorem exec_of_not_accepts {f : State} {a : W64} {n : Nat} (hi : exec i s = .next (v.onMem s a n f)) (h : ¬ Accepts a n) :
    exec i s = .next (v.raise s 3 a) := by
  rw [hi, View.onMem_of_not_accepts h]

end

/-! ## ENQ and ECOPY (R226, R249) -/

/-- ENQ's type in its header: the low byte. -/
theorem low32_type (x : W64) : (low32 x).toNat % 256 = (x.extractLsb' 0 8).toNat := by
  simp [low32]

section
variable {s : State} {v : View} {h : Head} {d a b : Reg} (hv : s.view = some v) (hg : v.guard h.neg h.g = true)
include hv hg

theorem execEnq_eq :
    exec (.enq h d a b) s = .next (v.onMem s (v.rs a) 64
      (if v.cl.sq.entries.length < 16 && 7 < ((v.rs b).extractLsb' 0 8).toNat then v.raise s 0x11 0 ((v.rs b).extractLsb' 0 8).toNat
      else v.elastic s false true (.enq (v.rs a) (low32 (v.rs b)) d))) := by
  rw [← low32_type]
  exact onMX_true hv hg

/-- An ENQ whose type is in range enters the store queue. -/
theorem execEnq_type_ok (haddr : Accepts (v.rs a) 64) (htype : ((v.rs b).extractLsb' 0 8).toNat ≤ 7) :
    exec (.enq h d a b) s = .next (v.elastic s false true (.enq (v.rs a) (low32 (v.rs b)) d)) := by
  rw [exec_of_accepts (execEnq_eq hv hg) haddr, if_neg]
  rw [Bool.and_eq_true, decide_eq_true_iff, decide_eq_true_iff]
  omega

/-- An ENQ with a type above 7 raises ENQ-TYPE where the queue has room. -/
theorem execEnq_type_bad (haddr : Accepts (v.rs a) 64) (hroom : v.cl.sq.entries.length < 16)
    (htype : 7 < ((v.rs b).extractLsb' 0 8).toNat) :
    exec (.enq h d a b) s = .next (v.raise s 0x11 0 ((v.rs b).extractLsb' 0 8).toNat) := by
  rw [exec_of_accepts (execEnq_eq hv hg) haddr, if_pos]
  rw [Bool.and_eq_true, decide_eq_true_iff, decide_eq_true_iff]
  exact ⟨hroom, htype⟩

end

/-- A range of the scratchpad that lies in the strand's banks. -/
theorem Footprint.spadOk_iff {fp : Footprint} {a n : Nat} : fp.spadOk a n = true ↔ a < fp.banks * 2 ^ 17 ∧ a + n ≤ fp.banks * 2 ^ 17 := by
  simp [Footprint.spadOk]

/-- What ECOPY bounds: its count and its scratchpad ends (R226). -/
def View.CopyFits (v : View) (d a b : Reg) (m : BitVec 2) : Prop :=
  (v.rs b).toNat ≤ 2 ^ 20 ∧ (m = 2 → v.st.fp.spadOk (v.rs d).toNat (v.rs b).toNat = true) ∧
    (m = 1 → v.st.fp.spadOk (v.rs a).toNat (v.rs b).toNat = true)

/-- What ECOPY asks of its operands: each end an address or in the scratchpad, and every one a multiple of 8 (R226). -/
def View.CopyAligned (v : View) (d a b : Reg) (m : BitVec 2) : Prop :=
  ((m = 2 ∨ (v.rs d).msb = true ∨ (v.rs d).toNat < 2 ^ 48) ∧ (v.rs d).toNat % 8 = 0) ∧
    ((m = 1 ∨ (v.rs a).msb = true ∨ (v.rs a).toNat < 2 ^ 48) ∧ (v.rs a).toNat % 8 = 0) ∧ (v.rs b).toNat % 8 = 0

/-- ECOPY's own check of one end, in words. -/
theorem copyEnd_bad_iff {x : W64} {k m : BitVec 2} :
    ((!(m == k) && !canonical x) || x.toNat % 8 != 0) = true ↔ ¬ ((m = k ∨ x.msb = true ∨ x.toNat < 2 ^ 48) ∧ x.toNat % 8 = 0) := by
  rw [← canonical_eq_true]
  simp only [Bool.or_eq_true, Bool.and_eq_true, Bool.not_eq_true', bne_iff_ne, beq_eq_false_iff_ne]
  by_cases hm : m = k <;> by_cases hcanon : canonical x = true <;> by_cases halign : x.toNat % 8 = 0 <;> simp [hm, hcanon, halign]

section
variable {s : State} {v : View} {h : Head} {d a b : Reg} {m : BitVec 2} (hv : s.view = some v) (hg : v.guard h.neg h.g = true)
include hv hg

theorem execEcopy_fits_aligned (hfits : v.CopyFits d a b m) (halign : v.CopyAligned d a b m) :
    exec (.ecopy h d a b m) s = .next (v.elastic s false true (.ecopy m.toNat (v.rs d) (v.rs a) (v.rs b).toNat)) := by
  obtain ⟨hcount, hdst, hsrc⟩ := hfits
  obtain ⟨hd, ha, hb⟩ := halign
  refine (onMX_true hv hg).trans ?_
  rw [if_neg (by omega), if_neg (by simpa using hdst), if_neg (by simpa using hsrc), if_neg (mt copyEnd_bad_iff.1 (not_not.2 hd)),
    if_neg (mt copyEnd_bad_iff.1 (not_not.2 ha)), if_neg (by simp [hb])]

theorem execEcopy_not_fits (hfits : ¬ v.CopyFits d a b m) : ∃ addr, exec (.ecopy h d a b m) s = .next (v.raise s 2 addr) := by
  by_cases hcount : 2 ^ 20 < (v.rs b).toNat
  · exact ⟨v.rs b, (onMX_true hv hg).trans (by rw [if_pos hcount]; rfl)⟩
  by_cases hdst : (m == 2 && !v.st.fp.spadOk (v.rs d).toNat (v.rs b).toNat) = true
  · exact ⟨v.rs d, (onMX_true hv hg).trans (by rw [if_neg hcount, if_pos hdst]; rfl)⟩
  by_cases hsrc : (m == 1 && !v.st.fp.spadOk (v.rs a).toNat (v.rs b).toNat) = true
  · exact ⟨v.rs a, (onMX_true hv hg).trans (by rw [if_neg hcount, if_neg hdst, if_pos hsrc]; rfl)⟩
  · exact absurd ⟨by omega, by simpa using hdst, by simpa using hsrc⟩ hfits

theorem execEcopy_not_aligned (hfits : v.CopyFits d a b m) (halign : ¬ v.CopyAligned d a b m) :
    ∃ addr, exec (.ecopy h d a b m) s = .next (v.raise s 3 addr) := by
  obtain ⟨hcount, hdst, hsrc⟩ := hfits
  have hpast : exec (.ecopy h d a b m) s = .next
      (if (!(m == 2) && !canonical (v.rs d)) || (v.rs d).toNat % 8 != 0 then v.raise s 3 (v.rs d)
      else if (!(m == 1) && !canonical (v.rs a)) || (v.rs a).toNat % 8 != 0 then v.raise s 3 (v.rs a)
      else if (v.rs b).toNat % 8 != 0 then v.raise s 3 (v.rs b)
      else v.elastic s false true (.ecopy m.toNat (v.rs d) (v.rs a) (v.rs b).toNat)) := by
    refine (onMX_true hv hg).trans ?_
    rw [if_neg (by omega), if_neg (by simpa using hdst), if_neg (by simpa using hsrc)]
    rfl
  rw [hpast]
  split
  · exact ⟨_, rfl⟩
  · next hd =>
    split
    · exact ⟨_, rfl⟩
    · next ha =>
      have hb : (v.rs b).toNat % 8 ≠ 0 := fun hb =>
        halign ⟨not_not.1 (mt copyEnd_bad_iff.2 hd), not_not.1 (mt copyEnd_bad_iff.2 ha), hb⟩
      exact ⟨v.rs b, by rw [if_pos (by simpa using hb)]⟩

end

/-- Settles O18: past the check of its address, each takes its entry by one of the three lemmas on entries. -/
theorem elasticInstructionsTakeEntries : Obligations.ElasticInstructionsTakeEntries := by
  unfold Obligations.ElasticInstructionsTakeEntries
  refine ⟨?_, ?_⟩
  · intro s v h d a b m x hv hg room push L S LS okAddr scope size kind e p at8
    have hscope : scopeLevel m.toNat p = scope p := scopeLevel_eq _ _
    have hkind : ldKind m = kind := ldKind_eq m
    have hsize : (ldKind m).size = size := ldKind_size m
    have hatomic {i : Instr} {op : AtomicOp} {n : Nat} (hi : exec i s = .next (v.atomic s op d a b m))
        (hn : (if op == .fadd then 4 else 8) = n) :
        (okAddr p n → S i (at8 op)) ∧ (¬ okAddr p n → exec i s = .next (v.raise s 3 p)) := by
      subst hn
      refine ⟨fun hok => exec_takes_storeEntry ?_, exec_of_not_accepts hi⟩
      rw [exec_of_accepts hi hok, hscope]
    have hadd := hatomic (i := .aadd h d a b m) (onMX_true hv hg) rfl
    have hminI := hatomic (i := .aminI h d a b m) (onMX_true hv hg) rfl
    have hminN := hatomic (i := .aminN h d a b m) (onMX_true hv hg) rfl
    have hmaxI := hatomic (i := .amaxI h d a b m) (onMX_true hv hg) rfl
    have hmaxN := hatomic (i := .amaxN h d a b m) (onMX_true hv hg) rfl
    have hand := hatomic (i := .aand h d a b m) (onMX_true hv hg) rfl
    have hor := hatomic (i := .aor h d a b m) (onMX_true hv hg) rfl
    have hxor := hatomic (i := .axor h d a b m) (onMX_true hv hg) rfl
    have hxchg := hatomic (i := .axchg h d a b m) (onMX_true hv hg) rfl
    have hcas := hatomic (i := .acas h d a b m) (onMX_true hv hg) rfl
    have hfadd := hatomic (i := .afadd h d a b m) (onMX_true hv hg) rfl
    have hbara : exec (.bara h d a m) s = .next (v.onMem s p 8 (v.elastic s false true (.bara p (scope p) d))) := by
      rw [← hscope]
      exact onMX_true hv hg
    have hld : exec (.ld h d a b m) s = .next (v.onMem s e size (v.elastic s true false (.ld e kind d))) := by
      rw [← hkind, ← hsize]
      exact onMX_true hv hg
    have hst : exec (.st h d a b m) s =
        .next (v.onMem s e size (v.elastic s false true (.st e size (BitVec.ofNat 64 ((v.rs d).toNat % 2 ^ (8 * size)))))) := by
      rw [← hsize]
      exact onMX_true hv hg
    refine ⟨exec_takes_bothEntries (onMX_true hv hg), exec_takes_bothEntries (onMX_true hv hg), fun hok => ⟨?_, ?_⟩, fun hbad => ⟨?_, ?_⟩,
      fun hok => ⟨hadd.1 hok, hminI.1 hok, hminN.1 hok, hmaxI.1 hok, hmaxN.1 hok, hand.1 hok, hor.1 hok, hxor.1 hok, hxchg.1 hok,
        hcas.1 hok, exec_takes_storeEntry (exec_of_accepts hbara hok)⟩,
      hfadd.1, fun hbad i hi => ?_, hfadd.2, exec_of_not_accepts (onMX_true hv hg), fun hok htype => ?_, execEnq_type_bad hv hg⟩
    · exact exec_takes_loadEntry (exec_of_accepts hld hok)
    · exact exec_takes_storeEntry (exec_of_accepts hst hok)
    · exact exec_of_not_accepts hld hbad
    · exact exec_of_not_accepts hst hbad
    · simp only [List.mem_cons, List.not_mem_nil, or_false] at hi
      rcases hi with rfl | rfl | rfl | rfl | rfl | rfl | rfl | rfl | rfl | rfl | rfl
      exacts [hadd.2 hbad, hminI.2 hbad, hminN.2 hbad, hmaxI.2 hbad, hmaxN.2 hbad, hand.2 hbad, hor.2 hbad, hxor.2 hbad,
        hxchg.2 hbad, hcas.2 hbad, exec_of_not_accepts hbara hbad]
    · exact exec_takes_storeEntry (execEnq_type_ok hv hg hok htype)
  · intro s v h d a b m hv hg _ n inside fits good aligned
    have hfits : fits ↔ v.CopyFits d a b m := by simp only [fits, inside, View.CopyFits, Footprint.spadOk_iff, n]
    refine ⟨fun hf ha hroom => ?_, fun hf => execEcopy_not_fits hv hg (mt hfits.2 hf),
      fun hf ha => execEcopy_not_aligned hv hg (hfits.1 hf) ha, fun hf ha hfull => ?_⟩
    · exact (exec_takes_storeEntry (execEcopy_fits_aligned hv hg (hfits.1 hf) ha)).1 hroom
    · exact (exec_takes_storeEntry (execEcopy_fits_aligned hv hg (hfits.1 hf) ha)).2 (by omega)

end Sys2Proof.Machine
end

section
/-! Scratchpad loads and stores: the bytes they carry, their tags and their checks (R132, R217, R218). -/

namespace Sys2Proof.Machine

/-! ## The bytes of a range -/

theorem Sparse.getN_zero {w : Nat} (m : Sparse w) (a : Nat) : Sparse.getN m a 0 = [] := rfl

theorem Sparse.getN_succ {w : Nat} (m : Sparse w) (a n : Nat) : Sparse.getN m a (n + 1) = Sparse.get m a :: Sparse.getN m (a + 1) n := by
  simp only [Sparse.getN, List.range_succ_eq_map, List.map_cons, List.map_map, Nat.add_zero]
  congr 1
  refine List.map_congr_left fun i _ => ?_
  rw [Function.comp_apply, Nat.succ_eq_add_one, Nat.add_right_comm, Nat.add_assoc]

/-- The number in four bytes from `a` on, the lowest first (R1). -/
def Sparse.word (m : Sparse 8) (a : Nat) : Nat :=
  (Sparse.get m a).toNat + 2 ^ 8 * (Sparse.get m (a + 1)).toNat + 2 ^ 16 * (Sparse.get m (a + 2)).toNat +
    2 ^ 24 * (Sparse.get m (a + 3)).toNat

theorem natOfBytes_getN_four (m : Sparse 8) (a : Nat) : natOfBytes (Sparse.getN m a 4) = Sparse.word m a := by
  simp only [Sparse.getN_succ, Sparse.getN_zero, natOfBytes, Sparse.word, Nat.add_assoc, Nat.reduceAdd]
  omega

theorem natOfBytes_getN_eight (m : Sparse 8) (a : Nat) : natOfBytes (Sparse.getN m a 8) = Sparse.word m a + 2 ^ 32 * Sparse.word m (a + 4) := by
  simp only [Sparse.getN_succ, Sparse.getN_zero, natOfBytes, Sparse.word, Nat.add_assoc, Nat.reduceAdd]
  omega

theorem Sparse.word_lt (m : Sparse 8) (a : Nat) : Sparse.word m a < 2 ^ 32 := by
  have h0 := (Sparse.get m a).isLt
  have h1 := (Sparse.get m (a + 1)).isLt
  have h2 := (Sparse.get m (a + 2)).isLt
  have h3 := (Sparse.get m (a + 3)).isLt
  unfold Sparse.word
  omega

theorem wordsOf_getN (m : Sparse 8) (n a : Nat) :
    wordsOf (Sparse.getN m a (4 * n)) = (List.range n).map fun i => BitVec.ofNat 32 (Sparse.word m (a + 4 * i)) := by
  induction n generalizing a with
  | zero => rfl
  | succ n ih =>
    rw [List.range_succ_eq_map, List.map_cons, List.map_map, Nat.mul_zero, Nat.add_zero, ← natOfBytes_getN_four]
    simp only [Nat.mul_add, Nat.mul_one, Sparse.getN_succ, Sparse.getN_zero, wordsOf, Nat.add_assoc, Nat.reduceAdd, ih]
    congr 1
    refine List.map_congr_left fun i _ => ?_
    rw [Function.comp_apply, Nat.succ_eq_add_one, Nat.mul_add, Nat.add_comm (4 * i)]

/-- The lanes of 256 bytes of a scratchpad: lane `j` holds the word at `4 j`. -/
theorem lane_lanesFromBytes_getN (m : Sparse 8) (a : Nat) {j : Nat} (hj : j < 64) :
    (lane (lanesFromBytes (Sparse.getN m a 256)) j).toNat = Sparse.word m (a + 4 * j) := by
  rw [lanesFromBytes, wordsOf_getN m 64 a, lane_lanesOf _ hj]
  simp only [List.getD_eq_getElem?_getD, List.getElem?_map, List.getElem?_range hj, Option.map_some, Option.getD_some, BitVec.toNat_ofNat]
  exact Nat.mod_eq_of_lt (Sparse.word_lt m _)

theorem toNat_ofNat_natOfBytes_getN (m : Sparse 8) (a : Nat) :
    (BitVec.ofNat 64 (natOfBytes (Sparse.getN m a 8))).toNat = Sparse.word m a + 2 ^ 32 * Sparse.word m (a + 4) := by
  have hlow := Sparse.word_lt m a
  have hhigh := Sparse.word_lt m (a + 4)
  rw [natOfBytes_getN_eight, BitVec.toNat_ofNat]
  omega

/-! ## The bytes of a source -/

theorem getElem?_bytesOf {w : Nat} (x : BitVec w) {n i : Nat} (hi : i < n) : (bytesOf n x.toNat)[i]? = some (x.extractLsb' (8 * i) 8) := by
  simp only [bytesOf, List.getElem?_map, List.getElem?_range hi, Option.map_some, BitVec.extractLsb', Nat.shiftRight_eq_div_pow]

theorem length_bytesOf (n v : Nat) : (bytesOf n v).length = n := by simp [bytesOf]

theorem getElem?_flatMap_bytesOf {xs : List W32} {j i : Nat} {x : W32} (hx : xs[j]? = some x) (hi : i < 4) :
    (xs.flatMap fun w => bytesOf 4 w.toNat)[4 * j + i]? = some (x.extractLsb' (8 * i) 8) := by
  induction xs generalizing j with
  | nil => simp at hx
  | cons y ys ih =>
    rw [List.flatMap_cons]
    cases j with
    | zero =>
      obtain rfl : y = x := by simpa using hx
      rw [Nat.mul_zero, Nat.zero_add, List.getElem?_append_left (by rw [length_bytesOf]; exact hi), getElem?_bytesOf _ hi]
    | succ j =>
      rw [List.getElem?_append_right (by rw [length_bytesOf]; omega), length_bytesOf, show 4 * (j + 1) + i - 4 = 4 * j + i by omega]
      exact ih (by simpa using hx)

/-- Byte `i` of lane `j` of a vector stands at `4 j + i` (R1). -/
theorem getElem?_laneBytes (x : Lanes) {j i : Nat} (hj : j < 64) (hi : i < 4) :
    (laneBytes x)[4 * j + i]? = some ((lane x j).extractLsb' (8 * i) 8) :=
  getElem?_flatMap_bytesOf (by simp [lanesList, hj]) hi

theorem length_flatMap_bytesOf (xs : List W32) : (xs.flatMap fun w => bytesOf 4 w.toNat).length = 4 * xs.length := by
  induction xs with
  | nil => rfl
  | cons x xs ih =>
    rw [List.flatMap_cons, List.length_append, length_bytesOf, ih, List.length_cons]
    omega

theorem length_laneBytes (x : Lanes) : (laneBytes x).length = 256 := by
  rw [laneBytes, length_flatMap_bytesOf, lanesList, List.length_map, List.length_range]

/-! ## Addresses and checks (R132, R217, R218) -/

theorem View.spadAddr_eq (v : View) (k : Reg) (f : BitVec 7) (n : Nat) : v.spadAddr k f n = v.rs k + BitVec.ofInt 64 (n * f.toInt) := by
  rw [View.spadAddr, BitVec.ofInt_mul, BitVec.mul_comm]
  rfl

/-- A range of the scratchpad an access may take: aligned to its size, and in the strand's banks (R132). -/
def View.SpadRange (v : View) (a : W64) (n : Nat) : Prop := a.toNat % n = 0 ∧ a.toNat + n ≤ v.st.fp.banks * 2 ^ 17

theorem View.onSpad_of_range {v : View} {s : State} {a : W64} {n : Nat} (f : Nat → State) (hn : 0 < n) (h : v.SpadRange a n) :
    v.onSpad s a n f = f a.toNat := by
  obtain ⟨halign, hin⟩ := h
  refine if_neg ?_
  simp only [Footprint.spadOk, Bool.or_eq_true, bne_iff_ne, Bool.not_eq_true', Bool.and_eq_false_iff, decide_eq_false_iff_not]
  omega

theorem View.onSpad_of_not_range {v : View} {s : State} {a : W64} {n : Nat} (f : Nat → State) (h : ¬ v.SpadRange a n) :
    v.onSpad s a n f = v.raise s 2 a := by
  refine if_pos ?_
  simp only [Footprint.spadOk, Bool.or_eq_true, bne_iff_ne, Bool.not_eq_true', Bool.and_eq_false_iff, decide_eq_false_iff_not]
  by_cases halign : a.toNat % n = 0
  · exact .inr (.inr fun hin => h ⟨halign, hin⟩)
  · exact .inl halign

/-- No poisoned word meets the range. -/
def View.SpadClean (v : View) (a : W64) (n : Nat) : Prop := ∀ w ∈ v.co.spadPoison, 4 * w + 4 ≤ a.toNat ∨ a.toNat + n ≤ 4 * w

theorem View.spadBad_of_clean {v : View} {a : W64} {n : Nat} (h : v.SpadClean a n) : v.co.spadBad a.toNat n = none := by
  refine List.find?_eq_none.2 fun w hw => ?_
  have := h w hw
  rw [Bool.and_eq_true, decide_eq_true_iff, decide_eq_true_iff]
  omega

/-- The tile of the address has the tag, or a write that the bundle waits for gives it the tag; unless tags go unchecked (R73, R286). -/
def View.Tagged (v : View) (a : W64) (tag : Byte) : Prop :=
  v.st.tagck = true → Sparse.get v.co.tags (a.toNat / 4096) = tag ∨ (a.toNat / 4096, tag) ∈ v.co.coming

theorem View.tagBad_iff {v : View} {a : W64} {tag : Byte} : v.tagBad a.toNat (some tag) = true ↔ ¬ v.Tagged a tag := by
  simp only [View.tagBad, View.Tagged, Bool.and_eq_true, bne_iff_ne, Bool.not_eq_true', List.contains_eq_mem, decide_eq_false_iff_not]
  tauto

section
variable {s : State} {v : View} {a : W64} {n : Nat}

theorem View.spadLoad_reads {tag : Option Byte} (act : List Byte → Act) (hn : 0 < n) (hrange : v.SpadRange a n) (hclean : v.SpadClean a n)
    (htag : v.tagBad a.toNat tag = false) :
    v.spadLoad s a n tag act = v.land (v.claim s 0 a.toNat n 0) 8 2 (act (Sparse.getN v.co.spad a.toNat n)) := by
  rw [View.spadLoad, View.onSpad_of_range _ hn hrange, htag, if_neg Bool.false_ne_true, View.spadBad_of_clean hclean]
  rfl

theorem View.spadLoad_wrongTag {tag : Byte} (act : List Byte → Act) (hn : 0 < n) (hrange : v.SpadRange a n) (htag : ¬ v.Tagged a tag) :
    v.spadLoad s a n (some tag) act = v.raise s 4 a tag.toNat := by
  rw [View.spadLoad, View.onSpad_of_range _ hn hrange, if_pos (View.tagBad_iff.2 htag)]
  rfl

end

/-- The tag check of an access without a tag never fails, and of one with its tag on the tile neither. -/
theorem View.tagBad_of_tagged {v : View} {a : W64} {tag : Byte} (h : v.Tagged a tag) : v.tagBad a.toNat (some tag) = false :=
  Bool.eq_false_iff.2 fun hbad => View.tagBad_iff.1 hbad h

/-- Settles O16: the loads and the stores each by the lemmas on their range, their tag and their bytes. -/
theorem scratchpadAccesses : Obligations.ScratchpadAccesses := by
  unfold Obligations.ScratchpadAccesses
  refine ⟨?_, ?_⟩
  · intro s v h d r k f tag hv hg byte word vec scl av ax within clean tagged
    have hav : v.spadAddr k f 256 = av := v.spadAddr_eq k f 256
    have hax : v.spadAddr k f 8 = ax := v.spadAddr_eq k f 8
    have hvec {ins : Instr} {a : W64} {t : Option Byte} (hrange : v.SpadRange a 256) (hclean : v.SpadClean a 256)
        (htag : v.tagBad a.toNat t = false)
        (hi : exec ins s = .next (v.spadLoad s a 256 t fun bs => .vec v.cur.cl d (BitVec.allOnes 64) (lanesFromBytes bs))) : vec ins a.toNat :=
      ⟨lanesFromBytes (Sparse.getN v.co.spad a.toNat 256), by rw [hi, View.spadLoad_reads _ (by omega) hrange hclean htag],
        fun j hj => lane_lanesFromBytes_getN v.co.spad a.toNat hj⟩
    have hscl {ins : Instr} {a : W64} {t : Option Byte} (hrange : v.SpadRange a 8) (hclean : v.SpadClean a 8)
        (htag : v.tagBad a.toNat t = false)
        (hi : exec ins s = .next (v.spadLoad s a 8 t fun bs => .scalar v.cur.cl r (BitVec.ofNat 64 (natOfBytes bs)))) : scl ins a.toNat :=
      ⟨BitVec.ofNat 64 (natOfBytes (Sparse.getN v.co.spad a.toNat 8)), by rw [hi, View.spadLoad_reads _ (by omega) hrange hclean htag],
        toNat_ofNat_natOfBytes_getN v.co.spad a.toNat⟩
    have hsld := onMX_true (s := s) (h := h) (f := fun v => v.spadLoad s (v.spadAddr k f 256) 256 none fun bs =>
      .vec v.cur.cl d (BitVec.allOnes 64) (lanesFromBytes bs)) hv hg
    have hsldT := onMX_true (s := s) (h := h) (f := fun v => v.spadLoad s (v.spadAddr k f 256) 256 (some tag) fun bs =>
      .vec v.cur.cl d (BitVec.allOnes 64) (lanesFromBytes bs)) hv hg
    have hslds := onMX_true (s := s) (h := h) (f := fun v => v.spadLoad s (v.spadAddr k f 8) 8 none fun bs =>
      .scalar v.cur.cl r (BitVec.ofNat 64 (natOfBytes bs))) hv hg
    have hsldsT := onMX_true (s := s) (h := h) (f := fun v => v.spadLoad s (v.spadAddr k f 8) 8 (some tag) fun bs =>
      .scalar v.cur.cl r (BitVec.ofNat 64 (natOfBytes bs))) hv hg
    rw [hav] at hsld hsldT
    rw [hax] at hslds hsldsT
    refine ⟨fun hr hc => ⟨hvec hr hc rfl hsld, fun ht => hvec hr hc (View.tagBad_of_tagged ht) hsldT⟩,
      fun hr hc => ⟨hscl hr hc rfl hslds, fun ht => hscl hr hc (View.tagBad_of_tagged ht) hsldsT⟩,
      fun hr => ⟨hsld.trans ?_, hsldT.trans ?_⟩, fun hr => ⟨hslds.trans ?_, hsldsT.trans ?_⟩,
      fun hr ht => hsldT.trans ?_, fun hr ht => hsldsT.trans ?_⟩
    · rw [View.spadLoad, View.onSpad_of_not_range _ hr]
    · rw [View.spadLoad, View.onSpad_of_not_range _ hr]
    · rw [View.spadLoad, View.onSpad_of_not_range _ hr]
    · rw [View.spadLoad, View.onSpad_of_not_range _ hr]
    · rw [View.spadLoad_wrongTag _ (by omega) hr ht]
    · rw [View.spadLoad_wrongTag _ (by omega) hr ht]
  · intro s v h o r k f tag hv hg src av ax within stored withTag
    have hav : v.spadAddr k f 256 = av := v.spadAddr_eq k f 256
    have hax : v.spadAddr k f 8 = ax := v.spadAddr_eq k f 8
    have hsrc : v.osrc o = src := by cases o <;> rfl
    have hsst := onMX_true (s := s) (h := h) (f := fun v => v.spadStore s (v.spadAddr k f 256) (laneBytes (v.osrc o)) none) hv hg
    have hsstT := onMX_true (s := s) (h := h) (f := fun v => v.spadStore s (v.spadAddr k f 256) (laneBytes (v.osrc o)) (some tag)) hv hg
    have hssts := onMX_true (s := s) (h := h) (f := fun v => v.spadStore s (v.spadAddr k f 8) (bytesOf 8 (v.rs r).toNat) none) hv hg
    have hsstsT := onMX_true (s := s) (h := h) (f := fun v => v.spadStore s (v.spadAddr k f 8) (bytesOf 8 (v.rs r).toNat) (some tag)) hv hg
    have hlen := length_laneBytes src
    have hlen8 := length_bytesOf 8 (v.rs r).toNat
    simp only [hav, hsrc, View.spadStore, hlen] at hsst hsstT
    simp only [hax, View.spadStore, hlen8] at hssts hsstsT
    refine ⟨fun hr => ⟨laneBytes src, hlen, fun j hj i hi => getElem?_laneBytes src hj hi, hsst.trans ?_, hsstT.trans ?_⟩,
      fun hr => ⟨bytesOf 8 (v.rs r).toNat, hlen8, fun i hi => getElem?_bytesOf _ hi, hssts.trans ?_, hsstsT.trans ?_⟩,
      fun hr => ⟨hsst.trans ?_, hsstT.trans ?_⟩, fun hr => ⟨hssts.trans ?_, hsstsT.trans ?_⟩⟩
    · rw [View.onSpad_of_range _ (by omega) hr]
      simp only [stored, hlen]
    · rw [View.onSpad_of_range _ (by omega) hr]
      simp only [withTag, stored, hlen]
    · rw [View.onSpad_of_range _ (by omega) hr]
      simp only [stored, hlen8]
    · rw [View.onSpad_of_range _ (by omega) hr]
      simp only [withTag, stored, hlen8]
    · rw [View.onSpad_of_not_range _ hr]
    · rw [View.onSpad_of_not_range _ hr]
    · rw [View.onSpad_of_not_range _ hr]
    · rw [View.onSpad_of_not_range _ hr]

end Sys2Proof.Machine
end

section
/-! Waits as they begin and as they hold a strand (R68, R229, R233, R234). -/

namespace Sys2Proof.Machine

/-! ## Holding at a boundary (R21, R68) -/

theorem Wait.passed_eq_false {w : Wait} {cyc stride : Nat} :
    w.passed cyc stride = false ↔ ¬ ∃ c, w.seenAt = some c ∧ (c ≤ w.cyc0 ∨ c + 8 * stride ≤ cyc) := by
  cases hseen : w.seenAt <;> simp [Wait.passed, hseen]

theorem Strand.waitHolds_iff {t : Strand} {cyc : Nat} : t.waitHolds cyc = true ↔ ∃ r ∈ t.contexts, ∃ w ∈ (t.clusterAt r.core r.cl).waits,
    w.beat + 8 ≤ t.beat ∧ ¬ ∃ c, w.seenAt = some c ∧ (c ≤ w.cyc0 ∨ c + 8 * t.stride ≤ cyc) := by
  simp only [Strand.waitHolds, List.any_eq_true, Bool.and_eq_true, decide_eq_true_iff, Bool.not_eq_true', Wait.passed_eq_false]

section
variable {s : State} {sid : Nat} {t : Strand} (ht : s.strand? sid = some t)

theorem Strand.shed_of_not_raised (hraised : t.raised = []) (cyc : Nat) : t.shed cyc = t := by
  rw [Strand.shed, hraised, List.filter_nil, ← hraised]

theorem Strand.noteHold_of_not_asked (hhold : t.holdReq = false) : t.noteHold = t := by
  rw [Strand.noteHold, hhold, Bool.false_and, Bool.false_and, if_neg Bool.false_ne_true]

theorem State.stopDue_of_not_raised (hraised : t.raised = []) : s.stopDue t = false := by
  simp [State.stopDue, hraised]

theorem Strand.holdDue_of_not_asked (hhold : t.holdReq = false) : t.holdDue = false := by
  simp [Strand.holdDue, hhold]

include ht in
/-- At a boundary where only a wait holds it, a strand freezes for the wait, on the cycle of the boundary (R68). -/
theorem State.boundary_waits (hraised : t.raised = []) (hhold : t.holdReq = false) (hfreeze : t.freeze = none) (hret : t.retires = false)
    (hrdv : t.rdvLate (s.stack t.stack).cyc = []) (hwait : t.waitHolds (s.stack t.stack).cyc = true) :
    (s.boundary sid).strand? sid = some { t with freeze := some { why := .elastic, since := (s.stack t.stack).cyc, resume := none } } := by
  have hsid := State.strand_sid ht
  subst hsid
  have hnoted : (s.modStrand t.sid fun t => (t.shed (s.stack t.stack).cyc).noteHold).strand? t.sid = some t := by
    rw [State.strand_modStrand_found (fun x => ?_) ht]
    · rw [Strand.shed_of_not_raised hraised, Strand.noteHold_of_not_asked hhold]
    · unfold Strand.noteHold Strand.shed
      split <;> rfl
  simp only [State.boundary, hnoted, State.stack_modStrand, State.stopDue_of_not_raised hraised, Strand.holdDue_of_not_asked hhold, hret,
    hfreeze, hrdv, hwait, Option.isSome_none, List.isEmpty_nil, Bool.not_true, Bool.false_eq_true, if_false, if_true]
  exact State.strand_modStrand_found (fun _ => rfl) hnoted

end

/-- Settles O19: each wait by its count or its address, and what a wait does at a boundary by the two lemmas on holding. -/
theorem waitsBegin : Obligations.WaitsBegin := by
  unfold Obligations.WaitsBegin
  refine ⟨?_, fun _ _ => Strand.waitHolds_iff, fun _ _ _ ht hraised hhold hfreeze hret hrdv hwait =>
    State.boundary_waits ht hraised hhold hfreeze hret hrdv hwait⟩
  intro s v h d a b m cc x hv hg noted held p ok scope
  have hscope : scopeLevel m.toNat p = scope := scopeLevel_eq _ _
  have hlqwait : exec (.lqwait h x) s = .next (if held v.cl.lq ≤ x.toNat then s else noted (.lq x.toNat)) := onMX_true hv hg
  have hsqwait : exec (.sqwait h x) s = .next (if held v.cl.sq ≤ x.toNat then s else noted (.sq x.toNat)) := onMX_true hv hg
  have hbarw : exec (.barw h a b m) s = .next (v.onMem s p 8 (noted (.barw p (v.rs b) scope))) := by
    rw [← hscope]
    exact onMX_true hv hg
  have hmask : (if d == 0 then BitVec.allOnes 64 else v.rs d) = if d = 0 then BitVec.allOnes 64 else v.rs d := by simp only [beq_iff_eq]
  have hflagw : exec (.flagw h d a b m cc) s = .next (v.onMem s p 8
      (noted (.flagw p (v.rs b) (if d = 0 then BitVec.allOnes 64 else v.rs d) cc.toNat scope))) := by
    rw [← hscope, ← hmask]
    exact onMX_true hv hg
  refine ⟨fun hmet => ?_, fun hunmet => ?_, fun hmet => ?_, fun hunmet => ?_, exec_of_accepts hbarw, exec_of_accepts hflagw,
    fun hbad => ⟨exec_of_not_accepts hbarw hbad, exec_of_not_accepts hflagw hbad⟩⟩
  · rw [hlqwait, if_pos hmet]
  · rw [hlqwait, if_neg (Nat.not_le.2 hunmet)]
  · rw [hsqwait, if_pos hmet]
  · rw [hsqwait, if_neg (Nat.not_le.2 hunmet)]

end Sys2Proof.Machine
end

section
/-! Stops, drains and their ends (R239, R252, R281 to R287). -/

namespace Sys2Proof.Machine

/-! ## The lowest code of each context (R252, R284) -/

theorem Cause.sameTaker_iff {a b : Cause} : a.sameTaker b = true ↔ a.core = b.core ∧ a.cl = b.cl := by
  simp [Cause.sameTaker]

/-- A cause that bears the lowest code that its context has in a list. -/
def Cause.LowestIn (c : Cause) (cs : List Cause) : Prop := c ∈ cs ∧ ∀ d ∈ cs, d.core = c.core → d.cl = c.cl → c.code ≤ d.code

/-- The causes chosen bear the lowest codes of their contexts, and every context with a cause has one of them. -/
theorem chooseCauses_spec (cs : List Cause) :
    (∀ c ∈ chooseCauses cs, c.LowestIn cs) ∧ ∀ d ∈ cs, ∃ c ∈ chooseCauses cs, c.core = d.core ∧ c.cl = d.cl := by
  induction cs with
  | nil => exact ⟨fun c hc => absurd hc List.not_mem_nil, fun d hd => absurd hd List.not_mem_nil⟩
  | cons c cs ih =>
    obtain ⟨hlow, hall⟩ := ih
    simp only [chooseCauses]
    split
    · next hany =>
      obtain ⟨b, hb, hbc⟩ := List.any_eq_true.1 hany
      simp only [Bool.and_eq_true, decide_eq_true_iff, Cause.sameTaker_iff] at hbc
      obtain ⟨⟨hcore, hcl⟩, hless⟩ := hbc
      refine ⟨fun e he => ⟨List.mem_cons_of_mem _ (hlow e he).1, fun d hd hdc hdl => ?_⟩, fun d hd => ?_⟩
      · rcases List.mem_cons.1 hd with rfl | hd
        · exact (((hlow e he).2 b (hlow b hb).1 (hcore.trans hdc) (hcl.trans hdl)).trans hless.le)
        · exact (hlow e he).2 d hd hdc hdl
      · rcases List.mem_cons.1 hd with rfl | hd
        · exact ⟨b, hb, hcore, hcl⟩
        · exact hall d hd
    · next hnone =>
      have hcode {b : Cause} (hb : b ∈ chooseCauses cs) (hcore : b.core = c.core) (hcl : b.cl = c.cl) : c.code ≤ b.code := by
        by_contra hless
        exact hnone (List.any_eq_true.2 ⟨b, hb, by simp [Cause.sameTaker_iff, hcore, hcl, Nat.not_le.1 hless]⟩)
      have hkept {b : Cause} : b ∈ (chooseCauses cs).filter (fun d => !d.sameTaker c) ↔
          b ∈ chooseCauses cs ∧ ¬ (b.core = c.core ∧ b.cl = c.cl) := by
        rw [List.mem_filter, Bool.not_eq_true', ← Cause.sameTaker_iff, Bool.not_eq_true]
      refine ⟨fun e he => ?_, fun d hd => ?_⟩
      · rcases List.mem_cons.1 he with rfl | he
        · refine ⟨List.mem_cons_self, fun d hd hdc hdl => ?_⟩
          rcases List.mem_cons.1 hd with rfl | hd
          · exact le_rfl
          · obtain ⟨b, hb, hbc, hbl⟩ := hall d hd
            exact (hcode hb (hbc.trans hdc) (hbl.trans hdl)).trans ((hlow b hb).2 d hd hbc.symm hbl.symm)
        · obtain ⟨he, hother⟩ := hkept.1 he
          refine ⟨List.mem_cons_of_mem _ (hlow e he).1, fun d hd hdc hdl => ?_⟩
          rcases List.mem_cons.1 hd with rfl | hd
          · exact absurd ⟨hdc.symm, hdl.symm⟩ hother
          · exact (hlow e he).2 d hd hdc hdl
      · by_cases hsame : d.core = c.core ∧ d.cl = c.cl
        · exact ⟨c, List.mem_cons_self, hsame.1.symm, hsame.2.symm⟩
        · rcases List.mem_cons.1 hd with rfl | hd
          · exact absurd ⟨rfl, rfl⟩ hsame
          · obtain ⟨b, hb, hbc, hbl⟩ := hall d hd
            exact ⟨b, List.mem_cons_of_mem _ (hkept.2 ⟨hb, by rw [hbc, hbl]; exact hsame⟩), hbc, hbl⟩

/-! ## Stops and holds (R281, R287) -/

section
variable {s : State} {sid : Nat} {t : Strand} (ht : s.strand? sid = some t)
include ht

theorem execStrandStop_fatal {c : Cause} (hdue : s.stopDue t = true) (hc : t.choose.taking.find? t.fatal = some c) :
    exec (.strandStop sid) s = .next (s.crashStrand t c) := by
  change execStrandStop sid s = _
  simp [execStrandStop, ht, hdue, hc]

theorem execStrandStop_idle (hdue : s.stopDue t = true) (htaking : t.choose.taking = []) :
    exec (.strandStop sid) s = .next (s.modStrand sid fun _ => t.choose) := by
  change execStrandStop sid s = _
  simp [execStrandStop, ht, hdue, htaking]

theorem execStrandStop_drains (hdue : s.stopDue t = true) (hcalm : ∀ c ∈ t.choose.taking, t.fatal c = false)
    (htaking : t.choose.taking ≠ []) : exec (.strandStop sid) s = .next (s.beginDrain t.choose false) := by
  have hnone : t.choose.taking.find? t.fatal = none := List.find?_eq_none.2 fun c hc => by simp [hcalm c hc]
  change execStrandStop sid s = _
  simp [execStrandStop, ht, hdue, hnone, htaking]

theorem execPreemptionHold_drains (hdue : t.holdDue = true) : exec (.preemptionHold sid) s = .next (s.beginDrain t true) := by
  change execPreemptionHold sid s = _
  simp [execPreemptionHold, ht, hdue]

end

/-! ## The ends of a drain (R239, R282, R284, R287) -/

/-- The state in which a drain that ends at a cycle leaves its strand, before what it ends in (R282). -/
def State.drained (s : State) (t : Strand) (cyc : Nat) : State :=
  (s.drainStrand t).1.modStrand t.sid fun t => { t.afterDrain with stopCyc := cyc }

/-- The strand as its hold is complete, or, where the hold was withdrawn, as it goes on. -/
def Strand.endHold (t : Strand) (horizon cyc : Nat) : Strand :=
  let u := t.mapCl fun c => { c with horizon := max c.horizon horizon }
  if u.holdReq then { u with status := .held, holdReq := false, holdAt := none } else u.resumeAt cyc

theorem Strand.anew_rest (t : Strand) (cyc : Nat) : t.anew cyc = { t with region := (t.anew cyc).region, cores := (t.anew cyc).cores } := by
  unfold Strand.anew
  rw [Strand.mapCl_rest]

theorem Strand.resumeAt_spec (t : Strand) (cyc : Nat) : (t.resumeAt cyc).sid = t.sid ∧ (t.resumeAt cyc).status = .run ∧
    (t.resumeAt cyc).holdReq = false ∧ (t.resumeAt cyc).beat = t.beat ∧ (t.resumeAt cyc).digest = t.digest := by
  unfold Strand.resumeAt
  rw [Strand.anew_rest]
  exact ⟨rfl, rfl, rfl, rfl, rfl⟩

theorem Strand.endHold_spec (t : Strand) (horizon cyc : Nat) :
    (t.endHold horizon cyc).sid = t.sid ∧ (t.endHold horizon cyc).status = (if t.holdReq then .held else .run) ∧
      (t.endHold horizon cyc).holdReq = false ∧ (t.endHold horizon cyc).beat = t.beat ∧ (t.endHold horizon cyc).digest = t.digest := by
  unfold Strand.endHold
  rw [Strand.mapCl_rest]
  by_cases hhold : t.holdReq = true
  · simp only [hhold, if_true, and_self]
  · simp only [hhold]
    exact Strand.resumeAt_spec _ _

theorem State.strand_modStrand_const {s : State} {n : Nat} {t y : Strand} (ht : s.strand? n = some t) (hy : y.sid = n) :
    (s.modStrand n fun _ => y).strand? n = some y := by
  rw [State.strand_modStrand s n (fun _ => y) fun _ _ => hy, ht]
  rfl

/-- A context that takes its trap: its cluster is as `takeTrap` leaves it (R239). -/
def Cause.trapped (c : Cause) (beat fall e : Nat) (co : Core) (cl : Cluster) : Cluster :=
  { takeTrap co cl c beat fall with horizon := max cl.horizon e, rdv := if c.hold then none else cl.rdv }

/-- A strand that goes on in its handlers. -/
def Strand.inHandler (t : Strand) : Strand := { t with status := .handler, taking := [] }

theorem Strand.clusterAt_inHandler (t : Strand) (n k : Nat) : t.inHandler.clusterAt n k = t.clusterAt n k := rfl

theorem State.trapOne_eq (s : State) {sid : Nat} {t : Strand} {c : Cause} {co : Core} {e : Nat} (ht : s.strand? sid = some t)
    (hco : t.cores[c.core]? = some co) :
    s.trapOne sid c e = s.modStrand sid fun y => y.modCl c.core c.cl (c.trapped y.beat (s.fallAddr t co (co.cluster c.cl)) e co) := by
  simp only [State.trapOne, ht, hco]
  rfl

/-- A stop with one cause, which ends no strand, takes it in its context. -/
theorem State.takeCauses_single {s : State} {t : Strand} {c : Cause} {co : Core} {e : Nat} (htaking : t.taking = [c])
    (hcalm : t.fatal c = false) (ht : s.strand? t.sid = some t) (hco : t.cores[c.core]? = some co) :
    s.takeCauses t e =
      (s.modStrand t.sid fun y => y.modCl c.core c.cl (c.trapped y.beat (s.fallAddr t co (co.cluster c.cl)) e co)).modStrand t.sid
        Strand.inHandler := by
  have hnone : t.taking.find? t.fatal = none := by
    rw [htaking]
    simp [hcalm]
  rw [State.takeCauses, hnone, ← State.trapOne_eq s ht hco, htaking]
  rfl

theorem Strand.clusterAt_modCl {t : Strand} {n k : Nat} {co : Core} (f : Cluster → Cluster) (hco : t.cores[n]? = some co) (hk : k < 4) :
    (t.modCl n k f).clusterAt n k = f (co.cluster k) := by
  rw [Strand.modCl, Strand.clusterAt_eq (Strand.cores_modCore _ hco), Core.cluster_modCl _ _ hk]

section
variable {s : State} {sid : Nat} {t t' : Strand} {hold : Bool} (ht : s.strand? sid = some t) (hdrain : t.status = .drain hold)
  (hcyc : t.stopCyc ≤ (s.stack t.stack).cyc) (hdone : t.elasticDone = true)
  (ht' : (s.drained t (s.stack t.stack).cyc).strand? sid = some t')
include ht hdrain hcyc hdone ht'

/-- A drain ends by what its strand then has to take: nothing, as its hold is complete, or the causes of the stop. -/
theorem execDrainEnd_eq : exec (.drainEnd sid) s = .next
    (let x := if hold then t'.choose else t'
    if x.taking.isEmpty then
      let u := x.mapCl fun c => { c with horizon := max c.horizon (s.drainStrand t).2 }
      if u.holdReq then (s.drained t (s.stack t.stack).cyc).modStrand sid fun _ => { u with status := .held, holdReq := false, holdAt := none }
      else ((s.drained t (s.stack t.stack).cyc).modStrand sid fun _ => u.resumeAt (s.stack t.stack).cyc).lookWaitsAfresh sid
    else ((s.drained t (s.stack t.stack).cyc).modStrand sid fun _ => x).takeCauses x (s.drainStrand t).2) := by
  obtain rfl := State.strand_sid ht
  change execDrainEnd t.sid s = _
  simp only [execDrainEnd, ht, hdrain]
  rw [if_neg (by simp [hcyc, hdone])]
  change (match (s.drained t (s.stack t.stack).cyc).strand? t.sid with
    | none => _
    | some t => _) = _
  rw [ht']
  rcases hold with _ | _
  · simp only [Bool.false_eq_true, if_false]
    split <;> rfl
  · simp only [if_true]
    split <;> rfl

/-- The drain of a hold ends with nothing to take: the strand is held, or goes on. -/
theorem execDrainEnd_hold (hhold : hold = true) (htaking : t'.choose.taking = []) :
    ∃ u, exec (.drainEnd sid) s = .next u ∧ ∃ y, u.strand? sid = some y ∧
      y.status = (if t'.holdReq then .held else .run) ∧ y.holdReq = false ∧ y.beat = t'.beat ∧ y.digest = t'.digest := by
  subst hhold
  obtain rfl := State.strand_sid ht
  have hsid' : t'.sid = t.sid := State.strand_sid ht'
  set cyc := (s.stack t.stack).cyc
  set e := (s.drainStrand t).2 with he
  set x := t'.choose.endHold e cyc with hx
  obtain ⟨hxsid, hstatus, hreq, hbeat, hdigest⟩ := t'.choose.endHold_spec e cyc
  have hfound : ((s.drained t cyc).modStrand t.sid fun _ => x).strand? t.sid = some x :=
    State.strand_modStrand_const ht' (hxsid.trans hsid')
  have hend : exec (.drainEnd t.sid) s = .next (if t'.holdReq then (s.drained t cyc).modStrand t.sid fun _ => x
      else ((s.drained t cyc).modStrand t.sid fun _ => x).lookWaitsAfresh t.sid) := by
    rw [execDrainEnd_eq ht hdrain hcyc hdone ht']
    have hreq : (t'.choose.mapCl fun c => { c with horizon := max c.horizon e }).holdReq = t'.holdReq := by
      rw [Strand.mapCl_rest]
      rfl
    by_cases hhold : t'.holdReq = true <;> simp [htaking, hx, Strand.endHold, ← he, hreq, hhold, cyc]
  by_cases hheld : t'.holdReq = true
  · rw [hend, if_pos hheld]
    exact ⟨_, rfl, x, hfound, hstatus, hreq, hbeat, hdigest⟩
  · rw [hend, if_neg hheld]
    obtain ⟨y, hy, hxy⟩ := (State.Rereads.lookWaitsAfresh (ws := []) _ t.sid).found x hfound
    refine ⟨_, rfl, y, hy, ?_⟩
    rw [hxy.rest]
    exact ⟨hstatus, hreq, hbeat, hdigest⟩

/-- The drain of a stop with one cause ends in its handler: the context has taken its trap. -/
theorem execDrainEnd_handler {c : Cause} {co : Core} (hhold : hold = false) (htaking : t'.taking = [c]) (hcalm : t'.fatal c = false)
    (hco : t'.cores[c.core]? = some co) (hcl : c.cl < 4) :
    ∃ u fall, exec (.drainEnd sid) s = .next u ∧ ∃ y, u.strand? sid = some y ∧ y.status = .handler ∧ y.taking = [] ∧ y.beat = t'.beat ∧
      y.clusterAt c.core c.cl = { takeTrap co (co.cluster c.cl) c t'.beat fall with
        horizon := (y.clusterAt c.core c.cl).horizon, rdv := (y.clusterAt c.core c.cl).rdv } := by
  subst hhold
  obtain rfl := State.strand_sid ht
  have hsid' : t'.sid = t.sid := State.strand_sid ht'
  set cyc := (s.stack t.stack).cyc
  set e := (s.drainStrand t).2
  set u := (s.drained t cyc).modStrand t.sid fun _ => t' with hu
  have hfound : u.strand? t.sid = some t' := State.strand_modStrand_const ht' hsid'
  refine ⟨_, u.fallAddr t' co (co.cluster c.cl), (execDrainEnd_eq ht hdrain hcyc hdone ht').trans ?_, _,
    State.strand_modStrand_found (f := Strand.inHandler) (fun _ => rfl) (State.strand_modStrand_found
      (f := fun y => y.modCl c.core c.cl (c.trapped y.beat (u.fallAddr t' co (co.cluster c.cl)) e co)) (fun _ => rfl) hfound),
    rfl, rfl, rfl, ?_⟩
  · simp only [Bool.false_eq_true, if_false, htaking, List.isEmpty_cons]
    rw [← hu, State.takeCauses_single htaking hcalm (hsid' ▸ hfound) hco, hsid']
  · rw [Strand.clusterAt_inHandler, Strand.clusterAt_modCl _ hco hcl]
    rfl

end

/-- Settles O44: stops and holds begin the drain that `beginDrain_spec` describes; the ends of a drain by their two lemmas. -/
theorem strandsStopAndDrain : Obligations.StrandsStopAndDrain := by
  unfold Obligations.StrandsStopAndDrain
  refine ⟨fun s sid t ht => ?_, chooseCauses_spec⟩
  have hsid := State.strand_sid ht
  subst hsid
  refine ⟨fun c => execStrandStop_fatal ht, execStrandStop_idle ht, fun hdue hcalm htaking => ?_, fun hdue => ?_,
    fun hold t' hdrain hcyc hdone ht' => ⟨execDrainEnd_hold ht hdrain hcyc hdone ht', fun c co => execDrainEnd_handler ht hdrain hcyc hdone ht'⟩⟩
  · obtain ⟨x, late, hx, hdrain, hlate⟩ := s.beginDrain_spec t.choose false
    exact ⟨x, late, hx, (execStrandStop_drains ht hdue hcalm htaking).trans (congrArg _ hdrain), hlate⟩
  · obtain ⟨x, late, hx, hdrain, hlate⟩ := s.beginDrain_spec t true
    exact ⟨x, late, hx, (execPreemptionHold_drains ht hdue).trans (congrArg _ hdrain), hlate⟩

end Sys2Proof.Machine
end

section
/-! What the places read after a write, and what an access that is made and an entry that has performed leave (R224, R257, R258,
R261, R297). -/

namespace Sys2Proof.Machine

/-! ## The last value that cells give a key -/

/-- The value that the last of the cells of a key bears. -/
def lastByte (cells : List (Nat × Byte)) (x : Nat) : Option Byte := ((cells.filter fun c => c.1 == x).getLast?).map (·.2)

theorem Flight.byte?_eq (f : Flight) (x : Nat) : f.byte? x = lastByte f.cells x := rfl

@[simp] theorem lastByte_nil (x : Nat) : lastByte [] x = none := rfl

theorem lastByte_eq_none_iff {cells : List (Nat × Byte)} {x : Nat} : lastByte cells x = none ↔ ∀ c ∈ cells, c.1 ≠ x := by
  simp [lastByte]

theorem lastByte_append (as bs : List (Nat × Byte)) (x : Nat) : lastByte (as ++ bs) x = (lastByte bs x).or (lastByte as x) := by
  rw [lastByte, List.filter_append, List.getLast?_append, Option.map_or]
  rfl

theorem lastByte_singleton (c : Nat × Byte) (x : Nat) : lastByte [c] x = if c.1 = x then some c.2 else none := by
  by_cases hx : c.1 = x <;> simp [lastByte, hx]

theorem lastByte_cons (c : Nat × Byte) (cs : List (Nat × Byte)) (x : Nat) :
    lastByte (c :: cs) x = (lastByte cs x).or (if c.1 = x then some c.2 else none) := by
  rw [← List.singleton_append, lastByte_append, lastByte_singleton]

/-- With each key in one cell, that cell gives it its value. -/
theorem lastByte_of_nodup {cells : List (Nat × Byte)} (hnd : (cells.map (·.1)).Nodup) {c : Nat × Byte} (hc : c ∈ cells) :
    lastByte cells c.1 = some c.2 := by
  induction cells with
  | nil => exact absurd hc List.not_mem_nil
  | cons b cells ih =>
    obtain ⟨hb, hnd⟩ := List.nodup_cons.1 hnd
    rw [lastByte_cons]
    rcases List.mem_cons.1 hc with rfl | hc
    · rw [lastByte_eq_none_iff.2 fun d hd hdc => hb (List.mem_map.2 ⟨d, hd, hdc⟩), if_pos rfl, Option.none_or]
    · rw [ih hnd hc, Option.some_or]

theorem lastByte_cellsAt (b x : Nat) (bs : List Byte) :
    lastByte (cellsAt b bs) x = if b ≤ x ∧ x < b + bs.length then some (bs.getD (x - b) 0) else none := by
  induction bs generalizing b with
  | nil => exact (if_neg (by simp)).symm
  | cons v bs ih =>
    rw [cellsAt, lastByte_cons, ih, List.length_cons]
    rcases Nat.lt_trichotomy x b with hlt | rfl | hgt
    · rw [if_neg (by omega), if_neg (by omega), if_neg (by omega), Option.none_or]
    · rw [if_neg (by omega), if_pos rfl, if_pos (by omega), Option.none_or, Nat.sub_self, List.getD_cons_zero]
    · rw [if_neg (show ¬ b = x by omega), Option.or_none, show x - b = x - (b + 1) + 1 by omega, List.getD_cons_succ]
      exact if_congr (by omega) rfl rfl

theorem lastByte_filter (keep : Nat → Bool) (cells : List (Nat × Byte)) (x : Nat) :
    lastByte (cells.filter fun c => keep c.1) x = if keep x = true then lastByte cells x else none := by
  rw [lastByte, List.filter_filter]
  cases hx : keep x
  · rw [List.filter_eq_nil_iff.2]
    · simp
    · rintro c - hc
      obtain ⟨hcx, hkeep⟩ := Bool.and_eq_true _ _ ▸ hc
      rw [beq_iff_eq.1 hcx, hx] at hkeep
      exact Bool.false_ne_true hkeep
  · rw [if_pos rfl, lastByte]
    congr 2
    refine List.filter_congr fun c _ => ?_
    by_cases hcx : c.1 = x <;> simp [hcx, hx]

/-- After cells are written in turn, a key holds the last value they give it, if they give it one. -/
theorem Sparse.get_setAll (cells : List (Nat × Byte)) (m : Sparse 8) (x : Nat) :
    Sparse.get (Sparse.setAll m cells) x = (lastByte cells x).getD (Sparse.get m x) := by
  induction cells generalizing m with
  | nil => rfl
  | cons c cs ih =>
    rw [Sparse.setAll, List.foldl_cons, ← Sparse.setAll, ih, lastByte_cons, Sparse.get_set]
    by_cases hx : x = c.1
    · subst hx
      cases lastByte cs c.1 <;> simp
    · rw [if_neg hx, if_neg (Ne.symm hx), Option.or_none]

/-! ## A write, as places read it (R257, R258, R261) -/

theorem Flight.reach_le_five (f : Flight) (p : Place) : f.reach p ≤ 5 := by
  unfold Flight.reach
  split_ifs <;> omega

theorem QView.sees_device {q : QView} {l : Nat} (h : 5 ≤ l) (p : Place) : q.sees l p := (Flight.reach_le_five _ p).trans h

/-- The newest write in flight is read where it is seen. -/
theorem flightByte_append_one (p : Place) (x : Nat) (y : Byte) (fs : List Flight) (f : Flight) :
    flightByte p x y (fs ++ [f]) = if f.seenBy p then (f.byte? x).getD (flightByte p x y fs) else flightByte p x y fs := by
  induction fs generalizing y with
  | nil => rfl
  | cons g fs ih => exact ih _

theorem QView.settled_iff {q : QView} {s : State} {b n l : Nat} :
    q.settled s b n l = true ↔ ∀ f ∈ s.flight, (∃ c ∈ f.cells, b ≤ c.1 ∧ c.1 < b + n) → f.pends q.place l = false := by
  simp only [QView.settled, Bool.not_eq_true', List.any_eq_false, Bool.and_eq_true, List.any_eq_true, decide_eq_true_iff, not_and,
    Bool.not_eq_true]

/-- At device scope a byte with no write still to perform there is covered by none. -/
theorem QView.not_covered {q : QView} {s : State} {x l : Nat} (hl : 5 ≤ l)
    (h : ∀ f ∈ s.flight, (∃ c ∈ f.cells, c.1 = x) → f.pends q.place l = false) (p : Place) : ¬ s.covered p x := by
  rintro ⟨f, hf, -, hc⟩
  have hpends : f.pends q.place l = true := by simp [Flight.pends, hl, (f.reach_le_five q.place).trans hl]
  exact Bool.false_ne_true ((h f hf hc).symm.trans hpends)

/-- A write of a context's agent in flight, performed at a scope. -/
def QView.flying (q : QView) (id : Nat) (cells : List (Nat × Byte)) (bad : List Nat) (l : Nat) : Flight :=
  { id, stack := q.st.stack, core := q.co.phys, sid := q.st.sid, cl := q.ref.cl, cells, bad, level := l }

theorem QView.seenBy_flying (q : QView) (id : Nat) (cells : List (Nat × Byte)) (bad : List Nat) (l : Nat) (p : Place) :
    (q.flying id cells bad l).seenBy p = true ↔ q.sees l p := decide_eq_true_iff

section
variable (q : QView) (s : State) (cells : List (Nat × Byte)) (bad : List Nat) (l : Nat)

theorem QView.write_device (h : 5 ≤ l) : ∃ ps, (q.write s cells bad l).2 = { s.busWrite cells with poison := ps } := by
  rw [QView.write, if_pos h]
  exact ⟨_, rfl⟩

theorem QView.write_below (h : l < 5) : (q.write s cells bad l).2 =
    { s with flight := s.flight ++ [q.flying s.nextNum cells bad l], nextNum := s.nextNum + 1 } := by
  rw [QView.write, if_neg (Nat.not_le.2 h)]
  rfl

theorem QView.write_strands : (q.write s cells bad l).2.strands = s.strands := by
  unfold QView.write
  split <;> rfl

/-- A write is read in the bytes it gives, where its scope reaches and no write is still to perform before it; it changes no other. -/
theorem QView.write_busByte (p : Place) (x : Nat) :
    (lastByte cells x = none ∨ ¬ q.sees l p → (q.write s cells bad l).2.busByte p x = s.busByte p x) ∧
    (∀ v, lastByte cells x = some v → q.sees l p → s.drops x = false →
      (∀ f ∈ s.flight, (∃ c ∈ f.cells, c.1 = x) → f.pends q.place l = false) → (q.write s cells bad l).2.busByte p x = v) := by
  rcases Nat.lt_or_ge l 5 with hl | hl
  · have hread : (q.write s cells bad l).2.busByte p x =
        if (q.flying s.nextNum cells bad l).seenBy p then (lastByte cells x).getD (s.busByte p x) else s.busByte p x := by
      rw [QView.write_below _ _ _ _ _ hl]
      exact flightByte_append_one ..
    rw [hread]
    refine ⟨fun h => ?_, fun v hv hsees _ _ => ?_⟩
    · rcases h with h | h
      · rw [h, Option.getD_none, ite_self]
      · exact if_neg (mt (q.seenBy_flying ..).1 h)
    · rw [hv, Option.getD_some]
      exact if_pos ((q.seenBy_flying ..).2 hsees)
  · obtain ⟨ps, hwrite⟩ := q.write_device s cells bad l hl
    have hmem : Sparse.get (s.busWrite cells).mem x =
        (if s.drops x = false then lastByte cells x else none).getD (Sparse.get s.mem x) := by
      rw [State.busWrite_mem, Sparse.get_setAll, lastByte_filter fun a => !s.drops a]
      simp only [Bool.not_eq_true']
    rw [hwrite]
    change (_ → (s.busWrite cells).busByte p x = _) ∧ ∀ v, _ → _ → _ → _ → (s.busWrite cells).busByte p x = v
    refine ⟨fun h => State.busByte_congr p (State.busWrite_flight _ _) ?_, fun v hv _ hdrop hpends => ?_⟩
    · rw [hmem, h.resolve_right (not_not.2 (q.sees_device hl p)), ite_self, Option.getD_none]
    · have hcov : ¬ (s.busWrite cells).covered p x := q.not_covered (s := s) hl hpends p
      rw [State.busByte_of_not_covered hcov, hmem, if_pos hdrop, hv, Option.getD_some]

end

/-- A number written from an address on: its bytes, low byte first, at the places that its scope reaches. -/
theorem QView.write_writes {q : QView} {s : State} {b n v l : Nat} (hsettled : q.settled s b n l = true)
    (hdrops : ∀ i < n, s.drops (b + i) = false) :
    s.Writes (q.write s (busCells b n v) [] l).2 b n (fun i => BitVec.ofNat 8 (v / 2 ^ (8 * i))) (q.sees l) := by
  have hlast (x : Nat) : lastByte (busCells b n v) x = if b ≤ x ∧ x < b + n then some ((bytesOf n v).getD (x - b) 0) else none := by
    rw [busCells, lastByte_cellsAt, length_bytesOf]
  intro p x
  obtain ⟨hsame, hnew⟩ := q.write_busByte s (busCells b n v) [] l p x
  refine ⟨fun hb hx hsees => hnew _ ?_ hsees ?_ fun f hf hc => ?_, fun h => hsame ?_⟩
  · rw [hlast, if_pos ⟨hb, hx⟩, getD_bytesOf _ (by omega)]
  · rw [← hdrops (x - b) (by omega), Nat.add_sub_cancel' hb]
  · obtain ⟨c, hc, rfl⟩ := hc
    exact QView.settled_iff.1 hsettled f hf ⟨c, hc, hb, hx⟩
  · rcases h with h | h | h
    · exact .inl (by rw [hlast, if_neg (by omega)])
    · exact .inl (by rw [hlast, if_neg (by omega)])
    · exact .inr h

/-- A write of no bytes is read nowhere. -/
theorem QView.write_nothing (q : QView) (s : State) (bad : List Nat) (l : Nat) : s.SameMemory (q.write s [] bad l).2 := fun p x =>
  (q.write_busByte s [] bad l p x).1 (.inl rfl)

/-! ## Accesses that are made (R147, R302, R313) -/

/-- One state is another but for what an access leaves: memory, what is in flight in it and the strands are the same, and so is what drops a
write. -/
structure State.Touched (s t : State) : Prop where
  mem : t.mem = s.mem
  flight : t.flight = s.flight
  strands : t.strands = s.strands
  contexts : t.contexts = s.contexts
  drops : ∀ x, t.drops x = s.drops x

namespace State.Touched

variable {s t u : State}

theorem refl (s : State) : s.Touched s := ⟨rfl, rfl, rfl, rfl, fun _ => rfl⟩

theorem trans (h : s.Touched t) (h' : t.Touched u) : s.Touched u :=
  ⟨h'.mem.trans h.mem, h'.flight.trans h.flight, h'.strands.trans h.strands, h'.contexts.trans h.contexts,
    fun x => (h'.drops x).trans (h.drops x)⟩

theorem busByte (h : s.Touched t) (p : Place) (x : Nat) : t.busByte p x = s.busByte p x := by
  rw [State.busByte, State.busByte, h.mem, h.flight]

theorem settled (h : s.Touched t) (q : QView) (b n l : Nat) : q.settled t b n l = q.settled s b n l := by
  rw [QView.settled, QView.settled, h.flight]

theorem writes (h : s.Touched t) {b n : Nat} {f : Nat → Byte} {sees : Place → Prop} (hw : t.Writes u b n f sees) : s.Writes u b n f sees :=
  fun p x => ⟨(hw p x).1, fun hx => ((hw p x).2 hx).trans (h.busByte p x)⟩

theorem sameMemory (h : s.Touched t) : s.SameMemory t := h.busByte

/-- A change of a stack that leaves its power alone. -/
theorem modStack (s : State) (k : Nat) {f : Stack → Stack} (hf : (f (s.stack k)).up = (s.stack k).up) : s.Touched (s.modStack k f) where
  mem := rfl
  flight := rfl
  strands := rfl
  contexts := rfl
  drops x := by
    have hup (j : Nat) : ((s.modStack k f).stack j).up = (s.stack j).up := by
      by_cases hj : k = j
      · subst hj
        by_cases hk : k < 4
        · rw [State.stack_modStack s f hk, hf]
        · simp [State.stack, vget, hk]
      · rw [State.stack_modStack_ne s f hj]
    simp only [State.drops, State.dropped, State.silent, State.hostAbsent, hup]
    rfl

theorem send (s : State) (src dev : Nat) : s.Touched (s.send src dev) := by
  unfold State.send
  split
  · exact ⟨rfl, rfl, rfl, rfl, fun _ => rfl⟩
  · exact refl s

theorem noteUse (s : State) (task : Nat) (us : List HwUnit) : s.Touched (s.noteUse task us) := ⟨rfl, rfl, rfl, rfl, fun _ => rfl⟩

theorem tlbFill (s : State) (k c ctx : Nat) (p : Page) : s.Touched (s.tlbFill k c ctx p) := by
  unfold State.tlbFill
  exact modStack s k rfl

theorem touch (s : State) (st : Strand) (c : Nat) (a : W64) (w : Bool) : s.Touched (s.touch st c a w) := by
  refine (noteUse s st.task (s.unitsOf st c a w)).trans ?_
  simp only [State.touch]
  split
  · split
    · exact refl _
    · exact send ..
  · split
    · exact refl _
    · split
      · exact tlbFill ..
      · exact refl _

theorem touchAll (st : Strand) (c : Nat) (w : Bool) (as : List W64) (s : State) : s.Touched (s.touchAll st c w as) := by
  induction as generalizing s with
  | nil => exact refl s
  | cons a as ih => exact (touch s st c a w).trans (ih _)

theorem spend (s : State) : s.Touched s.spend := ⟨rfl, rfl, rfl, rfl, fun _ => rfl⟩

theorem spendN (s : State) (n : Nat) : s.Touched (s.spendN n) := ⟨rfl, rfl, rfl, rfl, fun _ => rfl⟩

end State.Touched

/-! ## The context of an elastic event -/

theorem State.qview_eq {s : State} {r : CRef} {q : QView} (h : s.qview r = some q) :
    s.strand? r.strand = some q.st ∧ q.st.cores[r.core]? = some q.co ∧ q.cl = q.co.cluster r.cl ∧ q.ref = r := by
  unfold State.qview at h
  split at h
  · cases h
  · next st hst =>
    split at h
    · cases h
    · next co hco =>
      obtain rfl := Option.some.inj h
      exact ⟨hst, hco, rfl, rfl⟩

theorem State.qview_of {s : State} {r : CRef} {st : Strand} {co : Core} (hst : s.strand? r.strand = some st) (hco : st.cores[r.core]? = some co) :
    s.qview r = some { ref := r, st, co, cl := co.cluster r.cl } := by
  simp only [State.qview, hst, hco]

theorem QView.mem_of_pick {s : State} {q : QView} {n : QName} {ok : Entry → Bool} {e : Entry} (h : q.pick s n ok = some e) :
    e ∈ (q.cl.queue n).entries :=
  List.mem_of_find?_eq_some h

/-- A context that has an entry is one of its core's four. -/
theorem State.picks_cl {s : State} {r : CRef} {n : QName} {ok : Entry → Bool} {q : QView} {e : Entry} (h : s.picks r n ok q e) : r.cl < 4 := by
  obtain ⟨hq, hpick⟩ := h
  obtain ⟨-, -, hcl, -⟩ := State.qview_eq hq
  by_contra hlt
  have hzero : q.cl = Cluster.zero := by rw [hcl, Core.cluster, vget, dif_neg hlt]
  have hmem := QView.mem_of_pick hpick
  rw [hzero] at hmem
  cases n <;> exact absurd hmem List.not_mem_nil

/-- An elastic event runs on the entry that it takes. -/
theorem onEntry_of_picks {s : State} {r : CRef} {n : QName} {ok : Entry → Bool} {q : QView} {e : Entry} (h : s.picks r n ok q e)
    (f : QView → Entry → State) : onEntry r n ok s f = .next (f q e) := by
  obtain ⟨hq, hpick⟩ := h
  simp only [onEntry, hq, hpick]

/-- A context after a change of its cluster, in a state whose strand has its cores. -/
theorem QView.qview_mod {s t : State} {r : CRef} {q : QView} {st : Strand} (hq : s.qview r = some q) (hcl : r.cl < 4)
    (ht : t.strand? r.strand = some st) (hcores : st.cores = q.st.cores) (f : Cluster → Cluster) :
    (q.mod t f).qview r = some { ref := r, st := st.modCl r.core r.cl f, co := q.co.modCl r.cl f, cl := f q.cl } := by
  obtain ⟨-, hco, hqcl, hr⟩ := State.qview_eq hq
  have hst : (q.mod t f).strand? r.strand = some (st.modCl r.core r.cl f) := by
    rw [QView.mod, hr]
    exact State.strand_modStrand_found (fun _ => rfl) ht
  rw [State.qview_of hst (Strand.cores_modCore (fun c => c.modCl r.cl f) (hcores ▸ hco)), Core.cluster_modCl _ _ hcl, hqcl]

/-! ## An entry that has performed (R225, R230, R297) -/

/-- What an entry that performs at a level leaves of its context's queues. -/
def Entry.stepped (e : Entry) (l : Nat) (c : Cluster) : Cluster :=
  if e.op.final ≤ l && e.op.dest.isNone then (c.modQueue .sq fun es => es.filter fun x => x.seq != e.seq).heads e true
  else (c.modQueue .sq fun es => es.map fun x => if x.seq == e.seq then { e with level := l, ready := 0 } else x).heads e (l != 0)

/-- What it leaves of its strand's digest. -/
def Entry.foldedAt (e : Entry) (l : Nat) (t : Strand) : Strand := if e.op.final ≤ l then Entry.folds { e with level := l, ready := 0 } t else t

theorem Strand.fold_rest (t : Strand) (a : W64) (n : Nat) (v : W64) : t.fold a n v = { t with digest := (t.fold a n v).digest } := by
  unfold Strand.fold
  generalize foldOf a n v = w
  rfl

theorem Entry.folds_rest (e : Entry) (t : Strand) : e.folds t = { t with digest := (e.folds t).digest } := by
  have hfold (ws : List (Nat × W64)) (d : W64) : ∀ t : Strand,
      ws.foldl (fun t w => t.fold (d + BitVec.ofNat 64 (8 * w.1)) 8 w.2) t =
        { t with digest := (ws.foldl (fun t w => t.fold (d + BitVec.ofNat 64 (8 * w.1)) 8 w.2) t).digest } := by
    induction ws with
    | nil => exact fun _ => rfl
    | cons w ws ih =>
      intro t
      rw [List.foldl_cons, ih, Strand.fold_rest]
  unfold Entry.folds
  split
  · exact Strand.fold_rest ..
  · exact hfold _ _ t
  · exact Strand.fold_rest ..
  · exact Strand.fold_rest ..
  · split
    · rfl
    · exact Strand.fold_rest ..
  · rfl

theorem Entry.foldedAt_rest (e : Entry) (l : Nat) (t : Strand) : e.foldedAt l t = { t with digest := (e.foldedAt l t).digest } := by
  unfold Entry.foldedAt
  split
  · exact Entry.folds_rest _ t
  · rfl

theorem State.modStrand_id (s : State) (n : Nat) : s.modStrand n (fun t => t) = s := by
  simp [State.modStrand]

theorem QView.performed_eq (q : QView) (s : State) (e : Entry) (l : Nat) :
    q.performed s e l = q.mod (s.modStrand q.ref.strand (e.foldedAt l)) (e.stepped l) := by
  have hfold : (if e.op.final ≤ l then s.modStrand q.ref.strand (Entry.folds { e with level := l, ready := 0 }) else s) =
      s.modStrand q.ref.strand (e.foldedAt l) := by
    by_cases hl : e.op.final ≤ l
    · rw [if_pos hl]
      congr 1
      funext t
      exact (if_pos hl).symm
    · rw [if_neg hl, show e.foldedAt l = fun t => t from funext fun t => if_neg hl, State.modStrand_id]
  simp only [QView.performed, hfold]
  unfold Entry.stepped
  by_cases hdone : (decide (e.op.final ≤ l) && e.op.dest.isNone) = true
  · simp only [hdone, if_true]
    rfl
  · simp only [hdone]
    rfl

/-- An entry that has performed changes nothing beside its strand. -/
theorem QView.performed_rest (q : QView) (s : State) (e : Entry) (l : Nat) :
    q.performed s e l = { s with strands := (q.performed s e l).strands } := by
  rw [QView.performed_eq]
  rfl

theorem QView.performed_busByte (q : QView) (s : State) (e : Entry) (l : Nat) (p : Place) (x : Nat) :
    (q.performed s e l).busByte p x = s.busByte p x := by
  rw [QView.performed_rest]
  rfl

/-- The context of an entry that has performed, in a state that has its strands. -/
theorem QView.qview_performed {s t : State} {r : CRef} {q : QView} (hq : s.qview r = some q) (hcl : r.cl < 4) (ht : t.strands = s.strands)
    (e : Entry) (l : Nat) : (q.performed t e l).qview r =
      some { ref := r, st := (e.foldedAt l q.st).modCl r.core r.cl (e.stepped l), co := q.co.modCl r.cl (e.stepped l), cl := e.stepped l q.cl } := by
  obtain ⟨hst, -, -, hr⟩ := State.qview_eq hq
  have hst' : t.strand? r.strand = some q.st := by rw [State.strand?, ht]; exact hst
  rw [QView.performed_eq]
  refine QView.qview_mod hq hcl ?_ (by rw [Entry.foldedAt_rest]) _
  rw [hr]
  exact State.strand_modStrand_found (fun x => by rw [Entry.foldedAt_rest]) hst'

/-! ## The store queue after a step -/

theorem Cluster.heads_sq (c : Cluster) (e : Entry) (begins : Bool) :
    (c.heads e begins).sq.entries = if begins then c.sq.entries.map e.head else c.sq.entries := by
  cases begins <;> rfl

/-- An entry that has performed for the last time and lands no data leaves its queue. -/
theorem Entry.stepped_sq_last {e : Entry} {l : Nat} (hlast : e.op.final ≤ l) (hdest : e.op.dest = none) (c : Cluster) :
    (e.stepped l c).sq.entries = (c.sq.entries.filter fun x => x.seq != e.seq).map e.head := by
  rw [Entry.stepped, hdest, if_pos (by simp [hlast]), Cluster.heads_sq]
  rfl

/-- Any other that has performed stands in its queue at its level. -/
theorem Entry.stepped_sq_stays {e : Entry} {l : Nat} (h : l < e.op.final ∨ e.op.dest.isSome = true) (c : Cluster) :
    (e.stepped l c).sq.entries =
      (c.sq.entries.map fun x => if x.seq = e.seq then { e with level := l, ready := 0 } else x).map (if l = 0 then id else e.head) := by
  have hstays : ¬ (decide (e.op.final ≤ l) && e.op.dest.isNone) = true := by
    rw [Bool.and_eq_true, decide_eq_true_iff, Option.isNone_iff_eq_none]
    rintro ⟨hlast, hnone⟩
    rcases h with h | h
    · omega
    · simp [hnone] at h
  rw [Entry.stepped, if_neg hstays, Cluster.heads_sq]
  by_cases hl : l = 0 <;> simp [Cluster.modQueue, hl]

theorem Entry.head_seq (e x : Entry) : (e.head x).seq = x.seq := by
  rw [(e.head_spec x).1]

theorem Entry.head_value (e x : Entry) : (e.head x).value = x.value := by
  rw [(e.head_spec x).1]

/-- The entry that a step leaves in its queue holds the value it performed with. -/
theorem Entry.value_of_stepped {e x : Entry} {l : Nat} (hdest : e.op.dest.isSome = true) {c : Cluster}
    (hx : x ∈ (e.stepped l c).sq.entries) (hseq : x.seq = e.seq) : x.value = e.value := by
  rw [Entry.stepped_sq_stays (.inr hdest), List.map_map, List.mem_map] at hx
  obtain ⟨y, -, rfl⟩ := hx
  have hkeeps (z : Entry) : ((if l = 0 then id else e.head) z).seq = z.seq ∧ ((if l = 0 then id else e.head) z).value = z.value := by
    split
    · exact ⟨rfl, rfl⟩
    · exact ⟨e.head_seq z, e.head_value z⟩
  rw [Function.comp_apply] at hseq ⊢
  rw [(hkeeps _).1] at hseq
  rw [(hkeeps _).2]
  split
  · rfl
  · next hne =>
    rw [if_neg hne] at hseq
    exact absurd hseq hne

end Sys2Proof.Machine
end

section
/-! Atomics and barrier arrivals as they perform (R230 to R232). -/

namespace Sys2Proof.Machine

/-! ## The number in some bytes (R1) -/

theorem natOfBytes_map_range (f : Nat → Byte) (n : Nat) :
    natOfBytes ((List.range n).map f) = ((List.range n).map fun i => (f i).toNat * 2 ^ (8 * i)).sum := by
  induction n generalizing f with
  | zero => rfl
  | succ n ih =>
    have hshift : ((List.range n).map fun i => (f (i + 1)).toNat * 2 ^ (8 * (i + 1))) =
        (List.range n).map fun i => 256 * ((f (i + 1)).toNat * 2 ^ (8 * i)) := by
      refine List.map_congr_left fun i _ => ?_
      rw [Nat.mul_add, Nat.pow_add]
      ring
    simp only [List.range_succ_eq_map, List.map_cons, List.map_map, natOfBytes, List.sum_cons, Function.comp_def, Nat.succ_eq_add_one]
    rw [hshift, List.sum_map_mul_left, ih fun i => f (i + 1), Nat.mul_zero, Nat.pow_zero, Nat.mul_one]

theorem natOfBytes_busBytes (s : State) (p : Place) (b n : Nat) :
    natOfBytes (s.busBytes p b n) = ((List.range n).map fun i => (s.busByte p (b + i)).toNat * 2 ^ (8 * i)).sum :=
  natOfBytes_map_range _ n

/-! ## A read-modify-write at its scope (R230) -/

section
variable {s : State} {r : CRef} {q : QView} {e : Entry} {a : W64} {b n : Nat} (hq : s.qview r = some q) (hcl : r.cl < 4)
  (htarget : s.elTarget q.st q.co.phys a true = .ok (.bus b)) (hdoor : isDoorbell b = false)
  (hclean : s.poisonedRange q.place b n = false) (hsettled : q.settled s b n e.next = true)

include htarget hdoor hclean hsettled in
/-- Where its target answers unharmed and no write there is still to perform, it writes what its function gives for the old value. -/
theorem QView.modify_eq (f : W64 → W64 × Option W64) : q.modify s e a n f =
    (let z := f (BitVec.ofNat 64 (natOfBytes (s.busBytes q.place b n)))
    let w := q.write (s.touch q.st q.co.phys a true).spend (z.2.elim [] fun v => busCells b n v.toNat) [] e.next
    q.performed w.2 { e with fid := w.1, value := some z.1 } e.next) := by
  simp only [QView.modify, htarget, State.targetBad, hclean, State.targetRead, hdoor, hsettled, Bool.not_true, Bool.false_eq_true, if_false]
  cases (f (BitVec.ofNat 64 (natOfBytes (s.busBytes q.place b n)))).2 <;> rfl

include hq hcl htarget hdoor hclean hsettled in
/-- It keeps the value for its register, and writes the new one where there is one, which its scope then reads. -/
theorem QView.modify_spec (hdest : e.op.dest.isSome = true) (hdrops : ∀ i < n, s.drops (b + i) = false) {f : W64 → W64 × Option W64}
    {z : W64} {new : Option W64} (hf : f (BitVec.ofNat 64 (natOfBytes (s.busBytes q.place b n))) = (z, new)) :
    (∀ q', (q.modify s e a n f).qview r = some q' → ∀ e' ∈ q'.cl.sq.entries, e'.seq = e.seq → e'.value = some z) ∧
    (∀ v, new = some v → s.Writes (q.modify s e a n f) b n (fun i => v.extractLsb' (8 * i) 8) (q.sees e.next)) ∧
    (new = none → s.SameMemory (q.modify s e a n f)) := by
  rw [QView.modify_eq htarget hdoor hclean hsettled, hf]
  set s1 := (s.touch q.st q.co.phys a true).spend
  have htouched : s.Touched s1 := (State.Touched.touch ..).trans (.spend _)
  refine ⟨fun q' hq' e' he' hseq => ?_, fun v hv => ?_, fun hnone p x => ?_⟩
  · rw [QView.qview_performed hq hcl ((QView.write_strands ..).trans htouched.strands)] at hq'
    obtain rfl := Option.some.inj hq'
    refine Entry.value_of_stepped ?_ he' hseq
    exact hdest
  · subst hv
    have hw := QView.write_writes (q := q) (s := s1) (b := b) (n := n) (v := v.toNat) (l := e.next)
      ((htouched.settled ..).trans hsettled) fun i hi => (htouched.drops _).trans (hdrops i hi)
    refine fun p x => ⟨fun hb hx hsees => ?_, fun h => ?_⟩
    · rw [QView.performed_busByte, Option.elim_some, (hw p x).1 hb hx hsees]
      exact (extractLsb'_eq_byte v _).symm
    · rw [QView.performed_busByte]
      exact (htouched.writes hw p x).2 h
  · subst hnone
    rw [QView.performed_busByte, Option.elim_none, QView.write_nothing, htouched.busByte]

end

/-! ## What an atomic leaves (R230) -/

/-- The value that an operation leaves of an old one, where it leaves one (R230). -/
def AtomicOp.leaves (op : AtomicOp) (old z cmp : W64) : W64 := match op with
  | .add => old + z
  | .minI => if z.toInt < old.toInt then z else old
  | .minN => if z.toNat < old.toNat then z else old
  | .maxI => if old.toInt < z.toInt then z else old
  | .maxN => if old.toNat < z.toNat then z else old
  | .and => old &&& z
  | .or => old ||| z
  | .xor => old ^^^ z
  | .xchg => z
  | .cas => if old = cmp then z else old
  | .fadd => (round32 0 (Fp.add false (fp32 (old.truncate 32)) (fp32 (z.truncate 32)))).zeroExtend 64

/-- Every operation but a compare that fails leaves a value. -/
theorem AtomicOp.result_eq_some {op : AtomicOp} {old z cmp : W64} (h : op = .cas → old = cmp) : op.result old z cmp = some (op.leaves old z cmp) := by
  cases op with
  | cas => simp [AtomicOp.result, AtomicOp.leaves, h rfl]
  | _ => rfl

theorem AtomicOp.result_eq_none {op : AtomicOp} {old z cmp : W64} (h : op = .cas) (hne : old ≠ cmp) : op.result old z cmp = none := by
  subst h
  simp [AtomicOp.result, hne]

theorem AtomicOp.size_eq (op : AtomicOp) : op.size = if op = .fadd then 4 else 8 := by
  cases op <;> rfl

/-! ## What a barrier arrival leaves (R231, R232) -/

section
variable {w : W64}

theorem fld_toNat {k : Nat} (w : BitVec k) (lo n : Nat) : fld w.toNat lo n = (w.extractLsb' lo n).toNat := by
  rw [fld, BitVec.extractLsb'_toNat, Nat.shiftRight_eq_div_pow]

theorem barGen_eq (w : W64) : BitVec.ofNat 64 (barGen w.toNat) = (w.extractLsb' 40 24).zeroExtend 64 := by
  rw [barGen, fld_toNat]
  exact BitVec.eq_of_toNat_eq (by simp)

/-- The mark of a malformed word beside a generation (R231). -/
theorem barGen_malformed (w : W64) :
    BitVec.ofNat 64 (2 ^ 63 + barGen w.toNat) = (w.extractLsb' 40 24).zeroExtend 64 ||| 0x8000000000000000 := by
  have hlt : barGen w.toNat < 2 ^ 63 := (Nat.mod_lt _ (by omega)).trans (by omega)
  have hadd := Nat.two_pow_add_eq_or_of_lt hlt 1
  rw [Nat.mul_one] at hadd
  rw [← barGen_eq, hadd, Nat.or_comm, BitVec.ofNat_or]
  rfl

/-- A barrier word of the next generation: the expected count stands, and none has arrived (R231). -/
theorem barNext_eq (g : BitVec 24) (n : BitVec 20) :
    BitVec.ofNat 64 ((g.toNat + 1) % 2 ^ 24 * 2 ^ 40 + n.toNat * 2 ^ 20) = (g + 1) ++ n ++ (0 : BitVec 20) := by
  refine BitVec.eq_of_toNat_eq ?_
  have hn := n.isLt
  have hg : (g.toNat + 1) % 2 ^ 24 < 2 ^ 24 := Nat.mod_lt _ (by omega)
  rw [BitVec.toNat_append, BitVec.toNat_append, ← Nat.shiftLeft_add_eq_or_of_lt hn, BitVec.toNat_add, BitVec.toNat_ofNat]
  simp only [Nat.shiftLeft_eq]
  simp
  omega

theorem barArrive_malformed (h : (w.extractLsb' 20 20).toNat ≤ (w.extractLsb' 0 20).toNat) :
    barArrive w = ((w.extractLsb' 40 24).zeroExtend 64 ||| 0x8000000000000000, none) := by
  simp only [barArrive, fld_toNat]
  rw [if_pos (by simp only [Bool.or_eq_true, beq_iff_eq, decide_eq_true_iff]; omega), barGen_malformed]

theorem barArrive_early (h : (w.extractLsb' 0 20).toNat + 1 < (w.extractLsb' 20 20).toNat) :
    barArrive w = ((w.extractLsb' 40 24).zeroExtend 64, some (w + 1)) := by
  simp only [barArrive, fld_toNat]
  rw [if_neg (by simp only [Bool.or_eq_true, beq_iff_eq, decide_eq_true_iff]; omega),
    if_neg (by simp only [beq_iff_eq]; omega), barGen_eq]

theorem barArrive_last (h : (w.extractLsb' 0 20).toNat + 1 = (w.extractLsb' 20 20).toNat) :
    barArrive w = ((w.extractLsb' 40 24).zeroExtend 64,
      some ((w.extractLsb' 40 24 + 1) ++ w.extractLsb' 20 20 ++ (0 : BitVec 20) : W64)) := by
  simp only [barArrive, fld_toNat]
  rw [if_neg (by simp only [Bool.or_eq_true, beq_iff_eq, decide_eq_true_iff]; omega),
    if_pos (by simpa using h), barGen_eq, barGen, fld_toNat, barNext_eq]

end

/-- Settles O41: both are `modify_spec`, by what the operation or the barrier word gives for the old value. -/
theorem atomicsAndBarriersPerform : Obligations.AtomicsAndBarriersPerform := by
  unfold Obligations.AtomicsAndBarriersPerform
  intro s r q e a b hlevel htarget hdoor word keeps
  have hold (n : Nat) : natOfBytes (s.busBytes q.place b n) = word n := natOfBytes_busBytes ..
  refine ⟨?_, ?_⟩
  · intro op z cmp sc d hpicks hop n old new hclean hsettled hdrops
    have hspec {new} := QView.modify_spec (f := fun x => (x, op.result x z cmp)) (z := old) (new := new) hpicks.1 (State.picks_cl hpicks) htarget
      hdoor hclean hsettled (by rw [hop]; rfl) hdrops
    have hrun : exec (.atomicPerform r) s = .next (q.modify s e a n fun x => (x, op.result x z cmp)) := by
      refine (onEntry_of_picks hpicks _).trans ?_
      simp only [hop, hlevel, bne_self_eq_false, Bool.false_eq_true, if_false, AtomicOp.size_eq]
      rfl
    refine ⟨_, hrun, ?_, fun hcas => ?_, fun hop' hne => ?_⟩
    · exact (hspec (new := op.result old z cmp) (by rw [hold])).1
    · exact (hspec (by rw [hold, AtomicOp.result_eq_some hcas]; rfl)).2.1 _ rfl
    · exact (hspec (by rw [hold, AtomicOp.result_eq_none hop' hne])).2.2 rfl
  · intro sc d hpicks hop hclean hsettled hdrops w arrived expected gen
    have hspec {z new} (hf : barArrive w = (z, new)) := QView.modify_spec (f := barArrive) (z := z) (new := new) hpicks.1 (State.picks_cl hpicks)
      htarget hdoor hclean hsettled (by rw [hop]; rfl) hdrops (by rw [hold]; exact hf)
    have hrun : exec (.baraPerform r) s = .next (q.modify s e a 8 barArrive) := by
      refine (onEntry_of_picks hpicks _).trans ?_
      simp only [hop, hlevel, bne_self_eq_false, Bool.false_eq_true, if_false]
    refine ⟨_, hrun, fun h => ?_, fun h => ?_, fun h => ?_⟩
    · obtain ⟨hkeeps, -, hsame⟩ := hspec (barArrive_malformed h)
      exact ⟨hkeeps, hsame rfl⟩
    · obtain ⟨hkeeps, hwrites, -⟩ := hspec (barArrive_early h)
      exact ⟨hkeeps, hwrites _ rfl⟩
    · obtain ⟨hkeeps, hwrites, -⟩ := hspec (barArrive_last h)
      exact ⟨hkeeps, hwrites _ rfl⟩

end Sys2Proof.Machine
end

section
/-! Loads, stores and markers as they perform (R224, R225, R261, R283, R297). -/

namespace Sys2Proof.Machine

/-! ## What a load lands (R225) -/

theorem natOfBytes_byte (bs : List Byte) (i : Nat) : natOfBytes bs / 2 ^ (8 * i) % 256 = (bs.getD i 0).toNat := by
  induction bs generalizing i with
  | nil => simp [natOfBytes]
  | cons b bs ih =>
    have hb := b.isLt
    cases i with
    | zero =>
      rw [natOfBytes, List.getD_cons_zero]
      simp only [Nat.mul_zero, Nat.pow_zero, Nat.div_one]
      omega
    | succ i =>
      have hpow : 2 ^ (8 * (i + 1)) = 256 * 2 ^ (8 * i) := by
        rw [Nat.mul_add, Nat.pow_add, Nat.mul_comm]
      rw [natOfBytes, List.getD_cons_succ, ← ih, hpow, ← Nat.div_div_eq_div_mul]
      congr 2
      omega

theorem getD_busBytes (s : State) (p : Place) (b : Nat) {n i : Nat} (hi : i < n) : (s.busBytes p b n).getD i 0 = s.busByte p (b + i) := by
  simp [State.busBytes, hi]

theorem length_busBytes (s : State) (p : Place) (b n : Nat) : (s.busBytes p b n).length = n := by simp [State.busBytes]

/-- Byte `i` of the number in some bytes is the byte at `i`, and nothing past them. -/
theorem extractLsb'_natOfBytes {w : Nat} (bs : List Byte) {i : Nat} (hi : 8 * i + 8 ≤ w) :
    (BitVec.ofNat w (natOfBytes bs)).extractLsb' (8 * i) 8 = bs.getD i 0 := by
  refine BitVec.eq_of_toNat_eq ?_
  have hpow : 2 ^ w = 2 ^ (8 * i) * 2 ^ (w - 8 * i) := by rw [← Nat.pow_add]; congr 1; omega
  have hdvd : 256 ∣ 2 ^ (w - 8 * i) := Nat.pow_dvd_pow 2 (show 8 ≤ w - 8 * i by omega)
  rw [BitVec.extractLsb'_toNat, BitVec.toNat_ofNat, Nat.shiftRight_eq_div_pow, hpow, Nat.mod_mul_right_div_self,
    show (2 : Nat) ^ 8 = 256 by rfl, Nat.mod_mod_of_dvd _ hdvd, natOfBytes_byte]

/-- The bytes of a sign-extended word: its own, and above them its sign's. -/
theorem extractLsb'_signExtend (x : BitVec 32) {i : Nat} (hi : i < 8) :
    (x.signExtend 64).extractLsb' (8 * i) 8 = if i < 4 then x.extractLsb' (8 * i) 8 else if x.msb = true then 0xFF else 0 := by
  refine BitVec.eq_of_getLsbD_eq fun j hj => ?_
  have h64 : 8 * i + j < 64 := by omega
  rw [BitVec.getLsbD_extractLsb', BitVec.getLsbD_signExtend]
  by_cases h4 : i < 4
  · rw [if_pos h4, if_pos (show 8 * i + j < 32 by omega), BitVec.getLsbD_extractLsb']
    simp [hj, h64]
  · rw [if_neg h4, if_neg (show ¬ 8 * i + j < 32 by omega)]
    have hones : (0xFF : BitVec 8) = BitVec.allOnes 8 := by decide
    by_cases hmsb : x.msb = true
    · rw [if_pos hmsb, hones, BitVec.getLsbD_allOnes]
      simp [hj, h64, hmsb]
    · rw [if_neg hmsb]
      simp [hj, h64, hmsb]

theorem getLsbD_signExtend_sign (x : BitVec 32) : (x.signExtend 64).getLsbD 31 = x.msb := by
  rw [BitVec.getLsbD_signExtend, BitVec.msb_eq_getLsbD_last]
  simp

/-- A load's value: the bytes it reads, and above them what extends them (R225). -/
theorem LdKind.extend_byte (k : LdKind) {bs : List Byte} (hlen : bs.length = k.size) {i : Nat} (hi : i < 8) :
    (k.extend (natOfBytes bs)).extractLsb' (8 * i) 8 =
      if i < k.size then bs.getD i 0 else if k = .ws ∧ (k.extend (natOfBytes bs)).getLsbD 31 = true then 0xFF else 0 := by
  have hpast (h : ¬ i < k.size) : bs.getD i 0 = 0 := List.getD_eq_default _ _ (by omega)
  have hunsigned (hk : k ≠ .ws) (hext : k.extend (natOfBytes bs) = BitVec.ofNat 64 (natOfBytes bs)) :
      (k.extend (natOfBytes bs)).extractLsb' (8 * i) 8 =
        if i < k.size then bs.getD i 0 else if k = .ws ∧ (k.extend (natOfBytes bs)).getLsbD 31 = true then 0xFF else 0 := by
    rw [hext, extractLsb'_natOfBytes bs (by omega)]
    split
    · rfl
    · next h => rw [hpast h, if_neg fun h => hk h.1]
  cases k with
  | d => exact hunsigned (by decide) rfl
  | w => exact hunsigned (by decide) rfl
  | b => exact hunsigned (by decide) rfl
  | ws =>
    rw [LdKind.extend, extractLsb'_signExtend _ hi, getLsbD_signExtend_sign]
    simp only [true_and]
    split
    · next h4 =>
      rw [if_pos (show i < LdKind.ws.size from h4)]
      exact extractLsb'_natOfBytes bs (by omega)
    · next h4 => exact (if_neg h4).symm

/-! ## A write in flight that settles (R257, R261) -/

theorem flightByte_append (p : Place) (x : Nat) (y : Byte) (fs gs : List Flight) :
    flightByte p x y (fs ++ gs) = flightByte p x (flightByte p x y fs) gs := by
  induction fs generalizing y with
  | nil => rfl
  | cons f fs ih => exact ih _

/-- A byte that every visible flight leaves alone or writes alike. -/
theorem flightByte_of_alike {p : Place} {x : Nat} {v : Byte} {fs : List Flight} (h : ∀ f ∈ fs, f.byte? x = none ∨ f.byte? x = some v) :
    flightByte p x v fs = v := by
  induction fs with
  | nil => rfl
  | cons f fs ih =>
    obtain ⟨hf, hfs⟩ := List.forall_mem_cons.1 h
    have hbyte : (if f.seenBy p then (f.byte? x).getD v else v) = v := by
      rcases hf with hf | hf <;> simp [hf]
    rw [flightByte, hbyte, ih hfs]

/-- A change of flights that a byte does not show. -/
theorem flightByte_map {p : Place} {x : Nat} {φ : Flight → Flight} {fs : List Flight}
    (h : ∀ f ∈ fs, (φ f).seenBy p = f.seenBy p ∧ (φ f).byte? x = f.byte? x) (y : Byte) :
    flightByte p x y (fs.map φ) = flightByte p x y fs := by
  induction fs generalizing y with
  | nil => rfl
  | cons f fs ih =>
    obtain ⟨⟨hseen, hbyte⟩, hfs⟩ := List.forall_mem_cons.1 h
    rw [List.map_cons, flightByte, hseen, hbyte, ih hfs, flightByte]

theorem byte?_dropCells (cells : List (Nat × Byte)) (f : Flight) (x : Nat) :
    (dropCells cells f).byte? x = if (∀ c ∈ cells, c.1 ≠ x) then f.byte? x else none := by
  rw [Flight.byte?_eq, dropCells, (f.without_cells _).1, lastByte_filter fun a => !cells.any fun d => d.1 == a]
  refine if_congr ?_ rfl rfl
  simp

theorem seenBy_dropCells (cells : List (Nat × Byte)) (f : Flight) (p : Place) : (dropCells cells f).seenBy p = f.seenBy p :=
  (f.without_cells _).2 p

section
variable {s : State} {f : Flight} (hf : f ∈ s.flight) (hone : ∀ g ∈ s.flight, g.id = f.id → g = f)
include hf hone

theorem find?_flight : (s.flight.find? fun g => g.id == f.id) = some f := by
  cases hfind : s.flight.find? fun g => g.id == f.id with
  | none => exact absurd (List.find?_eq_none.1 hfind f hf) (by simp)
  | some g => rw [hone g (List.mem_of_find?_eq_some hfind) (by simpa using List.find?_some hfind)]

/-- The flights ahead of one and those behind it. -/
theorem flight_split : s.flight =
    (s.flight.takeWhile fun g => g.id != f.id) ++ f :: ((s.flight.dropWhile fun g => g.id != f.id).drop 1) := by
  have hsplit := List.takeWhile_append_dropWhile (p := fun g : Flight => g.id != f.id) (l := s.flight)
  cases hdrop : s.flight.dropWhile fun g => g.id != f.id with
  | nil => exact absurd (List.dropWhile_eq_nil_iff.1 hdrop f hf) (by simp)
  | cons g gs =>
    have hg : (fun g : Flight => g.id != f.id) g = false := by
      have := List.head_dropWhile_not (fun g : Flight => g.id != f.id) (l := s.flight) (by rw [hdrop]; exact List.cons_ne_nil _ _)
      simpa [hdrop] using this
    have hmem : g ∈ s.flight := by
      rw [← hsplit, hdrop]
      simp
    rw [hone g hmem (by simpa using hg)] at hdrop
    rw [List.drop_one, List.tail_cons, ← hdrop, hsplit]

variable (hdrops : ∀ c ∈ f.cells, s.drops c.1 = false)
include hdrops

/-- A write that settles where nothing drops it enters memory; those ahead of it lose its bytes. -/
theorem State.settle_eq : ∃ ps, s.settle f.id = { s with
    mem := Sparse.setAll s.mem f.cells,
    flight := ((s.flight.takeWhile fun g => g.id != f.id).map (dropCells f.cells)) ++ (s.flight.dropWhile fun g => g.id != f.id).drop 1,
    poison := ps } := by
  have hcells : (f.cells.filter fun c => !s.drops c.1) = f.cells := List.filter_eq_self.2 fun c hc => by simp [hdrops c hc]
  simp only [State.settle, find?_flight hf hone, hcells]
  exact ⟨_, rfl⟩

/-- Its bytes are then read everywhere where no other flight writes them. -/
theorem State.settle_byte (hnd : (f.cells.map (·.1)).Nodup) (hapart : ∀ g ∈ s.flight, g ≠ f → ∀ c ∈ g.cells, ∀ x ∈ f.cells, c.1 ≠ x.1)
    (p : Place) {x : Nat × Byte} (hx : x ∈ f.cells) : (s.settle f.id).busByte p x.1 = x.2 := by
  obtain ⟨ps, hsettle⟩ := State.settle_eq hf hone hdrops
  have hlast : lastByte f.cells x.1 = some x.2 := lastByte_of_nodup hnd hx
  rw [hsettle, State.busByte, Sparse.get_setAll, hlast, Option.getD_some]
  refine flightByte_of_alike fun g hg => ?_
  rcases List.mem_append.1 hg with hg | hg
  · obtain ⟨g, -, rfl⟩ := List.mem_map.1 hg
    rw [byte?_dropCells, if_neg fun h => h x hx rfl]
    exact .inl rfl
  · have hmem : g ∈ s.flight := by
      rw [flight_split hf hone]
      exact List.mem_append_right _ (List.mem_cons_of_mem _ hg)
    by_cases hgf : g = f
    · exact .inr (hgf ▸ hlast)
    · exact .inl (lastByte_eq_none_iff.2 fun c hc => hapart g hmem hgf c hc x hx)

/-- Every other byte is read as before. -/
theorem State.settle_other (p : Place) {y : Nat} (hy : ∀ c ∈ f.cells, c.1 ≠ y) : (s.settle f.id).busByte p y = s.busByte p y := by
  obtain ⟨ps, hsettle⟩ := State.settle_eq hf hone hdrops
  have hnone : f.byte? y = none := lastByte_eq_none_iff.2 hy
  rw [hsettle, State.busByte, State.busByte, Sparse.get_setAll, lastByte_eq_none_iff.2 hy, Option.getD_none]
  conv => rhs; rw [flight_split hf hone]
  have hmap := flightByte_map (p := p) (x := y) (φ := dropCells f.cells) (fs := s.flight.takeWhile fun g => g.id != f.id)
    (fun g _ => ⟨seenBy_dropCells .., by rw [byte?_dropCells, if_pos hy]⟩) (Sparse.get s.mem y)
  rw [flightByte_append, flightByte_append, hmap, flightByte, hnone, Option.getD_none, ite_self]

end

/-! ## Entries as they perform -/

theorem Entry.head_eq (e x : Entry) : e.head x = if x.op.marks = true ∧ x.before e = true then { x with level := 1 } else x := by
  simp only [Entry.head, Bool.and_eq_true]

/-- What rings a doorbell stands first in the schedule; nothing else changes. -/
theorem State.ring_eq (s : State) (b n : Nat) (v : W64) : ∃ js, s.ring b n v = { s with todo := js } := by
  unfold State.ring
  split <;> exact ⟨_, rfl⟩

/-- An entry that fails leaves its queue, and its strand has one cause more; nothing else changes. -/
theorem QView.fail_spec {s t : State} {r : CRef} {q : QView} (hq : s.qview r = some q) (hcl : r.cl < 4) (ht : t.strands = s.strands)
    (e : Entry) (f : Nat × Nat) (a : W64) : ∃ c st, q.fail t .sq e f a = { t with strands := (q.fail t .sq e f a).strands } ∧
      c.code = f.1 ∧ c.kind = .q ∧ c.fseq = e.seq ∧ (q.fail t .sq e f a).strand? r.strand = some st ∧ st.raised = q.st.raised ++ [c] ∧
      st.digest = q.st.digest ∧ ∀ y, (q.fail t .sq e f a).qview r = some y →
        y.st = st ∧ y.cl.sq.entries = (q.cl.sq.entries.filter fun x => x.seq != e.seq).map e.head := by
  obtain ⟨hst, hco, hqcl, hr⟩ := State.qview_eq hq
  have hst' : t.strand? r.strand = some q.st := by rw [State.strand?, ht]; exact hst
  set drop : Cluster → Cluster := fun c => (c.modQueue .sq fun es => es.filter fun x => x.seq != e.seq).heads e true with hdrop
  have hdropped : (q.drop t .sq e).strand? r.strand = some (q.st.modCl r.core r.cl drop) := by
    rw [QView.drop, QView.mod, hr]
    exact State.strand_modStrand_found (fun _ => rfl) hst'
  have hfail : ∃ raise : Strand → Cause, q.fail t .sq e f a = (q.drop t .sq e).modStrand r.strand (fun t => t.raise (raise t)) ∧
      ∀ t, (raise t).code = f.1 ∧ (raise t).kind = .q ∧ (raise t).fseq = e.seq := by
    rw [QView.fail, hr]
    exact ⟨_, rfl, fun _ => ⟨rfl, rfl, rfl⟩⟩
  obtain ⟨raise, hfail, hraise⟩ := hfail
  set st := (q.st.modCl r.core r.cl drop).raise (raise (q.st.modCl r.core r.cl drop)) with hstdef
  obtain ⟨hcode, hkind, hseq⟩ := hraise (q.st.modCl r.core r.cl drop)
  have hfound : (q.fail t .sq e f a).strand? r.strand = some st := by
    rw [hfail]
    exact State.strand_modStrand_found (fun _ => rfl) hdropped
  refine ⟨{ raise (q.st.modCl r.core r.cl drop) with frozen := (q.st.modCl r.core r.cl drop).still }, st, ?_, hcode, hkind, hseq, hfound, rfl,
    rfl, fun y hy => ?_⟩
  · rw [hfail]
    rfl
  · rw [State.qview_of hfound (Strand.cores_modCore (fun c => c.modCl r.cl drop) hco), Core.cluster_modCl _ _ hcl] at hy
    obtain rfl := Option.some.inj hy
    refine ⟨rfl, ?_⟩
    rw [← hqcl, hdrop, Cluster.heads_sq]
    rfl

/-! ## A store at its scopes (R224, R258, R261, R297) -/

section
variable {s : State} {r : CRef} {q : QView} {e : Entry} {a : W64} {n b : Nat} {z : W64}
  (hpicks : s.picks r .sq (fun e => e.op.isSt && decide (e.level < e.op.final)) q e) (hop : e.op = .st a n z)

include hop in
theorem Entry.foldedAt_store (fid l : Nat) (t : Strand) : (Entry.foldedAt { e with fid } l t).digest =
    if e.op.final ≤ l then t.digest + foldOf a n z else t.digest := by
  unfold Entry.foldedAt
  split
  · simp only [Entry.folds, hop]
    rfl
  · rfl

include hop in
theorem Entry.dest_store : e.op.dest = none := by
  rw [hop]
  rfl

include hop in
/-- A store performs next at its final scope, or one scope further. -/
theorem Entry.next_store : e.next = if e.op.final = 6 then 6 else e.level + 1 := by
  simp only [Entry.next, hop, beq_iff_eq]

include hpicks hop in
/-- What a store that has performed leaves of its context. -/
theorem QView.performed_store {t : State} (ht : t.strands = s.strands) (fid : Nat) :
    ∀ y, (q.performed t { e with fid } e.next).qview r = some y →
      y.st.digest = (if e.op.final ≤ e.next then q.st.digest + foldOf a n z else q.st.digest) ∧
      (e.op.final ≤ e.next → y.cl.sq.entries = (q.cl.sq.entries.filter fun x => x.seq != e.seq).map e.head) ∧
      (e.next < e.op.final → ∃ e', e'.op = e.op ∧ e'.level = e.next ∧
        y.cl.sq.entries = (q.cl.sq.entries.map fun x => if x.seq = e.seq then e' else x).map e.head) := by
  intro y hy
  rw [QView.qview_performed hpicks.1 (State.picks_cl hpicks) ht] at hy
  obtain rfl := Option.some.inj hy
  have hnext : e.next ≠ 0 := by
    rw [Entry.next_store hop]
    split <;> omega
  refine ⟨Entry.foldedAt_store hop fid _ _, fun hlast => ?_, fun hmore => ⟨{ e with fid, level := e.next, ready := 0 }, rfl, rfl, ?_⟩⟩
  · exact Entry.stepped_sq_last (e := { e with fid }) hlast (Entry.dest_store hop) _
  · refine (Entry.stepped_sq_stays (e := { e with fid }) (.inl hmore) _).trans ?_
    rw [if_neg hnext]
    rfl

section
variable (hlevel : e.level = 0) (htarget : s.elTarget q.st q.co.phys a true = .ok (.bus b)) (hdoor : isDoorbell b = false)
include hpicks hop hlevel htarget hdoor

/-- A store to memory that begins: it waits, or it writes at its first scope. -/
theorem execStorePerform_begins : exec (.storePerform r) s = .next
    (let t := s.touch q.st q.co.phys a true
    if q.settled s b n e.next = false then q.await t e
    else q.performed (q.write t (busCells b n z.toNat) [] e.next).2 { e with fid := (q.write t (busCells b n z.toNat) [] e.next).1 } e.next) := by
  refine (onEntry_of_picks hpicks _).trans ?_
  simp only [hop, hlevel, htarget, hdoor, bne_self_eq_false, Bool.false_eq_true, if_false, (State.Touched.touch ..).settled q b n e.next,
    Bool.not_eq_true']

theorem execStorePerform_writes (hsettled : q.settled s b n e.next = true) (hdrops : ∀ i < n, s.drops (b + i) = false) :
    ∃ t, exec (.storePerform r) s = .next t ∧ s.Writes t b n (fun i => z.extractLsb' (8 * i) 8) (q.sees e.next) ∧
      ∀ y, t.qview r = some y → y.st.digest = (if e.op.final ≤ e.next then q.st.digest + foldOf a n z else q.st.digest) ∧
        (e.op.final ≤ e.next → y.cl.sq.entries = (q.cl.sq.entries.filter fun x => x.seq != e.seq).map e.head) ∧
        (e.next < e.op.final → ∃ e', e'.op = e.op ∧ e'.level = e.next ∧
          y.cl.sq.entries = (q.cl.sq.entries.map fun x => if x.seq = e.seq then e' else x).map e.head) := by
  have hrun := execStorePerform_begins hpicks hop hlevel htarget hdoor
  simp only [hsettled, Bool.true_eq_false, if_false] at hrun
  have htouched := State.Touched.touch s q.st q.co.phys a true
  have hw := QView.write_writes (q := q) (s := s.touch q.st q.co.phys a true) (b := b) (n := n) (v := z.toNat) (l := e.next)
    ((htouched.settled ..).trans hsettled) fun i hi => (htouched.drops _).trans (hdrops i hi)
  refine ⟨_, hrun, fun p x => ⟨fun hb hx hsees => ?_, fun h => ?_⟩, ?_⟩
  · rw [QView.performed_busByte, (hw p x).1 hb hx hsees]
    exact (extractLsb'_eq_byte z _).symm
  · rw [QView.performed_busByte]
    exact (htouched.writes hw p x).2 h
  · exact QView.performed_store hpicks hop ((QView.write_strands ..).trans htouched.strands) _

end

section
variable {f : Flight} (hlevel : e.level = 4) (hlocal : isDomain a = false) (hf : f ∈ s.flight) (hfid : f.id = e.fid)
  (hone : ∀ g ∈ s.flight, g.id = f.id → g = f)
include hop hlocal

theorem Entry.final_store : e.op.final = 5 := by
  rw [hop]
  simp [ElOp.final, ElOp.addr, hlocal]

include hlevel in
theorem Entry.next_store_last : e.next = 5 := by
  rw [Entry.next_store hop, Entry.final_store hop hlocal, hlevel]
  rfl

include hpicks hlevel in
/-- A store's last step, but for the doorbell that it may ring. -/
theorem execStorePerform_last : ∃ js, exec (.storePerform r) s = .next { (q.widenEntry s e) with todo := js } := by
  have hrun : exec (.storePerform r) s = .next (match (q.widenEntry s e).elTarget q.st q.co.phys a true with
      | .ok (.bus b) => (q.widenEntry s e).ring b n z
      | _ => q.widenEntry s e) := by
    refine (onEntry_of_picks hpicks _).trans ?_
    simp only [hop, Entry.next_store_last hop hlevel hlocal, hlevel]
    rfl
  rw [hrun]
  split
  · obtain ⟨js, hring⟩ := (q.widenEntry s e).ring_eq _ n z
    exact ⟨js, by rw [hring]⟩
  · exact ⟨_, rfl⟩

include hf hfid hone

omit hop hlocal in
theorem State.lost_eq : s.lost e.fid = f.cells.findSome? fun c =>
    if s.hostAbsent c.1 then some (cHost, 0) else if s.silent c.1 then some (cNoEnd, 0) else none := by
  rw [← hfid, State.lost, find?_flight hf hone]

omit hop hlocal in
theorem State.lost_of_answers (h : ∀ x ∈ f.cells, s.hostAbsent x.1 = false ∧ s.silent x.1 = false) : s.lost e.fid = none := by
  rw [State.lost_eq hf hfid hone]
  exact List.findSome?_eq_none_iff.2 fun x hx => by simp [h x hx]

omit hop hlocal in
theorem State.lost_of_silent (h : ∃ x ∈ f.cells, ¬ (s.hostAbsent x.1 = false ∧ s.silent x.1 = false)) :
    ∃ c, s.lost e.fid = some c ∧ (c.1 = 0x17 ∨ c.1 = 0x18) := by
  obtain ⟨x, hx, hno⟩ := h
  rw [State.lost_eq hf hfid hone]
  cases hlost : f.cells.findSome? fun c =>
      if s.hostAbsent c.1 then some (cHost, 0) else if s.silent c.1 then some (cNoEnd, 0) else none with
  | none =>
    have hnone := List.findSome?_eq_none_iff.1 hlost x hx
    cases hhost : s.hostAbsent x.1 <;> cases hsilent : s.silent x.1 <;> simp [hhost, hsilent] at hnone hno
  | some c =>
    obtain ⟨y, -, hy⟩ := List.exists_of_findSome?_eq_some hlost
    refine ⟨c, rfl, ?_⟩
    split at hy
    · exact .inl (by rw [← Option.some.inj hy]; rfl)
    · split at hy
      · exact .inr (by rw [← Option.some.inj hy]; rfl)
      · cases hy

omit hop hlocal in
/-- No write ahead of it shares a byte: it may go on. -/
theorem QView.mayWiden_of_apart (hapart : ∀ g ∈ s.flight, g ≠ f → ∀ c ∈ g.cells, ∀ x ∈ f.cells, c.1 ≠ x.1) (l : Nat) :
    q.mayWiden s e l = true := by
  rw [QView.mayWiden, ← hfid, find?_flight hf hone]
  simp only [Bool.not_eq_true', List.any_eq_false, Bool.and_eq_true, not_and]
  intro g hg hshares
  have hne : g ≠ f := by
    rintro rfl
    have := List.mem_takeWhile_imp hg
    simp at this
  simp only [Flight.shares, List.any_eq_true, beq_iff_eq] at hshares
  obtain ⟨c, hc, x, hx, hxc⟩ := hshares
  exact absurd hxc.symm (hapart g ((List.takeWhile_sublist _).subset hg) hne c hc x hx)

include hpicks hlevel

theorem execStorePerform_settles (hne : e.fid ≠ 0) (hnd : (f.cells.map (·.1)).Nodup)
    (hapart : ∀ g ∈ s.flight, g ≠ f → ∀ c ∈ g.cells, ∀ x ∈ f.cells, c.1 ≠ x.1)
    (hanswers : ∀ x ∈ f.cells, (s.hostAbsent x.1 = false ∧ s.silent x.1 = false) ∧ s.drops x.1 = false) :
    ∃ t, exec (.storePerform r) s = .next t ∧ (∀ p, ∀ x ∈ f.cells, t.busByte p x.1 = x.2) ∧
      (∀ p y, (∀ x ∈ f.cells, x.1 ≠ y) → t.busByte p y = s.busByte p y) ∧
      ∀ y, t.qview r = some y → y.st.digest = q.st.digest + foldOf a n z ∧
        y.cl.sq.entries = (q.cl.sq.entries.filter fun x => x.seq != e.seq).map e.head := by
  have hdrops : ∀ c ∈ f.cells, s.drops c.1 = false := fun c hc => (hanswers c hc).2
  have hfinal : e.op.final ≤ e.next := by rw [Entry.final_store hop hlocal, Entry.next_store_last hop hlevel hlocal]
  have hwiden : q.widenEntry s e = q.performed (s.settle f.id) e e.next := by
    simp only [QView.widenEntry, State.lost_of_answers hf hfid hone fun x hx => (hanswers x hx).1,
      QView.mayWiden_of_apart hf hfid hone hapart, Bool.not_true, Bool.false_eq_true, if_false]
    rw [if_neg (by simpa using hne), State.widen, Entry.next_store_last hop hlevel hlocal, if_pos (Nat.le_refl 5), hfid]
  obtain ⟨js, hrun⟩ := execStorePerform_last hpicks hop hlevel hlocal
  rw [hwiden] at hrun
  have hstrands : (s.settle f.id).strands = s.strands := by
    obtain ⟨ps, hsettle⟩ := State.settle_eq hf hone hdrops
    rw [hsettle]
  refine ⟨_, hrun, fun p x hx => ?_, fun p y hy => ?_, fun y hy => ?_⟩
  · exact (QView.performed_busByte ..).trans (State.settle_byte hf hone hdrops hnd hapart p hx)
  · exact (QView.performed_busByte ..).trans (State.settle_other hf hone hdrops p hy)
  · obtain ⟨hdigest, hlast, -⟩ := QView.performed_store hpicks hop hstrands e.fid y hy
    exact ⟨hdigest.trans (if_pos hfinal), hlast hfinal⟩

theorem execStorePerform_lost (hsilent : ∃ x ∈ f.cells, ¬ (s.hostAbsent x.1 = false ∧ s.silent x.1 = false)) :
    ∃ t c, exec (.storePerform r) s = .next t ∧ t.mem = s.mem ∧
      t.flight = s.flight.filter (fun g => g.id != e.fid) ∧ (c.code = 0x17 ∨ c.code = 0x18) ∧ c.kind = .q ∧ c.fseq = e.seq ∧
      ∀ y, t.qview r = some y → y.st.digest = q.st.digest ∧ y.st.raised = q.st.raised ++ [c] ∧
        y.cl.sq.entries = (q.cl.sq.entries.filter fun x => x.seq != e.seq).map e.head := by
  obtain ⟨g, hlost, hcode⟩ := State.lost_of_silent hf hfid hone hsilent
  have hwiden : q.widenEntry s e =
      q.fail { s with flight := s.flight.filter fun g => g.id != e.fid } .sq e g (q.lostAt s e) := by
    simp only [QView.widenEntry, hlost]
  obtain ⟨js, hrun⟩ := execStorePerform_last hpicks hop hlevel hlocal
  obtain ⟨c, st, hrest, hc, hkind, hseq, -, hraised, hdigest, hview⟩ := QView.fail_spec
    (t := { s with flight := s.flight.filter fun g => g.id != e.fid }) hpicks.1 (State.picks_cl hpicks) rfl e g (q.lostAt s e)
  rw [hwiden, hrest] at hrun
  refine ⟨_, c, hrun, rfl, rfl, hc ▸ hcode, hkind, hseq, fun y hy => ?_⟩
  obtain ⟨rfl, hentries⟩ := hview y hy
  exact ⟨hdigest, hraised, hentries⟩

end

end

/-! ## Loads, their data, and markers (R224, R225, R227) -/

section
variable {s : State} {r : CRef} {q : QView} {e : Entry} {d : Reg}

theorem execLoadPerform_reads {a : W64} {k : LdKind} {b : Nat} (hpicks : s.picks r .lq (fun e => e.op.isLd && e.value.isNone) q e)
    (hop : e.op = .ld a k d) (htarget : s.elTarget q.st q.co.phys a false = .ok (.bus b)) (hdoor : isDoorbell b = false)
    (hclean : s.poisonedRange q.place b k.size = false) : exec (.loadPerform r) s =
      .next (q.mod (q.put (s.touch q.st q.co.phys a false).spend .lq e
        { e with level := 6, value := some (k.extend (natOfBytes (s.busBytes q.place b k.size))), ready := 0 }) fun c =>
          { c with saw := (s.seenFlights q.place b k.size).map (fun i => (e.iss, e.handler, i)) ++
            c.saw.filter fun w => s.flight.any fun f => f.id == w.2.2 }) := by
  refine (onEntry_of_picks hpicks _).trans ?_
  simp only [hop, htarget, State.targetBad, hclean, State.targetRead, hdoor, Bool.false_eq_true, if_false]

theorem execLoadDataArrival_lands {n : QName} {z : W64} (hpicks : s.picks r n Entry.landing q e) (hn : n = q.arriving s)
    (hdest : e.op.dest = some d) (hvalue : e.value = some z) :
    exec (.loadDataArrival r) s = .next (q.mod (q.drop s n e) fun c => { c with arrive := c.arrive ++ [(d, z)] }) := by
  change execLoadDataArrival r s = _
  simp only [execLoadDataArrival, hpicks.1, ← hn]
  rw [onEntry_of_picks hpicks]
  simp only [hdest, hvalue, Option.getD_some]

/-- The marker that retires is live, and everything ahead of it has left both queues. -/
theorem QView.pickMark_spec (h : q.pickMark s = some e) :
    e.op.marks = true ∧ q.live e = true ∧ ∀ x ∈ q.cl.lq.entries ++ q.cl.sq.entries, x.before e = false := by
  have hready := List.find?_some h
  simp only [QView.markReady, Bool.and_eq_true, List.all_eq_true, Bool.not_eq_true'] at hready
  obtain ⟨⟨⟨hmarks, hlive⟩, hahead⟩, -⟩ := hready
  exact ⟨hmarks, hlive, hahead⟩

theorem execMarkerRetire_eq (hq : s.qview r = some q) (h : q.pickMark s = some e) : exec (.markerRetire r) s = .next (q.mod s fun c =>
    { c with lq := { c.lq with entries := c.lq.entries.filter fun x => x.iss != e.iss },
             sq := { c.sq with entries := c.sq.entries.filter fun x => x.iss != e.iss } }) := by
  change execMarkerRetire r s = _
  simp only [execMarkerRetire, hq, h]
  rfl

end

/-- Settles O40: loads, their data and markers by their equations; a store's steps by what it writes, settles or loses. -/
theorem loadsStoresAndMarkersPerform : Obligations.LoadsStoresAndMarkersPerform := by
  unfold Obligations.LoadsStoresAndMarkersPerform
  intro begun
  have hbegun : begun = Entry.head := by
    funext e x
    exact (e.head_eq x).symm
  rw [hbegun]
  refine ⟨?_, fun s r q n e d z hpicks hn hdest hvalue => execLoadDataArrival_lands hpicks hn hdest hvalue, ?_, ?_,
    fun s r q e hq h => ?_⟩
  · intro s r q e a k d b hpicks hop htarget hdoor hclean
    refine ⟨_, _, execLoadPerform_reads hpicks hop htarget hdoor hclean, fun i hi => ?_⟩
    rw [LdKind.extend_byte k (length_busBytes ..) hi]
    split
    · next h => exact getD_busBytes _ _ _ h
    · rfl
  · intro s r q e a n b z hpicks hop hlevel _ htarget hdoor hdrops
    refine ⟨fun hunsettled => ?_, fun hsettled => execStorePerform_writes hpicks hop hlevel htarget hdoor hsettled hdrops⟩
    rw [execStorePerform_begins hpicks hop hlevel htarget hdoor]
    simp only [hunsettled, if_true]
    rfl
  · intro s r q e a n z f hpicks hop hlevel hlocal hf hfid hne hnd hapart hone answers
    exact ⟨fun hanswers => execStorePerform_settles hpicks hop hlevel hlocal hf hfid hone hne hnd hapart hanswers,
      fun hsilent => execStorePerform_lost hpicks hop hlevel hlocal hf hfid hone hsilent⟩
  · obtain ⟨hmarks, hlive, hahead⟩ := QView.pickMark_spec h
    exact ⟨hmarks, hlive, hahead, execMarkerRetire_eq hq h⟩

end Sys2Proof.Machine
end

section
/-! ECOPY and ENQ as they perform (R226, R249, R260, R266). -/

namespace Sys2Proof.Machine

/-! ## Bytes of a list of words (R1) -/

/-- Lists of one length that follow each other: element `i` of the `j`th. -/
theorem getElem?_flatMap_const {α β : Type} {f : α → List β} {m : Nat} (hm : ∀ x, (f x).length = m) {xs : List α} {j : Nat} {x : α}
    (hx : xs[j]? = some x) {i : Nat} (hi : i < m) : (xs.flatMap f)[m * j + i]? = (f x)[i]? := by
  induction xs generalizing j with
  | nil => simp at hx
  | cons y ys ih =>
    rw [List.flatMap_cons]
    cases j with
    | zero =>
      obtain rfl : y = x := by simpa using hx
      rw [Nat.mul_zero, Nat.zero_add, List.getElem?_append_left (by rw [hm]; exact hi)]
    | succ j =>
      rw [List.getElem?_append_right (by rw [hm, Nat.mul_add]; omega), hm, show m * (j + 1) + i - m = m * j + i by rw [Nat.mul_add]; omega]
      exact ih (by simpa using hx)

theorem length_flatMap_const {α β : Type} {f : α → List β} {m : Nat} (hm : ∀ x, (f x).length = m) (xs : List α) :
    (xs.flatMap f).length = m * xs.length := by
  induction xs with
  | nil => rfl
  | cons x xs ih => rw [List.flatMap_cons, List.length_append, hm, ih, List.length_cons, Nat.mul_add, Nat.mul_one, Nat.add_comm]

/-- The bytes of words of 8 bytes, the first word first. -/
def bytesOfWords (ws : List W64) : List Byte := ws.flatMap fun w => bytesOf 8 w.toNat

theorem length_bytesOfWords (ws : List W64) : (bytesOfWords ws).length = 8 * ws.length := length_flatMap_const (fun _ => length_bytesOf ..) ws

theorem getElem?_bytesOfWords {ws : List W64} {i : Nat} (hi : i < 8 * ws.length) :
    (bytesOfWords ws)[i]? = some ((ws.getD (i / 8) 0).extractLsb' (8 * (i % 8)) 8) := by
  have hj : i / 8 < ws.length := by omega
  have hword : ws[i / 8]? = some (ws.getD (i / 8) 0) := by simp [hj]
  have hbyte := getElem?_flatMap_const (f := fun w : W64 => bytesOf 8 w.toNat) (fun _ => length_bytesOf ..) hword (Nat.mod_lt i (by omega))
  rw [Nat.div_add_mod] at hbyte
  rw [bytesOfWords, hbyte, getElem?_bytesOf _ (Nat.mod_lt i (by omega))]

/-! ## A copy's source (R226) -/

theorem length_wordAddrs (a : W64) (n : Nat) : (wordAddrs a n).length = n / 8 := by simp [wordAddrs]

theorem length_cellsAt {α : Type} (b : Nat) (vs : List α) : (cellsAt b vs).length = vs.length := by
  induction vs generalizing b with
  | nil => rfl
  | cons v vs ih => rw [cellsAt, List.length_cons, List.length_cons, ih]

theorem State.length_resolveAll {s : State} {st : Strand} {c : Nat} {w : Bool} {as : List W64} {ts : List Target}
    (h : s.resolveAll st c w as = .ok ts) : ts.length = as.length := by
  induction as generalizing ts with
  | nil =>
    obtain rfl : [] = ts := by simpa [State.resolveAll] using h
    rfl
  | cons a as ih =>
    unfold State.resolveAll at h
    split at h
    · cases h
    · split at h
      · cases h
      · next us hus =>
        obtain rfl := Except.ok.inj h
        rw [List.length_cons, List.length_cons, ih hus]

theorem QView.length_copySource {q : QView} {s : State} {mode n : Nat} {a : W64} {ws : List (W64 × Bool)}
    (h : q.copySource s mode a n = .ok ws) : ws.length = n / 8 := by
  simp only [QView.copySource] at h
  split at h
  · obtain rfl := Except.ok.inj h
    rw [List.length_map, length_wordAddrs]
  · split at h
    · cases h
    · next ts hts =>
      obtain rfl := Except.ok.inj h
      rw [List.length_map, length_cellsAt, State.length_resolveAll hts, length_wordAddrs]

/-! ## A copy's words as they go out (R226) -/

/-- The words that a copy writes to memory, each with its poison mark: those of its targets that are memory of this device. -/
def copyOutMarked (ts : List Target) (ws : List (W64 × Bool)) : List (Nat × W64 × Bool) :=
  (ts.zip ws).filterMap fun x => match x.1 with
    | .bus b => if isDoorbell b then none else some (b, x.2)
    | .remote _ => none

/-- The words without their marks. -/
def copyOut (ts : List Target) (ws : List (W64 × Bool)) : List (Nat × W64) :=
  (ts.zip ws).filterMap fun x => match x.1 with
    | .bus b => if isDoorbell b then none else some (b, x.2.1)
    | .remote _ => none

theorem copyOut_eq (ts : List Target) (ws : List (W64 × Bool)) : copyOut ts ws = (copyOutMarked ts ws).map fun x => (x.1, x.2.1) := by
  rw [copyOut, copyOutMarked, List.map_filterMap]
  congr 1
  funext x
  split
  · split <;> rfl
  · rfl

theorem lastByte_busCells (b n v x : Nat) :
    lastByte (busCells b n v) x = if b ≤ x ∧ x < b + n then some ((bytesOf n v).getD (x - b) 0) else none := by
  rw [busCells, lastByte_cellsAt, length_bytesOf]

/-- No word of those that go out lies over a byte. -/
theorem lastByte_wordCells_none {out : List (Nat × W64)} {x : Nat} (h : ∀ w ∈ out, x < w.1 ∨ w.1 + 8 ≤ x) :
    lastByte (out.flatMap fun x => busCells x.1 8 x.2.toNat) x = none := by
  refine lastByte_eq_none_iff.2 fun c hc => ?_
  obtain ⟨w, hw, hc⟩ := List.mem_flatMap.1 hc
  have hnone : lastByte (busCells w.1 8 w.2.toNat) x = none := by
    rw [lastByte_busCells, if_neg]
    have := h w hw
    omega
  exact lastByte_eq_none_iff.1 hnone c hc

/-! ## A copy into the scratchpad (R226, R260) -/

/-- The scratchpad's words of four bytes that a copy's poisoned words come to (R290). -/
def copyMarks (d : W64) (ws : List (W64 × Bool)) : List Nat :=
  ((cellsAt 0 ws).filter fun w => w.2.2).flatMap fun w => [d.toNat / 4 + 2 * w.1, d.toNat / 4 + 2 * w.1 + 1]

/-- What a copy into the scratchpad leaves of its core: what was to land where it writes is beneath it (R239, R260, R286). -/
def Core.copiedTo (co : Core) (q : QView) (beat : Nat) (act : Act) : Core :=
  (co.landUnder beat [{ beat := 0, ord := 0, act }] fun e => q.settles || e.drained).apply beat act

theorem Core.copiedTo_spad (co : Core) (q : QView) (beat d : Nat) (bs : List Byte) (bad : List Nat) {i : Nat} (hi : i < bs.length) :
    Sparse.get (co.copiedTo q beat (.spad d bs bad)).spad (d + i) = bs.getD i 0 := by
  unfold Core.copiedTo
  generalize co.landUnder beat _ _ = c
  change Sparse.get (Sparse.setAll c.spad (cellsAt d bs)) (d + i) = _
  rw [Sparse.get_setAll, lastByte_cellsAt, if_pos (by omega), Option.getD_some, Nat.add_sub_cancel_left]

/-- The core of an entry that has performed, where its own was changed first. -/
theorem QView.core_performed {s t : State} {r : CRef} {q q' : QView} (hq : s.qview r = some q) (ht : t.strands = s.strands)
    {f : Strand → Core → Core} {e : Entry} {l : Nat}
    (hq' : (q.performed (t.modStrand q.ref.strand fun st => st.modCore q.ref.core (f st)) e l).qview r = some q') :
    q'.co = (f q.st q.co).modCl r.cl (e.stepped l) := by
  obtain ⟨hst, hco, -, hr⟩ := State.qview_eq hq
  have hst' : t.strand? r.strand = some q.st := by rw [State.strand?, ht]; exact hst
  rw [QView.performed_eq, QView.mod, hr] at hq'
  have hfound := State.strand_modStrand_found (f := fun st => st.modCl r.core r.cl (e.stepped l)) (fun _ => rfl)
    (State.strand_modStrand_found (f := e.foldedAt l) (fun x => by rw [Entry.foldedAt_rest])
      (State.strand_modStrand_found (f := fun st => st.modCore r.core (f st)) (fun _ => rfl) hst'))
  have hcore : (e.foldedAt l (q.st.modCore r.core (f q.st))).cores[r.core]? = some (f q.st q.co) := by
    rw [Entry.foldedAt_rest]
    exact Strand.cores_modCore _ hco
  rw [State.qview_of hfound (Strand.cores_modCore (fun c => c.modCl r.cl (e.stepped l)) hcore)] at hq'
  rw [← Option.some.inj hq']

section
variable {s : State} {r : CRef} {q : QView} {e : Entry} {mode n : Nat} {d a : W64} {ws : List (W64 × Bool)}
  (hpicks : s.picks r .sq (fun e => e.op.isCopy && decide (e.level < e.op.final)) q e) (hop : e.op = .ecopy mode d a n)
  (hlevel : e.level = 0) (hsource : q.copySource s mode a n = .ok ws)
include hpicks hop hlevel hsource

theorem execEcopyPerform_spad (hmode : mode = 2) (hn : n % 8 = 0) : ∃ t, exec (.ecopyPerform r) s = .next t ∧ s.SameMemory t ∧
    ∀ q', t.qview r = some q' → ∀ i < n, Sparse.get q'.co.spad (d.toNat + i) =
      ((ws.map (·.1)).getD (i / 8) 0).extractLsb' (8 * (i % 8)) 8 := by
  subst hmode
  have hrun : exec (.ecopyPerform r) s = .next
      (q.performed (((s.touchAll q.st q.co.phys false (wordAddrs a n)).spendN ws.length).modStrand q.ref.strand fun t =>
        t.modCore q.ref.core fun co => co.copiedTo q t.beat (.spad d.toNat (bytesOfWords (ws.map (·.1))) (copyMarks d ws))) e e.next) := by
    refine (onEntry_of_picks hpicks _).trans ?_
    simp only [hop, hlevel, hsource, bytesOfWords, List.flatMap_map]
    rfl
  have htouched := (State.Touched.touchAll q.st q.co.phys false (wordAddrs a n) s).trans (.spendN _ ws.length)
  refine ⟨_, hrun, fun p x => ?_, fun q' hq' i hi => ?_⟩
  · rw [QView.performed_busByte, State.busByte_modStrand, htouched.busByte]
  · have hlen : i < 8 * (ws.map (·.1)).length := by
      rw [List.length_map, QView.length_copySource hsource]
      omega
    rw [QView.core_performed hpicks.1 htouched.strands (f := fun t co => co.copiedTo q t.beat _) hq', Core.modCl_spad,
      Core.copiedTo_spad _ _ _ _ _ _ (by rw [length_bytesOfWords]; exact hlen), List.getD_eq_getElem?_getD, getElem?_bytesOfWords hlen,
      Option.getD_some]

/-- A copy to memory that need not wait: it writes its words at its first scope. -/
theorem execEcopyPerform_mem (hmode : mode ≠ 2) {ts : List Target} (hts : s.resolveAll q.st q.co.phys true (wordAddrs d n) = .ok ts)
    (hsettled : ∀ w ∈ copyOut ts ws, q.settled s w.1 8 e.next = true) : ∃ t bad w, s.Touched t ∧
      w = q.write t ((copyOut ts ws).flatMap fun x => busCells x.1 8 x.2.toNat) bad e.next ∧
      exec (.ecopyPerform r) s = .next (q.performed w.2 { e with fid := w.1, words := ws.map (·.1) } e.next) := by
  have hgoes : ((copyOutMarked ts ws).any fun x => !q.settled s x.1 8 e.next) = false := by
    refine List.any_eq_false.2 fun x hx => ?_
    rw [hsettled (x.1, x.2.1) (copyOut_eq ts ws ▸ List.mem_map.2 ⟨x, hx, rfl⟩)]
    exact Bool.false_ne_true
  have hread : s.Touched (if mode == 1 then s else s.touchAll q.st q.co.phys false (wordAddrs a n)) := by
    split
    · exact .refl s
    · exact .touchAll ..
  refine ⟨_, ((copyOutMarked ts ws).filter fun x => x.2.2).map fun x => x.1 / 8, _,
    (hread.trans (.touchAll q.st q.co.phys true (wordAddrs d n) _)).trans (.spendN _ ws.length), rfl,
    (onEntry_of_picks hpicks _).trans ?_⟩
  rw [copyOut_eq, List.flatMap_map]
  simp only [hop, hlevel, hsource, hts, bne_self_eq_false, Bool.false_eq_true, if_false, beq_eq_false_iff_ne.2 hmode]
  exact congrArg Host.Outcome.next (if_neg (Bool.eq_false_iff.1 hgoes))

end

/-- The words of a copy to memory, one after the other: what every place then reads. -/
theorem QView.write_words {q : QView} {s : State} (out : List (Nat × W64)) (bad : List Nat) (l : Nat)
    (hsettled : ∀ w ∈ out, q.settled s w.1 8 l = true) :
    let t := (q.write s (out.flatMap fun x => busCells x.1 8 x.2.toNat) bad l).2
    (∀ p x, (∀ w ∈ out, x < w.1 ∨ w.1 + 8 ≤ x) ∨ ¬ q.sees l p → t.busByte p x = s.busByte p x) ∧
    ∀ (i : Nat) (w : Nat × W64), out[i]? = some w → (∀ j y, i < j → out[j]? = some y → y.1 + 8 ≤ w.1 ∨ w.1 + 8 ≤ y.1) →
      ∀ p, q.sees l p → ∀ k < 8, s.drops (w.1 + k) = false → t.busByte p (w.1 + k) = w.2.extractLsb' (8 * k) 8 := by
  refine ⟨fun p x h => ?_, fun i w hw hlater p hsees k hk hdrop => ?_⟩
  · refine (q.write_busByte s _ bad l p x).1 (h.imp_left fun h => ?_)
    exact lastByte_wordCells_none h
  · refine (q.write_busByte s _ bad l p (w.1 + k)).2 _ ?_ hsees hdrop fun f hf hc => ?_
    · have hsplit : out = out.take i ++ w :: out.drop (i + 1) := by
        obtain ⟨hi, hget⟩ := List.getElem?_eq_some_iff.1 hw
        rw [← hget, List.cons_getElem_drop_succ, List.take_append_drop]
      have hbehind : lastByte ((out.drop (i + 1)).flatMap fun x => busCells x.1 8 x.2.toNat) (w.1 + k) = none := by
        refine lastByte_wordCells_none fun y hy => ?_
        obtain ⟨j, hj⟩ := List.getElem?_of_mem hy
        rw [List.getElem?_drop] at hj
        have := hlater _ y (by omega) hj
        omega
      rw [hsplit, List.flatMap_append, List.flatMap_cons, lastByte_append, lastByte_append, hbehind, Option.none_or, lastByte_busCells,
        if_pos (by omega), Nat.add_sub_cancel_left, getD_bytesOf _ hk, Option.some_or, extractLsb'_eq_byte]
    · obtain ⟨c, hc, hcx⟩ := hc
      exact QView.settled_iff.1 (hsettled w (List.mem_of_getElem? hw)) f hf ⟨c, hc, by omega, by omega⟩

/-! ## ENQ (R44, R249, R266) -/

theorem mem_cellsAt {α : Type} {b : Nat} {vs : List α} {c : Nat × α} (h : c ∈ cellsAt b vs) : c.2 ∈ vs := by
  induction vs generalizing b with
  | nil => exact absurd h List.not_mem_nil
  | cons v vs ih =>
    rcases List.mem_cons.1 h with rfl | h
    · exact List.mem_cons_self
    · exact List.mem_cons_of_mem _ (ih h)

theorem poisonedWord_eq_none {a : W64} {ws : List (W64 × Bool)} (h : ∀ w ∈ ws, w.2 = false) : poisonedWord a ws = none := by
  rw [poisonedWord, Option.map_eq_none_iff, List.find?_eq_none]
  intro c hc
  rw [h c.2 (mem_cellsAt hc)]
  exact Bool.false_ne_true

section
variable {s : State} {r : CRef} {q : QView} {e : Entry} {a : W64} {hdr : W32} {d : Reg} {c : Context}

/-- The slots of an ENQ's packet (R249). -/
def enqSlots (hdr : W32) : Nat := (hdr.extractLsb' 8 4).toNat + 1

/-- A context's device queue has room for a packet, and its context stands (R249). -/
def Context.roomFor (c : Context) (n : Nat) : Prop := c.torn = false ∧ n ≤ 256 - (c.dqTail - c.dqHead).toNat

theorem Context.roomFor_iff {c : Context} {n : Nat} : (c.torn || 256 - (c.dqTail - c.dqHead).toNat < n) = true ↔ ¬ c.roomFor n := by
  rw [Context.roomFor, Bool.or_eq_true, decide_eq_true_iff]
  cases c.torn <;> simp

variable (hpicks : s.picks r .sq (fun e => e.op.isEnq && decide (e.level < e.op.final)) q e) (hop : e.op = .enq a hdr d)
  (hctx : s.ctx? q.st.ctx = some c)
include hpicks hop hctx

theorem execEnqPerform_full (hfull : ¬ c.roomFor (enqSlots hdr)) :
    exec (.enqPerform r) s = .next (q.performed s { e with value := some 1 } 6) := by
  refine (onEntry_of_picks hpicks _).trans ?_
  simp only [hop, hctx, fld_toNat]
  exact congrArg Host.Outcome.next (if_pos (Context.roomFor_iff.2 hfull))

section
variable {ws : List (W64 × Bool)} (hroom : c.roomFor (enqSlots hdr)) (hsource : q.copySource s 0 a (64 * enqSlots hdr) = .ok ws)
  (hclean : ∀ w ∈ ws, w.2 = false)
include hroom hsource hclean

/-- An ENQ whose packet is read: it fails where a slot does not answer, and else places the packet's slots. -/
theorem execEnqPerform_reads : exec (.enqPerform r) s = .next
    (match s.slotLost q.st.ctx c.dqBase c.dqTail.toNat (enqSlots hdr) with
    | some f => q.fail s.spend .sq e f.1 f.2
    | none => q.performed (((List.range (enqSlots hdr)).foldl (fun s i =>
        s.putSlot q.st.ctx c.dqBase (c.dqTail.toNat + i) (((enqBytes (ws.map (·.1)) hdr c.dqTail).drop (64 * i)).take 64))
          ((s.touchAll q.st q.co.phys false (wordAddrs a (64 * enqSlots hdr))).spendN ws.length)).modCtx q.st.ctx fun c =>
          { c with dqTail := c.dqTail + BitVec.ofNat 32 (enqSlots hdr) }) { e with value := some 0 } 6) := by
  refine (onEntry_of_picks hpicks _).trans ?_
  simp only [enqSlots] at hroom hsource ⊢
  simp only [hop, hctx, fld_toNat, hsource, poisonedWord_eq_none hclean, Option.none_or]
  refine congrArg Host.Outcome.next ((if_neg (mt Context.roomFor_iff.1 (not_not.2 hroom))).trans ?_)
  cases s.slotLost q.st.ctx c.dqBase c.dqTail.toNat ((hdr.extractLsb' 8 4).toNat + 1) <;> rfl

theorem execEnqPerform_places
    (hanswers : ∀ i < enqSlots hdr, s.dispLost q.st.ctx (dqSlot c.dqBase (c.dqTail.toNat + i)) = none) : exec (.enqPerform r) s = .next
      (q.performed (((List.range (enqSlots hdr)).foldl (fun s i =>
        s.putSlot q.st.ctx c.dqBase (c.dqTail.toNat + i) (((enqBytes (ws.map (·.1)) hdr c.dqTail).drop (64 * i)).take 64))
          ((s.touchAll q.st q.co.phys false (wordAddrs a (64 * enqSlots hdr))).spendN ws.length)).modCtx q.st.ctx fun c =>
          { c with dqTail := c.dqTail + BitVec.ofNat 32 (enqSlots hdr) }) { e with value := some 0 } 6) := by
  have hnone : s.slotLost q.st.ctx c.dqBase c.dqTail.toNat (enqSlots hdr) = none :=
    List.findSome?_eq_none_iff.2 fun i hi => by rw [hanswers i (List.mem_range.1 hi), Option.map_none]
  rw [execEnqPerform_reads hpicks hop hctx hroom hsource hclean, hnone]

theorem execEnqPerform_slotLost {i : Nat} (hi : i < enqSlots hdr) (hlost : s.dispLost q.st.ctx (dqSlot c.dqBase (c.dqTail.toNat + i)) ≠ none) :
    ∃ t k, exec (.enqPerform r) s = .next t ∧ s.SameMemory t ∧ t.contexts = s.contexts ∧ k.kind = .q ∧ k.fseq = e.seq ∧
      (t.strand? r.strand).map (·.raised) = some (q.st.raised ++ [k]) := by
  obtain ⟨f, hf⟩ : ∃ f, s.slotLost q.st.ctx c.dqBase c.dqTail.toNat (enqSlots hdr) = some f := by
    refine Option.ne_none_iff_exists'.1 fun hnone => hlost ?_
    exact Option.map_eq_none_iff.1 (List.findSome?_eq_none_iff.1 hnone i (List.mem_range.2 hi))
  obtain ⟨k, st, hrest, -, hkind, hseq, hst, hraised, -, -⟩ := QView.fail_spec (t := s.spend) hpicks.1 (State.picks_cl hpicks) rfl e f.1 f.2
  have hrun : exec (.enqPerform r) s = .next (q.fail s.spend .sq e f.1 f.2) := by
    rw [execEnqPerform_reads hpicks hop hctx hroom hsource hclean, hf]
  refine ⟨_, k, hrun, fun p x => ?_, ?_, hkind, hseq, ?_⟩
  · rw [hrest]
    rfl
  · rw [hrest]
    rfl
  · rw [hst, Option.map_some, hraised]

end

end

/-! ## The bytes of a packet (R249) -/

/-- The header's bytes and the position's, in the first eight of a packet. -/
theorem extractLsb'_append_words (x y : W32) {i : Nat} (hi : i < 4) :
    (x ++ y : W64).extractLsb' (8 * i) 8 = y.extractLsb' (8 * i) 8 ∧ (x ++ y : W64).extractLsb' (8 * (4 + i)) 8 = x.extractLsb' (8 * i) 8 := by
  refine ⟨BitVec.eq_of_getLsbD_eq fun j hj => ?_, BitVec.eq_of_getLsbD_eq fun j hj => ?_⟩
  · rw [BitVec.getLsbD_extractLsb', BitVec.getLsbD_extractLsb', BitVec.getLsbD_append, if_pos (show 8 * i + j < 32 by omega)]
  · rw [BitVec.getLsbD_extractLsb', BitVec.getLsbD_extractLsb', BitVec.getLsbD_append, if_neg (show ¬ 8 * (4 + i) + j < 32 by omega),
      show 8 * (4 + i) + j - 32 = 8 * i + j by omega]

theorem toNat_append_words (x y : W32) : (x ++ y : W64).toNat = x.toNat * 2 ^ 32 + y.toNat := by
  rw [BitVec.toNat_append, ← Nat.shiftLeft_add_eq_or_of_lt y.isLt, Nat.shiftLeft_eq]

section
variable {ws : List W64} {hdr seq : W32}

theorem enqBytes_eq : enqBytes ws hdr seq = bytesOf 8 (seq ++ hdr : W64).toNat ++
    ((bytesOfWords ws).drop 8).take ((bytesOfWords ws).length - 12) ++ bytesOf 4 seq.toNat := by
  rw [toNat_append_words]
  rfl

theorem getElem?_enqBytes_head {i : Nat} (hi : i < 8) : (enqBytes ws hdr seq)[i]? = some ((seq ++ hdr : W64).extractLsb' (8 * i) 8) := by
  rw [enqBytes_eq, List.append_assoc, List.getElem?_append_left (by rw [length_bytesOf]; exact hi), getElem?_bytesOf _ hi]

variable (hlen : 8 ≤ ws.length)
include hlen

theorem length_enqMiddle : (((bytesOfWords ws).drop 8).take ((bytesOfWords ws).length - 12)).length = 8 * ws.length - 12 := by
  rw [List.length_take, List.length_drop, length_bytesOfWords]
  omega

theorem length_enqBytes : (enqBytes ws hdr seq).length = 8 * ws.length := by
  rw [enqBytes_eq, List.length_append, List.length_append, length_bytesOf, length_bytesOf, length_enqMiddle hlen]
  omega

theorem getElem?_enqBytes_middle {i : Nat} (hi : 8 ≤ i) (hi' : i + 4 < 8 * ws.length) :
    (enqBytes ws hdr seq)[i]? = some ((ws.getD (i / 8) 0).extractLsb' (8 * (i % 8)) 8) := by
  have hmiddle := length_enqMiddle hlen
  rw [enqBytes_eq, List.getElem?_append_left (by rw [List.length_append, length_bytesOf, hmiddle]; omega),
    List.getElem?_append_right (by rw [length_bytesOf]; exact hi), length_bytesOf,
    List.getElem?_take_of_lt (by rw [length_bytesOfWords]; omega), List.getElem?_drop, Nat.add_sub_cancel' hi, getElem?_bytesOfWords (by omega)]

theorem getElem?_enqBytes_tail {i : Nat} (hi : i < 4) :
    (enqBytes ws hdr seq)[8 * ws.length - 4 + i]? = some (seq.extractLsb' (8 * i) 8) := by
  have hmiddle := length_enqMiddle hlen
  rw [enqBytes_eq, List.getElem?_append_right (by rw [List.length_append, length_bytesOf, hmiddle]; omega), List.length_append, length_bytesOf,
    hmiddle, show 8 * ws.length - 4 + i - (8 + (8 * ws.length - 12)) = i by omega, getElem?_bytesOf _ hi]

end

/-- Settles O42: copies by what their words leave to be read, ENQ by its three outcomes, a packet by the three parts of its bytes. -/
theorem copiesAndEnqueuesPerform : Obligations.CopiesAndEnqueuesPerform := by
  unfold Obligations.CopiesAndEnqueuesPerform
  refine ⟨?_, ?_, ?_, ?_⟩
  · intro s r q e mode n d a ws hpicks hop hlevel hsource
    refine ⟨fun hmode hn => execEcopyPerform_spad hpicks hop hlevel hsource hmode hn, ?_⟩
    intro hmode ts hts out hsettled
    have hout : out = copyOut ts ws := rfl
    rw [hout] at hsettled ⊢
    obtain ⟨t, bad, w, htouched, hw, hrun⟩ := execEcopyPerform_mem hpicks hop hlevel hsource hmode hts hsettled
    obtain ⟨hsame, hnew⟩ := QView.write_words (q := q) (s := t) (copyOut ts ws) bad e.next fun w hw =>
      (htouched.settled ..).trans (hsettled w hw)
    refine ⟨_, hrun, fun p x h => ?_, fun i w hi hlater p hsees k hk hdrop => ?_⟩
    · rw [QView.performed_busByte, hw, hsame p x h, htouched.busByte]
    · rw [QView.performed_busByte, hw]
      exact hnew i w hi hlater p hsees k hk ((htouched.drops _).trans hdrop)
  · intro s r q e a hdr d c hpicks hop hctx n room
    exact ⟨execEnqPerform_full hpicks hop hctx, fun ws hroom hsource hclean hanswers =>
      execEnqPerform_places hpicks hop hctx hroom hsource hclean hanswers, fun ws i f hroom hsource hclean hi hlost =>
      execEnqPerform_slotLost hpicks hop hctx hroom hsource hclean hi (by rw [hlost]; exact Option.some_ne_none f)⟩
  · intro ws hdr seq hlen bs
    refine ⟨length_enqBytes hlen, fun i hi => ⟨?_, ?_, getElem?_enqBytes_tail hlen hi⟩, fun i hi hi' => getElem?_enqBytes_middle hlen hi hi'⟩
    · exact (getElem?_enqBytes_head (by omega)).trans (congrArg some (extractLsb'_append_words seq hdr hi).1)
    · exact (getElem?_enqBytes_head (by omega)).trans (congrArg some (extractLsb'_append_words seq hdr hi).2)
  · intro s ctx pos base bs b hlen hxlat _
    have hput : s.putSlot ctx base pos bs = s.busWrite (cellsAt b bs) := by simp only [State.putSlot, dqSlot, hxlat]
    rw [hput, ← hlen]
    exact s.busWrite_cellsAt_writesDevice b bs

end Sys2Proof.Machine
end

section
/-! Resets, the loss and the return of the link, and the thermal trip (R306 to R309, R319, R322). -/

namespace Sys2Proof.Machine

/-! ## Stacks changed one after another -/

/-- A stack switched on or off. -/
def Stack.setUp (b : Bool) (k : Stack) : Stack := { k with up := b }

/-- Stacks with some of them changed, each by its number. -/
def mapStacks (f : Nat → Stack → Stack) (ks : List Nat) (vs : Vector Stack 4) : Vector Stack 4 :=
  ks.foldl (fun vs k => vset vs k (f k (vget vs k Stack.reset))) vs

/-- Stacks changed one after another: nothing else of the state changes. -/
theorem State.modStacks_eq (f : Nat → Stack → Stack) (ks : List Nat) (s : State) :
    ks.foldl (fun s k => s.modStack k (f k)) s = { s with stks := mapStacks f ks s.stks } := by
  induction ks generalizing s with
  | nil => rfl
  | cons k ks ih => exact (ih _).trans rfl

theorem vget_mapStacks {f : Nat → Stack → Stack} (hf : ∀ k t, f k (f k t) = f k t) (ks : List Nat) (vs : Vector Stack 4) (j : Nat) :
    vget (mapStacks f ks vs) j Stack.reset = if j ∈ ks ∧ j < 4 then f j (vget vs j Stack.reset) else vget vs j Stack.reset := by
  induction ks generalizing vs with
  | nil => exact (if_neg (by simp)).symm
  | cons k ks ih =>
    rw [mapStacks, List.foldl_cons, ← mapStacks, ih, vget_vset]
    by_cases hkj : k = j ∧ k < 4
    · obtain ⟨rfl, hlt⟩ := hkj
      rw [if_pos (show k = k ∧ k < 4 from ⟨rfl, hlt⟩), if_pos (show k ∈ k :: ks ∧ k < 4 from ⟨List.mem_cons_self, hlt⟩), hf]
      exact ite_self _
    · rw [if_neg hkj]
      refine if_congr ?_ rfl rfl
      rw [List.mem_cons]
      exact ⟨fun h => ⟨.inr h.1, h.2⟩, fun h => ⟨h.1.resolve_left fun hj => hkj ⟨hj.symm, hj ▸ h.2⟩, h.2⟩⟩

/-- Stacks with some of them switched. -/
def setUps (b : Bool) (ks : List Nat) (vs : Vector Stack 4) : Vector Stack 4 := mapStacks (fun _ => Stack.setUp b) ks vs

theorem State.setUp_eq (b : Bool) (ks : List Nat) (s : State) :
    ks.foldl (fun s k => s.modStack k fun t => { t with up := b }) s = { s with stks := setUps b ks s.stks } :=
  State.modStacks_eq (fun _ => Stack.setUp b) ks s

theorem vget_setUps (b : Bool) (ks : List Nat) (vs : Vector Stack 4) (j : Nat) :
    vget (setUps b ks vs) j Stack.reset = if j ∈ ks ∧ j < 4 then (vget vs j Stack.reset).setUp b else vget vs j Stack.reset :=
  vget_mapStacks (f := fun _ => Stack.setUp b) (fun _ _ => rfl) ks vs j

/-! ## A reset of stacks (R306) -/

/-- A reset of one stack ends its strands and drops what it has in flight; nothing else than the tasks and the stack's own state changes. -/
theorem State.resetStack_spec (s : State) (k : Nat) : ∃ ts ss fs,
    s.resetStack k = { s with tasks := ts, strands := ss, flight := fs, stks := vset s.stks k (s.stack k).cleared } ∧
      (∀ t ∈ ss, t ∈ s.strands ∧ t.stack ≠ k) ∧
      ∀ t ∈ s.strands, t.stack ≠ k → (∀ y ∈ s.strands, y.sid = t.sid → y.stack ≠ k) → t ∈ ss := by
  have hfold (xs : List Strand) : ∀ s : State, ∃ ts, xs.foldl (fun s t => s.resetStrand t) s =
      { s with tasks := ts, strands := s.strands.filter fun u => xs.all fun t => u.sid != t.sid } := by
    induction xs with
    | nil => exact fun s => ⟨s.tasks, by simp⟩
    | cons x xs ih =>
      intro s
      obtain ⟨ts, hts⟩ := ih (s.resetStrand x)
      refine ⟨ts, hts.trans ?_⟩
      simp only [State.resetStrand, State.noteEnd, List.filter_filter, List.all_cons]
      simp only [Bool.and_comm]
  obtain ⟨ts, hts⟩ := hfold (s.strands.filter fun t => t.stack == k && t.status != .ended) s
  refine ⟨ts, _, _, by rw [State.resetStack, hts]; rfl, fun t ht => ?_, fun t ht hk hother => ?_⟩
  · obtain ⟨ht, hk⟩ := List.mem_filter.1 ht
    exact ⟨(List.mem_filter.1 ht).1, by simpa using hk⟩
  · refine List.mem_filter.2 ⟨List.mem_filter.2 ⟨ht, List.all_eq_true.2 fun y hy => ?_⟩, by simpa using hk⟩
    obtain ⟨hy, hyk⟩ := List.mem_filter.1 hy
    have hyk : y.stack = k := by
      simp only [Bool.and_eq_true, beq_iff_eq] at hyk
      exact hyk.1
    rw [bne_iff_ne]
    exact fun hsid => hother y hy hsid.symm hyk

/-- So do resets of stacks one after another. -/
theorem State.resetStacks_spec (ks : List Nat) (s : State) : ∃ ts ss fs vs,
    ks.foldl State.resetStack s = { s with tasks := ts, strands := ss, flight := fs, stks := vs } ∧
      ∀ t ∈ ss, t ∈ s.strands ∧ t.stack ∉ ks := by
  induction ks generalizing s with
  | nil => exact ⟨s.tasks, s.strands, s.flight, s.stks, rfl, fun t ht => ⟨ht, List.not_mem_nil⟩⟩
  | cons k ks ih =>
    obtain ⟨ts, ss, fs, hone, hkept, -⟩ := s.resetStack_spec k
    obtain ⟨ts', ss', fs', vs', hrest, hkept'⟩ := ih (s.resetStack k)
    refine ⟨ts', ss', fs', vs', by rw [List.foldl_cons, hrest, hone], fun t ht => ?_⟩
    obtain ⟨ht, hks⟩ := hkept' t ht
    rw [hone] at ht
    obtain ⟨ht, hk⟩ := hkept t ht
    exact ⟨ht, by simp [hk, hks]⟩

theorem State.beginReset_refused {s : State} (ks : List Nat) (whole : Bool) (h : s.wholeReset = true ∨ s.powered = false) :
    s.beginReset ks whole = s := by
  rw [State.beginReset, if_pos]
  rcases h with h | h <;> simp [h]

/-- The reset that is under way once one of stacks has begun. -/
def State.begun (s : State) (ks : List Nat) (whole : Bool) : Resetting :=
  { parts := match s.resetting with
      | some r => r.parts ++ ks
      | none => ks
    whole, stop := s.wtime + if whole then Config.hostDelay s.freeCtr % 10000001 else Config.hostDelay s.freeCtr }

theorem State.mem_begun {s : State} {ks : List Nat} {whole : Bool} {k : Nat} (hk : k ∈ ks) : k ∈ (s.begun ks whole).parts := by
  unfold State.begun
  split
  · exact List.mem_append_right _ hk
  · exact hk

/-- A function-level reset ends in time (R307). -/
theorem State.begun_stop (s : State) (ks : List Nat) (whole : Bool) :
    s.wtime ≤ (s.begun ks whole).stop ∧ (whole = true → (s.begun ks whole).stop ≤ s.wtime + 10000000) := by
  refine ⟨Nat.le_add_right .., fun hwhole => ?_⟩
  have := Nat.mod_lt (Config.hostDelay s.freeCtr) (show 10000001 > 0 by omega)
  simp only [State.begun, hwhole, if_true]
  omega

theorem State.beginReset_eq {s : State} (ks : List Nat) (whole : Bool) (hwhole : s.wholeReset = false) (hpower : s.powered = true) :
    s.beginReset ks whole = { ks.foldl State.resetStack s with
      stks := setUps false ks (ks.foldl State.resetStack s).stks, resetting := some (s.begun ks whole), freeCtr := s.freeCtr + 1 } := by
  obtain ⟨ts, ss, fs, vs, hreset, -⟩ := s.resetStacks_spec ks
  rw [State.beginReset, if_neg (by simp [hwhole, hpower])]
  simp only [State.setUp_eq, hreset]
  rfl

/-- A reset of stacks, once accepted: its strands have ended and its stacks are down; memory, the contexts, the queues and the units' power
states stand. -/
theorem State.beginReset_spec {s : State} (ks : List Nat) (whole : Bool) (hwhole : s.wholeReset = false) (hpower : s.powered = true) :
    ∃ ts ss fs vs, s.beginReset ks whole = { s with
        tasks := ts, strands := ss, flight := fs, stks := vs, resetting := some (s.begun ks whole), freeCtr := s.freeCtr + 1 } ∧
      (∀ t ∈ ss, t ∈ s.strands ∧ t.stack ∉ ks) ∧ ∀ k ∈ ks, k < 4 → (vget vs k Stack.reset).up = false := by
  obtain ⟨ts, ss, fs, vs, hreset, hkept⟩ := s.resetStacks_spec ks
  refine ⟨ts, ss, fs, setUps false ks vs, by rw [State.beginReset_eq ks whole hwhole hpower, hreset], hkept, fun k hk hlt => ?_⟩
  rw [vget_setUps, if_pos ⟨hk, hlt⟩]
  rfl

/-- Only the numbers below 4 are those of stacks. -/
theorem four_le_of_not_mem_range {n : Nat} (h : n ∉ List.range 4) : 4 ≤ n := by simpa using h

/-! ## The end of a function-level reset (R307) -/

section
variable {s : State} {r : Resetting} (hr : s.resetting = some r)
include hr

theorem State.endReset_eq : s.endReset =
    if r.whole then { ({ s with stks := setUps true r.parts s.stks, resetting := none } : State).clearHost with
      stks := (setUps true r.parts s.stks).map Stack.clearHost, power := s.power.filter fun u => u.1 == 2 && s.tripped.contains u.2.1 }
    else { s with stks := setUps true r.parts s.stks, resetting := none } := by
  simp only [State.endReset, hr, State.setUp_eq]

/-- What a reset does as it ends does not turn on the schedule. -/
theorem State.endReset_todo (js : List Job) : ({ s with todo := js } : State).endReset = { s.endReset with todo := js } := by
  rw [State.endReset_eq hr, State.endReset_eq (s := { s with todo := js }) hr]
  split <;> rfl

theorem State.endReset_resetting : s.endReset.resetting = none ∧ s.endReset.todo = s.todo := by
  rw [State.endReset_eq hr]
  split <;> exact ⟨rfl, rfl⟩

/-- A dispatcher's round in which a reset has come to its end is one after it has ended (R306). -/
theorem State.step_endReset {js : List Job} (htodo : s.todo = .dispatch :: js) (hover : r.stop ≤ s.wtime) : step s = step s.endReset := by
  obtain ⟨hnone, hsame⟩ := State.endReset_resetting hr
  have hends : ({ s with todo := js } : State).resetOver = true := by simp [State.resetOver, hr, hover]
  have hended : ({ s.endReset with todo := js } : State).resetOver = false := by simp [State.resetOver, hnone]
  have hbefore : (if ({ s with todo := js } : State).resetOver then ({ s with todo := js } : State).endReset else { s with todo := js }) =
      { s.endReset with todo := js } := by
    rw [if_pos hends, State.endReset_todo hr]
  have hafter : (if ({ s.endReset with todo := js } : State).resetOver then ({ s.endReset with todo := js } : State).endReset
      else { s.endReset with todo := js }) = { s.endReset with todo := js } := by
    rw [if_neg (by simp only [hended, Bool.false_eq_true, not_false_eq_true])]
  have hdispatch : ({ s with todo := js } : State).dispatch = ({ s.endReset with todo := js } : State).dispatch := by
    simp only [State.dispatch]
    rw [hbefore, hafter]
  simp only [step, htodo, hsame, State.runJob, hdispatch]

end

/-- What a function-level reset leaves as it ends (R306, R307, R322). -/
theorem State.endReset_spec {s : State} {r : Resetting} (hr : s.resetting = some r) (hwhole : r.whole = true) :
    let u := s.endReset
    u.resetting = none ∧ u.contexts = [] ∧ u.waiting = [] ∧ u.tasks = [] ∧ u.replays = [] ∧ (∀ n < 64, u.queue n = HostQueue.reset) ∧
    u.ctxtab = 0 ∧ u.pecmd = 0 ∧ u.linkgrace = 10000000 ∧ u.devevt = 0 ∧ u.mem = s.mem ∧
    (∀ p, p ∈ u.power ↔ p ∈ s.power ∧ p.1 = 2 ∧ p.2.1 ∈ s.tripped) ∧
    ∀ k < 4, (u.stack k).pwrenv = pwrenvReset ∧ (u.stack k).crashcnt = 0 ∧ (k ∈ r.parts → (u.stack k).up = true) := by
  intro u
  have hu : u = _ := (State.endReset_eq hr).trans (if_pos hwhole)
  have hstack (k : Nat) (hk : k < 4) : u.stack k = (vget (setUps true r.parts s.stks) k Stack.reset).clearHost := by
    rw [hu]
    simp [State.stack, vget, hk]
  rw [hu] at hstack ⊢
  refine ⟨rfl, rfl, rfl, rfl, rfl, fun n _ => State.reset_queue n, rfl, rfl, rfl, rfl, rfl, fun p => ?_, fun k hk => ?_⟩
  · simp only [List.mem_filter, Bool.and_eq_true, beq_iff_eq, List.contains_eq_mem, decide_eq_true_iff]
  · rw [hstack k hk]
    refine ⟨rfl, rfl, fun hpart => ?_⟩
    rw [vget_setUps, if_pos ⟨hpart, hk⟩]
    rfl

/-! ## Resets of the whole device (R306, R319) -/

theorem Sparse.get_filter {w : Nat} (keep : Nat → Bool) (m : Sparse w) (a : Nat) :
    Sparse.get (m.filter fun c => keep c.1) a = if keep a = true then Sparse.get m a else 0 := by
  induction m with
  | nil => simp [Sparse.get]
  | cons c m ih =>
    rw [List.filter_cons]
    by_cases hc : c.1 = a
    · subst hc
      cases hk : keep c.1
      · simpa [hk] using ih
      · simp [Sparse.get]
    · have hget : Sparse.get (c :: m) a = Sparse.get m a := by simp [Sparse.get, hc]
      split
      · simp only [Sparse.get, beq_eq_false_iff_ne.2 hc, Bool.false_eq_true, if_false, ih]
      · rw [ih, hget]

theorem State.wholeReset_iff {s : State} : s.wholeReset = true ↔ ∃ r, s.resetting = some r ∧ r.whole = true := by
  rw [State.wholeReset, Option.any_eq_true]

/-- What an island reset does to a reset under way: a function-level one is over, and its stacks run. -/
theorem State.superseded_eq (s : State) : ∃ vs rs, s.superseded = { s with stks := vs, resetting := rs } ∧
    ({ s with stks := vs, resetting := rs } : State).wholeReset = false ∧ (s.wholeReset = false → vs = s.stks) := by
  by_cases hwhole : s.wholeReset = true
  · obtain ⟨r, hr, hrw⟩ := State.wholeReset_iff.1 hwhole
    refine ⟨setUps true r.parts s.stks, none, ?_, rfl, fun h => absurd hwhole (by rw [h]; exact Bool.false_ne_true)⟩
    simp only [State.superseded, hr, hrw, if_true, State.setUp_eq]
  · refine ⟨s.stks, s.resetting, ?_, Bool.eq_false_iff.2 hwhole, fun _ => rfl⟩
    unfold State.superseded
    split
    · rfl
    · next r hr => exact if_neg fun hrw => hwhole (State.wholeReset_iff.2 ⟨r, hr, hrw⟩)

/-- The island's state cleared, its link up or not. -/
def State.islandCleared (s : State) (up : Bool) : State :=
  { s.clearHost with
    routes := [], ports := State.reset.ports, portReplays := State.reset.portReplays, doorbells := State.reset.doorbells, errs := [],
    linkUp := up }

/-! ## The loss of the link and the trip (R308, R322) -/

theorem foldl_strands {α : Type} {f : State → α → State} (hf : ∀ u x, ∃ ss, f u x = { u with strands := ss }) (xs : List α) (u : State) :
    ∃ ss, xs.foldl f u = { u with strands := ss } := by
  induction xs generalizing u with
  | nil => exact ⟨u.strands, rfl⟩
  | cons x xs ih =>
    obtain ⟨ss, hone⟩ := hf u x
    obtain ⟨ss', hrest⟩ := ih (f u x)
    exact ⟨ss', by rw [List.foldl_cons, hrest, hone]⟩

/-- The open accesses of host memory that fail change their strands, and what is in flight to the host is gone (R308). -/
theorem State.failHostEntries_eq (s : State) : ∃ ss,
    s.failHostEntries = { s with flight := s.flight.filter fun f => !f.toHost, strands := ss } := by
  unfold State.failHostEntries
  obtain ⟨ss, h⟩ := foldl_strands (f := fun u (t : Strand) => t.contexts.foldl (fun u r => match s.qview r with
      | none => u
      | some q => [QName.lq, QName.sq].foldl (fun u n => ((q.cl.queue n).entries.filter Entry.open_).foldl (fun u e =>
          match s.qview r, u.qview r with
          | some q, some q' => (match s.hostSite q e with
            | some a => q'.fail u n e (cHost, 0) a
            | none => u)
          | _, _ => u) u) u) u)
    (fun u t => foldl_strands (fun u r => by
      split
      · exact ⟨u.strands, rfl⟩
      · exact foldl_strands (fun u n => foldl_strands (fun u e => by
          split
          · split
            · exact ⟨_, rfl⟩
            · exact ⟨u.strands, rfl⟩
          · exact ⟨u.strands, rfl⟩) _ u) _ u) _ u)
    (s.strands.filter fun t => t.status != .ended) { s with flight := s.flight.filter fun f => !f.toHost }
  exact ⟨ss, h⟩

/-- Host queues that halt one after another with no packet named (R32). -/
theorem State.haltUnnamed_spec (cause : Nat) (ks : List Nat) (s : State) : ∃ qs ev ms fc,
    ks.foldl (fun s n => s.haltUnnamed n cause) s = { s with queues := qs, ctxevt := ev, msix := ms, freeCtr := fc } ∧
      ∀ n < 64, (n ∈ ks ∨ (s.queue n).halted = true ∧ (s.queue n).cause = cause) →
        (vget qs n HostQueue.reset).halted = true ∧ (vget qs n HostQueue.reset).cause = cause := by
  induction ks generalizing s with
  | nil => exact ⟨s.queues, s.ctxevt, s.msix, s.freeCtr, rfl, fun n _ h => by simpa [State.queue] using h⟩
  | cons k ks ih =>
    obtain ⟨qs, ev, ms, fc, hrest, hhalted⟩ := ih (s.haltUnnamed k cause)
    refine ⟨qs, ev, ms, fc, hrest, fun n hn h => hhalted n hn ?_⟩
    have hqueue : (s.haltUnnamed k cause).queue n = (s.haltQueue k cause (Config.unnamed s.freeCtr) false).queue n := rfl
    rw [hqueue, State.queue_haltQueue]
    by_cases hk : k = n
    · exact .inr (by rw [if_pos ⟨hk, hk ▸ hn⟩]; exact ⟨rfl, rfl⟩)
    · rw [if_neg (by tauto)]
      exact h.imp_left fun h => (List.mem_cons.1 h).resolve_left fun h => hk h.symm

/-- The device with its link lost, before its host queues halt. -/
def State.unlinked (s : State) : State :=
  State.raiseDev { s.failHostEntries with linkUp := false, linkLost := true, lostAt := some s.wtime } 0

theorem execSurpriseLinkLoss_eq {s : State} (hup : s.linkUp = true) :
    exec .surpriseLinkLoss s = .next ((List.range 64).foldl (fun s n => s.haltUnnamed n 9) s.unlinked) := by
  change execSurpriseLinkLoss s = _
  rw [execSurpriseLinkLoss, if_neg (by simp [hup])]
  generalize List.range 64 = ks
  rfl

theorem execSurpriseLinkLoss_spec {s : State} (hup : s.linkUp = true) : ∃ u, exec .surpriseLinkLoss s = .next u ∧ u.linkUp = false ∧
    u.linkLost = true ∧ u.lostAt = some s.wtime ∧ u.devevt.getLsbD 0 = true ∧ u.mem = s.mem ∧
    (∀ f ∈ u.flight, f ∈ s.flight ∧ ∀ c ∈ f.cells, isHost c.1 = false) ∧ ∀ n < 64, (u.queue n).halted = true ∧ (u.queue n).cause = 9 := by
  obtain ⟨ss, hfail⟩ := s.failHostEntries_eq
  obtain ⟨qs, ev, ms, fc, hhalt, hhalted⟩ := State.haltUnnamed_spec 9 (List.range 64) s.unlinked
  refine ⟨_, (execSurpriseLinkLoss_eq hup).trans (congrArg Host.Outcome.next hhalt), rfl, rfl, ?_, ?_, ?_, fun f hf => ?_,
    fun n hn => hhalted n hn (.inl (List.mem_range.2 hn))⟩
  · simp only [State.unlinked, hfail, State.raiseDev]
  · simp [State.unlinked, State.raiseDev]
  · simp only [State.unlinked, hfail, State.raiseDev]
  · simp only [State.unlinked, hfail, State.raiseDev] at hf
    obtain ⟨hmem, hhost⟩ := List.mem_filter.1 hf
    exact ⟨hmem, by simpa [Flight.toHost] using hhost⟩

/-- A strand asked to hold does so at its beat where it waits for anything but a return, outside a shadow and a handler. -/
theorem Strand.askHold_eq (t : Strand) : t.askHold = { t with
    holdReq := true, holdAt := if (t.freeze.any fun f => f.why != .ret) = true ∧ t.inShadow = false ∧ t.handling = false then some t.beat else none } := by
  unfold Strand.askHold
  cases t.freeze <;> simp [and_assoc]

/-- The grace is over: every strand that runs is asked to hold (R308). -/
theorem execLinkgraceExpiry_eq {s : State} {t0 : Nat} (hlost : s.lostAt = some t0) (hholding : s.linkHolding = false)
    (hgrace : t0 + s.linkgrace.toNat ≤ s.wtime) : exec .linkgraceExpiry s =
      .next { s with linkHolding := true, strands := s.strands.map fun t =>
        if t.status = .ended ∨ t.status = .held ∨ t.holdReq = true then t
        else
          let waits := (t.freeze.any fun f => f.why != .ret) = true ∧ t.inShadow = false ∧ t.handling = false
          { t with holdReq := true, linkHeld := true, holdAt := if waits then some t.beat else none } } := by
  have hask (t : Strand) : (if t.status == .ended || t.status == .held || t.holdReq then t else { t.askHold with linkHeld := true }) =
      if t.status = .ended ∨ t.status = .held ∨ t.holdReq = true then t
      else { t with
        holdReq := true, linkHeld := true,
        holdAt := if (t.freeze.any fun f => f.why != .ret) = true ∧ t.inShadow = false ∧ t.handling = false then some t.beat else none } := by
    refine if_congr (by simp [or_assoc]) rfl ?_
    rw [Strand.askHold_eq]
  change execLinkgraceExpiry s = _
  rw [execLinkgraceExpiry, hlost]
  simp only [hholding, Bool.false_or, hask]
  rw [if_neg (by simpa using hgrace)]

/-- R306: a stack reset ends the stack's strands and clears the stack; the other stacks stand. -/
theorem execStackReset_spec {s : State} {k : Nat} (hk : k < 4) (hwhole : s.wholeReset = false) (hpower : s.powered = true) :
    ∃ u r, exec (.stackReset k) s = .next u ∧ (∀ t ∈ u.strands, t.stack ≠ k) ∧
      (∀ t ∈ s.strands, t.stack ≠ k → (∀ y ∈ s.strands, y.sid = t.sid → y.stack ≠ k) → t ∈ u.strands) ∧
      u.mem = s.mem ∧ u.contexts = s.contexts ∧ u.queues = s.queues ∧ (u.stack k).cyc = 0 ∧ (u.stack k).tlb = [] ∧
      (u.stack k).up = false ∧ (u.stack k).pwrenv = (s.stack k).pwrenv ∧ (∀ j, j ≠ k → u.stack j = s.stack j) ∧
      u.resetting = some r ∧ k ∈ r.parts ∧ r.whole = false ∧ s.wtime ≤ r.stop := by
  obtain ⟨ts, ss, fs, hone, hends, hkept⟩ := s.resetStack_spec k
  have hreset : s.beginReset [k] false = { s with
      tasks := ts, strands := ss, flight := fs, stks := setUps false [k] (vset s.stks k (s.stack k).cleared),
      resetting := some (s.begun [k] false), freeCtr := s.freeCtr + 1 } := by
    rw [State.beginReset_eq [k] false hwhole hpower, List.foldl_cons, List.foldl_nil, hone]
  have hstack (j : Nat) : vget (setUps false [k] (vset s.stks k (s.stack k).cleared)) j Stack.reset =
      if j = k then (s.stack k).cleared.setUp false else s.stack j := by
    rw [vget_setUps, vget_vset]
    by_cases hj : j = k
    · subst hj
      simp [hk]
    · rw [if_neg (by simp [hj]), if_neg (by omega), if_neg hj, State.stack]
  have hself := (hstack k).trans (if_pos rfl)
  refine ⟨_, s.begun [k] false, (congrArg Host.Outcome.next (if_pos hk)).trans (congrArg Host.Outcome.next hreset), fun t ht => (hends t ht).2, hkept,
    rfl, rfl, rfl, ?_, ?_, ?_, ?_, fun j hj => (hstack j).trans (if_neg hj), rfl, State.mem_begun List.mem_cons_self, rfl, (s.begun_stop _ _).1⟩
  · exact congrArg Stack.cyc hself
  · exact congrArg Stack.tlb hself
  · exact congrArg Stack.up hself
  · exact (congrArg Stack.pwrenv hself).trans rfl

/-- R322: after the trip every stack is off, and every strand has ended. -/
theorem execThermalSafetyTrip_spec (s : State) : ∃ u, exec .thermalSafetyTrip s = .next u ∧ (∀ t ∈ u.strands, 4 ≤ t.stack) ∧
    (∀ k < 4, u.powerOf 2 k = .off ∧ k ∈ u.tripped) ∧ u.devevt.getLsbD 1 = true ∧ u.mem = s.mem ∧ u.contexts = s.contexts := by
  obtain ⟨ts, ss, fs, vs, hreset, hkept⟩ := State.resetStacks_spec (List.range 4) s
  refine ⟨_, congrArg (fun u : State => Host.Outcome.next (State.raiseDev { u with
    power := (List.range 4).map (fun k => (2, k, Power.off)) ++ u.power.filter fun p => p.1 != 2, tripped := [0, 1, 2, 3] } 1)) hreset,
    fun t ht => four_le_of_not_mem_range (hkept t ht).2, fun k hk => ?_, ?_, rfl, rfl⟩
  · refine ⟨?_, List.mem_range.2 hk⟩
    interval_cases k <;> rfl
  · simp [State.raiseDev]

/-- Settles O52: each reset, and what it ends and keeps, by the lemma on it. -/
theorem resetsAndTheLink : Obligations.ResetsAndTheLink := by
  unfold Obligations.ResetsAndTheLink
  intro s none_
  refine ⟨fun hoff i hi => ?_, fun hwhole hpower => ⟨fun k hk => execStackReset_spec hk hwhole hpower, ?_, ?_⟩,
    fun r hr hwhole => ⟨fun js htodo hover => State.step_endReset hr htodo hover, State.endReset_spec hr hwhole⟩, ?_, ?_, ?_, execSurpriseLinkLoss_spec, fun t0 hlost hholding hgrace =>
    execLinkgraceExpiry_eq hlost hholding hgrace, fun hdown => ?_, execThermalSafetyTrip_spec s⟩
  · have hrefused := fun ks whole => State.beginReset_refused (s := s) ks whole hoff
    simp only [none_, List.mem_cons, List.not_mem_nil, or_false] at hi
    rcases hi with rfl | rfl | rfl | rfl | rfl | rfl <;> exact congrArg Host.Outcome.next (hrefused _ _)
  · obtain ⟨ts, ss, fs, vs, hreset, hkept, hup⟩ := State.beginReset_spec (List.range 4) false hwhole hpower
    exact ⟨_, s.begun (List.range 4) false, congrArg Host.Outcome.next hreset, fun t ht => four_le_of_not_mem_range (hkept t ht).2, rfl, rfl, rfl, rfl,
      fun k hk => hup k (List.mem_range.2 hk) hk, rfl, fun k hk => State.mem_begun (List.mem_range.2 hk), rfl⟩
  · obtain ⟨ts, ss, fs, vs, hreset, hkept, hup⟩ := State.beginReset_spec (List.range 4) true hwhole hpower
    exact ⟨_, s.begun (List.range 4) true, congrArg Host.Outcome.next hreset, fun t ht => four_le_of_not_mem_range (hkept t ht).2, rfl,
      fun k hk => hup k (List.mem_range.2 hk) hk, rfl, fun k hk => State.mem_begun (List.mem_range.2 hk), rfl, (s.begun_stop _ _).2 rfl⟩
  · exact ⟨_, rfl, rfl, rfl, rfl, rfl, rfl, fun a => Sparse.get_filter isHost s.mem a, rfl, rfl, rfl, rfl, rfl, rfl, rfl, rfl, rfl⟩
  · refine ⟨_, rfl, rfl, rfl, fun k hk => ?_, rfl, rfl, rfl⟩
    simp [State.stack, vget, hk]
  · obtain ⟨vs, rs, hsup, hwhole, hstks⟩ := s.superseded_eq
    exact ⟨_, congrArg (fun u : State => Host.Outcome.next (u.islandCleared s.powered)) hsup, rfl, rfl, rfl, rfl,
      fun n _ => State.reset_queue n, rfl, rfl, rfl, rfl, hwhole, hstks⟩
  · change execLinkRetrain s = _
    rw [execLinkRetrain, hdown]
    rfl

end Sys2Proof.Machine
end

section
/-! Power and errors: the envelope, the governor, energy, droop, power commands, counted errors and fences (R272 to R279, R290, R292, R321). -/

namespace Sys2Proof.Machine

theorem accepted_of {s : State} (h : s.wholeReset = false) (f : State → Host.Outcome State Fault Refusal) : accepted s f = f s :=
  if_neg (by simp [h])

/-! ## The envelope (R273) -/

theorem pwrenvBad_iff (w : W64) : pwrenvBad w = false ↔ fld w.toNat 12 4 = 0 ∧ fld w.toNat 52 12 = 0 ∧ fld w.toNat 0 4 ≤ fld w.toNat 8 4 ∧
    fld w.toNat 8 4 ≤ fld w.toNat 4 4 ∧ 60 ≤ fld w.toNat 32 8 ∧ fld w.toNat 32 8 ≤ 105 := by
  simp only [pwrenvBad, Bool.or_eq_false_iff, bne_eq_false_iff_eq, decide_eq_false_iff_not, not_lt]
  constructor
  · rintro ⟨⟨⟨⟨⟨⟨hlow, hhigh⟩, -⟩, hmin⟩, hmax⟩, hcold⟩, hhot⟩
    exact ⟨hlow, hhigh, hmin, hmax, hcold, hhot⟩
  · rintro ⟨hlow, hhigh, hmin, hmax, hcold, hhot⟩
    exact ⟨⟨⟨⟨⟨⟨hlow, hhigh⟩, hmin.trans hmax⟩, hmin⟩, hmax⟩, hcold⟩, hhot⟩

theorem execPwrenv_taken {s : State} (k : Nat) {w : W64} (hs : s.wholeReset = false) (hw : pwrenvBad w = false) :
    exec (.pwrenv k w) s = .next (s.modStack k fun t => { t with pwrenv := w, refused := false }) := by
  change execPwrenv k w s = _
  rw [execPwrenv, accepted_of hs]
  simp only [hw, Bool.false_eq_true, if_false]

theorem execPwrenv_refused {s : State} (k : Nat) {w : W64} (hs : s.wholeReset = false) (hw : ¬ pwrenvBad w = false) :
    exec (.pwrenv k w) s = .next (s.modStack k fun t => { t with refused := true }) := by
  change execPwrenv k w s = _
  rw [execPwrenv, accepted_of hs]
  simp only [Bool.not_eq_false] at hw
  simp only [hw, if_true]

/-! ## What an evaluation of the governor chooses (R275, R279) -/

/-- The thermal stretch after an evaluation of a stack. -/
def State.slowed (s : State) (k : Nat) : Nat :=
  thermalNext (s.stack k).thermal (Config.junction k s.wtime) (fld (s.stack k).pwrenv.toNat 32 8)

/-- The Ceiling after it. -/
def State.capped (s : State) (k : Nat) : Nat := ceilingNext (s.stack k).ceiling (fld (s.stack 0).pwrenv.toNat 16 16) s.powerAvg

/-- The point that a declaration of a stack needs. -/
def State.needed (s : State) (k : Nat) (x : Strand × Declaration) : Nat := declPoint s.wtime (s.slowed k) x.1 x.2

/-- The point that a stack wants. -/
def State.wanted (s : State) (k : Nat) : Nat :=
  if (s.declared k).isEmpty then fld (s.stack k).pwrenv.toNat 8 4
  else max (((s.declared k).map (s.needed k)).foldl max 0) (fld (s.stack k).pwrenv.toNat 0 4)

/-- The highest point that a stack may take. -/
def State.topped (s : State) (k : Nat) : Nat := min (fld (s.stack k).pwrenv.toNat 4 4) (s.capped k)

theorem State.capped_eq (s : State) (k : Nat) : s.capped k =
    if (s.stack 0).pwrenv.toNat / 2 ^ 16 % 2 ^ 16 = 0 then 15
    else if (s.stack 0).pwrenv.toNat / 2 ^ 16 % 2 ^ 16 < s.powerHist.sum then (s.stack k).ceiling - 1
    else if 10 * s.powerHist.sum < 9 * ((s.stack 0).pwrenv.toNat / 2 ^ 16 % 2 ^ 16) then min 15 ((s.stack k).ceiling + 1)
    else (s.stack k).ceiling := by
  simp only [State.capped, ceilingNext, State.powerAvg, ← List.sum_eq_foldl_nat, fld, beq_iff_eq]

/-- A declaration's beats come in before its deadline at a point, under a thermal stretch. -/
def Meets (now slow : Nat) (t : Strand) (d : Declaration) (p : Nat) : Prop :=
  now < d.due ∧ d.left * t.stride * slow * 100 ≤ 8 * (d.due - now) * (60 + 6 * p)

/-- The lowest point at which they do, or 16. -/
def Lowest (now slow : Nat) (t : Strand) (d : Declaration) (p : Nat) : Prop :=
  p ≤ 16 ∧ (p < 16 → Meets now slow t d p) ∧ ∀ q < p, ¬ Meets now slow t d q

theorem Lowest.unique {now slow : Nat} {t : Strand} {d : Declaration} {p q : Nat} (hp : Lowest now slow t d p) (hq : Lowest now slow t d q) :
    p = q := by
  obtain ⟨hp16, hpfast, hpleast⟩ := hp
  obtain ⟨hq16, hqfast, hqleast⟩ := hq
  rcases Nat.lt_trichotomy p q with h | h | h
  · exact absurd (hpfast (by omega)) (hqleast p h)
  · exact h
  · exact absurd (hqfast (by omega)) (hpleast q h)

theorem lowest_declPoint (now slow : Nat) (t : Strand) (d : Declaration) : Lowest now slow t d (declPoint now slow t d) := by
  unfold declPoint
  split
  · next hdue => exact ⟨le_rfl, fun h => absurd h (lt_irrefl _), fun q _ h => absurd h.1 (by omega)⟩
  · next hdue =>
    have hdue : now < d.due := by omega
    rcases hfind : (List.range 16).find? fun k => decide (d.left * t.stride * slow * 100 ≤ 8 * (d.due - now) * (60 + 6 * k)) with _ | p
    · rw [List.find?_range_eq_none] at hfind
      refine ⟨le_rfl, fun h => absurd h (lt_irrefl _), fun q hq h => ?_⟩
      simpa [h.2] using hfind q hq
    · obtain ⟨hp, hlt, hleast⟩ := List.find?_range_eq_some.1 hfind
      refine ⟨(List.mem_range.1 hlt).le, fun _ => ⟨hdue, by simpa using hp⟩, fun q hq h => ?_⟩
      simpa [h.2] using hleast q hq

/-- A strand of a stack, not ended, declares. -/
def State.Declares (s : State) (k : Nat) (t : Strand) (d : Declaration) : Prop :=
  t ∈ s.strands ∧ t.stack = k ∧ t.status ≠ .ended ∧ t.decl = some d

theorem State.mem_declared (s : State) (k : Nat) (t : Strand) (d : Declaration) : (t, d) ∈ s.declared k ↔ s.Declares k t d := by
  simp only [State.declared, State.Declares, List.mem_filterMap, List.mem_filter, Strand.admittedOn, Bool.and_eq_true, beq_iff_eq, bne_iff_ne,
    Option.map_eq_some_iff, Prod.mk.injEq]
  constructor
  · rintro ⟨x, ⟨hx, hstack, hstatus⟩, e, he, rfl, rfl⟩
    exact ⟨hx, hstack, hstatus, he⟩
  · rintro ⟨ht, hstack, hstatus, hd⟩
    exact ⟨t, ⟨ht, hstack, hstatus⟩, d, hd, rfl, rfl⟩

theorem le_foldl_max {ns : List Nat} {n : Nat} (h : n ∈ ns) : n ≤ ns.foldl max 0 := by
  rw [List.foldl_max]
  cases hmax : ns.max? with
  | none => simp [List.max?_eq_none_iff.1 hmax] at h
  | some m => exact ((List.max?_eq_some_iff.1 hmax).2 n h).trans (by simp)

theorem foldl_max_mem (ns : List Nat) : ns.foldl max 0 = 0 ∨ ns.foldl max 0 ∈ ns := by
  rw [List.foldl_max]
  cases hmax : ns.max? with
  | none => exact .inl (by simp)
  | some m => exact .inr (by simpa using (List.max?_eq_some_iff.1 hmax).1)

/-- A stack with no declaration wants its Default. -/
theorem State.wanted_none {s : State} {k : Nat} (h : ∀ t d, ¬ s.Declares k t d) : s.wanted k = fld (s.stack k).pwrenv.toNat 8 4 := by
  have hnone : s.declared k = [] := List.eq_nil_iff_forall_not_mem.2 fun ⟨t, d⟩ hx => h t d ((s.mem_declared k t d).1 hx)
  rw [State.wanted, hnone, List.isEmpty_nil, if_pos rfl]

/-- One with declarations wants the highest of the points that they need, and no less than Min. -/
theorem State.wanted_some {s : State} {k : Nat} (h : ∃ t d, s.Declares k t d) : fld (s.stack k).pwrenv.toNat 0 4 ≤ s.wanted k ∧
    (∀ t d, s.Declares k t d → ∃ p, Lowest s.wtime (s.slowed k) t d p ∧ p ≤ s.wanted k) ∧
    (s.wanted k = fld (s.stack k).pwrenv.toNat 0 4 ∨ ∃ t d, s.Declares k t d ∧ Lowest s.wtime (s.slowed k) t d (s.wanted k)) := by
  obtain ⟨t0, d0, h0⟩ := h
  have hwant : s.wanted k = max (((s.declared k).map (s.needed k)).foldl max 0) (fld (s.stack k).pwrenv.toNat 0 4) := by
    refine if_neg fun hempty => ?_
    rw [List.isEmpty_iff] at hempty
    simpa [hempty] using (s.mem_declared k t0 d0).2 h0
  rw [hwant]
  refine ⟨le_max_right .., fun t d hd => ⟨_, lowest_declPoint .., (le_foldl_max (List.mem_map_of_mem (f := s.needed k) ((s.mem_declared k t d).2 hd))).trans
    (le_max_left ..)⟩, ?_⟩
  rcases Nat.le_total (((s.declared k).map (s.needed k)).foldl max 0) (fld (s.stack k).pwrenv.toNat 0 4) with hle | hle
  · exact .inl (max_eq_right hle)
  · rw [max_eq_left hle]
    rcases foldl_max_mem ((s.declared k).map (s.needed k)) with hzero | hmem
    · exact .inl (by omega)
    · obtain ⟨⟨t, d⟩, hx, hneed⟩ := List.mem_map.1 hmem
      exact .inr ⟨t, d, (s.mem_declared k t d).1 hx, hneed ▸ lowest_declPoint ..⟩

/-! ## The declarations at risk (R245) -/

/-- A declaration that needs more than its stack may take is marked, and its strand told, once. -/
def State.flagRisk (top slow : Nat) (s : State) (x : Strand × Declaration) : State :=
  if top < declPoint s.wtime slow x.1 x.2 && !x.2.risk then
    (s.raiseA x.1.sid cRisk x.2.core x.2.cl).modStrand x.1.sid fun t => { t with decl := t.decl.map fun d => { d with risk := true } }
  else s

theorem State.flagRisk_rest (top slow : Nat) (s : State) (x : Strand × Declaration) : ∃ ss, s.flagRisk top slow x = { s with strands := ss } := by
  unfold State.flagRisk
  split
  · exact ⟨_, rfl⟩
  · exact ⟨s.strands, rfl⟩

/-- A strand with an identifier bears a declaration, at risk or not. -/
def State.Bears (s : State) (n : Nat) (d : Declaration) (b : Bool) : Prop := ∃ y ∈ s.strands, y.sid = n ∧ y.decl = some { d with risk := b }

/-- A declaration that is marked stays so, and the one that is looked at is marked where it needs more. -/
theorem State.Bears.flagRisk {s : State} {n : Nat} {d : Declaration} {b : Bool} (h : s.Bears n d b) (top slow : Nat) (x : Strand × Declaration) :
    ∃ b', (s.flagRisk top slow x).Bears n d b' ∧ (b = true → b' = true) ∧
      (x.1.sid = n → x.2.risk = false → top < declPoint s.wtime slow x.1 x.2 → b' = true) := by
  obtain ⟨y, hy, hsid, hdecl⟩ := h
  unfold State.flagRisk
  split
  · next hflag =>
    by_cases hx : x.1.sid = n
    · refine ⟨true, ⟨_, List.mem_map_of_mem (List.mem_map_of_mem hy), ?_, ?_⟩, fun _ => rfl, fun _ _ _ => rfl⟩
      all_goals simp [hsid, hx, hdecl, Strand.raise]
    · refine ⟨b, ⟨_, List.mem_map_of_mem (List.mem_map_of_mem hy), ?_, ?_⟩, id, fun h => absurd h hx⟩
      all_goals simp [hsid, Ne.symm hx, hdecl]
  · next hflag =>
    refine ⟨b, ⟨y, hy, hsid, hdecl⟩, id, fun _ hrisk hneed => absurd ?_ hflag⟩
    simp [hneed, hrisk]

/-- Once all of a stack's declarations have been looked at, each that needs more is marked. -/
theorem State.Bears.flagRisks {top slow : Nat} {t : Strand} {d : Declaration} (xs : List (Strand × Declaration)) {s : State} {b : Bool}
    (h : s.Bears t.sid d b) (hb : d.risk = true → b = true) (hneed : top < declPoint s.wtime slow t d) (hmem : (t, d) ∈ xs ∨ b = true) :
    (xs.foldl (State.flagRisk top slow) s).Bears t.sid d true := by
  induction xs generalizing s b with
  | nil => exact hmem.resolve_left List.not_mem_nil ▸ h
  | cons x xs ih =>
    obtain ⟨b', hbears, hkeep, hmark⟩ := h.flagRisk top slow x
    obtain ⟨ss, hrest⟩ := s.flagRisk_rest top slow x
    refine ih hbears (fun h => hkeep (hb h)) (by rw [hrest]; exact hneed) ?_
    rcases hmem with hmem | hmem
    · rcases List.mem_cons.1 hmem with rfl | hmem
      · cases hrisk : d.risk with
        | true => exact .inr (hkeep (hb hrisk))
        | false => exact .inr (hmark rfl hrisk hneed)
      · exact .inl hmem
    · exact .inr (hkeep hmem)

/-! ## An evaluation of the governor (R275, R279) -/

/-- The choice of the point that stands last is no change. -/
theorem Stack.decide_same {k : Stack} {point at_ : Nat} (h : point = (k.pointPending.getLast?.getD (k.point, 0)).1) :
    k.decide point at_ = k.pointPending := if_pos (by simp [h])

/-- Any other choice takes effect in time, after what was chosen before it. -/
theorem Stack.decide_new {k : Stack} {point at_ : Nat} (h : point ≠ (k.pointPending.getLast?.getD (k.point, 0)).1) :
    k.decide point at_ = k.pointPending ++ [(point, max at_ (k.pointPending.getLast?.getD (k.point, 0)).2)] :=
  if_neg (by simpa using fun h' => h h'.symm)

theorem Stack.decide_in_time {k : Stack} {n at_ : Nat} (hat : at_ ≤ n) (h : ∀ x ∈ k.pointPending, x.2 ≤ n) :
    max at_ (k.pointPending.getLast?.getD (k.point, 0)).2 ≤ n := by
  refine max_le hat ?_
  cases hlast : k.pointPending.getLast? with
  | none => exact Nat.zero_le _
  | some x => exact h x (List.mem_of_getLast? hlast)

/-- A stack after an evaluation. -/
def State.evaluated (s : State) (k : Nat) (t : Stack) : Stack :=
  { t with
    thermal := s.slowed k, ceiling := s.capped k, evalAt := s.wtime + 1000,
    pointPending := t.decide (min (s.wanted k) (s.topped k)) (s.wtime + 1 + Config.delay s.freeCtr % 2000) }

theorem execGovernorEvaluation_spec {s : State} {k : Nat} (hk : k < 4) (hdue : (s.stack k).evalAt ≤ s.wtime) : ∃ ss,
    exec (.governorEvaluation k) s = .next (State.modStack { s with strands := ss, freeCtr := s.freeCtr + 1 } k (s.evaluated k)) ∧
    ∀ t d, s.Declares k t d → s.topped k < s.needed k (t, d) → ∃ y ∈ ss, y.sid = t.sid ∧ y.decl = some { d with risk := true } := by
  obtain ⟨ss, hfold⟩ := foldl_strands (State.flagRisk_rest (s.topped k) (s.slowed k)) (s.declared k) s
  have hrun : exec (.governorEvaluation k) s = .next (((s.declared k).foldl (State.flagRisk (s.topped k) (s.slowed k)) s).fresh.2.modStack k fun t =>
      { t with
        thermal := s.slowed k, ceiling := s.capped k,
        evalAt := ((s.declared k).foldl (State.flagRisk (s.topped k) (s.slowed k)) s).wtime + 1000,
        pointPending := t.decide (min (s.wanted k) (s.topped k)) (((s.declared k).foldl (State.flagRisk (s.topped k) (s.slowed k)) s).wtime + 1 +
          ((s.declared k).foldl (State.flagRisk (s.topped k) (s.slowed k)) s).fresh.1 % 2000) }) := by
    refine if_neg ?_
    simp only [Bool.or_eq_true, decide_eq_true_eq]
    omega
  refine ⟨ss, by rw [hrun, hfold]; rfl, fun t d hd hneed => ?_⟩
  have hbears : s.Bears t.sid d d.risk := ⟨t, hd.1, rfl, hd.2.2.2⟩
  have := hbears.flagRisks (s.declared k) id hneed (.inl ((s.mem_declared k t d).2 hd))
  rw [hfold] at this
  exact this

/-! ## Droop (R278) -/

theorem vset_vget_self {α : Type} {n : Nat} (v : Vector α n) (i : Nat) (d : α) : vset v i (vget v i d) = v := by
  by_cases hi : i < n <;> simp [vset, vget, hi]

/-- A stack whose signatures are forgotten where a mask names it. -/
def Stack.forget (m : BitVec 4) (k : Nat) (t : Stack) : Stack := if bitAt m k then { t with droop := [] } else t

theorem Stack.forget_forget (m : BitVec 4) (k : Nat) (t : Stack) : (t.forget m k).forget m k = t.forget m k := by
  unfold Stack.forget
  split <;> rfl

theorem execDroopclr_spec {s : State} (m : BitVec 4) (hs : s.wholeReset = false) : ∃ u, exec (.droopclr m) s = .next u ∧
    u = { s with stks := u.stks } ∧ ∀ k < 4, u.stack k = if m.getLsbD k then { s.stack k with droop := [] } else s.stack k := by
  have hstep (u : State) (k : Nat) : (if bitAt m k then u.modStack k fun t => { t with droop := [] } else u) =
      u.modStack k (Stack.forget m k) := by
    unfold Stack.forget
    split
    · rfl
    · rw [State.modStack, State.stack, vset_vget_self]
  have hrun : exec (.droopclr m) s =
      .next { s with stks := mapStacks (Stack.forget m) (List.range 4) s.stks } := by
    change execDroopclr m s = _
    rw [execDroopclr, accepted_of hs]
    simp only [hstep]
    exact congrArg Host.Outcome.next (State.modStacks_eq _ _ _)
  refine ⟨_, hrun, rfl, fun k hk => ?_⟩
  exact (vget_mapStacks (Stack.forget_forget m) _ _ k).trans (if_pos ⟨List.mem_range.2 hk, hk⟩)

/-! ## Energy (R277) -/

/-- What charges change: contexts, by their numbers the same ones, and their events. -/
def State.Charged (s u : State) : Prop := ∃ cs ev ms fc, u = { s with contexts := cs, ctxevt := ev, msix := ms, freeCtr := fc } ∧
  cs.map (fun c => c.num) = s.contexts.map fun c => c.num

theorem State.Charged.refl (s : State) : s.Charged s := ⟨s.contexts, s.ctxevt, s.msix, s.freeCtr, rfl, rfl⟩

theorem State.Charged.trans {s u v : State} (h : s.Charged u) (h' : u.Charged v) : s.Charged v := by
  obtain ⟨cs, ev, ms, fc, rfl, hnums⟩ := h
  obtain ⟨cs', ev', ms', fc', rfl, hnums'⟩ := h'
  exact ⟨cs', ev', ms', fc', rfl, hnums'.trans hnums⟩

theorem State.Charged.foldl {α : Type} {f : State → α → State} (hf : ∀ (u : State) (x : α), u.Charged (f u x)) (xs : List α) (s : State) :
    s.Charged (xs.foldl f s) := by
  induction xs generalizing s with
  | nil => exact .refl s
  | cons x xs ih => exact (hf s x).trans (ih (f s x))

theorem State.charged_charge (s : State) (ctx n : Nat) : s.Charged (s.charge ctx n) := by
  unfold State.charge
  split
  · exact .refl s
  · have hnums (f : Context → Context) (hf : ∀ c, (f c).num = c.num) :
        (s.modCtx ctx f).contexts.map (fun c => c.num) = s.contexts.map fun c => c.num := by
      rw [State.modCtx, List.map_map]
      refine List.map_congr_left fun c _ => ?_
      dsimp only [Function.comp]
      split
      · exact hf c
      · rfl
    dsimp only
    split
    · exact ⟨_, _, _, s.freeCtr, rfl, hnums _ fun _ => rfl⟩
    · exact ⟨_, s.ctxevt, s.msix, s.freeCtr, rfl, hnums _ fun _ => rfl⟩

theorem State.charged_meter (s : State) (k mj : Nat) : s.Charged (s.meter k mj) := by
  unfold State.meter
  dsimp only
  split
  · exact .refl s
  · refine .foldl (fun u t => ?_) _ s
    exact State.Charged.trans ⟨u.contexts, u.ctxevt, u.msix, u.freeCtr + 1, rfl, rfl⟩ (State.charged_charge ..)

/-- The charge of a context that is there. -/
theorem State.charge_found {s : State} {ctx : Nat} {c : Context} (hc : s.ctx? ctx = some c) (n : Nat) : (s.charge ctx n).ctx? ctx = some { c with
    enused := c.enused + BitVec.ofNat 64 n, enover := if c.exhausted then c.enover + BitVec.ofNat 64 n else c.enover,
    exhausted := c.quota != 0 && decide (c.quota.toNat ≤ (c.enused + BitVec.ofNat 64 n).toNat) } := by
  have hraise (u : State) : (u.raiseCtx ctx evQuota).ctx? ctx = u.ctx? ctx := rfl
  simp only [State.charge, hc]
  split
  · rw [hraise, State.ctx_modCtx, hc]
    · rfl
    · exact fun _ h => h
  · rw [State.ctx_modCtx, hc]
    · rfl
    · exact fun _ h => h

/-- The only strand of a stack takes all of its energy. -/
theorem State.ctx_meter_alone {s : State} {k : Nat} {t : Strand} {c : Context} (m : Nat) (h : s.strands.filter (fun t => t.admittedOn k) = [t])
    (hload : t.load16 t.level ≠ 0) (hc : s.ctx? t.ctx = some c) : (s.meter k m).ctx? t.ctx = some { c with
      enused := c.enused + BitVec.ofNat 64 m, enover := if c.exhausted then c.enover + BitVec.ofNat 64 m else c.enover,
      exhausted := c.quota != 0 && decide (c.quota.toNat ≤ (c.enused + BitVec.ofNat 64 m).toNat) } := by
  have hpos : 0 < t.load16 t.level := Nat.pos_of_ne_zero hload
  have halone : s.meter k m = State.charge { s with freeCtr := s.freeCtr + 1 } t.ctx m := by
    simp only [State.meter, h, List.map_cons, List.map_nil, List.foldl_cons, List.foldl_nil, Nat.zero_add, beq_iff_eq, hload, if_false,
      Nat.mul_mod_left, Nat.mul_div_cancel _ hpos, bne_self_eq_false, Bool.false_and]
    rfl
  rw [halone]
  exact State.charge_found (s := { s with freeCtr := s.freeCtr + 1 }) hc m

theorem execEnergyMetering_spec (s : State) (mj : List (Nat × Nat)) : ∃ u, exec (.energyMetering mj) s = .next u ∧ u.mem = s.mem ∧
    u.strands = s.strands ∧ u.powerHist = ((mj.map (·.2)).sum :: s.powerHist).take 1000 ∧
    u.contexts.map (fun c => c.num) = s.contexts.map (fun c => c.num) ∧
    ∀ k m t c, mj = [(k, m)] → s.strands.filter (fun t => t.admittedOn k) = [t] → t.load16 t.level ≠ 0 → s.ctx? t.ctx = some c →
      ∃ x, u.ctx? t.ctx = some x ∧ x.enused = c.enused + BitVec.ofNat 64 m ∧
        x.enover = (if c.exhausted then c.enover + BitVec.ofNat 64 m else c.enover) ∧
        x.exhausted = (c.quota != 0 && decide (c.quota.toNat ≤ x.enused.toNat)) := by
  obtain ⟨cs, ev, ms, fc, hmeter, hnums⟩ := State.Charged.foldl (fun u (e : Nat × Nat) => u.charged_meter e.1 e.2) mj
    { s with powerHist := ((mj.map (·.2)).sum :: s.powerHist).take 1000 }
  have hrun : exec (.energyMetering mj) s =
      .next (mj.foldl (fun s e => s.meter e.1 e.2) { s with powerHist := ((mj.map (·.2)).sum :: s.powerHist).take 1000 }) := by
    rw [List.sum_eq_foldl_nat]
    rfl
  refine ⟨_, hrun, ?_, ?_, ?_, ?_, ?_⟩
  · rw [hmeter]
  · rw [hmeter]
  · rw [hmeter]
  · rw [hmeter]
    exact hnums
  · rintro k m t c rfl halone hload hc
    exact ⟨_, State.ctx_meter_alone (s := { s with powerHist := (([(k, m)].map (·.2)).sum :: s.powerHist).take 1000 }) m halone hload hc, rfl, rfl, rfl⟩

/-! ## Power commands (R321) -/

/-- What a check of lost state, and what it finds, may change. -/
theorem State.parityCheck_rest (s : State) (unit : Nat) : ∃ lost ev ms ss fc,
    s.parityCheck unit = { s with retentionLost := lost, devevt := ev, msix := ms, strands := ss, freeCtr := fc } := by
  simp only [State.parityCheck]
  split
  · unfold State.retentionLoss
    have h := foldl_strands (f := fun s (t : Strand) =>
        match (List.range t.cores.length).find? fun n => (t.cores[n]?.map (·.phys)) == some (unit / 4 % 64) with
        | some n => (s.modStrand t.sid fun t => t.modCl n (unit % 4) fun c => c.strike (List.range 68)).raiseA t.sid cRetain n (unit % 4)
        | none => s) (fun u t => by
      split
      · exact ⟨_, rfl⟩
      · exact ⟨u.strands, rfl⟩)
    exact ⟨_, _, _, _, _, (h _ _).choose_spec⟩
  · exact ⟨s.retentionLost, s.devevt, s.msix, s.strands, _, rfl⟩

theorem State.parityChecks_rest (us : List Nat) (s : State) : ∃ lost ev ms ss fc,
    us.foldl State.parityCheck s = { s with retentionLost := lost, devevt := ev, msix := ms, strands := ss, freeCtr := fc } := by
  induction us generalizing s with
  | nil => exact ⟨s.retentionLost, s.devevt, s.msix, s.strands, s.freeCtr, rfl⟩
  | cons u us ih =>
    obtain ⟨lost, ev, ms, ss, fc, hone⟩ := s.parityCheck_rest u
    obtain ⟨lost', ev', ms', ss', fc', hrest⟩ := ih (s.parityCheck u)
    exact ⟨lost', ev', ms', ss', fc', by rw [List.foldl_cons, hrest, hone]⟩

/-- The power states once a unit has moved to one. -/
def State.powerMoved (s : State) (kind unit : Nat) (p : Power) : List (Nat × Nat × Power) :=
  let rest := s.power.filter fun u => !(u.1 == kind && u.2.1 == unit)
  if p == .active then rest else (kind, unit, p) :: rest

/-- They hold what the unit has moved to, and of every other unit what they held. -/
theorem State.powerOf_moved (s : State) {u : State} (kind unit : Nat) (p : Power) (hu : u.power = s.powerMoved kind unit p) :
    u.powerOf kind unit = p ∧ ∀ j n, (j, n) ≠ (kind, unit) → u.powerOf j n = s.powerOf j n := by
  have hself : (s.power.filter fun u => !(u.1 == kind && u.2.1 == unit)).find? (fun p => p.1 == kind && p.2.1 == unit) = none := by
    rw [List.find?_eq_none]
    intro x hx
    rw [Bool.not_eq_true, ← Bool.not_eq_true']
    exact (List.mem_filter.1 hx).2
  have hother (j n : Nat) (h : (j, n) ≠ (kind, unit)) :
      (s.power.filter fun u => !(u.1 == kind && u.2.1 == unit)).find? (fun p => p.1 == j && p.2.1 == n) =
        s.power.find? fun p => p.1 == j && p.2.1 == n := by
    rw [List.find?_filter]
    refine congrArg (List.find? · s.power) (funext fun x => ?_)
    rw [Bool.eq_iff_iff, decide_eq_true_iff]
    refine ⟨And.right, fun hx => ⟨?_, hx⟩⟩
    simp only [Bool.and_eq_true, beq_iff_eq] at hx
    simpa [Prod.ext_iff, hx.1, hx.2, ← imp_iff_not_or] using h
  refine ⟨?_, fun j n h => ?_⟩
  · rw [State.powerOf, hu, State.powerMoved]
    by_cases hp : (p == Power.active) = true
    · rw [if_pos hp, hself, eq_of_beq hp]
    · rw [if_neg hp, List.find?_cons_of_pos]
      simp
  · have hne : ¬ ((kind == j && unit == n) = true) := fun hjn => by
      simp only [Bool.and_eq_true, beq_iff_eq] at hjn
      exact h (Prod.ext hjn.1.symm hjn.2.symm)
    rw [State.powerOf, hu, State.powerMoved, State.powerOf]
    by_cases hp : (p == Power.active) = true
    · rw [if_pos hp, hother j n h]
    · rw [if_neg hp, List.find?_cons_of_neg (p := fun x : Nat × Nat × Power => x.1 == j && x.2.1 == n) hne, hother j n h]

theorem State.pwrMove_spec (s : State) {kind unit : Nat} (p : Power) (hkind : kind < 4) (hunit : unit < 1024) :
    (s.pwrMove kind unit p).pwrcmd = BitVec.ofNat 64 (s.pwrResult kind unit p * 2 ^ 18 + p.code * 2 ^ 16 + kind * 2 ^ 12 + unit) ∧
    (s.pwrMove kind unit p).mem = s.mem ∧
    (s.pwrResult kind unit p ≠ 0 → s.pwrMove kind unit p = { s with pwrcmd := (s.pwrMove kind unit p).pwrcmd }) ∧
    (s.pwrResult kind unit p = 0 → (s.pwrMove kind unit p).powerOf kind unit = p ∧
      ∀ j n, (j, n) ≠ (kind, unit) → (s.pwrMove kind unit p).powerOf j n = s.powerOf j n) := by
  have hword : BitVec.ofNat 64 (s.pwrResult kind unit p * 2 ^ 18 + p.code * 2 ^ 16 + kind % 4 * 2 ^ 12 + unit % 1024) =
      BitVec.ofNat 64 (s.pwrResult kind unit p * 2 ^ 18 + p.code * 2 ^ 16 + kind * 2 ^ 12 + unit) := by
    rw [Nat.mod_eq_of_lt hkind, Nat.mod_eq_of_lt hunit]
  by_cases hresult : s.pwrResult kind unit p = 0
  · have hmove : ∃ us tr, s.pwrMove kind unit p = List.foldl State.parityCheck { s with
        pwrcmd := BitVec.ofNat 64 (s.pwrResult kind unit p * 2 ^ 18 + p.code * 2 ^ 16 + kind % 4 * 2 ^ 12 + unit % 1024),
        power := s.powerMoved kind unit p, tripped := tr } us := ⟨_, _, if_neg (by simp [hresult])⟩
    obtain ⟨us, tr, hmove⟩ := hmove
    obtain ⟨lost, ev, ms, ss, fc, hcheck⟩ := State.parityChecks_rest us { s with
        pwrcmd := BitVec.ofNat 64 (s.pwrResult kind unit p * 2 ^ 18 + p.code * 2 ^ 16 + kind % 4 * 2 ^ 12 + unit % 1024),
        power := s.powerMoved kind unit p, tripped := tr }
    rw [hcheck] at hmove
    rw [hmove]
    exact ⟨hword, rfl, fun h => absurd hresult h, fun _ => s.powerOf_moved kind unit p rfl⟩
  · have hmove : s.pwrMove kind unit p = { s with
        pwrcmd := BitVec.ofNat 64 (s.pwrResult kind unit p * 2 ^ 18 + p.code * 2 ^ 16 + kind % 4 * 2 ^ 12 + unit % 1024) } :=
      if_pos (by simp [hresult])
    rw [hmove]
    exact ⟨hword, rfl, fun _ => rfl, fun h => absurd h hresult⟩

/-! ## Counted errors and fences (R290, R292) -/

/-- A launch that can no longer be placed is refused: launches, contexts and replays change. -/
theorem State.retest_rest (s : State) : ∃ ws cs rs, s.retest = { s with waiting := ws, contexts := cs, replays := rs } := by
  have hone (u : State) (w : Waiting) : ∃ ws cs rs,
      (if w.image.isSome || !u.noFootprint (u.partOf w.launch.ctx) w.hdr.fp w.launch.serial w.launch.count then u
      else ({ u with waiting := u.waiting.filter fun x => x.num != w.num }.refuseLaunch w.launch w.num 3).nodeEnded w.launch 3) =
        { u with waiting := ws, contexts := cs, replays := rs } := by
    split
    · exact ⟨u.waiting, u.contexts, u.replays, rfl⟩
    · refine ⟨u.waiting.filter fun x => x.num != w.num, ?_⟩
      unfold State.refuseLaunch State.nodeEnded
      cases hfrom : w.launch.from_ <;> exact ⟨_, _, rfl⟩
  rw [State.retest]
  generalize s.waiting = xs
  induction xs generalizing s with
  | nil => exact ⟨s.waiting, s.contexts, s.replays, rfl⟩
  | cons w xs ih =>
    obtain ⟨ws, cs, rs, h⟩ := hone s w
    obtain ⟨ws', cs', rs', hrest⟩ := ih { s with waiting := ws, contexts := cs, replays := rs }
    refine ⟨ws', cs', rs', ?_⟩
    rw [List.foldl_cons, h, hrest]

/-- A fence changes no strand's identity and nothing that a core holds. -/
theorem State.fence_rest (s : State) (x : HwUnit) : ∃ fs de ms ss ev ws cs rs, s.fence x = { s with
      fenced := fs, devevt := de, msix := ms, strands := ss, ctxevt := ev, waiting := ws, contexts := cs, replays := rs } ∧ x ∈ fs ∧
    ∀ t ∈ s.strands, ∃ y ∈ ss, y.sid = t.sid ∧ y.cores = t.cores := by
  have hraise (cs : List Nat) (u : State) : ∃ ev ms, cs.foldl (fun s c => s.raiseCtx c evFenced) u = { u with ctxevt := ev, msix := ms } := by
    induction cs generalizing u with
    | nil => exact ⟨u.ctxevt, u.msix, rfl⟩
    | cons c cs ih =>
      obtain ⟨ev, ms, h⟩ := ih (u.raiseCtx c evFenced)
      exact ⟨ev, ms, h.trans rfl⟩
  rw [State.fence]
  split
  · next hfenced => exact ⟨s.fenced, s.devevt, s.msix, s.strands, s.ctxevt, s.waiting, s.contexts, s.replays, rfl, by simpa using hfenced,
      fun t ht => ⟨t, ht, rfl, rfl⟩⟩
  · split
    · obtain ⟨ws, cs, rs, h⟩ := State.retest_rest ({ s with fenced := s.fenced ++ [x] }.raiseDev 2)
      exact ⟨_, _, _, s.strands, s.ctxevt, ws, cs, rs, h, by simp, fun t ht => ⟨t, ht, rfl, rfl⟩⟩
    · next n hcore =>
      dsimp only
      generalize hask : (fun t : Strand => if (t.status != .ended && t.onUnit 1 n) && t.status != .held && !t.holdReq then t.askHold else t) = ask
      have hkept (t : Strand) : (ask t).sid = t.sid ∧ (ask t).cores = t.cores := by
        subst hask
        dsimp only
        split <;> exact ⟨rfl, rfl⟩
      obtain ⟨ev, ms, hevents⟩ := hraise ((((s.strands.map ask).filter fun t => t.status != .ended && t.onUnit 1 n).map (·.ctx)).eraseDups)
        { { s with fenced := s.fenced ++ [x] }.raiseDev 2 with strands := s.strands.map ask }
      obtain ⟨ws, cs, rs, h⟩ := State.retest_rest { { s with fenced := s.fenced ++ [x] }.raiseDev 2 with
        strands := s.strands.map ask, ctxevt := ev, msix := ms }
      exact ⟨_, _, ms, s.strands.map ask, ev, ws, cs, rs, (congrArg State.retest hevents).trans h, by simp,
        fun t ht => ⟨ask t, List.mem_map_of_mem ht, hkept t⟩⟩

theorem execCorrectedError_spec (s : State) (x : HwUnit) (recent : List (HwUnit × Nat))
    (h : recent = (s.errs ++ [(x, s.wtime)]).filter fun e => decide (s.wtime < e.2 + s.errcfg.toNat / 2 ^ 32 % 2 ^ 16 * 60000000000)) :
    ∃ u, exec (.correctedError x) s = .next u ∧ u.errs = recent ∧ u.mem = s.mem ∧
      (s.errcfg.toNat % 2 ^ 8 ≤ (recent.filter fun e => e.1 == x).length → x ∈ u.fenced) ∧
      (¬ s.errcfg.toNat % 2 ^ 8 ≤ (recent.filter fun e => e.1 == x).length → u.fenced = s.fenced) := by
  have hrun : exec (.correctedError x) s = .next (if fld s.errcfg.toNat 0 8 ≤ (recent.filter fun e => e.1 == x).length then
      State.fence { s with errs := recent, tasks := s.tasks.map fun k => { k with counted := k.counted ++ [x] } } x
      else { s with errs := recent, tasks := s.tasks.map fun k => { k with counted := k.counted ++ [x] } }) := by
    subst h
    rfl
  have hfld : fld s.errcfg.toNat 0 8 = s.errcfg.toNat % 2 ^ 8 := by rw [fld, Nat.pow_zero, Nat.div_one]
  rw [hfld] at hrun
  split at hrun
  · next hreached =>
    obtain ⟨fs, de, ms, ss, ev, ws, cs, rs, hfence, hx, -⟩ :=
      State.fence_rest { s with errs := recent, tasks := s.tasks.map fun k => { k with counted := k.counted ++ [x] } } x
    rw [hfence] at hrun
    exact ⟨_, hrun, rfl, rfl, fun _ => hx, fun h => absurd hreached h⟩
  · next hreached => exact ⟨_, hrun, rfl, rfl, fun h => absurd h hreached, fun _ => rfl⟩

/-! ## What an uncorrectable error strikes (R290) -/

theorem State.strike_rest (s : State) (x : HwUnit) (at_ : Nat) : ∃ po ss, s.strike x at_ = { s with poison := po, strands := ss } := by
  unfold State.strike
  cases x with
  | dram g => exact ⟨_, s.strands, rfl⟩
  | cxl p =>
    dsimp only
    split
    · exact ⟨_, s.strands, rfl⟩
    · exact ⟨s.poison, s.strands, rfl⟩
  | port p => exact ⟨s.poison, s.strands, rfl⟩
  | bank n b => exact ⟨s.poison, _, rfl⟩
  | plane n b => exact ⟨s.poison, _, rfl⟩
  | accBank n b => exact ⟨s.poison, _, rfl⟩
  | core n => exact ⟨s.poison, _, rfl⟩

section
variable (c : Core) {k : Nat}

/-- An element of a context: a register, or the head of a queue that holds something. -/
theorem Core.mem_struck_strike {e : Nat} (hk : k < 4) (he : e < 68) (h0 : e ≠ 0) (h32 : e ≠ 32)
    (hqueue : 64 ≤ e → vget (c.cluster k).q (e - 64) [] ≠ []) : e ∈ ((c.strike k e).cluster k).struck := by
  rw [Core.strike, if_pos he, Core.cluster_modCl _ _ hk, Cluster.strike, List.mem_eraseDups, List.mem_append]
  refine .inr (List.mem_filter.2 ⟨List.mem_cons_self, ?_⟩)
  simp only [Bool.and_eq_true, bne_iff_ne, Bool.or_eq_true, decide_eq_true_eq, Bool.not_eq_true', List.isEmpty_eq_false_iff]
  refine ⟨⟨h0, h32⟩, ?_⟩
  by_cases hlow : e < 64
  · exact .inl hlow
  · exact .inr (hqueue (by omega))

/-- An element that only the core marks. -/
theorem Core.mem_marks_strike {e : Nat} (he : 68 ≤ e) (h : e < 84 ∨ 116 ≤ e ∧ e % 4 ≠ 3) : e ∈ (c.strike k e).marks := by
  have hline : ¬ (decide (116 ≤ e) && e % 8 == 7) = true ∧ ¬ (decide (116 ≤ e) && e % 8 == 3) = true := by
    simp only [Bool.and_eq_true, decide_eq_true_eq, beq_iff_eq]
    omega
  rw [Core.strike, if_neg (by omega), if_neg (by simp only [Bool.and_eq_true, decide_eq_true_eq]; omega), if_neg hline.1, if_neg hline.2]
  exact List.mem_append_right _ List.mem_cons_self

/-- A line of the cluster's L0. -/
theorem Core.l0_strike {i : Nat} {l : Line} (hk : k < 4) (h : (c.cluster k).l0[i]? = some l) :
    ((c.strike k (119 + 8 * i)).cluster k).l0[i]? = some { l with bad := true } := by
  have hi : (119 + 8 * i - 119) / 8 = i := by omega
  rw [Core.strike, if_neg (by omega), if_neg (by simp only [Bool.and_eq_true, decide_eq_true_eq]; omega),
    if_pos (by simp only [Bool.and_eq_true, decide_eq_true_eq, beq_iff_eq]; omega), Core.cluster_modCl _ _ hk, hi]
  simp [strikeLine, h]

/-- A line of the core's L1. -/
theorem Core.l1_strike {i : Nat} {l : Line} (h : c.l1[i]? = some l) :
    (c.strike k (123 + 8 * i)).l1[i]? = some { l with bad := true } := by
  have hi : (123 + 8 * i - 123) / 8 = i := by omega
  rw [Core.strike, if_neg (by omega), if_neg (by simp only [Bool.and_eq_true, decide_eq_true_eq]; omega),
    if_neg (by simp only [Bool.and_eq_true, decide_eq_true_eq, beq_iff_eq]; omega),
    if_pos (by simp only [Bool.and_eq_true, decide_eq_true_eq, beq_iff_eq]; omega), hi]
  simp [strikeLine, h]

/-- A shape slot, by its physical number. -/
theorem Core.mem_marks_strike_shape {e i : Nat} (hlo : 84 ≤ e) (hhi : e < 116) (h : c.units.shapes[i]? = some (e - 84))
    (hfirst : ∀ m < i, c.units.shapes[m]? ≠ some (e - 84)) : 84 + i ∈ (c.strike k e).marks := by
  obtain ⟨hlen, hget⟩ := List.getElem?_eq_some_iff.1 h
  have hfind : c.units.shapes.findIdx? (· == e - 84) = some i := by
    refine List.findIdx?_eq_some_iff_getElem.2 ⟨hlen, by simpa using hget, fun j hj hj' => hfirst j hj ?_⟩
    exact List.getElem?_eq_some_iff.2 ⟨hj.trans hlen, by simpa using hj'⟩
  rw [Core.strike, if_neg (by omega), if_pos (by simp [hlo, hhi]), hfind]
  exact List.mem_append_right _ List.mem_cons_self

end

theorem State.strike_core (s : State) (n at_ : Nat) {t : Strand} (ht : t ∈ s.strands) {j : Nat} {c : Core} (hc : t.cores[j]? = some c)
    (hphys : t.stack * 64 + c.phys = n) (hslot : c.units.slot = at_ / 4 % 4) : ∃ y ∈ (s.strike (.core n) at_).strands, y.sid = t.sid ∧
      y.cores[j]? = some (c.strike (at_ % 4) (at_ / 16)) := by
  refine ⟨_, List.mem_map_of_mem ht, rfl, ?_⟩
  simp [hc, hphys, hslot]

theorem execUncorrectableError_spec (s : State) (x : HwUnit) (at_ : Nat) : ∃ u, exec (.uncorrectableError x at_) s = .next u ∧ x ∈ u.fenced ∧
    u.mem = s.mem ∧ u.poison = (s.strike x at_).poison ∧ ∀ t ∈ (s.strike x at_).strands, ∃ y ∈ u.strands, y.sid = t.sid ∧ y.cores = t.cores := by
  obtain ⟨fs, de, ms, ss, ev, ws, cs, rs, hfence, hx, hstrands⟩ := State.fence_rest (s.strike x at_) x
  refine ⟨_, congrArg Host.Outcome.next hfence, hx, ?_, rfl, hstrands⟩
  obtain ⟨po, ss', hstrike⟩ := s.strike_rest x at_
  rw [hstrike]

/-- An error that strikes a core strikes what its slot, cluster and element name. -/
theorem execUncorrectableError_core {s u : State} {n at_ : Nat}
    (hu : ∀ t ∈ (s.strike (.core n) at_).strands, ∃ y ∈ u.strands, y.sid = t.sid ∧ y.cores = t.cores)
    {t : Strand} (ht : t ∈ s.strands) {j : Nat} {co : Core} (hc : t.cores[j]? = some co) (hphys : t.stack * 64 + co.phys = n)
    (hslot : co.units.slot = at_ / 4 % 4) : ∃ y ∈ u.strands, ∃ d : Core, y.sid = t.sid ∧ y.cores[j]? = some d ∧
      d = co.strike (at_ % 4) (at_ / 16) := by
  obtain ⟨y, hy, hsid, hcore⟩ := s.strike_core n at_ ht hc hphys hslot
  obtain ⟨z, hz, hzsid, hzcores⟩ := hu y hy
  exact ⟨z, hz, _, hzsid.trans hsid, hzcores ▸ hcore, rfl⟩

/-- Settles O53: the envelope, the governor, droop, energy, power commands and errors, each by the lemma on it. -/
theorem powerAndErrors : Obligations.PowerAndErrors := by
  unfold Obligations.PowerAndErrors
  refine ⟨fun s k w hk => ?_, fun s m hs => execDroopclr_spec m hs, execEnergyMetering_spec, fun s k kind unit w m hs i hi => ?_,
    fun s kind unit hkind hunit hs => ?_, fun s x => ⟨execCorrectedError_spec s x _ rfl, fun at_ => ?_⟩⟩
  · intro f ok
    refine ⟨fun hs hok => execPwrenv_taken k hs ((pwrenvBad_iff w).2 hok), fun hs hok => execPwrenv_refused k hs fun h => hok ((pwrenvBad_iff w).1 h),
      fun hdue => ?_, fun p at_ rest hpending hdue => ?_, ⟨_, rfl, ?_, ?_⟩, fun hsig => ?_, fun hend => ?_⟩
    · intro old env cap avg c ceil sensor slow declares fast needs last
      obtain ⟨ss, hrun, hrisk⟩ := execGovernorEvaluation_spec hk hdue
      have hstack : (State.modStack { s with strands := ss, freeCtr := s.freeCtr + 1 } k (s.evaluated k)).stack k = s.evaluated k (s.stack k) :=
        State.stack_modStack _ _ hk
      refine ⟨_, s.wanted k, hrun, rfl, ?_⟩
      rw [hstack]
      have hceil : s.capped k = ceil := s.capped_eq k
      have htop : s.topped k = min (env 4 4) ceil := by rw [State.topped, hceil]; rfl
      refine ⟨rfl, rfl, hceil, rfl, State.wanted_none, State.wanted_some, fun _ t d n hd hn hlt => hrisk t d hd ?_, fun hsame => ?_, fun hnew => ?_⟩
      · have hleast : s.needed k (t, d) = n := (lowest_declPoint s.wtime (s.slowed k) t d).unique hn
        rw [htop, hleast]
        exact hlt
      · rw [← htop] at hsame
        exact Stack.decide_same hsame
      · rw [← htop] at hnew ⊢
        refine ⟨_, Stack.decide_new hnew, ?_, fun hpending => Stack.decide_in_time ?_ hpending⟩
        · exact lt_of_lt_of_le (by omega) (le_max_left ..)
        · have := Nat.mod_lt (Config.delay s.freeCtr) (show 2000 > 0 by omega)
          omega
    · change execOperatingPointChange k s = _
      simp only [execOperatingPointChange, hpending]
      exact if_neg (by omega)
    · rw [State.stack_modStack s _ hk]
      rfl
    · rw [State.stack_modStack s _ hk]
      rfl
    · exact if_neg (by simpa using hsig)
    · exact if_pos (by simp [hend])
  · simp only [List.mem_cons, List.not_mem_nil, or_false] at hi
    rcases hi with rfl | rfl | rfl | rfl | rfl | rfl <;> exact if_pos hs
  · have hopen : ¬ s.wholeReset = true := by simp [hs]
    exact ⟨⟨_, if_neg hopen, s.pwrMove_spec .active hkind hunit⟩, ⟨_, if_neg hopen, s.pwrMove_spec .gated hkind hunit⟩,
      ⟨_, if_neg hopen, s.pwrMove_spec .retain hkind hunit⟩, ⟨_, if_neg hopen, s.pwrMove_spec .off hkind hunit⟩⟩
  · obtain ⟨u, hrun, hx, hmem, hpoison, hstrands⟩ := execUncorrectableError_spec s x at_
    refine ⟨u, hrun, hx, hmem, fun g hg => ?_, fun n hn t ht j co hc hphys hslot => ?_⟩
    · subst hg
      rw [hpoison]
      exact List.mem_append_right _ List.mem_cons_self
    · subst hn
      intro e
      obtain ⟨y, hy, d, hsid, hcore, rfl⟩ := execUncorrectableError_core hstrands ht hc hphys hslot
      have hcl : at_ % 4 < 4 := Nat.mod_lt _ (by omega)
      refine ⟨y, hy, _, hsid, hcore, co.mem_struck_strike hcl, co.mem_marks_strike, fun i l he hl => ?_, fun i l he hl => ?_,
        fun i hlo hhi h hfirst => co.mem_marks_strike_shape hlo hhi h hfirst⟩
      · rw [show at_ / 16 = 119 + 8 * i from he]
        exact co.l0_strike hcl hl
      · rw [show at_ / 16 = 123 + 8 * i from he]
        exact co.l1_strike hl

end Sys2Proof.Machine
end

section
/-! The island: the BARs, the domain, ports, doorbells, completions, firmware and attestation (R303, R310, R312, R315, R318, R319). -/

namespace Sys2Proof.Machine

/-! ## The BARs (R303) -/

/-- An offset within BAR 2 or BAR 4 names a bus address. -/
theorem barBus_eq {bar ofs b : Nat} (h : bar = 2 ∧ ofs < 2 ^ 39 ∧ b = ofs ∨ bar = 4 ∧ ofs < 2 ^ 40 ∧ b = 2 ^ 40 + ofs) :
    barBus bar ofs = some b ∧ (bar == 0) = false := by
  rcases h with ⟨rfl, hofs, rfl⟩ | ⟨rfl, hofs, rfl⟩
  · exact ⟨if_pos (by simpa using hofs), rfl⟩
  · exact ⟨(if_neg (by simp)).trans (if_pos (by simpa using hofs)), rfl⟩

section
variable {s : State} {bar ofs b : Nat} (hup : s.linkUp = true)
include hup

/-- A function-level reset accepts no access (R307). -/
theorem execHostMemory_reset (hreset : s.wholeReset = true) :
    (∀ n, exec (.hostMemoryRead bar ofs n) s = .next s) ∧ ∀ bs, exec (.hostMemoryWrite bar ofs bs) s = .next s := by
  have hlink : ¬ ((!s.linkUp) = true) := by simp [hup]
  exact ⟨fun n => (if_neg hlink).trans (if_pos hreset), fun bs => (if_neg hlink).trans (if_pos hreset)⟩

variable (hopen : s.wholeReset = false) (hbus : barBus bar ofs = some b) (hbar : (bar == 0) = false)
include hopen hbus hbar

theorem execHostMemoryRead_eq (n : Nat) : exec (.hostMemoryRead bar ofs n) s =
    .next (if s.silent b then s.answerEmpty false else s.answer b n) := by
  change execHostMemoryRead bar ofs n s = _
  simp only [execHostMemoryRead, hup, hopen, hbar, hbus, Bool.not_true, Bool.false_eq_true, if_false]

theorem execHostMemoryWrite_eq (bs : List Byte) : exec (.hostMemoryWrite bar ofs bs) s = .next (s.busWrite (cellsAt b bs)) := by
  change execHostMemoryWrite bar ofs bs s = _
  simp only [execHostMemoryWrite, hup, hopen, hbar, hbus, Bool.not_true, Bool.false_eq_true, if_false]

end

/-! ## The domain (R310 to R314) -/

section
variable (s : State) (src addr size : Nat) (v : W64)

/-- An access for another device leaves by its port. -/
theorem execDomainAccess_forwarded {p : Nat} (wr : Bool) (hdest : addr / 2 ^ 49 ≠ Config.ownDevice) (hport : s.portFor src (addr / 2 ^ 49) = some p) :
    exec (.domainAccess src wr addr size v) s = .next { s with sent := s.sent ++ [(src, addr / 2 ^ 49, p)] } := by
  refine congrArg Host.Outcome.next ((if_pos (bne_iff_ne.2 hdest)).trans ((if_pos (by rw [hport]; rfl)).trans ?_))
  simp only [State.send, hport]

/-- With no port for it, it is answered NO-ENDPOINT. -/
theorem execDomainAccess_unrouted (wr : Bool) (hdest : addr / 2 ^ 49 ≠ Config.ownDevice) (hport : s.portFor src (addr / 2 ^ 49) = none) :
    exec (.domainAccess src wr addr size v) s = .next { s with hostOut := s.hostOut ++ [none] } :=
  congrArg Host.Outcome.next ((if_pos (bne_iff_ne.2 hdest)).trans (if_neg (by rw [hport]; exact Bool.false_ne_true)))

variable {s src addr size v} (hdest : addr / 2 ^ 49 = Config.ownDevice)
include hdest

/-- What no entry of the window lets in is answered NO-ENDPOINT. -/
theorem execDomainAccess_refused {wr : Bool} (h : s.exportAt src (addr % 2 ^ 49) wr = none) :
    exec (.domainAccess src wr addr size v) s = .next { s with hostOut := s.hostOut ++ [none] } := by
  refine congrArg Host.Outcome.next ((if_neg fun hne => bne_iff_ne.1 hne hdest).trans ?_)
  rw [h]
  rfl

theorem execDomainAccess_read {b : Nat} (h : s.exportAt src (addr % 2 ^ 49) false = some b) (hbell : isDoorbell b = false) :
    exec (.domainAccess src false addr size v) s = .next (s.answer b size) := by
  refine congrArg Host.Outcome.next ((if_neg fun hne => bne_iff_ne.1 hne hdest).trans ?_)
  simp only [h, hbell, Bool.false_eq_true, if_false]

theorem execDomainAccess_write {b : Nat} (h : s.exportAt src (addr % 2 ^ 49) true = some b) (hbell : isDoorbell b = false) :
    exec (.domainAccess src true addr size v) s = .next ((s.answerEmpty true).busPut b size v.toNat) := by
  refine congrArg Host.Outcome.next ((if_neg fun hne => bne_iff_ne.1 hne hdest).trans ?_)
  simp only [h, hbell, Bool.false_eq_true, if_false, if_true]
  rfl

/-- A store of 8 bytes to a queue pair's word of a doorbell page rings it (R315). -/
theorem execDomainAccess_ring {b : Nat} (h : s.exportAt src (addr % 2 ^ 49) true = some b) (hbell : isDoorbell b = true) (hsize : size = 8)
    (hpair : (b - 2 ^ 41) % 4096 = 8 * (v.toNat % 2 ^ 10 % 512)) : exec (.domainAccess src true addr size v) s =
      .next { s with hostOut := s.hostOut ++ [some []], todo := .ev (.doorbell ((b - 2 ^ 41) / 4096) v) :: s.todo } := by
  refine congrArg Host.Outcome.next ((if_neg fun hne => bne_iff_ne.1 hne hdest).trans ?_)
  simp only [h, hbell, if_true]
  refine if_pos ?_
  rw [Bool.and_eq_true, Bool.and_eq_true, beq_iff_eq, beq_iff_eq, fld, Nat.pow_zero, Nat.div_one]
  exact ⟨⟨hbell, hsize⟩, hpair⟩

end

/-! ## Doorbells (R315) -/

theorem execDoorbell_eq (s : State) (ctx : Nat) (v : W64) : exec (.doorbell ctx v) s = .next { s with
    doorbells := (ctx, (v.extractLsb' 0 10).toNat, (v >>> 32).truncate 32) ::
      s.doorbells.filter fun d => decide (¬ (d.1 = ctx ∧ d.2.1 = (v.extractLsb' 0 10).toNat)) } := by
  have hothers : (s.doorbells.filter fun d => !(d.1 == ctx && d.2.1 == (v.extractLsb' 0 10).toNat)) =
      s.doorbells.filter fun d => decide (¬ (d.1 = ctx ∧ d.2.1 = (v.extractLsb' 0 10).toNat)) := by
    refine List.filter_congr fun d _ => ?_
    rw [decide_not, Bool.decide_and, beq_eq_decide, beq_eq_decide]
  change execDoorbell ctx v s = _
  simp only [execDoorbell, fld_toNat, hothers]
  rfl

/-- Settles O54: each access and event, by the lemma on it. -/
theorem islandEvents : Obligations.IslandEvents := by
  unfold Obligations.IslandEvents
  have hother (p q : Nat × Nat) : (p != q) = decide (p ≠ q) := by
    rw [Bool.eq_iff_iff, bne_iff_ne, decide_eq_true_iff]
  have hanswer (s : State) (b n : Nat) : s.answer b n = { s with hostOut := (s.answer b n).hostOut, hostBad := (s.answer b n).hostBad } := rfl
  refine ⟨fun s bar ofs b hup hwhere => ?_, fun s src addr size v hsize => ⟨fun hdest wr => ⟨fun p =>
    execDomainAccess_forwarded s src addr size v wr hdest, execDomainAccess_unrouted s src addr size v wr hdest⟩, fun hdest => ⟨fun wr => execDomainAccess_refused hdest, fun b hb hbell => ?_, fun b hb =>
    ⟨fun hbell => ?_, execDomainAccess_ring hdest hb⟩⟩⟩, fun s port vc ctx v => ⟨?_, ?_, ?_, ?_⟩, fun s ctx va v => ⟨fun b hb => ?_, fun hnone => ?_⟩,
    fun s => ⟨fun target version image htarget => ?_, fun h => congrArg Host.Outcome.next (if_pos h),
      fun h => congrArg Host.Outcome.next (if_neg (by omega))⟩⟩
  · obtain ⟨hbus, hbar⟩ := barBus_eq hwhere
    refine ⟨execHostMemory_reset hup, fun hopen => ⟨fun n => ⟨fun hsilent => ?_, fun hsilent => ⟨s.answer b n, ?_, hanswer s b n, rfl, rfl⟩⟩,
      fun bs => ⟨_, execHostMemoryWrite_eq hup hopen hbus hbar bs, s.busWrite_cellsAt_writesDevice b bs⟩⟩⟩
    · rw [execHostMemoryRead_eq hup hopen hbus hbar, if_pos hsilent]
      rfl
    · rw [execHostMemoryRead_eq hup hopen hbus hbar, if_neg (by simp [hsilent])]
  · exact ⟨s.answer b size, execDomainAccess_read hdest hb hbell, hanswer s b size, rfl, rfl⟩
  · exact ⟨_, execDomainAccess_write hdest hb hbell, rfl,
      (State.busPut_writesDevice (s.answerEmpty true) b size v.toNat).congr fun i _ => (extractLsb'_eq_byte v i).symm⟩
  · obtain ⟨u, hrun, herrs, -⟩ := execCorrectedError_spec { s with
      portReplays := (port, (match s.portReplays.find? fun p => p.1 == port with
        | some p => p.2
        | none => 0) + 1) :: s.portReplays.filter fun p => p.1 != port } (.port port) _ rfl
    exact ⟨u, hrun, herrs⟩
  · exact congrArg (fun ps => Host.Outcome.next { s with ports := (port, vc) :: ps }) (List.filter_congr fun p _ => hother p (port, vc))
  · exact congrArg (fun ps => Host.Outcome.next { s with ports := ps }) (List.filter_congr fun p _ => hother p (port, vc))
  · exact execDoorbell_eq s ctx v
  · have hstore : s.dispStore ctx va v = some (s.busPut b 8 v.toNat) := by rw [State.dispStore, hb, Option.map_some]
    exact ⟨_, congrArg Host.Outcome.next (congrArg (Option.getD · s) hstore),
      (s.busPut_writesDevice b 8 v.toNat).congr fun i _ => (extractLsb'_eq_byte v i).symm⟩
  · have hstore : s.dispStore ctx va v = none := by rw [State.dispStore, hnone, Option.map_none]
    exact congrArg Host.Outcome.next (congrArg (Option.getD · s) hstore)
  · refine ⟨fun h => congrArg Host.Outcome.next (if_pos ?_), fun h => ⟨_, congrArg Host.Outcome.next (if_neg ?_), rfl, rfl, ?_⟩⟩
    · simpa using h
    · simpa using h
    · simp [State.raiseDev]

end Sys2Proof.Machine
end
